-- ==== Sys2Proof/Word.lean ====
section
/-! DEFINITION. The word types of the model: the 8-byte value field of the dictionary (R34) and the byte. -/

namespace Sys2Proof

/-- The 8-byte value field every dictionary message carries (R34, R43). -/
abbrev Word := BitVec 64

/-- One byte of memory or of a record; every multi-byte field is little-endian (R2). -/
abbrev Byte := BitVec 8

end Sys2Proof
end

