-- ==== Sys2Proof/Syntax.lean ====
section
/-! DEFINITION. The commands of the KR1024 block: one constructor of `Instr` per row of spec/opcode_table.json, with the operands a command carries,
and the types of those operands. What the outside world decides (a sampled lane state, a measured delay, an outcome of a verify) is an operand. -/

namespace Sys2Proof

/-- The path a dictionary access comes by (R36, R51, R55, R377): the unframed mailbox, the hot window, an open session, or a batch
without a session (SESSION 0) over Ethernet or in a session-framed mailbox submission. -/
inductive Path where
  | mailbox
  | hot
  | session (n : Nat)
  | noSession
deriving DecidableEq, Repr

/-- A 16-byte message (R43). -/
structure Message where
  opcode : BitVec 8
  last : Bool
  dflt : Bool
  status : BitVec 6
  index : BitVec 8
  key : BitVec 32
  value : Word
deriving DecidableEq, Repr

/-- A batch as it travels (R46): the 16-byte header's fields, the messages, and the tag (little-endian bytes) of an authenticated batch. -/
structure Batch where
  version : BitVec 8
  atomic : Bool
  auth : Bool
  count : BitVec 8
  session : BitVec 32
  counter : Word
  messages : List Message
  tag : List Byte
deriving DecidableEq, Repr

/-- A DMA descriptor (R335). -/
structure Descriptor where
  hostAddr : Nat
  devAddr : Nat
  length : Nat
  toHost : Bool
  blob : Bool
  irq : Bool
  fence : Bool
  tag : BitVec 16
deriving DecidableEq, Repr

/-- A ring flit (R227). `due` is an epoch time in slice ticks (32 per FREF period): on the lanes its bits 47:0, in the device whole. -/
structure Flit where
  typ : Nat
  cls : Nat
  src : Nat
  resent : Bool
  seq : Nat
  mark : Bool
  due : Nat
  payload : BitVec 32
  crc : BitVec 16
deriving DecidableEq, Repr

/-- A ternary S-lane state (R181). -/
inductive Tern where
  | low | mid | high
deriving DecidableEq, Repr

/-- The times of a PTP message other than a Sync (R314), in 2^-16 ns: none; a Delay_Resp with the transmitter's receive time; a peer's Pdelay_Resp with its receive and send
times and the captured arrival; a peer's Pdelay_Req with its captured arrival. -/
inductive PtpTimed where
  | untimed
  | delayResp (t4 : Int)
  | peerResp (t2 t3 capture : Int)
  | peerReq (capture : Int)
deriving DecidableEq, Repr

/-- What a TIU input shows (R245): an S-lane goes from one state to another, or an AUXIN crosses its threshold. -/
inductive InputEdge where
  | lane (was now : Tern)
  | aux (falling : Bool)
deriving DecidableEq, Repr

/-- What one S-lane showed at one channel's strobe of a cycle: the state at CA, then each later state with how long it held (ps) until CB (R200, R202).
An EDGE strobe uses only the state at CA. `shortSeen` is the device's choice for states held less than 60 ps. -/
structure ChanObs where
  channel : Nat
  atCA : Tern
  later : List (Tern × Nat)
  shortSeen : Bool
deriving DecidableEq, Repr

/-- The location of a fault raise (R369). -/
inductive Loc where
  | none
  | thread (n : Nat)
  | channel (g : Nat)
  | slice (s : Nat)
  | dac (d : Nat)
  | subch (i : Nat)
  | unit (u : Nat)
deriving DecidableEq, Repr

/-- One raise that reaches the collector: source, location, DETAIL of the record, injected (R377). -/
structure Raise where
  source : Nat
  loc : Loc
  detail : Nat
  injected : Bool
deriving DecidableEq, Repr

/-- The outcome of an ECC check (R135, R297-R299): clean, corrected (with the byte lane), uncorrectable. -/
inductive Ecc where
  | clean
  | corrected (lane : Nat)
  | uncorrectable
deriving DecidableEq, Repr

/-- What deskew measured on one channel (R188): the S-lane's common mode within its range (step 2), all samples of the three levels as sent (step 3), the round trip in slice
ticks (step 4), the positions of the four transitions in grid steps (step 5), and the eye in ps (step 6). -/
structure DeskewResult where
  channel : Nat
  present : Bool
  levels : Bool
  coarse : Nat
  rise : Nat
  fall : Nat
  dip : Nat
  lift : Nat
  eye : Nat
deriving DecidableEq, Repr

/-- What the S-lanes showed of one cycle of a diagnostic run (R197): the point, the counted loop, the row within the loop. A channel not named showed 0. For LOOPBACK the row
numbers a symbol, and the channels named are those whose state differed from the symbol sent. -/
structure DiagObs where
  point : Nat
  pass : Nat
  row : Nat
  obs : List ChanObs
deriving DecidableEq, Repr

/-- What a routine found on one unit (R357, R366): passed, and the fields of its result object. -/
structure UnitResult where
  unit : Nat
  passed : Bool
  block : Nat
  chan : Nat
  error : Nat
deriving DecidableEq, Repr

/-- The configuration registers of a DMA channel block (R333) beside CTRL and PRODUCER. -/
inductive ChanReg where
  | descBase
  | cplBase
  | ringLog2
  | status
deriving DecidableEq, Repr

/-- Start-up training outcome of one sub-channel (R292): 0 trained, 1 START_TRAIN, 3 INIT; delays and eyes of its five lanes; RFM support reported. -/
structure SubchTrain where
  subch : Nat
  cause : Nat
  lanes : List (Nat × Nat × Nat × Nat)
  rfm : Bool
deriving DecidableEq, Repr

/-- The commands. -/
inductive Instr where
  -- dictionary traffic (spec/02)
  /-- DICT_BATCH: one UDP datagram. -/
  | dictBatch (b : Batch)
  /-- MAILBOX_DOORBELL: COUNT and FRAMED of the doorbell (R330) with the contents of the request area. -/
  | mailboxDoorbell (count : Nat) (framed : Bool) (b : Batch)
  /-- ATOMIC_GROUP: the messages of a batch with ATOMIC set. -/
  | atomicGroup (p : Path) (ms : List Message)
  /-- READ. Through BAR0 there is no INDEX: 0 there is the aligned read of 8 bytes, 1 and 2 the reads of the lower and upper 4 (R54). -/
  | read (p : Path) (dflt : Bool) (index : Nat) (key : Nat)
  /-- WRITE. -/
  | write (p : Path) (last : Bool) (index : Nat) (key : Nat) (value : Word)
  | subscribe (p : Path) (key : Nat) (value : Word)
  | unsubscribe (p : Path) (key : Nat)
  /-- SESSION_OPEN: over Ethernet or a session-framed mailbox submission (`overMailbox`). -/
  | sessionOpen (overMailbox : Bool) (slot : Nat) (clientNonce : Word)
  | sessionConfirm (n : Nat) (counter : Word)
  | sessionClose (n : Nat)
  | sessionIdleTimeout (n : Nat)
  /-- NOTIFY: the next notification of destination `p` for `key`. -/
  | notify (p : Path) (key : Nat)
  /-- HOT_WINDOW_WRITE: an access of `width` bytes at `offset` bytes into slot `slot` (R54). -/
  | hotWindowWrite (slot : Nat) (offset width : Nat) (value : Word)
  | bar0StrayWrite
  | bar2Write (addr : Nat) (data : List Byte)
  | bar2Read (addr len : Nat) (ecc : Ecc)
  | dictPersist (p : Path) (arg : Word)
  /-- DICT_PERSIST_DONE: `ok` is the read-back verify. -/
  | dictPersistDone (ok : Bool)
  | dictRevert (p : Path) (arg : Word)
  -- device modes (spec/03)
  | requestTrain (p : Path)
  | requestIdle (p : Path)
  | requestLoad (p : Path)
  | requestArmed (p : Path)
  | requestDiagnose (p : Path)
  | requestCalibrate (p : Path)
  | requestService (p : Path)
  | requestQuiesce (p : Path)
  | modeChangeDone
  | loadCheck (p : Path) (arg : Word)
  /-- LOAD_CHECKS_DONE: the verdict is computed from the state. -/
  | loadChecksDone
  | calibrateAutoExit
  | returnToArmed
  | sliceDiagRequest (p : Path) (arg : Word)
  | diagStart (p : Path)
  | diagStop (p : Path)
  /-- DIAG_RUN_DONE: what the S-lanes showed, cycle by cycle of the counted loops. -/
  | diagRunDone (obs : List DiagObs)
  -- bursts and audit (spec/01, spec/03)
  | burstStart (p : Path) (arg : Word)
  /-- BURST_LAUNCH: `late` names the slices whose launch message came after the launch time (R20). -/
  | burstLaunch (late : List Nat)
  | burstStop (p : Path) (arg : Word)
  | auditDrainEnd (drainNs : Nat)
  | auditDrainTimeout
  -- scheduler (spec/04)
  | dispatch (core : Nat)
  | preempt (core : Nat)
  | spanArrival (slice thread seq : Nat)
  | spanCreditReturn (slice thread : Nat)
  | fetchComplete (thread : Nat)
  /-- CYCLE_START of one thread's port: what the S-lanes showed, whether the row is missing (R155), and the microword's check-bit outcome (R135). -/
  | cycleStart (thread : Nat) (obs : List ChanObs) (missing : Bool) (uword : Ecc)
  -- microwords (spec/05); every one names the thread that executes it
  | adv (thread rep : Nat)
  | segm (thread label : Nat) (trigen : Bool) (trigout rep : Nat)
  | trigTrigout (thread unit rep : Nat)
  | trigTiuArm (thread unit rep : Nat)
  | trigAdcStart (thread mask rep : Nat)
  | trigDacLoad (thread group rep : Nat)
  | trigAcqArm (thread unit rep : Nat)
  | trigRing (thread line rep : Nat)
  /-- CAPC words carry all three fields (R108); the row names the field the word is issued for. -/
  | capcFullcap (thread fullcap judge sig rep : Nat)
  | capcJudge (thread fullcap judge sig rep : Nat)
  | capcSig (thread fullcap judge sig rep : Nat)
  | flag (thread : Nat) (setuf clruf : BitVec 8) (rcn : Nat) (rcpub rcval : Bool) (rep : Nat)
  | loop (thread ctr count rep : Nat)
  | halt (thread rep : Nat)
  | jmp (thread : Nat) (cond : Nat) (inv : Bool) (target : Int)
  | call (thread : Nat) (cond : Nat) (inv : Bool) (target : Int)
  | ret (thread : Nat) (cond : Nat) (inv : Bool)
  | lend (thread ctr : Nat) (target : Int)
  | pref (thread : Nat) (target : Int)
  | sync (thread partner : Nat) (send wait : Bool)
  | matchStart (thread body timeout : Nat) (inv : Bool)
  | matchExit (thread : Nat)
  | waittrig (thread source timeout : Nat)
  | waittrigTimeout (thread : Nat)
  | waittime (thread time : Nat)
  | waittimeWake (thread : Nat)
  /-- SYNC_TOKEN: a token of event time `t` tu (port time) from thread `sender` reaches thread `thread`. -/
  | syncToken (thread sender t : Nat)
  | hostJump (p : Path) (thread : Nat) (arg : Word)
  | hostJumpTaken (thread : Nat)
  | hostTrig (p : Path) (value : Word)
  -- results and host rings (spec/09, spec/15)
  | resultRecord
  | ringConsumerWrite (p : Path) (value : Word)
  | ringBaseWrite (p : Path) (value : Word)
  | eventConsumerWrite (p : Path) (value : Word)
  /-- DMA_DOORBELL: PRODUCER written, with the descriptors the host ring holds from CONSUMER on. -/
  | dmaDoorbell (ch : Nat) (producer : BitVec 32) (descs : List Descriptor)
  | dmaRun (ch : Nat) (haltOnErr : Bool)
  | dmaStop (ch : Nat)
  /-- DESC_BASE_WRITE: a write of DESC_BASE, or of another configuration register of the channel block (R333). -/
  | descBaseWrite (ch : Nat) (reg : ChanReg) (value : Word)
  /-- DESCRIPTOR_CLOSE: the oldest open descriptor of the channel ends; `data` is what the host memory holds (host to device), `uncorrectable` the number
  of bytes moved before an uncorrectable DDR5 read, if any. -/
  | descriptorClose (ch : Nat) (data : List Byte) (uncorrectable : Option Nat)
  /-- DMA_HOST_ERROR: CAUSE 1, 2 or 3 of R338 after the bytes `data` had moved. -/
  | dmaHostError (ch cause : Nat) (data : List Byte)
  | hostIslandReset
  | pcieLinkDown (longOrWaiting : Bool)
  -- Fern and ring (spec/10)
  /-- FERN_ALIGN: `din` the measured D_IN in fs, `none` where no return arrives within 1 ms. -/
  | fernAlign (p : Path) (arg : Word) (din : Option Nat) (roundTrip : Nat)
  | fernAlignLocal (p : Path)
  | fernAlignTimeout (noReturn : Bool)
  | fsyncPulse
  /-- FERN_RETURN: the measured round trip in fs, `none` if the return was not received. -/
  | fernReturn (roundTrip : Option Nat)
  | frefLoss
  | ringForm (p : Path)
  | ringFormTimeout (reason position : Nat)
  /-- A flit arrives on the receive lanes of port A (the B to A direction) or of port B. -/
  | flitForm (portA : Bool) (f : Flit)
  /-- FLIT_MEASURE: epoch slice tick of the arrival and grid position (0-399) within it. -/
  | flitMeasure (portA : Bool) (f : Flit) (tick grid : Nat)
  | flitStartReq (portA : Bool) (f : Flit)
  | flitLaunch (portA : Bool) (f : Flit)
  | flitCond (portA : Bool) (f : Flit)
  | flitToken (portA : Bool) (f : Flit)
  | flitTrig (portA : Bool) (f : Flit)
  | flitBreak (portA : Bool) (f : Flit)
  | flitErrored (portA : Bool) (f : Flit)
  | ringDue
  | ringLinkDown (portB : Bool)
  -- measurement and acquisition (spec/11)
  /-- TRIGIN_EDGE: the level that the ball of line `n` takes. -/
  | triginEdge (n : Nat) (high : Bool)
  | trigoutPulse (p : Path) (arg : Word)
  | trigoutEnd (n : Nat)
  | tiuArm (p : Path) (u : Nat)
  | tiuDisarm (p : Path) (u : Nat)
  /-- TIU_EDGE: an edge at input B (`onB`) or A of unit `u` in an epoch tick; `since` is the time in ps since the previous qualifying edge on that input (R247). -/
  | tiuEdge (u : Nat) (onB : Bool) (e : InputEdge) (tick since : Nat)
  | tiuGateEnd (u : Nat)
  | tiuTimeout (u : Nat)
  | tiuHoldoffEnd (u : Nat)
  | adcStart (p : Path) (n : Nat)
  | adcStop (p : Path) (n : Nat)
  /-- ADC_CONVERSION: the unsaturated code of input `n`. -/
  | adcConversion (n : Nat) (code : Int)
  | acqArm (p : Path) (u : Nat)
  | acqDisarm (p : Path) (u : Nat)
  | acqForce (p : Path) (u : Nat)
  /-- ACQ_SAMPLE: the oldest sample offered to unit `u` (R254) is evaluated at service-logic edge `edge` (epoch time in slice ticks). -/
  | acqSample (u edge : Nat)
  | acqGroupFire (u : Nat)
  | acqRearmEnd (u : Nat)
  | acqRelease (p : Path) (u : Nat) (value : Word)
  | failRateInterval (port : Nat)
  /-- DIE_TEMP_SAMPLE: the hottest sensor, 1/128 °C. -/
  | dieTempSample (t : Int)
  -- level DACs (spec/12)
  | dacLoad (p : Path) (arg : Word)
  | dacParkWrite (p : Path) (dac : Nat) (value : Word)
  /-- DAC_COMPLIANCE: the node voltage in mV. -/
  | dacCompliance (dac : Nat) (mv : Int)
  | dacModulator (dac : Nat)
  -- time, slots, network (spec/14)
  | slotArm (p : Path) (n : Nat)
  | slotCancel (p : Path) (n : Nat)
  | slotLaunch (n : Nat)
  | slotAction (n : Nat)
  | timeLatch (p : Path) (arg : Word)
  | timeStepPending (p : Path)
  | timeStepSet (p : Path)
  /-- PTP_SYNC: an accepted Sync: the time transmitter's origin time with its correction fields, and the device time at which the MAC captured its arrival, both in 2^-16 ns. -/
  | ptpSync (origin capture : Int)
  /-- PTP_MESSAGE: the port state that the best master clock algorithm leaves, and the times that the message carries. -/
  | ptpMessage (portState : Nat) (times : PtpTimed)
  | holdoverTimeout
  /-- PTM_CORR: the command on a path, or with no path the expiry of PTM_INTERVAL; `enabled`: PTM is enabled in the PCIe capability. -/
  | ptmCorr (p : Option Path) (arg : Word) (enabled : Bool)
  /-- PTM_RESPONSE: raw counts t1, t4 and root times t2, t3 in ns. -/
  | ptmResponse (t1 t4 t2 t3 : Nat)
  | ptmTimeout
  /-- ETH_FRAME: kind 0 ARP, 1 ICMP echo, 2 ICMPv6 echo, 3 neighbour discovery, 4 pause, 5 other; addressed to the device; length in bytes; tagged. -/
  | ethFrame (kind : Nat) (toDevice : Bool) (len : Nat) (tagged : Bool)
  | ethLinkDown
  -- Badger (spec/16)
  | reqCmd (p : Path) (slot : Nat) (arg : Word)
  | calCancel (p : Path) (arg : Word)
  | routineStart
  | conditionalWaitEnd (timedOut : Bool)
  /-- ROUTINE_COMMIT with what the routine found (its shadows). -/
  | routineCommit (deskew : List DeskewResult) (units : List UnitResult)
  | postCommitEnd
  | routineOverrun
  | reqDeadline (slot : Nat)
  /-- DRIFT_TRACKING: the measured lag of slice `s` in fs. -/
  | driftTracking (s : Nat) (lag : Int)
  | driftCorrectionApply (s : Nat)
  | driftLimit (s : Nat)
  | eyeAggregation (s : Nat)
  | marginError (g : Nat)
  | laneTxFault (g : Nat)
  | laneRxOpen (g : Nat)
  | slicePllUnlock (s : Nat)
  | slicePllLock (s : Nat)
  | adcReferenceCheck (ok : Bool)
  | nvmVerify (page : Nat) (ok : Bool)
  -- faults and guard (spec/17)
  /-- FAULT_RAISE: the raises that reach the collector in one collector cycle. -/
  | faultRaise (rs : List Raise)
  | faultCauseClear (p : Path) (el : Nat) (value : Word)
  | faultCauseRead (p : Path) (el : Nat)
  /-- FIRST_FAULT_READ: element `el` (1 or 2) of FIRST_FAULT (`obj` none) or of history object `obj`. -/
  | firstFaultRead (p : Path) (hist : Option Nat) (el : Nat)
  | ffClear (p : Path) (arg : Word)
  | faultInject (p : Path) (arg : Word)
  | faultInjectTimeout
  | quietPeriod
  | safeUnlatch (p : Path) (arg : Word)
  | guardCommit (p : Path) (arg : Word)
  | guardCommitDone (ok : Bool)
  | guardUnlocked
  | watchdogKick
  | watchdogExpiry
  -- Lichen (spec/18)
  | bbNote (p : Path) (value : Word)
  /-- LEDGER_SECOND: the eight die sensors, 1/128 °C (R433). -/
  | ledgerSecond (temps : List Int)
  | ledgerSnapshot
  | fwActivate (p : Path) (arg : Word)
  -- reset, boot, power (spec/19)
  /-- POWER_ON_RESET: bit i of `rails`: rail i in the order of FS000-FS006 fell below its reset threshold. -/
  | powerOnReset (rails : BitVec 7)
  | resetNLow
  | deviceReset (p : Path) (arg : Word)
  | deviceResetTaken
  | tapReset
  /-- RESET_RELEASE: the image results of BOOT's steps 3 and 4 (R414): result codes of slots 0 and 1 (0 not tried), header rejected or not, and the accepted
  image's FW_VERSION; `pwrfailHigh` and `released` say whether PWRFAIL_N is high and every source released. -/
  | resetRelease (released pwrfailHigh : Bool) (slot0 slot1 : Nat) (fwVersion : BitVec 32)
  /-- BOOT_DONE: duration in ms. -/
  | bootDone (ms : Nat)
  /-- TRAIN_DONE: duration, DDR5 training results, deskew results. -/
  | trainDone (ms : Nat) (ddr : List SubchTrain) (deskew : List DeskewResult)
  | pwrfail
  | powerFailRecord
  | quiesceFlushed
  -- DDR5 (spec/13)
  | dramRead (addr : Nat) (ecc : Ecc)
  /-- DRAM_WRITE: bytes at a burst, as offset and byte; `ecc` is the outcome of the read of a read-modify-write (R285). -/
  | dramWrite (addr : Nat) (data : List Byte) (ecc : Ecc)
  | writeDrain (subch : Nat)
  /-- REFRESH_DUE: a tREFI boundary of a rank; `paid` refreshes were paid opportunistically since the last one. -/
  | refreshDue (subch rank paid : Nat)
  /-- REFRESH_RATE_POLL: the rate a rank reports: 1 normal, 2 doubled, above 2 hotter. -/
  | refreshRatePoll (subch rank rate : Nat)
  | act (subch rank bank row : Nat)
  | actWindowReset (subch rank : Nat)
  /-- RETRAIN_PAUSE: a pause sweeps lane `lane`, read or write direction, and finds an eye of `eye` at midpoint `mid` (1/128 UI). -/
  | retrainPause (subch lane : Nat) (writeDir : Bool) (eye mid : Nat)
  | retrainEnd (subch : Nat)
  | ceRateCheck (subch lane corrected : Nat)
  | dramFillDone
  | liveBitClear (source : Nat)
  | pcieLinkUp
  | ethLinkUp (speed : Nat)
  | ringLinkLock (portB : Bool)
  /-- RING_SLOT: epoch slice tick at which the slot departs and grid position (0-399) within it. -/
  | ringSlot (tick grid : Nat)
  /-- FW_ACTIVATE_DONE: 0 ok, 1 header rejected, 2 signature failed, 3 NVM write failed. -/
  | fwActivateDone (outcome : Nat)
  /-- PTP_EVENT_FRAME_SEND: kind 0 Sync, 1 Delay_Req, 2 Pdelay_Req, 3 Pdelay_Resp; whether the MAC can insert the timestamp in the frame (R316); the device time at which it
  captured the departure, in 2^-16 ns. -/
  | ptpEventFrameSend (kind : Nat) (canInsert : Bool) (capture : Int)
  /-- INTERRUPT_COALESCING: the FAULT window (10 µs) or the RECORD window (1 µs) ends. -/
  | interruptCoalescing (record : Bool)
deriving DecidableEq, Repr

end Sys2Proof
end

