-- ==== Sys2Proof/Config.lean ====
section
/-! DEFINITION. The values the spec leaves open. Each is a constant without a body: nothing can be proved of it but what holds for every value. -/

namespace Sys2Proof.Config

/-- The `n`-th 64-bit value the spec leaves open (a device nonce, a value the spec does not state); `n` is `State.freeCount` (log entry 4). -/
opaque freeWord : Nat → Word

/-- The `n`-th choice the spec leaves open (log entry 4). -/
opaque freeBool : Nat → Bool

/-- Whether the revision implements a key of the vendor service area 7F (R33); the manual lists none (log entry 14). -/
opaque vendorKey : Nat → Bool

/-- The default of a key of the vendor service area 7F. -/
opaque vendorDefault : Nat → Word

/-- The code (R58, less one) of a hot-window write that is not an aligned access of at least the object's width (R54), which the manual does not name; by slot, offset and width (log entry 24). -/
opaque misalignedCode : Nat → Nat → Nat → Fin 34

/-- Half the capacity the SPI NOR reports, the bytes of one image slot where they reach the least of R413 (log entry 111). -/
opaque fwSlotBytes : Nat

/-- What PCIE_LINK reads while the link is up (R344): the width, speed and settings the link negotiated (log entry 111). -/
opaque pcieLink : Word

/-- The state of a ring lane's scrambler (R226) as a slot departs, by the number of outputs before and the lane: the empty slots between, and how it starts, are not told
(log entry 149). -/
opaque scrambler : Nat → Nat → BitVec 58

/-- HK_LOAD (R346, R359) in each 1 ms since RESET, which the spec bounds by a half and does not state (log entry 155). -/
opaque hkLoad : Nat → Fin 51

/-- Whether the management core is intact after a machine check (R371) (log entry 99). -/
opaque coreIntact : Bool

end Sys2Proof.Config
end

