-- ==== Sys2Proof/Machine/Bits.lean ====
section
/-! DEFINITION. Bit fields, byte order and sparse stores: the helpers every register, record and table of the model is read and written with. -/

namespace Sys2Proof.Machine

/-- The field of `len` bits whose lowest bit is `lo` (R2: a range high:low). -/
def field (w : Word) (lo len : Nat) : Nat := (w.toNat >>> lo) % 2 ^ len

/-- `len` ones from bit `lo` up. -/
def fieldMask (lo len : Nat) : Word := BitVec.ofNat 64 ((2 ^ len - 1) * 2 ^ lo)

/-- `w` with the field of `len` bits at `lo` replaced by `v` (taken modulo 2^len). -/
def setField (w : Word) (lo len v : Nat) : Word :=
  (w &&& ~~~ (fieldMask lo len)) ||| BitVec.ofNat 64 ((v % 2 ^ len) * 2 ^ lo)

/-- Bit `i` of a word. -/
def bit (w : Word) (i : Nat) : Bool := w.getLsbD i

/-- `w` with bit `i` set to `b`. -/
def setBit (w : Word) (i : Nat) (b : Bool) : Word := setField w i 1 (if b then 1 else 0)

/-- A Bool as a bit. -/
def b2n (b : Bool) : Nat := if b then 1 else 0

/-- A natural number as a 64-bit value. -/
def toWord (n : Nat) : Word := BitVec.ofNat 64 n

/-- An integer as a 64-bit two's complement value (R34: I32, I64, T64). -/
def intWord (i : Int) : Word := BitVec.ofInt 64 i

/-- The lowest `n` bits of a word read as a two's complement number. -/
def signedField (w : Word) (lo len : Nat) : Int :=
  let v := field w lo len
  if v < 2 ^ (len - 1) then (v : Int) else (v : Int) - (2 ^ len : Nat)

/-- `n` saturated at `max` (counters that saturate). -/
def satTo (max n : Nat) : Nat := if n ≤ max then n else max

/-- The `n` bytes of `v`, least significant first (R2). -/
def leBytes : Nat → Nat → List Byte
  | 0, _ => []
  | n + 1, v => BitVec.ofNat 8 v :: leBytes n (v / 256)

/-- The number whose little-endian bytes are `bs` (R2). -/
def ofLeBytes : List Byte → Nat
  | [] => 0
  | b :: bs => b.toNat + 256 * ofLeBytes bs

/-- The positions below `n` whose bit is set in `v`, ascending. -/
def bitsOf (n v : Nat) : List Nat := (List.range n).filter (fun i => v.testBit i)

/-- ⌈a ÷ b⌉ on naturals. -/
def ceilDiv (a b : Nat) : Nat := (a + b - 1) / b

/-- Division rounded to nearest, a half rounding up. -/
def roundDiv (a b : Nat) : Nat := (2 * a + b) / (2 * b)

/-! ## Sparse stores: sorted lists of key and value, an unlisted key reading as a given value. -/

/-- The value at key `k`, `d` where unlisted. -/
def mget {α : Type} (d : α) : List (Nat × α) → Nat → α
  | [], _ => d
  | (k', v) :: r, k => if k' = k then v else mget d r k

/-- The list without key `k`. -/
def merase {α : Type} : List (Nat × α) → Nat → List (Nat × α)
  | [], _ => []
  | (k', v) :: r, k => if k' = k then merase r k else (k', v) :: merase r k

/-- `k` and `v` put before the first larger key. -/
def minsert {α : Type} : List (Nat × α) → Nat → α → List (Nat × α)
  | [], k, v => [(k, v)]
  | (k', v') :: r, k, v => if k < k' then (k, v) :: (k', v') :: r else (k', v') :: minsert r k v

/-- The store with `v` at `k`; a value equal to the unlisted one removes the entry, so equal stores are equal lists. -/
def mset {α : Type} [DecidableEq α] (d : α) (m : List (Nat × α)) (k : Nat) (v : α) : List (Nat × α) :=
  if v = d then merase m k else minsert (merase m k) k v

/-- Keys strictly rising. -/
def keysRise {α : Type} : List (Nat × α) → Bool
  | [] => true
  | [_] => true
  | (k, _) :: (k', v') :: r => decide (k < k') && keysRise ((k', v') :: r)

end Sys2Proof.Machine
end

