-- ==== Sys2Proof/Machine/Codes.lean ====
section
/-! DEFINITION. Codes the spec numbers: error codes (R58), device modes (R59), thread states and stop reasons (R75), command states (R39), severities (R368),
interrupt sources (R343), fault sources (R373). -/

namespace Sys2Proof.Machine

/-- The error codes of R58. -/
inductive Code where
  | ok | noObject | typeMismatch | range | reservedSet | readOnly | writeOnly | wrongMode | guardLocked | noSession | authFail | replay | sessionFull | badFormat
  | badVersion | busy | atomicAborted | notAtomic | blobPath | strInvalid | keyInvalid | nvmBusy | nvmFail | envelope | locked | disabled | loadRefused | auditBusy
  | late | timeJumpRefused | safeLatched | calDeferredTimeout | subFull | aborted | hwFail
deriving DecidableEq, Repr

/-- The number of a code (R58). -/
def Code.toNat : Code → Nat
  | .ok => 0x00 | .noObject => 0x01 | .typeMismatch => 0x02 | .range => 0x03 | .reservedSet => 0x04 | .readOnly => 0x05 | .writeOnly => 0x06 | .wrongMode => 0x07
  | .guardLocked => 0x08 | .noSession => 0x09 | .authFail => 0x0A | .replay => 0x0B | .sessionFull => 0x0C | .badFormat => 0x0D | .badVersion => 0x0E | .busy => 0x0F
  | .atomicAborted => 0x10 | .notAtomic => 0x11 | .blobPath => 0x12 | .strInvalid => 0x13 | .keyInvalid => 0x14 | .nvmBusy => 0x15 | .nvmFail => 0x16
  | .envelope => 0x17 | .locked => 0x18 | .disabled => 0x19 | .loadRefused => 0x1A | .auditBusy => 0x1B | .late => 0x1C | .timeJumpRefused => 0x1D
  | .safeLatched => 0x1E | .calDeferredTimeout => 0x1F | .subFull => 0x20 | .aborted => 0x21 | .hwFail => 0x22

/-- The first code whose condition holds, `ok` if none does (R37). -/
def refuse : List (Bool × Code) → Code
  | [] => .ok
  | (b, c) :: r => if b then c else refuse r

namespace Mode
/-- Mode codes of R59. -/
abbrev reset : Nat := 0x0
abbrev boot : Nat := 0x1
abbrev train : Nat := 0x2
abbrev idle : Nat := 0x3
abbrev load : Nat := 0x4
abbrev armed : Nat := 0x5
abbrev burst : Nat := 0x6
abbrev diagnose : Nat := 0x7
abbrev calibrate : Nat := 0x8
abbrev service : Nat := 0x9
abbrev safe : Nat := 0xA
abbrev quiesce : Nat := 0xB
end Mode

namespace Cmd
/-- STATE of a command status word (R39). -/
abbrev idle : Nat := 0
abbrev pending : Nat := 1
abbrev running : Nat := 2
abbrev done : Nat := 3
abbrev failed : Nat := 4
end Cmd

namespace Th
/-- STATE of THREAD_STATE (R75). -/
abbrev dormant : Nat := 0
abbrev ready : Nat := 1
abbrev running : Nat := 2
abbrev waiting : Nat := 3
abbrev matching : Nat := 4
abbrev held : Nat := 5
abbrev done : Nat := 6
abbrev faulted : Nat := 7
end Th

namespace Stop
/-- STOP_REASON of THREAD_STATE (R75). -/
abbrev none : Nat := 0
abbrev halt : Nat := 1
abbrev hostStop : Nat := 2
abbrev refillUnderrun : Nat := 3
abbrev stackOvf : Nat := 4
abbrev stackUnf : Nat := 5
abbrev calPreempt : Nat := 6
abbrev faultStop : Nat := 7
abbrev groupStop : Nat := 8
abbrev launchLate : Nat := 9
abbrev modeStop : Nat := 10
end Stop

namespace Sev
/-- Severity codes (R368). -/
abbrev note : Nat := 0
abbrev degrade : Nat := 1
abbrev portStop : Nat := 2
abbrev sliceSafe : Nat := 3
abbrev deviceSafe : Nat := 4
abbrev deviceLatch : Nat := 5
abbrev machineCheck : Nat := 6
end Sev

namespace Irq
/-- IRQ_ROUTE elements (R343). -/
abbrev mailbox : Nat := 0x01
abbrev event : Nat := 0x02
abbrev burstComplete : Nat := 0x03
abbrev fault : Nat := 0x04
abbrev record : Nat := 0x05
abbrev mode : Nat := 0x06
abbrev slot : Nat := 0x07
abbrev ring : Nat := 0x08
def dma (c : Nat) : Nat := 0x09 + c
def acq (u : Nat) : Nat := 0x11 + u
def tiu (u : Nat) : Nat := 0x19 + u
end Irq

/-- The sources whose "Raised when" column of R373 names a condition that lasts; the live bit of any other source is set for one collector cycle (R374).
DEDUCED from that column (log entry 95). -/
def lastingSource (i : Nat) : Bool :=
  decide (i ≤ 11) || decide (96 ≤ i ∧ i ≤ 127) ||
  [20, 48, 49, 50, 51, 56, 58, 59, 62, 63, 68, 69, 71, 72, 73, 75, 81, 82, 93, 94].contains i

/-- LOC_KIND of a fault record (R377). -/
def locKind : Loc → Nat
  | .none => 0 | .thread _ => 1 | .channel _ => 2 | .slice _ => 3 | .dac _ => 4 | .subch _ => 5 | .unit _ => 6

/-- LOC_INDEX of a fault record (R377). -/
def locIndex : Loc → Nat
  | .none => 0 | .thread n => n | .channel n => n | .slice n => n | .dac n => n | .subch n => n | .unit n => n

end Sys2Proof.Machine
end

