-- ==== Sys2Proof/Machine/Keys.lean ====
section
/-! DEFINITION. Names of the dictionary keys (R7: area in bits 31:24, object in bits 23:8, element in bits 7:0). An array of objects takes the
object index `o` counted from the first object of its range, an array of elements the element index `e` counted from the first element. -/

namespace Sys2Proof.Machine

/-- The 32-bit key AA.OOOO.EE of R7. -/
def mkKey (area obj el : Nat) : Nat := area * 0x1000000 + obj * 0x100 + el

/-- The area of a key (R7). -/
def keyArea (k : Nat) : Nat := k / 0x1000000

/-- The object number of a key (R7). -/
def keyObj (k : Nat) : Nat := (k / 0x100) % 0x10000

/-- The element of a key (R7). -/
def keyEl (k : Nat) : Nat := k % 0x100

namespace Key

/-- VENDOR_NAME (R9). -/
abbrev vendorName : Nat := 0x00000100
/-- DEVICE_NAME (R9). -/
abbrev deviceName : Nat := 0x00000200
/-- SILICON_REV (R9). -/
abbrev siliconRev : Nat := 0x00000300
/-- ORDERING_CODE (R9). -/
abbrev orderingCode : Nat := 0x00000400
/-- DIE_SERIAL (R9). -/
abbrev dieSerial : Nat := 0x00000500
/-- ROM_VERSION (R9). -/
abbrev romVersion : Nat := 0x00000600
/-- FIRMWARE_VERSION (R9). -/
abbrev firmwareVersion : Nat := 0x00000700
/-- DICT_VERSION (R9). -/
abbrev dictVersion : Nat := 0x00000800
/-- AUDIT_STATUS (R30). -/
abbrev auditStatus : Nat := 0x01004000
/-- BURST_NUMBER (R30). -/
abbrev burstNumber : Nat := 0x01004100
/-- AUDIT_DRAIN_NS (R30). -/
abbrev auditDrainNs : Nat := 0x01004200
/-- DMA_OPEN_BYTES (R30). -/
abbrev dmaOpenBytes : Nat := 0x01004300
/-- START_LEAD (R30). -/
abbrev startLead : Nat := 0x01004400
/-- CYCLES_ISSUED (R30). -/
def cyclesIssued (o : Nat) : Nat := mkKey 0x01 (0x1000 + o) 0x1
/-- CYCLES_EXECUTED (R30). -/
def cyclesExecuted (o : Nat) : Nat := mkKey 0x01 (0x1000 + o) 0x2
/-- CYCLES_FLUSHED (R30). -/
def cyclesFlushed (o : Nat) : Nat := mkKey 0x01 (0x1000 + o) 0x3
/-- STROBES_PLACED (R30). -/
def strobesPlaced (o : Nat) : Nat := mkKey 0x01 (0x1000 + o) 0x4
/-- STROBES_JUDGED (R30). -/
def strobesJudged (o : Nat) : Nat := mkKey 0x01 (0x1000 + o) 0x5
/-- PASSES (R30). -/
def passes (o : Nat) : Nat := mkKey 0x01 (0x1000 + o) 0x6
/-- FAILS (R30). -/
def fails (o : Nat) : Nat := mkKey 0x01 (0x1000 + o) 0x7
/-- MASKED (R30). -/
def masked (o : Nat) : Nat := mkKey 0x01 (0x1000 + o) 0x8
/-- FAIL_TOTAL (R30). -/
def failTotal (o : Nat) : Nat := mkKey 0x01 (0x2000 + o) 0x1
/-- LOGGED_BITS (R30). -/
def loggedBits (o : Nat) : Nat := mkKey 0x01 (0x2000 + o) 0x2
/-- FAIL_OVERFLOW (R30). -/
def failOverflow (o : Nat) : Nat := mkKey 0x01 (0x2000 + o) 0x3
/-- DICT_PERSIST (R42). -/
abbrev dictPersist : Nat := 0x01001000
/-- DICT_REVERT (R42). -/
abbrev dictRevert : Nat := 0x01001100
/-- DICT_BANK (R42). -/
abbrev dictBank : Nat := 0x01001200
/-- DICT_BANK_SEQ (R42). -/
abbrev dictBankSeq : Nat := 0x01001300
/-- SESSION_KEY (R51). -/
def sessionKey (o e : Nat) : Nat := mkKey 0x11 (0x200 + o) (0x1 + e)
/-- SESSION_KEY_ATTR (R51). -/
def sessionKeyAttr (o : Nat) : Nat := mkKey 0x11 (0x200 + o) 0x5
/-- SESSION_IDLE (R51). -/
abbrev sessionIdle : Nat := 0x11021000
/-- DICT_UDP_PORT (R51). -/
abbrev dictUdpPort : Nat := 0x11021100
/-- AUTH_FAIL_COUNT (R51). -/
abbrev authFailCount : Nat := 0x11021200
/-- REPLAY_COUNT (R51). -/
abbrev replayCount : Nat := 0x11021300
/-- SESSIONS_OPEN (R51). -/
abbrev sessionsOpen : Nat := 0x11021400
/-- HOT_ERR (R54). -/
abbrev hotErr : Nat := 0x12001000
/-- HOT_ERR_KEY (R54). -/
abbrev hotErrKey : Nat := 0x12001100
/-- SUB_COUNT (R57). -/
abbrev subCount : Nat := 0x01010000
/-- NOTIFY_LOST (R57). -/
abbrev notifyLost : Nat := 0x01010100
/-- DEVICE_MODE (R61). -/
abbrev deviceMode : Nat := 0x01000100
/-- MODE_REQUEST (R61). -/
abbrev modeRequest : Nat := 0x01000200
/-- MODE_ORIGIN (R61). -/
abbrev modeOrigin : Nat := 0x01000300
/-- MODE_CHANGES (R61). -/
abbrev modeChanges : Nat := 0x01000400
/-- SLICE_MODE (R65). -/
def sliceMode (e : Nat) : Nat := mkKey 0x01 0x20 (0x1 + e)
/-- SLICE_DIAG_REQUEST (R65). -/
abbrev sliceDiagRequest : Nat := 0x01002100
/-- LOAD_CHECK (R81). -/
abbrev loadCheck : Nat := 0x01003000
/-- LOAD_STATUS (R81). -/
abbrev loadStatus : Nat := 0x01003100
/-- LOAD_FAIL_MASK (R81). -/
abbrev loadFailMask : Nat := 0x01003200
/-- LOAD_ROW (R81). -/
abbrev loadRow : Nat := 0x01003300
/-- LOAD_DETAIL (R81). -/
abbrev loadDetail : Nat := 0x01003400
/-- PORT_CTRL (R83). -/
def portCtrl (o : Nat) : Nat := mkKey 0x20 (0x8000 + o) 0x1
/-- PORT_CHANNELS (R83). -/
def portChannels (o : Nat) : Nat := mkKey 0x20 (0x8000 + o) 0x2
/-- PORT_SLICES (R83). -/
def portSlices (o : Nat) : Nat := mkKey 0x20 (0x8000 + o) 0x3
/-- CHANNEL_MAP (R83). -/
def channelMap (o e : Nat) : Nat := mkKey 0x20 (0x8000 + o) (0x4 + e)
/-- THREAD_CTRL (R89). -/
def threadCtrl (o : Nat) : Nat := mkKey 0x20 (0x1000 + o) 0x1
/-- GROUP_SIZE (R89). -/
def groupSize (o : Nat) : Nat := mkKey 0x20 (0x1000 + o) 0x2
/-- SEQ_RATE (R89). -/
def seqRate (o : Nat) : Nat := mkKey 0x20 (0x1000 + o) 0x3
/-- ROLE (R89). -/
def role (o : Nat) : Nat := mkKey 0x20 (0x1000 + o) 0x4
/-- DISPATCH_MAX_NS (R102). -/
abbrev dispatchMaxNs : Nat := 0x23001000
/-- SPAN_STARVE (R102). -/
abbrev spanStarve : Nat := 0x23001100
/-- SEQ_RATE_TOTAL (R102). -/
abbrev seqRateTotal : Nat := 0x23001200
/-- CONTEXTS_ARMED (R102). -/
abbrev contextsArmed : Nat := 0x23001300
/-- HELD_EVENTS (R102). -/
abbrev heldEvents : Nat := 0x23001400
/-- HOST_FLAGS (R122). -/
abbrev hostFlags : Nat := 0x23002000
/-- UWORD_CORRECTED (R122). -/
abbrev uwordCorrected : Nat := 0x23002100
/-- HOST_TRIG (R122). -/
abbrev hostTrig : Nat := 0x23002200
/-- HOST_JUMP (R122). -/
def hostJump (o : Nat) : Nat := mkKey 0x23 (0x3000 + o) 0x0
/-- HJ_ENTRY (R122). -/
def hjEntry (o e : Nat) : Nat := mkKey 0x23 (0x4000 + o) (0x1 + e)
/-- HJ_TAKEN_CYCLE (R122). -/
def hjTakenCycle (o : Nat) : Nat := mkKey 0x23 (0x4000 + o) 0x5
/-- ENC_CTRL (R138). -/
def encCtrl (o : Nat) : Nat := mkKey 0x31 (0x8000 + o) 0x1
/-- MAP (R138). -/
def map (o e : Nat) : Nat := mkKey 0x31 (0x8000 + o) (0x2 + e)
/-- MAP_SELECT (R138). -/
def mapSelect (o e : Nat) : Nat := mkKey 0x31 (0x8000 + o) (0x6 + e)
/-- PAT_REGION (R142). -/
def patRegion (o : Nat) : Nat := mkKey 0x31 (0x1000 + o) 0x1
/-- PAT_OFFSET (R142). -/
def patOffset (o : Nat) : Nat := mkKey 0x31 (0x1000 + o) 0x2
/-- PAT_ROWS (R142). -/
def patRows (o : Nat) : Nat := mkKey 0x31 (0x1000 + o) 0x3
/-- PAT_STRIDE (R142). -/
def patStride (o : Nat) : Nat := mkKey 0x31 (0x1000 + o) 0x4
/-- PAT_ENTRY (R142). -/
def patEntry (o : Nat) : Nat := mkKey 0x31 (0x1000 + o) 0x5
/-- PIN_RANGE (R142). -/
def pinRange (o e : Nat) : Nat := mkKey 0x31 (0x1000 + o) (0x6 + e)
/-- PAT_PINNED_KIB (R142). -/
def patPinnedKib (o : Nat) : Nat := mkKey 0x31 (0x1000 + o) 0xA
/-- PAT_BUFFER_KIB (R142). -/
def patBufferKib (o : Nat) : Nat := mkKey 0x31 (0x1000 + o) 0xB
/-- PAT_STREAM (R142). -/
def patStream (o : Nat) : Nat := mkKey 0x31 (0x1000 + o) 0xC
/-- REGION_BASE (R146). -/
def regionBase (o : Nat) : Nat := mkKey 0x31 (0x100 + o) 0x1
/-- REGION_LENGTH (R146). -/
def regionLength (o : Nat) : Nat := mkKey 0x31 (0x100 + o) 0x2
/-- REGION_LOCKED (R146). -/
def regionLocked (o : Nat) : Nat := mkKey 0x31 (0x100 + o) 0x3
/-- STREAM_PEAK (R154). -/
abbrev streamPeak : Nat := 0x31001000
/-- STREAM_BUDGET (R154). -/
abbrev streamBudget : Nat := 0x31001100
/-- SPILL_RESERVE (R154). -/
abbrev spillReserve : Nat := 0x31001200
/-- STREAM_NEEDED (R154). -/
abbrev streamNeeded : Nat := 0x31001300
/-- LS_PINNED_KIB (R154). -/
abbrev lsPinnedKib : Nat := 0x31001400
/-- LS_BUFFER_KIB (R154). -/
abbrev lsBufferKib : Nat := 0x31001500
/-- UNDERRUNS (R154). -/
abbrev underruns : Nat := 0x31001600
/-- PERIOD (R159). -/
def period (o e : Nat) : Nat := mkKey 0x21 (0x1000 + o) (0x1 + e)
/-- DRIFT_LAG (R177). -/
def driftLag (e : Nat) : Nat := mkKey 0x21 0x10 (0x1 + e)
/-- DRIFT_UPDATES (R177). -/
abbrev driftUpdates : Nat := 0x21001100
/-- DRIFT_MAX_FS (R177). -/
abbrev driftMaxFs : Nat := 0x21001200
/-- LANE_STATUS (R187). -/
def laneStatus (o : Nat) : Nat := mkKey 0x60 (0x1000 + o) 0x1
/-- LANE_RT (R187). -/
def laneRt (o : Nat) : Nat := mkKey 0x60 (0x1000 + o) 0x2
/-- LANE_DT (R187). -/
def laneDt (o : Nat) : Nat := mkKey 0x60 (0x1000 + o) 0x3
/-- LANE_DS (R187). -/
def laneDs (o : Nat) : Nat := mkKey 0x60 (0x1000 + o) 0x4
/-- LANE_ASYM (R187). -/
def laneAsym (o : Nat) : Nat := mkKey 0x60 (0x1000 + o) 0x5
/-- EYE_WIDTH (R187). -/
def eyeWidth (o : Nat) : Nat := mkKey 0x60 (0x1000 + o) 0x6
/-- MARGIN_ERRORS (R187). -/
def marginErrors (o : Nat) : Nat := mkKey 0x60 (0x1000 + o) 0x7
/-- DESKEW_COUNT (R187). -/
def deskewCount (o : Nat) : Nat := mkKey 0x60 (0x1000 + o) 0x8
/-- EYE_LIMIT (R191). -/
abbrev eyeLimit : Nat := 0x60010000
/-- LANES_DISABLED (R191). -/
abbrev lanesDisabled : Nat := 0x60010100
/-- DIAG_CTRL (R199). -/
abbrev diagCtrl : Nat := 0x61010001
/-- DIAG_SLICES (R199). -/
abbrev diagSlices : Nat := 0x61010002
/-- DIAG_PORT (R199). -/
abbrev diagPort : Nat := 0x61010003
/-- DIAG_ROWS (R199). -/
abbrev diagRows : Nat := 0x61010004
/-- DIAG_SWEEP (R199). -/
abbrev diagSweep : Nat := 0x61010005
/-- DIAG_SHMOO (R199). -/
abbrev diagShmoo : Nat := 0x61010006
/-- DIAG_PASSES (R199). -/
abbrev diagPasses : Nat := 0x61010007
/-- DIAG_START (R199). -/
abbrev diagStart : Nat := 0x61010008
/-- DIAG_RESULT (R199). -/
abbrev diagResult : Nat := 0x61010100
/-- CAPTURE_STATUS (R206). -/
abbrev captureStatus : Nat := 0x24001000
/-- SITE_FAIL_MAP (R206). -/
def siteFailMap (e : Nat) : Nat := mkKey 0x24 0x20 (0x1 + e)
/-- SITE_MASK_MAP (R206). -/
def siteMaskMap (e : Nat) : Nat := mkKey 0x24 0x21 (0x1 + e)
/-- FAIL_COUNT_IMAGE (R206). -/
abbrev failCountImage : Nat := 0x24010000
/-- SITE_RESULT_IMAGE (R206). -/
abbrev siteResultImage : Nat := 0x24010100
/-- FAIL_COUNT (R206). -/
def failCount (o : Nat) : Nat := mkKey 0x24 (0x1000 + o) 0x0
/-- SITE_STATUS (R206). -/
def siteStatus (o : Nat) : Nat := mkKey 0x24 (0x2000 + o) 0x1
/-- FIRST_FAIL (R206). -/
def firstFail (o : Nat) : Nat := mkKey 0x24 (0x2000 + o) 0x2
/-- FIRST_FAIL_CHANNEL (R206). -/
def firstFailChannel (o : Nat) : Nat := mkKey 0x24 (0x2000 + o) 0x3
/-- MASK_CYCLE (R206). -/
def maskCycle (o : Nat) : Nat := mkKey 0x24 (0x2000 + o) 0x4
/-- LOG_ENTRIES (R206). -/
def logEntries (o : Nat) : Nat := mkKey 0x24 (0x2000 + o) 0x5
/-- JUDGE_MASK (R206). -/
def judgeMask (o e : Nat) : Nat := mkKey 0x24 (0x8000 + o) (0x1 + e)
/-- CAP_CTRL (R206). -/
def capCtrl (o : Nat) : Nat := mkKey 0x24 (0x8000 + o) 0x11
/-- FAILLOG_REGION (R210). -/
abbrev faillogRegion : Nat := 0x25001000
/-- FAILLOG_OFFSET (R210). -/
abbrev faillogOffset : Nat := 0x25001100
/-- FAILLOG_LENGTH (R210). -/
abbrev faillogLength : Nat := 0x25001200
/-- FAILLOG_SITE_LIMIT (R210). -/
abbrev faillogSiteLimit : Nat := 0x25001300
/-- FAILLOG_ENTRIES (R210). -/
abbrev faillogEntries : Nat := 0x25001400
/-- JUDGE_DROPPED (R210). -/
abbrev judgeDropped : Nat := 0x25001500
/-- FULLCAP_REGION (R213). -/
abbrev fullcapRegion : Nat := 0x24003000
/-- FULLCAP_OFFSET (R213). -/
abbrev fullcapOffset : Nat := 0x24003100
/-- FULLCAP_LENGTH (R213). -/
abbrev fullcapLength : Nat := 0x24003200
/-- FULLCAP_BYTES (R213). -/
abbrev fullcapBytes : Nat := 0x24003300
/-- FULLCAP_FRAMES (R213). -/
abbrev fullcapFrames : Nat := 0x24003400
/-- FULLCAP_LOST (R213). -/
abbrev fullcapLost : Nat := 0x24003500
/-- SIG_CTRL (R216). -/
def sigCtrl (o : Nat) : Nat := mkKey 0x26 (0x1000 + o) 0x1
/-- SIG_POLY (R216). -/
def sigPoly (o : Nat) : Nat := mkKey 0x26 (0x1000 + o) 0x2
/-- SIG_INIT (R216). -/
def sigInit (o : Nat) : Nat := mkKey 0x26 (0x1000 + o) 0x3
/-- SIG_XOROUT (R216). -/
def sigXorout (o : Nat) : Nat := mkKey 0x26 (0x1000 + o) 0x4
/-- SIG_VALUE (R216). -/
def sigValue (o : Nat) : Nat := mkKey 0x26 (0x1000 + o) 0x5
/-- SIG_RESULT (R216). -/
def sigResult (o : Nat) : Nat := mkKey 0x26 (0x1000 + o) 0x6
/-- SIG_CHMASK (R216). -/
def sigChmask (o e : Nat) : Nat := mkKey 0x26 (0x1000 + o) (0x7 + e)
/-- SIG_CHECK_COUNT (R216). -/
abbrev sigCheckCount : Nat := 0x26001000
/-- RING_BASE (R219). -/
abbrev ringBase : Nat := 0x24004000
/-- RING_PRODUCER (R219). -/
abbrev ringProducer : Nat := 0x24004100
/-- RING_CONSUMER (R219). -/
abbrev ringConsumer : Nat := 0x24004200
/-- RING_FREE (R219). -/
abbrev ringFree : Nat := 0x24004300
/-- RECORDS_DISCARDED (R219). -/
abbrev recordsDiscarded : Nat := 0x24004400
/-- FERN_ALIGN (R224). -/
abbrev fernAlign : Nat := 0x70001000
/-- FERN_STATUS (R224). -/
abbrev fernStatus : Nat := 0x70001100
/-- FERN_TARGET (R224). -/
abbrev fernTarget : Nat := 0x70001200
/-- FERN_DIN (R224). -/
abbrev fernDin : Nat := 0x70001300
/-- FERN_OFFSET (R224). -/
abbrev fernOffset : Nat := 0x70001400
/-- EPOCH_COUNT (R224). -/
abbrev epochCount : Nat := 0x70001500
/-- FSYNC_PERIOD (R224). -/
abbrev fsyncPeriod : Nat := 0x70001600
/-- FSYNC_MISMATCHES (R224). -/
abbrev fsyncMismatches : Nat := 0x70001700
/-- FERN_RT_DRIFT (R224). -/
abbrev fernRtDrift : Nat := 0x70001800
/-- RING_CTRL (R231). -/
abbrev ringCtrl : Nat := 0x70010000
/-- RING_FORM (R231). -/
abbrev ringForm : Nat := 0x70010100
/-- RING_STATUS (R231). -/
abbrev ringStatus : Nat := 0x70010200
/-- RING_LAT (R231). -/
abbrev ringLat : Nat := 0x70010300
/-- RING_LAP (R231). -/
abbrev ringLap : Nat := 0x70010400
/-- RING_CRC_ERRORS (R231). -/
abbrev ringCrcErrors : Nat := 0x70010500
/-- RING_TRIG_MERGED (R231). -/
abbrev ringTrigMerged : Nat := 0x70010600
/-- LAUNCH_EPOCH (R231). -/
abbrev launchEpoch : Nat := 0x70010700
/-- RING_COND (R231). -/
abbrev ringCond : Nat := 0x70010800
/-- TOKENS_UNCLAIMED (R231). -/
abbrev tokensUnclaimed : Nat := 0x70010900
/-- RING_HOP (R231). -/
def ringHop (e : Nat) : Nat := mkKey 0x70 0x110 (0x1 + e)
/-- REMOTE_PORTS (R231). -/
def remotePorts (o : Nat) : Nat := mkKey 0x70 (0x2000 + o) 0x1
/-- TRIGIN_CFG (R244). -/
def triginCfg (e : Nat) : Nat := mkKey 0x40 0x10 (0x1 + e)
/-- TRIGOUT_CFG (R244). -/
def trigoutCfg (e : Nat) : Nat := mkKey 0x40 0x11 (0x1 + e)
/-- TRIGOUT_PULSE (R244). -/
abbrev trigoutPulse : Nat := 0x40001200
/-- TRIGOUT_MERGED (R244). -/
abbrev trigoutMerged : Nat := 0x40001300
/-- TIU_CTRL (R251). -/
def tiuCtrl (o : Nat) : Nat := mkKey 0x41 (0x1000 + o) 0x1
/-- TIU_IN_A (R251). -/
def tiuInA (o : Nat) : Nat := mkKey 0x41 (0x1000 + o) 0x2
/-- TIU_IN_B (R251). -/
def tiuInB (o : Nat) : Nat := mkKey 0x41 (0x1000 + o) 0x3
/-- TIU_N (R251). -/
def tiuN (o : Nat) : Nat := mkKey 0x41 (0x1000 + o) 0x4
/-- TIU_GATE (R251). -/
def tiuGate (o : Nat) : Nat := mkKey 0x41 (0x1000 + o) 0x5
/-- TIU_TIMEOUT (R251). -/
def tiuTimeout (o : Nat) : Nat := mkKey 0x41 (0x1000 + o) 0x6
/-- TIU_ARM (R251). -/
def tiuArm (o : Nat) : Nat := mkKey 0x41 (0x1000 + o) 0x7
/-- TIU_RESULT (R251). -/
def tiuResult (o : Nat) : Nat := mkKey 0x41 (0x1000 + o) 0x8
/-- TIU_STATUS (R251). -/
def tiuStatus (o : Nat) : Nat := mkKey 0x41 (0x1000 + o) 0x9
/-- TIU_START_TIME (R251). -/
def tiuStartTime (o : Nat) : Nat := mkKey 0x41 (0x1000 + o) 0xA
/-- STRAY_STOP (R251). -/
def strayStop (o : Nat) : Nat := mkKey 0x41 (0x1000 + o) 0xB
/-- DEAD_MISS (R251). -/
def deadMiss (o : Nat) : Nat := mkKey 0x41 (0x1000 + o) 0xC
/-- ARM_IGNORED (R251). -/
def tiuArmIgnored (o : Nat) : Nat := mkKey 0x41 (0x1000 + o) 0xD
/-- AUXIN_THRESH (R251). -/
def auxinThresh (e : Nat) : Nat := mkKey 0x41 0x100 (0x1 + e)
/-- ADC_CFG (R253). -/
def adcCfg (o : Nat) : Nat := mkKey 0x42 (0x1000 + o) 0x1
/-- ADC_INTERVAL (R253). -/
def adcInterval (o : Nat) : Nat := mkKey 0x42 (0x1000 + o) 0x2
/-- ADC_COUNT (R253). -/
def adcCount (o : Nat) : Nat := mkKey 0x42 (0x1000 + o) 0x3
/-- ADC_START (R253). -/
def adcStart (o : Nat) : Nat := mkKey 0x42 (0x1000 + o) 0x4
/-- ADC_VALUE (R253). -/
def adcValue (o : Nat) : Nat := mkKey 0x42 (0x1000 + o) 0x5
/-- ADC_STATUS (R253). -/
def adcStatus (o : Nat) : Nat := mkKey 0x42 (0x1000 + o) 0x6
/-- ADC_START_IGNORED (R253). -/
def adcStartIgnored (o : Nat) : Nat := mkKey 0x42 (0x1000 + o) 0x7
/-- ACQ_CTRL (R259). -/
def acqCtrl (o : Nat) : Nat := mkKey 0x40 (0x1000 + o) 0x1
/-- ACQ_PORT (R259). -/
def acqPort (o : Nat) : Nat := mkKey 0x40 (0x1000 + o) 0x2
/-- ACQ_INTERVAL (R259). -/
def acqInterval (o : Nat) : Nat := mkKey 0x40 (0x1000 + o) 0x3
/-- ACQ_LENGTH (R259). -/
def acqLength (o : Nat) : Nat := mkKey 0x40 (0x1000 + o) 0x4
/-- ACQ_PRE (R259). -/
def acqPre (o : Nat) : Nat := mkKey 0x40 (0x1000 + o) 0x5
/-- ACQ_LEVEL (R259). -/
def acqLevel (o : Nat) : Nat := mkKey 0x40 (0x1000 + o) 0x6
/-- ACQ_HYST (R259). -/
def acqHyst (o : Nat) : Nat := mkKey 0x40 (0x1000 + o) 0x7
/-- ACQ_ARM (R259). -/
def acqArm (o : Nat) : Nat := mkKey 0x40 (0x1000 + o) 0x8
/-- ACQ_FORCE (R259). -/
def acqForce (o : Nat) : Nat := mkKey 0x40 (0x1000 + o) 0x9
/-- ACQ_STATE (R259). -/
def acqState (o : Nat) : Nat := mkKey 0x40 (0x1000 + o) 0xA
/-- ACQ_RECORD (R259). -/
def acqRecord (o : Nat) : Nat := mkKey 0x40 (0x1000 + o) 0xB
/-- ACQ_RELEASE (R259). -/
def acqRelease (o : Nat) : Nat := mkKey 0x40 (0x1000 + o) 0xC
/-- TRIG_IN_REARM (R259). -/
def trigInRearm (o : Nat) : Nat := mkKey 0x40 (0x1000 + o) 0xD
/-- TRIG_AFTER_FIRE (R259). -/
def trigAfterFire (o : Nat) : Nat := mkKey 0x40 (0x1000 + o) 0xE
/-- ARM_IGNORED (R259). -/
def acqArmIgnored (o : Nat) : Nat := mkKey 0x40 (0x1000 + o) 0xF
/-- DAC_CODE (R275). -/
def dacCode (o : Nat) : Nat := mkKey 0x22 (0x1000 + o) 0x1
/-- DAC_ACTIVE (R275). -/
def dacActive (o : Nat) : Nat := mkKey 0x22 (0x1000 + o) 0x2
/-- DAC_GROUP (R275). -/
def dacGroup (o : Nat) : Nat := mkKey 0x22 (0x1000 + o) 0x3
/-- DAC_PARK (R275). -/
def dacPark (o : Nat) : Nat := mkKey 0x22 (0x1000 + o) 0x4
/-- DAC_FAULT_CODE (R275). -/
def dacFaultCode (o : Nat) : Nat := mkKey 0x22 (0x1000 + o) 0x5
/-- DAC_SLICES (R275). -/
def dacSlices (o : Nat) : Nat := mkKey 0x22 (0x1000 + o) 0x6
/-- DAC_STATUS (R275). -/
def dacStatus (o : Nat) : Nat := mkKey 0x22 (0x1000 + o) 0x7
/-- DAC_LOAD (R275). -/
abbrev dacLoad : Nat := 0x22001000
/-- DAC_LOADS (R275). -/
abbrev dacLoads : Nat := 0x22001100
/-- DAC_LOAD_MERGED (R275). -/
abbrev dacLoadMerged : Nat := 0x22001200
/-- DRAM_CONFIG (R302). -/
abbrev dramConfig : Nat := 0x30000100
/-- DRAM_CAPACITY (R302). -/
abbrev dramCapacity : Nat := 0x30000200
/-- DRAM_ENABLED (R302). -/
abbrev dramEnabled : Nat := 0x30000300
/-- DRAM_MAP_GEN (R302). -/
abbrev dramMapGen : Nat := 0x30000400
/-- DRAM_FILL (R302). -/
abbrev dramFill : Nat := 0x30000500
/-- ACT_THRESHOLD (R302). -/
abbrev actThreshold : Nat := 0x30001000
/-- NEIGHBOUR_REFRESHES (R302). -/
abbrev neighbourRefreshes : Nat := 0x30001100
/-- REFRESH_FORCED (R302). -/
abbrev refreshForced : Nat := 0x30001200
/-- SCRUB_PERIOD (R302). -/
abbrev scrubPeriod : Nat := 0x30001300
/-- SCRUB_PASSES (R302). -/
abbrev scrubPasses : Nat := 0x30001400
/-- CE_LIMIT (R302). -/
abbrev ceLimit : Nat := 0x30001500
/-- UE_COUNT (R302). -/
abbrev ueCount : Nat := 0x30001600
/-- UE_ADDRESS (R302). -/
abbrev ueAddress : Nat := 0x30001700
/-- SUBCH_STATUS (R302). -/
def subchStatus (o : Nat) : Nat := mkKey 0x30 (0x1000 + o) 0x1
/-- SUBCH_CE (R302). -/
def subchCe (o : Nat) : Nat := mkKey 0x30 (0x1000 + o) 0x2
/-- SUBCH_RETRAINS (R302). -/
def subchRetrains (o : Nat) : Nat := mkKey 0x30 (0x1000 + o) 0x3
/-- SUBCH_RFM_ISSUED (R302). -/
def subchRfmIssued (o : Nat) : Nat := mkKey 0x30 (0x1000 + o) 0x4
/-- LANE_TRAIN (R302). -/
def laneTrain (o e : Nat) : Nat := mkKey 0x30 (0x1000 + o) (0x5 + e)
/-- LANE_CE (R302). -/
def laneCe (o e : Nat) : Nat := mkKey 0x30 (0x1000 + o) (0xA + e)
/-- TIME_NOW (R325). -/
abbrev timeNow : Nat := 0x10000100
/-- RAW_COUNT (R325). -/
abbrev rawCount : Nat := 0x10000200
/-- TIME_LATCH (R325). -/
abbrev timeLatch : Nat := 0x10000300
/-- LATCH_RAW (R325). -/
abbrev latchRaw : Nat := 0x10000400
/-- LATCH_SEC (R325). -/
abbrev latchSec : Nat := 0x10000500
/-- LATCH_SUB (R325). -/
abbrev latchSub : Nat := 0x10000600
/-- RAW_AT_EPOCH0 (R325). -/
abbrev rawAtEpoch0 : Nat := 0x10000700
/-- CLOCK_STATUS (R325). -/
abbrev clockStatus : Nat := 0x10001000
/-- CLOCK_FLAGS (R325). -/
abbrev clockFlags : Nat := 0x10001100
/-- TIME_SOURCE (R325). -/
abbrev timeSource : Nat := 0x10001200
/-- JUMP_THRESHOLD (R325). -/
abbrev jumpThreshold : Nat := 0x10001300
/-- SLEW_MAX (R325). -/
abbrev slewMax : Nat := 0x10001400
/-- MODEL_GEN (R325). -/
abbrev modelGen : Nat := 0x10001500
/-- MODEL_R_REF (R325). -/
abbrev modelRRef : Nat := 0x10001600
/-- MODEL_T_REF_SEC (R325). -/
abbrev modelTRefSec : Nat := 0x10001700
/-- MODEL_T_REF_SUB (R325). -/
abbrev modelTRefSub : Nat := 0x10001800
/-- MODEL_RATE (R325). -/
abbrev modelRate : Nat := 0x10001900
/-- PENDING_STEP_SEC (R325). -/
abbrev pendingStepSec : Nat := 0x10001A00
/-- PENDING_STEP_NS (R325). -/
abbrev pendingStepNs : Nat := 0x10001B00
/-- TIME_STEP (R325). -/
abbrev timeStep : Nat := 0x10001C00
/-- TIME_SET_SEC (R325). -/
abbrev timeSetSec : Nat := 0x10001D00
/-- TIME_SET_SUB (R325). -/
abbrev timeSetSub : Nat := 0x10001E00
/-- STEPS_APPLIED (R325). -/
abbrev stepsApplied : Nat := 0x10001F00
/-- STEPS_REFUSED (R325). -/
abbrev stepsRefused : Nat := 0x10002000
/-- PTM_CORR (R325). -/
abbrev ptmCorr : Nat := 0x10002100
/-- PTM_RAW (R325). -/
abbrev ptmRaw : Nat := 0x10002200
/-- PTM_HOST_NS (R325). -/
abbrev ptmHostNs : Nat := 0x10002300
/-- PTM_LINK_DELAY (R325). -/
abbrev ptmLinkDelay : Nat := 0x10002400
/-- PTM_INTERVAL (R325). -/
abbrev ptmInterval : Nat := 0x10002500
/-- SLOT_LATE_COUNT (R325). -/
abbrev slotLateCount : Nat := 0x10003000
/-- SLOT_CTRL (R325). -/
def slotCtrl (o : Nat) : Nat := mkKey 0x10 (0x1000 + o) 0x1
/-- SLOT_TIME (R325). -/
def slotTime (o : Nat) : Nat := mkKey 0x10 (0x1000 + o) 0x2
/-- SLOT_PERIOD (R325). -/
def slotPeriod (o : Nat) : Nat := mkKey 0x10 (0x1000 + o) 0x3
/-- SLOT_ARM (R325). -/
def slotArm (o : Nat) : Nat := mkKey 0x10 (0x1000 + o) 0x4
/-- SLOT_STATUS (R325). -/
def slotStatus (o : Nat) : Nat := mkKey 0x10 (0x1000 + o) 0x5
/-- SLOT_LATENESS (R325). -/
def slotLateness (o : Nat) : Nat := mkKey 0x10 (0x1000 + o) 0x6
/-- SLOT_FIRES (R325). -/
def slotFires (o : Nat) : Nat := mkKey 0x10 (0x1000 + o) 0x7
/-- ETH_CTRL (R325). -/
abbrev ethCtrl : Nat := 0x11000100
/-- ETH_STATUS (R325). -/
abbrev ethStatus : Nat := 0x11000200
/-- MAC_ADDR (R325). -/
abbrev macAddr : Nat := 0x11000300
/-- IPV4_ADDR (R325). -/
abbrev ipv4Addr : Nat := 0x11000400
/-- IPV4_PREFIX (R325). -/
abbrev ipv4Prefix : Nat := 0x11000500
/-- IPV6_ADDR (R325). -/
def ipv6Addr (e : Nat) : Nat := mkKey 0x11 0x6 (0x1 + e)
/-- ETH_RX_DROPPED (R325). -/
abbrev ethRxDropped : Nat := 0x11000700
/-- PTP_CTRL (R325). -/
abbrev ptpCtrl : Nat := 0x11010000
/-- PTP_PORT_STATE (R325). -/
abbrev ptpPortState : Nat := 0x11010100
/-- PTP_OFFSET (R325). -/
abbrev ptpOffset : Nat := 0x11010200
/-- PTP_PATH_DELAY (R325). -/
abbrev ptpPathDelay : Nat := 0x11010300
/-- PTP_ASYM (R325). -/
abbrev ptpAsym : Nat := 0x11010400
/-- ONE_STEP_FALLBACK (R325). -/
abbrev oneStepFallback : Nat := 0x11010500
/-- PCIE_LINK (R344). -/
abbrev pcieLink : Nat := 0x12000100
/-- BAR2_ERR (R344). -/
abbrev bar2Err : Nat := 0x12001200
/-- BAR2_ERR_ADDR (R344). -/
abbrev bar2ErrAddr : Nat := 0x12001300
/-- MBOX_OVERRUNS (R344). -/
abbrev mboxOverruns : Nat := 0x12001400
/-- BAR0_STRAY (R344). -/
abbrev bar0Stray : Nat := 0x12001500
/-- EVENT_RING_BASE (R344). -/
abbrev eventRingBase : Nat := 0x12002000
/-- EVENT_RING_ENTRIES (R344). -/
abbrev eventRingEntries : Nat := 0x12002100
/-- EVENT_PRODUCER (R344). -/
abbrev eventProducer : Nat := 0x12002200
/-- EVENT_CONSUMER (R344). -/
abbrev eventConsumer : Nat := 0x12002300
/-- IRQ_ROUTE (R344). -/
def irqRoute (e : Nat) : Nat := mkKey 0x12 0x100 (0x1 + e)
/-- REQ_CTRL (R359). -/
def reqCtrl (o : Nat) : Nat := mkKey 0x60 (0x2000 + o) 0x1
/-- REQ_TARGET (R359). -/
def reqTarget (o : Nat) : Nat := mkKey 0x60 (0x2000 + o) 0x2
/-- REQ_CMD (R359). -/
def reqCmd (o : Nat) : Nat := mkKey 0x60 (0x2000 + o) 0x3
/-- REQ_RESULT (R359). -/
def reqResult (o : Nat) : Nat := mkKey 0x60 (0x2000 + o) 0x4
/-- REQ_COMMIT_RAW (R359). -/
def reqCommitRaw (o : Nat) : Nat := mkKey 0x60 (0x2000 + o) 0x5
/-- BADGER_STATUS (R359). -/
abbrev badgerStatus : Nat := 0x60020000
/-- CAL_CANCEL (R359). -/
abbrev calCancel : Nat := 0x60020100
/-- ABANDON_COUNT (R359). -/
abbrev abandonCount : Nat := 0x60020200
/-- HK_LOAD (R359). -/
abbrev hkLoad : Nat := 0x60020300
/-- SLICE_BIST_RESULT (R366). -/
def sliceBistResult (o : Nat) : Nat := mkKey 0x61 (0x1000 + o) 0x0
/-- DAC_TEST_RESULT (R366). -/
def dacTestResult (o : Nat) : Nat := mkKey 0x61 (0x2000 + o) 0x0
/-- FAULT_CAUSE (R389). -/
def faultCause (e : Nat) : Nat := mkKey 0x50 0x1 (0x1 + e)
/-- FAULT_LIVE (R389). -/
def faultLive (e : Nat) : Nat := mkKey 0x50 0x2 (0x1 + e)
/-- FIRST_FAULT (R389). -/
def firstFault (e : Nat) : Nat := mkKey 0x50 0x3 (0x1 + e)
/-- FF_CLEAR (R389). -/
abbrev ffClear : Nat := 0x50000400
/-- HIST_COUNT (R389). -/
abbrev histCount : Nat := 0x50000500
/-- HIST_LOST (R389). -/
abbrev histLost : Nat := 0x50000600
/-- FAULT_INJECT (R389). -/
abbrev faultInject : Nat := 0x50000700
/-- SAFE_STATUS (R389). -/
abbrev safeStatus : Nat := 0x50001000
/-- SAFE_UNLATCH (R389). -/
abbrev safeUnlatch : Nat := 0x50001100
/-- QUIET_MS (R389). -/
abbrev quietMs : Nat := 0x50001200
/-- RECOVERY_LIMIT (R389). -/
abbrev recoveryLimit : Nat := 0x50001300
/-- RECOVERY_WINDOW (R389). -/
abbrev recoveryWindow : Nat := 0x50001400
/-- RECOVERY_COUNT (R389). -/
abbrev recoveryCount : Nat := 0x50001500
/-- TEMP_WARN (R389). -/
abbrev tempWarn : Nat := 0x50001600
/-- HIST_ENTRY (R389). -/
def histEntry (o e : Nat) : Nat := mkKey 0x50 (0x200 + o) (0x1 + e)
/-- FAULT_SEVERITY (R389). -/
def faultSeverity (o : Nat) : Nat := mkKey 0x50 (0x1000 + o) 0x1
/-- RAISES (R389). -/
def raises (o : Nat) : Nat := mkKey 0x50 (0x1000 + o) 0x2
/-- GUARD_STATUS (R390). -/
abbrev guardStatus : Nat := 0x02000100
/-- GUARD_COMMIT (R390). -/
abbrev guardCommit : Nat := 0x02000200
/-- DRIVE_PERMIT (R390). -/
def drivePermit (e : Nat) : Nat := mkKey 0x02 0x10 (0x1 + e)
/-- PRETRAIN_LIMIT (R390). -/
abbrev pretrainLimit : Nat := 0x02002000
/-- WDOG_PERIOD (R390). -/
abbrev wdogPeriod : Nat := 0x02002100
/-- WDOG_STATUS (R390). -/
abbrev wdogStatus : Nat := 0x02002200
/-- MIN_CODE (R390). -/
def minCode (o : Nat) : Nat := mkKey 0x02 (0x1000 + o) 0x1
/-- MAX_CODE (R390). -/
def maxCode (o : Nat) : Nat := mkKey 0x02 (0x1000 + o) 0x2
/-- COMP_LOW (R390). -/
def compLow (o : Nat) : Nat := mkKey 0x02 (0x1000 + o) 0x3
/-- COMP_HIGH (R390). -/
def compHigh (o : Nat) : Nat := mkKey 0x02 (0x1000 + o) 0x4
/-- BB_NEXT_SEQ (R407). -/
abbrev bbNextSeq : Nat := 0x51000100
/-- BB_VALID (R407). -/
abbrev bbValid : Nat := 0x51000200
/-- BB_TORN (R407). -/
abbrev bbTorn : Nat := 0x51000300
/-- BB_SUPPRESSED (R407). -/
abbrev bbSuppressed : Nat := 0x51000400
/-- BB_IMAGE (R407). -/
abbrev bbImage : Nat := 0x51001000
/-- BB_NOTE (R407). -/
abbrev bbNote : Nat := 0x51001100
/-- NVM_STATUS (R407). -/
abbrev nvmStatus : Nat := 0x52000100
/-- DICT_SKIPPED (R407). -/
abbrev dictSkipped : Nat := 0x52000200
/-- LEDGER_IMAGE (R407). -/
abbrev ledgerImage : Nat := 0x52001000
/-- POWER_ON_SECONDS (R407). -/
abbrev powerOnSeconds : Nat := 0x52001100
/-- TEMP_BIN (R407). -/
def tempBin (e : Nat) : Nat := mkKey 0x52 0x12 (0x1 + e)
/-- TJ_AVG (R407). -/
abbrev tjAvg : Nat := 0x52001300
/-- BANK_RECOVERIES (R407). -/
abbrev bankRecoveries : Nat := 0x52001400
/-- NVM_TOKENS (R407). -/
def nvmTokens (e : Nat) : Nat := mkKey 0x52 0x20 (0x1 + e)
/-- BOOT_STATUS (R416). -/
abbrev bootStatus : Nat := 0x00001000
/-- BOOT_MS (R416). -/
abbrev bootMs : Nat := 0x00001100
/-- RESET_CAUSE (R416). -/
abbrev resetCause : Nat := 0x01006000
/-- DEVICE_RESET (R416). -/
abbrev deviceReset : Nat := 0x01006100
/-- PRIOR_MODE (R416). -/
abbrev priorMode : Nat := 0x01006200
/-- PRIOR_BURST (R416). -/
abbrev priorBurst : Nat := 0x01006300
/-- TRAIN_MS (R416). -/
abbrev trainMs : Nat := 0x01006400
/-- QUIESCE_STATUS (R416). -/
abbrev quiesceStatus : Nat := 0x01006500
/-- FW_IMAGE (R416). -/
abbrev fwImage : Nat := 0x01007000
/-- FW_ACTIVATE (R416). -/
abbrev fwActivate : Nat := 0x01007100
/-- BURST_START (R76). -/
abbrev burstStart : Nat := 0x01005000
/-- BURST_STOP (R76). -/
abbrev burstStop : Nat := 0x01005100
/-- THREAD_STATE (R75). -/
def threadState (o : Nat) : Nat := mkKey 0x23 (0x1000 + o) 0x1
/-- STOP_CYCLE (R75). -/
def stopCycle (o : Nat) : Nat := mkKey 0x23 (0x1000 + o) 0x2
/-- SITE_ENABLE (R87). -/
def siteEnable (e : Nat) : Nat := mkKey 0x20 0x10 (0x1 + e)
/-- CONTEXT_IMAGE (R90). -/
def contextImage (o : Nat) : Nat := mkKey 0x23 (0x2000 + o) 0x0
/-- TS_STORE_IMAGE (R164). -/
def tsStoreImage (o : Nat) : Nat := mkKey 0x21 (0x100 + o) 0x0

/-- Word `j` of the entry of channel `g` in timing set `t` (R162). -/
def tseWord (g t j : Nat) : Nat := mkKey 0x21 (0x4000 + 2 * g + t / 32) (0x01 + 4 * (t % 32) + j)

end Key

end Sys2Proof.Machine
end

