-- ==== Sys2Proof/Machine/Objects.lean ====
section
/-! DEFINITION. The numbered object dictionary of spec/02 (R32, R34, R36, R40): every object the chapters list, with its type, access code, default source,
default value and the plain range of its Meaning column. One row per object table row of the spec; unlisted keys are not implemented (R32). -/

namespace Sys2Proof.Machine

/-- Types of R34. `u n` is an unsigned value of `n` bytes. -/
inductive OType where | u (bytes : Nat) | i32 | i64 | t64 | bits | str | blob | key | cmd
deriving DecidableEq, Repr

/-- Access codes of R36. -/
inductive Access where | ro | rw | rwi | rwg | rws | wo | w1c | cmd
deriving DecidableEq, Repr

/-- Default sources of R40: factory, bank, constant. -/
inductive DefSrc where | F | N | C
deriving DecidableEq, Repr

/-- The plain range conditions of the Meaning columns (R35); `special` names the objects whose rule reads other objects or fields. -/
inductive ValRule where | any | interval (lo hi : Nat) | zeroOr (lo : Nat) | mult (m : Nat) | signed (bound : Nat) | special
deriving DecidableEq, Repr

/-- One row of an object table: area, object range, element range, type, access, default and range. `mask` holds the bits that are not reserved (R3). -/
structure ObjRow where
  name : String
  objLo : Nat
  objHi : Nat
  elLo : Nat
  elHi : Nat
  ty : OType
  acc : Access
  src : DefSrc
  dflt : Nat
  vr : ValRule := .any
  mask : Nat := 0xFFFFFFFFFFFFFFFF
deriving DecidableEq, Repr

/-- Area 0x00 (R9, R416). -/
def area00 : List ObjRow := [
  ⟨"VENDOR_NAME", 0x1, 0x1, 0x0, 0x0, .str, .ro, .C, 0x0, .any, 0xFFFFFFFFFFFFFFFF⟩,
  ⟨"DEVICE_NAME", 0x2, 0x2, 0x0, 0x0, .str, .ro, .C, 0x0, .any, 0xFFFFFFFFFFFFFFFF⟩,
  ⟨"SILICON_REV", 0x3, 0x3, 0x0, 0x0, .bits, .ro, .F, 0x4101, .any, 0xFFFFFFFFFFFFFFFF⟩,
  ⟨"ORDERING_CODE", 0x4, 0x4, 0x0, 0x0, .str, .ro, .F, 0x0, .any, 0xFFFFFFFFFFFFFFFF⟩,
  ⟨"DIE_SERIAL", 0x5, 0x5, 0x0, 0x0, .u 8, .ro, .F, 0x0, .any, 0xFFFFFFFFFFFFFFFF⟩,
  ⟨"ROM_VERSION", 0x6, 0x6, 0x0, 0x0, .u 4, .ro, .C, 0x10000, .any, 0xFFFFFFFFFFFFFFFF⟩,
  ⟨"FIRMWARE_VERSION", 0x7, 0x7, 0x0, 0x0, .u 4, .ro, .C, 0x0, .any, 0xFFFFFFFFFFFFFFFF⟩,
  ⟨"DICT_VERSION", 0x8, 0x8, 0x0, 0x0, .u 4, .ro, .C, 0x10000, .any, 0xFFFFFFFFFFFFFFFF⟩,
  ⟨"BOOT_STATUS", 0x10, 0x10, 0x0, 0x0, .bits, .ro, .C, 0x0, .any, 0xFFFFFFFFFFFFFFFF⟩,
  ⟨"BOOT_MS", 0x11, 0x11, 0x0, 0x0, .u 4, .ro, .C, 0x0, .any, 0xFFFFFFFFFFFFFFFF⟩]

/-- Area 0x01, part 1 (R30, R42). -/
def area01a : List ObjRow := [
  ⟨"AUDIT_STATUS", 0x40, 0x40, 0x0, 0x0, .bits, .ro, .C, 0xFFF0000, .any, 0xFFFFFFFFFFFFFFFF⟩,
  ⟨"BURST_NUMBER", 0x41, 0x41, 0x0, 0x0, .u 4, .ro, .C, 0x0, .any, 0xFFFFFFFFFFFFFFFF⟩,
  ⟨"AUDIT_DRAIN_NS", 0x42, 0x42, 0x0, 0x0, .u 4, .ro, .C, 0x0, .any, 0xFFFFFFFFFFFFFFFF⟩,
  ⟨"DMA_OPEN_BYTES", 0x43, 0x43, 0x0, 0x0, .u 8, .ro, .C, 0x0, .any, 0xFFFFFFFFFFFFFFFF⟩,
  ⟨"START_LEAD", 0x44, 0x44, 0x0, 0x0, .u 4, .rwi, .N, 0x100, .interval 128 10000, 0xFFFFFFFFFFFFFFFF⟩,
  ⟨"THREAD_AUDIT_COUNT", 0x1000, 0x1BFF, 0x0, 0x0, .u 1, .ro, .C, 0x8, .any, 0xFFFFFFFFFFFFFFFF⟩,
  ⟨"CYCLES_ISSUED", 0x1000, 0x1BFF, 0x1, 0x1, .u 8, .ro, .C, 0x0, .any, 0xFFFFFFFFFFFFFFFF⟩,
  ⟨"CYCLES_EXECUTED", 0x1000, 0x1BFF, 0x2, 0x2, .u 8, .ro, .C, 0x0, .any, 0xFFFFFFFFFFFFFFFF⟩,
  ⟨"CYCLES_FLUSHED", 0x1000, 0x1BFF, 0x3, 0x3, .u 8, .ro, .C, 0x0, .any, 0xFFFFFFFFFFFFFFFF⟩,
  ⟨"STROBES_PLACED", 0x1000, 0x1BFF, 0x4, 0x4, .u 8, .ro, .C, 0x0, .any, 0xFFFFFFFFFFFFFFFF⟩,
  ⟨"STROBES_JUDGED", 0x1000, 0x1BFF, 0x5, 0x5, .u 8, .ro, .C, 0x0, .any, 0xFFFFFFFFFFFFFFFF⟩,
  ⟨"PASSES", 0x1000, 0x1BFF, 0x6, 0x6, .u 8, .ro, .C, 0x0, .any, 0xFFFFFFFFFFFFFFFF⟩,
  ⟨"FAILS", 0x1000, 0x1BFF, 0x7, 0x7, .u 8, .ro, .C, 0x0, .any, 0xFFFFFFFFFFFFFFFF⟩,
  ⟨"MASKED", 0x1000, 0x1BFF, 0x8, 0x8, .u 8, .ro, .C, 0x0, .any, 0xFFFFFFFFFFFFFFFF⟩,
  ⟨"SITE_AUDIT_COUNT", 0x2000, 0x21FF, 0x0, 0x0, .u 1, .ro, .C, 0x3, .any, 0xFFFFFFFFFFFFFFFF⟩,
  ⟨"FAIL_TOTAL", 0x2000, 0x21FF, 0x1, 0x1, .u 8, .ro, .C, 0x0, .any, 0xFFFFFFFFFFFFFFFF⟩,
  ⟨"LOGGED_BITS", 0x2000, 0x21FF, 0x2, 0x2, .u 8, .ro, .C, 0x0, .any, 0xFFFFFFFFFFFFFFFF⟩,
  ⟨"FAIL_OVERFLOW", 0x2000, 0x21FF, 0x3, 0x3, .u 8, .ro, .C, 0x0, .any, 0xFFFFFFFFFFFFFFFF⟩,
  ⟨"DICT_PERSIST", 0x10, 0x10, 0x0, 0x0, .cmd, .cmd, .C, 0x0, .any, 0xFFFFFFFFFFFFFFFF⟩,
  ⟨"DICT_REVERT", 0x11, 0x11, 0x0, 0x0, .cmd, .cmd, .C, 0x0, .any, 0xFFFFFFFFFFFFFFFF⟩]

/-- Area 0x01, part 2 (R42, R57, R61, R65, R81, R416). -/
def area01b : List ObjRow := [
  ⟨"DICT_BANK", 0x12, 0x12, 0x0, 0x0, .u 1, .ro, .C, 0x0, .any, 0xFFFFFFFFFFFFFFFF⟩,
  ⟨"DICT_BANK_SEQ", 0x13, 0x13, 0x0, 0x0, .u 8, .ro, .C, 0x0, .any, 0xFFFFFFFFFFFFFFFF⟩,
  ⟨"SUB_COUNT", 0x100, 0x100, 0x0, 0x0, .u 2, .ro, .C, 0x0, .any, 0xFFFFFFFFFFFFFFFF⟩,
  ⟨"NOTIFY_LOST", 0x101, 0x101, 0x0, 0x0, .u 4, .ro, .C, 0x0, .any, 0xFFFFFFFFFFFFFFFF⟩,
  ⟨"DEVICE_MODE", 0x1, 0x1, 0x0, 0x0, .u 1, .ro, .C, 0x1, .any, 0xFFFFFFFFFFFFFFFF⟩,
  ⟨"MODE_REQUEST", 0x2, 0x2, 0x0, 0x0, .cmd, .cmd, .C, 0x0, .any, 0xFFFFFFFFFFFFFFFF⟩,
  ⟨"MODE_ORIGIN", 0x3, 0x3, 0x0, 0x0, .u 1, .ro, .C, 0x3, .any, 0xFFFFFFFFFFFFFFFF⟩,
  ⟨"MODE_CHANGES", 0x4, 0x4, 0x0, 0x0, .u 4, .ro, .C, 0x0, .any, 0xFFFFFFFFFFFFFFFF⟩,
  ⟨"SLICE_MODE_COUNT", 0x20, 0x20, 0x0, 0x0, .u 1, .ro, .C, 0x20, .any, 0xFFFFFFFFFFFFFFFF⟩,
  ⟨"SLICE_MODE", 0x20, 0x20, 0x1, 0x20, .u 1, .ro, .C, 0x0, .any, 0xFFFFFFFFFFFFFFFF⟩,
  ⟨"SLICE_DIAG_REQUEST", 0x21, 0x21, 0x0, 0x0, .cmd, .cmd, .C, 0x0, .any, 0xFFFFFFFFFFFFFFFF⟩,
  ⟨"LOAD_CHECK", 0x30, 0x30, 0x0, 0x0, .cmd, .cmd, .C, 0x0, .any, 0xFFFFFFFFFFFFFFFF⟩,
  ⟨"LOAD_STATUS", 0x31, 0x31, 0x0, 0x0, .bits, .ro, .C, 0x7FFFFF00, .any, 0xFFFFFFFFFFFFFFFF⟩,
  ⟨"LOAD_FAIL_MASK", 0x32, 0x32, 0x0, 0x0, .u 2, .ro, .C, 0x0, .any, 0xFFFFFFFFFFFFFFFF⟩,
  ⟨"LOAD_ROW", 0x33, 0x33, 0x0, 0x0, .u 8, .ro, .C, 0xFFFFFFFFFFFFFFFF, .any, 0xFFFFFFFFFFFFFFFF⟩,
  ⟨"LOAD_DETAIL", 0x34, 0x34, 0x0, 0x0, .u 4, .ro, .C, 0x0, .any, 0xFFFFFFFFFFFFFFFF⟩,
  ⟨"RESET_CAUSE", 0x60, 0x60, 0x0, 0x0, .bits, .ro, .C, 0x0, .any, 0xFFFFFFFFFFFFFFFF⟩,
  ⟨"DEVICE_RESET", 0x61, 0x61, 0x0, 0x0, .cmd, .cmd, .C, 0x0, .any, 0xFFFFFFFFFFFFFFFF⟩,
  ⟨"PRIOR_MODE", 0x62, 0x62, 0x0, 0x0, .u 1, .ro, .C, 0xFF, .any, 0xFFFFFFFFFFFFFFFF⟩,
  ⟨"PRIOR_BURST", 0x63, 0x63, 0x0, 0x0, .u 4, .ro, .C, 0x0, .any, 0xFFFFFFFFFFFFFFFF⟩]

/-- Area 0x01, part 3 (R76, R416). -/
def area01c : List ObjRow := [
  ⟨"TRAIN_MS", 0x64, 0x64, 0x0, 0x0, .u 4, .ro, .C, 0x0, .any, 0xFFFFFFFFFFFFFFFF⟩,
  ⟨"QUIESCE_STATUS", 0x65, 0x65, 0x0, 0x0, .bits, .ro, .C, 0x0, .any, 0xFFFFFFFFFFFFFFFF⟩,
  ⟨"FW_IMAGE", 0x70, 0x70, 0x0, 0x0, .blob, .rwg, .C, 0x0, .any, 0xFFFFFFFFFFFFFFFF⟩,
  ⟨"FW_ACTIVATE", 0x71, 0x71, 0x0, 0x0, .cmd, .cmd, .C, 0x0, .any, 0xFFFFFFFFFFFFFFFF⟩,
  ⟨"BURST_START", 0x50, 0x50, 0x0, 0x0, .cmd, .cmd, .C, 0x0, .any, 0xFFFFFFFFFFFFFFFF⟩,
  ⟨"BURST_STOP", 0x51, 0x51, 0x0, 0x0, .cmd, .cmd, .C, 0x0, .any, 0xFFFFFFFFFFFFFFFF⟩]

/-- Area 0x01, all parts. -/
def area01 : List ObjRow := area01a ++ area01b ++ area01c

/-- Area 0x02 (R390). -/
def area02 : List ObjRow := [
  ⟨"GUARD_STATUS", 0x1, 0x1, 0x0, 0x0, .bits, .ro, .C, 0x0, .any, 0xFFFFFFFFFFFFFFFF⟩,
  ⟨"GUARD_COMMIT", 0x2, 0x2, 0x0, 0x0, .cmd, .cmd, .C, 0x0, .any, 0xFFFFFFFFFFFFFFFF⟩,
  ⟨"DRIVE_PERMIT_COUNT", 0x10, 0x10, 0x0, 0x0, .u 1, .ro, .C, 0x10, .any, 0xFFFFFFFFFFFFFFFF⟩,
  ⟨"DRIVE_PERMIT", 0x10, 0x10, 0x1, 0x10, .u 8, .rwg, .N, 0xFFFFFFFFFFFFFFFF, .any, 0xFFFFFFFFFFFFFFFF⟩,
  ⟨"PRETRAIN_LIMIT", 0x20, 0x20, 0x0, 0x0, .u 2, .rwg, .N, 0x0, .any, 0xFFFFFFFFFFFFFFFF⟩,
  ⟨"WDOG_PERIOD", 0x21, 0x21, 0x0, 0x0, .u 2, .rwg, .N, 0x64, .interval 10 10000, 0xFFFFFFFFFFFFFFFF⟩,
  ⟨"WDOG_STATUS", 0x22, 0x22, 0x0, 0x0, .bits, .ro, .C, 0x0, .any, 0xFFFFFFFFFFFFFFFF⟩,
  ⟨"GUARD_DAC_ELEMENTS", 0x1000, 0x103F, 0x0, 0x0, .u 1, .ro, .C, 0x4, .any, 0xFFFFFFFFFFFFFFFF⟩,
  ⟨"MIN_CODE", 0x1000, 0x103F, 0x1, 0x1, .u 4, .rwg, .N, 0x0, .special, 0xFFFFFFFFFFFFFFFF⟩,
  ⟨"MAX_CODE", 0x1000, 0x103F, 0x2, 0x2, .u 4, .rwg, .N, 0x0, .special, 0xFFFFFFFFFFFFFFFF⟩,
  ⟨"COMP_LOW", 0x1000, 0x103F, 0x3, 0x3, .u 2, .rwg, .N, 0xC8, .special, 0xFFFFFFFFFFFFFFFF⟩,
  ⟨"COMP_HIGH", 0x1000, 0x103F, 0x4, 0x4, .u 2, .rwg, .N, 0x640, .special, 0xFFFFFFFFFFFFFFFF⟩]

/-- Area 0x10, part 1 (R325). -/
def area10a : List ObjRow := [
  ⟨"TIME_NOW", 0x1, 0x1, 0x0, 0x0, .t64, .ro, .C, 0x0, .any, 0xFFFFFFFFFFFFFFFF⟩,
  ⟨"RAW_COUNT", 0x2, 0x2, 0x0, 0x0, .u 8, .ro, .C, 0x0, .any, 0xFFFFFFFFFFFFFFFF⟩,
  ⟨"TIME_LATCH", 0x3, 0x3, 0x0, 0x0, .cmd, .cmd, .C, 0x0, .any, 0xFFFFFFFFFFFFFFFF⟩,
  ⟨"LATCH_RAW", 0x4, 0x4, 0x0, 0x0, .u 8, .ro, .C, 0x0, .any, 0xFFFFFFFFFFFFFFFF⟩,
  ⟨"LATCH_SEC", 0x5, 0x5, 0x0, 0x0, .u 8, .ro, .C, 0x0, .any, 0xFFFFFFFFFFFFFFFF⟩,
  ⟨"LATCH_SUB", 0x6, 0x6, 0x0, 0x0, .u 8, .ro, .C, 0x0, .any, 0xFFFFFFFFFFFFFFFF⟩,
  ⟨"RAW_AT_EPOCH0", 0x7, 0x7, 0x0, 0x0, .u 8, .ro, .C, 0x0, .any, 0xFFFFFFFFFFFFFFFF⟩,
  ⟨"CLOCK_STATUS", 0x10, 0x10, 0x0, 0x0, .bits, .ro, .C, 0x0, .any, 0xFFFFFFFFFFFFFFFF⟩,
  ⟨"CLOCK_FLAGS", 0x11, 0x11, 0x0, 0x0, .bits, .w1c, .C, 0x0, .any, 0x3⟩,
  ⟨"TIME_SOURCE", 0x12, 0x12, 0x0, 0x0, .u 1, .rwi, .N, 0x1, .interval 0 2, 0xFFFFFFFFFFFFFFFF⟩,
  ⟨"JUMP_THRESHOLD", 0x13, 0x13, 0x0, 0x0, .u 4, .rw, .N, 0x3E8, .interval 100 1000000000, 0xFFFFFFFFFFFFFFFF⟩,
  ⟨"SLEW_MAX", 0x14, 0x14, 0x0, 0x0, .u 2, .rw, .N, 0x64, .interval 1 500, 0xFFFFFFFFFFFFFFFF⟩,
  ⟨"MODEL_GEN", 0x15, 0x15, 0x0, 0x0, .u 4, .ro, .C, 0x0, .any, 0xFFFFFFFFFFFFFFFF⟩,
  ⟨"MODEL_R_REF", 0x16, 0x16, 0x0, 0x0, .u 8, .ro, .C, 0x0, .any, 0xFFFFFFFFFFFFFFFF⟩,
  ⟨"MODEL_T_REF_SEC", 0x17, 0x17, 0x0, 0x0, .u 8, .ro, .C, 0x0, .any, 0xFFFFFFFFFFFFFFFF⟩,
  ⟨"MODEL_T_REF_SUB", 0x18, 0x18, 0x0, 0x0, .u 8, .ro, .C, 0x0, .any, 0xFFFFFFFFFFFFFFFF⟩,
  ⟨"MODEL_RATE", 0x19, 0x19, 0x0, 0x0, .i32, .ro, .C, 0x0, .any, 0xFFFFFFFFFFFFFFFF⟩,
  ⟨"PENDING_STEP_SEC", 0x1A, 0x1A, 0x0, 0x0, .i64, .ro, .C, 0x0, .any, 0xFFFFFFFFFFFFFFFF⟩,
  ⟨"PENDING_STEP_NS", 0x1B, 0x1B, 0x0, 0x0, .i32, .ro, .C, 0x0, .any, 0xFFFFFFFFFFFFFFFF⟩,
  ⟨"TIME_STEP", 0x1C, 0x1C, 0x0, 0x0, .cmd, .cmd, .C, 0x0, .any, 0xFFFFFFFFFFFFFFFF⟩]

/-- Area 0x10, part 2 (R325). -/
def area10b : List ObjRow := [
  ⟨"TIME_SET_SEC", 0x1D, 0x1D, 0x0, 0x0, .u 8, .rw, .C, 0x0, .any, 0xFFFFFFFFFFFFFFFF⟩,
  ⟨"TIME_SET_SUB", 0x1E, 0x1E, 0x0, 0x0, .u 8, .rw, .C, 0x0, .special, 0xFFFFFFFFFFFFFFFF⟩,
  ⟨"STEPS_APPLIED", 0x1F, 0x1F, 0x0, 0x0, .u 4, .ro, .C, 0x0, .any, 0xFFFFFFFFFFFFFFFF⟩,
  ⟨"STEPS_REFUSED", 0x20, 0x20, 0x0, 0x0, .u 4, .ro, .C, 0x0, .any, 0xFFFFFFFFFFFFFFFF⟩,
  ⟨"PTM_CORR", 0x21, 0x21, 0x0, 0x0, .cmd, .cmd, .C, 0x0, .any, 0xFFFFFFFFFFFFFFFF⟩,
  ⟨"PTM_RAW", 0x22, 0x22, 0x0, 0x0, .u 8, .ro, .C, 0x0, .any, 0xFFFFFFFFFFFFFFFF⟩,
  ⟨"PTM_HOST_NS", 0x23, 0x23, 0x0, 0x0, .u 8, .ro, .C, 0x0, .any, 0xFFFFFFFFFFFFFFFF⟩,
  ⟨"PTM_LINK_DELAY", 0x24, 0x24, 0x0, 0x0, .u 4, .ro, .C, 0x0, .any, 0xFFFFFFFFFFFFFFFF⟩,
  ⟨"PTM_INTERVAL", 0x25, 0x25, 0x0, 0x0, .u 2, .rwi, .N, 0x64, .interval 10 10000, 0xFFFFFFFFFFFFFFFF⟩,
  ⟨"SLOT_LATE_COUNT", 0x30, 0x30, 0x0, 0x0, .u 4, .ro, .C, 0x0, .any, 0xFFFFFFFFFFFFFFFF⟩,
  ⟨"SLOT_ELEMENTS", 0x1000, 0x103F, 0x0, 0x0, .u 1, .ro, .C, 0x7, .any, 0xFFFFFFFFFFFFFFFF⟩,
  ⟨"SLOT_CTRL", 0x1000, 0x103F, 0x1, 0x1, .bits, .rw, .C, 0x0, .special, 0xFFFF0F⟩,
  ⟨"SLOT_TIME", 0x1000, 0x103F, 0x2, 0x2, .t64, .rw, .C, 0x0, .special, 0xFFFFFFFFFFFFFFFF⟩,
  ⟨"SLOT_PERIOD", 0x1000, 0x103F, 0x3, 0x3, .u 4, .rw, .C, 0x0, .zeroOr 10000, 0xFFFFFFFFFFFFFFFF⟩,
  ⟨"SLOT_ARM", 0x1000, 0x103F, 0x4, 0x4, .cmd, .cmd, .C, 0x0, .any, 0xFFFFFFFFFFFFFFFF⟩,
  ⟨"SLOT_STATUS", 0x1000, 0x103F, 0x5, 0x5, .bits, .ro, .C, 0x0, .any, 0xFFFFFFFFFFFFFFFF⟩,
  ⟨"SLOT_LATENESS", 0x1000, 0x103F, 0x6, 0x6, .u 4, .ro, .C, 0x0, .any, 0xFFFFFFFFFFFFFFFF⟩,
  ⟨"SLOT_FIRES", 0x1000, 0x103F, 0x7, 0x7, .u 4, .ro, .C, 0x0, .any, 0xFFFFFFFFFFFFFFFF⟩]

/-- Area 0x10, all parts. -/
def area10 : List ObjRow := area10a ++ area10b

/-- Area 0x11, part 1 (R51, R325). -/
def area11a : List ObjRow := [
  ⟨"SESSION_KEY_COUNT", 0x200, 0x207, 0x0, 0x0, .u 1, .ro, .C, 0x5, .any, 0xFFFFFFFFFFFFFFFF⟩,
  ⟨"SESSION_KEY", 0x200, 0x207, 0x1, 0x4, .u 8, .rwg, .N, 0x0, .any, 0xFFFFFFFFFFFFFFFF⟩,
  ⟨"SESSION_KEY_ATTR", 0x200, 0x207, 0x5, 0x5, .bits, .rwg, .N, 0x0, .any, 0x1⟩,
  ⟨"SESSION_IDLE", 0x210, 0x210, 0x0, 0x0, .u 2, .rw, .N, 0x1E, .interval 5 3600, 0xFFFFFFFFFFFFFFFF⟩,
  ⟨"DICT_UDP_PORT", 0x211, 0x211, 0x0, 0x0, .u 2, .rwi, .N, 0xB826, .interval 1024 65535, 0xFFFFFFFFFFFFFFFF⟩,
  ⟨"AUTH_FAIL_COUNT", 0x212, 0x212, 0x0, 0x0, .u 4, .ro, .C, 0x0, .any, 0xFFFFFFFFFFFFFFFF⟩,
  ⟨"REPLAY_COUNT", 0x213, 0x213, 0x0, 0x0, .u 4, .ro, .C, 0x0, .any, 0xFFFFFFFFFFFFFFFF⟩,
  ⟨"SESSIONS_OPEN", 0x214, 0x214, 0x0, 0x0, .u 1, .ro, .C, 0x0, .any, 0xFFFFFFFFFFFFFFFF⟩,
  ⟨"ETH_CTRL", 0x1, 0x1, 0x0, 0x0, .bits, .rwi, .N, 0x0, .special, 0x7FFFF⟩,
  ⟨"ETH_STATUS", 0x2, 0x2, 0x0, 0x0, .bits, .ro, .C, 0x0, .any, 0xFFFFFFFFFFFFFFFF⟩,
  ⟨"MAC_ADDR", 0x3, 0x3, 0x0, 0x0, .u 8, .ro, .F, 0x0, .any, 0xFFFFFFFFFFFFFFFF⟩,
  ⟨"IPV4_ADDR", 0x4, 0x4, 0x0, 0x0, .u 4, .rwi, .N, 0x0, .any, 0xFFFFFFFFFFFFFFFF⟩,
  ⟨"IPV4_PREFIX", 0x5, 0x5, 0x0, 0x0, .u 1, .rwi, .N, 0x18, .interval 1 31, 0xFFFFFFFFFFFFFFFF⟩,
  ⟨"IPV6_ELEMENTS", 0x6, 0x6, 0x0, 0x0, .u 1, .ro, .C, 0x2, .any, 0xFFFFFFFFFFFFFFFF⟩,
  ⟨"IPV6_ADDR", 0x6, 0x6, 0x1, 0x2, .u 8, .rwi, .N, 0x0, .any, 0xFFFFFFFFFFFFFFFF⟩,
  ⟨"ETH_RX_DROPPED", 0x7, 0x7, 0x0, 0x0, .u 4, .ro, .C, 0x0, .any, 0xFFFFFFFFFFFFFFFF⟩,
  ⟨"PTP_CTRL", 0x100, 0x100, 0x0, 0x0, .bits, .rwi, .N, 0x800032, .special, 0xFFFFF3F⟩,
  ⟨"PTP_PORT_STATE", 0x101, 0x101, 0x0, 0x0, .u 1, .ro, .C, 0x3, .any, 0xFFFFFFFFFFFFFFFF⟩,
  ⟨"PTP_OFFSET", 0x102, 0x102, 0x0, 0x0, .t64, .ro, .C, 0x0, .any, 0xFFFFFFFFFFFFFFFF⟩,
  ⟨"PTP_PATH_DELAY", 0x103, 0x103, 0x0, 0x0, .t64, .ro, .C, 0x0, .any, 0xFFFFFFFFFFFFFFFF⟩]

/-- Area 0x11, part 2 (R325). -/
def area11b : List ObjRow := [
  ⟨"PTP_ASYM", 0x104, 0x104, 0x0, 0x0, .i32, .rwi, .N, 0x0, .signed 1000000, 0xFFFFFFFFFFFFFFFF⟩,
  ⟨"ONE_STEP_FALLBACK", 0x105, 0x105, 0x0, 0x0, .u 4, .ro, .C, 0x0, .any, 0xFFFFFFFFFFFFFFFF⟩]

/-- Area 0x11, all parts. -/
def area11 : List ObjRow := area11a ++ area11b

/-- Area 0x12 (R54, R344). -/
def area12 : List ObjRow := [
  ⟨"HOT_ERR", 0x10, 0x10, 0x0, 0x0, .bits, .w1c, .C, 0x0, .any, 0xFFFFFF⟩,
  ⟨"HOT_ERR_KEY", 0x11, 0x11, 0x0, 0x0, .key, .ro, .C, 0x0, .any, 0xFFFFFFFFFFFFFFFF⟩,
  ⟨"PCIE_LINK", 0x1, 0x1, 0x0, 0x0, .bits, .ro, .C, 0x0, .any, 0xFFFFFFFFFFFFFFFF⟩,
  ⟨"BAR2_ERR", 0x12, 0x12, 0x0, 0x0, .bits, .w1c, .C, 0x0, .any, 0xFFFFFF⟩,
  ⟨"BAR2_ERR_ADDR", 0x13, 0x13, 0x0, 0x0, .u 8, .ro, .C, 0xFFFFFFFFFFFFFFFF, .any, 0xFFFFFFFFFFFFFFFF⟩,
  ⟨"MBOX_OVERRUNS", 0x14, 0x14, 0x0, 0x0, .u 4, .ro, .C, 0x0, .any, 0xFFFFFFFFFFFFFFFF⟩,
  ⟨"BAR0_STRAY", 0x15, 0x15, 0x0, 0x0, .u 4, .ro, .C, 0x0, .any, 0xFFFFFFFFFFFFFFFF⟩,
  ⟨"EVENT_RING_BASE", 0x20, 0x20, 0x0, 0x0, .u 8, .rwi, .N, 0x0, .mult 4096, 0xFFFFFFFFFFFFFFFF⟩,
  ⟨"EVENT_RING_ENTRIES", 0x21, 0x21, 0x0, 0x0, .u 2, .rwi, .N, 0x100, .special, 0xFFFFFFFFFFFFFFFF⟩,
  ⟨"EVENT_PRODUCER", 0x22, 0x22, 0x0, 0x0, .u 4, .ro, .C, 0x0, .any, 0xFFFFFFFFFFFFFFFF⟩,
  ⟨"EVENT_CONSUMER", 0x23, 0x23, 0x0, 0x0, .u 4, .rw, .C, 0x0, .any, 0xFFFFFFFFFFFFFFFF⟩,
  ⟨"IRQ_ROUTE_COUNT", 0x100, 0x100, 0x0, 0x0, .u 1, .ro, .C, 0x30, .any, 0xFFFFFFFFFFFFFFFF⟩,
  ⟨"IRQ_ROUTE", 0x100, 0x100, 0x1, 0x30, .u 2, .rw, .N, 0x0, .special, 0xFFFFFFFFFFFFFFFF⟩]

/-- Area 0x20 (R83, R87, R89). -/
def area20 : List ObjRow := [
  ⟨"PORT_ELEMENTS", 0x8000, 0x9FFF, 0x0, 0x0, .u 1, .ro, .C, 0x13, .any, 0xFFFFFFFFFFFFFFFF⟩,
  ⟨"PORT_CTRL", 0x8000, 0x9FFF, 0x1, 0x1, .bits, .rwi, .N, 0x40FFF, .special, 0x71FFF⟩,
  ⟨"PORT_CHANNELS", 0x8000, 0x9FFF, 0x2, 0x2, .u 2, .ro, .C, 0x0, .any, 0xFFFFFFFFFFFFFFFF⟩,
  ⟨"PORT_SLICES", 0x8000, 0x9FFF, 0x3, 0x3, .u 4, .ro, .C, 0x0, .any, 0xFFFFFFFFFFFFFFFF⟩,
  ⟨"CHANNEL_MAP", 0x8000, 0x9FFF, 0x4, 0x13, .u 8, .rwi, .N, 0x0, .special, 0xFFFFFFFFFFFFFFFF⟩,
  ⟨"THREAD_ELEMENTS", 0x1000, 0x1BFF, 0x0, 0x0, .u 1, .ro, .C, 0x4, .any, 0xFFFFFFFFFFFFFFFF⟩,
  ⟨"THREAD_CTRL", 0x1000, 0x1BFF, 0x1, 0x1, .bits, .rwi, .N, 0x0, .any, 0x3⟩,
  ⟨"GROUP_SIZE", 0x1000, 0x1BFF, 0x2, 0x2, .u 2, .ro, .C, 0x0, .any, 0xFFFFFFFFFFFFFFFF⟩,
  ⟨"SEQ_RATE", 0x1000, 0x1BFF, 0x3, 0x3, .u 4, .ro, .C, 0x0, .any, 0xFFFFFFFFFFFFFFFF⟩,
  ⟨"ROLE", 0x1000, 0x1BFF, 0x4, 0x4, .bits, .ro, .C, 0xFFF, .any, 0xFFFFFFFFFFFFFFFF⟩,
  ⟨"SITE_ENABLE_COUNT", 0x10, 0x10, 0x0, 0x0, .u 1, .ro, .C, 0x8, .any, 0xFFFFFFFFFFFFFFFF⟩,
  ⟨"SITE_ENABLE", 0x10, 0x10, 0x1, 0x8, .u 8, .rwi, .N, 0xFFFFFFFFFFFFFFFF, .any, 0xFFFFFFFFFFFFFFFF⟩]

/-- Area 0x21 (R159, R162, R164, R177). -/
def area21 : List ObjRow := [
  ⟨"PERIOD_ELEMENTS", 0x1000, 0x1BFF, 0x0, 0x0, .u 1, .ro, .C, 0x40, .any, 0xFFFFFFFFFFFFFFFF⟩,
  ⟨"PERIOD", 0x1000, 0x1BFF, 0x1, 0x40, .u 4, .rwi, .N, 0x2710, .zeroOr 1250, 0xFFFFFFFFFFFFFFFF⟩,
  ⟨"TSE_ELEMENTS", 0x4000, 0x47FF, 0x0, 0x0, .u 1, .ro, .C, 0x80, .any, 0xFFFFFFFFFFFFFFFF⟩,
  ⟨"DRIFT_LAG_COUNT", 0x10, 0x10, 0x0, 0x0, .u 1, .ro, .C, 0x20, .any, 0xFFFFFFFFFFFFFFFF⟩,
  ⟨"DRIFT_LAG", 0x10, 0x10, 0x1, 0x20, .i32, .ro, .C, 0x0, .any, 0xFFFFFFFFFFFFFFFF⟩,
  ⟨"DRIFT_UPDATES", 0x11, 0x11, 0x0, 0x0, .u 8, .ro, .C, 0x0, .any, 0xFFFFFFFFFFFFFFFF⟩,
  ⟨"DRIFT_MAX_FS", 0x12, 0x12, 0x0, 0x0, .u 4, .ro, .C, 0x0, .any, 0xFFFFFFFFFFFFFFFF⟩,
  ⟨"TS_STORE_IMAGE", 0x100, 0x11F, 0x0, 0x0, .blob, .rwi, .C, 0x10000, .any, 0xFFFFFFFFFFFFFFFF⟩]

/-- Area 0x22 (R275). -/
def area22 : List ObjRow := [
  ⟨"DAC_ELEMENTS", 0x1000, 0x103F, 0x0, 0x0, .u 1, .ro, .C, 0x7, .any, 0xFFFFFFFFFFFFFFFF⟩,
  ⟨"DAC_CODE", 0x1000, 0x103F, 0x1, 0x1, .u 4, .rw, .N, 0x80000, .special, 0xFFFFFFFFFFFFFFFF⟩,
  ⟨"DAC_ACTIVE", 0x1000, 0x103F, 0x2, 0x2, .u 4, .ro, .C, 0x0, .any, 0xFFFFFFFFFFFFFFFF⟩,
  ⟨"DAC_GROUP", 0x1000, 0x103F, 0x3, 0x3, .u 1, .rwi, .N, 0x0, .interval 0 7, 0xFFFFFFFFFFFFFFFF⟩,
  ⟨"DAC_PARK", 0x1000, 0x103F, 0x4, 0x4, .u 4, .rwg, .N, 0x80000, .special, 0xFFFFFFFFFFFFFFFF⟩,
  ⟨"DAC_FAULT_CODE", 0x1000, 0x103F, 0x5, 0x5, .u 4, .rwg, .N, 0x80000, .special, 0xFFFFFFFFFFFFFFFF⟩,
  ⟨"DAC_SLICES", 0x1000, 0x103F, 0x6, 0x6, .u 4, .rwg, .N, 0xFFFFFFFF, .any, 0xFFFFFFFFFFFFFFFF⟩,
  ⟨"DAC_STATUS", 0x1000, 0x103F, 0x7, 0x7, .bits, .w1c, .C, 0x0, .any, 0x1FF⟩,
  ⟨"DAC_LOAD", 0x10, 0x10, 0x0, 0x0, .cmd, .cmd, .C, 0x0, .any, 0xFFFFFFFFFFFFFFFF⟩,
  ⟨"DAC_LOADS", 0x11, 0x11, 0x0, 0x0, .u 4, .ro, .C, 0x0, .any, 0xFFFFFFFFFFFFFFFF⟩,
  ⟨"DAC_LOAD_MERGED", 0x12, 0x12, 0x0, 0x0, .u 4, .ro, .C, 0x0, .any, 0xFFFFFFFFFFFFFFFF⟩]

/-- Area 0x23 (R75, R90, R102, R122). -/
def area23 : List ObjRow := [
  ⟨"DISPATCH_MAX_NS", 0x10, 0x10, 0x0, 0x0, .u 4, .ro, .C, 0x0, .any, 0xFFFFFFFFFFFFFFFF⟩,
  ⟨"SPAN_STARVE", 0x11, 0x11, 0x0, 0x0, .u 4, .ro, .C, 0x0, .any, 0xFFFFFFFFFFFFFFFF⟩,
  ⟨"SEQ_RATE_TOTAL", 0x12, 0x12, 0x0, 0x0, .u 4, .ro, .C, 0x0, .any, 0xFFFFFFFFFFFFFFFF⟩,
  ⟨"CONTEXTS_ARMED", 0x13, 0x13, 0x0, 0x0, .u 2, .ro, .C, 0x0, .any, 0xFFFFFFFFFFFFFFFF⟩,
  ⟨"HELD_EVENTS", 0x14, 0x14, 0x0, 0x0, .u 8, .ro, .C, 0x0, .any, 0xFFFFFFFFFFFFFFFF⟩,
  ⟨"HOST_FLAGS", 0x20, 0x20, 0x0, 0x0, .u 2, .rw, .C, 0x0, .any, 0xFFFFFFFFFFFFFFFF⟩,
  ⟨"UWORD_CORRECTED", 0x21, 0x21, 0x0, 0x0, .u 4, .ro, .C, 0x0, .any, 0xFFFFFFFFFFFFFFFF⟩,
  ⟨"HOST_TRIG", 0x22, 0x22, 0x0, 0x0, .u 1, .wo, .C, 0x0, .any, 0xFFFFFFFFFFFFFFFF⟩,
  ⟨"HOST_JUMP", 0x3000, 0x3BFF, 0x0, 0x0, .cmd, .cmd, .C, 0x0, .any, 0xFFFFFFFFFFFFFFFF⟩,
  ⟨"HJ_ELEMENTS", 0x4000, 0x4BFF, 0x0, 0x0, .u 1, .ro, .C, 0x5, .any, 0xFFFFFFFFFFFFFFFF⟩,
  ⟨"HJ_ENTRY", 0x4000, 0x4BFF, 0x1, 0x4, .u 8, .rwi, .N, 0xFFFFFFFFFFFFFFFF, .any, 0xFFFFFFFFFFFFFFFF⟩,
  ⟨"HJ_TAKEN_CYCLE", 0x4000, 0x4BFF, 0x5, 0x5, .u 8, .ro, .C, 0xFFFFFFFFFFFFFFFF, .any, 0xFFFFFFFFFFFFFFFF⟩,
  ⟨"THREAD_STATUS_COUNT", 0x1000, 0x1BFF, 0x0, 0x0, .u 1, .ro, .C, 0x2, .any, 0xFFFFFFFFFFFFFFFF⟩,
  ⟨"THREAD_STATE", 0x1000, 0x1BFF, 0x1, 0x1, .bits, .ro, .C, 0x0, .any, 0xFFFFFFFFFFFFFFFF⟩,
  ⟨"STOP_CYCLE", 0x1000, 0x1BFF, 0x2, 0x2, .u 8, .ro, .C, 0x0, .any, 0xFFFFFFFFFFFFFFFF⟩,
  ⟨"CONTEXT_IMAGE", 0x2000, 0x2BFF, 0x0, 0x0, .blob, .ro, .C, 0x200, .any, 0xFFFFFFFFFFFFFFFF⟩]

/-- Area 0x24, part 1 (R206, R213). -/
def area24a : List ObjRow := [
  ⟨"CAPTURE_STATUS", 0x10, 0x10, 0x0, 0x0, .bits, .ro, .C, 0x0, .any, 0xFFFFFFFFFFFFFFFF⟩,
  ⟨"SITE_FAIL_ELEMENTS", 0x20, 0x20, 0x0, 0x0, .u 1, .ro, .C, 0x8, .any, 0xFFFFFFFFFFFFFFFF⟩,
  ⟨"SITE_FAIL_MAP", 0x20, 0x20, 0x1, 0x8, .u 8, .ro, .C, 0x0, .any, 0xFFFFFFFFFFFFFFFF⟩,
  ⟨"SITE_MASK_ELEMENTS", 0x21, 0x21, 0x0, 0x0, .u 1, .ro, .C, 0x8, .any, 0xFFFFFFFFFFFFFFFF⟩,
  ⟨"SITE_MASK_MAP", 0x21, 0x21, 0x1, 0x8, .u 8, .ro, .C, 0x0, .any, 0xFFFFFFFFFFFFFFFF⟩,
  ⟨"FAIL_COUNT_IMAGE", 0x100, 0x100, 0x0, 0x0, .blob, .ro, .C, 0x1000, .any, 0xFFFFFFFFFFFFFFFF⟩,
  ⟨"SITE_RESULT_IMAGE", 0x101, 0x101, 0x0, 0x0, .blob, .ro, .C, 0x4000, .any, 0xFFFFFFFFFFFFFFFF⟩,
  ⟨"FAIL_COUNT", 0x1000, 0x13FF, 0x0, 0x0, .u 4, .ro, .C, 0x0, .any, 0xFFFFFFFFFFFFFFFF⟩,
  ⟨"SITE_RESULT_ELEMENTS", 0x2000, 0x21FF, 0x0, 0x0, .u 1, .ro, .C, 0x5, .any, 0xFFFFFFFFFFFFFFFF⟩,
  ⟨"SITE_STATUS", 0x2000, 0x21FF, 0x1, 0x1, .bits, .ro, .C, 0x0, .any, 0xFFFFFFFFFFFFFFFF⟩,
  ⟨"FIRST_FAIL", 0x2000, 0x21FF, 0x2, 0x2, .u 8, .ro, .C, 0xFFFFFFFFFFFFFFFF, .any, 0xFFFFFFFFFFFFFFFF⟩,
  ⟨"FIRST_FAIL_CHANNEL", 0x2000, 0x21FF, 0x3, 0x3, .u 2, .ro, .C, 0xFFFF, .any, 0xFFFFFFFFFFFFFFFF⟩,
  ⟨"MASK_CYCLE", 0x2000, 0x21FF, 0x4, 0x4, .u 8, .ro, .C, 0xFFFFFFFFFFFFFFFF, .any, 0xFFFFFFFFFFFFFFFF⟩,
  ⟨"LOG_ENTRIES", 0x2000, 0x21FF, 0x5, 0x5, .u 4, .ro, .C, 0x0, .any, 0xFFFFFFFFFFFFFFFF⟩,
  ⟨"CAPPORT_ELEMENTS", 0x8000, 0x9FFF, 0x0, 0x0, .u 1, .ro, .C, 0x11, .any, 0xFFFFFFFFFFFFFFFF⟩,
  ⟨"JUDGE_MASK", 0x8000, 0x9FFF, 0x1, 0x10, .u 8, .rwi, .N, 0x0, .any, 0xFFFFFFFFFFFFFFFF⟩,
  ⟨"CAP_CTRL", 0x8000, 0x9FFF, 0x11, 0x11, .bits, .rwi, .N, 0x0, .any, 0x1⟩,
  ⟨"FULLCAP_REGION", 0x30, 0x30, 0x0, 0x0, .u 2, .rwi, .N, 0xFFFF, .special, 0xFFFFFFFFFFFFFFFF⟩,
  ⟨"FULLCAP_OFFSET", 0x31, 0x31, 0x0, 0x0, .u 8, .rwi, .N, 0x0, .special, 0xFFFFFFFFFFFFFFFF⟩,
  ⟨"FULLCAP_LENGTH", 0x32, 0x32, 0x0, 0x0, .u 8, .rwi, .N, 0x0, .special, 0xFFFFFFFFFFFFFFFF⟩]

/-- Area 0x24, part 2 (R213, R219). -/
def area24b : List ObjRow := [
  ⟨"FULLCAP_BYTES", 0x33, 0x33, 0x0, 0x0, .u 8, .ro, .C, 0x0, .any, 0xFFFFFFFFFFFFFFFF⟩,
  ⟨"FULLCAP_FRAMES", 0x34, 0x34, 0x0, 0x0, .u 4, .ro, .C, 0x0, .any, 0xFFFFFFFFFFFFFFFF⟩,
  ⟨"FULLCAP_LOST", 0x35, 0x35, 0x0, 0x0, .u 4, .ro, .C, 0x0, .any, 0xFFFFFFFFFFFFFFFF⟩,
  ⟨"RING_BASE", 0x40, 0x40, 0x0, 0x0, .u 8, .rwi, .N, 0x0, .mult 4096, 0xFFFFFFFFFFFFFFFF⟩,
  ⟨"RING_PRODUCER", 0x41, 0x41, 0x0, 0x0, .u 4, .ro, .C, 0x0, .any, 0xFFFFFFFFFFFFFFFF⟩,
  ⟨"RING_CONSUMER", 0x42, 0x42, 0x0, 0x0, .u 4, .rw, .C, 0x0, .any, 0xFFFFFFFFFFFFFFFF⟩,
  ⟨"RING_FREE", 0x43, 0x43, 0x0, 0x0, .u 2, .ro, .C, 0x1000, .any, 0xFFFFFFFFFFFFFFFF⟩,
  ⟨"RECORDS_DISCARDED", 0x44, 0x44, 0x0, 0x0, .u 4, .ro, .C, 0x0, .any, 0xFFFFFFFFFFFFFFFF⟩]

/-- Area 0x24, all parts. -/
def area24 : List ObjRow := area24a ++ area24b

/-- Area 0x25 (R210). -/
def area25 : List ObjRow := [
  ⟨"FAILLOG_REGION", 0x10, 0x10, 0x0, 0x0, .u 2, .rwi, .N, 0xFFFF, .special, 0xFFFFFFFFFFFFFFFF⟩,
  ⟨"FAILLOG_OFFSET", 0x11, 0x11, 0x0, 0x0, .u 8, .rwi, .N, 0x0, .special, 0xFFFFFFFFFFFFFFFF⟩,
  ⟨"FAILLOG_LENGTH", 0x12, 0x12, 0x0, 0x0, .u 8, .rwi, .N, 0x0, .special, 0xFFFFFFFFFFFFFFFF⟩,
  ⟨"FAILLOG_SITE_LIMIT", 0x13, 0x13, 0x0, 0x0, .u 4, .rwi, .N, 0x1000, .interval 1 16777216, 0xFFFFFFFFFFFFFFFF⟩,
  ⟨"FAILLOG_ENTRIES", 0x14, 0x14, 0x0, 0x0, .u 8, .ro, .C, 0x0, .any, 0xFFFFFFFFFFFFFFFF⟩,
  ⟨"JUDGE_DROPPED", 0x15, 0x15, 0x0, 0x0, .u 8, .ro, .C, 0x0, .any, 0xFFFFFFFFFFFFFFFF⟩]

/-- Area 0x26 (R216). -/
def area26 : List ObjRow := [
  ⟨"SIG_ELEMENTS", 0x1000, 0x6FFF, 0x0, 0x0, .u 1, .ro, .C, 0x16, .any, 0xFFFFFFFFFFFFFFFF⟩,
  ⟨"SIG_CTRL", 0x1000, 0x6FFF, 0x1, 0x1, .bits, .rwi, .N, 0x401F, .special, 0x3FFFFFF⟩,
  ⟨"SIG_POLY", 0x1000, 0x6FFF, 0x2, 0x2, .u 8, .rwi, .N, 0x4C11DB7, .any, 0xFFFFFFFFFFFFFFFF⟩,
  ⟨"SIG_INIT", 0x1000, 0x6FFF, 0x3, 0x3, .u 8, .rwi, .N, 0xFFFFFFFF, .any, 0xFFFFFFFFFFFFFFFF⟩,
  ⟨"SIG_XOROUT", 0x1000, 0x6FFF, 0x4, 0x4, .u 8, .rwi, .N, 0xFFFFFFFF, .any, 0xFFFFFFFFFFFFFFFF⟩,
  ⟨"SIG_VALUE", 0x1000, 0x6FFF, 0x5, 0x5, .u 8, .rw, .C, 0x0, .any, 0xFFFFFFFFFFFFFFFF⟩,
  ⟨"SIG_RESULT", 0x1000, 0x6FFF, 0x6, 0x6, .u 8, .ro, .C, 0x0, .any, 0xFFFFFFFFFFFFFFFF⟩,
  ⟨"SIG_CHMASK", 0x1000, 0x6FFF, 0x7, 0x16, .u 8, .rwi, .N, 0xFFFFFFFFFFFFFFFF, .any, 0xFFFFFFFFFFFFFFFF⟩,
  ⟨"SIG_CHECK_COUNT", 0x10, 0x10, 0x0, 0x0, .u 4, .ro, .C, 0x0, .any, 0xFFFFFFFFFFFFFFFF⟩]

/-- Area 0x30 (R302). -/
def area30 : List ObjRow := [
  ⟨"DRAM_CONFIG", 0x1, 0x1, 0x0, 0x0, .bits, .rwi, .N, 0xFFFE4, .special, 0xFFFFF⟩,
  ⟨"DRAM_CAPACITY", 0x2, 0x2, 0x0, 0x0, .u 8, .ro, .C, 0x0, .any, 0xFFFFFFFFFFFFFFFF⟩,
  ⟨"DRAM_ENABLED", 0x3, 0x3, 0x0, 0x0, .u 2, .ro, .C, 0x0, .any, 0xFFFFFFFFFFFFFFFF⟩,
  ⟨"DRAM_MAP_GEN", 0x4, 0x4, 0x0, 0x0, .u 4, .ro, .C, 0x0, .any, 0xFFFFFFFFFFFFFFFF⟩,
  ⟨"DRAM_FILL", 0x5, 0x5, 0x0, 0x0, .u 8, .ro, .C, 0x0, .any, 0xFFFFFFFFFFFFFFFF⟩,
  ⟨"ACT_THRESHOLD", 0x10, 0x10, 0x0, 0x0, .u 2, .rwi, .N, 0x800, .interval 256 8192, 0xFFFFFFFFFFFFFFFF⟩,
  ⟨"NEIGHBOUR_REFRESHES", 0x11, 0x11, 0x0, 0x0, .u 8, .ro, .C, 0x0, .any, 0xFFFFFFFFFFFFFFFF⟩,
  ⟨"REFRESH_FORCED", 0x12, 0x12, 0x0, 0x0, .u 8, .ro, .C, 0x0, .any, 0xFFFFFFFFFFFFFFFF⟩,
  ⟨"SCRUB_PERIOD", 0x13, 0x13, 0x0, 0x0, .u 2, .rw, .N, 0x18, .interval 1 168, 0xFFFFFFFFFFFFFFFF⟩,
  ⟨"SCRUB_PASSES", 0x14, 0x14, 0x0, 0x0, .u 4, .ro, .C, 0x0, .any, 0xFFFFFFFFFFFFFFFF⟩,
  ⟨"CE_LIMIT", 0x15, 0x15, 0x0, 0x0, .u 4, .rw, .N, 0x3E8, .interval 1 1000000, 0xFFFFFFFFFFFFFFFF⟩,
  ⟨"UE_COUNT", 0x16, 0x16, 0x0, 0x0, .u 4, .ro, .C, 0x0, .any, 0xFFFFFFFFFFFFFFFF⟩,
  ⟨"UE_ADDRESS", 0x17, 0x17, 0x0, 0x0, .u 8, .ro, .C, 0xFFFFFFFFFFFFFFFF, .any, 0xFFFFFFFFFFFFFFFF⟩,
  ⟨"SUBCH_ELEMENTS", 0x1000, 0x100B, 0x0, 0x0, .u 1, .ro, .C, 0xE, .any, 0xFFFFFFFFFFFFFFFF⟩,
  ⟨"SUBCH_STATUS", 0x1000, 0x100B, 0x1, 0x1, .bits, .ro, .C, 0x0, .any, 0xFFFFFFFFFFFFFFFF⟩,
  ⟨"SUBCH_CE", 0x1000, 0x100B, 0x2, 0x2, .u 8, .ro, .C, 0x0, .any, 0xFFFFFFFFFFFFFFFF⟩,
  ⟨"SUBCH_RETRAINS", 0x1000, 0x100B, 0x3, 0x3, .u 4, .ro, .C, 0x0, .any, 0xFFFFFFFFFFFFFFFF⟩,
  ⟨"SUBCH_RFM_ISSUED", 0x1000, 0x100B, 0x4, 0x4, .u 8, .ro, .C, 0x0, .any, 0xFFFFFFFFFFFFFFFF⟩,
  ⟨"LANE_TRAIN", 0x1000, 0x100B, 0x5, 0x9, .bits, .ro, .C, 0x0, .any, 0xFFFFFFFFFFFFFFFF⟩,
  ⟨"LANE_CE", 0x1000, 0x100B, 0xA, 0xE, .u 4, .ro, .C, 0x0, .any, 0xFFFFFFFFFFFFFFFF⟩]

/-- Area 0x31, part 1 (R138, R142, R146, R154). -/
def area31a : List ObjRow := [
  ⟨"ENC_ELEMENTS", 0x8000, 0x9FFF, 0x0, 0x0, .u 1, .ro, .C, 0x25, .any, 0xFFFFFFFFFFFFFFFF⟩,
  ⟨"ENC_CTRL", 0x8000, 0x9FFF, 0x1, 0x1, .bits, .rwi, .N, 0x2, .special, 0x3⟩,
  ⟨"MAP", 0x8000, 0x9FFF, 0x2, 0x5, .u 8, .rwi, .N, 0xFEDCBA9876543210, .any, 0xFFFFFFFFFFFFFFFF⟩,
  ⟨"MAP_SELECT", 0x8000, 0x9FFF, 0x6, 0x25, .u 8, .rwi, .N, 0x0, .any, 0xFFFFFFFFFFFFFFFF⟩,
  ⟨"PAT_ELEMENTS", 0x1000, 0x1BFF, 0x0, 0x0, .u 1, .ro, .C, 0xC, .any, 0xFFFFFFFFFFFFFFFF⟩,
  ⟨"PAT_REGION", 0x1000, 0x1BFF, 0x1, 0x1, .u 2, .rwi, .N, 0xFFFF, .special, 0xFFFFFFFFFFFFFFFF⟩,
  ⟨"PAT_OFFSET", 0x1000, 0x1BFF, 0x2, 0x2, .u 8, .rwi, .N, 0x0, .mult 64, 0xFFFFFFFFFFFFFFFF⟩,
  ⟨"PAT_ROWS", 0x1000, 0x1BFF, 0x3, 0x3, .u 8, .rwi, .N, 0x0, .interval 0 1099511627776, 0xFFFFFFFFFFFFFFFF⟩,
  ⟨"PAT_STRIDE", 0x1000, 0x1BFF, 0x4, 0x4, .u 4, .rwi, .N, 0x40, .special, 0xFFFFFFFFFFFFFFFF⟩,
  ⟨"PAT_ENTRY", 0x1000, 0x1BFF, 0x5, 0x5, .u 8, .rwi, .N, 0x0, .any, 0xFFFFFFFFFFFFFFFF⟩,
  ⟨"PIN_RANGE", 0x1000, 0x1BFF, 0x6, 0x9, .u 8, .rwi, .N, 0xFFFFFFFFFFFFFFFF, .any, 0xFFFFFFFFFFFFFFFF⟩,
  ⟨"PAT_PINNED_KIB", 0x1000, 0x1BFF, 0xA, 0xA, .u 4, .ro, .C, 0x0, .any, 0xFFFFFFFFFFFFFFFF⟩,
  ⟨"PAT_BUFFER_KIB", 0x1000, 0x1BFF, 0xB, 0xB, .u 4, .ro, .C, 0x0, .any, 0xFFFFFFFFFFFFFFFF⟩,
  ⟨"PAT_STREAM", 0x1000, 0x1BFF, 0xC, 0xC, .u 4, .ro, .C, 0x0, .any, 0xFFFFFFFFFFFFFFFF⟩,
  ⟨"REGION_ELEMENTS", 0x100, 0x1FF, 0x0, 0x0, .u 1, .ro, .C, 0x3, .any, 0xFFFFFFFFFFFFFFFF⟩,
  ⟨"REGION_BASE", 0x100, 0x1FF, 0x1, 0x1, .u 8, .rwi, .N, 0x0, .special, 0xFFFFFFFFFFFFFFFF⟩,
  ⟨"REGION_LENGTH", 0x100, 0x1FF, 0x2, 0x2, .u 8, .rwi, .N, 0x0, .special, 0xFFFFFFFFFFFFFFFF⟩,
  ⟨"REGION_LOCKED", 0x100, 0x1FF, 0x3, 0x3, .u 1, .ro, .C, 0x0, .any, 0xFFFFFFFFFFFFFFFF⟩,
  ⟨"STREAM_PEAK", 0x10, 0x10, 0x0, 0x0, .u 4, .ro, .C, 0x0, .any, 0xFFFFFFFFFFFFFFFF⟩,
  ⟨"STREAM_BUDGET", 0x11, 0x11, 0x0, 0x0, .u 4, .ro, .C, 0x0, .any, 0xFFFFFFFFFFFFFFFF⟩]

/-- Area 0x31, part 2 (R154). -/
def area31b : List ObjRow := [
  ⟨"SPILL_RESERVE", 0x12, 0x12, 0x0, 0x0, .u 4, .rwi, .N, 0x3E8, .interval 100 20000, 0xFFFFFFFFFFFFFFFF⟩,
  ⟨"STREAM_NEEDED", 0x13, 0x13, 0x0, 0x0, .u 4, .ro, .C, 0x0, .any, 0xFFFFFFFFFFFFFFFF⟩,
  ⟨"LS_PINNED_KIB", 0x14, 0x14, 0x0, 0x0, .u 4, .ro, .C, 0x0, .any, 0xFFFFFFFFFFFFFFFF⟩,
  ⟨"LS_BUFFER_KIB", 0x15, 0x15, 0x0, 0x0, .u 4, .ro, .C, 0x0, .any, 0xFFFFFFFFFFFFFFFF⟩,
  ⟨"UNDERRUNS", 0x16, 0x16, 0x0, 0x0, .u 4, .ro, .C, 0x0, .any, 0xFFFFFFFFFFFFFFFF⟩]

/-- Area 0x31, all parts. -/
def area31 : List ObjRow := area31a ++ area31b

/-- Area 0x40, part 1 (R244, R259). -/
def area40a : List ObjRow := [
  ⟨"TRIGIN_ELEMENTS", 0x10, 0x10, 0x0, 0x0, .u 1, .ro, .C, 0x8, .any, 0xFFFFFFFFFFFFFFFF⟩,
  ⟨"TRIGIN_CFG", 0x10, 0x10, 0x1, 0x8, .bits, .rw, .N, 0x0, .any, 0x1⟩,
  ⟨"TRIGOUT_ELEMENTS", 0x11, 0x11, 0x0, 0x0, .u 1, .ro, .C, 0x10, .any, 0xFFFFFFFFFFFFFFFF⟩,
  ⟨"TRIGOUT_CFG", 0x11, 0x11, 0x1, 0x10, .bits, .rw, .N, 0x14, .special, 0x3FFFF⟩,
  ⟨"TRIGOUT_PULSE", 0x12, 0x12, 0x0, 0x0, .cmd, .cmd, .C, 0x0, .any, 0xFFFFFFFFFFFFFFFF⟩,
  ⟨"TRIGOUT_MERGED", 0x13, 0x13, 0x0, 0x0, .u 4, .ro, .C, 0x0, .any, 0xFFFFFFFFFFFFFFFF⟩,
  ⟨"ACQ_ELEMENTS", 0x1000, 0x1007, 0x0, 0x0, .u 1, .ro, .C, 0xF, .any, 0xFFFFFFFFFFFFFFFF⟩,
  ⟨"ACQ_CTRL", 0x1000, 0x1007, 0x1, 0x1, .bits, .rw, .N, 0x7DF0000, .special, 0x7FFFFFFF⟩,
  ⟨"ACQ_PORT", 0x1000, 0x1007, 0x2, 0x2, .u 2, .rw, .N, 0x0, .interval 0 8191, 0xFFFFFFFFFFFFFFFF⟩,
  ⟨"ACQ_INTERVAL", 0x1000, 0x1007, 0x3, 0x3, .u 4, .rw, .N, 0x1, .interval 1 16777216, 0xFFFFFFFFFFFFFFFF⟩,
  ⟨"ACQ_LENGTH", 0x1000, 0x1007, 0x4, 0x4, .u 4, .rw, .N, 0x400, .interval 2 65528, 0xFFFFFFFFFFFFFFFF⟩,
  ⟨"ACQ_PRE", 0x1000, 0x1007, 0x5, 0x5, .u 4, .rw, .N, 0x0, .special, 0xFFFFFFFFFFFFFFFF⟩,
  ⟨"ACQ_LEVEL", 0x1000, 0x1007, 0x6, 0x6, .i32, .rw, .N, 0x0, .any, 0xFFFFFFFFFFFFFFFF⟩,
  ⟨"ACQ_HYST", 0x1000, 0x1007, 0x7, 0x7, .u 4, .rw, .N, 0x0, .interval 0 2147483647, 0xFFFFFFFFFFFFFFFF⟩,
  ⟨"ACQ_ARM", 0x1000, 0x1007, 0x8, 0x8, .cmd, .cmd, .C, 0x0, .any, 0xFFFFFFFFFFFFFFFF⟩,
  ⟨"ACQ_FORCE", 0x1000, 0x1007, 0x9, 0x9, .cmd, .cmd, .C, 0x0, .any, 0xFFFFFFFFFFFFFFFF⟩,
  ⟨"ACQ_STATE", 0x1000, 0x1007, 0xA, 0xA, .bits, .ro, .C, 0x0, .any, 0xFFFFFFFFFFFFFFFF⟩,
  ⟨"ACQ_RECORD", 0x1000, 0x1007, 0xB, 0xB, .blob, .ro, .C, 0x0, .any, 0xFFFFFFFFFFFFFFFF⟩,
  ⟨"ACQ_RELEASE", 0x1000, 0x1007, 0xC, 0xC, .u 4, .wo, .C, 0x0, .any, 0xFFFFFFFFFFFFFFFF⟩,
  ⟨"TRIG_IN_REARM", 0x1000, 0x1007, 0xD, 0xD, .u 4, .ro, .C, 0x0, .any, 0xFFFFFFFFFFFFFFFF⟩]

/-- Area 0x40, part 2 (R259). -/
def area40b : List ObjRow := [
  ⟨"TRIG_AFTER_FIRE", 0x1000, 0x1007, 0xE, 0xE, .u 4, .ro, .C, 0x0, .any, 0xFFFFFFFFFFFFFFFF⟩,
  ⟨"ARM_IGNORED", 0x1000, 0x1007, 0xF, 0xF, .u 4, .ro, .C, 0x0, .any, 0xFFFFFFFFFFFFFFFF⟩]

/-- Area 0x40, all parts. -/
def area40 : List ObjRow := area40a ++ area40b

/-- Area 0x41 (R251). -/
def area41 : List ObjRow := [
  ⟨"TIU_ELEMENTS", 0x1000, 0x100F, 0x0, 0x0, .u 1, .ro, .C, 0xD, .any, 0xFFFFFFFFFFFFFFFF⟩,
  ⟨"TIU_CTRL", 0x1000, 0x100F, 0x1, 0x1, .bits, .rw, .N, 0x7C00, .special, 0x7C7F⟩,
  ⟨"TIU_IN_A", 0x1000, 0x100F, 0x2, 0x2, .bits, .rw, .N, 0x0, .special, 0x3FFF⟩,
  ⟨"TIU_IN_B", 0x1000, 0x100F, 0x3, 0x3, .bits, .rw, .N, 0x0, .special, 0x3FFF⟩,
  ⟨"TIU_N", 0x1000, 0x100F, 0x4, 0x4, .u 4, .rw, .N, 0x1, .interval 1 16777216, 0xFFFFFFFFFFFFFFFF⟩,
  ⟨"TIU_GATE", 0x1000, 0x100F, 0x5, 0x5, .u 8, .rw, .N, 0x30D400, .interval 1 281474976710655, 0xFFFFFFFFFFFFFFFF⟩,
  ⟨"TIU_TIMEOUT", 0x1000, 0x100F, 0x6, 0x6, .u 4, .rw, .N, 0xF4240, .any, 0xFFFFFFFFFFFFFFFF⟩,
  ⟨"TIU_ARM", 0x1000, 0x100F, 0x7, 0x7, .cmd, .cmd, .C, 0x0, .any, 0xFFFFFFFFFFFFFFFF⟩,
  ⟨"TIU_RESULT", 0x1000, 0x100F, 0x8, 0x8, .u 8, .ro, .C, 0x0, .any, 0xFFFFFFFFFFFFFFFF⟩,
  ⟨"TIU_STATUS", 0x1000, 0x100F, 0x9, 0x9, .bits, .ro, .C, 0x0, .any, 0xFFFFFFFFFFFFFFFF⟩,
  ⟨"TIU_START_TIME", 0x1000, 0x100F, 0xA, 0xA, .u 8, .ro, .C, 0x0, .any, 0xFFFFFFFFFFFFFFFF⟩,
  ⟨"STRAY_STOP", 0x1000, 0x100F, 0xB, 0xB, .u 4, .ro, .C, 0x0, .any, 0xFFFFFFFFFFFFFFFF⟩,
  ⟨"DEAD_MISS", 0x1000, 0x100F, 0xC, 0xC, .u 4, .ro, .C, 0x0, .any, 0xFFFFFFFFFFFFFFFF⟩,
  ⟨"ARM_IGNORED", 0x1000, 0x100F, 0xD, 0xD, .u 4, .ro, .C, 0x0, .any, 0xFFFFFFFFFFFFFFFF⟩,
  ⟨"AUXIN_ELEMENTS", 0x100, 0x100, 0x0, 0x0, .u 1, .ro, .C, 0x8, .any, 0xFFFFFFFFFFFFFFFF⟩,
  ⟨"AUXIN_THRESH", 0x100, 0x100, 0x1, 0x8, .u 2, .rw, .N, 0x384, .special, 0xFFFFFFFFFFFFFFFF⟩]

/-- Area 0x42 (R253). -/
def area42 : List ObjRow := [
  ⟨"ADC_ELEMENTS", 0x1000, 0x100F, 0x0, 0x0, .u 1, .ro, .C, 0x7, .any, 0xFFFFFFFFFFFFFFFF⟩,
  ⟨"ADC_CFG", 0x1000, 0x100F, 0x1, 0x1, .bits, .rw, .N, 0xF80, .special, 0xF9F⟩,
  ⟨"ADC_INTERVAL", 0x1000, 0x100F, 0x2, 0x2, .u 2, .rw, .N, 0x1, .interval 1 65535, 0xFFFFFFFFFFFFFFFF⟩,
  ⟨"ADC_COUNT", 0x1000, 0x100F, 0x3, 0x3, .u 4, .rw, .N, 0x1, .interval 1 16777216, 0xFFFFFFFFFFFFFFFF⟩,
  ⟨"ADC_START", 0x1000, 0x100F, 0x4, 0x4, .cmd, .cmd, .C, 0x0, .any, 0xFFFFFFFFFFFFFFFF⟩,
  ⟨"ADC_VALUE", 0x1000, 0x100F, 0x5, 0x5, .i32, .ro, .C, 0x0, .any, 0xFFFFFFFFFFFFFFFF⟩,
  ⟨"ADC_STATUS", 0x1000, 0x100F, 0x6, 0x6, .bits, .w1c, .C, 0x0, .any, 0x3⟩,
  ⟨"ADC_START_IGNORED", 0x1000, 0x100F, 0x7, 0x7, .u 4, .ro, .C, 0x0, .any, 0xFFFFFFFFFFFFFFFF⟩]

/-- Area 0x50, part 1 (R389). -/
def area50a : List ObjRow := [
  ⟨"FAULT_CAUSE_COUNT", 0x1, 0x1, 0x0, 0x0, .u 1, .ro, .C, 0x2, .any, 0xFFFFFFFFFFFFFFFF⟩,
  ⟨"FAULT_CAUSE", 0x1, 0x1, 0x1, 0x2, .u 8, .w1c, .C, 0x0, .any, 0xFFFFFFFFFFFFFFFF⟩,
  ⟨"FAULT_LIVE_COUNT", 0x2, 0x2, 0x0, 0x0, .u 1, .ro, .C, 0x2, .any, 0xFFFFFFFFFFFFFFFF⟩,
  ⟨"FAULT_LIVE", 0x2, 0x2, 0x1, 0x2, .u 8, .ro, .C, 0x0, .any, 0xFFFFFFFFFFFFFFFF⟩,
  ⟨"FIRST_FAULT_COUNT", 0x3, 0x3, 0x0, 0x0, .u 1, .ro, .C, 0x2, .any, 0xFFFFFFFFFFFFFFFF⟩,
  ⟨"FIRST_FAULT", 0x3, 0x3, 0x1, 0x2, .u 8, .ro, .C, 0x0, .any, 0xFFFFFFFFFFFFFFFF⟩,
  ⟨"FF_CLEAR", 0x4, 0x4, 0x0, 0x0, .cmd, .cmd, .C, 0x0, .any, 0xFFFFFFFFFFFFFFFF⟩,
  ⟨"HIST_COUNT", 0x5, 0x5, 0x0, 0x0, .u 4, .ro, .C, 0x0, .any, 0xFFFFFFFFFFFFFFFF⟩,
  ⟨"HIST_LOST", 0x6, 0x6, 0x0, 0x0, .u 4, .ro, .C, 0x0, .any, 0xFFFFFFFFFFFFFFFF⟩,
  ⟨"FAULT_INJECT", 0x7, 0x7, 0x0, 0x0, .cmd, .cmd, .C, 0x0, .any, 0xFFFFFFFFFFFFFFFF⟩,
  ⟨"SAFE_STATUS", 0x10, 0x10, 0x0, 0x0, .bits, .ro, .C, 0x0, .any, 0xFFFFFFFFFFFFFFFF⟩,
  ⟨"SAFE_UNLATCH", 0x11, 0x11, 0x0, 0x0, .cmd, .cmd, .C, 0x0, .any, 0xFFFFFFFFFFFFFFFF⟩,
  ⟨"QUIET_MS", 0x12, 0x12, 0x0, 0x0, .u 2, .rw, .N, 0xA, .interval 1 10000, 0xFFFFFFFFFFFFFFFF⟩,
  ⟨"RECOVERY_LIMIT", 0x13, 0x13, 0x0, 0x0, .u 1, .rw, .N, 0x8, .any, 0xFFFFFFFFFFFFFFFF⟩,
  ⟨"RECOVERY_WINDOW", 0x14, 0x14, 0x0, 0x0, .u 2, .rw, .N, 0x3C, .interval 1 1440, 0xFFFFFFFFFFFFFFFF⟩,
  ⟨"RECOVERY_COUNT", 0x15, 0x15, 0x0, 0x0, .u 4, .ro, .C, 0x0, .any, 0xFFFFFFFFFFFFFFFF⟩,
  ⟨"TEMP_WARN", 0x16, 0x16, 0x0, 0x0, .u 1, .rw, .N, 0x64, .interval 80 104, 0xFFFFFFFFFFFFFFFF⟩,
  ⟨"HIST_ELEMENTS", 0x200, 0x21F, 0x0, 0x0, .u 1, .ro, .C, 0x2, .any, 0xFFFFFFFFFFFFFFFF⟩,
  ⟨"HIST_ENTRY", 0x200, 0x21F, 0x1, 0x2, .u 8, .ro, .C, 0x0, .any, 0xFFFFFFFFFFFFFFFF⟩,
  ⟨"SRC_ELEMENTS", 0x1000, 0x107F, 0x0, 0x0, .u 1, .ro, .C, 0x2, .any, 0xFFFFFFFFFFFFFFFF⟩]

/-- Area 0x50, part 2 (R389). -/
def area50b : List ObjRow := [
  ⟨"FAULT_SEVERITY", 0x1000, 0x107F, 0x1, 0x1, .u 1, .rw, .N, 0x0, .special, 0xFFFFFFFFFFFFFFFF⟩,
  ⟨"RAISES", 0x1000, 0x107F, 0x2, 0x2, .u 4, .ro, .C, 0x0, .any, 0xFFFFFFFFFFFFFFFF⟩]

/-- Area 0x50, all parts. -/
def area50 : List ObjRow := area50a ++ area50b

/-- Area 0x51 (R407). -/
def area51 : List ObjRow := [
  ⟨"BB_NEXT_SEQ", 0x1, 0x1, 0x0, 0x0, .u 4, .ro, .C, 0x0, .any, 0xFFFFFFFFFFFFFFFF⟩,
  ⟨"BB_VALID", 0x2, 0x2, 0x0, 0x0, .u 2, .ro, .C, 0x0, .any, 0xFFFFFFFFFFFFFFFF⟩,
  ⟨"BB_TORN", 0x3, 0x3, 0x0, 0x0, .u 4, .ro, .C, 0x0, .any, 0xFFFFFFFFFFFFFFFF⟩,
  ⟨"BB_SUPPRESSED", 0x4, 0x4, 0x0, 0x0, .u 4, .ro, .C, 0x0, .any, 0xFFFFFFFFFFFFFFFF⟩,
  ⟨"BB_IMAGE", 0x10, 0x10, 0x0, 0x0, .blob, .ro, .C, 0x0, .any, 0xFFFFFFFFFFFFFFFF⟩,
  ⟨"BB_NOTE", 0x11, 0x11, 0x0, 0x0, .cmd, .cmd, .C, 0x0, .any, 0xFFFFFFFFFFFFFFFF⟩]

/-- Area 0x52 (R407). -/
def area52 : List ObjRow := [
  ⟨"NVM_STATUS", 0x1, 0x1, 0x0, 0x0, .bits, .ro, .C, 0x0, .any, 0xFFFFFFFFFFFFFFFF⟩,
  ⟨"DICT_SKIPPED", 0x2, 0x2, 0x0, 0x0, .u 4, .ro, .C, 0x0, .any, 0xFFFFFFFFFFFFFFFF⟩,
  ⟨"LEDGER_IMAGE", 0x10, 0x10, 0x0, 0x0, .blob, .ro, .C, 0x100, .any, 0xFFFFFFFFFFFFFFFF⟩,
  ⟨"POWER_ON_SECONDS", 0x11, 0x11, 0x0, 0x0, .u 8, .ro, .C, 0x0, .any, 0xFFFFFFFFFFFFFFFF⟩,
  ⟨"TEMP_BIN_COUNT", 0x12, 0x12, 0x0, 0x0, .u 1, .ro, .C, 0x10, .any, 0xFFFFFFFFFFFFFFFF⟩,
  ⟨"TEMP_BIN", 0x12, 0x12, 0x1, 0x10, .u 4, .ro, .C, 0x0, .any, 0xFFFFFFFFFFFFFFFF⟩,
  ⟨"TJ_AVG", 0x13, 0x13, 0x0, 0x0, .i32, .ro, .C, 0x0, .any, 0xFFFFFFFFFFFFFFFF⟩,
  ⟨"BANK_RECOVERIES", 0x14, 0x14, 0x0, 0x0, .u 4, .ro, .C, 0x0, .any, 0xFFFFFFFFFFFFFFFF⟩,
  ⟨"NVM_TOKEN_COUNT", 0x20, 0x20, 0x0, 0x0, .u 1, .ro, .C, 0x4, .any, 0xFFFFFFFFFFFFFFFF⟩,
  ⟨"NVM_TOKENS", 0x20, 0x20, 0x1, 0x4, .u 2, .ro, .C, 0x0, .any, 0xFFFFFFFFFFFFFFFF⟩]

/-- Area 0x60, part 1 (R187, R191, R359). -/
def area60a : List ObjRow := [
  ⟨"LANE_ELEMENTS", 0x1000, 0x13FF, 0x0, 0x0, .u 1, .ro, .C, 0x8, .any, 0xFFFFFFFFFFFFFFFF⟩,
  ⟨"LANE_STATUS", 0x1000, 0x13FF, 0x1, 0x1, .bits, .ro, .C, 0x0, .any, 0xFFFFFFFFFFFFFFFF⟩,
  ⟨"LANE_RT", 0x1000, 0x13FF, 0x2, 0x2, .u 4, .ro, .C, 0x0, .any, 0xFFFFFFFFFFFFFFFF⟩,
  ⟨"LANE_DT", 0x1000, 0x13FF, 0x3, 0x3, .u 4, .ro, .C, 0x0, .any, 0xFFFFFFFFFFFFFFFF⟩,
  ⟨"LANE_DS", 0x1000, 0x13FF, 0x4, 0x4, .u 4, .ro, .C, 0x0, .any, 0xFFFFFFFFFFFFFFFF⟩,
  ⟨"LANE_ASYM", 0x1000, 0x13FF, 0x5, 0x5, .i32, .rwi, .N, 0x0, .signed 40000, 0xFFFFFFFFFFFFFFFF⟩,
  ⟨"EYE_WIDTH", 0x1000, 0x13FF, 0x6, 0x6, .u 2, .ro, .C, 0x0, .any, 0xFFFFFFFFFFFFFFFF⟩,
  ⟨"MARGIN_ERRORS", 0x1000, 0x13FF, 0x7, 0x7, .u 4, .ro, .C, 0x0, .any, 0xFFFFFFFFFFFFFFFF⟩,
  ⟨"DESKEW_COUNT", 0x1000, 0x13FF, 0x8, 0x8, .u 2, .ro, .C, 0x0, .any, 0xFFFFFFFFFFFFFFFF⟩,
  ⟨"EYE_LIMIT", 0x100, 0x100, 0x0, 0x0, .u 2, .rw, .N, 0x10, .interval 1 65535, 0xFFFFFFFFFFFFFFFF⟩,
  ⟨"LANES_DISABLED", 0x101, 0x101, 0x0, 0x0, .u 2, .ro, .C, 0x0, .any, 0xFFFFFFFFFFFFFFFF⟩,
  ⟨"REQ_ELEMENTS", 0x2000, 0x200F, 0x0, 0x0, .u 1, .ro, .C, 0x5, .any, 0xFFFFFFFFFFFFFFFF⟩,
  ⟨"REQ_CTRL", 0x2000, 0x200F, 0x1, 0x1, .bits, .rw, .C, 0x3E80000, .special, 0xFFFF01FF⟩,
  ⟨"REQ_TARGET", 0x2000, 0x200F, 0x2, 0x2, .u 8, .rw, .C, 0x0, .any, 0xFFFFFFFFFFFFFFFF⟩,
  ⟨"REQ_CMD", 0x2000, 0x200F, 0x3, 0x3, .cmd, .cmd, .C, 0x0, .any, 0xFFFFFFFFFFFFFFFF⟩,
  ⟨"REQ_RESULT", 0x2000, 0x200F, 0x4, 0x4, .bits, .ro, .C, 0x0, .any, 0xFFFFFFFFFFFFFFFF⟩,
  ⟨"REQ_COMMIT_RAW", 0x2000, 0x200F, 0x5, 0x5, .u 8, .ro, .C, 0x0, .any, 0xFFFFFFFFFFFFFFFF⟩,
  ⟨"BADGER_STATUS", 0x200, 0x200, 0x0, 0x0, .bits, .ro, .C, 0xF0, .any, 0xFFFFFFFFFFFFFFFF⟩,
  ⟨"CAL_CANCEL", 0x201, 0x201, 0x0, 0x0, .cmd, .cmd, .C, 0x0, .any, 0xFFFFFFFFFFFFFFFF⟩,
  ⟨"ABANDON_COUNT", 0x202, 0x202, 0x0, 0x0, .u 4, .ro, .C, 0x0, .any, 0xFFFFFFFFFFFFFFFF⟩]

/-- Area 0x60, part 2 (R359). -/
def area60b : List ObjRow := [
  ⟨"HK_LOAD", 0x203, 0x203, 0x0, 0x0, .u 1, .ro, .C, 0x0, .any, 0xFFFFFFFFFFFFFFFF⟩]

/-- Area 0x60, all parts. -/
def area60 : List ObjRow := area60a ++ area60b

/-- Area 0x61 (R199, R366). -/
def area61 : List ObjRow := [
  ⟨"DIAG_ELEMENTS", 0x100, 0x100, 0x0, 0x0, .u 1, .ro, .C, 0x8, .any, 0xFFFFFFFFFFFFFFFF⟩,
  ⟨"DIAG_CTRL", 0x100, 0x100, 0x1, 0x1, .bits, .rw, .C, 0x0, .any, 0x7⟩,
  ⟨"DIAG_SLICES", 0x100, 0x100, 0x2, 0x2, .u 4, .rw, .C, 0x0, .any, 0xFFFFFFFFFFFFFFFF⟩,
  ⟨"DIAG_PORT", 0x100, 0x100, 0x3, 0x3, .u 2, .rw, .C, 0x0, .interval 0 8191, 0xFFFFFFFFFFFFFFFF⟩,
  ⟨"DIAG_ROWS", 0x100, 0x100, 0x4, 0x4, .u 8, .rw, .C, 0x0, .any, 0xFFFFFFFFFFFFFF⟩,
  ⟨"DIAG_SWEEP", 0x100, 0x100, 0x5, 0x5, .u 8, .rw, .C, 0x0, .any, 0xFFFFFFFFFFFFFFF⟩,
  ⟨"DIAG_SHMOO", 0x100, 0x100, 0x6, 0x6, .u 8, .rw, .C, 0x0, .any, 0x3FFFFFFFFFFFFFF⟩,
  ⟨"DIAG_PASSES", 0x100, 0x100, 0x7, 0x7, .u 4, .rw, .C, 0x1, .interval 1 16777216, 0xFFFFFFFFFFFFFFFF⟩,
  ⟨"DIAG_START", 0x100, 0x100, 0x8, 0x8, .cmd, .cmd, .C, 0x0, .any, 0xFFFFFFFFFFFFFFFF⟩,
  ⟨"DIAG_RESULT", 0x101, 0x101, 0x0, 0x0, .blob, .ro, .C, 0x0, .any, 0xFFFFFFFFFFFFFFFF⟩,
  ⟨"SLICE_BIST_RESULT", 0x1000, 0x101F, 0x0, 0x0, .bits, .ro, .C, 0x0, .any, 0xFFFFFFFFFFFFFFFF⟩,
  ⟨"DAC_TEST_RESULT", 0x2000, 0x203F, 0x0, 0x0, .bits, .ro, .C, 0x0, .any, 0xFFFFFFFFFFFFFFFF⟩]

/-- Area 0x70, part 1 (R224, R231). -/
def area70a : List ObjRow := [
  ⟨"FERN_ALIGN", 0x10, 0x10, 0x0, 0x0, .cmd, .cmd, .C, 0x0, .any, 0xFFFFFFFFFFFFFFFF⟩,
  ⟨"FERN_STATUS", 0x11, 0x11, 0x0, 0x0, .bits, .ro, .C, 0x0, .any, 0xFFFFFFFFFFFFFFFF⟩,
  ⟨"FERN_TARGET", 0x12, 0x12, 0x0, 0x0, .u 4, .rwi, .N, 0x9C40, .interval 0 80000, 0xFFFFFFFFFFFFFFFF⟩,
  ⟨"FERN_DIN", 0x13, 0x13, 0x0, 0x0, .u 4, .ro, .C, 0x0, .any, 0xFFFFFFFFFFFFFFFF⟩,
  ⟨"FERN_OFFSET", 0x14, 0x14, 0x0, 0x0, .u 4, .ro, .C, 0x0, .any, 0xFFFFFFFFFFFFFFFF⟩,
  ⟨"EPOCH_COUNT", 0x15, 0x15, 0x0, 0x0, .u 8, .ro, .C, 0x0, .any, 0xFFFFFFFFFFFFFFFF⟩,
  ⟨"FSYNC_PERIOD", 0x16, 0x16, 0x0, 0x0, .u 4, .rwi, .N, 0x5F5E100, .zeroOr 1000, 0xFFFFFFFFFFFFFFFF⟩,
  ⟨"FSYNC_MISMATCHES", 0x17, 0x17, 0x0, 0x0, .u 4, .ro, .C, 0x0, .any, 0xFFFFFFFFFFFFFFFF⟩,
  ⟨"FERN_RT_DRIFT", 0x18, 0x18, 0x0, 0x0, .i32, .ro, .C, 0x0, .any, 0xFFFFFFFFFFFFFFFF⟩,
  ⟨"RING_CTRL", 0x100, 0x100, 0x0, 0x0, .bits, .rwi, .N, 0x0, .any, 0xF⟩,
  ⟨"RING_FORM", 0x101, 0x101, 0x0, 0x0, .cmd, .cmd, .C, 0x0, .any, 0xFFFFFFFFFFFFFFFF⟩,
  ⟨"RING_STATUS", 0x102, 0x102, 0x0, 0x0, .bits, .ro, .C, 0x0, .any, 0xFFFFFFFFFFFFFFFF⟩,
  ⟨"RING_LAT", 0x103, 0x103, 0x0, 0x0, .u 4, .ro, .C, 0x0, .any, 0xFFFFFFFFFFFFFFFF⟩,
  ⟨"RING_LAP", 0x104, 0x104, 0x0, 0x0, .u 4, .ro, .C, 0x0, .any, 0xFFFFFFFFFFFFFFFF⟩,
  ⟨"RING_CRC_ERRORS", 0x105, 0x105, 0x0, 0x0, .u 4, .ro, .C, 0x0, .any, 0xFFFFFFFFFFFFFFFF⟩,
  ⟨"RING_TRIG_MERGED", 0x106, 0x106, 0x0, 0x0, .u 4, .ro, .C, 0x0, .any, 0xFFFFFFFFFFFFFFFF⟩,
  ⟨"LAUNCH_EPOCH", 0x107, 0x107, 0x0, 0x0, .u 8, .ro, .C, 0x0, .any, 0xFFFFFFFFFFFFFFFF⟩,
  ⟨"RING_COND", 0x108, 0x108, 0x0, 0x0, .u 2, .ro, .C, 0x0, .any, 0xFFFFFFFFFFFFFFFF⟩,
  ⟨"TOKENS_UNCLAIMED", 0x109, 0x109, 0x0, 0x0, .u 4, .ro, .C, 0x0, .any, 0xFFFFFFFFFFFFFFFF⟩,
  ⟨"RING_HOP_COUNT", 0x110, 0x110, 0x0, 0x0, .u 1, .ro, .C, 0x20, .any, 0xFFFFFFFFFFFFFFFF⟩]

/-- Area 0x70, part 2 (R231). -/
def area70b : List ObjRow := [
  ⟨"RING_HOP", 0x110, 0x110, 0x1, 0x20, .u 4, .ro, .C, 0x0, .any, 0xFFFFFFFFFFFFFFFF⟩,
  ⟨"REMOTE_ELEMENTS", 0x2000, 0x21FF, 0x0, 0x0, .u 1, .ro, .C, 0x1, .any, 0xFFFFFFFFFFFFFFFF⟩,
  ⟨"REMOTE_PORTS", 0x2000, 0x21FF, 0x1, 0x1, .u 2, .rwi, .N, 0x0, .any, 0xFFFFFFFFFFFFFFFF⟩]

/-- Area 0x70, all parts. -/
def area70 : List ObjRow := area70a ++ area70b

/-- The four words of a timing-set entry (R162): word `j` of the entry. -/
def tseRow (j : Nat) : ObjRow :=
  match j with
  | 0 => ⟨"TSE_DA_DB", 0x4000, 0x47FF, 0x1, 0x80, .u 8, .rwi, .N, 0xFFFFFFFF00000000, .any, 0xFFFFFFFFFFFFFFFF⟩
  | 1 => ⟨"TSE_DC_DD", 0x4000, 0x47FF, 0x1, 0x80, .u 8, .rwi, .N, 0xFFFFFFFFFFFFFFFF, .any, 0xFFFFFFFFFFFFFFFF⟩
  | 2 => ⟨"TSE_CA_CB", 0x4000, 0x47FF, 0x1, 0x80, .u 8, .rwi, .N, 0xFFFFFFFFFFFFFFFF, .any, 0xFFFFFFFFFFFFFFFF⟩
  | _ => ⟨"TSE_FORMAT", 0x4000, 0x47FF, 0x1, 0x80, .bits, .rwi, .N, 0x0, .special, 0x1F⟩

/-- The rows of one area (R32). -/
def areaRows (area : Nat) : List ObjRow :=
  match area with
  | 0x00 => area00
  | 0x01 => area01
  | 0x02 => area02
  | 0x10 => area10
  | 0x11 => area11
  | 0x12 => area12
  | 0x20 => area20
  | 0x21 => area21
  | 0x22 => area22
  | 0x23 => area23
  | 0x24 => area24
  | 0x25 => area25
  | 0x26 => area26
  | 0x30 => area30
  | 0x31 => area31
  | 0x40 => area40
  | 0x41 => area41
  | 0x42 => area42
  | 0x50 => area50
  | 0x51 => area51
  | 0x52 => area52
  | 0x60 => area60
  | 0x61 => area61
  | 0x70 => area70
  | _ => []

end Sys2Proof.Machine
end

