-- ==== Sys2Proof/Machine/Defaults.lean ====
section
/-! DEFINITION. The value every object takes at the end of BOOT when no bank entry replaces it (R40, R397): the Default columns, and the defaults that depend on
the element. -/

namespace Sys2Proof.Machine

/-- The row of a key (R32): its element and object number lie in the row's ranges; word `j` of a timing-set entry has its own rows (R162). -/
def rowOf (key : Nat) : Option ObjRow :=
  let o := keyObj key
  let e := keyEl key
  if keyArea key = 0x21 ∧ 0x4000 ≤ o ∧ o ≤ 0x47FF ∧ 1 ≤ e ∧ e ≤ 0x80 then some (tseRow ((e - 1) % 4))
  else (areaRows (keyArea key)).find? (fun r => decide (r.objLo ≤ o) && decide (o ≤ r.objHi) && decide (r.elLo ≤ e) && decide (e ≤ r.elHi))

/-- The severity table of R373: default of source `i` (0 NOTE ... 6 machine check). -/
def defaultSeverity (i : Nat) : Nat :=
  if i ≤ 6 then 4
  else if i ≥ 96 then 3
  else match i with
    | 7 => 0 | 8 => 1 | 9 => 4 | 10 => 6 | 11 => 4 | 12 => 4 | 13 => 3 | 14 => 5 | 15 => 6 | 16 => 2 | 17 => 2 | 18 => 6 | 19 => 6 | 20 => 6 | 21 => 4
    | 22 => 0 | 23 => 0 | 24 => 1 | 25 => 1 | 26 => 1 | 27 => 0 | 28 => 0 | 29 => 1 | 30 => 0 | 31 => 0 | 32 => 0 | 33 => 0 | 34 => 2 | 35 => 3 | 36 => 2
    | 37 => 2 | 38 => 2 | 39 => 1 | 40 => 4 | 41 => 4 | 42 => 4 | 43 => 4 | 44 => 4 | 45 => 2 | 46 => 2 | 47 => 2 | 48 => 1 | 49 => 2 | 50 => 2 | 51 => 1
    | 52 => 1 | 53 => 1 | 54 => 1 | 55 => 0 | 56 => 4 | 57 => 2 | 58 => 1 | 59 => 2 | 60 => 2 | 77 => 6 | 81 => 1 | 82 => 3 | 83 => 0 | 84 => 0 | 85 => 0
    | 86 => 0 | 87 => 0 | 88 => 0 | 89 => 0 | 90 => 0 | 91 => 0 | 95 => 0
    | _ => 1

/-- The floor of source `i` (R373). -/
def severityFloor (i : Nat) : Nat :=
  match i with
    | 8 => 0 | 12 => 3 | 29 => 0 | 35 => 2 | 40 => 2 | 41 => 2 | 42 => 2 | 43 => 2 | 44 => 2 | 57 => 1
    | _ => defaultSeverity i

/-- The default vector of IRQ_ROUTE element `e` (1-48) (R343). -/
def defaultVector (e : Nat) : Nat :=
  if e ≤ 0x28 then e - 1 else 0xFFFF

/-- The lowest and highest usable code of a DAC (R263). -/
def usableLow (d : Nat) : Nat := if d < 48 then 65536 else 32768
def usableHigh (d : Nat) : Nat := if d < 48 then 983039 else 1015807

/-- The first 8 bytes of a string object, the value a message carries for piece 0 (R45); the pieces are those of `stringOf`. -/
def stringOf (key : Nat) : List Nat :=
  if key = Key.vendorName then [0x49, 0x6B, 0x69, 0x6D, 0x6F, 0x6E, 0x64]
  else if key = Key.deviceName then [0x4B, 0x52, 0x31, 0x30, 0x32, 0x34]
  else if key = Key.orderingCode then [0x4B, 0x52, 0x31, 0x30, 0x32, 0x34, 0x2D, 0x41, 0x31, 0x2D, 0x46, 0x42]
  else []

/-- The shipped value of an object (R40, R397): the Default column, with the defaults that depend on the element (R343, R373, R390) and the factory values of the
model's die (R9: DIE_SERIAL never 0; DESIGN CHOICE, log entry 10). -/
def shipped (key : Nat) : Word :=
  match rowOf key with
  | none => if keyArea key = 0x7F then Config.vendorDefault key else 0
  | some r =>
    let o := keyObj key
    let e := keyEl key
    if key = Key.dieSerial then 1
    else if keyArea key = 0x12 ∧ o = 0x0100 ∧ 1 ≤ e then toWord (defaultVector e)
    else if keyArea key = 0x50 ∧ 0x1000 ≤ o ∧ e = 1 then toWord (defaultSeverity (o - 0x1000))
    else if keyArea key = 0x02 ∧ 0x1000 ≤ o ∧ e = 1 then toWord (usableLow (o - 0x1000))
    else if keyArea key = 0x02 ∧ 0x1000 ≤ o ∧ e = 2 then toWord (usableHigh (o - 0x1000))
    else if keyArea key = 0x02 ∧ 0x1030 > o ∧ 0x1000 ≤ o ∧ (e = 3 ∨ e = 4) then 0
    else toWord r.dflt

end Sys2Proof.Machine
end

