-- ==== Sys2Proof/Machine/State.lean ====
section
/-! DEFINITION. The state of the KR1024 as plain data. Everything the spec gives a dictionary key lives in `objs` and nowhere else; the other fields
hold the state the spec names without a key: contexts, DDR5, sessions, ring, units in progress, Lichen, retention registers. -/

namespace Sys2Proof.Machine

/-! ## Threads (R90, R115) -/

/-- One explicit loop counter (R111). -/
structure LoopCtr where
  count : Nat
  active : Bool
deriving DecidableEq, Repr

/-- A failing judged compare outside MATCH bodies: member ordinal, cycle number, cycle start in tu (R113, R114). -/
structure FailRec where
  ord : Nat
  cycle : Nat
  tu : Nat
deriving DecidableEq, Repr

/-- What a row's first cycle sets off at its port time (R117, R118, FLAG of R108). -/
inductive RowEvent where
  | none
  | trigout (n : Nat)
  | tiuArm (u : Nat)
  | adcStart (mask : Nat)
  | dacLoad (group : Nat)
  | acqArm (u : Nat)
  | ring (line : Nat)
  | ringCond (n : Nat) (v : Bool)
  | token (site dst src : Nat)
deriving DecidableEq, Repr

/-- What the last word executed saw of the fails (R115): its port time in tu, the first cycle of its segment, the members not masked. -/
structure WordSeen where
  tu : Nat
  segStart : Nat
  ords : List Nat
deriving DecidableEq, Repr

/-- A host jump that a thread awaits (R121): entry, commanding thread, reach time as the port time of the cycle that the slices then begin (tu), and whether it takes the
boundary after the waiting word or MATCH in progress. -/
structure JumpReq where
  entry : Nat
  who : Nat
  reach : Int
  atEnd : Bool
deriving DecidableEq, Repr

/-- What the core held before a row that begins a segment, kept so that a host jump can discard the spans after the boundary (R121). -/
structure Snap where
  stack : List Nat
  loops : List LoopCtr
  siteMask : List Nat
  seen : WordSeen
  mto : Bool
  wto : Bool
  wlate : Bool
  uf : BitVec 8
  segLabel : Nat
  segCount : Nat
  segStart : Nat
  issueTu : Nat
  judgeMasked : Bool
  capture : Option Bool
  sigHeld : Bool
deriving DecidableEq, Repr

/-- A run of cycles of one row that the core has issued (R25, R97): `left` cycles not yet started. `waiting` marks the open repeat of a waiting word (R124); `snap` is
there where the row begins a segment; `halts` where it is HALT; `stops` where the row stops the thread in place of executing (R112); `took` the event time of the
banked token a SYNC row consumed; `staged` the first span of a host-jump entry, which stands outside the span share (R120). -/
structure Span where
  seq : Nat
  row : Nat
  first : Nat
  left : Nat
  judgeMasked : Bool
  capture : Option Bool
  sigHeld : Bool
  sigReset : Bool
  inMatch : Bool
  maskedOrds : List Nat
  waiting : Bool
  halts : Bool
  stops : Option Nat
  staged : Bool
  took : Option Nat
  event : RowEvent
  snap : Option Snap
deriving DecidableEq, Repr

/-- A MATCH in progress (R128-R130): row, body rows, timeout, INV, first cycle and its port time, body length L in cycles and its duration T, the members served, and for
each the pass in which it first met the condition; `placed` and `failed` hold the members with a judged, unmasked strobe placed, and failed, in pass `pass`, the pass in
execution. `nextRow` of pass `issuing` is the next body row to issue; `exit` is the last pass, q + D, once known. -/
structure MatchRun where
  row : Nat
  body : Nat
  timeout : Nat
  inv : Bool
  first : Nat
  firstTu : Nat
  len : Nat
  dur : Nat
  served : List Nat
  met : List (Nat × Nat)
  placed : List Nat
  failed : List Nat
  pass : Nat
  nextRow : Nat
  issuing : Nat
  exit : Option Nat
  timedOut : Bool
deriving DecidableEq, Repr

/-- The waiting word a thread is stalled on (R124-R127): SYNC, WAITTRIG or WAITTIME. -/
inductive WaitKind where
  | sync
  | trig (source timeout : Nat)
  | time (tu : Nat)
deriving DecidableEq, Repr

/-- A wait in progress: its kind, the cycle number and port time (tu) of the wait row's first cycle, and the wake time once known (R124). -/
structure WaitRun where
  kind : WaitKind
  first : Nat
  firstTu : Nat
  wake : Option Nat
deriving DecidableEq, Repr

/-- The context of a thread (R90, R115) with what the core and the slices hold of it in a burst. `pins` are the row ranges pinned for it at ARM (R149), `ringRows`
whether a reachable row makes it ring-bound (R239), `jump` a host jump awaited, `staged` the entry rows whose first span the slices hold (R120) and `stagedNext` that the
next span is such a one, `late` the slices that did not start (R20), `waits` a dispatch whose first microword is still to come (R96), `failedOrds` the members a MATCH timeout or a lane
fault failed (R206). -/
structure Thread where
  pc : Nat
  stack : List Nat
  loops : List LoopCtr
  spanSeq : Nat
  cycles : Nat
  siteMask : List Nat
  depFetch : Nat
  depSync : Int
  depTrig : Bool
  depTime : Bool
  matchLeft : Nat
  seen : WordSeen
  mto : Bool
  wto : Bool
  wlate : Bool
  uf : BitVec 8
  segLabel : Nat
  segCount : Nat
  segStart : Nat
  -- beyond the image
  issueTu : Nat
  started : Nat
  startTu : Nat
  spans : List Span
  prev : Option (Nat × Nat)
  judgeMasked : Bool
  capture : Option Bool
  sigHeld : Bool
  fails : List FailRec
  execMask : List Nat
  lastEv : List (Nat × Nat)
  changes : List (Nat × Nat)
  banked : List Nat
  heldTokens : List (Nat × Nat)
  matchRun : Option MatchRun
  waitRun : Option WaitRun
  altRow : Option Nat
  block : Nat
  rcPub : BitVec 16
  core : Option Nat
  readySince : Nat
  runSince : Nat
  armed : Bool
  lastRow : Bool
  jump : Option JumpReq
  staged : List Nat
  stagedNext : Bool
  late : List Nat
  waits : Bool
  pins : List (Nat × Nat)
  ringRows : Bool
  laneFault : Bool
  matchTimeout : Bool
  sigSuspect : Bool
  logOverflow : Bool
  capGap : Bool
  capTrunc : Bool
  failedOrds : List Nat
deriving DecidableEq, Repr

/-- A context with every field of R90 and R115 at its default. -/
def Thread.idle : Thread :=
  { pc := 0, stack := [], loops := List.replicate 4 ⟨0, false⟩, spanSeq := 0, cycles := 0, siteMask := [], depFetch := 0, depSync := 0, depTrig := false,
    depTime := false, matchLeft := 0, seen := ⟨0, 0, []⟩, mto := false, wto := false, wlate := false, uf := 0, segLabel := 0, segCount := 0,
    segStart := 0, issueTu := 0, started := 0, startTu := 0, spans := [], prev := none, judgeMasked := false, capture := none,
    sigHeld := false, fails := [], execMask := [], lastEv := [], changes := [], banked := [], heldTokens := [], matchRun := none, waitRun := none, altRow := none, block := 0, rcPub := 0, core := none,
    readySince := 0, runSince := 0, armed := false, lastRow := false, jump := none, staged := [], stagedNext := false, late := [], waits := false, pins := [], ringRows := false, laneFault := false,
    matchTimeout := false, sigSuspect := false, logOverflow := false, capGap := false, capTrunc := false, failedOrds := [] }

/-! ## Slices and lanes -/

/-- What a lane-side output carries (R180, R193); `stimulus` is the moving pattern of the deskew, routine or diagnostic that drives it (R59, R188, R196). -/
inductive LaneLevel where
  | highZ | mid | low | high | stimulus
deriving DecidableEq, Repr

/-- The compare-class symbols (R136) as expectation: L, H, M, V. -/
inductive Expect where
  | low | high | mid | valid
deriving DecidableEq, Repr

/-- The cycle counts of a thread's port on one slice (R24, R25). -/
structure CycleCounts where
  issued : Nat
  executed : Nat
  flushed : Nat
deriving DecidableEq, Repr

/-- What a slice holds besides its objects: per thread the next span number expected and early spans (R97), free span credits, span and FIFO shares (R98), cycle counts (R25), a pending drift
correction (R176), parked (R370), placed in DIAGNOSE by the device mode (R65), LBK line (R184), PLL lock (R67), margin errors of the present interval (R191). -/
structure SliceSt where
  expect : List (Nat × Nat)
  held : List (Nat × Nat)
  spanFree : List (Nat × Nat)
  share : List (Nat × Nat)
  owed : List (Nat × Nat)
  fifoShare : List (Nat × Nat)
  counts : List (Nat × CycleCounts)
  drift : Option Int
  lagHigh : Bool
  parked : Bool
  diagPlaced : Bool
  lbk : LaneLevel
  pllLocked : Bool
  margins : List (Nat × Nat)
deriving DecidableEq, Repr

/-- A slice at rest. -/
def SliceSt.rest : SliceSt :=
  { expect := [], held := [], spanFree := [], share := [], owed := [], fifoShare := [], counts := [], drift := none, lagHigh := false, parked := false, diagPlaced := false, lbk := .highZ, pllLocked := true, margins := [] }

/-! ## DDR5 (spec/13) -/

/-- A write-queue entry: burst (device address ÷ 64) and byte enables (R282). -/
structure QEntry where
  burst : Nat
  mask : Nat
deriving DecidableEq, Repr

/-- An activate-count entry (R290). -/
structure ActEntry where
  rank : Nat
  bank : Nat
  row : Nat
  count : Nat
deriving DecidableEq, Repr

/-- What one sub-channel holds besides its objects. -/
structure SubchSt where
  queue : List QEntry
  acts : List ActEntry
  postponed : List (Nat × Nat)
  sweeps : List (Nat × Bool × Nat × Nat)
  hotRanks : List Nat
deriving DecidableEq, Repr

/-- A sub-channel at rest. -/
def SubchSt.rest : SubchSt := { queue := [], acts := [], postponed := [], sweeps := [], hotRanks := [] }

/-! ## DMA (spec/15) -/

/-- A descriptor fetched and not yet closed, with its ring index; `abort` is the code it closes with where a sub-channel was removed or its region locked while it was
open (R147, R296), 0 if neither; `moved` is how many of its bytes have moved so far. -/
structure OpenDesc where
  desc : Descriptor
  index : Nat
  abort : Nat
  moved : Nat
deriving DecidableEq, Repr

/-- A DMA channel block (R333). STATE: 0 STOPPED, 1 RUNNING, 2 STOPPING, 3 HALTED. -/
structure DmaChan where
  descBase : Nat
  cplBase : Nat
  ringLog2 : Nat
  haltOnErr : Bool
  producer : BitVec 32
  consumer : BitVec 32
  done : BitVec 32
  state : Nat
  doorbellErr : Bool
  cfgErr : Bool
  reqBytes : Nat
  doneBytes : Nat
  abortBytes : Nat
  opens : List OpenDesc
  waiting : List Descriptor
deriving DecidableEq, Repr

/-- A channel block at its defaults (R333). -/
def DmaChan.rest : DmaChan :=
  { descBase := 0, cplBase := 0, ringLog2 := 8, haltOnErr := false, producer := 0, consumer := 0, done := 0, state := 0, doorbellErr := false, cfgErr := false,
    reqBytes := 0, doneBytes := 0, abortBytes := 0, opens := [], waiting := [] }

/-! ## Dictionary access (spec/02) -/

/-- An open session (R48, R49): `cached` and `cachedCounter` are the response to `lastBatch` and its counter. -/
structure Session where
  id : Nat
  overMailbox : Bool
  slot : Nat
  clientNonce : Word
  deviceNonce : Word
  confirmed : Bool
  lastCounter : Nat
  lastBatch : Option Batch
  cached : List Message
  cachedCounter : Nat
  sendCounter : Nat
deriving DecidableEq, Repr

/-- A subscription (R56): destination, key, interval in µs, changes since the last notification, the value reported last (at first the one answered), the raw count of the
last notification. -/
structure Subscription where
  dest : Path
  key : Nat
  interval : Nat
  changes : Nat
  last : Word
  sent : Option Nat
deriving DecidableEq, Repr

/-- A latched second half of a record object on one path (R377). -/
structure Latch where
  path : Path
  obj : Nat
  value : Word
deriving DecidableEq, Repr

/-! ## Ring (spec/10) -/

/-- The Creder ring as one device holds it: credits, pending and travelling flits of its own, the flits it holds by source and number with their DUE (R228), flits held until
DUE, contributions (R235), and of a formation the hops with their counts, RING_LAT, whether the ring is folded (R241); `breaking` is the position upstream of a broken link
that the device reports in its slots, `starters` the originators of START_REQs that passed (R233), `pubDue` and `pubBefore` the DUE of its last publication and its
contribution before that. -/
structure Ring where
  creditCtrl : Nat
  creditCond : Nat
  creditToken : Nat
  creditTrig : Nat
  pendingFlits : List Flit
  inFlight : List Flit
  seen : List (Nat × Nat)
  due : List Flit
  contributions : List (Nat × BitVec 16)
  ownContribution : BitVec 16
  nextSeq : Nat
  startFlight : Bool
  startSlot : Option Nat
  launchDue : Option Nat
  acqPending : Bool
  hops : List (Nat × Nat × Nat)
  quietLost : Bool
  lat : Nat
  folded : Bool
  breaking : Option Nat
  starters : List Nat
  pubDue : Nat
  pubBefore : BitVec 16
deriving DecidableEq, Repr

/-- A ring with every credit at home (R230). -/
def Ring.rest : Ring :=
  { creditCtrl := 4, creditCond := 8, creditToken := 8, creditTrig := 8, pendingFlits := [], inFlight := [], seen := [], due := [], contributions := [],
    ownContribution := 0, nextSeq := 0, startFlight := false, startSlot := none, launchDue := none, acqPending := false, hops := [], quietLost := false,
    lat := 0, folded := false, breaking := none, starters := [], pubDue := 0, pubBefore := 0 }

/-! ## Units (spec/11, spec/14) -/

/-- A TIU's measurement in progress (R248-R250): arm tick, start tick, edges counted. -/
structure TiuRun where
  armTick : Nat
  start : Option Nat
  count : Nat
deriving DecidableEq, Repr

/-- A min/max pair (R255, R260). -/
structure Pair where
  lo : Int
  hi : Int
deriving DecidableEq, Repr

/-- A completed acquisition record (R260). -/
structure AcqRecord where
  seq : Nat
  firedBy : Nat
  source : Nat
  preShort : Bool
  forced : Bool
  line : Bool
  sat : Bool
  trunc : Bool
  ecc : Bool
  intervalM1 : Nat
  prePairs : Nat
  trigOffset : Nat
  fireTime : Nat
  firstTime : Nat
  sampleNs : Nat
  pairs : List Pair
deriving DecidableEq, Repr

/-- An acquisition unit's reduction and record in progress (R255-R259), with the tick of its arm and whether its memory met an uncorrectable error, and the samples offered to it and not yet evaluated (value, time, saturated; R254). -/
structure AcqSt where
  part : Option Pair
  partCount : Nat
  pairs : List Pair
  pairsDropped : Nat
  pairTimes : List Nat
  curTime : Nat
  primed : Bool
  prev : Option Int
  fired : Option (Nat × Nat)
  firedForced : Bool
  firedLine : Bool
  sat : Bool
  trigPair : Option Nat
  trigOffset : Nat
  cancelRearm : Bool
  records : List AcqRecord
  nextSeq : Nat
  groupFire : Option (Nat × Nat)
  armTick : Nat
  ecc : Bool
  offers : List (Int × Nat × Bool)
deriving DecidableEq, Repr

/-- An acquisition unit after BOOT. -/
def AcqSt.rest : AcqSt :=
  { part := none, partCount := 0, pairs := [], pairsDropped := 0, pairTimes := [], curTime := 0, primed := false, prev := none, fired := none, firedForced := false,
    firedLine := false, sat := false, trigPair := none, trigOffset := 0, cancelRearm := false, records := [], nextSeq := 0, groupFire := none, armTick := 0, ecc := false, offers := [] }

/-- Corrected MAC timestamps (R314, R315), in 2^-16 ns: origin and arrival of the last Sync, departure of the device's last Delay_Req or Pdelay_Req, arrival of a peer's last
Pdelay_Req. -/
structure PtpTimes where
  sync : Option (Int × Rat)
  sent : Option Rat
  asked : Option Rat
deriving DecidableEq, Repr

/-- A scheduled slot's kept full time (2^-16 ns) and its launch instant in slice ticks of the raw count (R318). -/
structure SlotSt where
  fullTime : Int
  instant : Nat
deriving DecidableEq, Repr

/-! ## Badger (spec/16) -/

/-- The routine in the routine context (R346-R353): the slices it owns, the DACs it tests or drives, those that it tests; of those it drives, the source and code they held
before it, and which of its three codes they carry (R358). -/
structure Routine where
  slot : Nat
  code : Nat
  slices : List Nat
  dacs : List Nat
  tested : List Nat
  postCommit : Bool
  failPath : Bool
  held : List (Nat × Nat × Word)
  point : Nat
deriving DecidableEq, Repr

/-! ## Lichen (spec/18) -/

/-- How a copy reads (R396). -/
inductive CopyClass where
  | empty | valid | incomplete
deriving DecidableEq, Repr

/-- A paired record: dictionary bank or guard copy (R395, R397): class, SEQ, body entries. -/
structure Copy where
  cls : CopyClass
  seq : Nat
  entries : List (Nat × Word)
deriving DecidableEq, Repr

/-- A boot selector copy (R392, R413). -/
structure SelCopy where
  cls : CopyClass
  seq : Nat
  slot : Nat
deriving DecidableEq, Repr

/-- The counters of the ledger image that have no key (R404). -/
structure Ledger where
  boots : Nat
  persists : Nat
  guardCommits : Nat
  safeEntries : Nat
  machineChecks : Nat
  powerFails : Nat
  fwFallbacks : Nat
  bursts : Nat
  bbRecords : Nat
  tjMax : Int
deriving DecidableEq, Repr

/-- The ledger as manufactured. -/
def Ledger.new : Ledger :=
  { boots := 0, persists := 0, guardCommits := 0, safeEntries := 0, machineChecks := 0, powerFails := 0, fwFallbacks := 0, bursts := 0, bbRecords := 0, tjMax := 0 }

/-- A black-box record (R401, R402). -/
structure BBRecord where
  seq : Nat
  typ : Nat
  mode : Nat
  rawTime : Nat
  shortTime : Nat
  bootCount : Nat
  burstNumber : Nat
  audit : Word
  firstFault1 : Word
  firstFault2 : Word
  payload : List Word
deriving DecidableEq, Repr

/-- A ledger snapshot copy: class, SEQ, POWER_ON_SECONDS, TEMP_BIN values, BANK_RECOVERIES, the other counters (R404, R405). -/
structure LedCopy where
  cls : CopyClass
  seq : Nat
  seconds : Nat
  bins : List Word
  recoveries : Nat
  rest : Ledger
deriving DecidableEq, Repr

/-- The non-volatile array and the write in progress: the copies of every paired record, the black box, the images being written, whether PWRFAIL_N has closed the array
(R403), the ledger images of POWER_FAIL and QUIESCE records with their RECORD_SEQ (R405), a snapshot that waits for another write (R400), erases per copy (guard 0 and 1,
selector 0 and 1, ledger 0 and 1, bank A and B), the factory pages found bad (R394), the RECORD_SEQ of torn slots of the black box (R401). -/
structure Nvm where
  bankA : Copy
  bankB : Copy
  guard0 : Copy
  guard1 : Copy
  sel0 : SelCopy
  sel1 : SelCopy
  led0 : LedCopy
  led1 : LedCopy
  blackBox : List BBRecord
  persistImage : Option (List (Nat × Word))
  guardImage : Option (List (Nat × Word))
  closed : Bool
  flushRecords : List LedCopy
  snapshotDue : Bool
  erases : List Nat
  factoryBad : List Nat
  tornSlots : List Nat
deriving DecidableEq, Repr

/-- Lichen as it leaves manufacture: no dictionary bank written, a guard record holding the shipped envelope, boot selector naming slot 0 (DESIGN CHOICE, log entry 9). -/
def Nvm.shipped : Nvm :=
  { bankA := ⟨.empty, 0, []⟩, bankB := ⟨.empty, 0, []⟩, guard0 := ⟨.valid, 1, []⟩, guard1 := ⟨.empty, 0, []⟩, sel0 := ⟨.valid, 1, 0⟩, sel1 := ⟨.empty, 0, 0⟩,
    led0 := ⟨.empty, 0, 0, [], 0, Ledger.new⟩, led1 := ⟨.empty, 0, 0, [], 0, Ledger.new⟩, blackBox := [], persistImage := none, guardImage := none, closed := false,
    flushRecords := [], snapshotDue := false, erases := List.replicate 8 0, factoryBad := [], tornSlots := [] }

/-- The watch on a recorded raise (R379): its history index, whether it is the first-fault record, whether its cause element or its entry was read. -/
structure Watch where
  source : Nat
  q : Nat
  first : Bool
  read : Bool
deriving DecidableEq, Repr

/-! ## Burst and capture (spec/01, spec/09) -/

/-- A result record waiting for its ring place (R220): its 512 bits without PHASE and RECORD_SEQ (R218). -/
abbrev RecordWait := Nat

/-- A full-capture frame being formed (R212): port object, thread, first cycle, and per cycle the codes by channel index and whether it was masked. -/
structure CapFrame where
  port : Nat
  thread : Nat
  first : Nat
  rows : List (List Nat × Bool)
deriving DecidableEq, Repr

/-- What waits at a slice for its crossing to the core (R207): fail events, bits of capture data, which class the next item takes where both wait, the core cycle up to
which items have moved. -/
structure JudgeBuf where
  events : Nat
  bits : Nat
  turn : Bool
  upTo : Nat
deriving DecidableEq, Repr

/-- A fail-log entry in staging (R209): site, thread, set bits, and the entry. -/
structure Staged where
  site : Nat
  thread : Nat
  bits : Nat
  entry : Nat
deriving DecidableEq, Repr

/-- What the burst control and the capture engine hold in a burst; `judge` per slice, `staging` oldest first, spilled up to the port time `spillTo` with `spillGain` gained
toward the next entry, `admitted` per site (R209); `early` are the threads stopped before the launch, with their reasons, `previous` the threads of the burst
before (R436), `quick` that every drain condition held at burst end (R26), `chanFails` the 48-bit fail totals (R205). -/
structure Burst where
  running : Bool
  launchTick : Nat
  launched : Bool
  threads : List Nat
  records : List RecordWait
  stopping : List Nat
  early : List (Nat × Nat)
  capSeq : Nat
  capFull : Bool
  capBuf : List CapFrame
  firstFailTu : List (Nat × Nat)
  maskTu : List (Nat × Nat)
  failTotals : List (Nat × Nat)
  chanFails : List (Nat × Nat)
  judge : List (Nat × JudgeBuf)
  staging : List Staged
  spillTo : Nat
  spillGain : Nat
  admitted : List (Nat × Nat)
  previous : List Nat
  quick : Bool
  rateMark : List (Nat × Nat)
deriving DecidableEq, Repr

/-- No burst. -/
def Burst.none : Burst :=
  { running := false, launchTick := 0, launched := false, threads := [], records := [], stopping := [], early := [], capSeq := 0, capFull := false,
    capBuf := [], firstFailTu := [], maskTu := [], failTotals := [], chanFails := [], judge := [], staging := [], spillTo := 0, spillGain := 0, admitted := [], previous := [], quick := false, rateMark := [] }

/-- The boundary-scan TAP (R428): whether EXTEST is in force and IDCODE selected, and what the boundary cells of the T-lanes hold. -/
structure Tap where
  extest : Bool
  idcode : Bool
  cells : List (Nat × LaneLevel)
deriving DecidableEq, Repr

/-- The TAP in Test-Logic-Reset. -/
def Tap.rest : Tap := { extest := false, idcode := true, cells := [] }

/-- A strobe that a cycle of a diagnostic loop places on a channel (R196, R197), with its mask. -/
structure LoopStrobe where
  chan : Nat
  expect : Expect
  win : Bool
  masked : Bool
deriving DecidableEq, Repr

/-- A diagnostic run (R195-R199): target slices, channels, whether LBK is raised, points, entries expected, start raw count. -/
structure DiagRun where
  kind : Nat
  slices : List Nat
  channels : List Nat
  lbk : Bool
  dacs : List Nat
  shmooDac : Option (Nat × Word)
  points : Nat
  loopTu : Nat
  startRaw : Nat
  cycles : List (List LoopStrobe)
  code : Nat
deriving DecidableEq, Repr

/-! ## Outputs -/

/-- What the block emits: the only thing the outside sees of a command beside the state. -/
inductive Output where
  /-- an MSI-X message on a vector (R343) -/
  | msix (vector : Nat)
  /-- a posted write into host memory (records, completions, event entries, DMA data) -/
  | hostWrite (addr : Nat) (data : List Byte)
  /-- a dictionary-protocol datagram: session, counter, messages and, where it is authenticated, tag (R46, R56) -/
  | ethBatch (session : Nat) (counter : Nat) (msgs : List Message) (tag : List Byte)
  /-- an answer to an Ethernet frame (R313) -/
  | ethReply (kind : Nat)
  /-- a PTP event frame, one-step or two-step (R316), with its egress time, of a Pdelay_Resp its turnaround, in 2^-16 ns; the transport,
  0 Ethernet, 1 UDP on IPv4, 2 UDP on IPv6, says what an inserted stamp makes of the UDP checksum: on IPv4 it is 0, on IPv6 two octets appended keep it valid (R316) -/
  | ptpFrame (kind : Nat) (oneStep : Bool) (stamp : Rat) (transport : Nat)
  /-- a BAR2 or DDR5 read answer, poisoned or not (R339) -/
  | readData (data : List Byte) (poisoned : Bool)
  /-- a flit in a slot that leaves on the transmit lanes of port A or port B (R226, R229), with the 34-bit blocks of lanes 0-3 -/
  | flit (portB : Bool) (f : Flit) (blocks : List Nat)
  /-- what a TRIGOUT carries from here on (R244): a level, or `none` for high-impedance -/
  | trigout (n : Nat) (level : Option Bool)
  /-- pulses on FSYNCOUT (R223, R224) -/
  | fsyncOut (pulses : Nat)
  /-- a PTM Request (R317) -/
  | ptmRequest
  /-- a refresh, RFM or neighbour refresh issued (R287, R291) -/
  | refresh (subch rank : Nat)
  | rfm (subch bank : Nat)
  | neighbour (subch rank bank row : Nat)
  /-- a T-lane event: channel, port time in tu, grid index (R158), the grid step after the slice start of cycle 0 at which it leaves the ball (R186), level (R166, R167) -/
  | lane (g tu grid : Nat) (place : Int) (l : LaneLevel)
  /-- a strobe samples an S-lane, or a window opens or closes: channel, port time in tu, grid index, grid step after the slice start of cycle 0 (R186) -/
  | sample (g tu grid : Nat) (place : Int)
deriving DecidableEq, Repr

/-! ## The state -/

/-- The KR1024. -/
structure State where
  /-- commands waiting, first in first out -/
  pending : List Instr
  /-- every dictionary object (R32-R40): sparse, an unlisted key reads as its default -/
  objs : List (Nat × Word)
  /-- the responses written since the last batch began (R45) -/
  answers : List Message
  /-- the bytes of the mailbox response area and the doorbell's DONE bit (R53, R330) -/
  mailbox : List Byte
  mailboxDone : Bool
  sessions : List Session
  subs : List Subscription
  latches : List Latch
  hotJump : Nat
  /-- the values HOST_FLAGS held before, newest first, each with the epoch time in slice ticks at which it ended (R114) -/
  flagsPast : List (Nat × Word)
  /-- the PCI Express link is in L0 (R341) -/
  pcieUp : Bool
  msixMasked : List Nat
  msixPending : List Nat
  dma : List (Nat × DmaChan)
  threads : List (Nat × Thread)
  /-- the threads each Fox core ran most recently, newest first (R90) -/
  caches : List (Nat × List Nat)
  /-- tokens on their way: receiver, sender, event time (R125) -/
  tokens : List (Nat × Nat × Nat)
  slices : List (Nat × SliceSt)
  laneBase : LaneLevel
  lanes : List (Nat × LaneLevel)
  /-- level changes of UNTRAINED lanes with the epoch time of each (R386), and the channels at which a change was suppressed and FS013 is due -/
  lanePast : List (Nat × Nat)
  guardHits : List Nat
  cells : List Host.Cell
  poison : List Nat
  waitingWrites : List (Nat × List Byte)
  checkedPages : List Nat
  /-- the patrol scrub (R300): the next burst of the pass, and what it has gained toward that burst, in bursts times raw ticks -/
  scrubNext : Nat
  scrubGain : Nat
  /-- the map was rebuilt under R296 since the last ARM: burst starts are refused with DISABLED -/
  mapChanged : Bool
  subchs : List (Nat × SubchSt)
  ring : Ring
  fernAligned : Option Nat
  /-- FERN_ALIGN awaits the pulse (step 4 of R223) -/
  fernAwait : Bool
  frefPresent : Bool
  /-- FREQ of the servo, in units of 2^-40 (R309), and the consecutive updates within 100 ns (R312) -/
  clockFreq : Rat
  clockGood : Nat
  /-- a PTM dialogue that PTM_INTERVAL started awaits its ResponseD (R317) -/
  ptmAuto : Bool
  /-- the PTP times a delay is formed from (R314) -/
  ptp : PtpTimes
  slots : List (Nat × SlotSt)
  tius : List (Nat × TiuRun)
  adcLeft : List (Nat × Nat)
  acqs : List (Nat × AcqSt)
  trigoutActive : List Nat
  /-- the TRIGOUTs are high-impedance (R244) -/
  trigoutHighZ : Bool
  /-- the TRIGIN balls that are high (R243) -/
  triginHigh : List Nat
  /-- per load group, the modulator edge of its latest load (epoch time in slice ticks, plus one; R267) -/
  loadEdges : List (Nat × Nat)
  /-- the request slots PENDING or RUNNING, in the order of the queue (R361, R363) -/
  badgerQueue : List Nat
  /-- a routine has committed in the present CALIBRATE (R62) -/
  calRan : Bool
  routine : Option Routine
  watch : List Watch
  histRead : List Nat
  liveLocs : List (Nat × Loc)
  recoveries : List Nat
  injection : Option (Nat × Bool × Bool)
  faultWindow : Bool
  faultIrqHeld : Bool
  recordIrqHeld : Bool
  machineCheck : Bool
  /-- the raw count at the firmware's last watchdog kick (R388) -/
  wdogKick : Nat
  entering : Option Nat
  guardStaged : List (Nat × Word)
  nvm : Nvm
  ledger : Ledger
  /-- the seconds since BOOT began, from which the buckets of R406 refill -/
  bootSeconds : Nat
  retainMode : Nat
  retainBurst : Nat
  retained : Bool
  resetSeen : List Nat
  resetRails : Nat
  resetPending : Bool
  burst : Burst
  diag : Option DiagRun
  diagBytes : List Byte
  fwSlotImage : List Byte
  tap : Tap
  /-- the hottest die sensor at its last sample (1/128 °C) -/
  dieTemp : Int
  /-- raw counts of the failed tags of the last second, the newest 17 (FS030) -/
  authTimes : List Nat
  /-- load strobes whose modulator edge is still to come (R267), each with that edge; `none` is the end of DAC_LOAD -/
  loadsDue : List (Nat × Option Nat)
  freeCount : Nat
  out : List Output
deriving DecidableEq, Repr

/-- The reasons the model itself stops on a command. -/
inductive Fault where
  /-- The command names a unit that the device does not have (a thread above 3071, a channel above 1023, ...): raised by no command of a well-formed queue. Safe: it
  only stops the model. -/
  | noSuchUnit
deriving DecidableEq, Repr

/-- The reasons the model has no meaning for a command. -/
inductive Refusal where
  /-- A row of the table that has no meaning yet. Safe: it only stops the model. -/
  | notModelled (mnemonic : String)
deriving DecidableEq, Repr

/-- The machine right after reset, in RESET with every object at its default (R40, R59): DEVICE_MODE reads 0 in RESET (its table default 0x01 is the value that reads
from the start of BOOT, R61; log entry 11). What the spec gives no reset value is DESIGN CHOICE (log entries 4, 5, 8, 9, 10, 12). -/
def State.reset : State :=
  { pending := [], objs := [(Key.deviceMode, 0)], answers := [], mailbox := [], mailboxDone := true, sessions := [], subs := [], latches := [],
    hotJump := 0xFFF, flagsPast := [], pcieUp := false, msixMasked := [], msixPending := [], dma := [], threads := [], caches := [], tokens := [], slices := [], laneBase := .highZ, lanes := [], lanePast := [], guardHits := [], cells := [], poison := [],
    waitingWrites := [], checkedPages := [], scrubNext := 0, scrubGain := 0, mapChanged := false, subchs := [], ring := Ring.rest, fernAligned := none, fernAwait := false, frefPresent := true, clockFreq := 0, clockGood := 0, ptmAuto := false, ptp := ⟨none, none, none⟩,
    slots := [], tius := [], adcLeft := [], acqs := [], trigoutActive := [], trigoutHighZ := true, triginHigh := [], loadEdges := [], badgerQueue := [], calRan := false, routine := none, watch := [], histRead := [], liveLocs := [], recoveries := [],
    injection := none, faultWindow := false, faultIrqHeld := false, recordIrqHeld := false, machineCheck := false, wdogKick := 0, entering := none, guardStaged := [], nvm := Nvm.shipped, ledger := Ledger.new, bootSeconds := 0,
    retainMode := 0, retainBurst := 0, retained := false, resetSeen := [0], resetRails := 0, resetPending := false, burst := Burst.none, diag := none, diagBytes := [],
    fwSlotImage := [], tap := Tap.rest, dieTemp := 0, authTimes := [], loadsDue := [], freeCount := 0, out := [] }

end Sys2Proof.Machine
end

