-- ==== Sys2Proof/Machine/Store.lean ====
section
/-! DEFINITION. The accessors of the state: dictionary objects, thread contexts, slices, units. Every read and write of the model goes through them. -/

namespace Sys2Proof.Machine

/-- The working value of an object. -/
def State.get (s : State) (k : Nat) : Word := mget (shipped k) s.objs k

/-- A field of an object. -/
def State.getF (s : State) (k lo len : Nat) : Nat := field (s.get k) lo len

/-- A subscription notes a change of its object (R56). -/
def noteChange (k : Nat) (subs : List Subscription) : List Subscription :=
  subs.map (fun x => if x.key = k then { x with changes := x.changes + 1 } else x)

/-- `s` with object `k` at `v`; subscriptions of a changed object note the change. -/
def State.put (s : State) (k : Nat) (v : Word) : State :=
  { s with objs := mset (shipped k) s.objs k v, subs := if s.get k = v then s.subs else noteChange k s.subs }

/-- `s` with a field of object `k` set. -/
def State.putF (s : State) (k lo len v : Nat) : State := s.put k (setField (s.get k) lo len v)

/-- A thread's context. -/
def State.thread (s : State) (n : Nat) : Thread := mget Thread.idle s.threads n

/-- A slice's state. -/
def State.slice (s : State) (n : Nat) : SliceSt := mget SliceSt.rest s.slices n

/-- `s` with thread `n` at `t`. -/
def State.putThread (s : State) (n : Nat) (t : Thread) : State := { s with threads := mset Thread.idle s.threads n t }

/-- `s` with slice `n` at `t`. -/
def State.putSlice (s : State) (n : Nat) (t : SliceSt) : State := { s with slices := mset SliceSt.rest s.slices n t }

end Sys2Proof.Machine
end

