-- ==== Sys2Proof/Machine/Flags.lean ====
section
/-! DEFINITION. The status words and flag fields of the block: command status (R39), device mode (R59), thread state (R75), audit status (R31), error recorders
(R54, R339), site status (R206), load status (R82). -/

namespace Sys2Proof.Machine

/-- The present mode (R59). -/
def State.mode (s : State) : Nat := (s.get Key.deviceMode).toNat

/-- A command status word (R39). -/
def statusWord (st : Nat) (c : Code) (detail : Nat) : Word :=
  setField (setField (setField 0 0 3 st) 8 6 c.toNat) 16 16 detail

/-- STATE of command `k`. -/
def State.cmdState (s : State) (k : Nat) : Nat := s.getF k 0 3

/-- Command `k` is PENDING or RUNNING (R36). -/
def State.cmdBusy (s : State) (k : Nat) : Bool := s.cmdState k == Cmd.pending || s.cmdState k == Cmd.running

/-- Command `k` reads RUNNING. -/
def State.cmdRun (s : State) (k detail : Nat) : State := s.put k (statusWord Cmd.running .ok detail)

/-- Command `k` reads PENDING. -/
def State.cmdPend (s : State) (k detail : Nat) : State := s.put k (statusWord Cmd.pending .ok detail)

/-- Command `k` reads DONE. -/
def State.cmdDone (s : State) (k detail : Nat) : State := s.put k (statusWord Cmd.done .ok detail)

/-- Command `k` reads FAILED with a code. -/
def State.cmdFail (s : State) (k : Nat) (c : Code) (detail : Nat) : State := s.put k (statusWord Cmd.failed c detail)

/-- A mode change is in progress (R61, R64). -/
def State.modeChanging (s : State) : Bool := s.cmdBusy Key.modeRequest || s.entering.isSome

/-- An error recorder of R54's layout takes one more refused write: the first one's code, MORE from the second on, COUNT saturating. -/
def recordRefusal (w : Word) (c : Nat) : Word :=
  if bit w 6 then setField (setBit w 7 true) 8 16 (satTo 0xFFFF (field w 8 16 + 1))
  else setField (setField (setBit (setField w 0 6 c) 6 true) 7 1 0) 8 16 1

/-- Writing one to VALID clears VALID, MORE and COUNT (R54). CODE is left as it was: it is meaningless while VALID is 0. -/
def clearRefusals (w : Word) : Word := setField (setField (setBit w 6 false) 7 1 0) 8 16 0

/-- STATE of a thread (R75). -/
def State.threadSt (s : State) (th : Nat) : Nat := s.getF (Key.threadState th) 0 4

/-- `s` with a thread's STATE. -/
def State.setThreadSt (s : State) (th st : Nat) : State := s.putF (Key.threadState th) 0 4 st

/-- A thread at rest: DORMANT, DONE or FAULTED (R90, R217). -/
def State.atRest (s : State) (th : Nat) : Bool :=
  s.threadSt th == Th.dormant || s.threadSt th == Th.done || s.threadSt th == Th.faulted

/-- A thread that has reached DONE or FAULTED. -/
def State.ended (s : State) (th : Nat) : Bool := s.threadSt th == Th.done || s.threadSt th == Th.faulted

/-- The thread word of a thread that ends with a reason: DONE for HALT and HOST_STOP, else FAULTED; INCOMPLETE for every reason but HALT (R75). -/
def endWord (w : Word) (reason : Nat) : Word :=
  setField (setField (setField w 0 4 (if reason = Stop.halt ∨ reason = Stop.hostStop then Th.done else Th.faulted)) 8 8 reason) 16 1
    (if reason = Stop.halt then 0 else 1)

/-- STATE of AUDIT_STATUS (R31). -/
def State.auditSt (s : State) : Nat := s.getF Key.auditStatus 0 3

/-- Bit `i` of element-per-64 object array `key` (SITE_FAIL_MAP, SITE_ENABLE, DRIVE_PERMIT, JUDGE_MASK ...). -/
def State.mapBit (s : State) (key : Nat → Nat) (i : Nat) : Bool := bit (s.get (key (i / 64))) (i % 64)

/-- `s` with bit `i` of such an array set. -/
def State.setMapBit (s : State) (key : Nat → Nat) (i : Nat) : State :=
  s.put (key (i / 64)) (setBit (s.get (key (i / 64))) (i % 64) true)

/-- A site fails (R206): the given SITE_STATUS bit, FAIL and SITE_FAIL_MAP. -/
def State.siteFails (s : State) (site b : Nat) : State :=
  let s := s.putF (Key.siteStatus site) b 1 1
  let s := s.putF (Key.siteStatus site) 1 1 1
  s.setMapBit Key.siteFailMap site

/-- LOAD_STATUS becomes STALE when configuration or rows change after a pass (R82). -/
def State.stale (s : State) : State := if s.getF Key.loadStatus 0 3 = 2 then s.putF Key.loadStatus 0 3 4 else s

/-- A counter object one higher, wrapping at its width. -/
def State.count (s : State) (k bits : Nat) : State := s.put k (toWord (((s.get k).toNat + 1) % 2 ^ bits))

/-- A counter object `n` higher, wrapping at its width. -/
def State.countBy (s : State) (k bits n : Nat) : State := s.put k (toWord (((s.get k).toNat + n) % 2 ^ bits))

/-- A saturating counter object `n` higher. -/
def State.countSat (s : State) (k bits n : Nat) : State := s.put k (toWord (satTo (2 ^ bits - 1) ((s.get k).toNat + n)))

end Sys2Proof.Machine
end

