-- ==== Sys2Proof/Machine/Ops.lean ====
section
/-! DEFINITION. The named operations of the block over its state: what it emits, interrupts (R343), DDR5 as a byte store (R281, R284), regions (R146), ports and
threads (R83-R89), time (R305-R308), the black box (R401), answers to a path (R36, R44, R54). -/

namespace Sys2Proof.Machine

/-! ## Outcomes and outputs -/

/-- What a command answers with. -/
abbrev Out := Host.Outcome State Fault Refusal

/-- A command on unit `n` of `count`: the next state where the device has that unit, else the model's own stop. -/
def within (n count : Nat) (t : State) : Out := if n < count then .next t else .fault .noSuchUnit

/-- `s` with one more output. -/
def State.emit (s : State) (o : Output) : State := { s with out := s.out ++ [o] }

/-- The fields of a record, each as lowest bit, width and value, as one number (bit 0 the least significant). -/
def packFields : List (Nat × Nat × Nat) → Nat
  | [] => 0
  | (lo, len, v) :: r => (v % 2 ^ len) * 2 ^ lo + packFields r

/-- The next value the spec leaves open, and the state with the counter advanced. -/
def State.free (s : State) : Word × State := (Config.freeWord s.freeCount, { s with freeCount := s.freeCount + 1 })

/-- The next choice the spec leaves open. -/
def State.freeChoice (s : State) : Bool × State := (Config.freeBool s.freeCount, { s with freeCount := s.freeCount + 1 })

/-! ## Interrupts (R343) -/

/-- A vector is signalled: a masked one sets its pending bit, 0xFFFF is never signalled. -/
def State.signal (s : State) (v : Nat) : State :=
  if v = 0xFFFF then s
  else if s.msixMasked.contains v then (if s.msixPending.contains v then s else { s with msixPending := s.msixPending ++ [v] })
  else s.emit (.msix v)

/-- Interrupt source of IRQ_ROUTE element `e` signals its vector. -/
def State.irq (s : State) (e : Nat) : State := s.signal (s.get (mkKey 0x12 0x0100 e)).toNat

/-- The FAULT interrupt (R380): at most one message per 10 µs; one that falls in the window is held for its end (INTERRUPT_COALESCING). -/
def State.faultIrq (s : State) : State :=
  if s.faultWindow then { s with faultIrqHeld := true } else { s.irq Irq.fault with faultWindow := true }

/-! ## TRIGOUT levels (R244) -/

/-- What a TRIGOUT carries: high-impedance, or the active or inactive level by INVERT. -/
def State.trigoutLevel (s : State) (n : Nat) : Option Bool :=
  if s.trigoutHighZ then none else some (s.trigoutActive.contains n != bit (s.get (Key.trigoutCfg n)) 16)

/-- A TRIGOUT shows its level. -/
def State.showTrigout (s : State) (n : Nat) : State := s.emit (.trigout n (s.trigoutLevel n))

/-- Every active TRIGOUT goes inactive (R244, R371). -/
def State.stopTrigouts (s : State) : State := s.trigoutActive.foldl (fun t n => t.showTrigout n) { s with trigoutActive := [] }

/-- Every TRIGOUT is high-impedance (R244). -/
def State.floatTrigouts (s : State) : State := (List.range 16).foldl (fun t n => t.showTrigout n) { s with trigoutActive := [], trigoutHighZ := true }

/-- The TRIGOUTs that were high-impedance take their inactive level as BOOT ends (R244). -/
def State.driveTrigouts (s : State) : State :=
  if s.trigoutHighZ then (List.range 16).foldl (fun t n => t.showTrigout n) { s with trigoutHighZ := false } else s

/-! ## Time (R305-R308) -/

/-- The raw count. -/
def State.raw (s : State) : Nat := (s.get Key.rawCount).toNat

/-- Nanoseconds in 2^-16 ns of one second. -/
def secUnits : Nat := 1000000000 * 65536

/-- Device time of raw count `r` in 2^-16 ns (R306); the product is truncated. -/
def State.timeAt (s : State) (r : Nat) : Int :=
  let tref : Int := (s.get Key.modelTRefSec).toInt * secUnits + (s.get Key.modelTRefSub).toNat
  let d : Int := (r : Int) - ((s.get Key.modelRRef).toNat : Nat)
  let rate : Int := (s.get Key.modelRate).toInt
  tref + Int.tdiv (d * 81920 * (2 ^ 40 + rate)) (2 ^ 40)

/-- Device time now. -/
def State.now (s : State) : Int := s.timeAt s.raw

/-- A short time (R308): device time modulo 65,536 s. -/
def shortTime (t : Int) : Nat := (t.emod (65536 * secUnits : Nat)).toNat

/-- `s` with another queue of waiting commands. -/
def State.withPending (s : State) (q : List Instr) : State := { s with pending := q }

/-- Raw ticks since the aligned FREF edge of epoch 0 (R305), modulo 8. -/
def epochPhase (raw raw0 : Nat) : Nat := (raw + 2 ^ 64 - raw0) % 8

/-- One period of the raw clock, 1.25 ns (R305): the raw count advances, and the epoch counter on every eighth, an aligned FREF edge (R222, R223); in RESET the counts stand. DESIGN CHOICE (log entry 130): R15 does not say whether the count goes on while FREF is absent; here it does. -/
def State.tick (s : State) : State :=
  if s.mode = Mode.reset then s
  else
    let r := (s.raw + 1) % 2 ^ 64
    let s := s.put Key.rawCount (toWord r)
    let r0 := (s.get Key.rawAtEpoch0).toNat
    if r0 < r ∧ epochPhase r r0 = 0 then s.put Key.epochCount (toWord (((s.get Key.epochCount).toNat + 1) % 2 ^ 48)) else s

/-- The present epoch time in slice ticks of 312.5 ps: 32 per FREF period, 4 per raw tick; 0 before the edge of epoch 0 (R225). -/
def State.nowTick (s : State) : Nat :=
  let r0 := (s.get Key.rawAtEpoch0).toNat
  32 * (s.get Key.epochCount).toNat + (if s.raw < r0 then 0 else 4 * epochPhase s.raw r0)

/-- The first service-logic edge (2.5 ns, 8 slice ticks) at or after an epoch time. -/
def edgeAfter (t : Nat) : Nat := 8 * ceilDiv t 8

/-- A stamp of 48 bits names a moment at or after another (R227, R251, R260): less than 2^47 ticks later. -/
def notBefore (time ref : Nat) : Bool := decide ((time + 2 ^ 48 - ref % 2 ^ 48) % 2 ^ 48 < 2 ^ 47)

/-- An acquisition unit's data. -/
def State.acq (s : State) (u : Nat) : AcqSt := mget AcqSt.rest s.acqs u

/-- `s` with an acquisition unit's data. -/
def State.putAcq (s : State) (u : Nat) (a : AcqSt) : State := { s with acqs := mset AcqSt.rest s.acqs u a }

/-- An uncorrectable error in a unit's acquisition memory (R259): its oldest unreleased record is flagged, or the one being filled. -/
def State.flagRecord (s : State) (u : Nat) : State :=
  let a := s.acq u
  s.putAcq u (match a.records with
    | x :: xs => { a with records := { x with ecc := true } :: xs }
    | [] => { a with ecc := true })

/-- RING_LAT in slice ticks; it is a multiple of 10 ns (R231). -/
def State.ringLatTicks (s : State) : Nat := (s.get Key.ringLat).toNat * 32 / 10

/-! ## Port time and slice time (R103) -/

/-- The slice pipeline of 18.75 ns in slice ticks (R103): cycle 0 is at the balls that long after the launch. -/
def pipeline : Nat := 60

/-- The epoch time of a port time in the present burst, rounded up to a slice tick (R103, R235). -/
def State.tickOf (s : State) (tu : Nat) : Nat := s.burst.launchTick + pipeline + ceilDiv tu 1250

/-- The port time, in tu, of an epoch time: what lies at the balls then (R103). -/
def State.portTime (s : State) (tick : Nat) : Int := ((tick : Int) - s.burst.launchTick - pipeline) * 1250

/-- The port time, in tu, of the cycle start that the slices begin now (R103). -/
def State.sliceNow (s : State) : Int := ((s.nowTick : Int) - s.burst.launchTick) * 1250

/-- The grid index of an event at `tu` (R158): round(8 × T ÷ 25). -/
def gridIndex (tu : Nat) : Nat := (16 * tu + 25) / 50

/-- Grid steps of a delay in fs, a whole number of them (R187). -/
def stepsOf (fs : Nat) : Nat := (4 * fs + 1562) / 3125

/-- Where a drive event of a channel leaves the T-lane ball (R186), in grid steps after the slice start of cycle 0: 18.75 ns less D_T after its slice time. -/
def State.launchPlace (s : State) (g tu : Nat) : Int := (400 * pipeline + gridIndex tu : Nat) - (stepsOf (s.get (Key.laneDt g)).toNat : Int)

/-- Where a strobe of a channel samples at the S-lane ball (R186): 18.75 ns plus D_S after its slice time. -/
def State.samplePlace (s : State) (g tu : Nat) : Int := (400 * pipeline + gridIndex tu + stepsOf (s.get (Key.laneDs g)).toNat : Nat)

/-- The value HOST_FLAGS held in the core at an instant given as a port time in tu (R114): the present one, or one that ended after it. -/
def State.flagsAt (s : State) (tu : Int) : Word := ((s.flagsPast.filter (fun x => decide (tu < s.portTime x.1))).getLast?.map Prod.snd).getD (s.get Key.hostFlags)

/-- Flits in the order of DUE, those of one DUE in their own order. -/
def insertDue (f : Flit) : List Flit → List Flit
  | [] => [f]
  | g :: r => if f.due < g.due then f :: g :: r else g :: insertDue f r

/-- The contributions to the ring conditions in force at an epoch time (R235): those in force now, and of the COND flits held for their DUE those whose DUE has then come. -/
def Ring.contributionsAt (r : Ring) (tick : Nat) : List (Nat × BitVec 16) :=
  ((r.due.filter (fun f => f.typ == 5 && decide (f.due ≤ tick))).foldl (fun acc f => insertDue f acc) []).foldl
    (fun acc f => (f.src, BitVec.setWidth 16 f.payload) :: acc.filter (fun x => x.1 != f.src)) r.contributions

/-- RC15-RC0 in force at an epoch time: the OR over the devices' contributions (R235). -/
def Ring.conditionsAt (r : Ring) (tick : Nat) : BitVec 16 := (r.contributionsAt tick).foldl (fun acc x => acc ||| x.2) 0

/-! ## Ports, sites, threads (R83-R89) -/

/-- The site and the port number of port object `o` = 16 × site + port. -/
def siteOf (o : Nat) : Nat := o / 16
def portOf (o : Nat) : Nat := o % 16

/-- The channels of a port in ascending global order; their position is the channel index (R83). -/
def State.channels (s : State) (o : Nat) : List Nat :=
  (List.range 16).flatMap (fun e => (bitsOf 64 (s.get (Key.channelMap o e)).toNat).map (fun i => 64 * e + i))

/-- The slices of a port (R83). -/
def State.portSliceList (s : State) (o : Nat) : List Nat := bitsOf 32 (s.get (Key.portSlices o)).toNat

/-- The ports bound to a thread (R88), ascending. -/
def State.boundPorts (s : State) (th : Nat) : List Nat :=
  s.objs.filterMap (fun kv =>
    if keyArea kv.1 = 0x20 ∧ 0x8000 ≤ keyObj kv.1 ∧ keyEl kv.1 = 1 ∧ field kv.2 0 12 = th ∧ bit kv.2 12 then some (keyObj kv.1 - 0x8000) else none)

/-- A site takes part in bursts (R87). -/
def State.siteOn (s : State) (site : Nat) : Bool := s.mapBit Key.siteEnable site

/-- The members of a thread's group: bound ports of enabled sites; their position is the member ordinal (R88). -/
def State.members (s : State) (th : Nat) : List Nat := (s.boundPorts th).filter (fun o => s.siteOn (siteOf o))

/-- The thread whose group a thread serves: the group thread of a derived one, else itself (R89). -/
def State.groupOf (s : State) (th : Nat) : Nat :=
  let g := s.getF (Key.role th) 0 12
  if g = 0xFFF then th else g

/-- The thread is derived (R89). -/
def State.isDerived (s : State) (th : Nat) : Bool := s.getF (Key.role th) 0 12 != 0xFFF

/-- A SPLIT group of two or more ports (R89). -/
def State.isSplit (s : State) (g : Nat) : Bool := bit (s.get (Key.threadCtrl g)) 1 && decide (2 ≤ (s.members g).length)

/-- The ports a thread serves, with their member ordinals: one of a SPLIT group, every member of any other (R89). -/
def State.served (s : State) (th : Nat) : List (Nat × Nat) :=
  let g := s.groupOf th
  let all := (s.members g).mapIdx (fun i o => (i, o))
  if s.isSplit g then
    let i := if s.isDerived th then s.getF (Key.role th) 12 9 else 0
    all.filter (fun x => x.1 = i)
  else all

/-- The channels of the ports a thread serves. -/
def State.threadChannels (s : State) (th : Nat) : List Nat := (s.served th).flatMap (fun x => s.channels x.2)

/-- The slices of the ports a thread serves. -/
def State.threadSlices (s : State) (th : Nat) : List Nat :=
  (List.range 32).filter (fun sl => (s.served th).any (fun x => (s.portSliceList x.2).contains sl))

/-- Every thread armed for the burst (R88, R93). -/
def State.armedThreads (s : State) : List Nat := s.threads.filterMap (fun x => if x.2.armed then some x.1 else none)

/-- The armed threads of one lockstep group, derived ones included. -/
def State.groupThreads (s : State) (th : Nat) : List Nat :=
  s.armedThreads.filter (fun t => s.groupOf t = s.groupOf th)

/-- The port that holds a channel among the served ports of armed threads: thread, ordinal, port object. -/
def State.ownerOf (s : State) (g : Nat) : Option (Nat × Nat × Nat) :=
  s.armedThreads.findSome? (fun th => (s.served th).findSome? (fun x => if (s.channels x.2).contains g then some (th, x.1, x.2) else none))

/-- A slice carries an armed port (R66). -/
def State.sliceArmed (s : State) (sl : Nat) : Bool := s.armedThreads.any (fun th => (s.threadSlices th).contains sl)

/-- The threads of the burst with channels on a slice. -/
def State.threadsOnSlice (s : State) (sl : Nat) : List Nat := s.burst.threads.filter (fun th => (s.threadSlices th).contains sl)

/-- A thread is running in the present burst: armed in it and not yet DONE or FAULTED. -/
def State.live (s : State) (th : Nat) : Bool := s.burst.running && s.burst.threads.contains th && !s.ended th

/-! ## Channels and lanes -/

/-- LANE_STATUS STATE of a channel (R187): 0 UNTRAINED, 1 PASSED, 2 DISABLED. -/
def State.laneState (s : State) (g : Nat) : Nat := s.getF (Key.laneStatus g) 0 2

/-- The envelope permits drive on a channel (R386). -/
def State.permits (s : State) (g : Nat) : Bool := s.mapBit Key.drivePermit g

/-- The level a T-lane carries. -/
def State.lane (s : State) (g : Nat) : LaneLevel := mget s.laneBase s.lanes g

/-- The level a T-lane takes when it is to carry one: a disabled channel stays high-impedance (R193), a drive-forbidden one (R60) and one of a parked slice (R370) at
mid-level. -/
def State.allowed (s : State) (g : Nat) (l : LaneLevel) : LaneLevel :=
  if s.laneState g = 2 then .highZ else if s.permits g && !(s.slice (g / 32)).parked then l else .mid

/-- A T-lane carries what it is allowed to. -/
def State.setLane (s : State) (g : Nat) (l : LaneLevel) : State := { s with lanes := mset s.laneBase s.lanes g (s.allowed g l) }

/-- One µs in slice ticks. -/
def microTicks : Nat := 3200

/-- A T-lane takes a level. A change of an UNTRAINED lane counts against PRETRAIN_LIMIT over 1 µs while LBK of its slice is low (R386): one beyond the limit is suppressed,
the lane holds mid-level, and FS013 is due. -/
def State.driveLane (s : State) (g : Nat) (l : LaneLevel) : State :=
  let limit := (s.get Key.pretrainLimit).toNat
  if s.laneState g != 0 || limit == 0xFFFF || (s.slice (g / 32)).lbk == .high || s.lane g == s.allowed g l then s.setLane g l
  else
    let recent := s.lanePast.filter (fun x => decide (s.nowTick < x.2 + microTicks))
    if limit ≤ (recent.filter (fun x => x.1 == g)).length then { s.setLane g .mid with lanePast := recent, guardHits := g :: s.guardHits.filter (fun x => x != g) }
    else { s.setLane g l with lanePast := (g, s.nowTick) :: recent }

/-- Every T-lane takes a level; disabled channels stay high-impedance. -/
def State.allLanes (s : State) (l : LaneLevel) : State :=
  let s' := { s with laneBase := l, lanes := [] }
  let dis := s.objs.filterMap (fun kv => if keyArea kv.1 = 0x60 ∧ 0x1000 ≤ keyObj kv.1 ∧ keyObj kv.1 ≤ 0x13FF ∧ keyEl kv.1 = 1 ∧ field kv.2 0 2 = 2
    then some (keyObj kv.1 - 0x1000) else none)
  dis.foldl (fun t g => { t with lanes := mset t.laneBase t.lanes g .highZ }) s'

/-- The IDLE_STATE level of a port (R84). -/
def State.idleLevel (s : State) (o : Nat) : LaneLevel :=
  match s.getF (Key.portCtrl o) 16 2 with
  | 1 => .low
  | 2 => .high
  | _ => .mid

/-- A port's channels take a level. -/
def State.drivePort (s : State) (o : Nat) (l : LaneLevel) : State := (s.channels o).foldl (fun t g => t.driveLane g l) s

/-- T-lanes of whole slices carry a stimulus (R188, R193): disabled channels take part, drive-forbidden ones stay at mid-level (R60). -/
def State.stimulate (s : State) (sls : List Nat) : State :=
  sls.foldl (fun t sl => (List.range 32).foldl (fun u c =>
    let g := 32 * sl + c
    { u with lanes := mset u.laneBase u.lanes g (if u.permits g then .stimulus else .mid) }) t) s

/-- Bytes that the spec leaves open. -/
def openBytes (from_ n : Nat) : List Byte := (List.range n).map (fun i => BitVec.ofNat 8 (Config.freeWord (from_ + i)).toNat)

/-! ## DDR5 as a byte store (R279, R281, R284) -/

/-- The byte a read of a device address returns. -/
def State.byteAt (s : State) (a : Nat) : Byte := mget 0 s.cells a

/-- `n` bytes from a device address. -/
def State.bytesAt (s : State) (a n : Nat) : List Byte := (List.range n).map (fun i => s.byteAt (a + i))

/-- The little-endian number in `n` bytes at a device address. -/
def State.numAt (s : State) (a n : Nat) : Nat := ofLeBytes (s.bytesAt a n)

/-- Bytes written at an address. -/
def setBytes : List Host.Cell → Nat → List Byte → List Host.Cell
  | m, _, [] => m
  | m, a, b :: bs => setBytes (mset 0 m a b) (a + 1) bs

/-- The 4 KiB pages a write touches. -/
def pagesOf (a n : Nat) : List Nat := if n = 0 then [] else (List.range ((a + n - 1) / 4096 - a / 4096 + 1)).map (fun i => a / 4096 + i)

/-- A write reaches DDR5 (R148, R281): bytes at or above DRAM_FILL wait until the fill has passed them; the pages become unchecked and a passed check stale (R82); the write replaces poisoned bursts
it covers whole (R285). -/
def State.writeBytes (s : State) (a : Nat) (bs : List Byte) : State :=
  let pages := pagesOf a bs.length
  let s := if s.checkedPages.any (fun p => pages.contains p) then s.stale else s
  let s := { s with checkedPages := s.checkedPages.filter (fun p => !pages.contains p) }
  if (s.get Key.dramFill).toNat < a + bs.length then { s with waitingWrites := s.waitingWrites ++ [(a, bs)] }
  else { s with cells := setBytes s.cells a bs, poison := s.poison.filter (fun b => !(decide (a ≤ 64 * b) && decide (64 * b + 64 ≤ a + bs.length))) }

/-- The reported capacity in bytes. -/
def State.capacity (s : State) : Nat := (s.get Key.dramCapacity).toNat

/-- The regions that hold a byte of a range (R146). -/
def State.regionsOf (s : State) (a n : Nat) : List Nat :=
  (List.range 256).filter (fun r =>
    let b := (s.get (Key.regionBase r)).toNat
    let l := (s.get (Key.regionLength r)).toNat
    decide (l ≠ 0) && decide (a < b + l) && decide (b < a + n))

/-- A range touches a locked region (R72). -/
def State.touchesLock (s : State) (a n : Nat) : Bool := (s.regionsOf a n).any (fun r => s.get (Key.regionLocked r) == 1)

/-- A mode in which DDR5 may be written (R71). -/
def State.dramWritable (s : State) : Bool := [Mode.idle, Mode.load, Mode.armed, Mode.burst].contains s.mode

/-! ## Answers (R36, R44, R54) -/

/-- A response message: the opcode with bit 7 set (R43). -/
def response (op : BitVec 8) (c : Code) (index key : Nat) (value : Word) : Message :=
  { opcode := op ||| 0x80, last := false, dflt := false, status := BitVec.ofNat 6 c.toNat, index := BitVec.ofNat 8 index, key := BitVec.ofNat 32 key, value := value }

/-- `s` with one more answer. -/
def State.answer (s : State) (m : Message) : State := { s with answers := s.answers ++ [m] }

/-! ## The black box (R401, R402) -/

/-- A record is programmed into the next slot with the next RECORD_SEQ; the ring keeps the newest 1,024 slots, torn ones among them (R401). After PWRFAIL_N's
record Lichen accepts no write. -/
def State.bbWrite (s : State) (typ : Nat) (payload : List Word) : State :=
  if s.nvm.closed then s else
  let r : BBRecord :=
    { seq := (s.get Key.bbNextSeq).toNat, typ := typ, mode := s.mode, rawTime := s.raw, shortTime := shortTime s.now, bootCount := s.ledger.boots,
      burstNumber := (s.get Key.burstNumber).toNat, audit := s.get Key.auditStatus, firstFault1 := s.get (Key.firstFault 0), firstFault2 := s.get (Key.firstFault 1),
      payload := payload }
  let kept (q : Nat) : Bool := decide ((r.seq + 2 ^ 32 - q) % 2 ^ 32 < 1024)
  let bb := (s.nvm.blackBox ++ [r]).filter (fun x => kept x.seq)
  let s := { s with nvm := { s.nvm with blackBox := bb, tornSlots := s.nvm.tornSlots.filter kept }, ledger := { s.ledger with bbRecords := (s.ledger.bbRecords + 1) % 2 ^ 32 } }
  (s.count Key.bbNextSeq 32).put Key.bbValid (toWord bb.length)

/-- A token of a write class is drawn (R406): class 0 persist, 1 guard, 2 boot selector, 3 black box. `none` where the bucket is empty. -/
def State.drawToken (s : State) (cls : Nat) : Option State :=
  let n := (s.get (Key.nvmTokens cls)).toNat
  if n = 0 then none else some (s.put (Key.nvmTokens cls) (toWord (n - 1)))

/-- A non-exempt record: without a token it is not written and counted in BB_SUPPRESSED (R406). -/
def State.bbBudget (s : State) (typ : Nat) (payload : List Word) : State :=
  match s.drawToken 3 with
  | some s => s.bbWrite typ payload
  | none => s.count Key.bbSuppressed 32

/-- REGION_ERASES of the regions of R404: the most-erased page of each. A black-box page is erased once a lap, one page ahead of the page being written (R401). -/
def State.regionErases (s : State) : List Nat :=
  let e (i : Nat) : Nat := s.nvm.erases.getD i 0
  let pages := ceilDiv (s.get Key.bbNextSeq).toNat 8
  [0, max (e 0) (e 1), max (e 2) (e 3), max (e 4) (e 5), e 6, e 7, ceilDiv pages 128]

/-- The ledger image as 64-bit words, bit 0 first (R404). -/
def State.ledgerWords (s : State) : List Word :=
  let l := s.ledger
  let n := packFields
    ([(0, 64, (s.get Key.powerOnSeconds).toNat)] ++ (List.range 16).map (fun i => (64 + 32 * i, 32, (s.get (Key.tempBin i)).toNat)) ++
      [(576, 32, l.boots), (608, 32, (s.get Key.bankRecoveries).toNat), (640, 32, l.persists), (672, 32, l.guardCommits), (704, 32, l.safeEntries),
       (736, 32, l.machineChecks), (768, 32, l.powerFails), (800, 32, l.fwFallbacks), (832, 64, l.bursts), (896, 64, l.bbRecords),
       (960, 16, (l.tjMax % 65536).toNat)] ++ s.regionErases.mapIdx (fun j v => (992 + 32 * j, 32, v)))
  (List.range 32).map (fun i => BitVec.ofNat 64 (n / 2 ^ (64 * i)))

end Sys2Proof.Machine
end

