-- ==== Sys2Proof/Machine/Capture.lean ====
section
/-! DEFINITION. The capture engine and the check-value units: judging a strobe (R200-R203), the fail log (R208, R209), full capture (R211-R213), signatures
(R214-R217). -/

namespace Sys2Proof.Machine

/-! ## Check values (R215, R216) -/

/-- The settings a slot computes with: width, polynomial, initial value, final XOR, orientation. -/
structure SigCfg where
  w : Nat
  poly : Nat
  init : Nat
  xorout : Nat
  refin : Bool
  refout : Bool
deriving DecidableEq, Repr

/-- REFLECT(x, W) of R215. -/
def reflect (x w : Nat) : Nat := (List.range w).foldl (fun acc i => if x.testBit i then acc + 2 ^ (w - 1 - i) else acc) 0

/-- The fixed polynomials of the fall-back path (R216). -/
def fallback (sel : Nat) : Nat × Nat :=
  match sel with
  | 0 => (16, 0x1021)
  | 1 => (32, 0x04C11DB7)
  | 2 => (32, 0x1EDC6F41)
  | _ => (64, 0x42F0E1EBA9EA3693)

/-- The settings of slot `slot` of thread `th`: a derived thread uses its group thread's (R214). -/
def State.sigCfg (s : State) (th slot : Nat) : SigCfg :=
  let o := 8 * s.groupOf th + slot
  let c := s.get (Key.sigCtrl o)
  let (w, poly) := if bit c 8 then fallback (field c 9 2) else (field c 0 6 + 1, (s.get (Key.sigPoly o)).toNat)
  { w := w, poly := poly % 2 ^ w, init := (s.get (Key.sigInit o)).toNat % 2 ^ w, xorout := (s.get (Key.sigXorout o)).toNat % 2 ^ w, refin := bit c 6, refout := bit c 7 }

/-- R at initialisation (R215). -/
def sigInitial (c : SigCfg) : Nat := if c.refin then reflect c.init c.w else c.init

/-- One stream bit (R215). -/
def sigStep (c : SigCfg) (r : Nat) (b : Bool) : Nat :=
  if c.refin then
    let t := Bool.xor (r.testBit 0) b
    let r := r / 2
    if t then Nat.xor r (reflect c.poly c.w) else r
  else
    let t := Bool.xor (r.testBit (c.w - 1)) b
    let r := (2 * r) % 2 ^ c.w
    if t then Nat.xor r c.poly else r

/-- The result of R (R215). -/
def sigFinal (c : SigCfg) (r : Nat) : Nat := Nat.xor (if c.refout = c.refin then r else reflect r c.w) c.xorout

/-- CRC-32 of R393 over bytes in ascending order. -/
def crc32 (bs : List Byte) : Nat :=
  let c : SigCfg := { w := 32, poly := 0x04C11DB7, init := 0xFFFFFFFF, xorout := 0xFFFFFFFF, refin := true, refout := true }
  sigFinal c ((bs.flatMap (fun b => (List.range 8).map (fun i => b.getLsbD i))).foldl (sigStep c) (sigInitial c))

/-- SIG_RESULT of a slot from its present R (R216). -/
def State.sigResult (s : State) (th slot : Nat) : Word :=
  toWord (sigFinal (s.sigCfg th slot) (s.get (Key.sigValue (8 * th + slot))).toNat)

/-- Slot takes its initial value. -/
def State.sigReset (s : State) (th slot : Nat) : State := s.put (Key.sigValue (8 * th + slot)) (toWord (sigInitial (s.sigCfg th slot)))

/-- The slots of a thread that are enabled (R216: its group thread's ENABLE). -/
def State.sigSlots (s : State) (th : Nat) : List Nat :=
  (List.range 8).filter (fun i => bit (s.get (Key.sigCtrl (8 * s.groupOf th + i))) 16)

/-! ## Judging (R201, R202) -/

/-- A state passes an expectation (R201). -/
def Expect.passes : Expect → Tern → Bool
  | .low, .low => true
  | .high, .high => true
  | .mid, .mid => true
  | .valid, .low => true
  | .valid, .high => true
  | _, _ => false

/-- The states a window counts as seen (R202): the state at CA; any that holds 60 ps or longer; a shorter one by the device's choice; under V, a 0 state shorter than
100 ps between −1 and +1 is not counted. `prev` is the state before the list. -/
def seenLater (valid short : Bool) (prev : Tern) : List (Tern × Nat) → List Tern
  | [] => []
  | (t, ps) :: r =>
    let next := r.head?.map Prod.fst
    let exempt := valid && decide (t = .mid) && decide (ps < 100) &&
      ((decide (prev = .low) && decide (next = some .high)) || (decide (prev = .high) && decide (next = some .low)))
    let seen := (decide (60 ≤ ps) || short) && !exempt
    (if seen then [t] else []) ++ seenLater valid short t r

/-- The states a strobe sees: EDGE the state at CA, WIN also the later ones. DESIGN CHOICE (log entry 133): under V a 0 state that stands at CA is seen, however short, and one
that CB cuts off lies between no two states; R202 gives both readings for such a state. -/
def seenStates (win : Bool) (e : Expect) (o : ChanObs) : List Tern :=
  o.atCA :: (if win then seenLater (decide (e = .valid)) o.shortSeen o.atCA o.later else [])

/-- The code of R211: bits 0-2 the states seen, bit 3 a fail. -/
def capCode (seen : List Tern) (fail : Bool) : Nat :=
  (if seen.contains .low then 1 else 0) + (if seen.contains .mid then 2 else 0) + (if seen.contains .high then 4 else 0) + (if fail then 8 else 0)

/-! ## Fail log (R208, R209, R438) -/

/-- A fail-log entry (R208), as a number whose bits are the entry's. -/
def failEntry (cycle site port slice th bitmap : Nat) : Nat :=
  (packFields [(0, 48, cycle), (48, 9, site), (57, 4, port), (61, 5, slice), (66, 12, th), (96, 32, bitmap)])

/-- Number of set bits of a number below 2^n. -/
def popCount (n v : Nat) : Nat := (bitsOf n v).length

/-- Set bits of an entry that is not admitted, or discarded (R209). -/
def State.failOverflow (s : State) (site th bits : Nat) : State :=
  let s := s.countBy (Key.failOverflow site) 64 bits
  let s := s.putF (Key.siteStatus site) 7 1 1
  s.putThread th { s.thread th with logOverflow := true }

/-- Staging slots (R209). -/
def stagingSlots : Nat := 131072

/-- Fail events a slice buffer holds (R207). -/
def judgeSlots : Nat := 1024

/-- A fail event at the capture engine (R209): its entry is admitted to staging, or its bits overflow. -/
def State.admitFail (s : State) (cycle site port slice th bitmap : Nat) : State :=
  let bits := popCount 32 bitmap
  let region := (s.get Key.faillogRegion).toNat
  let ahead := (s.get Key.faillogEntries).toNat + s.burst.staging.length
  let room := decide (region < 256) && decide (16 * ahead + 16 ≤ (s.get Key.faillogLength).toNat)
  let n := mget 0 s.burst.admitted site
  let below := decide (n < (s.get Key.faillogSiteLimit).toNat)
  let slot := decide (s.burst.staging.length < stagingSlots)
  if room && below && slot then
    { s with burst := { s.burst with
        admitted := mset 0 s.burst.admitted site (n + 1)
        staging := s.burst.staging ++ [⟨site, th, bits, failEntry cycle site port slice th bitmap⟩] } }
  else
    let s := s.failOverflow site th bits
    if decide (region < 256) && below && slot && !room then s.putF Key.captureStatus 2 1 1 else s

/-- The oldest staged entry leaves staging. -/
def State.unstage (s : State) : State := { s with burst := { s.burst with staging := s.burst.staging.drop 1 } }

/-- An entry with an uncorrectable error in staging is discarded (R209). DESIGN CHOICE (log entry 57): of a raise that names no entry, the oldest. -/
def State.dropStaged (s : State) : State :=
  match s.burst.staging with
  | [] => s
  | x :: _ => s.unstage.failOverflow x.site x.thread x.bits

/-- An entry of staging is written at the end of the log (R209, R210). -/
def State.writeStaged (s : State) (x : Staged) : State :=
  let a := (s.get (Key.regionBase (s.get Key.faillogRegion).toNat)).toNat + (s.get Key.faillogOffset).toNat + 16 * (s.get Key.faillogEntries).toNat
  let s := s.unstage.writeBytes a (leBytes 16 x.entry)
  ((s.count Key.faillogEntries 64).count (Key.logEntries x.site) 32).countBy (Key.loggedBits x.site) 64 x.bits

/-! ## The crossing of a slice (R207) -/

/-- tu of a core cycle, 0.625 ns (R14). -/
def coreTu : Nat := 2500

/-- Core cycles pass: each moves one item of four fail events or 64 bytes of capture data, and items alternate where both wait. -/
def JudgeBuf.move : Nat → JudgeBuf → JudgeBuf
  | 0, b => b
  | n + 1, b =>
    if b.events = 0 ∧ b.bits < 512 then b
    else if b.bits < 512 ∨ (b.events ≠ 0 ∧ !b.turn) then { b with events := b.events - 4, turn := true }.move n
    else { b with bits := b.bits - 512, turn := false }.move n

/-- A slice's buffer at a port time. -/
def JudgeBuf.at (b : JudgeBuf) (tu : Nat) : JudgeBuf :=
  let c := tu / coreTu
  { b.move (min (c - b.upTo) (b.events + b.bits / 512)) with upTo := max c b.upTo }

/-- The buffer of a slice at a port time. -/
def State.judgeAt (s : State) (sl tu : Nat) : JudgeBuf := (mget ⟨0, 0, false, 0⟩ s.burst.judge sl).at tu

/-- `s` with the buffer of a slice. -/
def State.putJudge (s : State) (sl : Nat) (b : JudgeBuf) : State := { s with burst := { s.burst with judge := mset ⟨0, 0, false, 0⟩ s.burst.judge sl b } }

/-- The codes of a captured cycle of a port wait at its slices (R207, R211). -/
def State.feedCapture (s : State) (o tu : Nat) : State :=
  (List.range 32).foldl (fun u sl =>
    let n := (u.channels o).countP (fun g => g / 32 == sl)
    if n = 0 then u else let b := u.judgeAt sl tu; u.putJudge sl { b with bits := b.bits + 4 * n }) s

/-! ## Full capture (R211-R213) -/

/-- The bytes of a frame (R212). -/
def frameBytes (s : State) (f : CapFrame) (seq : Nat) : List Byte :=
  let n := (s.channels f.port).length
  let masked := f.rows.mapIdx (fun i r => (256 + i, 1, if r.2 then 1 else 0))
  let head := leBytes 64 (packFields
    ([(0, 32, 0x4346524B), (32, 32, seq), (64, 48, f.first), (112, 8, f.rows.length - 1), (128, 9, siteOf f.port), (137, 4, portOf f.port), (141, 12, f.thread),
      (153, 11, n), (192, 32, (s.get Key.burstNumber).toNat)] ++ masked))
  let nibbles := (f.rows.mapIdx (fun i r => r.1.mapIdx (fun k c => ((i * n + k) * 4, 4, c)))).flatten
  head ++ leBytes (64 * ceilDiv (f.rows.length * n) 128) (packFields nibbles)

/-- A rank of the map refreshes above the doubled rate: the streaming budget is not promised (R289). -/
def State.unpromised (s : State) : Bool := (List.range 12).any (fun i => bit (s.get Key.dramEnabled) i && bit (s.get (Key.subchStatus i)) 12)

/-- A frame is lost because DDR5 fell behind (R213). Which frames those are is open: while the budget is not promised, a free choice for each (log entry 57). -/
def State.frameLost (s : State) : Bool × State := if s.unpromised then s.freeChoice else (false, s)

/-- A frame that fits its area is written in sequence, or lost (R213). -/
def State.writeFrame (s : State) (f : CapFrame) (a : Nat) (bs : List Byte) : State :=
  let x := s.frameLost
  if x.1 then ((x.2.count Key.fullcapLost 32).putF Key.captureStatus 4 1 1).putThread f.thread { x.2.thread f.thread with capGap := true }
  else ((x.2.writeBytes a bs).countBy Key.fullcapBytes 64 bs.length).count Key.fullcapFrames 32

/-- A frame closes and is written in sequence, or does not fit (R213). -/
def State.closeFrame (s : State) (f : CapFrame) : State :=
  let bs := frameBytes s f s.burst.capSeq
  let region := (s.get Key.fullcapRegion).toNat
  let off := (s.get Key.fullcapBytes).toNat
  let s := { s with burst := { s.burst with capSeq := s.burst.capSeq + 1, capBuf := s.burst.capBuf.filter (fun g => g.port != f.port) } }
  if !s.burst.capFull && decide (region < 256) && decide (off + bs.length ≤ (s.get Key.fullcapLength).toNat) then
    s.writeFrame f ((s.get (Key.regionBase region)).toNat + (s.get Key.fullcapOffset).toNat + off) bs
  else
    let s := { s with burst := { s.burst with capFull := true } }
    let s := s.putThread f.thread { s.thread f.thread with capTrunc := true }
    s.putF Key.captureStatus 3 1 1

/-- A captured cycle of a port joins its frame; a frame closes at 256 cycles (R212). -/
def State.capCycle (s : State) (o th cycle : Nat) (codes : List Nat) (masked : Bool) : State :=
  let f := match s.burst.capBuf.find? (fun g => g.port == o) with
    | some f => { f with rows := f.rows ++ [(codes, masked)] }
    | none => { port := o, thread := th, first := cycle, rows := [(codes, masked)] }
  let s := { s with burst := { s.burst with capBuf := s.burst.capBuf.filter (fun g => g.port != o) ++ [f] } }
  if 256 ≤ f.rows.length then s.closeFrame f else s

/-- A thread's capture interval ends: its open frames close (R212). -/
def State.endCapture (s : State) (th : Nat) : State :=
  (s.burst.capBuf.filter (fun f => f.thread == th)).foldl (fun t f => t.closeFrame f) s

end Sys2Proof.Machine
end

