-- ==== Sys2Proof/Machine/Stops.lean ====
section
/-! DEFINITION. Ending threads and bursts: stops (R75, R76, R78, R92, R100, R175), span credits (R97, R98), site masking (R134, R206), burst end (R26), leaving BURST
and ARMED (R72, R89, R93, R436). -/

namespace Sys2Proof.Machine

/-! ## Span credits -/

/-- Free span credits of a thread's port on a slice (R98). -/
def State.spanFree (s : State) (sl th : Nat) : Nat := mget 0 (s.slice sl).spanFree th

/-- The span share of a thread's port on a slice, fixed at ARM (R98). -/
def State.spanShare (s : State) (sl th : Nat) : Nat := mget 0 (s.slice sl).share th

/-- Every slice of the thread has a free span credit (R91, R99), or the next span is one staged outside the share (R120). -/
def State.hasCredit (s : State) (th : Nat) : Bool := (s.thread th).stagedNext || (s.threadSlices th).all (fun sl => decide (0 < s.spanFree sl th))

/-- Issuing a span takes a credit on every slice of the port (R97). -/
def State.takeCredits (s : State) (th : Nat) : State :=
  (s.threadSlices th).foldl (fun t sl => t.putSlice sl { t.slice sl with spanFree := mset 0 (t.slice sl).spanFree th (t.spanFree sl th - 1) }) s

/-- `n` spans of a thread return their credits on every slice of the port, never above the share (R97); a thread that ends returns all it holds. -/
def State.returnCredits (s : State) (th n : Nat) : State :=
  (s.threadSlices th).foldl
    (fun t sl => t.putSlice sl { t.slice sl with spanFree := mset 0 (t.slice sl).spanFree th (min (t.spanShare sl th) (t.spanFree sl th + n)) }) s

/-- A span of a thread has started its last cycle: every slice that runs it owes the credit (R97). -/
def State.oweCredit (s : State) (th : Nat) : State :=
  (s.threadSlices th).foldl (fun u sl => u.putSlice sl { u.slice sl with owed := mset 0 (u.slice sl).owed th (mget 0 (u.slice sl).owed th + 1) }) s

/-! ## Cycle counts of a slice (R24, R25) -/

/-- The cycle counts of a thread's port on a slice. -/
def State.counts (s : State) (sl th : Nat) : CycleCounts := mget ⟨0, 0, 0⟩ (s.slice sl).counts th

/-- The counts of a thread on slices change. -/
def State.putCounts (s : State) (sls : List Nat) (th : Nat) (f : CycleCounts → CycleCounts) : State :=
  sls.foldl (fun t sl => t.putSlice sl { t.slice sl with counts := mset ⟨0, 0, 0⟩ (t.slice sl).counts th (f (t.counts sl th)) }) s

/-- The slices of a thread that started it (R20). -/
def State.startedSlices (s : State) (th : Nat) : List Nat := (s.threadSlices th).filter (fun sl => !(s.thread th).late.contains sl)

/-- `n` cycles of a thread are released to every slice of its port (R25). -/
def State.countIssued (s : State) (th n : Nat) : State :=
  (s.putCounts (s.threadSlices th) th (fun c => { c with issued := c.issued + n })).countBy (Key.cyclesIssued th) 64 n

/-- `n` cycles that were never issued leave the counts again (R121). -/
def State.countBack (s : State) (th n : Nat) : State :=
  (s.putCounts (s.threadSlices th) th (fun c => { c with issued := c.issued - n })).put (Key.cyclesIssued th) (toWord ((s.get (Key.cyclesIssued th)).toNat - n))

/-- A cycle of a thread starts on the slices that run it; CYCLES_EXECUTED is the lowest count over its slices (R30). -/
def State.countExecuted (s : State) (th : Nat) : State :=
  let t := s.putCounts (s.startedSlices th) th (fun c => { c with executed := c.executed + 1 })
  if (s.thread th).late.isEmpty then t.countBy (Key.cyclesExecuted th) 64 1 else t

/-- What was issued to a slice and not executed there is flushed; CYCLES_FLUSHED is the highest count over the slices (R25, R30). -/
def State.countFlushed (s : State) (th left : Nat) : State :=
  let late := (s.thread th).late
  let t := s.putCounts (s.startedSlices th) th (fun c => { c with flushed := c.flushed + left })
  let t := t.putCounts ((s.threadSlices th).filter (fun sl => late.contains sl)) th (fun c => { c with flushed := c.flushed + left + (s.thread th).started })
  t.countBy (Key.cyclesFlushed th) 64 (if late.isEmpty then left else left + (s.thread th).started)

/-! ## Sites -/

/-- Whether a happening at port time `tu` on port `port` comes before the one recorded for a site: the earlier cycle start, the lower port on a tie (R206). -/
def earlier (old : Option (Nat × Nat)) (tu port : Nat) : Bool :=
  match old with
  | none => true
  | some (t, p) => decide (tu < t) || (decide (tu = t) && decide (port < p))

/-- What is recorded for a site: port time and port, kept as tu × 16 + port. -/
def noted (l : List (Nat × Nat)) (site : Nat) : Option (Nat × Nat) := (l.find? (fun x => x.1 == site)).map (fun x => (x.2 / 16, x.2 % 16))

/-- A site is masked in a port from the cycle that starts at port time `tu` on (R134, R206): SITE_MASK_MAP, MASKED, and MASK_CYCLE where this masking is the
site's earliest. -/
def State.maskSite (s : State) (th ord o cycle tu : Nat) : State :=
  let t := s.thread th
  if t.execMask.contains ord then s
  else
    let s := s.putThread th { t with siteMask := if t.siteMask.contains ord then t.siteMask else t.siteMask ++ [ord], execMask := t.execMask ++ [ord] }
    let site := siteOf o
    let s := s.putF (Key.siteStatus site) 6 1 1
    let s := s.setMapBit Key.siteMaskMap site
    if earlier (noted s.burst.maskTu site) tu (portOf o) then
      let s := s.put (Key.maskCycle site) (toWord (packFields [(0, 48, cycle), (48, 4, portOf o)]))
      { s with burst := { s.burst with maskTu := (site, tu * 16 + portOf o) :: s.burst.maskTu.filter (fun x => x.1 != site) } }
    else s

/-! ## Ending a thread -/

/-- When a lane of an ended thread takes its level (R175), as a port time: at the start of the cycle that does not come, or 150 ps after the last carried-over drive event
where that falls later. -/
def Thread.stopTu (t : Thread) (g : Nat) : Nat := let e := mget 0 t.lastEv g; if t.startTu < e then e + 600 else t.startTu

/-- A lane of an ended thread takes a level. -/
def State.stopLane (s : State) (th g : Nat) (l : LaneLevel) : State :=
  let t := s.driveLane g l
  let tu := (s.thread th).stopTu g
  if t.lane g = s.lane g then t else t.emit (.lane g tu (gridIndex tu) (s.launchPlace g tu) (t.lane g))

/-- What the lanes of an ended thread carry (R84, R155, R175): IDLE_STATE after HALT; else held, or mid-level, as STOP_STATE says. -/
def State.stopLanes (s : State) (th reason : Nat) : State :=
  (s.served th).foldl (fun t x =>
    if reason = Stop.halt then (t.channels x.2).foldl (fun u g => u.stopLane th g (u.idleLevel x.2)) t
    else if t.getF (Key.portCtrl x.2) 18 1 = 1 then (t.channels x.2).foldl (fun u g => u.stopLane th g .mid) t else t) s

/-- BURST_STOP reads DONE once every thread it stops has ended (R76). -/
def State.settleStop (s : State) : State :=
  let left := s.burst.stopping.filter (fun t => !s.ended t)
  let s := { s with burst := { s.burst with stopping := left } }
  if s.cmdState Key.burstStop = Cmd.running ∧ left = [] then s.cmdDone Key.burstStop 0 else s

/-- The ring reports itself quiet (R230): every credit has returned and none was lost in a break (R241). -/
def Ring.quiet (r : Ring) : Bool := r.creditCtrl == 4 && r.creditCond == 8 && r.creditToken == 8 && r.creditTrig == 8 && !r.quietLost

/-- The drain conditions hold (R26): every result record is written and the ring is quiet; spans are released or flushed and judge items delivered in the event that
causes them, and the drain completes the spill (R209). -/
def State.drained (s : State) : Bool := s.burst.records.isEmpty && s.ring.quiet

/-- Burst end (R26): the last thread of the burst has ended, and the audit starts to drain. -/
def State.settleBurst (s : State) : State :=
  if s.burst.running && s.burst.launched && s.auditSt != 1 && s.auditSt != 2 && s.burst.threads.all (fun t => s.ended t) then
    { s with burst := { s.burst with quick := s.drained && s.burst.staging.isEmpty } }.put Key.auditStatus (toWord (packFields [(0, 3, 1), (16, 12, 0xFFF)]))
  else s

/-- The earliest counted fail of a thread's ports, the lowest member ordinal on a tie (R218). -/
def firstFailRec : List FailRec → Option FailRec
  | [] => none
  | f :: r =>
    match firstFailRec r with
    | none => some f
    | some g => if g.cycle < f.cycle ∨ (g.cycle = f.cycle ∧ g.ord < f.ord) then some g else some f

/-- The result record of a thread that has ended, without PHASE and RECORD_SEQ (R218). -/
def State.recordBits (s : State) (th : Nat) : Nat :=
  let t := s.thread th
  let w := s.get (Key.threadState th)
  let served := s.served th
  let first := firstFailRec t.fails
  let site := (first.bind (fun f => (served.find? (fun x => x.1 == f.ord)).map (fun x => siteOf x.2))).getD 0x3FF
  let failed := served.filter (fun x => bit w 16 || t.failedOrds.contains x.1 || t.fails.any (fun f => f.ord == x.1))
  let sig (i : Nat) : Nat := if (s.sigSlots th).contains i then (s.sigResult th i).toNat else 0
  packFields
    [(0, 12, th), (12, 1, b2n t.sigSuspect), (16, 8, field w 8 8), (24, 1, field w 16 1), (25, 1, b2n t.laneFault), (26, 1, b2n t.matchTimeout), (27, 1, b2n t.logOverflow),
     (28, 1, b2n t.capGap), (29, 1, b2n t.capTrunc), (30, 1, b2n (s.isDerived th)), (32, 32, (s.get Key.burstNumber).toNat), (64, 48, (s.get (Key.cyclesExecuted th)).toNat),
     (128, 48, (first.map FailRec.cycle).getD 0xFFFFFFFFFFFF), (176, 10, site), (192, 10, served.length), (202, 10, failed.length), (212, 10, t.execMask.length),
     (256, 48, (served.map (fun x => mget 0 s.burst.failTotals x.2)).sum), (320, 64, sig 0), (384, 64, sig 1), (448, 64, s.raw)]

/-- A host jump ends FAILED with ABORTED (R122): no thread that still awaits it takes it. -/
def State.failJump (s : State) (who : Nat) : State :=
  let s := s.burst.threads.foldl (fun u x => if ((u.thread x).jump.map JumpReq.who) = some who then u.putThread x { u.thread x with jump := none } else u) s
  if s.cmdBusy (Key.hostJump who) then s.cmdFail (Key.hostJump who) .aborted 0 else s

/-- One thread ends with a reason (R75, R92), DEP_FETCH, DEP_TRIG and DEP_TIME at 0 and DEP_SYNC as it stood (DESIGN CHOICE, log entry 128: R92 does not say): its cycles not started are flushed, its spans return their credits, its frames close, its lanes take their stop
state, its sites fail if it is incomplete, and its record is due. -/
def State.endThread (s : State) (th reason : Nat) : State :=
  if s.ended th then s
  else
    let t := s.thread th
    let s := s.countFlushed th ((t.spans.map (fun x => x.left)).sum)
    let s := s.returnCredits th 256
    let s := s.put (Key.threadState th) (endWord (s.get (Key.threadState th)) reason)
    let s := s.put (Key.stopCycle th) (toWord t.started)
    let s := s.endCapture th
    let s := s.putThread th { s.thread th with
      spans := [], matchRun := none, waitRun := none, core := none, jump := none, late := [], waits := false, stagedNext := false, depFetch := 0, depTrig := false, depTime := false }
    let s := (s.threadSlices th).foldl (fun u sl => u.putSlice sl { u.slice sl with held := (u.slice sl).held.filter (fun x => x.1 != th), owed := merase (u.slice sl).owed th }) s
    let s := s.stopLanes th reason
    let s := (match t.jump with | some j => s.failJump j.who | none => s)
    let s := if reason = Stop.halt then s else (s.served th).foldl (fun u x => u.siteFails (siteOf x.2) 5) s
    { s with burst := { s.burst with records := s.burst.records ++ [s.recordBits th] } }

/-- Threads of the burst that stop for a reason, and the other members of their groups with GROUP_STOP (R69, R78, R100), by ascending thread number: threads that end in one
cycle have their records in that order (R220). -/
def State.stopList (s : State) (ths : List Nat) (reason : Nat) : List (Nat × Nat) :=
  let named := ths.filter (fun t => s.live t)
  s.burst.threads.filterMap (fun t =>
    if named.contains t then some (t, reason)
    else if s.live t && named.any (fun n => s.groupOf n == s.groupOf t) then some (t, Stop.groupStop)
    else none)

/-- Threads end with their reasons. -/
def State.endAll (s : State) (l : List (Nat × Nat)) : State := l.foldl (fun u x => u.endThread x.1 x.2) s

/-- A thread that a late slice stops at the end of cycle 0 (R20): that boundary is its next, so no other stop comes before it. -/
def State.stoppingLate (s : State) (th : Nat) : Bool := !(s.thread th).late.isEmpty

/-- Threads of the burst stop at their next cycle boundary with a reason. Before the launch that boundary is the start of cycle 0: they stay DORMANT until it (R74). -/
def State.stopThreads (s : State) (ths : List Nat) (reason : Nat) : State :=
  let l := (s.stopList ths reason).filter (fun x => !s.stoppingLate x.1)
  if s.burst.running && !s.burst.launched then
    { s with burst := { s.burst with early := s.burst.early ++ l.filter (fun (x : Nat × Nat) => !s.burst.early.any (fun (y : Nat × Nat) => y.1 == x.1)) } }.settleStop
  else (s.endAll l).settleStop.settleBurst

/-- Every live thread of a burst that is not audited stops at once (R28). -/
def State.stopNow (s : State) (reason : Nat) : State := (s.endAll (s.stopList s.burst.threads reason)).settleStop

/-- Every live thread of the burst stops. -/
def State.stopAll (s : State) (reason : Nat) : State := s.stopThreads s.burst.threads reason

/-! ## Leaving BURST and ARMED -/

/-- Threads that read DONE or FAULTED take DORMANT; STOP_REASON, INCOMPLETE and STOP_CYCLE stay (R436). -/
def State.dormantThreads (s : State) : State :=
  s.burst.threads.foldl (fun u t => if u.ended t then u.setThreadSt t Th.dormant else u) s

/-- Region locks are released (R72). -/
def State.unlockAll (s : State) : State :=
  (List.range 256).foldl (fun u r => if u.get (Key.regionLocked r) = 0 then u else u.put (Key.regionLocked r) 0) s

/-- Derived threads are released (R89), primed spans discarded (R93), the locks released (R72): the threads are no longer armed. PRIVILEGED stays as it was
where the device leaves BURST (R436). -/
def State.disarm (s : State) : State :=
  let derived := s.armedThreads.filter (fun t => s.isDerived t)
  let s := s.armedThreads.foldl (fun u t => 
    let u := u.putThread t { u.thread t with armed := false, spans := [] }
    if s.mode = Mode.burst then u else u.putF (Key.threadState t) 17 1 0) s
  let s := derived.foldl (fun u t => u.put (Key.role t) 0xFFF) s
  let s := (List.range 32).foldl (fun u sl => u.putSlice sl { u.slice sl with share := [], fifoShare := [], spanFree := [], owed := [], expect := [], held := [] }) s
  s.unlockAll

/-! ## Audit status (R28, R31) -/

/-- The audit is not run (R28): NOT_RUN with its cause and nothing of an earlier audit beside it, results no longer valid (R206). -/
def State.auditNotRun (s : State) (cause : Nat) : State :=
  let s := s.put Key.auditStatus (toWord (packFields [(0, 3, 5), (4, 2, cause), (16, 12, 0xFFF)]))
  (s.putF Key.captureStatus 0 1 0).putF Key.captureStatus 1 1 0

end Sys2Proof.Machine
end

