-- ==== Sys2Proof/Machine/DacOps.lean ====
section
/-! DEFINITION. The level DACs as operations (R263, R266-R271): codes against the usable range and the envelope, park and fault codes, loads. -/

namespace Sys2Proof.Machine

/-- The envelope in force lets a DAC carry a code (R271). -/
def State.inEnvelope (s : State) (d code : Nat) : Bool :=
  decide ((s.get (Key.minCode d)).toNat ≤ code) && decide (code ≤ (s.get (Key.maxCode d)).toNat)

/-- A code lies in the usable range of its DAC (R263). -/
def usable (d code : Nat) : Bool := decide (usableLow d ≤ code) && decide (code ≤ usableHigh d)

/-- The level that a code sets (R262): in mV on a voltage output, in µA out of the ball on a current output. -/
def dacLevel (d code : Nat) : Rat := if d < 48 then (1600 * code : Rat) / 2 ^ 20 else (4096 * code : Rat) / 2 ^ 20 - 2048

/-- SOURCE of DAC_STATUS: 0 high-impedance, 1 park, 2 programmed, 3 fault. -/
def State.dacSource (s : State) (d : Nat) : Nat := s.getF (Key.dacStatus d) 0 2

/-- What an LVL ball carries: none where it is high-impedance (R264). -/
def State.dacBall (s : State) (d : Nat) : Option Rat := if s.dacSource d = 0 then none else some (dacLevel d (s.get (Key.dacActive d)).toNat)

/-- A DAC carries a code of a source. -/
def State.setDac (s : State) (d src code : Nat) : State := (s.put (Key.dacActive d) (toWord code)).putF (Key.dacStatus d) 0 2 src

/-- Park and fault code lie within the envelope: the condition for a DAC to leave high-impedance (R271). -/
def State.dacUsable (s : State) (d : Nat) : Bool :=
  s.inEnvelope d (s.get (Key.dacPark d)).toNat && s.inEnvelope d (s.get (Key.dacFaultCode d)).toNat

/-- A DAC takes its park code; one left high-impedance at the end of BOOT stays so while a code lies outside the envelope (R271). -/
def State.parkDac (s : State) (d : Nat) : State :=
  if s.dacSource d = 0 && !s.dacUsable d then s else s.setDac d 1 (s.get (Key.dacPark d)).toNat

/-- A DAC takes its fault code (R270). -/
def State.faultDac (s : State) (d : Nat) : State :=
  if s.dacSource d = 0 && !s.dacUsable d then s else s.setDac d 3 (s.get (Key.dacFaultCode d)).toNat

/-- All outputs take park codes (R269). -/
def State.parkDacs (s : State) : State := (List.range 64).foldl (fun t d => t.parkDac d) s

/-- All outputs take fault codes (R269). -/
def State.faultDacs (s : State) : State := (List.range 64).foldl (fun t d => t.faultDac d) s

/-- All outputs are high-impedance: DAC_ACTIVE reads 0 (R269, R275). -/
def State.releaseDacs (s : State) : State := (List.range 64).foldl (fun t d => t.setDac d 0 0) s

/-- A FS064 raise located on a DAC (R274). -/
def envelopeRaise (d : Nat) : Raise := { source := 64, loc := .dac d, detail := 0, injected := false }

/-- One DAC at a load's edge (R266, R268, R270, R271): at its fault code it ignores the strobe and notes SKIPPED; a pending code outside the envelope is refused. -/
def State.loadDac (s : State) (d : Nat) (skipFault : Bool) : State × List Raise :=
  let code := (s.get (Key.dacCode d)).toNat
  if s.dacSource d = 0 then (s, [])
  else if s.dacSource d = 3 && skipFault then (s.putF (Key.dacStatus d) 7 1 1, [])
  else if s.inEnvelope d code then (s.setDac d 2 code, [])
  else (s.putF (Key.dacStatus d) 6 1 1, [envelopeRaise d])

/-- The DACs of a load group. -/
def State.groupDacs (s : State) (g : Nat) : List Nat := (List.range 64).filter (fun d => (s.get (Key.dacGroup d)).toNat = g)

/-- Several DACs load on one edge. -/
def State.loadDacs (s : State) (ds : List Nat) (skipFault : Bool) : State × List Raise :=
  ds.foldl (fun acc d => let r := acc.1.loadDac d skipFault; (r.1, acc.2 ++ r.2)) (s, [])

/-- A load strobe of a group on a modulator edge (R267): DAC_LOADS counts the load where the group has a DAC; a further strobe on the edge of the group's latest load is
merged into it. -/
def State.strobeGroup (s : State) (g edge : Nat) : State × List Raise :=
  let ds := s.groupDacs g
  if ds.isEmpty then (s, [])
  else if mget 0 s.loadEdges g = edge + 1 then (s.count Key.dacLoadMerged 32, [])
  else
    let r := { s with loadEdges := mset 0 s.loadEdges g (edge + 1) }.loadDacs ds true
    (r.1.count Key.dacLoads 32, r.2)

/-- Load strobes of several groups are to take effect on a modulator edge (R267). -/
def State.queueLoads (s : State) (gs : List Nat) (edge : Nat) : State := { s with loadsDue := s.loadsDue ++ gs.map (fun g => (edge, some g)) }

/-- What is due at a modulator edge that the clock has reached: a load of a group, or the end of DAC_LOAD. -/
def State.loadDue (s : State) (edge : Nat) : Option Nat → State × List Raise
  | some g => s.strobeGroup g edge
  | none => (s.cmdDone Key.dacLoad 0, [])

/-- The ARM strobe (R269): all DACs take their pending codes on one edge, DACs at their fault codes included (R270). -/
def State.armStrobe (s : State) : State × List Raise := s.loadDacs (List.range 64) false

/-- The DACs that a SLICE-SAFE fault on the slices moves to their fault codes (R270). -/
def State.dacsOfSlices (s : State) (sls : List Nat) : List Nat :=
  (List.range 64).filter (fun d => sls.any (fun sl => bit (s.get (Key.dacSlices d)) sl))

/-- The DACs whose DAC_SLICES names only the given slices (R196, R269, R349). -/
def State.dacsOnlyOf (s : State) (sls : List Nat) : List Nat :=
  (List.range 64).filter (fun d => (s.get (Key.dacSlices d)).toNat % 2 ^ 32 != 0 && (bitsOf 32 (s.get (Key.dacSlices d)).toNat).all (fun sl => sls.contains sl))

end Sys2Proof.Machine
end

