-- ==== Sys2Proof/Machine/ModeOps.lean ====
section
/-! DEFINITION. Entering a mode (R59, R62, R65, R269), the end of a diagnostic run (R195, R199) and the abandonment of a routine (R349, R352-R354). -/

namespace Sys2Proof.Machine

/-! ## Slices (R65, R67) -/

/-- SLICE_MODE of a slice: 0 FOLLOW, 1 CALIBRATE, 2 DIAGNOSE, 3 DISABLED. -/
def State.sliceModeOf (s : State) (sl : Nat) : Nat := (s.get (Key.sliceMode sl)).toNat

/-- Every channel of the slice is DISABLED, or its PLL is unlocked (R67). -/
def State.sliceDead (s : State) (sl : Nat) : Bool := !(s.slice sl).pllLocked || (List.range 32).all (fun c => s.laneState (32 * sl + c) == 2)

/-- A slice returns to FOLLOW, or reads DISABLED where R67 holds. -/
def State.sliceFollow (s : State) (sl : Nat) : State :=
  let s := s.putSlice sl { s.slice sl with diagPlaced := false }
  s.put (Key.sliceMode sl) (if s.sliceDead sl then 3 else 0)

/-- LBK of slices takes a level (R184, R193). -/
def State.setLbk (s : State) (sls : List Nat) (l : LaneLevel) : State := sls.foldl (fun t sl => t.putSlice sl { t.slice sl with lbk := l }) s

/-- Every slice is under deskew (R62, R193): LBK high, training on the T-lanes. -/
def State.trainLanesOn (s : State) : State := (s.setLbk (List.range 32) .high).stimulate (List.range 32)

/-- T-lanes of whole slices take a level. -/
def State.driveSlices (s : State) (sls : List Nat) (l : LaneLevel) : State :=
  sls.foldl (fun t sl => (List.range 32).foldl (fun u c => u.driveLane (32 * sl + c) l) t) s

/-! ## Lanes at rest (R59, R65, R193) -/

/-- Port objects that hold channels. -/
def State.mappedPorts (s : State) : List Nat :=
  s.objs.filterMap (fun kv => if keyArea kv.1 = 0x20 ∧ 0x8000 ≤ keyObj kv.1 ∧ keyEl kv.1 = 2 then some (keyObj kv.1 - 0x8000) else none)

/-- The modes in which a slice's own mode rules its lanes (R65): IDLE to SERVICE. DESIGN CHOICE (log entry 142): in the others the device mode rules every lane. -/
def sliceColumns (m : Nat) : Bool := decide (Mode.idle ≤ m) && decide (m ≤ Mode.service)

/-- A slice's lanes at rest carry their ports' idle states (R59): in slice DIAGNOSE, and in FOLLOW while the device is in ARMED, BURST or DIAGNOSE; mid-level otherwise. -/
def State.idleShown (s : State) (sl : Nat) : Bool :=
  sliceColumns s.mode &&
    (s.sliceModeOf sl == 2 || (s.sliceModeOf sl != 1 && (s.mode == Mode.armed || s.mode == Mode.burst || s.mode == Mode.diagnose)))

/-- The idle states that the lanes of slices show. -/
def State.idleLevels (s : State) (sls : List Nat) : List (Nat × LaneLevel) :=
  let shown := sls.filter (fun sl => s.idleShown sl)
  if shown.isEmpty then []
  else s.mappedPorts.flatMap (fun o => ((s.channels o).filter (fun g => shown.contains (g / 32))).map (fun g => (g, s.idleLevel o)))

/-- T-lanes take levels; one that carried its level before does not change (R386). -/
def State.driveFrom (s : State) (before : State) (l : List (Nat × LaneLevel)) : State :=
  l.foldl (fun t x => if before.lane x.1 == before.allowed x.1 x.2 then t.setLane x.1 x.2 else t.driveLane x.1 x.2) s

/-- The T-lanes of slices come to rest as the slices' modes say. -/
def State.restSlices (s : State) (sls : List Nat) : State :=
  (sls.foldl (fun t sl => (List.range 32).foldl (fun u c => u.setLane (32 * sl + c) .mid) t) s).driveFrom s (s.idleLevels sls)

/-- All T-lanes come to rest. -/
def State.restLanes (s : State) : State := (s.allLanes .mid).driveFrom s (s.idleLevels (List.range 32))

/-! ## Diagnostic runs (R195-R199) -/

/-- The 64-byte header of DIAG_RESULT (R199). -/
def State.diagHeader (s : State) (r : DiagRun) (complete : Bool) (done : Nat) : List Byte :=
  let sweep := s.get Key.diagSweep
  let sh := s.get Key.diagShmoo
  let x := if r.kind = 0 then 1 else field sweep 48 12 + 1
  let y := if r.kind = 2 then field sh 46 12 + 1 else 1
  leBytes 64 (packFields
    [(0, 32, 0x4744524B), (32, 2, r.kind), (34, 1, if r.lbk then 1 else 0), (35, 1, if complete then 1 else 0), (48, 11, r.channels.length), (64, 12, x - 1), (76, 12, y - 1),
     (96, 32, done), (128, 32, field sweep 0 32), (160, 16, field sweep 32 16), (176, 6, field sh 40 6), (192, 20, field sh 0 20), (212, 20, field sh 20 20),
     (256, 32, (s.get Key.diagPasses).toNat), (288, 11, r.channels.headD 0), (320, 64, r.loopTu), (384, 64, r.startRaw)])

/-- A diagnostic run ends: LBK low, lanes of its slices at rest, DACs as R269 and R197 say, and its result as given. -/
def State.endDiag (s : State) (r : DiagRun) (bytes : List Byte) : State :=
  let s := { s with diag := none, diagBytes := bytes }
  let s := (s.setLbk r.slices .low).restSlices r.slices
  let s := match r.shmooDac with
    | some (d, code) => s.put (Key.dacActive d) code
    | none => s
  let s := r.dacs.foldl (fun t d => if t.dacSource d = 2 then t.parkDac d else t) s
  s.put Key.diagResult (toWord bytes.length)

/-- One loop origin to the next point's (R198): DIAG_PASSES counted loops and one that is not, in tu; a LOOPBACK sequence lasts 32,768 slice ticks. -/
def State.pointTu (s : State) (r : DiagRun) : Nat := ((s.get Key.diagPasses).toNat + 1) * (if r.kind = 0 then 40960000 else r.loopTu)

/-- Settling of a code of a SHMOO (R197, R265): 35 µs for a voltage output, 60 µs for a current output. -/
def DiagRun.settleTu (r : DiagRun) : Nat := match r.shmooDac with | some x => if x.1 < 48 then 140000000 else 240000000 | none => 0

/-- Points of one code (R197). -/
def State.diagX (s : State) : Nat := if s.getF Key.diagCtrl 0 2 = 0 then 1 else s.getF Key.diagSweep 48 12 + 1

/-- How far a run is by now: the code in force, and the points complete. DESIGN CHOICE (log entry 147): points follow each other with no further delay than R197 and R198
state. -/
def State.diagProgress (s : State) (r : DiagRun) : Nat × Nat :=
  let ran := (s.raw - r.startRaw) * 5000
  let perCode := r.settleTu + s.diagX * s.pointTu r
  let j := ran / max 1 perCode
  (min j (r.points / max 1 s.diagX - 1), min r.points (j * s.diagX + min s.diagX ((ran % max 1 perCode - r.settleTu) / max 1 (s.pointTu r))))

/-- A run ends FAILED with ABORTED and keeps the points completed (R195). What they counted is open: no command says what their S-lanes showed (log entry 147). -/
def State.abortDiag (s : State) : State :=
  match s.diag with
  | none => s
  | some r =>
    let n := r.points * r.channels.length * (if r.kind = 3 then 8 else 4)
    ({ s with freeCount := s.freeCount + n }.endDiag r (s.diagHeader r false (s.diagProgress r).2 ++ openBytes s.freeCount n)).cmdFail Key.diagStart .aborted 0

/-- A run whose target slices meet the given ones ends. -/
def State.abortDiagOn (s : State) (sls : List Nat) : State :=
  match s.diag with
  | none => s
  | some r => if r.slices.any (fun x => sls.contains x) then s.abortDiag else s

/-! ## Disabled channels and slices (R67, R189) -/

/-- LANES_DISABLED counts the channels in STATE DISABLED (R189). -/
def State.refreshLanes (s : State) : State :=
  let isDisabled (kv : Nat × Word) : Bool :=
    keyArea kv.1 == 0x60 && decide (0x1000 ≤ keyObj kv.1) && decide (keyObj kv.1 ≤ 0x13FF) && keyEl kv.1 == 1 && field kv.2 0 2 == 2
  s.put Key.lanesDisabled (toWord (s.objs.countP isDisabled))

/-- A slice enters DISABLED as R67 states, which ends a diagnostic run on it, or leaves it for FOLLOW; one in slice CALIBRATE waits for the routine. -/
def State.refreshSlice (s : State) (sl : Nat) : State :=
  let m := s.sliceModeOf sl
  if m = 1 then s
  else if m ≠ 3 ∧ s.sliceDead sl then ((s.putSlice sl { s.slice sl with diagPlaced := false }).put (Key.sliceMode sl) 3).abortDiagOn [sl]
  else if m = 3 ∧ (s.slice sl).pllLocked ∧ (List.range 32).any (fun c => s.laneState (32 * sl + c) == 1) then s.put (Key.sliceMode sl) 0
  else s

/-- A channel is disabled with a cause (R189). -/
def State.disableChannel (s : State) (g cause : Nat) : State :=
  let s := (s.putF (Key.laneStatus g) 0 2 2).putF (Key.laneStatus g) 4 4 cause
  ((s.driveLane g .highZ).refreshLanes).refreshSlice (g / 32)

/-! ## Routines (R349-R354) -/

/-- ABANDONS of a request (R359). -/
def State.abandons (s : State) (slot : Nat) : Nat := s.getF (Key.reqResult slot) 32 8

/-- The routine context is free: BADGER_STATUS at rest (R359). -/
def badgerIdle : Word := 0xF0

/-- The DACs that a routine drove return to what they held before it (R349), but one that a fault has moved to its fault code. -/
def State.returnDacs (s : State) (r : Routine) : State :=
  r.held.foldl (fun t x => if t.dacSource x.1 ≠ 2 then t else if x.2.1 = 1 then t.parkDac x.1 else t.setDac x.1 x.2.1 x.2.2.toNat) s

/-- The stimulus on a routine's lanes and DACs ends and its slices return to FOLLOW (R188, R349). -/
def State.stopStimulus (s : State) (r : Routine) : State :=
  let s := (s.setLbk r.slices .low).returnDacs r
  let s := r.slices.foldl (fun t sl => if t.sliceModeOf sl = 1 then t.sliceFollow sl else t) s
  s.restSlices r.slices

/-- The routine is over; one past its commit has no stimulus on its lanes (R349, R351). -/
def State.endStimulus (s : State) (r : Routine) : State :=
  let s := if r.postCommit then s else s.stopStimulus r
  { s.put Key.badgerStatus badgerIdle with routine := none }

/-- An abandonment is counted (R354, R359). -/
def State.countAbandon (s : State) (slot : Nat) : State :=
  (s.count Key.abandonCount 32).putF (Key.reqResult slot) 32 8 (satTo 0xFF (s.abandons slot + 1))

/-- The routine is abandoned and its request returns to PENDING at its former place (R354). After its commit point it is not (R353). -/
def State.abandonRoutine (s : State) : State :=
  match s.routine with
  | none => s
  | some r => if r.postCommit then s else
    let s := (s.endStimulus r).countAbandon r.slot
    s.cmdPend (Key.reqCmd r.slot) (s.abandons r.slot)

/-- The routine is abandoned if it owns one of the slices (R352). -/
def State.abandonOn (s : State) (sls : List Nat) : State :=
  match s.routine with
  | none => s
  | some r => if r.slices.any (fun x => sls.contains x) then s.abandonRoutine else s

/-! ## Entering a mode -/

/-- The modes BURST, DIAGNOSE and ARMED, between which locks, derived threads and primed spans are kept (R72, R89, R93). -/
def keepsArmed (m : Nat) : Bool := m == Mode.armed || m == Mode.burst || m == Mode.diagnose

/-- A mode whose threads are armed: ARMED, BURST, or a DIAGNOSE entered from ARMED. -/
def State.heldArmed (s : State) : Bool :=
  s.mode == Mode.armed || s.mode == Mode.burst || (s.mode == Mode.diagnose && s.get Key.modeOrigin == 5)

/-- What leaving the present mode does. -/
def State.leaveMode (s : State) (m : Nat) : State :=
  let s := if s.mode = Mode.burst then { s.dormantThreads with burst := { Burst.none with records := s.burst.records } } else s
  let s := if s.heldArmed && !keepsArmed m then s.disarm else s
  let s := if s.mode = Mode.diagnose then
      let placed := (List.range 32).filter (fun sl => (s.slice sl).diagPlaced)
      placed.foldl (fun t sl => t.sliceFollow sl) (s.abortDiagOn placed)
    else s
  let s := if s.mode = Mode.train then s.setLbk (List.range 32) .low else s
  if s.mode = Mode.service then { s with guardStaged := [] }.putF Key.guardStatus 1 1 0 else s

/-- T-lanes and DACs on entry into a mode (R59, R269). Entry into ARMED and DIAGNOSE applies codes by a strobe of its own; outputs that a flush has released stay so. -/
def State.modeOutputs (s : State) (old m : Nat) : State :=
  if m = Mode.safe then s.restLanes.faultDacs
  else if m = Mode.service then (if old = Mode.safe then s.restLanes else s.restLanes.parkDacs)
  else if m = Mode.armed ∨ m = Mode.diagnose then s.restLanes
  else if m = Mode.burst then s
  else if m = Mode.quiesce then (if bit (s.get Key.quiesceStatus) 0 then s else (s.restLanes.setLbk (List.range 32) .low).parkDacs)
  else if m = Mode.train then s.trainLanesOn.parkDacs.driveTrigouts
  else s.restLanes.parkDacs

/-- The slices a DIAGNOSE entry places: those without an armed port and not DISABLED (R65). -/
def State.placeDiagnose (s : State) : State :=
  (List.range 32).foldl (fun t sl =>
    if t.sliceArmed sl || t.sliceModeOf sl == 3 || t.sliceModeOf sl == 2 then t
    else (t.putSlice sl { t.slice sl with diagPlaced := true }).put (Key.sliceMode sl) 2) s

/-- A mode in which no gap exists for any slice, whose entry abandons the routine (R68, R352). -/
def gapless (m : Nat) : Bool := !([Mode.idle, Mode.load, Mode.armed, Mode.burst, Mode.calibrate, Mode.service].contains m)

/-- The device enters a mode (R59, R62). -/
def State.enterMode (s : State) (m : Nat) : State :=
  let old := s.mode
  let s := if gapless m then s.abandonRoutine else s
  let s := if m = Mode.safe ∨ m = Mode.quiesce then s.abortDiag else s
  let s := { s.leaveMode m with calRan := false }
  let s := (s.put Key.deviceMode (toWord m)).count Key.modeChanges 32
  let s := { s with entering := none }
  let s := if m = Mode.safe ∨ m = Mode.quiesce then s.stopTrigouts else s
  let s := if m = Mode.quiesce then s.putF Key.wdogStatus 0 1 0 else s
  let s := s.modeOutputs old m
  let s := if m = Mode.diagnose then (s.put Key.modeOrigin (toWord old)).placeDiagnose else s
  let s := if m = Mode.safe then { s with ledger := { s.ledger with safeEntries := (s.ledger.safeEntries + 1) % 2 ^ 32 } } else s
  if m = Mode.safe ∨ old = Mode.safe then s.faultIrq else s

end Sys2Proof.Machine
end

