-- ==== Sys2Proof/Machine/FaultOps.lean ====
section
/-! DEFINITION. The fault collector (R368-R380): records, ordering, the actions of the severities, entry into SAFE (R63), the machine check (R371). -/

namespace Sys2Proof.Machine

/-! ## Cause, live and history -/

/-- Bit `src` of FAULT_CAUSE (R374). -/
def State.causeBit (s : State) (src : Nat) : Bool := s.mapBit Key.faultCause src

/-- Bit `src` of FAULT_LIVE. -/
def State.liveBit (s : State) (src : Nat) : Bool := s.mapBit Key.faultLive src

/-- The severity in force of a source (R372). -/
def State.severityOf (s : State) (src : Nat) : Nat := (s.get (Key.faultSeverity src)).toNat % 8

/-- A live fault bit (R374): the live bit of a source whose configured severity is PORT-STOP or higher. -/
def State.anyLiveFault (s : State) : Bool := (List.range 128).any (fun i => s.liveBit i && decide (Sev.portStop ≤ s.severityOf i))

/-- The first half of a fault record (R377). -/
def recordLow (src sev detail : Nat) (loc : Loc) (inj : Bool) : Word :=
  toWord (packFields [(0, 7, src), (7, 1, 1), (8, 3, sev), (12, 1, if inj then 1 else 0), (13, 3, locKind loc), (16, 12, locIndex loc), (32, 32, detail)])

/-- A raise is recorded (R375, R378): a history entry, and the first-fault record where that is empty. -/
def State.recordRaise (s : State) (r : Raise) (sev : Nat) : State :=
  let lo := recordLow r.source sev r.detail r.loc r.injected
  let q := (s.get Key.histCount).toNat
  let slot := q % 32
  let s := if 32 ≤ q && !s.histRead.contains slot then s.count Key.histLost 32 else s
  let s := (s.put (Key.histEntry slot 0) lo).put (Key.histEntry slot 1) (toWord s.raw)
  let s := { s with histRead := s.histRead.filter (fun x => x != slot) }
  let s := s.count Key.histCount 32
  let first := !bit (s.get (Key.firstFault 0)) 7
  let s := if first then (s.put (Key.firstFault 0) lo).put (Key.firstFault 1) (toWord s.raw) else s
  let s := { s with watch := ⟨r.source, q, first, false⟩ :: s.watch.filter (fun w => w.source != r.source) }
  if first || decide (Sev.degrade ≤ sev) then s.faultIrq else s

/-- A live bit clears: if no read of the cause element or the entry came first, CLEARED_BEFORE_READ is set in the entry and in the first-fault record (R379). -/
def State.clearLive (s : State) (src : Nat) : State :=
  let s := s.put (Key.faultLive (src / 64)) (setBit (s.get (Key.faultLive (src / 64))) (src % 64) false)
  let s := { s with liveLocs := s.liveLocs.filter (fun x => x.1 != src) }
  match s.watch.find? (fun w => w.source == src) with
  | none => s
  | some w =>
    let s := { s with watch := s.watch.filter (fun x => x.source != src) }
    if w.read then s
    else
      let s := if (s.get Key.histCount).toNat ≤ w.q + 32 then s.putF (Key.histEntry (w.q % 32) 0) 11 1 1 else s
      if w.first && field (s.get (Key.firstFault 0)) 0 7 == src && bit (s.get (Key.firstFault 0)) 7 then s.putF (Key.firstFault 0) 11 1 1 else s

/-- The bits and counters of a raise (R374, R375): cause bit, live bit, RAISES; the record where the cause bit was clear. The live bit of an event-type source is
clear again after its collector cycle. -/
def State.noteRaise (s : State) (r : Raise) (sev : Nat) : State :=
  let fresh := !s.causeBit r.source
  let s := s.countSat (Key.raises r.source) 32 1
  let s := (s.setMapBit Key.faultCause r.source).setMapBit Key.faultLive r.source
  let s := { s with liveLocs := if s.liveLocs.contains (r.source, r.loc) then s.liveLocs else s.liveLocs ++ [(r.source, r.loc)] }
  let s := if fresh then s.recordRaise r sev else s
  if lastingSource r.source && !r.injected then s else s.clearLive r.source

/-! ## Scope (R369) -/

/-- The slices a location names; none named means all 32. -/
def State.scopeSlices (s : State) : Loc → List Nat
  | .thread n => s.threadSlices n
  | .channel g => [g / 32]
  | .slice sl => [sl]
  | _ => List.range 32

/-- The threads PORT-STOP stops. -/
def State.scopeThreads (s : State) (loc : Loc) (own : List Nat) : List Nat :=
  own ++ (match loc with
    | .thread n => [n]
    | .channel g => (match s.ownerOf g with | some (th, _, _) => [th] | none => [])
    | .slice sl => s.threadsOnSlice sl
    | _ => [])

/-! ## Actions -/

/-- A mode change in progress ends FAILED with ABORTED (R64) and FS032 is raised (R373). The device is left in the mode it was leaving; what the request for ARMED
had locked and allocated is released, and a check run that it cuts short leaves LOAD_STATUS STALE. -/
def State.modeAbort (s : State) : State :=
  if s.cmdBusy Key.modeRequest then
    let d := s.getF Key.modeRequest 16 16
    let s := if s.mode = Mode.idle ∨ s.mode = Mode.load then s.disarm else s
    let s := if s.getF Key.loadStatus 0 3 = 1 then s.putF Key.loadStatus 0 3 4 else s
    let s := (s.cmdFail Key.modeRequest .aborted d).irq Irq.mode
    s.noteRaise { source := 32, loc := .none, detail := 0, injected := false } (s.severityOf 32)
  else s

/-- SLICE-SAFE (R368, R370): lanes of the slices to mid-level, their DACs to fault codes, their threads stopped, the slices parked. -/
def State.parkSlices (s : State) (sls : List Nat) : State :=
  let s := s.stopThreads (s.burst.threads.filter (fun th => (s.threadSlices th).any (fun x => sls.contains x))) Stop.faultStop
  let s := s.driveSlices sls .mid
  let s := (s.dacsOfSlices sls).foldl (fun t d => t.faultDac d) s
  let s := sls.foldl (fun t sl => t.putSlice sl { t.slice sl with parked := true }) s
  (s.abandonOn sls).abortDiagOn sls

/-- A machine check or a supply excursion between ARMED and the end of the audit (R23, R28): the threads stop and the audit is not run. One that has ended stands. -/
def State.cutAudit (s : State) (cause : Nat) : State :=
  if s.mode = Mode.armed then s.auditNotRun cause
  else if s.mode = Mode.burst ∧ s.burst.running then
    let s := (s.stopNow Stop.faultStop).auditNotRun cause
    { s with burst := { s.burst with running := false } }
  else s

/-- A power fail is on its way into QUIESCE (R419). -/
def State.fallingPower (s : State) : Bool := s.entering == some Mode.quiesce && !s.cmdBusy Key.modeRequest

/-- Entry into SAFE (R63): outputs parked, the mode change in progress aborted, the routine abandoned, threads stopped; SAFE is entered once the audit of a running
burst has reported, at once otherwise or where R28 forbids the audit (`noAudit` its cause). A power fail in progress goes before it (R419), but its audit falls to R28. -/
def State.safeEntry (s : State) (noAudit : Option Nat) : State :=
  if s.mode < Mode.train ∨ Mode.safe ≤ s.mode then s
  else if s.fallingPower then (match noAudit with | some c => s.cutAudit c | none => s)
  else
    let s := (s.allLanes .mid).faultDacs
    let s := s.modeAbort
    let s := s.abandonRoutine.abortDiag
    match noAudit with
    | some c => (s.cutAudit c).enterMode Mode.safe
    | none =>
      if s.mode = Mode.burst && s.burst.running then { s.stopAll Stop.faultStop with entering := some Mode.safe }
      else s.enterMode Mode.safe

/-- The SAFE latch is set with a cause (R381, R371); a MACHINE_CHECK cause stays. -/
def State.latch (s : State) (cause : Nat) : State :=
  if s.getF Key.safeStatus 1 2 = 3 then s else (s.putF Key.safeStatus 0 1 1).putF Key.safeStatus 1 2 cause

/-- The machine check (R371): every output parked in hardware, the cores, Badger and the DMA engines halted, every burst ended without an audit, SAFE latched. -/
def State.machineCheckEntry (s : State) : State :=
  let s := if s.mode < Mode.train ∨ bit (s.get Key.quiesceStatus) 0 then s else (s.allLanes .mid).faultDacs
  let s := { s.stopTrigouts with machineCheck := true, ledger := { s.ledger with machineChecks := (s.ledger.machineChecks + 1) % 2 ^ 32 } }
  let s := s.latch 3
  s.safeEntry (some 1)

/-- A lane fault on a channel (R190, R192, R206): the channel is disabled, and the site of a running port fails with it. -/
def State.laneHit (s : State) (r : Raise) : State :=
  match r.loc with
  | .channel g =>
    let s := s.disableChannel g (if r.source = 49 then 5 else 6)
    (match s.ownerOf g with
     | some (th, ord, o) =>
       if s.live th then
         let t := s.thread th
         (s.putThread th { t with laneFault := true, failedOrds := if t.failedOrds.contains ord then t.failedOrds else t.failedOrds ++ [ord] }).siteFails (siteOf o) 4
       else s
     | none => s)
  | _ => s

/-- The action of a lane fault at PORT-STOP (R192): in a MASKED group the site is masked from the next cycle boundary, otherwise the thread stops. -/
def State.laneAction (s : State) (g : Nat) : State :=
  match s.ownerOf g with
  | some (th, ord, o) =>
    if !s.live th then s
    else if 2 ≤ (s.members (s.groupOf th)).length ∧ !s.isSplit (s.groupOf th) then s.maskSite th ord o (s.thread th).started (s.thread th).startTu
    else s.stopThreads [th] Stop.faultStop
  | none => s

/-- PORT-STOP (R368). -/
def State.portStop (s : State) (r : Raise) (own : List Nat) : State :=
  match r.loc with
  | .channel g => if r.source = 49 ∨ r.source = 50 then s.laneAction g else s.stopThreads (s.scopeThreads r.loc own) Stop.faultStop
  | _ => s.stopThreads (s.scopeThreads r.loc own) Stop.faultStop

/-- The action of a severity (R368) on a raise; `own` are the threads that the source's own action names. Rail sources are supply excursions (R23, R28). -/
def State.act (s : State) (r : Raise) (sev : Nat) (own : List Nat) : State :=
  if sev ≤ Sev.degrade then s
  else if sev = Sev.portStop then s.portStop r own
  else if sev = Sev.sliceSafe then s.parkSlices (s.scopeSlices r.loc)
  else if sev = Sev.machineCheck then s.machineCheckEntry
  else
    let s := if sev = Sev.deviceLatch then s.latch 2 else s
    s.safeEntry (if r.source ≤ 6 then some 2 else none)

/-- The routine and the diagnostic run that a fault of PORT-STOP or higher ends by its location (R195, R352). -/
def State.faultOnRoutine (s : State) (loc : Loc) : State :=
  match loc with
  | .channel g =>
    let s := s.abandonOn [g / 32]
    (match s.diag with | some r => if r.channels.contains g then s.abortDiag else s | none => s)
  | .slice sl => (s.abandonOn [sl]).abortDiagOn [sl]
  | .dac d =>
    let s := (match s.routine with | some r => if r.dacs.contains d then s.abandonRoutine else s | none => s)
    (match s.diag with | some r => if r.kind = 2 ∧ r.shmooDac.map Prod.fst = some d then s.abortDiag else s | none => s)
  | _ => s

/-- A FAULT record for a raise recorded at DEVICE-SAFE or higher (R402); only the machine check's is exempt from the budget. -/
def State.faultRecord (s : State) (r : Raise) (sev : Nat) : State :=
  let p := [recordLow r.source sev r.detail r.loc r.injected, toWord s.raw]
  if sev = Sev.machineCheck then s.bbWrite 2 p else if Sev.deviceSafe ≤ sev then s.bbBudget 2 p else s

/-- One raise as the collector records it, with its black-box record. -/
def State.noteFull (s : State) (r : Raise) (sev : Nat) : State :=
  let fresh := !s.causeBit r.source
  let s := s.noteRaise r sev
  if fresh || sev == Sev.machineCheck then s.faultRecord r sev else s

/-- FS053 (R216): counted, noted in CAPTURE_STATUS during a burst (R206), and in the record of the thread whose slot it touched. -/
def State.sigChecked (s : State) (loc : Loc) : State :=
  let s := s.count Key.sigCheckCount 32
  let s := if s.burst.running then s.putF Key.captureStatus 5 1 1 else s
  match loc with
  | .thread n => s.putThread n { s.thread n with sigSuspect := true }
  | _ => s

/-- What one raise does beyond its record. A dry injection takes no action (R383). -/
def State.effects (s : State) (r : Raise) (sev : Nat) (own : List Nat) : State :=
  let s := if r.source = 49 ∨ r.source = 50 then s.laneHit r else s
  let s := if r.source = 53 ∧ (!r.injected || sev != Sev.note) then s.sigChecked r.loc else s
  let s := (match r.source, r.loc with | 61, .unit u => if r.injected then s else s.flagRecord u | _, _ => s)
  let s := if r.source = 54 ∧ !r.injected then s.dropStaged else s
  (if Sev.portStop ≤ sev then s.faultOnRoutine r.loc else s).act r sev own

/-- One raise: recorded, then its severity's action, which it takes also where its cause bit was set (R375). -/
def State.raiseAt (s : State) (r : Raise) (sev : Nat) (own : List Nat) : State := (s.noteFull r sev).effects r sev own

/-- One raise at the severity in force. -/
def State.raise (s : State) (r : Raise) : State := s.raiseAt r (s.severityOf r.source) []

/-- A raise of a source with a location. -/
def State.fault (s : State) (src : Nat) (loc : Loc) (detail : Nat) : State := s.raise { source := src, loc := loc, detail := detail, injected := false }

/-- Insertion by descending severity, then ascending source (R376). -/
def insertRaise (x : Nat × Raise) : List (Nat × Raise) → List (Nat × Raise)
  | [] => [x]
  | y :: r => if y.1 < x.1 ∨ (y.1 = x.1 ∧ x.2.source < y.2.source) then x :: y :: r else y :: insertRaise x r

/-- Raises in the order of R376, each with the severity given for its source. -/
def orderBy (sev : Nat → Nat) (rs : List Raise) : List (Nat × Raise) := rs.foldl (fun acc r => insertRaise (sev r.source, r) acc) []

/-- The raises of one collector cycle in the order of R376. -/
def orderRaises (s : State) (rs : List Raise) : List (Nat × Raise) := orderBy s.severityOf rs

/-- Ordered raises of one collector cycle: all are recorded, then take their actions (R376). -/
def State.collectAt (s : State) (ordered : List (Nat × Raise)) : State :=
  let s := ordered.foldl (fun t x => t.noteFull x.2 x.1) s
  ordered.foldl (fun t x => t.effects x.2 x.1 []) s

/-- The raises of one collector cycle (R376). -/
def State.collect (s : State) (rs : List Raise) : State := s.collectAt (orderRaises s rs)

/-- FS013 for every lane change that PRETRAIN_LIMIT suppressed (R386). -/
def State.guardRaise (s : State) : State :=
  if s.guardHits.isEmpty then s
  else { s with guardHits := [] }.collect (s.guardHits.map (fun g => { source := 13, loc := .channel g, detail := 0, injected := false }))

/-! ## Failed tags and torn records -/

/-- A batch with an invalid tag (R49); FS030 as more than 16 fall within one second (R373). -/
def State.authFailed (s : State) : State :=
  let recent := s.authTimes.filter (fun t => decide (s.raw < t + 800000000)) ++ [s.raw]
  let s := { s with authTimes := recent.drop (recent.length - 17) }.count Key.authFailCount 32
  if recent.length = 17 then s.fault 30 .none 0 else s

/-- A read of the black box skips the torn slots: BB_TORN counts them, and FS027 is raised once (R401). -/
def State.bbPass (s : State) : State :=
  if s.nvm.tornSlots.isEmpty then s
  else (s.put Key.bbTorn (toWord (((s.get Key.bbTorn).toNat + s.nvm.tornSlots.length) % 2 ^ 32))).fault 27 .none 0

/-! ## Injection (R383) -/

/-- The checkers of R373 that correct a single inverted bit: E. -/
def eccChecker (src : Nat) : Bool := [17, 21, 34, 38, 46, 54, 61, 66].contains src

/-- The source has a checker (R373). -/
def hasChecker (src : Nat) : Bool := eccChecker src || [15, 16, 18, 19, 35, 37, 53, 77].contains src || (decide (40 ≤ src) && decide (src ≤ 44))

/-- The checker of a source examines an item at a location (R383). An inversion that waits is taken: FAULT_INJECT reads DONE, and a failed check is raised, as NOTE under
DRY. `some false` tells a corrected error, `some true` a failed check. -/
def State.examine (s : State) (src : Nat) (loc : Loc) : State × Option Bool :=
  match s.injection with
  | none => (s, none)
  | some (x, double, dry) =>
    if x ≠ src then (s, none)
    else
      let s := { s with injection := none }.cmdDone Key.faultInject 0
      if eccChecker src && !double then (s, some false)
      else (s.raiseAt { source := src, loc := loc, detail := 0, injected := true } (if dry then Sev.note else s.severityOf src) [], some true)

end Sys2Proof.Machine
end

