-- ==== Sys2Proof/Machine/FailLog.lean ====
section
/-! DEFINITION. The way of a fail event from its slice through the capture engine's staging to the spill area (R207-R210), as time passes. -/

namespace Sys2Proof.Machine

/-- The oldest staged entry is checked as it is read (FS054), and written or discarded (R209). -/
def State.spillOne (s : State) : State :=
  match s.burst.staging with
  | [] => s
  | x :: _ =>
    let e := s.examine 54 .none
    if e.2 = some true then e.1.dropStaged else e.1.writeStaged x

/-- Up to `n` staged entries are spilled. -/
def State.spillMany : Nat → State → State
  | 0, s => s
  | n + 1, s => if s.burst.staging.isEmpty then s else s.spillOne.spillMany n

/-- Entries are spilled at SPILL_RESERVE up to a port time: 16 bytes an entry, so one in 64,000,000 MB/s times tu (R209). -/
def State.spill (s : State) (tu : Nat) : State :=
  let gain := s.burst.spillGain + (s.get Key.spillReserve).toNat * (tu - s.burst.spillTo)
  let n := gain / 64000000
  let s := { s with burst := { s.burst with
    spillTo := max tu s.burst.spillTo
    spillGain := if s.burst.staging.length ≤ n then 0 else gain % 64000000 } }
  s.spillMany (min n s.burst.staging.length)

/-- The drain of R26 completes the spill (R209). DEDUCED (log entry 57): no stream runs then, and SPILL_RESERVE does not hold it back. -/
def State.spillAll (s : State) : State :=
  let s := s.spillMany s.burst.staging.length
  { s with burst := { s.burst with judge := [] } }

/-- A fail event of a slice (R207): it waits in the slice's buffer on its way to the capture engine, or is dropped where the buffer is full. -/
def State.logFail (s : State) (cycle tu site port slice th bitmap : Nat) : State :=
  let b := s.judgeAt slice tu
  if b.events < judgeSlots then (s.putJudge slice { b with events := b.events + 1 }).admitFail cycle site port slice th bitmap
  else
    let bits := popCount 32 bitmap
    ((s.putJudge slice b).countBy Key.judgeDropped 64 bits).failOverflow site th bits

end Sys2Proof.Machine
end

