-- ==== Sys2Proof/Machine/DmaOps.lean ====
section
/-! DEFINITION. The DMA channels as operations (R333-R338): fetching, closing a descriptor with its completion entry and counts, aborting, halting. -/

namespace Sys2Proof.Machine

/-- A channel block. -/
def State.chan (s : State) (c : Nat) : DmaChan := mget DmaChan.rest s.dma c

/-- `s` with a channel block. -/
def State.putChan (s : State) (c : Nat) (d : DmaChan) : State := { s with dma := mset DmaChan.rest s.dma c d }

/-- The byte counts of the DMA channels start afresh (R333). -/
def State.clearDmaCounts (s : State) : State :=
  (List.range 8).foldl (fun t c => t.putChan c { t.chan c with reqBytes := 0, doneBytes := 0, abortBytes := 0 }) s

/-- A RUNNING channel fetches descriptors in index order while fewer than four are open (R334). -/
def DmaChan.fetch (d : DmaChan) : DmaChan :=
  let n := min (4 - d.opens.length) d.waiting.length
  if d.state ≠ 1 then d
  else
    let got := (d.waiting.take n).mapIdx (fun i x => (⟨x, (d.consumer + BitVec.ofNat 32 i).toNat, 0, 0⟩ : OpenDesc))
    { d with opens := d.opens ++ got, waiting := d.waiting.drop n, consumer := d.consumer + BitVec.ofNat 32 n }

/-- `s` with channel `c` having fetched what it may; descriptors lie in host memory, out of reach while the link is down (R341). -/
def State.fetchDescs (s : State) (c : Nat) : State := if s.pcieUp then s.putChan c (s.chan c).fetch else s

/-- The 16 bytes of a completion entry (R336). -/
def completionBytes (d : DmaChan) (x : OpenDesc) (code cause moved : Nat) : List Byte :=
  leBytes 16 (packFields [(0, 16, x.desc.tag.toNat), (16, 6, code), (22, 1, 1 - x.index / 2 ^ d.ringLog2 % 2), (24, 4, cause), (32, 32, x.index), (64, 32, moved)])

/-- The channel's interrupt (R343). -/
def State.dmaIrq (s : State) (c : Nat) : State := s.irq (Irq.dma c)

/-- The oldest open descriptor of a channel closes (R336-R338): its completion entry, DONE and the byte counts, its interrupt; with HALT_ON_ERR a failed one halts the
channel. -/
def State.closeOldest (s : State) (c code cause moved : Nat) : State :=
  let d := s.chan c
  match d.opens with
  | [] => s
  | x :: rest =>
    let len := x.desc.length
    let s := s.emit (.hostWrite (d.cplBase + 16 * (x.index % 2 ^ d.ringLog2)) (completionBytes d x code cause moved))
    let halt := d.haltOnErr && code != 0 && d.state == 1
    let s := s.putChan c { d with
      opens := rest, done := d.done + 1, reqBytes := d.reqBytes + len, doneBytes := d.doneBytes + moved, abortBytes := d.abortBytes + (len - moved)
      state := if halt then 3 else d.state }
    let s := if x.desc.irq then s.dmaIrq c else s
    let s := if halt then s.dmaIrq c else s
    s.fetchDescs c

/-- Bytes that the oldest open descriptor of a channel has moved. -/
def State.movedOf (s : State) (c : Nat) : Nat := match (s.chan c).opens with | x :: _ => x.moved | [] => 0

/-- Every open descriptor of a channel closes as aborted, for its bytes not yet moved, in index order (`fuel` bounds them by the four that may be open). -/
def State.abortOpen (s : State) (c code cause : Nat) : Nat → State
  | 0 => s
  | fuel + 1 => if (s.chan c).opens.isEmpty then s else (s.closeOldest c code cause (s.movedOf c)).abortOpen c code cause fuel

/-- The oldest descriptors close with their code while they are aborted (R147, R296). -/
def State.closeLost (s : State) (c : Nat) : Nat → State
  | 0 => s
  | fuel + 1 =>
    match (s.chan c).opens with
    | x :: _ => if x.abort ≠ 0 then (s.closeOldest c x.abort 0 x.moved).closeLost c fuel else s
    | [] => s

/-- A channel stops (R338): its open descriptors end ABORTED with CAUSE 6, and it reaches STOPPED. -/
def State.stopChannel (s : State) (c : Nat) : State :=
  if (s.chan c).state = 0 then s
  else
    let s := s.putChan c { s.chan c with state := 2 }
    let s := s.abortOpen c 0x21 6 4
    (s.putChan c { s.chan c with state := 0 }).dmaIrq c

end Sys2Proof.Machine
end

