-- ==== Sys2Proof/Machine/DramOps.lean ====
section
/-! DEFINITION. The DDR5 controller as operations (R276-R300): the address map and its rebuild, corrected and uncorrectable reads, the write queue, loss of a
sub-channel. -/

namespace Sys2Proof.Machine

/-! ## Configuration and the map (R277-R280) -/

/-- DRAM_CONFIG's fields. -/
def State.dramRate (s : State) : Nat := [4800, 5200, 5600, 6000, 6400].getD (s.getF Key.dramConfig 0 3) 6400
def State.dramX16 (s : State) : Bool := bit (s.get Key.dramConfig) 3
def State.dramRanks (s : State) : Nat := s.getF Key.dramConfig 6 1 + 1
def State.populated (s : State) : List Nat := (List.range 12).filter (fun i => bit (s.get Key.dramConfig) (8 + i))

/-- Bytes of one rank (R278). -/
def State.rankBytes (s : State) : Nat :=
  let gbit := [16, 24, 32].getD (s.getF Key.dramConfig 4 2) 32
  (if s.dramX16 then 2 else 4) * gbit * 2 ^ 27

/-- Bytes of one sub-channel. -/
def State.subchBytes (s : State) : Nat := s.dramRanks * s.rankBytes

/-- STATE of a sub-channel (R303). -/
def State.subchSt (s : State) (i : Nat) : Nat := s.getF (Key.subchStatus i) 0 3

/-- The sub-channels in the map, ascending (R279). -/
def State.enabled (s : State) : List Nat := (List.range 12).filter (fun i => bit (s.get Key.dramEnabled) i)

/-- What a sub-channel holds besides its objects. -/
def State.subch (s : State) (i : Nat) : SubchSt := mget SubchSt.rest s.subchs i

/-- `s` with it. -/
def State.putSubch (s : State) (i : Nat) (x : SubchSt) : State := { s with subchs := mset SubchSt.rest s.subchs i x }

/-- The sub-channel of a device address in the map, and the local address (R279). -/
def State.localOf (s : State) (a : Nat) : Nat × Nat :=
  let n := s.enabled.length
  let c := a / 256
  if n = 0 then (0, 0) else (s.enabled.getD (c % n) 0, c / n * 256 + a % 256)

/-- Rank, bank, row and burst of a local address (R280); bank counts group and bank together. -/
def State.cellOf (s : State) (l : Nat) : Nat × Nat × Nat × Nat :=
  let g := if s.dramX16 then 2 else 3
  let x := l % s.rankBytes
  (l / s.rankBytes, x / 256 % 2 ^ (g + 2), x / 2 ^ (14 + g), x / 64 % 4 + 4 * (x / 2 ^ (10 + g) % 16))

/-- Rows of a bank: a page of a rank holds 4 KiB (R276). -/
def State.bankRows (s : State) : Nat := s.rankBytes / (4096 * (if s.dramX16 then 16 else 32))

/-- DETAIL of a DRAM source (R377). -/
def dramDetail (sub lane : Nat) : Nat := sub + 16 * lane

/-- The map is built over the sub-channels that are ACTIVE, DEGRADED or pending (R279, R281, R154): capacity, peak, budget; nothing is kept, and the fill starts. -/
def State.buildMap (s : State) : State :=
  let on := (List.range 12).filter (fun i => 2 ≤ s.subchSt i ∧ s.subchSt i ≤ 4)
  let peak := on.length * 4 * s.dramRate
  let s := s.put Key.dramEnabled (toWord ((on.map (fun i => 2 ^ i)).sum))
  let s := s.put Key.dramCapacity (toWord (on.length * s.subchBytes))
  let s := (s.put Key.streamPeak (toWord peak)).put Key.streamBudget (toWord (peak * 4 / 5))
  let s := (s.countSat Key.dramMapGen 32 1).put Key.dramFill 0
  s.subchs.foldl (fun t x => t.putSubch x.1 { x.2 with queue := [] }) { s with cells := [], poison := [], waitingWrites := [], checkedPages := [], scrubNext := 0, scrubGain := 0 }.stale

/-- A TRAIN begins (R281, R292): every fitted sub-channel is TRAINING, and no address lies in a map until TRAIN builds one. -/
def State.trainStarts (s : State) : State :=
  let s := (List.range 12).foldl (fun t i => t.put (Key.subchStatus i) (if s.populated.contains i then 1 else 0)) s
  let s := (List.range 12).foldl (fun t i => (List.range 5).foldl (fun u j => u.put (Key.laneTrain i j) 0) t) s
  let s := [Key.dramEnabled, Key.dramCapacity, Key.dramFill].foldl (fun t k => t.put k 0) s
  { s with cells := [], poison := [], waitingWrites := [], checkedPages := [], subchs := [] }.stale

/-! ## Reads that meet errors (R297-R299) -/

/-- An uncorrectable read of a device address: FS066, UE_COUNT, UE_ADDRESS (R298). -/
def State.dramUe (s : State) (a : Nat) : State :=
  let sub := (s.localOf a).1
  let s := (s.countSat Key.ueCount 32 1).put Key.ueAddress (toWord a)
  s.fault 66 (.subch sub) (dramDetail sub 0xF)

/-- A corrected read (R299). -/
def State.dramCe (s : State) (a lane : Nat) : State :=
  let sub := (s.localOf a).1
  (s.countSat (Key.subchCe sub) 64 1).countSat (Key.laneCe sub (lane % 5)) 32 1

/-- A burst of the map is read from DRAM: the outcome of its check (R297), a poisoned burst being uncorrectable (R285), with its counts and raises; whether the data is
good. -/
def State.readBurst (s : State) (a : Nat) (ecc : Ecc) : State × Bool :=
  let x := s.examine 66 (.subch (s.localOf a).1)
  let s := if x.2 = some false then x.1.dramCe a 0 else x.1
  if s.poison.contains (a / 64) || x.2 == some true then (s.dramUe a, false)
  else match ecc with
    | .clean => (s, true)
    | .corrected lane => (s.dramCe a lane, true)
    | .uncorrectable => (s.dramUe a, false)

/-! ## The write queue (R283, R284) -/

/-- All 64 bytes. -/
def fullMask : Nat := 2 ^ 64 - 1

/-- The queued write of a burst. -/
def State.queued (s : State) (sub burst : Nat) : Option QEntry := (s.subch sub).queue.find? (fun q => q.burst == burst)

/-- A write joins the queue, merged into an entry of its burst (R284). -/
def State.enqueue (s : State) (sub burst mask : Nat) : State :=
  let x := s.subch sub
  match s.queued sub burst with
  | some _ => s.putSubch sub { x with queue := x.queue.map (fun q => if q.burst = burst then { q with mask := Nat.lor q.mask mask } else q) }
  | none => s.putSubch sub { x with queue := x.queue ++ [⟨burst, mask⟩] }

/-- A burst's queued write retires. -/
def State.retire (s : State) (sub burst : Nat) : State :=
  let x := s.subch sub
  s.putSubch sub { x with queue := x.queue.filter (fun q => q.burst != burst) }

/-- A drain retires the oldest writes until 16 are left (R283). -/
def State.drainQueue (s : State) (sub : Nat) : State :=
  let x := s.subch sub
  s.putSubch sub { x with queue := x.queue.drop (x.queue.length - 16) }

/-! ## The patrol scrub (R300) -/

/-- Raw ticks of one SCRUB_PERIOD: hours of 3,600 s at 800 MHz. -/
def State.scrubTicks (s : State) : Nat := (s.get Key.scrubPeriod).toNat * 2880000000000

/-- What the check of a scrub read finds (R297): cells go bad from outside, so each read's outcome is a free value (log entry 141). -/
def scrubFinds (w : Word) : Ecc :=
  match w.toNat % 8 with
  | 0 => .clean
  | 1 => .uncorrectable
  | n => .corrected (n % 5)

/-- The scrub reads the next burst of the map, corrects it under R299, and counts a pass at its end; a burst the fill has not reached, or that a queued write
matches (R284), is skipped. -/
def State.scrubBurst (s : State) : State :=
  let a := 64 * s.scrubNext
  let s := if a < (s.get Key.dramFill).toNat ∧ (s.queued (s.localOf a).1 s.scrubNext).isNone then let f := s.free; (f.2.readBurst a (scrubFinds f.1)).1 else s
  if (s.scrubNext + 1) * 64 < s.capacity then { s with scrubNext := s.scrubNext + 1 } else { s.countSat Key.scrubPasses 32 1 with scrubNext := 0 }

/-- One raw tick of the patrol scrub, which reads every burst of the map once per SCRUB_PERIOD, evenly, in every mode from IDLE to SAFE. -/
def State.scrub (s : State) : State :=
  if s.mode < Mode.idle ∨ Mode.safe < s.mode ∨ s.capacity = 0 then s
  else
    let gain := s.scrubGain + s.capacity / 64
    if gain < s.scrubTicks then { s with scrubGain := gain } else { s with scrubGain := gain - s.scrubTicks }.scrubBurst

/-! ## Loss of a sub-channel (R296) -/

/-- Open descriptors of a channel that read or write DDR5 are lost, for all their bytes; they close with DISABLED in index order. -/
def State.abortDram (s : State) (c : Nat) : State :=
  let d := s.chan c
  (s.putChan c { d with opens := d.opens.map (fun x => if x.desc.blob then x else { x with abort := 0x19 }) }).closeLost c 4

/-- Every sub-channel whose disabling is pending is disabled (R296): FS069, DDR5 descriptors aborted, the map rebuilt; burst starts are refused from then on. -/
def State.disablePending (s : State) : State :=
  let lost := (List.range 12).filter (fun i => s.subchSt i == 4)
  if lost.isEmpty then s
  else
    let s := lost.foldl (fun t i => (t.putF (Key.subchStatus i) 0 3 5).putF (Key.subchStatus i) 4 4 2) s
    let s := (List.range 8).foldl (fun t c => t.abortDram c) s
    let s := { s.buildMap with mapChanged := true }
    s.collect (lost.map (fun i => { source := 69, loc := .subch i, detail := dramDetail i 0xF, injected := false }))

end Sys2Proof.Machine
end

