-- ==== Sys2Proof/Machine/Operands.lean ====
section
/-! DEFINITION. Operand forms: the microword and its fields (R106-R109), the condition codes (R113), the message on the wire (R43), the fields of command
arguments. -/

namespace Sys2Proof.Machine

/-! ## The microword (R106-R108) -/

/-- A decoded microword. Format A words carry their REPEAT. -/
inductive Uop where
  | adv (rep : Nat)
  | segm (label : Nat) (trigen : Bool) (trigout rep : Nat)
  | trig (kind unit mask rep : Nat)
  | capc (fullcap judge sig rep : Nat)
  | flag (setuf clruf rcn : Nat) (rcpub rcval : Bool) (rep : Nat)
  | loop (ctr count rep : Nat)
  | halt (rep : Nat)
  | jmp (cond : Nat) (inv : Bool) (target : Int)
  | call (cond : Nat) (inv : Bool) (target : Int)
  | ret (cond : Nat) (inv : Bool)
  | lend (ctr : Nat) (target : Int)
  | pref (target : Int)
  | sync (partner : Nat) (send wait : Bool)
  | matchW (body timeout : Nat) (inv : Bool)
  | waittrig (source timeout : Nat)
  | waittime (time : Nat)
deriving DecidableEq, Repr

/-- TARGET as 32-bit two's complement (R110). -/
def targetBits (t : Int) : Nat := (t % 4294967296).toNat

/-- The condition codes that are not reserved (R113). -/
def condOk (c : Nat) : Bool := decide (c ≤ 2) || (decide (0x10 ≤ c) && decide (c ≤ 0x14)) || (decide (0x18 ≤ c) && decide (c ≤ 0x3F))

/-- A TARGET fits its field. -/
def targetOk (t : Int) : Bool := decide (-2147483648 ≤ t) && decide (t < 2147483648)

/-- Every field lies in the range R108 states. DESIGN CHOICE (log entry 126): TRIGOUT with TRIGEN 0, RCN and RCVAL with RCPUB 0, and PARTNER with neither SEND nor WAIT are
fields of their word, whatever they hold; R108 does not say whether such a word uses them. -/
def Uop.wf : Uop → Bool
  | .adv rep => decide (rep < 4294967296)
  | .segm label _ trigout rep => decide (label < 256) && decide (trigout < 16) && decide (rep < 4294967296)
  | .trig kind unit mask rep =>
    decide (kind ≤ 5) && decide (unit < (if kind ≤ 1 then 16 else if kind = 2 then 1 else 8)) && decide (mask < 65536) && (decide (kind = 2) || decide (mask = 0)) &&
      decide (rep < 4294967296)
  | .capc fullcap judge sig rep => decide (fullcap ≤ 2) && decide (judge ≤ 2) && decide (sig ≤ 3) && decide (rep < 4294967296)
  | .flag setuf clruf rcn _ _ rep => decide (setuf < 256) && decide (clruf < 256) && decide (rcn < 16) && decide (rep < 4294967296)
  | .loop ctr count rep => decide (ctr < 4) && decide (count < 16777216) && decide (rep < 4294967296)
  | .halt rep => decide (rep < 4294967296)
  | .jmp cond _ target => condOk cond && targetOk target
  | .call cond _ target => condOk cond && targetOk target
  | .ret cond _ => condOk cond
  | .lend ctr target => decide (ctr < 4) && targetOk target && decide (target ≤ 0)
  | .pref target => targetOk target
  | .sync partner _ _ => decide (partner < 16)
  | .matchW body timeout _ => decide (body < 65536) && decide (1 ≤ timeout) && decide (timeout < 16777216)
  | .waittrig source timeout => decide (source ≤ 17) && decide (timeout < 4294967296)
  | .waittime time => decide (time < 4294967296)

/-- The fields of a microword as lowest bit, width, value (R106, R108). -/
def Uop.fields : Uop → List (Nat × Nat × Nat)
  | .adv rep => [(0, 6, 0x00), (32, 32, rep)]
  | .segm label trigen trigout rep => [(0, 6, 0x01), (8, 8, label), (16, 1, b2n trigen), (17, 4, trigout), (32, 32, rep)]
  | .trig kind unit mask rep => [(0, 6, 0x02), (8, 4, kind), (12, 4, unit), (16, 16, mask), (32, 32, rep)]
  | .capc fullcap judge sig rep => [(0, 6, 0x03), (8, 2, fullcap), (10, 2, judge), (12, 2, sig), (32, 32, rep)]
  | .flag setuf clruf rcn rcpub rcval rep =>
    [(0, 6, 0x04), (8, 8, setuf), (16, 8, clruf), (24, 4, rcn), (28, 1, b2n rcpub), (29, 1, b2n rcval), (32, 32, rep)]
  | .loop ctr count rep => [(0, 6, 0x05), (6, 2, ctr), (8, 24, count), (32, 32, rep)]
  | .halt rep => [(0, 6, 0x06), (32, 32, rep)]
  | .jmp cond inv target => [(0, 6, 0x10), (6, 1, b2n inv), (8, 8, cond), (32, 32, targetBits target)]
  | .call cond inv target => [(0, 6, 0x11), (6, 1, b2n inv), (8, 8, cond), (32, 32, targetBits target)]
  | .ret cond inv => [(0, 6, 0x12), (6, 1, b2n inv), (8, 8, cond)]
  | .lend ctr target => [(0, 6, 0x13), (6, 2, ctr), (32, 32, targetBits target)]
  | .pref target => [(0, 6, 0x14), (32, 32, targetBits target)]
  | .sync partner send wait => [(0, 6, 0x18), (16, 4, partner), (20, 1, b2n send), (21, 1, b2n wait)]
  | .matchW body timeout inv => [(0, 6, 0x20), (6, 1, b2n inv), (16, 16, body), (32, 24, timeout)]
  | .waittrig source timeout => [(0, 6, 0x21), (16, 5, source), (32, 32, timeout)]
  | .waittime time => [(0, 6, 0x22), (32, 32, time)]

/-- The 64-bit microword of an operation. -/
def encodeWord (u : Uop) : Word := toWord (packFields u.fields)

/-- The operation an OPCODE and its fields spell, reserved bits not yet judged. -/
def parseWord (w : Word) : Option Uop :=
  let rep := field w 32 32
  match field w 0 6 with
  | 0x00 => some (.adv rep)
  | 0x01 => some (.segm (field w 8 8) (bit w 16) (field w 17 4) rep)
  | 0x02 => some (.trig (field w 8 4) (field w 12 4) (field w 16 16) rep)
  | 0x03 => some (.capc (field w 8 2) (field w 10 2) (field w 12 2) rep)
  | 0x04 => some (.flag (field w 8 8) (field w 16 8) (field w 24 4) (bit w 28) (bit w 29) rep)
  | 0x05 => some (.loop (field w 6 2) (field w 8 24) rep)
  | 0x06 => some (.halt rep)
  | 0x10 => some (.jmp (field w 8 8) (bit w 6) (signedField w 32 32))
  | 0x11 => some (.call (field w 8 8) (bit w 6) (signedField w 32 32))
  | 0x12 => some (.ret (field w 8 8) (bit w 6))
  | 0x13 => some (.lend (field w 6 2) (signedField w 32 32))
  | 0x14 => some (.pref (signedField w 32 32))
  | 0x18 => some (.sync (field w 16 4) (bit w 20) (bit w 21))
  | 0x20 => some (.matchW (field w 16 16) (field w 32 24) (bit w 6))
  | 0x21 => some (.waittrig (field w 16 5) (field w 32 32))
  | 0x22 => some (.waittime (field w 32 32))
  | _ => none

/-- Decoding a microword (R107-R109): a reserved opcode, field value or bit, or a field outside its range, is none. -/
def decodeWord (w : Word) : Option Uop :=
  match parseWord w with
  | some u => if u.wf && encodeWord u == w then some u else none
  | none => none

/-- The words that R116 counts as branching whether or not they are taken; a MATCH counts by its body's first row. -/
def Uop.branching : Uop → Bool
  | .jmp .. => true
  | .call .. => true
  | .ret .. => true
  | .lend .. => true
  | .matchW .. => true
  | _ => false

/-- The cycles of a row outside a wait (R104). -/
def Uop.cycles : Uop → Nat
  | .adv rep => rep + 1
  | .segm _ _ _ rep => rep + 1
  | .trig _ _ _ rep => rep + 1
  | .capc _ _ _ rep => rep + 1
  | .flag _ _ _ _ _ rep => rep + 1
  | .loop _ _ rep => rep + 1
  | .halt rep => rep + 1
  | _ => 1

/-- A row's branch target (R110). -/
def targetRow (row : Nat) (t : Int) : Nat := ((row : Int) + t).toNat

/-! ## The message on the wire (R43) -/

/-- The 128 bits of a message. -/
def encodeMessage (m : Message) : Nat :=
  packFields [(0, 8, m.opcode.toNat), (8, 1, b2n m.last), (9, 1, b2n m.dflt), (16, 6, m.status.toNat), (24, 8, m.index.toNat), (32, 32, m.key.toNat), (64, 64, m.value.toNat)]

/-- A field of a 128-bit number. -/
def nfield (n lo len : Nat) : Nat := n / 2 ^ lo % 2 ^ len

/-- The message of 128 bits; reserved bits are not part of it. -/
def decodeMessage (n : Nat) : Message :=
  { opcode := BitVec.ofNat 8 (nfield n 0 8), last := nfield n 8 1 == 1, dflt := nfield n 9 1 == 1, status := BitVec.ofNat 6 (nfield n 16 6),
    index := BitVec.ofNat 8 (nfield n 24 8), key := BitVec.ofNat 32 (nfield n 32 32), value := BitVec.ofNat 64 (nfield n 64 64) }

/-- The 16 bytes of a message, and of a batch header (R46). -/
def messageBytes (m : Message) : List Byte := leBytes 16 (encodeMessage m)

def headerBytes (b : Batch) : List Byte :=
  leBytes 16 (packFields [(0, 8, b.version.toNat), (8, 1, b2n b.atomic), (9, 1, b2n b.auth), (16, 8, b.count.toNat), (32, 32, b.session.toNat), (64, 64, b.counter.toNat)])

end Sys2Proof.Machine
end

