-- ==== Sys2Proof/Machine/Sequencer.lean ====
section
/-! DEFINITION. The Fox cores' side of a thread: the pattern image (R142-R145), issuing spans (R97, R104), conditions (R113, R114, R132), what each microword does
(R107-R112, R117-R130), waits and their resumption (R124-R127), priming (R93). -/

namespace Sys2Proof.Machine

/-! ## The pattern image (R138-R145) -/

/-- Bits of a row code of a port (R138). -/
def State.width (s : State) (o : Nat) : Nat := 2 ^ s.getF (Key.encCtrl o) 0 2

/-- The port object of member 0 of a thread's group. -/
def State.member0 (s : State) (th : Nat) : Nat := (s.members (s.groupOf th)).headD 0

/-- The first port object a thread serves itself: its own member 0 (R125). -/
def State.ownPort (s : State) (th : Nat) : Nat := ((s.served th).map Prod.snd).headD 0

/-- The device address of block `b` of a thread's image (R143). -/
def State.blockAddr (s : State) (th b : Nat) : Nat :=
  let g := s.groupOf th
  (s.get (Key.regionBase (s.get (Key.patRegion g)).toNat)).toNat + (s.get (Key.patOffset g)).toNat + b * (s.get (Key.patStride g)).toNat

/-- CTRL_MAP, DEFAULT_TS, ROW_COUNT, ENTRY_COUNT and FIRST_ROW of the header at an address (R144). -/
def State.ctrlMap (s : State) (a : Nat) : Nat := s.numAt a 32
def State.defaultTs (s : State) (a : Nat) : Nat := s.numAt (a + 32) 1 % 64
def State.rowCount (s : State) (a : Nat) : Nat := s.numAt (a + 34) 2
def State.entryCount (s : State) (a : Nat) : Nat := s.numAt (a + 36) 2
def State.firstRow (s : State) (a : Nat) : Nat := s.numAt (a + 38) 6

/-- The address of the control entry of row `i` of the block at `a`, if it has one (R145): entries stand in ascending row order. -/
def State.entryAddr (s : State) (a i : Nat) : Option Nat :=
  let m := s.ctrlMap a
  if m.testBit i then some (a + 64 + 16 * (bitsOf i m).length) else none

/-- The microword of a row; ADV with REPEAT 0 without an entry (R145). -/
def State.rowWord (s : State) (th row : Nat) : Word :=
  match s.entryAddr (s.blockAddr th (row / 256)) (row % 256) with
  | some e => toWord (s.numAt e 8)
  | none => 0

/-- The operation of a row, none where its word is refused (R109). -/
def State.uopAt (s : State) (th row : Nat) : Option Uop := decodeWord (s.rowWord th row)

/-- The timing set of a row (R144, R145). -/
def State.rowTs (s : State) (th row : Nat) : Nat :=
  let a := s.blockAddr th (row / 256)
  match s.entryAddr a (row % 256) with
  | some e => s.numAt (e + 8) 1 % 64
  | none => s.defaultTs a

/-- The first byte of the symbol section of the block at `a` (R144). -/
def State.symbolBase (s : State) (a : Nat) : Nat := a + 64 * ceilDiv (64 + 16 * s.entryCount a) 64

/-- The code of channel index `k` in a row (R144); N and w are those of member 0. -/
def State.rowCode (s : State) (th row k : Nat) : Nat :=
  let o := s.member0 th
  let w := s.width o
  let b := (row % 256 * (s.channels o).length + k) * w
  nfield (s.numAt (s.symbolBase (s.blockAddr th (row / 256)) + b / 8) 1) (b % 8) w

/-- The canonical symbol (R136) a code stands for on channel index `k` of port `o`, through the port's own maps (R138, R140). -/
def State.mapSymbol (s : State) (o k code : Nat) : Nat :=
  let m := s.getF (Key.mapSelect o (k / 32)) (2 * (k % 32)) 2
  s.getF (Key.map o m) (4 * code) 4

/-- The symbol of a row on channel index `k` of port `o`. -/
def State.symbol (s : State) (th o row k : Nat) : Nat := s.mapSymbol o k (s.rowCode th row k)

/-- The period of a timing set in tu, from the group thread's table (R159, R160): 0 encodes 2^32. -/
def State.periodOf (s : State) (th ts : Nat) : Nat :=
  let p := (s.get (Key.period (s.groupOf th) ts)).toNat
  if p = 0 then 2 ^ 32 else p

/-- The period of a row's cycles. -/
def State.rowPeriod (s : State) (th row : Nat) : Nat := s.periodOf th (s.rowTs th row)

/-! ## States of a thread -/

/-- 128 ns in tu: the wake lead (R124) and the condition horizon (R114). -/
def lead : Nat := 512000

/-- A dependence counter forbids running (R91). -/
def Thread.depends (t : Thread) : Bool := decide (t.depFetch ≠ 0) || decide (0 < t.depSync) || t.depTrig || t.depTime

/-- A token of the thread is held back by its receiver (R91). -/
def State.heldByToken (s : State) (th : Nat) : Bool := s.threads.any (fun x => x.2.heldTokens.any (fun y => y.1 == th))

/-- A thread enters HELD (R99): it leaves its core, and HELD_EVENTS counts it (R102). -/
def State.holdThread (s : State) (th : Nat) : State :=
  ((s.putThread th { s.thread th with core := none }).setThreadSt th Th.held).count Key.heldEvents 64

/-- A thread that nothing but a credit keeps from running: READY, or HELD without the credit (R91). -/
def State.enterReady (s : State) (th : Nat) : State :=
  if (s.thread th).depends then s.setThreadSt th Th.waiting
  else if s.hasCredit th && !s.heldByToken th then (s.putThread th { s.thread th with readySince := s.raw, waits := false }).setThreadSt th Th.ready
  else s.holdThread th

/-- The state a thread takes after a word (R91, R95, R99): it keeps its core while RUNNING or MATCHING; a MATCH reads MATCHING from its first pass on (R128). -/
def State.settleThread (s : State) (th : Nat) : State :=
  let t := s.thread th
  if t.lastRow then s.putThread th { t with core := none }
  else if t.matchRun.isSome then s
  else if t.depends then (s.putThread th { t with core := none }).setThreadSt th Th.waiting
  else if s.hasCredit th then s
  else s.holdThread th

/-! ## Issuing (R25, R97, R104) -/

/-- A span of `n` cycles of a row is issued: it takes the next sequence number and a credit on every slice, unless it is staged outside the share (R120). -/
def State.issue (s : State) (th row n : Nat) (f : Span → Span) : State :=
  let t := s.thread th
  let sp : Span :=
    { seq := t.spanSeq, row := row, first := t.cycles, left := n, judgeMasked := t.judgeMasked, capture := t.capture, sigHeld := t.sigHeld, sigReset := false,
      inMatch := false, maskedOrds := t.siteMask, waiting := false, halts := false, stops := none, staged := t.stagedNext, took := none, event := .none, snap := none }
  let s := s.putThread th { t with
    spanSeq := (t.spanSeq + 1) % 2 ^ 32, cycles := t.cycles + n, issueTu := t.issueTu + n * s.rowPeriod th row, spans := t.spans ++ [f sp], stagedNext := false }
  (if t.stagedNext then s else s.takeCredits th).countIssued th n

/-- The row at PC is issued for `n` cycles and the next row is the sequential one. -/
def State.advance (s : State) (th n : Nat) (f : Span → Span) : State :=
  let pc := (s.thread th).pc
  let s := s.issue th pc n f
  s.putThread th { s.thread th with pc := pc + 1 }

/-- A row is pinned in the local store (R149). -/
def Thread.pinned (t : Thread) (row : Nat) : Bool := t.pins.any (fun r => decide (r.1 ≤ row) && decide (row ≤ r.2))

/-- A row is resident (R150): pinned, or the start row of the alternate stream. -/
def Thread.resident (t : Thread) (row : Nat) : Bool := t.pinned row || t.altRow == some row

/-- The next row is a taken branch's target. The alternate stream stays held until it is replaced (R151); for a row that is not resident the core needs a fetch (R91). -/
def State.goTo (s : State) (th row : Nat) : State :=
  let t := s.thread th
  s.putThread th { t with
    pc := row, depFetch := if t.resident row then t.depFetch else min 16 (t.depFetch + 1), block := if t.pinned row then t.block else row / 256 }

/-- The core needs the next row (R91, R99): where it is streamed and begins another block, the core may find that fetches for it are not complete. Which rows the fetch engine
has brought into the local store by then the spec does not fix: the number of requests still outstanding is a free value, 0 to 16 (log entry 145). -/
def State.needRows (s : State) (th : Nat) : State :=
  let t := s.thread th
  if t.lastRow || t.pinned t.pc || t.pc / 256 == t.block then s
  else
    let f := s.free
    f.2.putThread th { t with block := t.pc / 256, depFetch := min 16 (t.depFetch + f.1.toNat % 17) }

/-! ## Conditions (R113, R114, R132) -/

/-- SFAIL or SSEG (`seg`) of a member: a failing judged compare within the horizon. -/
def Thread.sees (t : Thread) (seg : Bool) (ord : Nat) : Bool :=
  t.fails.any (fun f => f.ord == ord && decide (f.tu + lead ≤ t.issueTu) && (!seg || decide (t.segStart ≤ f.cycle)))

/-- The unmasked members a thread serves. -/
def State.openOrds (s : State) (th : Nat) : List Nat := ((s.served th).map Prod.fst).filter (fun o => !(s.thread th).siteMask.contains o)

/-- The conditions that look at compares. -/
def failCond (c : Nat) : Bool := c == 0x01 || c == 0x02 || c == 0x10 || c == 0x11

/-- The conditions on host flags and on ring conditions. -/
def flagCond (c : Nat) : Bool := decide (0x20 ≤ c) && decide (c ≤ 0x3F)

/-- Every cycle the horizon covers at the next word has executed (R114). -/
def Thread.covered (t : Thread) : Bool := decide (t.issueTu < lead + t.startTu)

/-- A port condition before INV: a ring condition as it stands at the word's port time (R235), a host flag as it stood 128 ns before it (R114). -/
def State.portCond (s : State) (th c : Nat) : Bool :=
  let t := s.thread th
  if c = 0x10 then (s.openOrds th).any (t.sees false)
  else if c = 0x11 then (s.openOrds th).any (t.sees true)
  else if c = 0x12 then t.mto
  else if c = 0x13 then t.wto
  else if c = 0x14 then t.wlate
  else if 0x18 ≤ c ∧ c ≤ 0x1F then t.uf.getLsbD (c - 0x18)
  else if 0x20 ≤ c ∧ c ≤ 0x2F then (s.ring.conditionsAt (s.tickOf t.issueTu)).getLsbD (c - 0x20)
  else if 0x30 ≤ c ∧ c ≤ 0x3F then bit (s.flagsAt ((t.issueTu : Int) - lead)) (c - 0x30)
  else true

/-- Whether a branch is taken, and the members masked from its cycle (R132): a site condition keeps the sites on which it holds; with none unmasked it is not taken. -/
def State.branch (s : State) (th c : Nat) (inv : Bool) : Bool × List Nat :=
  if c = 0x01 ∨ c = 0x02 then
    let o := s.openOrds th
    let yes := o.filter (fun x => Bool.xor ((s.thread th).sees (c == 0x02) x) inv)
    if yes.isEmpty then (false, []) else (true, if s.isSplit (s.groupOf th) then [] else o.filter (fun x => !yes.contains x))
  else (Bool.xor (s.portCond th c) inv, [])

/-- PFAIL and PSEG of FAIL_STATE are those at the last word executed (R115): that word's port time, segment and unmasked members are kept, a SEGM's own segment with it. -/
def State.noteWord (s : State) (th : Nat) (u : Uop) : State :=
  let t := s.thread th
  let start := match u with | .segm .. => t.cycles | _ => t.segStart
  s.putThread th { t with seen := ⟨t.issueTu, start, s.openOrds th⟩ }

/-- PFAIL and PSEG (`seg`) at the last word executed (R113-R115). -/
def Thread.failFlag (t : Thread) (seg : Bool) : Bool :=
  t.fails.any (fun f => t.seen.ords.contains f.ord && decide (f.tu + lead ≤ t.seen.tu) && (!seg || decide (t.seen.segStart ≤ f.cycle)))

/-- Members are masked from the word's cycle on (R132). -/
def State.maskOrds (s : State) (th : Nat) (ords : List Nat) : State :=
  let t := s.thread th
  s.putThread th { t with siteMask := t.siteMask ++ ords.filter (fun o => !t.siteMask.contains o) }

/-! ## The words -/

/-- What the core holds before a row that begins a segment. -/
def Thread.snapshot (t : Thread) : Snap :=
  { stack := t.stack, loops := t.loops, siteMask := t.siteMask, seen := t.seen, mto := t.mto, wto := t.wto, wlate := t.wlate, uf := t.uf,
    segLabel := t.segLabel, segCount := t.segCount, segStart := t.segStart, issueTu := t.issueTu, judgeMasked := t.judgeMasked, capture := t.capture, sigHeld := t.sigHeld }

/-- The event of a TRIG row (R118), by KIND. -/
def trigEvent (kind unit mask : Nat) : RowEvent :=
  match kind with
  | 0 => .trigout unit
  | 1 => .tiuArm unit
  | 2 => .adcStart mask
  | 3 => .dacLoad unit
  | 4 => .acqArm unit
  | 5 => .ring unit
  | _ => .none

/-- SEGM (R117). -/
def State.wordSegm (s : State) (th label : Nat) (trigen : Bool) (trigout rep : Nat) : State :=
  let t := s.thread th
  let snap := t.snapshot
  let s := s.putThread th { t with segLabel := label, segCount := t.segCount + 1, segStart := t.cycles }
  s.advance th (rep + 1) (fun x => { x with snap := some snap, event := if trigen then .trigout trigout else .none })

/-- CAPC's effect on what the following strobes get (R204). -/
def State.capcFlags (s : State) (th fullcap judge sig : Nat) : State :=
  let t := s.thread th
  s.putThread th { t with
    capture := if fullcap = 1 then some true else if fullcap = 2 then some false else t.capture
    judgeMasked := if judge = 1 then true else if judge = 2 then false else t.judgeMasked
    sigHeld := if sig = 2 then true else if sig = 3 then false else t.sigHeld }

/-- FLAG (R108): a flag named in both masks is cleared, then set. -/
def State.wordFlag (s : State) (th setuf clruf rcn : Nat) (rcpub rcval : Bool) (rep : Nat) : State :=
  let t := s.thread th
  let s := s.putThread th { t with uf := (t.uf &&& ~~~(BitVec.ofNat 8 clruf)) ||| BitVec.ofNat 8 setuf }
  s.advance th (rep + 1) (fun x => { x with event := if rcpub then .ringCond rcn rcval else .none })

/-- Loop counter `i` of a thread. -/
def Thread.loop (t : Thread) (i : Nat) : LoopCtr := t.loops.getD i ⟨0, false⟩

/-- Loop counter `i` set. -/
def Thread.setLoop (t : Thread) (i : Nat) (c : LoopCtr) : Thread := { t with loops := t.loops.set i c }

/-- LOOP (R111). -/
def State.wordLoop (s : State) (th ctr count rep : Nat) : State :=
  (s.putThread th ((s.thread th).setLoop ctr ⟨count, true⟩)).advance th (rep + 1) id

/-- LEND (R111): it counts an active counter above 0 down and goes to its target; at 0, or inactive, it continues sequentially. -/
def State.wordLend (s : State) (th ctr : Nat) (target : Int) : State :=
  let t := s.thread th
  let c := t.loop ctr
  let back := targetRow t.pc target
  let s := s.advance th 1 id
  if !c.active then s
  else if c.count = 0 then s.putThread th ((s.thread th).setLoop ctr ⟨0, false⟩)
  else (s.putThread th ((s.thread th).setLoop ctr ⟨c.count - 1, true⟩)).goTo th back

/-- HALT (R112). -/
def State.wordHalt (s : State) (th rep : Nat) : State :=
  let s := s.advance th (rep + 1) (fun x => { x with halts := true })
  s.putThread th { s.thread th with lastRow := true }

/-- A row that stops the thread at the first cycle it would have occupied (R112, R135): its cycle is issued to be flushed. -/
def State.wordStop (s : State) (th reason : Nat) : State :=
  let s := s.issue th (s.thread th).pc 1 (fun x => { x with stops := some reason })
  s.putThread th { s.thread th with lastRow := true }

/-- JMP. -/
def State.wordJmp (s : State) (th c : Nat) (inv : Bool) (target : Int) : State :=
  let b := s.branch th c inv
  let row := targetRow (s.thread th).pc target
  let s := (s.maskOrds th b.2).advance th 1 id
  if b.1 then s.goTo th row else s

/-- CALL (R112): a stack of 8 stops the thread. One taken from a row that is not pinned makes the stream it leaves the alternate (R150). -/
def State.wordCall (s : State) (th c : Nat) (inv : Bool) (target : Int) : State :=
  let b := s.branch th c inv
  let t := s.thread th
  if b.1 && decide (8 ≤ t.stack.length) then s.wordStop th Stop.stackOvf
  else
    let row := targetRow t.pc target
    let pinned := t.pinned t.pc
    let s := (s.maskOrds th b.2).advance th 1 id
    if b.1 then
      let s := (s.putThread th { s.thread th with stack := (s.thread th).stack ++ [t.pc + 1] }).goTo th row
      if pinned then s else s.putThread th { s.thread th with altRow := some (t.pc + 1) }
    else s

/-- RET (R112): an empty stack stops the thread. -/
def State.wordRet (s : State) (th c : Nat) (inv : Bool) : State :=
  let b := s.branch th c inv
  let t := s.thread th
  if b.1 && t.stack.isEmpty then s.wordStop th Stop.stackUnf
  else
    let s := (s.maskOrds th b.2).advance th 1 id
    if b.1 then (s.putThread th { s.thread th with stack := t.stack.dropLast }).goTo th (t.stack.getLastD 0) else s

/-- PREF (R151). -/
def State.wordPref (s : State) (th : Nat) (target : Int) : State :=
  let row := targetRow (s.thread th).pc target
  let s := s.advance th 1 id
  s.putThread th { s.thread th with altRow := some row }

/-- Cycles of a wait row whose first cycle starts at `first` for a wake time (R124): up to the repeat before the resume cycle, at least one. -/
def waitCycles (wake first period : Nat) : Nat := max 1 (ceilDiv (wake - first) period)

/-- A waiting word begins its open repeat (R124). -/
def State.beginWait (s : State) (th : Nat) (k : WaitKind) (wake : Option Nat) (ev : RowEvent) : State :=
  let t := s.thread th
  let w : WaitRun := { kind := k, first := t.cycles, firstTu := t.issueTu, wake := wake }
  let s := s.advance th 1 (fun x => { x with waiting := true, event := ev })
  s.putThread th { s.thread th with waitRun := some w }

/-- The SYNC of a thread's own port with a port of its site lies on another device (R236). -/
def State.remotePort (s : State) (site p : Nat) : Bool := bit (s.get (Key.remotePorts site)) p

/-- The armed thread that runs a port object. -/
def State.runner (s : State) (o : Nat) : Option Nat := s.armedThreads.find? (fun th => (s.served th).any (fun x => x.2 == o))

/-- Site and destination port of a TOKEN (R227). -/
def tokenSite (f : Flit) : Nat := f.payload.toNat % 512
def tokenDst (f : Flit) : Nat := f.payload.toNat / 512 % 16

/-- The armed thread of this device that a TOKEN is for. -/
def State.tokenThread (s : State) (f : Flit) : Option Nat :=
  if s.remotePort (tokenSite f) (tokenDst f) then none else s.runner (16 * tokenSite f + tokenDst f)

/-- The bank places of a thread that are taken (R237): banked tokens and claimed ones whose DUE has not passed. -/
def State.placesTaken (s : State) (th : Nat) : Nat :=
  (s.thread th).banked.length + (s.ring.due.filter (fun g => g.typ == 6 && g.mark && s.tokenThread g == some th)).length

/-- A token held back is banked with its event time, and its sender becomes READY (R91). -/
def State.bankHeld (s : State) (th : Nat) : State :=
  let t := s.thread th
  match t.heldTokens with
  | [] => s
  | (sender, time) :: r =>
    if 15 ≤ s.placesTaken th then s
    else
    let s := s.putThread th { t with heldTokens := r, banked := t.banked ++ [time], depSync := t.depSync - 1 }
    if s.threadSt sender = Th.held then s.enterReady sender else s

/-- SYNC (R125). -/
def State.wordSync (s : State) (th partner : Nat) (send wait : Bool) : State :=
  let t := s.thread th
  let own := s.ownPort th
  let ev : RowEvent := if send then .token (siteOf own) partner (portOf own) else .none
  if !wait then s.advance th 1 (fun x => { x with event := ev })
  else match t.banked with
    | tok :: rest =>
      let n := waitCycles (tok + lead) t.issueTu (s.rowPeriod th t.pc)
      let s := s.advance th n (fun x => { x with event := ev, took := some tok })
      let t := s.thread th
      (s.putThread th { t with banked := rest, depSync := t.depSync + 1 }).bankHeld th
    | [] =>
      let s := s.beginWait th .sync none ev
      s.putThread th { s.thread th with depSync := (s.thread th).depSync + 1 }

/-- WAITTRIG (R126). -/
def State.wordWaittrig (s : State) (th source timeout : Nat) : State :=
  let s := s.beginWait th (.trig source timeout) none .none
  s.putThread th { s.thread th with depTrig := true }

/-- WAITTIME (R127): late where TIME lies before the row's first cycle. -/
def State.wordWaittime (s : State) (th time : Nat) : State :=
  let t := s.thread th
  let wake := time * 40000
  if wake < t.issueTu then (s.putThread th { t with wlate := true }).advance th 1 id
  else
    let s := (s.putThread th { t with wlate := false }).beginWait th (.time wake) (some wake) .none
    s.putThread th { s.thread th with depTime := true }

/-! ## MATCH (R128-R130) -/

/-- A row of a MATCH body, or ADV, TRIG, CAPC outside one: its action at issue and its cycles. -/
def State.bodyRow (s : State) (th row : Nat) (u : Uop) (inMatch : Bool) : State :=
  match u with
  | .trig kind unit mask rep => s.issue th row (rep + 1) (fun x => { x with event := trigEvent kind unit mask, inMatch := inMatch })
  | .capc fullcap judge sig rep =>
    (s.capcFlags th fullcap judge sig).issue th row (rep + 1) (fun x => { x with sigReset := sig == 1, inMatch := inMatch })
  | u => s.issue th row u.cycles (fun x => { x with inMatch := inMatch })

/-- Length in cycles and duration in tu of a body (R128). -/
def State.bodyLength (s : State) (th row body : Nat) : Nat × Nat :=
  (List.range (body + 1)).foldl (fun acc i =>
    let n := match s.uopAt th (row + i) with | some u => u.cycles | none => 1
    (acc.1 + n, acc.2 + n * s.rowPeriod th (row + i))) (0, 0)

/-- The decision lead D in passes (R130). -/
def MatchRun.leadPasses (m : MatchRun) : Nat := ceilDiv 384000 m.dur

/-- Pmax (R130). -/
def MatchRun.lastTimely (m : MatchRun) : Nat := ceilDiv m.timeout m.len - 1

/-- A pass may be issued that is certain to run: through the exit pass once known, else through D passes after the one in execution. -/
def MatchRun.mayIssue (m : MatchRun) : Bool := decide (m.issuing ≤ m.exit.getD (m.pass + m.leadPasses))

/-- The core issues body rows while credits last (`fuel` bounds them by the span share). -/
def State.feedMatch (s : State) (th : Nat) : Nat → State
  | 0 => s
  | fuel + 1 =>
    match (s.thread th).matchRun with
    | none => s
    | some m =>
      if m.mayIssue && s.hasCredit th then
        let row := m.row + m.nextRow
        let u := (s.uopAt th row).getD (.adv 0)
        let s := (s.noteWord th u).bodyRow th row u true
        let m := if m.nextRow < m.body then { m with nextRow := m.nextRow + 1 } else { m with nextRow := 0, issuing := m.issuing + 1 }
        (s.putThread th { s.thread th with matchRun := some m }).feedMatch th fuel
      else s

/-- MATCH (R128-R130): the body's passes begin; with no unmasked site it runs passes 0 to D. -/
def State.wordMatch (s : State) (th body timeout : Nat) (inv : Bool) : State :=
  let t := s.thread th
  let l := s.bodyLength th t.pc body
  let served := s.openOrds th
  let m : MatchRun :=
    { row := t.pc, body := body, timeout := timeout, inv := inv, first := t.cycles, firstTu := t.issueTu, len := l.1, dur := l.2, served := served, met := [],
      placed := [], failed := [], pass := 0, nextRow := 0, issuing := 0, exit := none, timedOut := false }
  let m := if served.isEmpty then { m with exit := some m.leadPasses } else m
  (s.putThread th { t with matchRun := some m }).feedMatch th 256

/-- A pass has executed (R129, R130): the members that meet the condition in it, and the exit pass once every member has met it or the last timely pass is over. -/
def MatchRun.endPass (m : MatchRun) : MatchRun :=
  let now := m.served.filter (fun o => m.placed.contains o && (m.failed.contains o == m.inv) && !m.met.any (fun x => x.1 == o))
  let met := if m.pass ≤ m.lastTimely then m.met ++ now.map (fun o => (o, m.pass)) else m.met
  let all := m.served.all (fun o => met.any (fun x => x.1 == o))
  let exit := match m.exit with
    | some e => some e
    | none => if all then some (m.pass + m.leadPasses) else if m.lastTimely ≤ m.pass then some (m.lastTimely + m.leadPasses) else none
  { m with met := met, placed := [], failed := [], pass := m.pass + 1, exit := exit, timedOut := m.timedOut || (m.exit.isNone && exit.isSome && !all) }

/-! ## Running a word -/

/-- What a microword does, read at PC (R104-R130). -/
def State.word (s : State) (th : Nat) (u : Uop) : State :=
  match u with
  | .adv rep => s.advance th (rep + 1) id
  | .segm label trigen trigout rep => s.wordSegm th label trigen trigout rep
  | .trig kind unit mask rep => s.advance th (rep + 1) (fun x => { x with event := trigEvent kind unit mask })
  | .capc fullcap judge sig rep => (s.capcFlags th fullcap judge sig).advance th (rep + 1) (fun x => { x with sigReset := sig == 1 })
  | .flag setuf clruf rcn rcpub rcval rep => s.wordFlag th setuf clruf rcn rcpub rcval rep
  | .loop ctr count rep => s.wordLoop th ctr count rep
  | .halt rep => s.wordHalt th rep
  | .jmp c inv target => s.wordJmp th c inv target
  | .call c inv target => s.wordCall th c inv target
  | .ret c inv => s.wordRet th c inv
  | .lend ctr target => s.wordLend th ctr target
  | .pref target => s.wordPref th target
  | .sync partner send wait => s.wordSync th partner send wait
  | .matchW body timeout inv => s.wordMatch th body timeout inv
  | .waittrig source timeout => s.wordWaittrig th source timeout
  | .waittime time => s.wordWaittime th time

/-- The condition code of a word that has one. -/
def Uop.cond : Uop → Option Nat
  | .jmp c _ _ => some c
  | .call c _ _ => some c
  | .ret c _ => some c
  | _ => none

/-- The burst has been launched, and 128 ns before the word's port time has come (R114). -/
def State.horizonPast (s : State) (th : Nat) : Bool := s.burst.launched && decide (((s.thread th).issueTu : Int) ≤ s.portTime s.nowTick + lead)

/-- The word's condition looks at compares that the slices have not yet all judged, or at flags whose instant has not come: the core waits for them (R114). -/
def State.horizonOpen (s : State) (th : Nat) (u : Uop) : Bool :=
  match u.cond with
  | some c => (failCond c && !(s.thread th).covered) || (flagCond c && !s.horizonPast th)
  | none => false

/-- A thread executes microwords: RUNNING in BURST, with a row still to come and no MATCH in progress (R74). -/
def State.executes (s : State) (th : Nat) : Bool :=
  s.mode == Mode.burst && s.threadSt th == Th.running && !(s.thread th).lastRow && (s.thread th).matchRun.isNone && !s.machineCheck

/-- The first microword after a dispatch executes: the wait since the thread became READY is reported (R96, R102). DESIGN CHOICE (log entry 123): a part of a ns counts as
a whole one. -/
def State.noteWait (s : State) (th : Nat) : State :=
  let t := s.thread th
  if t.waits then
    let wait := ceilDiv ((s.raw - t.readySince) * 5) 4
    (s.putThread th { t with waits := false }).put Key.dispatchMaxNs (toWord (satTo 0xFFFFFFFF (max wait (s.get Key.dispatchMaxNs).toNat)))
  else s

/-- A core executes a microword of a thread. Without a free span credit the thread is HELD and the word is not executed (R99). -/
def State.runWord (s : State) (th : Nat) (u : Uop) : State :=
  if !s.executes th then s
  else if !s.hasCredit th then s.holdThread th
  else if s.horizonOpen th u then s
  else ((((s.noteWait th).noteWord th u).word th u).needRows th).settleThread th

/-- The microword at a thread's PC, as the core fetches it. -/
def State.fetchWord (s : State) (th : Nat) : Option Uop := s.uopAt th (s.thread th).pc

/-! ## Resuming (R124-R127) -/

/-- A host jump is taken: the entry row is next; HOST_JUMP reads DONE once every thread of the group has taken it (R122). -/
def State.takeJump (s : State) (th entry who : Nat) : State :=
  let t := s.thread th
  let row := (s.get (Key.hjEntry who entry)).toNat
  let s := s.put (Key.hjTakenCycle th) (toWord t.cycles)
  let s := s.putThread th { t with pc := row, lastRow := false, jump := none, stagedNext := t.staged.contains row }
  if s.threads.any (fun x => (x.2.jump.map JumpReq.who) == some who) then s else s.cmdDone (Key.hostJump who) entry

/-- A waiting word or MATCH after which a host jump was to be taken has ended (R121). -/
def State.jumpAtEnd (s : State) (th : Nat) : State :=
  match (s.thread th).jump with
  | some j => if j.atEnd then s.takeJump th j.entry j.who else s
  | none => s

/-- The open repeat of a wait ends after `n` cycles of its row: the cycles not yet issued are issued, its credit is owed where no cycle is left, and the thread may run. -/
def State.endWait (s : State) (th n : Nat) : State :=
  let t := s.thread th
  match t.waitRun with
  | none => s
  | some w =>
    let had := t.cycles - w.first
    let n := max n had
    let p := (t.issueTu - w.firstTu) / max 1 had
    let spans := t.spans.map (fun x => if x.waiting then { x with left := x.left + (n - had), waiting := false } else x)
    let t := { t with spans := spans.filter (fun x => decide (x.left ≠ 0)), cycles := w.first + n, issueTu := w.firstTu + n * p, waitRun := none }
    let owes := spans.any (fun x => decide (x.left = 0) && !x.staged && decide (w.first ≤ x.first))
    let s := ((s.putThread th t).countIssued th (n - had)).jumpAtEnd th
    let s := if owes then s.oweCredit th else s
    if s.threadSt th = Th.waiting then s.enterReady th else s

/-- The cycles a wait row runs for a wake time (R124). -/
def Thread.wakeCycles (t : Thread) (w : WaitRun) (wake : Nat) : Nat := waitCycles wake w.firstTu ((t.issueTu - w.firstTu) / max 1 (t.cycles - w.first))

/-- A wait ends for a wake time (R124). -/
def State.wakeThread (s : State) (th wake : Nat) : State :=
  let t := s.thread th
  match t.waitRun with
  | none => s
  | some w => s.endWait th (t.wakeCycles w wake)

/-- A trigger that arrives at port time `tu` reaches one thread (R126): counted only at or after the first cycle of the wait row, and only where it resumes the thread within
TIMEOUT cycles of it. -/
def State.trigThread (s : State) (th source : Nat) (tu : Int) : State :=
  let t := s.thread th
  match t.waitRun with
  | some w =>
    (match w.kind with
     | .trig src timeout =>
       let n := t.wakeCycles w (tu.toNat + lead)
       if src = source ∧ (w.firstTu : Int) ≤ tu ∧ (timeout = 0 ∨ n ≤ timeout) then (s.putThread th { t with depTrig := false, wto := false }).endWait th n else s
     | _ => s)
  | none => s

/-- A trigger arrives on a WAITTRIG source at an epoch time, for every waiting thread. -/
def State.trigArrive (s : State) (source tick : Nat) : State := s.burst.threads.foldl (fun u th => u.trigThread th source (s.portTime tick)) s

/-- A token of event time `time` from thread `sender` reaches a thread (R91, R125): it wakes a waiting SYNC, is banked, or is held back with 15 places taken
(R237). -/
def State.takeToken (s : State) (th sender time : Nat) : State :=
  let t := s.thread th
  match t.waitRun with
  | some { kind := .sync, .. } => (s.putThread th { t with depSync := t.depSync - 1 }).wakeThread th (time + lead)
  | _ =>
    if 15 ≤ s.placesTaken th then
      let s := s.putThread th { t with heldTokens := t.heldTokens ++ [(sender, time)] }
      if s.ended sender then s else s.holdThread sender
    else s.putThread th { t with banked := t.banked ++ [time], depSync := t.depSync - 1 }

/-! ## Priming (R93) and shares (R98) -/

/-- The armed ports with channels on a slice. -/
def State.portsOnSlice (s : State) (sl : Nat) : Nat :=
  (s.armedThreads.map (fun th => ((s.served th).filter (fun x => (s.portSliceList x.2).contains sl)).length)).sum

/-- The span and vector FIFO shares are fixed at ARM (R98). -/
def State.setShares (s : State) : State :=
  (List.range 32).foldl (fun u sl =>
    let n := u.portsOnSlice sl
    if n = 0 then u
    else
      let ths := u.armedThreads.filter (fun th => (u.threadSlices th).contains sl)
      u.putSlice sl { u.slice sl with share := ths.map (fun th => (th, 256 / n)), fifoShare := ths.map (fun th => (th, 512 / n)) }) s

/-- Words are executed until the share is full or a waiting word, a MATCH or HALT is reached; at most the 256 spans of a share. -/
def State.primeWords (s : State) (th : Nat) : Nat → State
  | 0 => s
  | fuel + 1 =>
    let t := s.thread th
    if t.lastRow || t.matchRun.isSome || t.depends || !s.hasCredit th then s
    else match s.fetchWord th with
      | none => s
      | some u => if s.horizonOpen th u then s else ((s.noteWord th u).word th u).primeWords th fuel

/-- A thread is primed, its fetches complete: a fresh context at PAT_ENTRY, its whole share of credits, and the spans waiting in its slices. The counters of the last burst
stay as they are until the next accepted start (R30). The first span of each set host-jump entry is staged on the slices outside the share (R120). -/
def State.primeThread (s : State) (th : Nat) : State :=
  let t := s.thread th
  let entries := ([th, s.groupOf th].flatMap (fun x => (List.range 4).map (fun e => s.get (Key.hjEntry x e)))).filter (fun e => e != 0xFFFFFFFFFFFFFFFF)
  let s := s.putThread th { Thread.idle with armed := t.armed, pins := t.pins, ringRows := t.ringRows, staged := (entries.map BitVec.toNat).eraseDups, pc := (s.get (Key.patEntry (s.groupOf th))).toNat }
  let s := (s.threadSlices th).foldl (fun u sl => u.putSlice sl { u.slice sl with
    spanFree := mset 0 (u.slice sl).spanFree th (u.spanShare sl th), owed := merase (u.slice sl).owed th, held := (u.slice sl).held.filter (fun x => x.1 != th) }) s
  let issued := s.get (Key.cyclesIssued th)
  let s := (s.primeWords th 256).put (Key.cyclesIssued th) issued
  let s := s.putThread th { s.thread th with block := (s.thread th).pc / 256 }
  let n := (s.thread th).spanSeq
  (s.threadSlices th).foldl (fun u sl => u.putSlice sl { u.slice sl with expect := mset 0 (u.slice sl).expect th n }) s

/-- Every armed thread is primed. -/
def State.primeAll (s : State) : State := s.armedThreads.foldl (fun u th => u.primeThread th) { s with tokens := [] }

end Sys2Proof.Machine
end

