-- ==== Sys2Proof/Machine/RingOps.lean ====
section
/-! DEFINITION. The Creder ring as operations (R227-R241): epoch time, flits and credits, ring conditions, the stop of ring-bound threads. -/

namespace Sys2Proof.Machine

/-! ## State and credits (R229-R231) -/

/-- STATE of RING_STATUS, POSITION and SIZE. -/
def State.ringSt (s : State) : Nat := s.getF Key.ringStatus 0 3
def State.ringPos (s : State) : Nat := s.getF Key.ringStatus 5 5
def State.ringSize (s : State) : Nat := s.getF Key.ringStatus 10 6

/-- The ring is FORMED or WRAPPED. -/
def State.ringUp (s : State) : Bool := s.ringSt == 2 || s.ringSt == 3

/-- Free credits of a class (R230). -/
def Ring.credit (r : Ring) (cls : Nat) : Nat :=
  match cls with | 0 => r.creditCtrl | 1 => r.creditCond | 2 => r.creditToken | _ => r.creditTrig

/-- Free credits of a class set. -/
def Ring.setCredit (r : Ring) (cls n : Nat) : Ring :=
  match cls with
  | 0 => { r with creditCtrl := n }
  | 1 => { r with creditCond := n }
  | 2 => { r with creditToken := n }
  | _ => { r with creditTrig := n }

/-- Initial credits of a class (R230). -/
def ringCredits (cls : Nat) : Nat := if cls = 0 then 4 else 8

/-- The CLASS of a TYPE (R227, R230). -/
def flitClass (typ : Nat) : Nat := if typ = 5 then 1 else if typ = 6 then 2 else if typ = 7 then 3 else 0

/-! ## Flits on the lanes (R226-R228) -/

/-- The 128 bits of a flit (R227). -/
def flitBits (f : Flit) : Nat :=
  packFields [(0, 4, f.typ), (4, 2, f.cls), (6, 5, f.src), (11, 1, b2n f.resent), (12, 8, f.seq), (20, 1, b2n f.mark), (32, 48, f.due), (80, 32, f.payload.toNat), (112, 16, f.crc.toNat)]

/-- The CRC over bits 111:0 of a flit, from bit 111 down (R228). -/
def flitCrc (f : Flit) : BitVec 16 :=
  let c : SigCfg := { w := 16, poly := 0x1021, init := 0xFFFF, xorout := 0, refin := false, refout := false }
  BitVec.ofNat 16 (sigFinal c (((List.range 112).reverse.map (flitBits f).testBit).foldl (sigStep c) (sigInitial c)))

/-- A received flit's CRC is good. -/
def flitOk (f : Flit) : Bool := f.crc == flitCrc f

/-- A flit as it goes out: bits 47:0 of DUE, and the CRC. -/
def wire (f : Flit) : Flit := let g := { f with due := f.due % 2 ^ 48 }; { g with crc := flitCrc g }

/-- One bit through the scrambler 1 + x^39 + x^58 (R226): its new state, and what has gone out so far. -/
def scrambleBit (x : Nat × Nat) (d : Bool) : Nat × Nat :=
  let o := b2n (Bool.xor d (Bool.xor (x.1.testBit 38) (x.1.testBit 57)))
  ((2 * x.1 + o) % 2 ^ 58, 2 * x.2 + o)

/-- The 34-bit block of a lane in a slot with a flit, first bit highest: header 0b01 and 32 scrambled bits, most significant first. -/
def laneBlock (scr w : Nat) : Nat := 2 ^ 32 + (((List.range 32).reverse.map w.testBit).foldl scrambleBit (scr, 0)).2

/-- A flit as it leaves on a port: lane i carries bits 32i+31:32i. -/
def State.flitOut (s : State) (portB : Bool) (f : Flit) : Output :=
  .flit portB (wire f) ((List.range 4).map (fun i => laneBlock (Config.scrambler s.out.length i).toNat (flitBits (wire f) / 2 ^ (32 * i) % 2 ^ 32)))

/-- DUE as received names the epoch time with these 48 bits within 2^42 FREF periods of the epoch count (R227). -/
def State.resolveDue (s : State) (d : Nat) : Nat :=
  let n := s.nowTick
  let x := (d + 2 ^ 48 - n % 2 ^ 48) % 2 ^ 48
  if x < 2 ^ 47 ∨ n + x < 2 ^ 48 then n + x else n + x - 2 ^ 48

/-! ## Links (R226, R231, R241) -/

/-- The receive lanes of a port are locked. -/
def State.linkA (s : State) : Bool := bit (s.get Key.ringStatus) 3
def State.linkB (s : State) : Bool := bit (s.get Key.ringStatus) 4

/-- WRAP is set. -/
def State.wrap (s : State) : Bool := bit (s.get Key.ringCtrl) 3

/-- The port that a slot leaves on: A, or B in a wrapped ring at the device upstream of the break (R241). `back` tells a slot that came in on port A, which leaves on B but
at the device downstream of the break. -/
def State.outPort (s : State) (back : Bool) : Bool := if back then s.linkB || !s.wrap else s.wrap && !s.linkA

/-- The ring is folded (R241): a link of the device itself is broken, or a FORM flit came by on its way back. -/
def State.foldedRing (s : State) : Bool := s.wrap && (s.ring.folded || !(s.linkA && s.linkB))

/-! ## Sending -/

/-- A new flit of this device. -/
def State.newFlit (s : State) (typ due payload : Nat) : Flit :=
  { typ := typ, cls := flitClass typ, src := s.ringPos, resent := false, seq := s.ring.nextSeq, mark := false, due := due, payload := BitVec.ofNat 32 payload, crc := 0 }

/-- A flit of this device joins the pending ones (R230). Outside a formed ring only the flits of a formation are sent. -/
def State.queueFlit (s : State) (typ due payload : Nat) : State :=
  let r := s.ring
  let f := s.newFlit typ due payload
  let own := if typ = 5 ∨ typ = 6 ∨ typ = 7 then [f] else []
  { s with ring := { r with pendingFlits := r.pendingFlits ++ [f], nextSeq := (r.nextSeq + 1) % 256, due := r.due ++ own } }

/-- The place of a class in the sending order CTRL, TRIG, COND, TOKEN (R230). -/
def sendRank (cls : Nat) : Nat := match cls with | 0 => 0 | 3 => 1 | 1 => 2 | _ => 3

/-- The flit of a list that goes first: by class, then DUE, then age. -/
def firstFlit : List Flit → Option Flit
  | [] => none
  | f :: r =>
    match firstFlit r with
    | none => some f
    | some g => if sendRank g.cls < sendRank f.cls ∨ (sendRank g.cls = sendRank f.cls ∧ g.due < f.due) then some g else some f

/-- A flit as its slot departs: MEASURE names the tick and the grid position of its departure (R227). -/
def departs (f : Flit) (tick grid : Nat) : Flit := if f.typ = 2 then { f with due := tick, payload := BitVec.ofNat 32 (grid % 400) } else f

/-- The port a flit of this device leaves on: a MEASURE for the B to A direction of a folded ring on B. -/
def State.sendPort (s : State) (f : Flit) : Bool := s.outPort false || (f.typ == 2 && f.payload != 0)

/-- A flit goes out in a slot of this device and takes its credit (R229, R230). -/
def State.sendFlit (s : State) (f : Flit) (tick grid : Nat) : State :=
  let r := s.ring
  let r := { r.setCredit f.cls (r.credit f.cls - 1) with pendingFlits := r.pendingFlits.filter (fun g => g != f), inFlight := r.inFlight ++ [f] }
  { s with ring := r }.emit (s.flitOut (s.sendPort f) (departs f tick grid))

/-- A flit of this device has come back: its credit returns (R230). -/
def State.flitHome (s : State) (f : Flit) : State :=
  let r := s.ring
  let mine := r.inFlight.any (fun g => g.typ == f.typ && g.seq == f.seq)
  if mine then
    let r := r.setCredit f.cls (min (ringCredits f.cls) (r.credit f.cls + 1))
    { s with ring := { r with inFlight := r.inFlight.filter (fun g => !(g.typ == f.typ && g.seq == f.seq)) } }
  else s

/-- A flit that came in on port A (`back`) or B goes on to the next device. -/
def State.forward (s : State) (back : Bool) (f : Flit) : State := s.emit (s.flitOut (s.outPort back) f)

/-- A flit with a bad CRC (R228): counted, and forwarded as ERRORED. -/
def State.badCrc (s : State) (back : Bool) (f : Flit) : State := (s.count Key.ringCrcErrors 32).forward back { f with typ := 9 }

/-- A copy of a flit the device already holds (R228). -/
def State.seenFlit (s : State) (f : Flit) : Bool := f.resent && s.ring.seen.contains (256 * f.src + f.seq, f.due)

/-- The device notes the flit it holds of a source and number, with its DUE, which a resent copy shares. -/
def State.noteFlit (s : State) (f : Flit) : State :=
  { s with ring := { s.ring with seen := (256 * f.src + f.seq, f.due) :: s.ring.seen.filter (fun x => x.1 != 256 * f.src + f.seq) } }

/-! ## Ring-bound threads (R239, R240) -/

/-- A microword that makes its thread ring-bound. -/
def State.ringWord (s : State) (th : Nat) (u : Uop) : Bool :=
  match u with
  | .flag _ _ _ rcpub _ _ => rcpub
  | .trig kind _ _ _ => kind == 5
  | .jmp c _ _ => decide (0x20 ≤ c) && decide (c ≤ 0x2F)
  | .call c _ _ => decide (0x20 ≤ c) && decide (c ≤ 0x2F)
  | .ret c _ => decide (0x20 ≤ c) && decide (c ≤ 0x2F)
  | .waittrig src _ => decide (8 ≤ src) && decide (src ≤ 15)
  | .sync partner send wait => (send || wait) && s.remotePort (siteOf (s.ownPort th)) partner
  | _ => false

/-- A thread serves a site with remote ports, or its rows make it ring-bound (R239; found by the load-time checks). -/
def State.ringBound (s : State) (th : Nat) : Bool :=
  (s.served th).any (fun x => s.get (Key.remotePorts (siteOf x.2)) != 0) || (s.thread th).ringRows

/-- The ring-bound threads of the burst. -/
def State.ringThreads (s : State) : List Nat := s.burst.threads.filter (fun th => s.ringBound th)

/-- A Fern or ring fault: recorded, then its severity's action; at PORT-STOP it stops every ring-bound thread (R240). -/
def State.ringFault (s : State) (src : Nat) (loc : Loc) : State :=
  s.raiseAt { source := src, loc := loc, detail := 0, injected := false } (s.severityOf src) s.ringThreads

/-- RING_STATUS takes a STATE; a change signals the RING vector (R343). -/
def State.setRingSt (s : State) (st : Nat) : State := if s.ringSt = st then s else (s.putF Key.ringStatus 0 3 st).irq Irq.ring

/-- STATE of FERN_STATUS: 0 NOT_ALIGNED, 1 AWAITING_PULSE, 2 ALIGNED, 3 LOCAL, 4 LOST (R224). -/
def State.fernSt (s : State) : Nat := s.getF Key.fernStatus 0 3

/-- FERN_STATUS takes a STATE; a change signals the RING vector (R343). -/
def State.setFernSt (s : State) (st : Nat) : State := if s.fernSt = st then s else (s.putF Key.fernStatus 0 3 st).irq Irq.ring

/-- The ring is DOWN: RING_LAT reads 0 (R231), the flits this device had pending or on their way are gone, and where some were lost, or the ring broke, it never reports
quiet again before it is formed (R241). Flits that it holds still act at their DUE (R234). -/
def State.ringDown (s : State) (broken : Bool) : State :=
  let r := s.ring
  let lost := s.ringUp && (broken || !r.inFlight.isEmpty)
  let s := { s with ring := { r with pendingFlits := [], inFlight := [], acqPending := false, quietLost := r.quietLost || lost } }
  (s.setRingSt 0).put Key.ringLat 0

/-! ## Conditions (R235) -/

/-- RC15-RC0 in force: the OR over the devices' contributions. -/
def Ring.conditions (r : Ring) : BitVec 16 := r.contributions.foldl (fun acc x => acc ||| x.2) 0

/-- A device's contribution takes effect. -/
def State.contribute (s : State) (src : Nat) (v : BitVec 16) : State :=
  let r := { s.ring with contributions := (src, v) :: s.ring.contributions.filter (fun x => x.1 != src) }
  { s with ring := r }.put Key.ringCond (toWord r.conditions.toNat)

/-- A thread publishes a condition at port time `tu` (R235): a COND flit goes out where the device's contribution at DUE changes; publications that share a DUE are
merged into one flit, and where they leave the contribution as it was before that DUE none is sent. -/
def State.publish (s : State) (th tu n : Nat) (v : Bool) : State :=
  let t := s.thread th
  let m : BitVec 16 := 1#16 <<< n
  let s := s.putThread th { t with rcPub := if v then t.rcPub ||| m else t.rcPub &&& ~~~m }
  let own := s.armedThreads.foldl (fun acc x => acc ||| (s.thread x).rcPub) (0 : BitVec 16)
  if own = s.ring.ownContribution then s
  else
    let due := s.tickOf tu + s.ringLatTicks
    let same (f : Flit) : Bool := f.typ == 5 && f.due == due && f.src == s.ringPos
    let upd (f : Flit) : Flit := if same f then { f with payload := BitVec.ofNat 32 own.toNat } else f
    let before := if s.ring.pubDue = due then s.ring.pubBefore else s.ring.ownContribution
    let s' := { s with ring := { s.ring with ownContribution := own, pubDue := due, pubBefore := before } }
    if s.ring.pendingFlits.any same && own == before then
      { s' with ring := { s'.ring with pendingFlits := s'.ring.pendingFlits.filter (fun f => !same f), due := s'.ring.due.filter (fun f => !same f) } }
    else if s.ring.pendingFlits.any same then
      { s' with ring := { s'.ring with pendingFlits := s'.ring.pendingFlits.map upd, due := s'.ring.due.map upd } }
    else s'.queueFlit 5 due own.toNat

end Sys2Proof.Machine
end

