-- ==== Sys2Proof/Machine/Units.lean ====
section
/-! DEFINITION. The service island's instrument as operations: TRIGOUT pulses (R244), trigger lines (R242, R243), time-interval units (R247-R250), the sense ADC (R253),
acquisition units (R254-R260). -/

namespace Sys2Proof.Machine

/-- The modes in which the units run (R77, R259): IDLE to SAFE. -/
def State.unitsRun (s : State) : Bool := decide (Mode.idle ≤ s.mode) && decide (s.mode ≤ Mode.safe)

/-! ## TRIGOUT (R244) -/

/-- The modes that hold every TRIGOUT inactive or high-impedance. -/
def State.trigoutHeld (s : State) : Bool :=
  s.machineCheck || s.trigoutHighZ || [Mode.reset, Mode.boot, Mode.safe, Mode.quiesce].contains s.mode

/-- A pulse request: an active output restarts its width and the request is merged. -/
def State.pulse (s : State) (n : Nat) : State :=
  if s.trigoutHeld then s
  else if s.trigoutActive.contains n then s.count Key.trigoutMerged 32
  else { s with trigoutActive := s.trigoutActive ++ [n] }.showTrigout n

/-! ## Time-interval units -/

/-- STATE of TIU_STATUS: 0 IDLE, 1 ARMED, 2 MEASURING, 3 HOLDOFF. -/
def State.tiuSt (s : State) (u : Nat) : Nat := s.getF (Key.tiuStatus u) 0 2

/-- MODE of TIU_CTRL. -/
def State.tiuMode (s : State) (u : Nat) : Nat := s.getF (Key.tiuCtrl u) 0 3

/-- The measurement in progress. -/
def State.tiuRun (s : State) (u : Nat) : TiuRun := mget ⟨0, none, 0⟩ s.tius u

/-- `s` with a unit's measurement. -/
def State.putTiu (s : State) (u : Nat) (r : TiuRun) : State := { s with tius := mset ⟨0, none, 0⟩ s.tius u r }

/-- A unit is armed at a tick (R248, R249): FREQUENCY and COUNT start at the arm. -/
def State.armTiu (s : State) (u tick : Nat) : State :=
  let m := s.tiuMode u
  if m = 2 ∨ m = 3 then (s.putTiu u ⟨tick, some tick, 0⟩).putF (Key.tiuStatus u) 0 2 2
  else (s.putTiu u ⟨tick, none, 0⟩).putF (Key.tiuStatus u) 0 2 1

/-- An arm from source bit `b` of TIU_CTRL (4 pattern, 5 slot, 6 line): ignored and counted unless the unit is IDLE and the source enabled. -/
def State.armTiuBy (s : State) (u b tick : Nat) : State :=
  if s.tiuSt u = 0 ∧ bit (s.get (Key.tiuCtrl u)) b then s.armTiu u tick else s.countSat (Key.tiuArmIgnored u) 32 1

/-- The largest result (R249). -/
def tiuMax : Nat := 2 ^ 48 - 1

/-! ## Acquisition units: samples and slots -/

/-- State of a unit (R258): 0 IDLE, 1 ARMED, 2 POST, 3 REARM, 4 WAIT_SLOT. -/
def State.acqSt (s : State) (u : Nat) : Nat := s.getF (Key.acqState u) 0 3

/-- Fields of ACQ_CTRL (R259). -/
def State.acqSource (s : State) (u : Nat) : Nat := s.getF (Key.acqCtrl u) 0 8
def State.acqMaster (s : State) (u : Nat) : Bool := bit (s.get (Key.acqCtrl u)) 8
def State.acqGroup (s : State) (u : Nat) : Bool := bit (s.get (Key.acqCtrl u)) 9

/-- The record slots of a unit (R259). -/
def State.acqSlots (s : State) (u : Nat) : Nat := 524288 / (64 + 8 * (s.get (Key.acqLength u)).toNat)

/-- A unit takes a state; ACQ_STATE also shows the slots in use, of unreleased records and the one being filled, and in all. -/
def State.setAcq (s : State) (u st : Nat) : State :=
  let used := (s.acq u).records.length + (if st = 1 ∨ st = 2 then 1 else 0)
  s.put (Key.acqState u) (toWord (packFields [(0, 3, st), (8, 8, satTo 255 used), (16, 16, s.acqSlots u)]))

/-- A sample is offered to every unit that takes the stream (R254). -/
def State.offer (s : State) (source : Nat) (value : Int) (time : Nat) (sat : Bool) : State :=
  (List.range 8).foldl (fun t u => if t.acqSource u = source then t.putAcq u { t.acq u with offers := (t.acq u).offers ++ [(value, time, sat)] } else t) s

/-- A measurement ends with a result (R250): result, status and start time in one step, a sample for the acquisition units, and IDLE with
the unit's vector (R343), or HOLDOFF, by REPEAT. A result at the limit raises FS084 (R373). -/
def State.tiuResultIn (s : State) (u result start : Nat) (under timeout : Bool) : State :=
  let overflow := decide (tiuMax ≤ result)
  let r := if overflow then tiuMax else result
  let next := if bit (s.get (Key.tiuCtrl u)) 3 then 3 else 0
  let s := s.put (Key.tiuResult u) (toWord r)
  let s := s.put (Key.tiuStatus u) (toWord (packFields [(0, 2, next), (2, 1, 1), (3, 1, b2n under), (4, 1, b2n timeout), (5, 1, b2n overflow)]))
  let s := s.put (Key.tiuStartTime u) (toWord (start % 2 ^ 48))
  let big := decide (2 ^ 31 ≤ r)
  let s := (s.offer (0x10 + u) (if big then (2 ^ 31 - 1 : Nat) else r) start big).putTiu u ⟨0, none, 0⟩
  let s := if overflow then s.fault 84 (.unit u) 0 else s
  if next = 0 then s.irq (Irq.tiu u) else s

/-- A measurement ends without a result: the unit is IDLE again. -/
def State.tiuIdle (s : State) (u : Nat) : State := (s.putTiu u ⟨0, none, 0⟩).putF (Key.tiuStatus u) 0 2 0

/-- A counted edge (R249). -/
def State.tiuCount (s : State) (u : Nat) (onB falling : Bool) (tick : Nat) : State :=
  let r := s.tiuRun u
  let selA := s.get (Key.tiuInA u)
  let selB := s.get (Key.tiuInB u)
  let same := selA == selB
  let isA := !onB || same
  let isB := onB || same
  match s.tiuMode u with
  | 0 =>
    match r.start with
    | none =>
      if isA then (s.putTiu u { r with start := some tick }).putF (Key.tiuStatus u) 0 2 2
      else s.countSat (Key.strayStop u) 32 1
    | some t0 => if isB then s.tiuResultIn u (tick - t0) t0 (tick == t0) false else s
  | 1 =>
    if !isA then s
    else match r.start with
      | none => (s.putTiu u { r with start := some tick }).putF (Key.tiuStatus u) 0 2 2
      | some t0 =>
        if (s.get (Key.tiuN u)).toNat ≤ r.count + 1 then s.tiuResultIn u (tick - t0) t0 (tick == t0) false
        else s.putTiu u { r with count := r.count + 1 }
  | 2 => if !isA then s else if tiuMax ≤ r.count + 1 then s.tiuResultIn u (r.count + 1) r.armTick false false else s.putTiu u { r with count := r.count + 1 }
  | 3 =>
    if onB && field selB 0 2 != 0 then s.tiuResultIn u r.count r.armTick false false
    else if !isA then s
    else if tiuMax ≤ r.count + 1 then s.tiuResultIn u (r.count + 1) r.armTick false false
    else s.putTiu u { r with count := r.count + 1 }
  | 4 =>
    if !isA then s
    else match r.start with
      | none => if falling == bit selA 13 then (s.putTiu u { r with start := some tick }).putF (Key.tiuStatus u) 0 2 2 else s
      | some t0 => if falling != bit selA 13 then s.tiuResultIn u (tick - t0) t0 (tick == t0) false else s
  | _ => s

/-- In PULSE_WIDTH an ending edge lost in the dead time discards the pulse (R249). -/
def State.tiuLost (s : State) (u : Nat) (falling : Bool) : State :=
  let r := s.tiuRun u
  if s.tiuMode u = 4 ∧ r.start.isSome ∧ falling ≠ bit (s.get (Key.tiuInA u)) 13 then
    (s.putTiu u { r with start := none }).putF (Key.tiuStatus u) 0 2 1
  else s

/-! ## Sense ADC (R253) -/

/-- A sequence runs on an input. -/
def State.adcRunning (s : State) (n : Nat) : Bool := bit (s.get (Key.adcStatus n)) 0

/-- A sequence starts: the conversions it has left (SINGLE one, COUNT ADC_COUNT). -/
def State.startAdc (s : State) (n : Nat) : State :=
  let left := if s.getF (Key.adcCfg n) 0 2 = 1 then (s.get (Key.adcCount n)).toNat else 1
  { s with adcLeft := mset 0 s.adcLeft n left }.putF (Key.adcStatus n) 0 1 1

/-- A start from source bit `b` of ADC_CFG (2 pattern, 3 slot, 4 line): ignored and counted while a sequence runs or the source is not enabled. -/
def State.startAdcBy (s : State) (n b : Nat) : State :=
  if !s.adcRunning n && bit (s.get (Key.adcCfg n)) b then s.startAdc n else s.count (Key.adcStartIgnored n) 32

/-! ## Acquisition: arming and firing (R255-R258) -/

/-- A unit's reduction starts afresh; its records and offers stay. -/
def AcqSt.fresh (a : AcqSt) : AcqSt := { AcqSt.rest with records := a.records, nextSeq := a.nextSeq, offers := a.offers, prev := a.prev }

/-- A unit is armed at an epoch tick where it has a free slot, else it waits for one (R258), which raises FS085 (R373). -/
def State.armUnit (s : State) (u tick : Nat) : State :=
  let s := s.putAcq u { (s.acq u).fresh with armTick := tick }
  if (s.acq u).records.length < s.acqSlots u then s.setAcq u 1 else (s.setAcq u 4).fault 85 (.unit u) 0

/-- The members of the acquisition group. -/
def State.acqMembers (s : State) : List Nat := (List.range 8).filter (fun u => s.acqGroup u)

/-- The units an arm of `u` arms (R257): a group master every IDLE member, a standalone unit itself. -/
def State.armSet (s : State) (u : Nat) : List Nat :=
  ((if s.acqGroup u then s.acqMembers else [u])).filter (fun x => s.acqSt x = 0)

/-- An arm at an epoch tick from source bit `b` of ACQ_CTRL (13 pattern, 14 slot, 15 line). -/
def State.armAcqBy (s : State) (u b tick : Nat) : State :=
  if !bit (s.get (Key.acqCtrl u)) b || (s.acqGroup u && !s.acqMaster u) || (s.armSet u).isEmpty then s.countSat (Key.acqArmIgnored u) 32 1
  else (s.armSet u).foldl (fun t x => t.armUnit x tick) s

/-- A unit fires at F (R256, R258): it enters POST. -/
def State.fireUnit (s : State) (u f fired : Nat) (forced line : Bool) : State :=
  let a := s.acq u
  (s.putAcq u { a with fired := some (f, fired), firedForced := forced, firedLine := line, groupFire := none }).setAcq u 2

/-- A trigger of a unit in its state (R258): the states but ARMED ignore it, REARM and POST counting it. -/
def State.countTrigger (s : State) (u : Nat) : State :=
  match s.acqSt u with
  | 2 => s.countSat (Key.trigAfterFire u) 32 1
  | 3 => s.countSat (Key.trigInRearm u) 32 1
  | _ => s

/-- What a firing of unit `u` at F sets off beside line 16 (R257): the other ARMED members fire at F + 5 ns, TRIGOUTs with ACQ_FIRE pulse, and a master with RING_OUT
sends its ring line, unless one of the device's is still pending (R238). -/
def State.fireEffects (s : State) (u f : Nat) : State :=
  let s := if s.acqGroup u then
      (s.acqMembers.filter (fun x => x != u)).foldl (fun t x =>
        if t.acqSt x = 1 then (if (t.acq x).groupFire.isNone then t.putAcq x { t.acq x with groupFire := some (f + 16, u) } else t)
        else if (t.acq x).fired.map Prod.fst = some f then t else t.countTrigger x) s
    else s
  let s := (List.range 16).foldl (fun t n => if bit (t.get (Key.trigoutCfg n)) 17 then t.pulse n else t) s
  let masters := if s.acqGroup u then s.acqMembers.filter (fun x => s.acqMaster x) else [u]
  masters.foldl (fun t x =>
    if bit (t.get (Key.acqCtrl x)) 27 && t.ringUp then
      if t.ring.acqPending then t.count Key.ringTrigMerged 32
      else
        let t := t.queueFlit 7 (f + t.ringLatTicks) (t.getF (Key.acqCtrl x) 28 3 + 8)
        { t with ring := { t.ring with acqPending := true } }
    else t) s

/-- FIRED_BY of a firing at F: the lowest firing member of the group in that service-logic cycle (R257). -/
def State.firingUnit (s : State) (us : List Nat) (u : Nat) : Nat := if s.acqGroup u then (us.filter (fun x => s.acqGroup x)).foldl min u else u

/-- The firings of units that fire in one service-logic cycle: one of the group, by its lowest unit, and one of each standalone unit (R257). -/
def State.firings (s : State) (us : List Nat) : List Nat := us.filter (fun u => !s.acqGroup u || s.firingUnit us u == u)

/-- The units that a line fires. -/
def State.lineFires (s : State) (line : Nat) : List Nat :=
  (List.range 8).filter (fun u => bit (s.get (Key.acqCtrl u)) 21 && s.getF (Key.acqCtrl u) 22 5 == line)

/-- The arms and starts of a line (R243, R248, R253, R257); a unit or an input that names the line without enabling it counts an ignored one. -/
def State.lineArms (s : State) (line tick : Nat) : State :=
  let s := (List.range 16).foldl (fun t u => if t.getF (Key.tiuCtrl u) 10 5 == line then t.armTiuBy u 6 tick else t) s
  let s := (List.range 16).foldl (fun t n => if t.getF (Key.adcCfg n) 7 5 == line then t.startAdcBy n 4 else t) s
  (List.range 8).foldl (fun t u => if bit (t.get (Key.acqCtrl u)) 15 && t.getF (Key.acqCtrl u) 16 5 == line then t.armAcqBy u 15 tick else t) s

/-- A line arrives at an epoch time (R243): it takes effect at the first service-logic edge at least 5 ns later; firings it causes are line 16 in turn (`fuel` bounds the
chain by the eight units, each of which fires at most once). -/
def State.lineArrive (s : State) (line tick : Nat) : Nat → State
  | 0 => s
  | fuel + 1 =>
    let e := edgeAfter (tick + 16)
    let us := s.lineFires line
    let go := us.filter (fun u => s.acqSt u = 1)
    let s := (us.filter (fun u => s.acqSt u ≠ 1)).foldl (fun t u => t.countTrigger u) s
    let s := (s.trigArrive line tick).lineArms line e
    if go.isEmpty then s
    else
      let s := go.foldl (fun t u => t.fireUnit u e (t.firingUnit go u) false true) s
      let s := (s.firings go).foldl (fun t u => t.fireEffects u e) s
      s.lineArrive 16 e fuel

/-- A line arrives; where the units do not run it is lost. -/
def State.line (s : State) (line tick : Nat) : State := if s.unitsRun then s.lineArrive line tick 9 else s

/-- A TRIGIN is active (R243): high, or low under INVERT. -/
def State.triginOn (s : State) (n : Nat) : Bool := s.triginHigh.contains n != bit (s.get (Key.triginCfg n)) 0

/-- A TRIGIN that was not active and now is arrives (R243). -/
def State.triginSeen (s : State) (n : Nat) (was : Bool) : State := if !was && s.triginOn n then s.line n s.nowTick else s

/-- A unit fires of itself at F, by a level or by ACQ_FORCE: a member that fires in the same service-logic cycle as one of lower number has that one as FIRED_BY, and lends
its own number to those of higher number; the group's firing has its effects once (R257). -/
def State.fireSelf (s : State) (u f : Nat) (forced : Bool) : State :=
  let same := if s.acqGroup u then s.acqMembers.filter (fun x => match (s.acq x).fired with | some (g, _) => g == f && s.acqSt x == 2 | none => false) else []
  let lead := s.firingUnit (u :: same) u
  let s := s.fireUnit u f lead forced false
  let s := same.foldl (fun t x => t.putAcq x { t.acq x with fired := some (f, lead) }) s
  let s := if same.isEmpty then s else s.acqMembers.foldl (fun t x => match (t.acq x).groupFire with
    | some (g, _) => t.putAcq x { t.acq x with groupFire := some (g, lead) }
    | none => t) s
  if same.isEmpty then (s.fireEffects u f).line 16 f else s

/-! ## Acquisition: samples and records (R255, R256, R260) -/

/-- Nominal sample spacing in ns (R260). -/
def State.sampleNs (s : State) (u : Nat) : Nat :=
  let src := s.acqSource u
  if src < 0x10 then 1000 * (s.get (Key.adcInterval src)).toNat else if src < 0x20 then 0 else if src = 0x20 then 1000 else 10000

/-- The record of a unit closes (R258-R260): it becomes readable and the unit's vector is signalled. DESIGN CHOICE: the pair in progress is the last of a record closed early
(log entry 135), and the first record since BOOT carries RECORD_SEQ 0 (log entry 136). -/
def State.closeRecord (s : State) (u : Nat) (trunc : Bool) : State :=
  let a := s.acq u
  let pairs := match a.part with | some p => a.pairs ++ (if trunc then [p] else []) | none => a.pairs
  let pre := a.trigPair.getD pairs.length
  let r : AcqRecord :=
    { seq := a.nextSeq, firedBy := (a.fired.map Prod.snd).getD u, source := s.acqSource u, preShort := decide (pre < (s.get (Key.acqPre u)).toNat), forced := a.firedForced,
      line := a.firedLine, sat := a.sat, trunc := trunc, ecc := a.ecc, intervalM1 := (s.get (Key.acqInterval u)).toNat - 1, prePairs := pre, trigOffset := a.trigOffset,
      fireTime := (a.fired.map Prod.fst).getD 0, firstTime := (a.pairTimes ++ [a.curTime]).headD 0, sampleNs := s.sampleNs u, pairs := pairs }
  let s := s.putAcq u { a.fresh with records := a.records ++ [r], nextSeq := (a.nextSeq + 1) % 2 ^ 32 }
  (s.setAcq u 3).irq (Irq.acq u)

/-- The bytes of a record (R260). -/
def recordBytes (u : Nat) (r : AcqRecord) : List Byte :=
  let head := leBytes 64 (packFields
    [(0, 32, 0x5141524B), (32, 32, r.seq), (64, 4, u), (68, 4, r.firedBy), (72, 8, r.source), (80, 1, b2n r.preShort), (81, 1, b2n r.forced), (82, 1, b2n r.line),
     (83, 1, b2n r.sat), (84, 1, b2n r.trunc), (85, 1, b2n r.ecc), (96, 24, r.intervalM1), (128, 32, r.prePairs), (160, 32, r.pairs.length - r.prePairs),
     (192, 24, r.trigOffset), (224, 48, r.fireTime), (288, 48, r.firstTime), (352, 32, r.sampleNs)])
  head ++ r.pairs.flatMap (fun p => leBytes 4 (targetBits p.lo) ++ leBytes 4 (targetBits p.hi))

/-- The level condition of a unit on a sample (R256): at or beyond the level in the EDGE direction. -/
def State.atLevel (s : State) (u : Nat) (v : Int) : Bool :=
  let l := (s.get (Key.acqLevel u)).toInt
  match s.getF (Key.acqCtrl u) 10 2 with
  | 1 => decide (l ≤ v)
  | 2 => decide (v ≤ l)
  | _ => false

/-- A sample primes a unit (R256). -/
def State.primes (s : State) (u : Nat) (v : Int) : Bool :=
  let l := (s.get (Key.acqLevel u)).toInt
  let h : Int := ((s.get (Key.acqHyst u)).toNat : Nat)
  match s.getF (Key.acqCtrl u) 10 2 with
  | 1 => decide (v ≤ l - h)
  | 2 => decide (l + h ≤ v)
  | _ => false

/-- A sample crosses the level in the EDGE direction from the sample before it (R258). -/
def State.crosses (s : State) (u : Nat) (v : Int) : Bool :=
  match (s.acq u).prev with
  | some p => s.atLevel u v && !s.atLevel u p
  | none => false

/-- A sample joins the pair in progress; a full pair is completed, and before the trigger pair only the last ACQ_PRE are kept (R255). -/
def State.reduce (s : State) (u : Nat) (v : Int) (time : Nat) (sat : Bool) : State :=
  let a := s.acq u
  let p : Pair := match a.part with | some p => ⟨min p.lo v, max p.hi v⟩ | none => ⟨v, v⟩
  let n := a.partCount + 1
  let t0 := if a.partCount = 0 then time else a.curTime
  let a := { a with sat := a.sat || sat, curTime := t0 }
  if (s.get (Key.acqInterval u)).toNat ≤ n then
    let pairs := a.pairs ++ [p]
    let times := a.pairTimes ++ [t0]
    let drop := if a.trigPair.isSome then 0 else pairs.length - (s.get (Key.acqPre u)).toNat
    s.putAcq u { a with part := none, partCount := 0, pairs := pairs.drop drop, pairTimes := times.drop drop, pairsDropped := a.pairsDropped + drop }
  else s.putAcq u { a with part := some p, partCount := n }

/-- The pair in progress becomes the trigger pair (R255). -/
def State.markTrigger (s : State) (u : Nat) : State :=
  let a := s.acq u
  s.putAcq u { a with trigPair := some a.pairs.length, trigOffset := a.partCount }

/-- The record is complete once its post-trigger pairs are (R255). -/
def State.maybeClose (s : State) (u : Nat) : State :=
  let a := s.acq u
  match a.trigPair with
  | some n => if (s.get (Key.acqLength u)).toNat - (s.get (Key.acqPre u)).toNat ≤ a.pairs.length - n then s.closeRecord u false else s
  | none => s

/-- One sample at a unit, evaluated at service-logic edge `edge` (R255, R256, R258). -/
def State.sample (s : State) (u : Nat) (v : Int) (time : Nat) (sat : Bool) (edge : Nat) : State :=
  let done (t : State) : State := t.putAcq u { t.acq u with prev := some v }
  match s.acqSt u with
  | 1 =>
    if !notBefore time (s.acq u).armTick then done s
    else
    let fires := (s.acq u).primed && s.atLevel u v
    if fires then done ((((s.markTrigger u).reduce u v time sat).fireSelf u edge false).maybeClose u)
    else
      let s := s.putAcq u { s.acq u with primed := (s.acq u).primed || s.primes u v }
      done (s.reduce u v time sat)
  | 2 =>
    let s := if s.crosses u v then s.countTrigger u else s
    let at0 := (s.acq u).trigPair.isNone && (match (s.acq u).fired with | some (f, _) => notBefore time f | none => false)
    let s := if at0 then s.markTrigger u else s
    done ((s.reduce u v time sat).maybeClose u)
  | 3 => done (if s.crosses u v then s.countTrigger u else s)
  | _ => done s

end Sys2Proof.Machine
end

