-- ==== Sys2Proof/Machine/LoadFlow.lean ====
section
/-! DEFINITION. The paths of a thread's image that the load-time checks follow (R80, R101, R110-R123, R128, R143-R153, R173): nodes, successors, distances, pinned rows,
residency. -/

namespace Sys2Proof.Machine

/-! ## Blocks of an image (R143-R145) -/

/-- Rows of a thread's image (R142). -/
def State.patRowsOf (s : State) (th : Nat) : Nat := (s.get (Key.patRows (s.groupOf th))).toNat

/-- Channels and code width of the rows: those of member 0 (R140, R144). -/
def State.imageN (s : State) (th : Nat) : Nat := (s.channels (s.member0 th)).length
def State.imageW (s : State) (th : Nat) : Nat := s.width (s.member0 th)

/-- Rows block `b` holds. -/
def State.blockRows (s : State) (th b : Nat) : Nat := min 256 (s.patRowsOf th - 256 * b)

/-- Bytes of the content of block `b`. -/
def State.blockBytes (s : State) (th b : Nat) : Nat :=
  let a := s.blockAddr th b
  (s.symbolBase a - a) + ceilDiv (s.blockRows th b * s.imageN th * s.imageW th) 8

/-- ROW_COUNT, ENTRY_COUNT or FIRST_ROW of a block contradicts R144. -/
def State.countsBad (s : State) (th b : Nat) : Bool :=
  let a := s.blockAddr th b
  s.rowCount a != s.blockRows th b || s.entryCount a != (bitsOf 256 (s.ctrlMap a)).length || s.firstRow a != 256 * b

/-- A header contradicts R144 or sets a reserved bit, or a control entry does. -/
def State.headerBad (s : State) (th b : Nat) : Bool :=
  let a := s.blockAddr th b
  s.numAt (a + 32) 2 / 64 != 0 || s.numAt (a + 44) 20 != 0 || s.countsBad th b ||
    s.ctrlMap a / 2 ^ s.blockRows th b != 0 || (List.range (s.entryCount a)).any (fun i => s.numAt (a + 64 + 16 * i + 8) 8 / 64 != 0)

/-- A block holds a burst that reads uncorrectable (R145, R298). -/
def State.unreadable (s : State) (th b : Nat) : Bool :=
  let a := s.blockAddr th b
  s.poison.any (fun x => decide (a / 64 ≤ x) && decide (64 * x < a + s.blockBytes th b))

/-- The fault of a block, as the element of R141, R143 and R145: 0xFF unreadable, 0x00 header, 0x04 content beyond PAT_STRIDE. -/
def State.blockFault (s : State) (th b : Nat) : Option Nat :=
  if s.unreadable th b then some 0xFF
  else if s.headerBad th b then some 0x00
  else if (s.get (Key.patStride (s.groupOf th))).toNat < s.blockBytes th b then some 0x04
  else none

/-- A row lies in the image, in a block that can be used. -/
def State.rowUsable (s : State) (th row : Nat) : Bool := decide (row < s.patRowsOf th) && (s.blockFault th (row / 256)).isNone

/-! ## Paths -/

/-- A MATCH body on a path (R128-R130): its first and last row, the decision lead D, the last timely pass Pmax, and the pass the path is in. -/
structure Pass where
  first : Nat
  last : Nat
  lead : Nat
  timely : Nat
  pass : Nat
deriving DecidableEq, Repr

/-- A place on a path: the row, the return addresses pushed, what each loop counter holds (0 inactive, otherwise its count plus one, R111), and the MATCH body while in one. -/
structure Node where
  row : Nat
  stack : List Nat
  loops : List Nat
  ctx : Option Pass
deriving DecidableEq, Repr

/-- The four loop counters inactive. -/
def noLoops : List Nat := [0, 0, 0, 0]

/-- Whether a condition lets a branch be taken, and lets it fall through: only ALWAYS is known at load (R113). -/
def mayTake (c : Nat) (inv : Bool) : Bool := c != 0 || !inv
def mayFall (c : Nat) (inv : Bool) : Bool := c != 0 || inv

/-- The row a TARGET names, none before row 0 (R110). -/
def jumpRow (row : Nat) (t : Int) : Option Nat := let r := (row : Int) + t; if r < 0 then none else some r.toNat

/-- Where a row leads inside a MATCH body: on to the next row, or from the last one to a further pass and past the body. Passes 0 to q + D run for a q up to Pmax (R130). -/
def bodyNext (n : Node) (m : Pass) : List (Node × Bool) :=
  if n.row = m.last then
    (if m.pass < m.timely + m.lead then [({ n with row := m.first, ctx := some { m with pass := m.pass + 1 } }, false)] else []) ++
      (if m.lead ≤ m.pass then [({ n with row := m.last + 1, ctx := none }, false)] else [])
  else [({ n with row := n.row + 1, ctx := some m }, false)]

/-- Where a word leads outside a MATCH body, and whether it is a taken branch. A LEND branches while its counter holds more than 0 and falls through otherwise (R111). -/
def wordNext (n : Node) (u : Uop) : List (Node × Bool) :=
  let on : List (Node × Bool) := [({ n with row := n.row + 1 }, false)]
  let goto (t : Int) (stack : List Nat) : List (Node × Bool) := match jumpRow n.row t with | some r => [({ n with row := r, stack := stack }, true)] | none => []
  match u with
  | .halt _ => []
  | .jmp c inv t => (if mayTake c inv then goto t n.stack else []) ++ (if mayFall c inv then on else [])
  | .call c inv t => (if mayTake c inv && decide (n.stack.length < 8) then goto t (n.stack ++ [n.row + 1]) else []) ++ (if mayFall c inv then on else [])
  | .ret c inv =>
    (if mayTake c inv then (match n.stack.getLast? with | some r => [({ n with row := r, stack := n.stack.dropLast }, true)] | none => []) else []) ++
      (if mayFall c inv then on else [])
  | .loop ctr count _ => on.map (fun x => ({ x.1 with loops := n.loops.set ctr (count + 1) }, false))
  | .lend ctr t =>
    let left := n.loops.getD ctr 0
    if 1 < left then (goto t n.stack).map (fun x => ({ x.1 with loops := n.loops.set ctr (left - 1) }, true))
    else on.map (fun x => ({ x.1 with loops := n.loops.set ctr 0 }, false))
  | _ => on

/-- The MATCH body a node is in; a MATCH word begins its pass 0. -/
def State.bodyOf (s : State) (th : Nat) (n : Node) (u : Uop) : Option Pass :=
  match n.ctx, u with
  | some c, _ => some c
  | none, .matchW body timeout _ =>
    let l := s.bodyLength th n.row body
    some { first := n.row, last := n.row + body, lead := ceilDiv 384000 l.2, timely := ceilDiv timeout l.1 - 1, pass := 0 }
  | none, _ => none

/-- The set host-jump entries of a thread and of its group (R120). -/
def State.hjEntries (s : State) (th : Nat) : List Nat :=
  ([th, s.groupOf th].flatMap (fun t => (List.range 4).map (fun e => (s.get (Key.hjEntry t e)).toNat))).eraseDups.filter (fun r => r != 0xFFFFFFFFFFFFFFFF)

/-- The row begins a segment. -/
def State.isSegm (s : State) (th row : Nat) : Bool := match s.uopAt th row with | some (.segm ..) => true | _ => false

/-- The successors of a node; a host jump may replace the first row of a segment (R121, R173), and what the row left did still applies (R105). -/
def State.succsOf (s : State) (th : Nat) (n : Node) : List (Node × Bool) :=
  match s.uopAt th n.row with
  | none => []
  | some u =>
    let own := match s.bodyOf th n u with | some m => bodyNext n m | none => wordNext n u
    own ++ own.flatMap (fun x => if s.isSegm th x.1.row then (s.hjEntries th).map (fun e => ({ x.1 with row := e, ctx := none }, x.2)) else [])

/-- The nodes that paths from the given ones reach (`fuel` only bounds the recursion). -/
def State.explore (s : State) (th : Nat) : Nat → List Node → List Node → List Node
  | 0, _, seen => seen
  | _ + 1, [], seen => seen
  | fuel + 1, n :: w, seen =>
    if seen.contains n || !s.rowUsable th n.row then s.explore th fuel w seen
    else s.explore th fuel (((s.succsOf th n).map Prod.fst) ++ w) (seen ++ [n])

/-- Bounds on recursions that end when their work is done. -/
def enough : Nat := 2 ^ 128

/-- The nodes of a thread from PAT_ENTRY. -/
def State.nodesOf (s : State) (th : Nat) : List Node := s.explore th enough [⟨(s.get (Key.patEntry (s.groupOf th))).toNat, [], noLoops, none⟩] []

/-! ## The graph -/

/-- One node of the graph: its row and place, successors by number with their taken mark, its cycles (a waiting row one, R151), period, whether a wait may repeat it, and
whether it counts as branching (R116). -/
structure GNode where
  node : Node
  row : Nat
  op : Option Uop
  succ : List (Nat × Bool)
  cyc : Nat
  per : Nat
  waits : Bool
  br : Bool
deriving DecidableEq, Repr

/-- The word waits for something outside (R124). -/
def Uop.waitsFor : Uop → Bool
  | .sync _ _ wait => wait
  | .waittrig .. => true
  | .waittime .. => true
  | _ => false

/-- A node counts as branching; inside a MATCH body only its first row does. -/
def countsBranch (n : Node) (u : Option Uop) : Bool := match u, n.ctx with | some u, none => u.branching | some _, some m => n.row == m.first | none, _ => false

/-- The graph of a thread, node 0 its entry. -/
def State.graphOf (s : State) (th : Nat) : List GNode :=
  let ns := s.nodesOf th
  ns.map (fun n =>
    let u := s.uopAt th n.row
    { node := n, row := n.row, op := u, succ := ((s.succsOf th n).filter (fun x => ns.contains x.1)).map (fun x => (ns.findIdx (fun m => m == x.1), x.2))
      cyc := match u with | some u => u.cycles | none => 1
      per := s.rowPeriod th n.row, waits := match u with | some u => u.waitsFor | none => false, br := countsBranch n u })

/-- A node by number. -/
def gnode (g : List GNode) (i : Nat) : GNode := g.getD i ⟨⟨0, [], noLoops, none⟩, 0, none, [], 1, 1, false, false⟩

/-- Duration of a node's row in tu. -/
def GNode.dur (x : GNode) : Nat := x.cyc * x.per

/-- Least distances (kept plus one) from the work's nodes, by worklist; paths do not go on past nodes where `stop` holds. -/
def relax (g : List GNode) (w : GNode → Nat) (stop : GNode → Bool) : Nat → List (Nat × Nat) → List (Nat × Nat) → List (Nat × Nat)
  | 0, _, best => best
  | _ + 1, [], best => best
  | fuel + 1, (i, d) :: work, best =>
    let old := mget 0 best i
    if old ≠ 0 ∧ old ≤ d + 1 then relax g w stop fuel work best
    else
      let x := gnode g i
      relax g w stop fuel ((if stop x then [] else x.succ.map (fun y => (y.1, d + w x))) ++ work) (mset 0 best i (d + 1))

/-- From a branching node's first cycle: the least distance to each next branching node, and to a path's end. -/
def hops (g : List GNode) (w : GNode → Nat) (b : Nat) : List (Nat × Nat) × Option Nat :=
  let x := gnode g b
  let best := relax g w GNode.br enough (x.succ.map (fun y => (y.1, w x))) []
  let nexts := best.filterMap (fun p => if (gnode g p.1).br then some (p.1, p.2 - 1) else none)
  let ends := best.filterMap (fun p => let y := gnode g p.1; if !y.br && y.succ.isEmpty then some (p.2 - 1 + w y) else none)
  (nexts, (if x.succ.isEmpty then [w x] else ends).min?)

/-! ## Cycles per branching word (R101) -/

/-- One more branching word ahead: the least distance through a next one. -/
def stepBack (h : List (Nat × List (Nat × Nat) × Option Nat)) (f : List (Nat × Nat)) : List (Nat × Nat) :=
  h.filterMap (fun x => ((x.2.1.filterMap (fun n => (f.find? (fun y => y.1 == n.1)).map (fun y => n.2 + y.2))).min?).map (fun d => (x.1, d)))

/-- `k` further steps, each result kept with its count of branching words. -/
def windows (h : List (Nat × List (Nat × Nat) × Option Nat)) : Nat → Nat → List (Nat × Nat) → List (Nat × List (Nat × Nat))
  | 0, k, f => [(k, f)]
  | n + 1, k, f => (k, f) :: windows h n (k + 1) (stepBack h f)

/-- A smaller average cycles ÷ words. -/
def lessAvg (a b : Nat × Nat) : Bool := decide (a.1 * b.2 < b.1 * a.2)

/-- The least average of a list of (cycles, words). -/
def leastAvg : List (Nat × Nat) → Option (Nat × Nat)
  | [] => none
  | x :: r => match leastAvg r with | none => some x | some y => some (if lessAvg x y then x else y)

/-- c_t as cycles over words (R101): over windows of 64 branching words anywhere, and over a path with fewer from its first one to its end. -/
def cyclesPerBranch (g : List GNode) : Option (Nat × Nat) :=
  let bs := (List.range g.length).filter (fun i => (gnode g i).br)
  let h := bs.map (fun b => (b, hops g GNode.cyc b))
  let firsts := if (gnode g 0).br then [0] else (hops g GNode.cyc 0).1.map Prod.fst
  let toEnd := h.filterMap (fun x => x.2.2.map (fun d => (x.1, d)))
  let short := ((windows h 62 1 toEnd).flatMap (fun x => (x.2.filter (fun y => firsts.contains y.1)).map (fun y => (y.2, x.1))))
  let one := h.filterMap (fun x => ((x.2.1.map Prod.snd ++ x.2.2.toList).min?).map (fun d => (x.1, d)))
  let full := ((windows h 63 1 one).getLast?.map (fun x => x.2.map (fun y => (y.2, 64)))).getD []
  leastAvg (short ++ full)

/-! ## Pinned rows (R149) -/

/-- Ranges that overlap or touch an open one are joined to it; the list is sorted by first row, and each joined range is compared with the next ones in full. -/
def joinRanges (a b : Nat) : List (Nat × Nat) → List (Nat × Nat)
  | [] => [(a, b)]
  | (c, d) :: r => if c ≤ b + 1 then joinRanges a (max b d) r else (a, b) :: joinRanges c d r

/-- A range by its first row among sorted ones. -/
def insertRange (x : Nat × Nat) : List (Nat × Nat) → List (Nat × Nat)
  | [] => [x]
  | y :: r => if x.1 ≤ y.1 then x :: y :: r else y :: insertRange x r

/-- The disjoint ranges that hold the rows of a list of ranges: overlapping ones are stored once (R149). -/
def unionRanges (l : List (Nat × Nat)) : List (Nat × Nat) :=
  match l.foldl (fun acc x => insertRange x acc) [] with
  | [] => []
  | x :: r => joinRanges x.1 x.2 r

/-- Rows in disjoint ranges. -/
def rangeRows (l : List (Nat × Nat)) : Nat := (l.map (fun r => r.2 + 1 - r.1)).sum

/-- A row lies in one of the ranges. -/
def inRanges (l : List (Nat × Nat)) (row : Nat) : Bool := l.any (fun r => decide (r.1 ≤ row) && decide (row ≤ r.2))

/-- The rows that run from a host-jump entry up to its first branching word or its 256th row (R120). DESIGN CHOICE (log entry 127): the row of that branching word, and the
256th row, belong to the run. -/
def State.entryRun (s : State) (th : Nat) : Nat → Nat → List Nat
  | 0, _ => []
  | fuel + 1, row =>
    if !s.rowUsable th row then []
    else match s.uopAt th row with
      | none => [row]
      | some u => if u.branching then [row] else (match u with | .halt _ => [row] | _ => row :: s.entryRun th fuel (row + 1))

/-- The pinned ranges of a thread within its image. -/
def State.pinsOf (s : State) (th : Nat) (g : List GNode) : List (Nat × Nat) :=
  let n := s.patRowsOf th
  let bodies := g.filterMap (fun x => match x.op with
    | some (.lend _ t) => (jumpRow x.row t).map (fun r => (r, x.row))
    | some (.matchW body _ _) => some (x.row, x.row + body)
    | _ => none)
  let runs := (s.hjEntries th).map (fun e => (e, e + (s.entryRun th 256 e).length - 1))
  let own := (List.range 4).filterMap (fun e =>
    let w := s.get (Key.pinRange (s.groupOf th) e)
    if w = 0xFFFFFFFFFFFFFFFF then none else some (field w 0 48, field w 0 48 + field w 48 16))
  unionRanges ((bodies ++ runs ++ own).filterMap (fun r => if r.1 ≤ r.2 ∧ r.1 < n then some (r.1, min r.2 (n - 1)) else none))

/-! ## Residency (R110, R150, R151) -/

/-- The predecessors of a node: number and taken mark. -/
def predsOf (g : List GNode) (i : Nat) : List (Nat × Bool) :=
  (List.range g.length).flatMap (fun j => ((gnode g j).succ.filter (fun y => y.1 == i)).map (fun y => (j, y.2)))

/-- What the edge from a node sets as the alternate stream: a PREF its target, a CALL taken from a row that is not pinned its return row. -/
def altSet (pins : List (Nat × Nat)) (x : GNode) (taken : Bool) : Option (Bool × Option Nat) :=
  match x.op with
  | some (.pref t) => some (true, jumpRow x.row t)
  | some (.call ..) => if taken && !inRanges pins x.row then some (false, some (x.row + 1)) else none
  | _ => none

/-- Backwards from a branch: every path must meet, as its last change of the alternate stream, a CALL that left `row`, or a PREF of it 2 µs before the branch. -/
def hintedFrom (g : List GNode) (pins : List (Nat × Nat)) (ret : Bool) (row : Nat) : Nat → List (Nat × Nat) → List (Nat × Nat) → Bool
  | 0, _, _ => false
  | _ + 1, [], _ => true
  | fuel + 1, (i, d) :: work, best =>
    let old := mget 0 best i
    if old ≠ 0 ∧ old ≤ d + 1 then hintedFrom g pins ret row fuel work best
    else if i = 0 then false
    else
      let ps := (predsOf g i).map (fun p => let x := gnode g p.1; (p.1, d + x.dur, altSet pins x p.2))
      let bad := ps.any (fun p => match p.2.2 with
        | some (true, t) => !(decide (t = some row) && decide (8000000 ≤ p.2.1) && !inRanges pins row)
        | some (false, t) => !(ret && decide (t = some row))
        | none => false)
      if bad then false
      else hintedFrom g pins ret row fuel (work ++ ps.filterMap (fun p => if p.2.2.isNone then some (p.1, p.2.1) else none)) (mset 0 best i (d + 1))

/-- A taken branch of node `i` to a row is resident on every path. -/
def residentBranch (g : List GNode) (pins : List (Nat × Nat)) (rows i row : Nat) (ret : Bool) : Bool :=
  decide (row < rows) && (inRanges pins row || hintedFrom g pins ret row enough [(i, 0)] [])

/-- The row a node's taken branch goes to, whether it is a RET; the outer none where the node takes no such branch, the inner one for a target before row 0. -/
def branchTarget (x : GNode) : Option (Option Nat × Bool) :=
  if x.node.ctx.isSome then none
  else match x.op with
    | some (.jmp c inv t) => if mayTake c inv then some (jumpRow x.row t, false) else none
    | some (.call c inv t) => if mayTake c inv then some (jumpRow x.row t, false) else none
    | some (.ret c inv) => if mayTake c inv then x.node.stack.getLast?.map (fun r => (some r, true)) else none
    | some (.lend ctr t) => if 1 < x.node.loops.getD ctr 0 then some (jumpRow x.row t, false) else none
    | _ => none

/-- The nodes with a branch that could be taken to a non-resident target. -/
def nonResident (g : List GNode) (pins : List (Nat × Nat)) (rows : Nat) : List Nat :=
  (List.range g.length).filter (fun i =>
    match branchTarget (gnode g i) with
    | none => false
    | some (none, _) => true
    | some (some r, ret) => !residentBranch g pins rows i r ret)

end Sys2Proof.Machine
end

