-- ==== Sys2Proof/Machine/Cycle.lean ====
section
/-! DEFINITION. One cycle of a running port at its slices (R155, R161, R166-R170, R200-R217): the release check, the row's event, drive events, strobes and their
judgement, counts, fail log, full capture, signatures, and the end of a span. -/

namespace Sys2Proof.Machine

/-! ## Events of a row (R158, R166, R167) -/

/-- An edge offset of a timing-set entry: DA 0, DB 1, DC 2, DD 3, CA 4, CB 5; none where unset (R162). -/
def State.edge (s : State) (g ts e : Nat) : Option Nat :=
  let v := field (s.get (Key.tseWord g ts (e / 2))) (32 * (e % 2)) 32
  if v = 0xFFFFFFFF then none else some v

/-- DFMT and CFMT of a timing-set entry (R163). -/
def State.driveFmt (s : State) (g ts : Nat) : Nat := field (s.get (Key.tseWord g ts 3)) 0 3
def State.cmpFmt (s : State) (g ts : Nat) : Nat := field (s.get (Key.tseWord g ts 3)) 3 2

/-- The edge and level of each event of a drive symbol by format (R166); symbol 2 is Z, 3 is K (R136). -/
def driveTable (fmt sym : Nat) : List (Nat × LaneLevel) :=
  let d : LaneLevel := if sym = 1 then .high else .low
  let c : LaneLevel := if sym = 1 then .low else .high
  match sym with
  | 2 => [(0, .mid)]
  | 3 => []
  | 0 | 1 =>
    match fmt with
    | 0 => [(0, d)]
    | 1 => [(0, d), (1, .low)]
    | 2 => [(0, d), (1, .high)]
    | 3 => [(0, c), (1, d), (2, c)]
    | 4 => [(0, d), (1, .mid)]
    | _ => []
  | _ => []

/-- A compare-class symbol (R136): L, H, M, V, X. -/
def isCompare (sym : Nat) : Bool := decide (4 ≤ sym) && decide (sym ≤ 8)

/-- The drive events of a symbol on a channel: offset and level (R166, R167). A compare symbol places its release, at DD where set and the symbol is not X. -/
def State.driveEvents (s : State) (g ts sym : Nat) : List (Nat × LaneLevel) :=
  if isCompare sym then [(if sym = 8 then 0 else (s.edge g ts 3).getD 0, .mid)]
  else (driveTable (s.driveFmt g ts) sym).filterMap (fun x => (s.edge g ts x.1).map (fun e => (e, x.2)))

/-- A drive event reaches a transmitter at port time `tu` (R166, R170, R386): a disabled channel places none; one that would drive a forbidden channel is suppressed and
raises FS012; a change beyond PRETRAIN_LIMIT is suppressed with the lane at mid-level and raises FS013. Events of one lane act in order of time. -/
def State.driveEvent (s : State) (th g tu : Nat) (l : LaneLevel) : State × List Raise :=
  if s.laneState g = 2 then (s, [])
  else if !s.permits g && l != .mid then (s, [{ source := 12, loc := .channel g, detail := 0, injected := false }])
  else
    let t := s.thread th
    let limit := (s.get Key.pretrainLimit).toNat
    let recent := t.changes.filter (fun x => decide (tu < x.2 + 4000000))
    let untrained := s.laneState g == 0 && limit != 0xFFFF && (s.slice (g / 32)).lbk != .high && s.lane g != l
    let excess := untrained && decide (limit ≤ (recent.filter (fun x => x.1 == g)).length)
    let l' := if excess then LaneLevel.mid else l
    let late := decide (mget 0 t.lastEv g ≤ tu)
    let t := { t with lastEv := if late then mset 0 t.lastEv g tu else t.lastEv, changes := if untrained then recent ++ [(g, tu)] else recent }
    let s := s.putThread th t
    let s := (if late then s.setLane g l' else s).emit (.lane g tu (gridIndex tu) (s.launchPlace g tu) l')
    (s, if excess then [{ source := 13, loc := .channel g, detail := 0, injected := false }] else [])

/-! ## Strobes (R200-R203) -/

/-- One placed strobe: member ordinal, port object, channel index and channel, outcome, mask, states seen, and the offsets at which it samples. -/
structure Strobe where
  ord : Nat
  port : Nat
  k : Nat
  chan : Nat
  fail : Bool
  masked : Bool
  seen : List Tern
  offs : List Nat
deriving DecidableEq, Repr

/-- The expectation of a compare symbol that places a strobe (R136). -/
def expectOf (sym : Nat) : Option Expect :=
  match sym with | 4 => some .low | 5 => some .high | 6 => some .mid | 7 => some .valid | _ => none

/-- What the S-lane of a channel showed; a channel not named showed 0. -/
def obsOf (obs : List ChanObs) (g : Nat) : ChanObs := (obs.find? (fun o => o.channel == g)).getD ⟨g, .mid, [], false⟩

/-- The strobe a row places on channel index `k` of a port, judged (R167, R201-R203); none without a compare format, without CA, or on a disabled channel. -/
def State.strobeOf (s : State) (th : Nat) (sp : Span) (obs : List ChanObs) (ord o k g : Nat) : Option Strobe :=
  let ts := s.rowTs th sp.row
  match expectOf (s.symbol th o sp.row k) with
  | none => none
  | some e =>
    let fmt := s.cmpFmt g ts
    if fmt = 0 ∨ fmt = 3 ∨ (s.edge g ts 4).isNone ∨ s.laneState g = 2 then none
    else
      let seen := seenStates (fmt == 2) e (obsOf obs g)
      let masked := bit (s.get (Key.judgeMask o (g / 64))) (g % 64) || sp.judgeMasked || sp.maskedOrds.contains ord || (s.thread th).execMask.contains ord
      some { ord := ord, port := o, k := k, chan := g, fail := !seen.all (fun x => e.passes x), masked := masked, seen := seen
             offs := (if fmt = 2 then [4, 5] else [4]).filterMap (fun x => s.edge g ts x) }

/-- The strobes of one port in a cycle, by ascending channel index. -/
def State.portStrobes (s : State) (th : Nat) (sp : Span) (obs : List ChanObs) (ord o : Nat) : List Strobe :=
  ((s.channels o).mapIdx (fun k g => s.strobeOf th sp obs ord o k g)).filterMap id

/-- A channel lies on a slice that runs the thread: not on one that did not start (R20). -/
def State.runsOn (s : State) (th g : Nat) : Bool := !(s.thread th).late.contains (g / 32)

/-- The strobes of a cycle of a thread. -/
def State.strobes (s : State) (th : Nat) (sp : Span) (obs : List ChanObs) : List Strobe :=
  ((s.served th).flatMap (fun x => s.portStrobes th sp obs x.1 x.2)).filter (fun x => s.runsOn th x.chan)

/-- A strobe samples, a window opens and closes, D_S later than its port time (R186). -/
def State.emitSamples (s : State) (x : Strobe) (tu : Nat) : State :=
  x.offs.foldl (fun u e => u.emit (.sample x.chan (tu + e) (gridIndex (tu + e)) (u.samplePlace x.chan (tu + e)))) s

/-! ## Counting (R24, R205, R206, R209) -/

/-- The audit counts of a cycle (R24, R203). -/
def State.countStrobes (s : State) (th : Nat) (st : List Strobe) : State :=
  let n := st.length
  let m := (st.filter (fun x => x.masked)).length
  let f := (st.filter (fun x => x.fail && !x.masked)).length
  ((((s.countBy (Key.strobesPlaced th) 64 n).countBy (Key.strobesJudged th) 64 n).countBy (Key.passes th) 64 (n - m - f)).countBy (Key.fails th) 64 f).countBy (Key.masked th) 64 m

/-- A fail joins a channel's 48-bit total and FAIL_TOTAL, the sum of its site's (R25); beyond 2^48 - 1 it joins neither, and the fail audit finds the sum short (R205). -/
def State.countFail (s : State) (site g : Nat) : State :=
  let n := mget 0 s.burst.chanFails g
  if n + 1 < 2 ^ 48 then { s with burst := { s.burst with chanFails := mset 0 s.burst.chanFails g (n + 1) } }.countBy (Key.failTotal site) 64 1 else s

/-- The counted fails of one port in a cycle that starts at `tu` (R205, R206): channel and site totals, the site's first fail, the fail log, the fail conditions. -/
def State.portFails (s : State) (th cycle tu ord o : Nat) (gs : List Nat) : State :=
  if gs.isEmpty then s
  else
    let site := siteOf o
    let s := gs.foldl (fun u g => u.countSat (Key.failCount g) 32 1) s
    let s := gs.foldl (fun u g => u.countFail site g) s
    let s := { s with burst := { s.burst with failTotals := mset 0 s.burst.failTotals o (mget 0 s.burst.failTotals o + gs.length) } }
    let s := s.siteFails site 2
    let s := if earlier (noted s.burst.firstFailTu site) tu (portOf o) then
        let s := s.put (Key.firstFail site) (toWord (packFields [(0, 48, cycle), (48, 4, portOf o)]))
        let s := s.put (Key.firstFailChannel site) (toWord (gs.foldl min 1023))
        { s with burst := { s.burst with firstFailTu := (site, tu * 16 + portOf o) :: s.burst.firstFailTu.filter (fun x => x.1 != site) } }
      else s
    let s := (List.range 32).foldl (fun u sl =>
      let map := gs.foldl (fun acc g => if g / 32 = sl then acc + 2 ^ (g % 32) else acc) 0
      if map = 0 then u
      else u.logFail cycle tu site (portOf o) sl th map) s
    s.putThread th { s.thread th with fails := (s.thread th).fails ++ [⟨ord, cycle, tu⟩] }

/-- The counted fails of a cycle; strobes of MATCH bodies do not count (R203). -/
def State.countFails (s : State) (th cycle tu : Nat) (inMatch : Bool) (st : List Strobe) : State :=
  if inMatch then s
  else (s.served th).foldl (fun u x => u.portFails th cycle tu x.1 x.2 ((st.filter (fun y => y.port == x.2 && y.fail && !y.masked)).map Strobe.chan)) s

/-- A pass's strobes for the MATCH condition (R129). -/
def State.noteMatch (s : State) (th : Nat) (st : List Strobe) : State :=
  match (s.thread th).matchRun with
  | none => s
  | some m =>
    let open_ := st.filter (fun x => !x.masked)
    let add (l : List Nat) (y : List Nat) : List Nat := l ++ (y.eraseDups.filter (fun o => !l.contains o))
    s.putThread th { s.thread th with matchRun := some { m with
      placed := add m.placed (open_.map Strobe.ord)
      failed := add m.failed ((open_.filter (fun x => x.fail)).map Strobe.ord) } }

/-! ## Full capture and signatures (R211-R217) -/

/-- Full capture is on for a port in a cycle (R211). -/
def State.captures (s : State) (sp : Span) (o : Nat) : Bool := sp.capture.getD (bit (s.get (Key.capCtrl o)) 0)

/-- The cycle of one port at the capture engine: recorded, or its open frame closes (R212). -/
def State.capturePort (s : State) (th : Nat) (sp : Span) (cycle ord o : Nat) (st : List Strobe) : State :=
  if s.captures sp o then
    let mine := st.filter (fun x => x.port == o)
    let codes := (List.range (s.channels o).length).map (fun k => match mine.find? (fun x => x.k == k) with
      | some x => capCode x.seen x.fail
      | none => 0)
    (s.feedCapture o (s.thread th).startTu).capCycle o th cycle codes (sp.judgeMasked || sp.maskedOrds.contains ord || (s.thread th).execMask.contains ord)
  else match s.burst.capBuf.find? (fun f => f.port == o) with
    | some f => s.closeFrame f
    | none => s

/-- The bits a strobe contributes to a compare slot (R214). -/
def strobeBits (symbits : Nat) (x : Strobe) : List Bool :=
  let last := x.seen.getLastD .mid
  match symbits with
  | 0 => [last == .high]
  | 1 => [last == .high, last == .mid]
  | _ => [x.fail]

/-- The bits a cycle contributes to one slot of a thread (R214). -/
def State.slotBits (s : State) (th slot : Nat) (sp : Span) (st : List Strobe) : List Bool :=
  let o8 := 8 * s.groupOf th + slot
  let c := s.get (Key.sigCtrl o8)
  let sel (k : Nat) : Bool := bit (s.get (Key.sigChmask o8 (k / 64))) (k % 64)
  let mine := (s.served th).filter (fun x => s.isSplit (s.groupOf th) || x.1 == field c 17 9)
  if bit c 11 then
    mine.flatMap (fun x => ((s.channels x.2).mapIdx (fun k _ => k)).flatMap (fun k =>
      if sel k then (match s.symbol th x.2 sp.row k with | 0 => [false] | 1 => [true] | _ => []) else []))
  else if bit c 14 && sp.inMatch then []
  else mine.flatMap (fun x => (st.filter (fun y => y.port == x.2 && sel y.k)).flatMap (strobeBits (field c 12 2)))

/-- The signatures of a cycle (R204, R214): a reset comes before the cycle's own contribution, and a held thread contributes nothing. -/
def State.signCycle (s : State) (th : Nat) (sp : Span) (first : Bool) (st : List Strobe) : State :=
  let slots := s.sigSlots th
  let s := if first && sp.sigReset then slots.foldl (fun u i => u.sigReset th i) s else s
  if sp.sigHeld then s
  else slots.foldl (fun u i =>
    let r := (u.slotBits th i sp st).foldl (sigStep (u.sigCfg th i)) (u.get (Key.sigValue (8 * th + i))).toNat
    u.put (Key.sigValue (8 * th + i)) (toWord r)) s

/-! ## The row's event (R117, R118, R125, R235) -/

/-- A row's event at the port time of its first cycle. -/
def State.fireEvent (s : State) (th tu : Nat) (ev : RowEvent) : State × List Raise :=
  match ev with
  | .none => (s, [])
  | .trigout n => (s.pulse n, [])
  | .tiuArm u => (s.armTiuBy u 4 (edgeAfter (s.tickOf tu)), [])
  | .adcStart mask => ((bitsOf 16 mask).foldl (fun u n => u.startAdcBy n 2) s, [])
  | .dacLoad g => (s.queueLoads [g] (edgeAfter (s.tickOf tu)), [])
  | .acqArm u => (s.armAcqBy u 13 (edgeAfter (s.tickOf tu)), [])
  | .ring line => (s.queueFlit 7 (s.tickOf tu + s.ringLatTicks) line, [])
  | .ringCond n v => (s.publish th tu n v, [])
  | .token site dst src =>
    if s.remotePort site dst then (s.queueFlit 6 (s.tickOf tu + s.ringLatTicks) (packFields [(0, 9, site), (9, 4, dst), (13, 4, src)]), [])
    else match s.runner (16 * site + dst) with
      | some r => ({ s with tokens := s.tokens ++ [(r, th, tu)] }, [])
      | none => (s, [])

/-! ## The cycle -/

/-- The drive events of a cycle on every channel the thread serves. -/
def State.driveCycle (s : State) (th : Nat) (sp : Span) (tu : Nat) : State × List Raise :=
  let ts := s.rowTs th sp.row
  (s.served th).foldl (fun acc x =>
    ((s.channels x.2).mapIdx (fun k g => (k, g))).foldl (fun acc kg =>
      (if s.runsOn th kg.2 then s.driveEvents kg.2 ts (s.symbol th x.2 sp.row kg.1) else []).foldl (fun acc e =>
        let r := acc.1.driveEvent th kg.2 (tu + e.1) e.2
        (r.1, acc.2 ++ r.2)) acc) acc) (s, [])

/-- A slice has released a span of a thread (R97): its number lies before the next one it expects. -/
def State.released (s : State) (th sl seq : Nat) : Bool :=
  let d := (mget 0 (s.slice sl).expect th + 2 ^ 32 - seq) % 2 ^ 32
  decide (0 < d) && decide (d < 2 ^ 31)

/-- Every slice of a thread holds the span of its next cycle. -/
def State.spanReady (s : State) (th : Nat) (sp : Span) : Bool := decide (sp.left ≠ 0) && (s.threadSlices th).all (fun sl => s.released th sl sp.seq)

/-- A port without its row or its span stops (R100, R155): UNDERRUNS, SPAN_STARVE where the rows were there, FS047. -/
def State.underrun (s : State) (th : Nat) (missing : Bool) : State :=
  let s := (s.stopThreads [th] Stop.refillUnderrun).count Key.underruns 32
  let s := if missing then s else s.count Key.spanStarve 32
  s.fault 47 (.thread th) 0

/-- A waiting row repeats once more: its wait has no end yet that lies before the coming cycle (R124, R126, R127). -/
def State.repeats (s : State) (th : Nat) (sp : Span) : Bool :=
  let t := s.thread th
  sp.waiting && decide (sp.left = 0) && (match t.waitRun with
    | some w => (match w.kind, w.wake with
      | .time _, some wake => decide (t.cycles - w.first < waitCycles wake w.firstTu (s.rowPeriod th sp.row))
      | .trig _ timeout, _ => decide (timeout = 0) || decide (t.cycles - w.first < timeout)
      | _, _ => true)
    | none => false)

/-- The open repeat of a waiting row takes its next cycle as that cycle starts: it is issued then (R124). -/
def State.repeatRow (s : State) (th : Nat) : State :=
  let t := s.thread th
  match t.spans with
  | sp :: rest =>
    if s.repeats th sp then
      (s.putThread th { t with spans := { sp with left := 1 } :: rest, cycles := t.cycles + 1, issueTu := t.issueTu + s.rowPeriod th sp.row }).countIssued th 1
    else s
  | [] => s

/-- The executed cycle's bookkeeping: counts, port time, and the span with one cycle less. MATCH_LEFT starts at TIMEOUT with the first cycle of the MATCH and counts its
cycles down (R128). A span's credit is owed once its last cycle has started (R97); one staged outside the share holds none (R120). -/
def State.stepCycle (s : State) (th : Nat) (sp : Span) : State :=
  let t := s.thread th
  let p := s.rowPeriod th sp.row
  let left := match t.matchRun with
    | some m => m.timeout - (t.started + 1 - m.first)
    | none => 0
  let sp' := { sp with left := sp.left - 1 }
  let rest := t.spans.drop 1
  let spans := if sp'.left = 0 && !sp.waiting then rest else sp' :: rest
  let matching := match t.matchRun with
    | some m => decide (m.first ≤ t.started)
    | none => false
  let t := { t with
    started := t.started + 1, startTu := t.startTu + p, prev := some (t.startTu, p), matchLeft := if matching then left else 0, spans := spans }
  let s := (s.putThread th t).countExecuted th
  let s := if matching then s.setThreadSt th Th.matching else s
  if sp'.left = 0 && !sp.waiting && !sp.staged then s.oweCredit th else s

/-- A thread that a late slice stops ends at the boundary after cycle 0 (R20), the other members of its group with it. -/
def State.endLate (s : State) (th : Nat) : State :=
  if s.stoppingLate th && s.live th then 
    ((s.endAll ((s.stopList [th] Stop.launchLate).filter (fun x => x.1 == th || !s.stoppingLate x.1))).settleStop).settleBurst
  else s

/-- The end of a pass of a MATCH (R130), and the rows the core may issue now. -/
def State.stepMatch (s : State) (th : Nat) : State :=
  let t := s.thread th
  match t.matchRun with
  | none => s
  | some m =>
    let m := if t.started = m.first + (m.pass + 1) * m.len then m.endPass else m
    (s.putThread th { t with matchRun := some m }).feedMatch th 256

/-- Masks that take effect with a span are reported at its cycle (R134, R206). -/
def State.takeMasks (s : State) (th : Nat) (sp : Span) (cycle tu : Nat) : State :=
  (s.served th).foldl (fun u x => if sp.maskedOrds.contains x.1 then u.maskSite th x.1 x.2 cycle tu else u) s

/-- One cycle executes. -/
def State.runCycle (s : State) (th : Nat) (sp : Span) (obs : List ChanObs) : State :=
  let t := s.thread th
  let cycle := t.started
  let tu := t.startTu
  let first := decide (sp.first = cycle)
  let s := (s.spill tu).takeMasks th sp cycle tu
  let ev := if first then s.fireEvent th tu sp.event else (s, [])
  let st := ev.1.strobes th sp obs
  let dr := ev.1.driveCycle th sp tu
  let s := (st.foldl (fun u x => u.emitSamples x tu) dr.1).countStrobes th st
  let s := if sp.inMatch then s.noteMatch th st else s.countFails th cycle tu false st
  let s := (s.served th).foldl (fun u x => u.capturePort th sp cycle x.1 x.2 st) s
  let s := s.signCycle th sp first st
  let s := (s.stepCycle th sp).stepMatch th
  let s := if sp.halts && decide (sp.left = 1) then (s.endThread th Stop.halt).settleStop.settleBurst else s
  s.collect (ev.2 ++ dr.2)

/-- The check bits of the row's microword (R135), read with its first cycle: whether a correction is counted, and whether the thread stops. -/
def State.checkWord (s : State) (th : Nat) (sp : Span) (uword : Ecc) : State × Bool :=
  if sp.first ≠ (s.thread th).started then (s, false)
  else match uword with
    | .clean => (s, false)
    | .corrected _ => (s.count Key.uwordCorrected 32, false)
    | .uncorrectable => (s, true)

/-- The checkers that a cycle passes (R373, R383): the microword with the row's first cycle, the row's symbols in the local store or the vector FIFO, the timing store, the
judge logic where strobes are placed, the check values where a slot computes. -/
def State.examineCycle (s : State) (th : Nat) (sp : Span) (strobed : Bool) : State :=
  if s.injection.isNone then s
  else
    let loc := Loc.thread th
    let s := if sp.first = (s.thread th).started then (let x := s.examine 46 loc; if x.2 = some false then x.1.count Key.uwordCorrected 32 else x.1) else s
    let pinned := (s.thread th).pinned sp.row
    let s := (s.examine (if pinned then 34 else 38) loc).1
    let s := (s.examine 35 (.slice ((s.threadSlices th).headD 0))).1
    let s := if strobed then (s.examine 37 loc).1 else s
    if (s.sigSlots th).isEmpty then s else (s.examine 53 loc).1

/-- A streamed row lies in a block that its fetch finds unusable (R155): an uncorrectable burst, or a FIRST_ROW, ROW_COUNT or ENTRY_COUNT that contradicts R144. DEDUCED (log
entry 56): the fetch is taken at the row's own cycle. -/
def State.rowLost (s : State) (th row : Nat) : Bool := !(s.thread th).pinned row && (s.unreadable th (row / 256) || s.countsBad th (row / 256))

/-- The stream fetch of an unusable block raises FS066 for its uncorrectable burst (R155, R298). -/
def State.fetchFault (s : State) (th row : Nat) : State :=
  let a := s.blockAddr th (row / 256)
  match s.poison.find? (fun x => decide (a / 64 ≤ x) && decide (64 * x < a + s.blockBytes th (row / 256))) with
  | some x => s.dramUe (64 * x)
  | none => s

/-- A cycle start of a running port (R161): without its row or span the port underruns, a row that stops the thread stops it, otherwise the cycle executes. -/
def State.cycleOnce (s : State) (th : Nat) (obs : List ChanObs) (missing : Bool) (uword : Ecc) : State :=
  match (s.thread th).spans.head? with
  | none => s.underrun th missing
  | some sp =>
    if s.rowLost th sp.row then (s.fetchFault th sp.row).underrun th true
    else if missing || !s.spanReady th sp then s.underrun th missing
    else match sp.stops with
      | some r => s.stopThreads [th] r
      | none =>
        let c := s.checkWord th sp uword
        if c.2 then (c.1.stopThreads [th] Stop.faultStop).fault 46 (.thread th) 0
        else
          let t := c.1.examineCycle th sp (!(c.1.strobes th sp obs).isEmpty)
          if t.live th then t.runCycle th sp obs else t

/-- CYCLE_START of a thread: a waiting row takes one more repeat first (R124), and a thread kept from starting by a late slice ends after it (R20). -/
def State.cycleStart (s : State) (th : Nat) (obs : List ChanObs) (missing : Bool) (uword : Ecc) : State :=
  if s.machineCheck || !s.burst.launched || !s.live th then s
  else ((s.repeatRow th).cycleOnce th obs missing uword).endLate th

end Sys2Proof.Machine
end

