-- ==== Sys2Proof/Machine/TimeOps.lean ====
section
/-! DEFINITION. Device time and the scheduled slots as operations (R305-R323): the clock model, the servo, the clock's state, conversion of a slot's time, the
outcome of a firing. -/

namespace Sys2Proof.Machine

/-! ## Rounding that the spec leaves open -/

/-- An integer next to a rational number: the number itself where it is one, else the one below or above as the device chooses. -/
def State.roundOpen (s : State) (q : Rat) : Int × State :=
  if q.den = 1 then (q.num, s)
  else let r := s.freeChoice; (if r.1 then q.floor + 1 else q.floor, r.2)

/-- The nearest natural number; halfway the device chooses. -/
def State.nearestOpen (s : State) (q : Rat) : Nat × State :=
  let h := q + 1 / 2
  if h.den = 1 then let r := s.freeChoice; ((if r.1 then h.num else h.num - 1).toNat, r.2)
  else (h.floor.toNat, s)

/-- ⌈q⌉ as a natural number. -/
def ceilNat (q : Rat) : Nat := (-((-q).floor)).toNat

/-! ## Slots -/

/-- A slot's kept time and instant. -/
def State.slotSt (s : State) (n : Nat) : SlotSt := mget ⟨0, 0⟩ s.slots n

/-- `s` with a slot's kept time and instant. -/
def State.putSlot (s : State) (n : Nat) (x : SlotSt) : State := { s with slots := mset ⟨0, 0⟩ s.slots n x }

/-- STATE of a slot (R323): 0 IDLE, 1 ARMED, 2 LAUNCHED, 3 DONE, 4 REFUSED. -/
def State.slotState (s : State) (n : Nat) : Nat := s.getF (Key.slotStatus n) 0 3

/-- Two µs and one µs in 2^-16 ns. -/
def twoMicros : Int := 2000 * 65536
def oneMicro : Int := 1000 * 65536

/-- A full time as fractional raw count in slice ticks, by the model in force (R306, R318). -/
def State.ticksOf (s : State) (t : Int) : Rat :=
  let tref : Int := (s.get Key.modelTRefSec).toInt * secUnits + (s.get Key.modelTRefSub).toNat
  let rate : Int := (s.get Key.modelRate).toInt
  4 * ((s.get Key.modelRRef).toNat : Rat) + (((t - tref) * 4 * 2 ^ 40 : Int) : Rat) / ((81920 * (2 ^ 40 + rate) : Int) : Rat)

/-- The epoch time of a launch instant (R318). -/
def State.epochOf (s : State) (instant : Nat) : Nat := instant - 4 * (s.get Key.rawAtEpoch0).toNat

/-- A slot's time is converted with the model in force (R318). -/
def State.convertSlot (s : State) (n : Nat) : State :=
  let x := s.slotSt n
  let r := s.nearestOpen (s.ticksOf x.fullTime)
  r.2.putSlot n { x with instant := r.1 }

/-- A slot runs late at a device time (R319): its instant rounded up to a slice tick, and SLOT_LATENESS in ns, rounded up and saturating. -/
def State.runLate (s : State) (n : Nat) (at_ : Int) : State :=
  let x := s.slotSt n
  let late := ceilNat (((at_ - x.fullTime : Int) : Rat) / 65536)
  (s.putSlot n { x with instant := ceilNat (s.ticksOf at_) }).put (Key.slotLateness n) (toWord (satTo 0xFFFFFFFF late))

/-- The outcome of a firing is recorded (R321, R323): LAST and CODE, and a single slot's STATE with the SLOT vector (R343); a periodic slot is ARMED again with its next time. -/
def State.slotDecided (s : State) (n : Nat) (c : Code) : State :=
  let late := (s.get (Key.slotLateness n)) != 0
  let last := if c ≠ .ok then 3 else if late then 2 else 1
  let periodic := s.get (Key.slotPeriod n) != 0
  let st := if periodic then 1 else if c = .ok then 3 else 4
  let s := s.put (Key.slotStatus n) (toWord (packFields [(0, 3, st), (4, 2, last), (8, 6, c.toNat)]))
  let s := if c = .ok ∧ late then s.fault 86 (.unit n) 0 else s
  if periodic then (s.put (Key.slotLateness n) 0).convertSlot n else s.irq Irq.slot

/-- A slot is refused as late (R319): counted, FS086, and a slot that was ARMED reads REFUSED. -/
def State.slotTooLate (s : State) (n : Nat) : State :=
  let s := s.countSat Key.slotLateCount 32 1
  let s := if s.slotState n = 1 then
      (s.put (Key.slotStatus n) (toWord (packFields [(0, 3, 4), (4, 2, 3), (8, 6, Code.late.toNat)]))).irq Irq.slot
    else s
  s.fault 86 (.unit n) 0

/-- The ARMED slots follow a change of the model that takes effect at raw count `r` (R311). -/
def State.slotsFollow (s : State) (r : Nat) : State :=
  (List.range 64).foldl (fun t n =>
    if t.slotState n ≠ 1 then t
    else if t.timeAt r + twoMicros ≤ (t.slotSt n).fullTime then t.convertSlot n
    else if bit (t.get (Key.slotCtrl n)) 3 then t.runLate n (t.timeAt r + oneMicro)
    else t.slotTooLate n) s

/-! ## The model (R306) -/

/-- T_REF takes a value in 2^-16 ns. -/
def State.setTRef (s : State) (t : Int) : State :=
  (s.put Key.modelTRefSec (intWord (t.fdiv secUnits))).put Key.modelTRefSub (intWord (t.fmod secUnits))

/-- T_REF. -/
def State.tRef (s : State) : Int := (s.get Key.modelTRefSec).toInt * secUnits + (s.get Key.modelTRefSub).toNat

/-- ±500 ppm (R306). -/
def rateLimit : Int := 549755813

/-- RATE changes (R306): the model is re-anchored at the present raw count. -/
def State.setRate (s : State) (rate : Int) : State :=
  if rate = (s.get Key.modelRate).toInt then s
  else
    let s := ((s.setTRef s.now).put Key.modelRRef (toWord s.raw)).put Key.modelRate (intWord rate)
    (s.countSat Key.modelGen 32 1).slotsFollow s.raw

/-- A step by a signed time in 2^-16 ns at raw count `r` (R306, R310). -/
def State.applyStep (s : State) (d : Int) (r : Nat) : State :=
  let s := s.setTRef (s.tRef + d)
  let s := ((s.put Key.pendingStepSec 0).put Key.pendingStepNs 0).countSat Key.stepsApplied 32 1
  ((s.putF Key.clockFlags 1 1 1).countSat Key.modelGen 32 1).slotsFollow r

/-! ## The clock's state (R312) -/

/-- STATE of CLOCK_STATUS: 0 FREE, 1 ACQUIRING, 2 LOCKED, 3 HOLDOVER. -/
def State.clockSt (s : State) : Nat := s.getF Key.clockStatus 0 2

/-- The clock takes a state; leaving HOLDOVER ends the condition of FS073. -/
def State.setClock (s : State) (st : Nat) : State :=
  let was := s.clockSt
  let s := s.putF Key.clockStatus 0 2 st
  if was = 3 ∧ st ≠ 3 ∧ s.liveBit 73 then s.clearLive 73 else s

/-- TIME_SOURCE is written (R309, R312): without a source the clock is FREE. -/
def State.sourceWritten (s : State) : State :=
  if s.get Key.timeSource = 0 then { (s.setClock 0).putF Key.clockStatus 2 2 0 with clockGood := 0 } else s

/-- RATE follows FREQ and a slew (R309), limited to ±500 ppm. -/
def State.steer (s : State) (slew : Rat) : State :=
  let r := s.roundOpen (s.clockFreq + slew)
  r.2.setRate (max (-rateLimit) (min rateLimit r.1))

/-- Entry into HOLDOVER from ACQUIRING or LOCKED (R312): SLEW 0, FREQ kept, FS073. -/
def State.holdover (s : State) : State :=
  if s.clockSt = 1 ∨ s.clockSt = 2 then (({ s.setClock 3 with clockGood := 0 }).steer 0).fault 73 .none 0 else s

/-- The clock's state after an update of offset |o| (R312). -/
def State.clockUpdate (s : State) (mag : Nat) : State :=
  let s := s.putF Key.clockStatus 2 2 (s.get Key.timeSource).toNat
  let good := if mag ≤ 100 * 65536 then satTo 16 (s.clockGood + 1) else 0
  let st := s.clockSt
  let s := { s with clockGood := good }
  if st = 2 then (if 1000 * 65536 < mag then s.setClock 1 else s)
  else s.setClock (if 16 ≤ good then 2 else 1)

/-- −o ÷ (k × I) in units of 2^-40, for an offset in 2^-16 ns and an interval in seconds (R309). -/
def servoTerm (o : Int) (k : Nat) (interval : Rat) : Rat := -(((o * 2 ^ 24 : Int) : Rat) / (((k * 1000000000 : Nat) : Rat) * interval))

/-- A term limited to ± a number of ppm. -/
def limitPpm (q : Rat) (ppm : Nat) : Rat :=
  let m : Rat := ((ppm * 2 ^ 40 : Nat) : Rat) / 1000000
  max (-m) (min m q)

/-- One update of the servo (R309, R310): offset in 2^-16 ns, interval in seconds. -/
def State.servo (s : State) (o : Int) (interval : Rat) : State :=
  let mag := o.natAbs
  let s := { s with clockFreq := s.clockFreq + servoTerm o 64 interval }
  let slew := limitPpm (servoTerm o 8 interval) (s.get Key.slewMax).toNat
  let s := (s.clockUpdate mag).steer slew
  if mag ≤ 100 * 65536 then s
  else if mag ≤ (s.get Key.jumpThreshold).toNat * 65536 then s.applyStep (-o) s.raw
  else
    let d : Int := -o
    let s := (s.put Key.pendingStepSec (intWord (d.tdiv secUnits))).put Key.pendingStepNs (intWord ((d.tmod secUnits).tdiv 65536))
    ((s.putF Key.clockFlags 0 1 1).countSat Key.stepsRefused 32 1).fault 74 .none 0

end Sys2Proof.Machine
end

