-- ==== Sys2Proof/Machine/Reading.lean ====
section
/-! DEFINITION. Reading the dictionary (R32-R45, R54, R377): the working value of every object, those that are computed at the read, defaults (R40, R42), the hot
window's slots (R331, R389), the latches of two-element records. -/

namespace Sys2Proof.Machine

/-! ## Defaults (R40, R42, R396, R397) -/

/-- Which of two copies is in use: the VALID one of higher SEQ, copy 0 on equal SEQ; none VALID is none (R396). -/
def inUse (a b : Copy) : Option (Nat × Copy) :=
  if a.cls = .valid then (if b.cls = .valid ∧ a.seq < b.seq then some (1, b) else some (0, a))
  else if b.cls = .valid then some (1, b) else none

/-- The valid dictionary bank, as DICT_BANK and DICT_BANK_SEQ name it (R41, R399): a verify mismatch since BOOT does not change it (R407). -/
def State.bankInUse (s : State) : Option (Nat × Copy) :=
  if s.get Key.dictBankSeq = 0 then none
  else if s.get Key.dictBank = 0 then some (0, s.nvm.bankA)
  else some (1, s.nvm.bankB)

/-- The guard copy in use, as RECORD_VALID and GUARD_COPY name it. -/
def State.guardInUse (s : State) : Option (Nat × Copy) :=
  if !bit (s.get Key.guardStatus) 2 then none
  else if bit (s.get Key.nvmStatus) 5 then some (1, s.nvm.guard1)
  else some (0, s.nvm.guard0)

/-- An envelope object: its default source N names the guard record (R384). -/
def isGuardKey (key : Nat) : Bool :=
  keyArea key == 0x02 && (match rowOf key with | some r => decide (r.acc = .rwg) | none => false)

/-- An object's value in a copy's entries, its shipped value where it has none (R397). -/
def inCopy (c : Option (Nat × Copy)) (key : Nat) : Word :=
  match c with
  | some (_, c) => mget (shipped key) c.entries key
  | none => shipped key

/-- An object's default (R40): for source N the value in the valid bank or guard record. -/
def State.defaultOf (s : State) (key : Nat) : Word :=
  match rowOf key with
  | some r => if r.src = .N then (if isGuardKey key then inCopy s.guardInUse key else inCopy s.bankInUse key) else shipped key
  | none => shipped key

/-! ## Computed values -/

/-- Bytes of the acquisition record that waits longest (R259). -/
def State.recordLength (s : State) (u : Nat) : Nat :=
  match (s.acq u).records.head? with
  | some r => 64 + 8 * r.pairs.length
  | none => 0

/-- The thread and slot of a SIG object (R214). -/
def sigThread (key : Nat) : Nat := (keyObj key - 0x1000) / 8
def sigSlot (key : Nat) : Nat := (keyObj key - 0x1000) % 8

/-- The quiet timer runs (R381). -/
def State.quietRunning (s : State) : Bool :=
  s.mode == Mode.safe && !bit (s.get Key.safeStatus) 0 && decide (1 ≤ (s.get Key.recoveryLimit).toNat) && !s.anyLiveFault

/-- The automatic recoveries within the last RECOVERY_WINDOW minutes (R381). -/
def State.recentRecoveries (s : State) : Nat :=
  (s.recoveries.filter (fun t => decide (s.raw < t + (s.get Key.recoveryWindow).toNat * 48000000000))).length

/-- Average junction temperature in 1/128 °C (R405, R407). DESIGN CHOICE (log entry 32): rounded down; 0 while no second is counted. -/
def State.tjAvg (s : State) : Nat :=
  let bins := (List.range 16).map (fun i => (s.get (Key.tempBin i)).toNat)
  let total := bins.sum
  if total = 0 then 0 else ((bins.mapIdx (fun i b => (8 * i + 4) * b)).sum * 128) / total

/-- SLOT 10 of the hot window (R332): the last thread addressed and its HOST_JUMP status; before the first it reads 0x00000FFF00000000. -/
def State.hotJumpValue (s : State) : Word :=
  if s.hotJump = 0xFFF then 0x00000FFF00000000
  else setField (toWord (field (s.get (Key.hostJump s.hotJump)) 0 32)) 32 12 s.hotJump

/-- A power fail is in progress or has been flushed: POWER_FAIL of QUIESCE_STATUS (R419). -/
def State.powerFailing (s : State) : Bool := bit (s.get Key.quiesceStatus) 1

/-- WRITING of NVM_STATUS (R407): the write under way. -/
def State.nvmWriting (s : State) : Nat :=
  if s.powerFailing && !s.nvm.closed then 1
  else if s.cmdBusy Key.guardCommit then 3
  else if s.cmdBusy Key.fwActivate then 4
  else if s.cmdBusy Key.dictPersist then 5
  else 0

/-- FREF_OK of FERN_STATUS: FREF present and the slice PLLs locked. -/
def State.frefOk (s : State) : Bool := s.frefPresent && s.slices.all (fun x => x.2.pllLocked)

/-- Elements 01-04 of SESSION_KEY, whose secret no read returns (R47). -/
def isSecret (key : Nat) : Bool := keyArea key == 0x11 && decide (0x0200 ≤ keyObj key) && decide (keyObj key ≤ 0x0207) && decide (1 ≤ keyEl key) && decide (keyEl key ≤ 4)

/-- The objects whose value is computed at the read. -/
def State.computed (s : State) (key : Nat) : Option Word :=
  let o := keyObj key
  let e := keyEl key
  match keyArea key with
  | 0x01 => if key = Key.fwImage then some (toWord (max 8388608 Config.fwSlotBytes)) else none
  | 0x02 =>
    if key = Key.wdogStatus then some (setField (s.get key) 16 16 (if bit (s.get key) 0 then satTo 0xFFFF ((s.raw - s.wdogKick) / 800000) else 0))
    else if s.mode = Mode.service ∧ isGuardKey key then some (mget (s.get key) s.guardStaged key) else none
  | 0x10 => if key = Key.timeNow then some (toWord (shortTime s.now)) else none
  | 0x12 => if key = Key.pcieLink then some (if s.pcieUp then toWord (Config.pcieLink.toNat % 2048) else 0) else none
  | 0x11 => if isSecret key then some 0 else none
  | 0x22 =>
    if 0x1000 ≤ o ∧ e = 7 then
      let d := o - 0x1000
      some (setBit (s.get key) 2 (s.get (Key.dacCode d) != s.get (Key.dacActive d)))
    else none
  | 0x24 =>
    if key = Key.ringFree then some (toWord ((4096 + (s.get Key.ringConsumer).toNat + 2 ^ 32 - (s.get Key.ringProducer).toNat) % 2 ^ 32)) else none
  | 0x26 => if 0x1000 ≤ o ∧ e = 6 then some (s.sigResult (sigThread key) (sigSlot key)) else none
  | 0x40 => if 0x1000 ≤ o ∧ e = 0x0B then some (toWord (s.recordLength (o - 0x1000))) else none
  | 0x50 => if key = Key.safeStatus then some (setField (setBit (s.get key) 3 s.quietRunning) 16 16 (satTo 0xFFFF s.recentRecoveries)) else none
  | 0x51 => if key = Key.bbImage then some (toWord (512 * (s.get Key.bbValid).toNat)) else none
  | 0x52 => if key = Key.tjAvg then some (toWord s.tjAvg) else if key = Key.nvmStatus then some (setField (s.get key) 11 4 s.nvmWriting) else none
  | 0x60 =>
    if key = Key.hkLoad then some (toWord (if s.mode < Mode.train ∨ Mode.safe < s.mode then 0 else (Config.hkLoad (s.raw / 800000)).val))
    else if 0x1000 ≤ o ∧ o ≤ 0x13FF ∧ e = 1 then some (setBit (s.get key) 9 ((s.slice ((o - 0x1000) / 32)).lbk == .high)) else none
  | 0x70 => if key = Key.fernStatus then some (setBit (s.get key) 3 s.frefOk) else none
  | _ => none

/-- The working value a read returns. -/
def State.value (s : State) (key : Nat) : Word := (s.computed key).getD (s.get key)

/-- Piece `index` of a string object (R45): 8 bytes, zero beyond its end. -/
def stringPiece (key index : Nat) : Word := toWord (packFields (((stringOf key).drop (8 * index)).take 8 |>.mapIdx (fun i b => (8 * i, 8, b))))

/-! ## The hot window (R331, R332, R389) -/

/-- The key of a slot; none for a reserved one. Slot 10 is the selector of R332. -/
def hotKey (n : Nat) : Option Nat :=
  match n with
  | 0 => some Key.deviceMode | 1 => some Key.auditStatus | 2 => some Key.burstNumber | 3 => some Key.burstStart | 4 => some Key.burstStop | 5 => some Key.loadStatus
  | 6 => some Key.hotErr | 7 => some Key.hotErrKey | 8 => some Key.hostFlags | 9 => some Key.hostTrig
  | 11 => some Key.ringProducer | 12 => some Key.ringConsumer | 13 => some Key.timeNow | 14 => some Key.rawCount | 15 => some Key.clockStatus | 16 => some Key.trigoutPulse
  | 198 => some Key.ffClear | 199 => some Key.histCount | 200 => some Key.safeStatus | 201 => some Key.safeUnlatch | 202 => some Key.recoveryCount
  | n =>
    if 24 ≤ n ∧ n ≤ 31 then some (Key.siteFailMap (n - 24))
    else if 32 ≤ n ∧ n ≤ 39 then some (Key.siteMaskMap (n - 32))
    else if 40 ≤ n ∧ n ≤ 55 then some (Key.adcValue (n - 40))
    else if 56 ≤ n ∧ n ≤ 71 then some (Key.tiuResult (n - 56))
    else if 72 ≤ n ∧ n ≤ 87 then some (Key.tiuStatus (n - 72))
    else if 88 ≤ n ∧ n ≤ 95 then some (Key.acqState (n - 88))
    else if 96 ≤ n ∧ n ≤ 159 then some (Key.slotStatus (n - 96))
    else if n = 192 ∨ n = 193 then some (Key.faultCause (n - 192))
    else if n = 194 ∨ n = 195 then some (Key.faultLive (n - 194))
    else if n = 196 ∨ n = 197 then some (Key.firstFault (n - 196))
    else none

/-- The object is a HOST_JUMP, reached by the hot window through slot 10. -/
def isHostJump (key : Nat) : Bool := keyArea key == 0x23 && decide (0x3000 ≤ keyObj key) && decide (keyObj key ≤ 0x3BFF) && keyEl key == 0

/-- The object has a slot of the hot window: an atomic group may not write it (R52). -/
def inHotWindow (key : Nat) : Bool := isHostJump key || (List.range 256).any (fun n => hotKey n == some key)

/-- Bytes of an object's value (R34). -/
def OType.width : OType → Nat
  | .u n => n
  | .i32 => 4
  | .key => 4
  | _ => 8

/-! ## Paths -/

/-- The path may do more than R51 allows without a session: the mailbox, the hot window, an open and confirmed session. -/
def State.hasSession (s : State) (p : Path) : Bool :=
  match p with
  | .mailbox => true
  | .hot => true
  | .session n => s.sessions.any (fun x => x.id == n && x.confirmed)
  | .noSession => false

/-- The path is a session whose key slot has the VENDOR attribute (R33). -/
def State.isVendor (s : State) (p : Path) : Bool :=
  match p with
  | .session n => s.sessions.any (fun x => x.id == n && x.confirmed && bit (s.get (Key.sessionKeyAttr x.slot)) 0)
  | _ => false

/-- The running revision implements a key (R32, R33). -/
def implemented (key : Nat) : Bool := (rowOf key).isSome || (keyArea key == 0x7F && Config.vendorKey key)

/-! ## Latches of record objects (R377) and reads that count as reads of a raise (R379) -/

/-- A two-element record: FIRST_FAULT or a history entry. -/
def isRecord (key : Nat) : Bool := keyArea key == 0x50 && (keyObj key == 3 || (decide (0x200 ≤ keyObj key) && decide (keyObj key ≤ 0x21F)))

/-- A read of a record's element: element 01 latches element 02 for the path; element 02 returns and releases the path's latch, or the present value. -/
def State.readRecord (s : State) (p : Path) (key : Nat) : Word × State :=
  let obj := keyObj key
  let other (l : Latch) : Bool := !(decide (l.path = p) && l.obj == obj)
  if keyEl key = 1 then (s.get key, { s with latches := s.latches.filter other ++ [⟨p, obj, s.get (key + 1)⟩] })
  else match s.latches.find? (fun l => decide (l.path = p) && l.obj == obj) with
    | some l => (l.value, { s with latches := s.latches.filter other })
    | none => (s.get key, s)

/-- A read of a FAULT_CAUSE element or of a history entry counts as a read of the raises it shows. -/
def State.noteRead (s : State) (key : Nat) : State :=
  if keyArea key = 0x50 ∧ keyObj key = 1 ∧ 1 ≤ keyEl key then
    { s with watch := s.watch.map (fun w => if w.source / 64 + 1 = keyEl key then { w with read := true } else w) }
  else if keyArea key = 0x50 ∧ 0x200 ≤ keyObj key ∧ keyObj key ≤ 0x21F ∧ 1 ≤ keyEl key then
    let q := keyObj key - 0x200
    let s := { s with watch := s.watch.map (fun w => if w.q % 32 = q then { w with read := true } else w) }
    if s.histRead.contains q then s else { s with histRead := s.histRead ++ [q] }
  else s

/-! ## The read -/

/-- The value of a readable key on a path, and what the read changes. -/
def State.readValue (s : State) (p : Path) (dflt : Bool) (index key : Nat) : Word × State :=
  if stringOf key != [] then (stringPiece key index, s)
  else if dflt then (if isSecret key then 0 else s.defaultOf key, s)
  else
    let s := s.noteRead key
    if isRecord key && decide (1 ≤ keyEl key) then s.readRecord p key else (s.value key, s)

/-- Why a read is refused (R32, R36, R45, R51), by the mode and path; after a machine check by a management core that is not intact (R371). -/
def State.readCode (s : State) (p : Path) (index key : Nat) : Code :=
  let row := rowOf key
  let str := match row with | some r => decide (r.ty = .str) | none => false
  refuse [
    (s.machineCheck && !Config.coreIntact, .hwFail),
    (s.mode == Mode.boot && keyArea key != 0, .wrongMode),
    (!s.hasSession p && keyArea key != 0, .noSession),
    (!implemented key, .noObject),
    ((match row with | some r => decide (r.acc = .wo) | none => false) && p != .hot, .writeOnly),
    (str && decide (7 < index), .range)]

/-- A READ on a path: code, VALUE, state. The VALUE of a refused read is one the spec leaves open. -/
def State.doRead (s : State) (p : Path) (dflt : Bool) (index key : Nat) : Code × Word × State :=
  let c := s.readCode p index key
  if c = .ok then let r := s.readValue p dflt index key; (c, r.1, r.2)
  else let r := s.free; (c, r.1, r.2)

/-- The place and width of an object in the identity range of BAR0 (R329). -/
def identityBytes (key : Nat) : Option Nat :=
  if key = Key.siliconRev then some 4 else if key = Key.dictVersion then some 4 else if key = Key.dieSerial then some 8 else none

/-- The bytes a read of a slot returns (R54): the aligned 8 bytes, or with `part` 1 or 2 the lower or upper 4. -/
def slotBytes (part : Nat) (v : Word) : List Byte :=
  match part with
  | 1 => leBytes 4 v.toNat
  | 2 => leBytes 4 (field v 32 32)
  | _ => leBytes 8 v.toNat

/-- A hot-window read of slot `n` (R54, R331): no code; 0 for a reserved slot, a write-only object and in BOOT. -/
def State.hotRead (s : State) (n : Nat) : Word × State :=
  if s.mode = Mode.boot then (0, s)
  else if n = 10 then (s.hotJumpValue, s)
  else match hotKey n with
    | none => (0, s)
    | some k => if k = Key.hostTrig then (0, s) else s.readValue .hot false 0 k

end Sys2Proof.Machine
end

