-- ==== Sys2Proof/Machine/Writing.lean ====
section
/-! DEFINITION. Writing the dictionary's plain objects: the checks of R34-R38 in the order of R37, the rules the objects' own tables state, and what an accepted write
sets off. Every check takes two states: `s`, in force before the write, and `v`, with the write (or the whole group it belongs to, R52) overlaid. -/

namespace Sys2Proof.Machine

/-! ## Type and range (R34, R35) -/

/-- The value fails the type's width (R34). -/
def typeBad (ty : OType) (w : Word) : Bool :=
  match ty with
  | .u n => decide (2 ^ (8 * n) ≤ w.toNat)
  | .key => decide (2 ^ 32 ≤ w.toNat)
  | .i32 => decide (w.toInt < -2147483648) || decide (2147483647 < w.toInt)
  | _ => false

/-- The value lies outside the plain range of the object's table row (R35). -/
def plainBad (r : ValRule) (w : Word) : Bool :=
  match r with
  | .any => false
  | .interval lo hi => decide (w.toNat < lo) || decide (hi < w.toNat)
  | .zeroOr lo => w != 0 && decide (w.toNat < lo)
  | .mult m => w.toNat % m != 0
  | .signed b => decide (w.toInt < -(b : Int)) || decide ((b : Int) < w.toInt)
  | .special => false

/-- A trigger line code that R242 reserves. -/
def lineBad (n : Nat) : Bool := decide (17 < n) && n != 31

/-- A region number that R146 refuses. -/
def regionBad (w : Word) : Bool := decide (255 < w.toNat) && w != 0xFFFF

/-- An area of a region does not end within it (R438); with no region named it has no end to judge. -/
def areaBad (v : State) (region off len : Nat) : Bool :=
  (v.get region).toNat != 0xFFFF && decide ((v.get (Key.regionLength (v.get region).toNat)).toNat < (v.get off).toNat + (v.get len).toNat)

/-- Two regions of non-zero length share a byte (R146). -/
def regionsMeet (v : State) (a b : Nat) : Bool :=
  let ba := (v.get (Key.regionBase a)).toNat
  let la := (v.get (Key.regionLength a)).toNat
  let bb := (v.get (Key.regionBase b)).toNat
  let lb := (v.get (Key.regionLength b)).toNat
  la != 0 && lb != 0 && decide (ba < bb + lb) && decide (bb < ba + la)

/-- A write of REGION_BASE or REGION_LENGTH of region `r` breaks R146. DESIGN CHOICE (log entry 132): a base beyond the capacity is accepted while REGION_LENGTH is 0, for the
region then holds no byte. -/
def regionWriteBad (v : State) (r : Nat) (w : Word) : Bool :=
  w.toNat % 4096 != 0 ||
  ((v.get (Key.regionLength r)).toNat != 0 && decide (v.capacity < (v.get (Key.regionBase r)).toNat + (v.get (Key.regionLength r)).toNat)) ||
  (List.range 256).any (fun x => x != r && regionsMeet v r x)

/-! ## Port objects (R84, R85) -/

/-- The channel count of a port as its map in `v` gives it. -/
def portCount (v : State) (o : Nat) : Nat := (v.channels o).length

/-- The other ports bound to a thread in `v`. -/
def mates (v : State) (o th : Nat) : List Nat := (v.boundPorts th).filter (fun x => x != o)

/-- A write of PORT_CTRL breaks R84 or R85. -/
def portCtrlBad (s v : State) (o : Nat) (w : Word) : Bool :=
  let th := field w 0 12
  let old := s.get (Key.portCtrl o)
  let binds := bit w 12 && (!bit old 12 || field old 0 12 != th)
  (decide (0xC00 ≤ th) && th != 0xFFF) || field w 16 2 == 3 ||
  (bit w 12 && !bit old 12 && (th == 0xFFF || (v.channels o).isEmpty)) ||
  (binds && th != 0xFFF && ((mates v o th).any (fun x => siteOf x == siteOf o) || (mates v o th).any (fun x => portCount v x != portCount v o))) ||
  (binds && th == 0xFFF)

/-- A write of element `e` of a port's CHANNEL_MAP breaks a RANGE rule of R85: a channel of another port, or a change while BIND is 1. -/
def channelMapBad (s v : State) (o e : Nat) (w : Word) : Bool :=
  let old := s.get (Key.channelMap o e)
  (w != old && bit (v.get (Key.portCtrl o)) 12) ||
  v.objs.any (fun kv => keyArea kv.1 == 0x20 && decide (0x8000 ≤ keyObj kv.1) && keyObj kv.1 != 0x8000 + o && keyEl kv.1 == 4 + e && (kv.2 &&& w) != 0)

/-- A write of CHANNEL_MAP newly sets a disabled channel (R85). -/
def channelMapDisabled (s : State) (o e : Nat) (w : Word) : Bool :=
  (bitsOf 64 w.toNat).any (fun i => !bit (s.get (Key.channelMap o e)) i && s.laneState (64 * e + i) == 2)

/-! ## The objects whose rule is their own -/

/-- FAULT_SEVERITY of source `i` (R372). -/
def severityBad (i : Nat) (w : Word) : Bool :=
  if defaultSeverity i = Sev.machineCheck then w.toNat != Sev.machineCheck else decide (w.toNat < severityFloor i) || decide (Sev.deviceLatch < w.toNat)

/-- Guard envelope and time objects. -/
def guardBad (o e : Nat) (w : Word) : Bool :=
  let d := o - 0x1000
  if 0x1000 ≤ o then (if e ≤ 2 then !usable d w.toNat else decide (2000 < w.toNat) || (decide (d < 48) && w != 0)) else false

/-- Objects of area 10 (R308, R310, R322). -/
def timeBad (o e : Nat) (w : Word) : Bool :=
  if o = 0x001E then decide (1000000000 ≤ field w 16 30) || field w 46 18 != 0
  else if 0x1000 ≤ o ∧ e = 1 then decide (6 ≤ field w 0 3)
  else if 0x1000 ≤ o ∧ e = 2 then decide (65536 * secUnits ≤ w.toNat)
  else false

/-- Objects of areas 11 and 12: ETH_CTRL, PTP_CTRL (R325), EVENT_RING_ENTRIES, IRQ_ROUTE (R344), and the consumer indices, which never move backwards or past
the producer (R219, R342). -/
def netBad (o : Nat) (w : Word) : Bool :=
  if o = 0x0001 then field w 0 2 == 3
  else if o = 0x0100 then field w 1 2 == 3 || (decide (1 < field w 24 4) && decide (field w 24 4 < 12))
  else false

def pcieBad (o : Nat) (w : Word) : Bool :=
  if o = 0x0021 then !([64, 128, 256, 512, 1024, 2048, 4096].contains w.toNat)
  else if o = 0x0100 then decide (511 < w.toNat) && w != 0xFFFF
  else false

/-- A consumer index moves backwards or past the producer. -/
def consumerBad (old producer new : Nat) : Bool := decide ((producer + 2 ^ 32 - old) % 2 ^ 32 < (new + 2 ^ 32 - old) % 2 ^ 32)

/-- Objects of areas 24, 25, 26, 30, 31 (R146, R216, R277, R138, R142, R438). -/
def memoryBad (v : State) (area o e : Nat) (w : Word) : Bool :=
  match area with
  | 0x24 => if o = 0x30 then regionBad w || areaBad v Key.fullcapRegion Key.fullcapOffset Key.fullcapLength
      else if o = 0x31 ∨ o = 0x32 then w.toNat % 64 != 0 || areaBad v Key.fullcapRegion Key.fullcapOffset Key.fullcapLength else false
  | 0x25 => if o = 0x10 then regionBad w || areaBad v Key.faillogRegion Key.faillogOffset Key.faillogLength
      else if o = 0x11 ∨ o = 0x12 then w.toNat % 64 != 0 || areaBad v Key.faillogRegion Key.faillogOffset Key.faillogLength else false
  | 0x26 => e == 1 && field w 12 2 == 3
  | 0x30 => o == 1 && (decide (4 < field w 0 3) || field w 4 2 == 3 || field w 8 12 == 0)
  | 0x31 =>
    if 0x8000 ≤ o then e == 1 && field w 0 2 == 3
    else if 0x1000 ≤ o then (if e = 1 then regionBad w else if e = 4 then w.toNat % 64 != 0 || decide (w.toNat < 64) || decide (16777216 < w.toNat) else false)
    else if 0x0100 ≤ o ∧ e ≤ 2 then regionWriteBad v (o - 0x0100) w
    else false
  | _ => false

/-- A selector of a TIU input (R245). -/
def selectorBad (w : Word) : Bool := field w 0 2 == 3 || (field w 0 2 == 2 && (decide (7 < field w 2 10) || bit w 12))

/-- Objects of areas 40, 41, 42 (R242, R244, R245, R251, R253, R257, R259). -/
def unitBad (v : State) (area o e : Nat) (w : Word) : Bool :=
  match area with
  | 0x40 =>
    if o = 0x11 then decide (field w 0 16 < 10) || decide (10000 < field w 0 16)
    else if 0x1000 ≤ o ∧ e = 1 then
      decide (0x21 < field w 0 8) || field w 10 2 == 3 || lineBad (field w 16 5) || lineBad (field w 22 5) ||
        (bit w 8 && bit w 9 && (List.range 8).any (fun u => u != o - 0x1000 && v.acqMaster u && v.acqGroup u))
    else if 0x1000 ≤ o ∧ e = 5 then decide ((v.get (Key.acqLength (o - 0x1000))).toNat ≤ w.toNat)
    else false
  | 0x41 =>
    if o = 0x0100 then decide (w.toNat < 50) || decide (1750 < w.toNat) || w.toNat % 2 == 1
    else if e = 1 then decide (4 < field w 0 3) || lineBad (field w 10 5)
    else if e = 2 ∨ e = 3 then selectorBad w
    else false
  | 0x42 => e == 1 && (field w 0 2 == 3 || lineBad (field w 7 5))
  | _ => false

/-- The RANGE rule of an object that its row marks as its own. -/
def specialBad (s v : State) (key : Nat) (w : Word) : Bool :=
  let o := keyObj key
  let e := keyEl key
  match keyArea key with
  | 0x02 => guardBad o e w
  | 0x10 => timeBad o e w
  | 0x11 => netBad o w
  | 0x12 => pcieBad o w
  | 0x20 => if e = 1 then portCtrlBad s v (o - 0x8000) w else channelMapBad s v (o - 0x8000) (e - 4) w
  | 0x21 => decide (4 < field w 0 3) || field w 3 2 == 3
  | 0x22 => !usable (o - 0x1000) w.toNat
  | 0x24 => memoryBad v 0x24 o e w
  | 0x25 => memoryBad v 0x25 o e w
  | 0x26 => memoryBad v 0x26 o e w
  | 0x30 => memoryBad v 0x30 o e w
  | 0x31 => memoryBad v 0x31 o e w
  | 0x40 => unitBad v 0x40 o e w
  | 0x41 => unitBad v 0x41 o e w
  | 0x42 => unitBad v 0x42 o e w
  | 0x50 => severityBad (o - 0x1000) w
  | 0x60 => decide (field w 16 16 < 1) || decide (60000 < field w 16 16)
  | _ => false

/-- RANGE rules of objects without a special row: the consumer indices and ACQ_RELEASE (R259). -/
def extraBad (s : State) (key : Nat) (w : Word) : Bool :=
  if key = Key.ringConsumer then consumerBad (s.get Key.ringConsumer).toNat (s.get Key.ringProducer).toNat w.toNat
  else if key = Key.eventConsumer then consumerBad (s.get Key.eventConsumer).toNat (s.get Key.eventProducer).toNat w.toNat
  else if keyArea key = 0x40 ∧ 0x1000 ≤ keyObj key ∧ keyEl key = 0x0C then !(s.acq (keyObj key - 0x1000)).records.any (fun r => r.seq == w.toNat)
  else false

/-! ## At rest (R37: BUSY) -/

/-- A scheduled slot is at rest (R321). -/
def State.slotRest (s : State) (n : Nat) : Bool := let st := s.getF (Key.slotStatus n) 0 3; st == 0 || st == 3 || st == 4

/-- The unit, slot, thread, request or run that an object configures is not at rest (R195, R217, R248, R253, R258, R321, R359). -/
def State.busyKey (s : State) (key : Nat) : Bool :=
  let o := keyObj key
  let e := keyEl key
  match keyArea key with
  | 0x10 => decide (0x1000 ≤ o) && decide (1 ≤ e) && decide (e ≤ 3) && !s.slotRest (o - 0x1000)
  | 0x26 => decide (0x1000 ≤ o) && e == 5 && !s.atRest (sigThread key)
  | 0x40 => decide (0x1000 ≤ o) && decide (1 ≤ e) && decide (e ≤ 7) && s.acqSt (o - 0x1000) != 0
  | 0x41 => decide (0x1000 ≤ o) && decide (1 ≤ e) && decide (e ≤ 6) && s.tiuSt (o - 0x1000) != 0
  | 0x42 => decide (0x1000 ≤ o) && decide (1 ≤ e) && decide (e ≤ 3) && s.adcRunning (o - 0x1000)
  | 0x60 => decide (0x2000 ≤ o) && (e == 1 || e == 2) && s.cmdBusy (Key.reqCmd (o - 0x2000))
  | 0x61 => o == 0x0100 && decide (1 ≤ e) && decide (e ≤ 7) && s.cmdState Key.diagStart == Cmd.running
  | _ => false

/-! ## The check (R37) -/

/-- GUARD_UNLOCK_N is low. -/
def State.unlocked (s : State) : Bool := bit (s.get Key.guardStatus) 0

/-- A write is refused for the device mode (R36). -/
def State.accessMode (s : State) (acc : Access) : Bool :=
  match acc with
  | .rwi => !(s.mode == Mode.idle || s.mode == Mode.load)
  | .rwg => s.mode != Mode.service
  | _ => s.mode == Mode.boot || s.mode == Mode.quiesce

/-- The code of a write of a plain object of area 7F (R33). -/
def State.vendorCode (s : State) (p : Path) : Code := refuse [(s.mode != Mode.service, .wrongMode), (!s.isVendor p, .noSession)]

/-- The code a write of a plain object ends with (R37), DISABLED (R85) and ENVELOPE (R271) last. -/
def State.writeCode (s v : State) (p : Path) (key : Nat) (w : Word) : Code :=
  match rowOf key with
  | none => refuse [(s.mode == Mode.boot && keyArea key != 0, .wrongMode), (!implemented key, .noObject), (true, s.vendorCode p)]
  | some r =>
    let o := keyObj key
    let e := keyEl key
    refuse [
      (s.mode == Mode.boot && keyArea key != 0, .wrongMode),
      (decide (r.acc = .ro), .readOnly),
      (s.accessMode r.acc, .wrongMode),
      (decide (r.acc = .rwg) && !s.unlocked, .guardLocked),
      (!s.hasSession p || (decide (r.acc = .rws) && (p == .mailbox || p == .hot)), .noSession),
      (s.busyKey key, .busy),
      (decide (r.ty = .blob), .blobPath),
      (typeBad r.ty w, .typeMismatch),
      ((w &&& ~~~ (toWord r.mask)) != 0, .reservedSet),
      (plainBad r.vr w || (decide (r.vr = .special) && specialBad s v key w) || extraBad s key w, .range),
      (keyArea key == 0x20 && decide (0x8000 ≤ o) && decide (4 ≤ e) && channelMapDisabled s (o - 0x8000) (e - 4) w, .disabled),
      (keyArea key == 0x22 && decide (0x1000 ≤ o) && (e == 1 || e == 4 || e == 5) && !s.inEnvelope (o - 0x1000) w.toNat, .envelope)]

/-! ## Effects of an accepted write -/

/-- PORT_CHANNELS and PORT_SLICES follow the map (R83). -/
def State.refreshPort (s : State) (o : Nat) : State :=
  let ch := s.channels o
  let s := s.put (Key.portChannels o) (toWord ch.length)
  s.put (Key.portSlices o) (toWord (((List.range 32).map (fun sl => if ch.any (fun g => g / 32 == sl) then 2 ^ sl else 0)).sum))

/-- GROUP_SIZE of a thread follows its bound ports of enabled sites (R89). -/
def State.refreshGroup (s : State) (th : Nat) : State := if 3072 ≤ th then s else s.put (Key.groupSize th) (toWord (s.members th).length)

/-- The threads that ports name. -/
def State.namedThreads (s : State) : List Nat :=
  (s.objs.filterMap (fun kv => if keyArea kv.1 = 0x20 ∧ 0x8000 ≤ keyObj kv.1 ∧ keyEl kv.1 = 1 ∧ bit kv.2 12 then some (field kv.2 0 12) else none)).eraseDups

/-- SESSIONS_OPEN and SUB_COUNT follow the lists (R51, R57). -/
def State.refreshSessions (s : State) : State :=
  (s.put Key.sessionsOpen (toWord s.sessions.length)).put Key.subCount (toWord s.subs.length)

/-- Sessions close, with their subscriptions and latches (R50). -/
def State.closeSessions (s : State) (f : Session → Bool) : State :=
  let gone := (s.sessions.filter f).map Session.id
  let mine (p : Path) : Bool := match p with | .session n => gone.contains n | _ => false
  { s with sessions := s.sessions.filter (fun x => !f x), subs := s.subs.filter (fun x => !mine x.dest), latches := s.latches.filter (fun x => !mine x.path) }.refreshSessions

/-- A staged envelope value (R384); STAGED shows whether any differs from the value in force. -/
def State.stage (s : State) (key : Nat) (w : Word) : State :=
  let g := (s.guardStaged.filter (fun x => x.1 != key)) ++ [(key, w)]
  let s := { s with guardStaged := g }
  s.putF Key.guardStatus 1 1 (b2n (g.any (fun x => s.get x.1 != x.2)))

/-- A record is released (R259): its slot is free, and a unit that waits for one is armed (R258). -/
def State.releaseRecord (s : State) (u seq : Nat) : State :=
  let a := s.acq u
  let s := s.putAcq u { a with records := a.records.filter (fun r => r.seq != seq) }
  if s.acqSt u = 4 then s.armUnit u s.nowTick else s.setAcq u (s.acqSt u)

/-- A write of ones to a W1C object (R36). -/
def State.clearOnes (s : State) (key : Nat) (w : Word) : State :=
  let old := s.get key
  match keyArea key with
  | 0x12 =>
    if !bit w 6 then s
    else
      let s := s.put key (clearRefusals old)
      if key = Key.bar2Err then s.put Key.bar2ErrAddr 0xFFFFFFFFFFFFFFFF else s
  | 0x22 => s.put key (old &&& ~~~ (w &&& 0x1F0))
  | 0x42 => s.put key (old &&& ~~~ (w &&& 0x2))
  | 0x50 => s.put key (old &&& ~~~ (w &&& ~~~ (s.get (key + 0x100))))
  | _ => s.put key (old &&& ~~~ w)

/-- What a write of DAC_PARK or DAC_FAULT_CODE moves at once (R269, R271): a DAC that carries its park code follows it, and one left high-impedance at the end of BOOT takes
it once both codes lie within the envelope. -/
def State.parkWritten (s : State) (d : Nat) : State :=
  if s.dacSource d = 1 ∨ s.dacSource d = 0 then s.parkDac d else s

/-- The value of HOST_FLAGS that a write replaces is kept for the words whose instant lies before it (R114); one that ended 160 ns ago is seen by no word still to come. -/
def State.keepFlags (s : State) : State :=
  { s with flagsPast := ((s.nowTick, s.get Key.hostFlags) :: s.flagsPast).filter (fun x => decide (s.nowTick < x.1 + 512)) }

/-- A write of TRIGIN_CFG or TRIGOUT_CFG whose INVERT turns a level round (R243, R244): an input that is now active arrives, an output shows its new level. -/
def State.cfgInverted (s : State) (o e : Nat) (old : Word) : State :=
  if o = 0x10 ∧ 1 ≤ e ∧ bit old 0 ≠ bit (s.get (Key.triginCfg (e - 1))) 0 then s.triginSeen (e - 1) (!s.triginOn (e - 1))
  else if o = 0x11 ∧ 1 ≤ e ∧ bit old 16 ≠ bit (s.get (Key.trigoutCfg (e - 1))) 16 ∧ !s.trigoutHighZ then s.showTrigout (e - 1)
  else s

/-- What an accepted write does, by area. -/
def State.applyWrite (s : State) (key : Nat) (w : Word) : State :=
  let o := keyObj key
  let e := keyEl key
  match rowOf key with
  | none => s.put key w
  | some r =>
    if r.acc = .w1c then s.clearOnes key w
    else if isGuardKey key then s.stage key w
    else if key = Key.hostTrig then s.line 17 s.nowTick
    else if keyArea key = 0x40 ∧ 0x1000 ≤ o ∧ e = 0x0C then s.releaseRecord (o - 0x1000) w.toNat
    else
      let w := if keyArea key = 0x26 ∧ 0x1000 ≤ o ∧ e = 5 then toWord (w.toNat % 2 ^ (s.sigCfg (sigThread key) (sigSlot key)).w) else w
      let old := s.get key
      let s := if key = Key.hostFlags then s.keepFlags else s
      let s := s.put key w
      let s := if r.acc = .rwi ∧ old ≠ w then s.stale else s
      match keyArea key with
      | 0x10 => if key = Key.timeSource then s.sourceWritten else s
      | 0x11 => if 0x0200 ≤ o ∧ o ≤ 0x0207 then s.closeSessions (fun x => x.slot == o - 0x0200) else s
      | 0x20 =>
        if 0x8000 ≤ o ∧ 4 ≤ e then s.refreshPort (o - 0x8000)
        else if 0x8000 ≤ o then (s.refreshGroup (field old 0 12)).refreshGroup (field w 0 12)
        else if o = 0x0010 then s.namedThreads.foldl (fun t th => t.refreshGroup th) s
        else s
      | 0x22 => if 0x1000 ≤ o ∧ (e = 4 ∨ e = 5) then s.parkWritten (o - 0x1000) else s
      | 0x24 => if key = Key.ringBase then (s.put Key.ringProducer 0).put Key.ringConsumer 0 else s
      | 0x40 => if 0x1000 ≤ o ∧ e = 4 then s.setAcq (o - 0x1000) (s.acqSt (o - 0x1000)) else s.cfgInverted o e old
      | _ => s

/-- `s` with a write overlaid, for the checks of a group (R52). -/
def State.overlay (s : State) (key : Nat) (w : Word) : State :=
  if isGuardKey key then s else { s with objs := mset (shipped key) s.objs key w }

/-- A write of a plain object: its code, and the state. Refused for the envelope it raises FS064 (R271). -/
def State.writePlain (s : State) (p : Path) (key : Nat) (w : Word) : Code × State :=
  let c := s.writeCode (s.overlay key w) p key w
  match c with
  | .ok => (c, s.applyWrite key w)
  | .envelope => (c, s.collect [envelopeRaise (keyObj key - 0x1000)])
  | c => (c, s)

end Sys2Proof.Machine
end

