-- ==== Sys2Proof/Machine/Access.lean ====
section
/-! DEFINITION. Answering a path (R36, R44, R51, R54): the gates of the mode and the session, the response message, the record of a refused hot-window write. -/

namespace Sys2Proof.Machine

/-- A refused hot-window write (R54): HOT_ERR, the key of the first, and FS031 as VALID is set. -/
def State.hotRefused (s : State) (code key : Nat) : State :=
  let first := !bit (s.get Key.hotErr) 6
  let s := s.put Key.hotErr (recordRefusal (s.get Key.hotErr) code)
  if first then (s.put Key.hotErrKey (toWord key)).fault 31 .none 0 else s

/-- Without a session every refusal that R37 places after NO_SESSION gives way to it (R37, R51). -/
def State.gate (s : State) (p : Path) (r : Code × State) : Code × State :=
  if s.hasSession p || [Code.noObject, .readOnly, .wrongMode, .guardLocked].contains r.1 then r else (.noSession, s)

/-- The VALUE of a response to a write: the value now in force, one the spec leaves open where the key has none to read. -/
def State.valueAfter (s : State) (key : Nat) : Word × State :=
  if implemented key && (match rowOf key with | some r => decide (r.acc ≠ .wo) | none => true) then (s.value key, s) else s.free

/-- A response message joins the answers. -/
def State.respond (s : State) (op : BitVec 8) (index key : Nat) (c : Code) : State :=
  let v := s.valueAfter key
  v.2.answer (response op c index key v.1)

/-- A write on a path, its operation given (R36, R54, R55): nothing answers in RESET, the hot window is not served in BOOT, and there only area 00 answers. -/
def State.access (s : State) (p : Path) (index key : Nat) (op : State → Code × State) : State :=
  if s.mode = Mode.reset then s
  else if p = .hot then
    if s.mode = Mode.boot then s
    else if !inHotWindow key then s.hotRefused Code.noObject.toNat 0
    else
      let r := op s
      if r.1 = .ok then r.2 else r.2.hotRefused r.1.toNat key
  else
    let r := s.gate p (if s.mode = Mode.boot ∧ keyArea key ≠ 0 then (.wrongMode, s) else op s)
    r.2.respond 0x02 index key r.1

/-- The last answer's VALUE with DETAIL of its status word replaced: a refusal whose rule gives it a DETAIL leaves the object unchanged and shows DETAIL in its response. -/
def State.showDetail (s : State) (d : Nat) : State :=
  match s.answers.getLast? with
  | some m => if m.status = 0 then s else { s with answers := s.answers.dropLast ++ [{ m with value := setField m.value 16 16 d }] }
  | none => s

/-- A command on a path whose refusals carry a DETAIL (R195, R360). -/
def State.accessDetail (s : State) (p : Path) (index key : Nat) (op : State → Code × State) (detail : Code → Nat) : State :=
  let t := s.access p index key op
  let d := detail (s.gate p (op s)).1
  if d = 0 ∨ t.answers.length = s.answers.length then t else t.showDetail d

/-- A write of a plain object on a path. -/
def State.accessPlain (s : State) (p : Path) (index key : Nat) (w : Word) : State := s.access p index key (fun t => t.writePlain p key w)

/-- The hot-window slot of a key (R331); HOST_JUMP is slot 10. -/
def hotSlot (key : Nat) : Option Nat := if isHostJump key then some 10 else (List.range 256).find? (fun n => hotKey n == some key)

/-- A READ of one key on a path, answered (R44, R54): a read through BAR0 returns the value alone, of a hot-window slot, whole or in the half that `index` names, or of the
identity range, which reads normally also in BOOT (R36). -/
def State.readAt (s : State) (p : Path) (dflt : Bool) (index key : Nat) : State :=
  if s.mode = Mode.reset then s
  else if p = .hot then
    match identityBytes key, hotSlot key with
    | some n, _ => s.emit (.readData (leBytes n (s.value key).toNat) false)
    | none, none => s
    | none, some n => let r := s.hotRead n; r.2.emit (.readData (slotBytes index r.1) false)
  else
    let r := s.doRead p dflt index key
    r.2.2.answer (response 0x01 r.1 index key r.2.1)

end Sys2Proof.Machine
end

