-- ==== Sys2Proof/Machine/Instrument.lean ====
section
/-! DEFINITION. The commands of the service island's instrument: trigger inputs and outputs (R242-R244), time-interval units (R245-R251), the sense ADC (R252, R253),
acquisition units (R254-R260). -/

namespace Sys2Proof.Machine

/-- The modes in which a command that states no mode of its own is refused (R36). -/
def State.cmdMode (s : State) : Bool := s.mode == Mode.boot || s.mode == Mode.quiesce

/-- The modes in which an activity of R77 that every working mode allows is refused. -/
def State.cmdIdle (s : State) : Bool := s.cmdMode || s.mode == Mode.train

/-! ## Trigger lines and outputs -/

/-- TRIGIN_EDGE (R243): the ball of line `n` takes a level; the line arrives where that is first seen active, by INVERT. -/
def State.triginTakes (s : State) (n : Nat) (high : Bool) : State :=
  let was := s.triginOn n
  let s := { s with triginHigh := s.triginHigh.filter (fun x => x != n) ++ (if high then [n] else []) }
  s.triginSeen n was

def execTriginEdge (n : Nat) (high : Bool) (s : State) : Out := within n 8 (s.triginTakes n high)

/-- TRIGOUT_PULSE (R244, R77). -/
def State.cmdTrigoutPulse (s : State) (arg : Word) : Code × State :=
  let c := refuse [(s.cmdIdle || s.mode == Mode.safe, .wrongMode), (s.cmdBusy Key.trigoutPulse, .busy), (decide (2 ^ 16 ≤ arg.toNat), .range)]
  if c ≠ .ok then (c, s) else (.ok, ((bitsOf 16 arg.toNat).foldl (fun t n => t.pulse n) s).cmdDone Key.trigoutPulse 0)

def execTrigoutPulse (p : Path) (arg : Word) (s : State) : Out := .next (s.access p 0 Key.trigoutPulse (fun t => t.cmdTrigoutPulse arg))

/-- TRIGOUT_END (R244): the output goes inactive. -/
def execTrigoutEnd (n : Nat) (s : State) : Out :=
  within n 16 (if s.trigoutActive.contains n then { s with trigoutActive := s.trigoutActive.filter (fun x => x != n) }.showTrigout n else s)

/-! ## Time-interval units -/

/-- KIND of a selector. -/
def selKind (w : Word) : Nat := field w 0 2

/-- A selector names an S-lane of a disabled channel. -/
def State.selDisabled (s : State) (w : Word) : Bool := selKind w == 1 && s.laneState (field w 2 10) == 2

/-- COUNT without an input B: it ends by TIU_ARM with argument 0 or by its timeout (R249). -/
def State.tiuOpenCount (s : State) (u : Nat) : Bool := s.tiuMode u == 3 && selKind (s.get (Key.tiuInB u)) == 0

/-- A COUNT without input B reports its result and is IDLE whatever REPEAT says, where it is disarmed. -/
def State.tiuDisarmed (s : State) (u : Nat) : State :=
  if s.tiuSt u = 2 ∧ s.tiuOpenCount u then
    let s := s.tiuResultIn u (s.tiuRun u).count (s.tiuRun u).armTick false false
    s.putF (Key.tiuStatus u) 0 2 0
  else s.tiuIdle u

/-- TIU_ARM (R248, R250, R251). -/
def State.cmdTiuArm (s : State) (u : Nat) (arg : Word) : Code × State :=
  let arm := arg == 1
  let a := s.get (Key.tiuInA u)
  let b := s.get (Key.tiuInB u)
  let c := refuse [(s.cmdMode || (arm && s.mode == Mode.train), .wrongMode), (arm && s.tiuSt u != 0, .busy), (decide (1 < arg.toNat), .range),
    (arm && (selKind a == 0 || (s.tiuMode u == 0 && selKind b == 0)), .range), (arm && (s.selDisabled a || s.selDisabled b), .disabled)]
  if c ≠ .ok then (c, s)
  else (.ok, (if arm then s.armTiu u s.nowTick else s.tiuDisarmed u).cmdDone (Key.tiuArm u) 0)

/-- TIU_ARM with argument 1. -/
def execTiuArm (p : Path) (u : Nat) (s : State) : Out := within u 16 (s.access p 0 (Key.tiuArm u) (fun t => t.cmdTiuArm u 1))

/-- TIU_ARM with argument 0. -/
def execTiuDisarm (p : Path) (u : Nat) (s : State) : Out := within u 16 (s.access p 0 (Key.tiuArm u) (fun t => t.cmdTiuArm u 0))

/-- Whether what an input shows is an edge of its comparator (R245), and a falling one: an S-lane's low-threshold comparator sees the lane leave and enter −1, its
high-threshold comparator enter and leave +1. -/
def edgeFalls (w : Word) : InputEdge → Option Bool
  | .aux f => if selKind w = 2 then some f else none
  | .lane was now =>
    if selKind w ≠ 1 then none
    else
      let t : Tern := if bit w 12 then .high else .low
      if was = t ∧ now ≠ t then some (bit w 12) else if now = t ∧ was ≠ t then some (!bit w 12) else none

/-- The selector of an input. -/
def State.tiuSel (s : State) (u : Nat) (onB : Bool) : Word := s.get (if onB then Key.tiuInB u else Key.tiuInA u)

/-- An input delivers the edge (R245): of the slope, or either slope on input A in PULSE_WIDTH; the lane neither disabled nor of a slice in slice CALIBRATE. -/
def State.qualifies (s : State) (u : Nat) (onB : Bool) (e : InputEdge) : Bool :=
  let w := s.tiuSel u onB
  let slope := match edgeFalls w e with
    | some falling => (falling == bit w 13) || (!onB && s.tiuMode u == 4)
    | none => false
  let g := field w 2 10
  slope && (selKind w == 2 || (selKind w == 1 && s.laneState g != 2 && (s.get (Key.sliceMode (g / 32))).toNat != 1))

/-- The edge lies within what the unit counts (R248, R249): at or after the arm tick, and before the end of a FREQUENCY gate. -/
def State.tiuInside (s : State) (u tick : Nat) : Bool :=
  decide ((s.tiuRun u).armTick ≤ tick) && (s.tiuMode u != 2 || decide (tick < (s.tiuRun u).armTick + (s.get (Key.tiuGate u)).toNat))

/-- The stamp of an edge (R246): of an S-lane the channel's LANE_DS is subtracted, rounded to whole ticks of 312.5 ps; halfway the device chooses. -/
def State.tiuStamp (s : State) (u : Nat) (onB : Bool) (tick : Nat) : Nat × State :=
  let w := s.tiuSel u onB
  if selKind w = 1 then
    let r := s.nearestOpen (((s.get (Key.laneDs (field w 2 10))).toNat : Rat) / 312500)
    (tick - r.1, r.2)
  else (tick, s)

/-- A count of ticks has passed 2^48 - 1 by a tick: the measurement has ended (R249). DESIGN CHOICE (log entry 150): it ends with the next edge of its inputs. -/
def State.tiuFull (s : State) (u tick : Nat) : Bool :=
  [0, 1, 4].contains (s.tiuMode u) && (match (s.tiuRun u).start with | some t0 => decide (tiuMax < tick - t0) | none => false)

/-- An edge that an input delivers, by its slope and stamp: outside what the unit counts it is nothing; less than 1.25 ns after the last one of its input it is lost. -/
def State.tiuTakes (s : State) (u : Nat) (onB falling : Bool) (tick since : Nat) : State :=
  if !s.tiuInside u tick then s
  else if s.tiuFull u tick then s.tiuResultIn u tiuMax ((s.tiuRun u).start.getD 0) false false
  else if since < 1250 then
    let s := s.countSat (Key.deadMiss u) 32 1
    if onB then s else s.tiuLost u falling
  else s.tiuCount u onB falling tick

/-- TIU_EDGE (R246, R247, R249). -/
def execTiuEdge (u : Nat) (onB : Bool) (e : InputEdge) (tick since : Nat) (s : State) : Out :=
  within u 16
    (if !s.unitsRun || !(s.tiuSt u == 1 || s.tiuSt u == 2) || !s.qualifies u onB e then s
     else
      let x := s.tiuStamp u onB tick
      x.2.tiuTakes u onB ((edgeFalls (s.tiuSel u onB) e).getD false) x.1 since)

/-- TIU_GATE_END (R249). -/
def execTiuGateEnd (u : Nat) (s : State) : Out :=
  within u 16 (if s.unitsRun ∧ s.tiuSt u = 2 ∧ s.tiuMode u = 2 then s.tiuResultIn u (s.tiuRun u).count (s.tiuRun u).armTick false false else s)

/-- TIU_TIMEOUT (R249, R250): result 0 with TIMEOUT; a COUNT without input B ends with its count. The spec gives TIU_START_TIME no value where there was no start. -/
def execTiuTimeout (u : Nat) (s : State) : Out :=
  within u 16
    (if !s.unitsRun || !(s.tiuSt u == 1 || s.tiuSt u == 2) || s.get (Key.tiuTimeout u) == 0 then s
     else
      let r := s.tiuRun u
      if s.tiuOpenCount u then s.tiuResultIn u r.count r.armTick false true
      else match r.start with
        | some t0 => s.tiuResultIn u 0 t0 false true
        | none => let f := s.free; f.2.tiuResultIn u 0 f.1.toNat false true)

/-- TIU_HOLDOFF_END (R250). -/
def execTiuHoldoffEnd (u : Nat) (s : State) : Out := within u 16 (if s.unitsRun ∧ s.tiuSt u = 3 then s.armTiu u s.nowTick else s)

/-! ## Sense ADC -/

/-- ADC_START (R253). -/
def State.cmdAdcStart (s : State) (n : Nat) (arg : Word) : Code × State :=
  let start := arg == 1
  let c := refuse [(s.cmdMode || (start && s.mode == Mode.train), .wrongMode), (start && s.adcRunning n, .busy), (decide (1 < arg.toNat), .range)]
  if c ≠ .ok then (c, s)
  else (.ok, (if start then s.startAdc n else s.putF (Key.adcStatus n) 0 1 0).cmdDone (Key.adcStart n) 0)

/-- ADC_START with argument 1. -/
def execAdcStart (p : Path) (n : Nat) (s : State) : Out := within n 16 (s.access p 0 (Key.adcStart n) (fun t => t.cmdAdcStart n 1))

/-- ADC_START with argument 0. -/
def execAdcStop (p : Path) (n : Nat) (s : State) : Out := within n 16 (s.access p 0 (Key.adcStart n) (fun t => t.cmdAdcStart n 0))

/-- A code passes full scale: it saturates (R252). -/
def adcClamp (c : Int) : Int := if c < -32768 then -32768 else if 32767 < c then 32767 else c

/-- One conversion of a running sequence: the code reaches ADC_VALUE and the acquisition units; FS083 as OVERRANGE becomes set (R373). -/
def State.convert (s : State) (n : Nat) (code : Int) : State :=
  let v := adcClamp code
  let s := (s.put (Key.adcValue n) (intWord v)).offer n v (s.nowTick % 2 ^ 48) false
  let left := mget 0 s.adcLeft n - 1
  let s := if s.getF (Key.adcCfg n) 0 2 = 2 then s
    else if left = 0 then { s with adcLeft := mset 0 s.adcLeft n 0 }.putF (Key.adcStatus n) 0 1 0
    else { s with adcLeft := mset 0 s.adcLeft n left }
  if v ≠ code ∧ !bit (s.get (Key.adcStatus n)) 1 then (s.putF (Key.adcStatus n) 1 1 1).fault 83 (.unit n) 0 else s

/-- ADC_CONVERSION (R253). -/
def execAdcConversion (n : Nat) (code : Int) (s : State) : Out := within n 16 (if s.unitsRun && s.adcRunning n then s.convert n code else s)

/-! ## Acquisition units -/

/-- ACQ_ARM with argument 0 by state (R258). -/
def State.disarmAcq (s : State) (u : Nat) : State :=
  match s.acqSt u with
  | 1 => (s.putAcq u (s.acq u).fresh).setAcq u 0
  | 2 => s.closeRecord u true
  | 3 => s.putAcq u { s.acq u with cancelRearm := true }
  | 4 => s.setAcq u 0
  | _ => s

/-- ACQ_ARM (R257-R259): BUSY where no unit that it arms is IDLE. -/
def State.cmdAcqArm (s : State) (u : Nat) (arg : Word) : Code × State :=
  let arm := arg == 1
  let c := refuse [(s.cmdMode || (arm && s.mode == Mode.train), .wrongMode), (arm && (s.armSet u).isEmpty, .busy), (decide (1 < arg.toNat), .range),
    (arm && s.acqGroup u && !s.acqMaster u, .range)]
  if c ≠ .ok then (c, s)
  else (.ok, (if arm then (s.armSet u).foldl (fun t x => t.armUnit x (edgeAfter s.nowTick)) s else s.disarmAcq u).cmdDone (Key.acqArm u) 0)

/-- ACQ_ARM with argument 1. -/
def execAcqArm (p : Path) (u : Nat) (s : State) : Out := within u 8 (s.access p 0 (Key.acqArm u) (fun t => t.cmdAcqArm u 1))

/-- ACQ_ARM with argument 0. -/
def execAcqDisarm (p : Path) (u : Nat) (s : State) : Out := within u 8 (s.access p 0 (Key.acqArm u) (fun t => t.cmdAcqArm u 0))

/-- ACQ_FORCE (R256, R258): refused with BUSY it is a trigger all the same, which POST and REARM count. -/
def State.cmdAcqForce (s : State) (u : Nat) (arg : Word) : Code × State :=
  let c := refuse [(s.cmdMode, .wrongMode), (s.acqSt u != 1, .busy), (arg != 0, .range)]
  if c ≠ .ok then (c, if c = .busy then s.countTrigger u else s) else (.ok, (s.fireSelf u (edgeAfter s.nowTick) true).cmdDone (Key.acqForce u) 0)

def execAcqForce (p : Path) (u : Nat) (s : State) : Out := within u 8 (s.access p 0 (Key.acqForce u) (fun t => t.cmdAcqForce u 0))

/-- ACQ_SAMPLE (R255, R256): the oldest sample offered to the unit is evaluated. -/
def execAcqSample (u edge : Nat) (s : State) : Out :=
  within u 8
    (let a := s.acq u
     match a.offers with
     | [] => s
     | (v, time, sat) :: rest =>
      let s := s.putAcq u { a with offers := rest }
      if s.unitsRun then s.sample u v time sat (edgeAfter edge) else s)

/-- ACQ_GROUP_FIRE (R257): an ARMED member fires 5 ns after its group. -/
def execAcqGroupFire (u : Nat) (s : State) : Out :=
  within u 8
    (let a := s.acq u
     match a.groupFire with
     | none => s
     | some (f, by_) => if s.unitsRun ∧ s.acqSt u = 1 then s.fireUnit u f by_ false false else s.putAcq u { a with groupFire := none })

/-- ACQ_REARM_END (R258). -/
def execAcqRearmEnd (u : Nat) (s : State) : Out :=
  within u 8
    (if s.unitsRun ∧ s.acqSt u = 3 then
      let again := bit (s.get (Key.acqCtrl u)) 12 && !(s.acq u).cancelRearm
      if again then s.armUnit u s.nowTick else (s.putAcq u (s.acq u).fresh).setAcq u 0
     else s)

/-- ACQ_RELEASE (R259). -/
def execAcqRelease (p : Path) (u : Nat) (value : Word) (s : State) : Out := within u 8 (s.accessPlain p 0 (Key.acqRelease u) value)

/-- FAIL_RATE_INTERVAL (R254): the fails of a port counted in 1 µs; 0 outside BURST. -/
def State.failRate (s : State) (port : Nat) : State :=
  let total := mget 0 s.burst.failTotals port
  let n := if s.mode = Mode.burst then total - mget 0 s.burst.rateMark port else 0
  let s := { s with burst := { s.burst with rateMark := mset 0 s.burst.rateMark port total } }
  (List.range 8).foldl (fun t u =>
    if t.acqSource u = 0x20 ∧ (t.get (Key.acqPort u)).toNat = port then t.putAcq u { t.acq u with offers := (t.acq u).offers ++ [((n : Int), t.nowTick % 2 ^ 48, false)] }
    else t) s

def execFailRateInterval (port : Nat) (s : State) : Out := within port 8192 (if s.unitsRun then s.failRate port else s)

end Sys2Proof.Machine
end

