-- ==== Sys2Proof/Machine/LaneOps.lean ====
section
/-! DEFINITION. Lane deskew as an operation (R185-R189): the split of a measured round trip, what a commit writes to a channel, the fault of a slice with failed channels. -/

namespace Sys2Proof.Machine

/-- A whole number of grid steps (0.78125 ps) in fs, to the nearest (R187). -/
def gridFs (n : Nat) : Nat := roundDiv (n * 3125) 4

/-- D_T in grid steps (R185): half of RT and LANE_ASYM (× 8 ÷ 25), a tie rounding up. -/
def splitT (rt : Nat) (asym : Int) : Int := (25 * (rt : Int) + 8 * asym + 25) / 50

/-- A delay lies within 0-12,000 ps, 15,360 grid steps. -/
def delayOk (d : Int) : Bool := decide (0 ≤ d) && decide (d ≤ 15360)

/-- RT of the fine step (R188): the mean of the four transitions, to the nearest grid position, a half up. -/
def rtOf (r : DeskewResult) : Nat := (r.rise + r.fall + r.dip + r.lift + 2) / 4

/-- How far the four transitions lie apart, in grid steps. -/
def spreadOf (r : DeskewResult) : Nat := max (max r.rise r.fall) (max r.dip r.lift) - min (min r.rise r.fall) (min r.dip r.lift)

/-- The lane code of the first of steps 2 to 5 that fails (R188, R189), 0 where the eye step is reached: no common mode, a level not as sent, RT above 24,000 ps, the
transitions more than 20 ps apart. -/
def earlyCause (r : DeskewResult) : Nat :=
  if !r.present then 1 else if !r.levels then 2 else if 24000 * 16 < r.coarse * 5000 then 3 else if 20 * 32 < spreadOf r * 25 then 4 else 0

/-- The cause a deskew leaves on a channel (R188): that of the failing measurement step, else an eye under 150 ps, else a split outside its range; 0 passed. -/
def State.deskewCause (s : State) (r : DeskewResult) : Nat :=
  let t := splitT (rtOf r) (s.get (Key.laneAsym r.channel)).toInt
  if earlyCause r ≠ 0 then earlyCause r
  else if r.eye < 150 then 4
  else if delayOk t && delayOk ((rtOf r : Int) - t) then 0
  else 3

/-- What the commit writes for one channel (R187, R188). EYE_WIDTH is written where the channel reached the eye step. -/
def State.deskewChannel (s : State) (r : DeskewResult) : State :=
  let g := r.channel
  let c := s.deskewCause r
  let s := s.countSat (Key.deskewCount g) 16 1
  let s := if earlyCause r = 0 then s.put (Key.eyeWidth g) (toWord (satTo 0xFFFF r.eye)) else s
  if c = 0 then
    let t := splitT (rtOf r) (s.get (Key.laneAsym g)).toInt
    let s := ((s.put (Key.laneRt g) (toWord (gridFs (rtOf r)))).put (Key.laneDt g) (toWord (gridFs t.toNat))).put (Key.laneDs g) (toWord (gridFs ((rtOf r : Int) - t).toNat))
    ((s.putF (Key.laneStatus g) 0 2 1).putF (Key.laneStatus g) 4 4 0).putF (Key.laneStatus g) 8 1 0
  else ((s.putF (Key.laneStatus g) 0 2 2).putF (Key.laneStatus g) 4 4 c).driveLane g .highZ

/-- The results a deskew of the slices gives their channels; a channel of which nothing came back had no signal. -/
def deskewOf (sls : List Nat) (rs : List DeskewResult) : List DeskewResult :=
  sls.flatMap (fun sl => (List.range 32).map (fun c => (rs.find? (fun r => r.channel == 32 * sl + c)).getD
    { channel := 32 * sl + c, present := false, levels := false, coarse := 0, rise := 0, fall := 0, dip := 0, lift := 0, eye := 0 }))

/-- The commit of a deskew (R188, R189): every channel, LANES_DISABLED, and FS052 once for each slice with a failed channel. -/
def State.deskew (s : State) (sls : List Nat) (rs : List DeskewResult) : State :=
  let mine := deskewOf sls rs
  let bad := sls.filter (fun sl => mine.any (fun r => r.channel / 32 == sl && s.deskewCause r != 0))
  let s := (mine.foldl (fun t r => t.deskewChannel r) s).refreshLanes
  s.collect (bad.map (fun sl => { source := 52, loc := .slice sl, detail := 0, injected := false }))

/-- How many channels of the slices pass and fail. -/
def State.deskewCounts (s : State) (sls : List Nat) (rs : List DeskewResult) : Nat × Nat :=
  let mine := deskewOf sls rs
  ((mine.filter (fun r => s.deskewCause r == 0)).length, (mine.filter (fun r => s.deskewCause r != 0)).length)

end Sys2Proof.Machine
end

