-- ==== Sys2Proof/Machine/Badger.lean ====
section
/-! DEFINITION. Badger (R346-R367): calibration and self-test requests, their queue and gaps (R68, R361-R363), the routine from its start to the end of its post-commit
part, and the cancel, deadline and overrun that end a request. -/

namespace Sys2Proof.Machine

/-! ## Requests (R357-R360) -/

/-- A routine of the catalogue (R357). -/
def routineKnown (code : Nat) : Bool := [0x01, 0x02, 0x03, 0x20, 0x21].contains code

/-- ROUTINE and NOW of a slot, and its target. -/
def State.reqCode (s : State) (n : Nat) : Nat := s.getF (Key.reqCtrl n) 0 8
def State.reqNow (s : State) (n : Nat) : Bool := bit (s.get (Key.reqCtrl n)) 8
def State.reqBits (s : State) (n : Nat) : Nat := (s.get (Key.reqTarget n)).toNat

/-- The slices a request owns: its target, or the union of DAC_SLICES of the DACs a DAC_SELFTEST names (R358). -/
def State.reqSlices (s : State) (n : Nat) : List Nat :=
  if s.reqCode n = 0x21 then (List.range 32).filter (fun sl => (bitsOf 64 (s.reqBits n)).any (fun d => bit (s.get (Key.dacSlices d)) sl))
  else bitsOf 32 (s.reqBits n)

/-- The DACs that a routine tests (R357). -/
def State.reqTested (s : State) (n : Nat) : List Nat := if s.reqCode n = 0x21 then bitsOf 64 (s.reqBits n) else []

/-- The DACs that a routine tests, or whose codes carry its stimulus (R349, R352). -/
def State.reqDacs (s : State) (n : Nat) : List Nat := s.reqTested n ++ s.dacsOnlyOf (s.reqSlices n)

/-- ROUTINE is not of the catalogue, the target is empty, or it has bits beyond the routine's units. -/
def State.reqBad (s : State) (n : Nat) : Bool :=
  !routineKnown (s.reqCode n) || s.reqBits n == 0 || (s.reqCode n != 0x21 && decide (2 ^ 32 ≤ s.reqBits n))

/-- The named slices whose PLL is unlocked. -/
def State.reqUnlocked (s : State) (n : Nat) : List Nat := (s.reqSlices n).filter (fun sl => !(s.slice sl).pllLocked)

/-- A slot joins the queue: a NOW request ahead of every request without NOW and behind earlier NOW requests (R363). -/
def State.enqueueReq (s : State) (n : Nat) : State :=
  let q := s.badgerQueue
  { s with badgerQueue := if s.reqNow n then q.takeWhile (fun x => s.reqNow x) ++ [n] ++ q.dropWhile (fun x => s.reqNow x) else q ++ [n] }

/-- REQ_CMD (R360, R364). -/
def State.cmdReq (s : State) (n : Nat) (arg : Word) : Code × State :=
  let c := refuse [
    (s.cmdMode || s.mode == Mode.safe, .wrongMode), (s.cmdBusy (Key.reqCmd n), .busy), (arg != 1 || s.reqBad n, .range), (!(s.reqUnlocked n).isEmpty, .disabled),
    (s.reqNow n && s.mode == Mode.armed && (s.reqSlices n).any (fun sl => s.sliceArmed sl), .locked)]
  if c ≠ .ok then (c, s) else (.ok, ((s.enqueueReq n).putF (Key.reqResult n) 32 8 0).cmdPend (Key.reqCmd n) 0)

/-- DETAIL of a refused REQ_CMD: the lowest slice whose PLL is unlocked. -/
def State.reqDetail (s : State) (n : Nat) (c : Code) : Nat := if c = .disabled then (s.reqUnlocked n).headD 0 else 0

/-- REQ_CMD by its object. -/
def execReqCmd (p : Path) (slot : Nat) (arg : Word) (s : State) : Out :=
  within slot 16 (s.accessDetail p 0 (Key.reqCmd slot) (fun t => t.cmdReq slot arg) (s.reqDetail slot))

/-- A request leaves the queue, its command ended. -/
def State.leaveQueue (s : State) (n : Nat) : State := { s with badgerQueue := s.badgerQueue.filter (fun x => x != n) }

/-- A request ends FAILED with a code, DETAIL its ABANDONS (R364). -/
def State.failReq (s : State) (n : Nat) (c : Code) : State := (s.leaveQueue n).cmdFail (Key.reqCmd n) c (s.abandons n)

/-- The routine that runs for a slot. -/
def State.routineOf (s : State) (n : Nat) : Option Routine := match s.routine with | some r => if r.slot = n then some r else none | none => none

/-- The routine of a slot ends without being put back into the queue (R354, R355, R365). -/
def State.dropRoutine (s : State) (n : Nat) : State := match s.routineOf n with | some r => s.endStimulus r | none => s

/-- CAL_CANCEL (R365). -/
def State.cmdCalCancel (s : State) (arg : Word) : Code × State :=
  let n := arg.toNat
  let post := match s.routineOf n with | some r => r.postCommit | none => false
  let c := refuse [(s.cmdMode, .wrongMode), (post, .busy), (decide (15 < n) || !s.cmdBusy (Key.reqCmd n), .range)]
  if c ≠ .ok then (c, s) else (.ok, ((s.dropRoutine n).failReq n .aborted).cmdDone Key.calCancel 0)

def execCalCancel (p : Path) (arg : Word) (s : State) : Out := .next (s.access p 0 Key.calCancel (fun t => t.cmdCalCancel arg))

/-- REQ_DEADLINE (R362): a request that has not started ends; one that runs goes on. -/
def execReqDeadline (slot : Nat) (s : State) : Out :=
  within slot 16 (if s.cmdState (Key.reqCmd slot) = Cmd.pending then s.failReq slot .calDeferredTimeout else s)

/-! ## Gaps and the start (R68, R361, R363) -/

/-- A gap exists for the slices, the 5 µs apart. A NOW request needs no gap in BURST: the running threads stop. DEDUCED (log entry 89): none exists for a slice whose PLL is unlocked, which reads DISABLED (R67) and so cannot read CALIBRATE (R349). -/
def State.gapFor (s : State) (now : Bool) (sls : List Nat) : Bool :=
  let m := s.mode
  let place := sls.all (fun sl => s.sliceModeOf sl != 2 && (s.slice sl).pllLocked)
  place &&
    ((([Mode.idle, Mode.load, Mode.armed].contains m) && !sls.any (fun sl => s.sliceArmed sl)) || m == Mode.calibrate || m == Mode.service ||
      (m == Mode.burst && (now || sls.all (fun sl => (s.threadsOnSlice sl).all (fun th => s.ended th)))))

/-- The first request of a queue that a gap and the order let start; `before` are the slices of earlier requests. -/
def State.nextRequest (s : State) : List Nat → List Nat → Option Nat
  | _, [] => none
  | before, n :: q =>
    let sls := s.reqSlices n
    if !sls.any (fun sl => before.contains sl) && s.gapFor (s.reqNow n) sls then some n else s.nextRequest (before ++ sls) q

/-- The codes of a DAC_SELFTEST (R358): the lowest and the highest in both the usable range and the envelope, and their midpoint. DESIGN CHOICE (log entry 154): in this
order, the midpoint rounded down. -/
def State.testCodes (s : State) (d : Nat) : List Nat :=
  let lo := max (usableLow d) (s.get (Key.minCode d)).toNat
  let hi := min (usableHigh d) (s.get (Key.maxCode d)).toNat
  if lo ≤ hi then [lo, hi, (lo + hi) / 2] else []

/-- The DACs under test take their next code. -/
def State.loadTest (s : State) (r : Routine) : State :=
  r.held.foldl (fun t x =>
    match (t.testCodes x.1)[r.point]? with
    | some c => if t.dacSource x.1 = 3 then t else t.setDac x.1 2 c
    | none => t) s

/-- What the DACs that a routine is to drive hold: those it tests, but at a fault code or high-impedance. -/
def State.heldDacs (s : State) (n : Nat) : List (Nat × Nat × Word) :=
  ((s.reqTested n).filter (fun d => s.dacSource d == 1 || s.dacSource d == 2)).map (fun d => (d, s.dacSource d, s.get (Key.dacActive d)))

/-- The routine of a request starts (R349, R364): running threads on its slices are preempted (R69), the slices read CALIBRATE, deskew raises their LBK and stimulates their
lanes. Threads that stop only with the launch still hold the slices: the start waits for it (R184). -/
def State.startRoutine (s : State) (n : Nat) : State :=
  let sls := s.reqSlices n
  let code := s.reqCode n
  let dacs := s.reqDacs n
  let s := if s.mode = Mode.burst then s.stopThreads (s.burst.threads.filter (fun th => (s.threadSlices th).any (fun x => sls.contains x))) Stop.calPreempt else s
  if sls.any (fun sl => (s.threadsOnSlice sl).any (fun th => s.live th)) then s
  else
  let r : Routine := { slot := n, code := code, slices := sls, dacs := dacs, tested := s.reqTested n, postCommit := false, failPath := false, held := s.heldDacs n, point := 0 }
  let s := { s with routine := some r }.loadTest r
  let s := sls.foldl (fun t sl => (t.putSlice sl { t.slice sl with diagPlaced := false }).put (Key.sliceMode sl) 1) s
  let s := if code = 1 then (s.setLbk sls .high).stimulate sls else s.driveSlices sls .mid
  (s.put Key.badgerStatus (toWord (packFields [(0, 2, 1), (4, 4, n), (8, 8, code)]))).cmdRun (Key.reqCmd n) (s.abandons n)

/-- ROUTINE_START (R361). -/
def execRoutineStart (s : State) : Out :=
  .next (if s.machineCheck || s.routine.isSome then s
    else match s.nextRequest [] s.badgerQueue with
      | some n => s.startRoutine n
      | none => s)

/-- CONDITIONAL_WAIT_END (R356): a timed-out wait takes the routine's own failure path, which its results record. In a DAC_SELFTEST a wait that ends brings the next code
(DESIGN CHOICE, log entry 154). -/
def State.waitEnds (s : State) (timedOut : Bool) : State :=
  match s.routine with
  | some r =>
    if r.postCommit || s.machineCheck then s
    else if timedOut then { s with routine := some { r with failPath := true } }
    else if r.held.isEmpty then s
    else
      let r : Routine := { r with point := min 2 (r.point + 1) }
      { s with routine := some r }.loadTest r
  | none => s

def execConditionalWaitEnd (timedOut : Bool) (s : State) : Out := .next (s.waitEnds timedOut)

/-! ## The commit (R350, R351, R357, R358, R364, R366) -/

/-- The results of the units in order. -/
def unitsOf (us : List Nat) (rs : List UnitResult) : List UnitResult := us.filterMap (fun u => rs.find? (fun r => r.unit == u))

/-- The units of a routine (R357). -/
def Routine.units (r : Routine) : List Nat :=
  if r.code = 2 then r.slices.flatMap (fun sl => (List.range 32).map (fun c => 32 * sl + c))
  else if r.code = 0x21 then r.tested
  else r.slices

/-- A DAC passes within 2 mV (voltage) or 4 µA (current) of its code (R358). -/
def dacPasses (x : UnitResult) : Bool := decide (x.error ≤ (if x.unit < 48 then 2000 else 4000))

/-- A unit passed. -/
def Routine.passes (r : Routine) (x : UnitResult) : Bool := if r.code = 0x21 then dacPasses x else x.passed

/-- STATE of a self-test result: 1 PASSED, 2 FAILED. -/
def testState (ok : Bool) : Nat := if ok then 1 else 2

/-- The result objects a routine's units take (R366). -/
def State.unitResult (s : State) (r : Routine) (x : UnitResult) : State :=
  if r.code = 0x20 then
    s.put (Key.sliceBistResult x.unit)
      (toWord (packFields (if x.passed then [(0, 2, 1)] else [(0, 2, 2), (4, 4, x.block), (8, 5, x.chan)])))
  else if r.code = 0x21 then
    s.put (Key.dacTestResult x.unit) (toWord (packFields [(0, 2, testState (dacPasses x)), (2, 2, x.block), (16, 16, satTo 0xFFFF x.error)]))
  else s

/-- The fault of a failed unit (R358). -/
def Routine.unitRaise (r : Routine) (x : UnitResult) : Raise :=
  { source := if r.code ≤ 3 then 78 else 80
    loc := if r.code = 2 then .channel x.unit else if r.code = 0x21 then .dac x.unit else .slice x.unit
    detail := 0, injected := false }

/-- REQ_RESULT and REQ_COMMIT_RAW of a commit. -/
def State.commitCounts (s : State) (n passed failed : Nat) : State :=
  let s := (s.putF (Key.reqResult n) 0 16 (satTo 0xFFFF passed)).putF (Key.reqResult n) 16 16 (satTo 0xFFFF failed)
  s.put (Key.reqCommitRaw n) (toWord s.raw)

/-- A DAC at its fault code is not tested and reads NOT_RUN. -/
def State.untested (s : State) (r : Routine) : State :=
  if r.code = 0x21 then (r.tested.filter (fun d => s.dacSource d == 3)).foldl (fun t d => t.put (Key.dacTestResult d) 0) s else s

/-- The commit copy of a routine's shadows; its stimulus on lanes ends, and drift tracking resumes from the calibrated state (R177). -/
def State.commitRoutine (s : State) (r : Routine) (deskew : List DeskewResult) (units : List UnitResult) : State :=
  let s := { s with routine := some { r with postCommit := true } }.putF Key.badgerStatus 0 2 2
  let s := if s.mode = Mode.calibrate then { s with calRan := true } else s
  let s := if r.code = 1 then
      let n := s.deskewCounts r.slices deskew
      (s.commitCounts r.slot n.1 n.2).deskew r.slices deskew
    else
      let mine := unitsOf (r.units.filter (fun u => r.code != 0x21 || s.dacSource u != 3)) units
      let bad := mine.filter (fun x => !r.passes x)
      let s := mine.foldl (fun t x => t.unitResult r x) (s.untested r)
      let s := if r.code = 2 then r.slices.foldl (fun t sl => t.put (Key.driftLag sl) 0) s else s
      (s.commitCounts r.slot (mine.length - bad.length) bad.length).collect (bad.map r.unitRaise)
  (r.slices.foldl (fun t sl => t.putSlice sl { t.slice sl with drift := none }) s).stopStimulus r

/-- ROUTINE_COMMIT (R351). -/
def execRoutineCommit (deskew : List DeskewResult) (units : List UnitResult) (s : State) : Out :=
  .next (match s.routine with
    | some r => if r.postCommit || s.machineCheck then s else s.commitRoutine r deskew units
    | none => s)

/-- POST_COMMIT_END (R351, R364): stimulus removed, the request DONE. -/
def execPostCommitEnd (s : State) : Out :=
  .next (match s.routine with
    | some r => if r.postCommit && !s.machineCheck then ((s.endStimulus r).leaveQueue r.slot).cmdDone (Key.reqCmd r.slot) (s.abandons r.slot) else s
    | none => s)

/-- ROUTINE_OVERRUN (R355): abandoned, FS079 raised, FAILED with HW_FAIL and not requeued. -/
def execRoutineOverrun (s : State) : Out :=
  .next (match s.routine with
    | some r => if r.postCommit || s.machineCheck then s else ((s.endStimulus r).failReq r.slot .hwFail).fault 79 .none 0
    | none => s)

/-! ## Housekeeping (R176, R177, R191, R261, R347) -/

/-- The modes of the housekeeping tasks, TRAIN to SAFE, with Badger not halted (R347, R353). -/
def State.housekeeping (s : State) : Bool := decide (Mode.train ≤ s.mode) && decide (s.mode ≤ Mode.safe) && !s.machineCheck

/-- DRIFT_LAG of a slice and DRIFT_MAX_FS (R177). -/
def State.noteLag (s : State) (sl : Nat) (lag : Int) : State :=
  let s := s.put (Key.driftLag sl) (intWord lag)
  if (s.get Key.driftMaxFs).toNat < lag.natAbs then s.put Key.driftMaxFs (toWord (satTo 0xFFFFFFFF lag.natAbs)) else s

/-- The most that one correction moves an event: 0.8 ps (R176). -/
def clampStep (lag : Int) : Int := if 800 < lag then 800 else if lag < -800 then -800 else lag

/-- A pending correction is applied to all 32 channels of the slice. -/
def State.applyDrift (s : State) (sl : Nat) : State :=
  match (s.slice sl).drift with
  | none => s
  | some lag =>
    let s := s.putSlice sl { s.slice sl with drift := none }
    (s.put (Key.driftLag sl) (intWord ((s.get (Key.driftLag sl)).toInt - clampStep lag))).count Key.driftUpdates 64

/-- A running port lies on the slice. -/
def State.portRuns (s : State) (sl : Nat) : Bool := (s.threadsOnSlice sl).any (fun th => s.live th)

/-- DRIFT_TRACKING (R176): the measured lag, and a correction that replaces a pending one; without a running port it is applied at once. -/
def execDriftTracking (sl : Nat) (lag : Int) (s : State) : Out :=
  within sl 32
    (if s.housekeeping && s.sliceModeOf sl != 1 then
      let s := s.noteLag sl lag
      let s := s.putSlice sl { s.slice sl with drift := some lag, lagHigh := (s.slice sl).lagHigh && decide (4000 < lag.natAbs) }
      if s.portRuns sl then s else s.applyDrift sl
     else s)

/-- DRIFT_CORRECTION_APPLY (R21, R176); tracking pauses on a slice in slice CALIBRATE (R70, R177). -/
def execDriftCorrectionApply (sl : Nat) (s : State) : Out :=
  within sl 32 (if Mode.train ≤ s.mode ∧ s.mode ≤ Mode.safe ∧ s.sliceModeOf sl ≠ 1 then s.applyDrift sl else s)

/-- DRIFT_LIMIT (R177). -/
def execDriftLimit (sl : Nat) (s : State) : Out :=
  within sl 32
    (if s.housekeeping && s.sliceModeOf sl != 1 && !(s.slice sl).lagHigh && decide (4000 < (s.get (Key.driftLag sl)).toInt.natAbs) then
      (s.putSlice sl { s.slice sl with lagHigh := true }).fault 48 (.slice sl) 0
     else s)

/-- EYE_AGGREGATION (R191): a channel above EYE_LIMIT in the interval is EYE_DEGRADED and raises FS051; the interval's counts start afresh. -/
def execEyeAggregation (sl : Nat) (s : State) : Out :=
  within sl 32
    (if s.housekeeping then
      let bad := ((s.slice sl).margins.filter (fun x => decide ((s.get Key.eyeLimit).toNat < x.2))).map Prod.fst
      let s := s.putSlice sl { s.slice sl with margins := [] }
      let s := bad.foldl (fun t g => t.putF (Key.laneStatus g) 8 1 1) s
      s.collect (bad.map (fun g => { source := 51, loc := .channel g, detail := 0, injected := false }))
     else s)

/-- An S-lane is monitored: its device mode, and its channel not disabled (R193). -/
def State.monitored (s : State) (g : Nat) : Bool := decide (Mode.train ≤ s.mode) && decide (s.mode ≤ Mode.safe) && s.laneState g != 2

/-- MARGIN_ERROR (R191). -/
def execMarginError (g : Nat) (s : State) : Out :=
  within g 1024
    (if s.monitored g then
      let sl := s.slice (g / 32)
      (s.putSlice (g / 32) { sl with margins := mset 0 sl.margins g (mget 0 sl.margins g + 1) }).countSat (Key.marginErrors g) 32 1
     else s)

/-- LANE_TX_FAULT (R190): a transmitter of a PASSED channel, its slice not in slice CALIBRATE. -/
def execLaneTxFault (g : Nat) (s : State) : Out :=
  within g 1024 (if s.monitored g && s.laneState g == 1 && s.sliceModeOf (g / 32) != 1 then s.fault 49 (.channel g) 5 else s)

/-- LANE_RX_OPEN (R190). -/
def execLaneRxOpen (g : Nat) (s : State) : Out := within g 1024 (if s.monitored g then s.fault 50 (.channel g) 6 else s)

/-- SLICE_PLL_UNLOCK (R67). -/
def execSlicePllUnlock (sl : Nat) (s : State) : Out :=
  within sl 32
    (if Mode.train ≤ s.mode ∧ (s.slice sl).pllLocked then
      ((s.putSlice sl { s.slice sl with pllLocked := false }).fault (96 + sl) (.slice sl) 0).refreshSlice sl
     else s)

/-- SLICE_PLL_LOCK (R67): the PLL relocks while FREF is present. -/
def execSlicePllLock (sl : Nat) (s : State) : Out :=
  within sl 32
    (if s.frefPresent && !(s.slice sl).pllLocked then
      ((s.putSlice sl { s.slice sl with pllLocked := true }).clearLive (96 + sl)).refreshSlice sl
     else s)

/-- ADC_REFERENCE_CHECK (R261): a failed check raises FS062, a passing one ends its condition. -/
def execAdcReferenceCheck (ok : Bool) (s : State) : Out :=
  .next (if !s.housekeeping then s else if ok then (if s.liveBit 62 then s.clearLive 62 else s) else if s.liveBit 62 then s else s.fault 62 .none 0)

/-- The region of a page (R392, numbered as R404). -/
def regionOfPage (page : Nat) : Option Nat :=
  if page < 64 then some 0 else if page < 72 then some 1 else if page < 74 then some 2 else if page < 90 then some 3 else if page < 128 then none
  else if page < 512 then some 4 else if page < 896 then some 5 else if page < 1024 then some 6 else none

/-- A damaged page: its copy reads INCOMPLETE from the next read on (R396, R407). -/
def Nvm.damage (n : Nvm) (page : Nat) : Nvm :=
  if page < 64 then { n with factoryBad := if n.factoryBad.contains page then n.factoryBad else n.factoryBad ++ [page] }
  else if 64 ≤ page ∧ page < 68 then { n with guard0 := { n.guard0 with cls := .incomplete } }
  else if 68 ≤ page ∧ page < 72 then { n with guard1 := { n.guard1 with cls := .incomplete } }
  else if page = 72 then { n with sel0 := { n.sel0 with cls := .incomplete } }
  else if page = 73 then { n with sel1 := { n.sel1 with cls := .incomplete } }
  else if 74 ≤ page ∧ page < 82 then { n with led0 := { n.led0 with cls := .incomplete } }
  else if 82 ≤ page ∧ page < 90 then { n with led1 := { n.led1 with cls := .incomplete } }
  else if 128 ≤ page ∧ page < 512 then { n with bankA := { n.bankA with cls := .incomplete } }
  else if 512 ≤ page ∧ page < 896 then { n with bankB := { n.bankB with cls := .incomplete } }
  else n

/-- NVM_VERIFY (R347, R391, R407): a mismatch raises FS024 and leaves the working values as loaded. -/
def execNvmVerify (page : Nat) (ok : Bool) (s : State) : Out :=
  within page 1024
    (match regionOfPage page with
     | none => s
     | some j =>
      if ok || !s.housekeeping then s
      else ((({ s with nvm := s.nvm.damage page }.putF Key.nvmStatus 7 1 1).putF Key.nvmStatus 8 3 j)).fault 24 .none 0)

end Sys2Proof.Machine
end

