-- ==== Sys2Proof/Machine/Dram.lean ====
section
/-! DEFINITION. The commands of the DDR5 controller (R281-R299): reads and writes of bursts, drains, refresh, activate counting, retraining, the fill. -/

namespace Sys2Proof.Machine

/-! ## Reads and writes (R281, R284, R285, R298, R299) -/

/-- A read of a burst in the map: forwarded from the queue where a queued write covers it whole; else a partial one retires first and DRAM is read. -/
def State.dramReadAt (s : State) (a : Nat) (ecc : Ecc) : State :=
  let b := a / 64
  let sub := (s.localOf a).1
  let data := s.bytesAt (64 * b) 64
  if (s.get Key.dramFill).toNat ≤ a then s.emit (.readData data false)
  else match s.queued sub b with
    | some q =>
      if q.mask = fullMask then s.emit (.readData data false)
      else let r := (s.retire sub b).readBurst (64 * b) ecc; r.1.emit (.readData data !r.2)
    | none => let r := s.readBurst (64 * b) ecc; r.1.emit (.readData data !r.2)

/-- DRAM_READ of the burst that holds an address (R284). An address outside the map names nothing. -/
def execDramRead (addr : Nat) (ecc : Ecc) (s : State) : Out := .next (if addr < s.capacity then s.dramReadAt addr ecc else s)

/-- The byte enables of `n` bytes from offset `o` of a burst. -/
def byteMask (o n : Nat) : Nat := (2 ^ n - 1) * 2 ^ o

/-- A write within one burst of the map (R284, R285): it takes effect in the order of acceptance and joins the queue; one that leaves a burst partly covered reads it,
and an uncorrectable read poisons the merged burst. -/
def State.dramWriteAt (s : State) (a : Nat) (data : List Byte) (ecc : Ecc) : State :=
  let b := a / 64
  let sub := (s.localOf a).1
  if (s.get Key.dramFill).toNat < a + data.length then s.writeBytes a data
  else
    let s := s.enqueue sub b (byteMask (a % 64) data.length)
    let full := match s.queued sub b with | some q => q.mask == fullMask | none => false
    if full then { s with poison := s.poison.filter (fun x => x != b) }.writeBytes a data
    else
      let r := s.readBurst (64 * b) ecc
      let s := r.1.writeBytes a data
      if r.2 || s.poison.contains b then s else { s with poison := s.poison ++ [b] }

/-- DRAM_WRITE of bytes from an address; those beyond the burst's end are not part of the request. -/
def execDramWrite (addr : Nat) (data : List Byte) (ecc : Ecc) (s : State) : Out :=
  .next (if addr < s.capacity ∧ data ≠ [] then s.dramWriteAt addr (data.take (64 - addr % 64)) ecc else s)

/-- WRITE_DRAIN (R283). -/
def execWriteDrain (subch : Nat) (s : State) : Out := within subch 12 (s.drainQueue subch)

/-! ## Refresh (R286, R287, R289) -/

/-- Refreshes a rank owes: positive postponed, negative paid ahead. -/
def State.owes (s : State) (sub rank : Nat) : Int := ((mget (4 : Nat) (s.subch sub).postponed rank : Nat) : Int) - 4

/-- `s` with a rank's count, and POSTPONED showing the largest of the sub-channel. -/
def State.setOwes (s : State) (sub rank : Nat) (n : Int) : State :=
  let x := s.subch sub
  let l := mset 4 x.postponed rank (n + 4).toNat
  let s := s.putSubch sub { x with postponed := l }
  s.putF (Key.subchStatus sub) 8 3 (l.foldl (fun m y => max m (y.2 - 4)) 0)

/-- A rank of a sub-channel in the map. -/
def State.hasRank (s : State) (sub rank : Nat) : Bool := s.enabled.contains sub && decide (rank < s.dramRanks)

/-- REFRESH_DUE (R287): one more refresh is owed, `paid` having been paid; a count that would reach 5 forces a REFab and stays at 4. At most four are paid ahead. -/
def execRefreshDue (subch rank paid : Nat) (s : State) : Out :=
  within subch 12
    (if !s.hasRank subch rank then s
     else
      let n := max (-4) (s.owes subch rank - paid) + 1
      if 5 ≤ n then ((s.setOwes subch rank 4).countSat Key.refreshForced 64 1).emit (.refresh subch rank) else s.setOwes subch rank n)

/-- A lasting condition of the DDR5 controller has ended on every sub-channel. -/
def State.dramQuiet (s : State) (src : Nat) (holds : Nat → Bool) : State := if (List.range 12).any holds || !s.liveBit src then s else s.clearLive src

/-- REFRESH_RATE_POLL (R286, R289): 1 the normal rate, 2 the doubled one, above 2 hotter. -/
def execRefreshRatePoll (subch rank rate : Nat) (s : State) : Out :=
  within subch 12
    (if !s.hasRank subch rank then s
     else
      let x := s.subch subch
      let was := x.hotRanks.contains rank
      let ranks := x.hotRanks.filter (fun r => r != rank) ++ (if 2 < rate then [rank] else [])
      let s := (s.putSubch subch { x with hotRanks := ranks }).putF (Key.subchStatus subch) 12 1 (b2n !ranks.isEmpty)
      if 2 < rate then (if was then s else s.fault 71 (.subch subch) (dramDetail subch 0xF))
      else s.dramQuiet 71 (fun i => bit (s.get (Key.subchStatus i)) 12))

/-! ## Activate counting (R290, R291) -/

/-- The lowest count of a table. -/
def minAct : List ActEntry → Nat
  | [] => 0
  | [e] => e.count
  | e :: r => min e.count (minAct r)

/-- The table after an ACT of a row, and the row's count: an entry of its own, a free one, or the lowest's place with its count (the first of equal ones). -/
def countAct (t : List ActEntry) (rank bank row : Nat) : List ActEntry × Nat :=
  let mine (e : ActEntry) : Bool := e.rank == rank && e.bank == bank && e.row == row
  match t.find? mine with
  | some e => (t.map (fun x => if mine x then { x with count := x.count + 1 } else x), e.count + 1)
  | none =>
    if t.length < 256 then (t ++ [⟨rank, bank, row, 1⟩], 1)
    else
      let m := minAct t
      let i := (t.findIdx? (fun e => e.count == m)).getD 0
      (t.set i ⟨rank, bank, row, m + 1⟩, m + 1)

/-- The existing neighbours of a row: ±1 and ±2 (R291). -/
def neighbours (rows row : Nat) : List Nat :=
  ([row + 1, row + 2].filter (fun r => decide (r < rows))) ++ (if 1 ≤ row then [row - 1] else []) ++ (if 2 ≤ row then [row - 2] else [])

/-- ACT (R290, R291): the count, and at ACT_THRESHOLD the neighbour refresh or an RFM. -/
def execAct (subch rank bank row : Nat) (s : State) : Out :=
  within subch 12
    (if !s.hasRank subch rank then s
     else
      let x := s.subch subch
      let r := countAct x.acts rank bank row
      if r.2 < (s.get Key.actThreshold).toNat then s.putSubch subch { x with acts := r.1 }
      else
        let done := r.1.map (fun e => if e.rank = rank ∧ e.bank = bank ∧ e.row = row then { e with count := 0 } else e)
        let s := s.putSubch subch { x with acts := done }
        if bit (s.get Key.dramConfig) 7 && bit (s.get (Key.subchStatus subch)) 11 then (s.countSat (Key.subchRfmIssued subch) 64 1).emit (.rfm subch bank)
        else (neighbours s.bankRows row).foldl (fun t n => t.emit (.neighbour subch rank bank n)) (s.countSat Key.neighbourRefreshes 64 1))

/-- ACT_WINDOW_RESET (R290). -/
def execActWindowReset (subch rank : Nat) (s : State) : Out :=
  within subch 12 (s.putSubch subch { s.subch subch with acts := (s.subch subch).acts.filter (fun e => e.rank != rank) })

/-! ## Retraining (R294-R296) -/

/-- The modes in which sub-channels retrain: IDLE to SAFE. -/
def State.retrains (s : State) (sub : Nat) : Bool := s.enabled.contains sub && decide (Mode.idle ≤ s.mode) && decide (s.mode ≤ Mode.safe)

/-- RETRAIN_PAUSE (R294): what one pause's sweep found. -/
def execRetrainPause (subch lane : Nat) (writeDir : Bool) (eye mid : Nat) (s : State) : Out :=
  within subch 12
    (if s.retrains subch ∧ lane < 5 then
      let x := s.subch subch
      s.putSubch subch { x with sweeps := x.sweeps.filter (fun y => !(y.1 == lane && y.2.1 == writeDir)) ++ [(lane, writeDir, eye, mid)] }
     else s)

/-- The eye and midpoint that a sweep of a lane's direction found. -/
def sweepOf (l : List (Nat × Bool × Nat × Nat)) (lane : Nat) (writeDir : Bool) : Nat × Nat :=
  ((l.find? (fun y => y.1 == lane && y.2.1 == writeDir)).map (fun y => y.2.2)).getD (0, 0)

/-- A delay moves toward a midpoint by at most 8 steps (R295). -/
def moveDelay (old mid : Nat) : Nat := if old < mid then min mid (old + 8) else max mid (old - 8)

/-- One lane at the end of a retraining, and whether both directions found an eye of 20 or more (R295). -/
def State.endLane (s : State) (sub lane : Nat) : State × Bool :=
  let l := (s.subch sub).sweeps
  let rd := sweepOf l lane false
  let wr := sweepOf l lane true
  let ok := decide (20 ≤ rd.1) && decide (20 ≤ wr.1)
  let k := Key.laneTrain sub lane
  let s := (s.putF k 24 7 (min 127 rd.1)).putF k 32 7 (min 127 wr.1)
  if ok then ((s.putF k 0 12 (moveDelay (s.getF k 0 12) rd.2)).putF k 12 12 (moveDelay (s.getF k 12 12) wr.2), true)
  else (s.putF k 40 2 2, false)

/-- A lane reads DEGRADED. -/
def State.laneDegraded (s : State) (sub : Nat) : Bool := (List.range 5).any (fun j => s.getF (Key.laneTrain sub j) 40 2 == 2)

/-- The retraining of a sub-channel ends: delays, lane states, FAIL_RUN, and the second consecutive failure (R295, R296). -/
def State.endRetrain (s : State) (sub : Nat) : State :=
  let r := (List.range 5).foldl (fun acc j => let x := acc.1.endLane sub j; (x.1, if x.2 then acc.2 else acc.2 ++ [j])) (s, ([] : List Nat))
  let s := (r.1.putSubch sub { r.1.subch sub with sweeps := [] }).countSat (Key.subchRetrains sub) 32 1
  if r.2.isEmpty then
    let s := (List.range 5).foldl (fun t j => t.putF (Key.laneTrain sub j) 40 2 1) s
    let s := s.putF (Key.subchStatus sub) 13 2 0
    let s := if s.subchSt sub = 3 then s.putF (Key.subchStatus sub) 0 3 2 else s
    s.dramQuiet 68 (fun i => s.laneDegraded i)
  else
    let run := min 2 (s.getF (Key.subchStatus sub) 13 2 + 1)
    let s := (s.putF (Key.subchStatus sub) 13 2 run).putF (Key.subchStatus sub) 0 3 (if run = 2 ∨ s.subchSt sub = 4 then 4 else 3)
    let s := s.collect (r.2.map (fun j => { source := 68, loc := .subch sub, detail := dramDetail sub j, injected := false }))
    if s.burst.running then s else s.disablePending

/-- RETRAIN_END (R295), once both directions of all five lanes have been swept. -/
def execRetrainEnd (subch : Nat) (s : State) : Out :=
  within subch 12 (if s.retrains subch ∧ (s.subch subch).sweeps.length = 10 then s.endRetrain subch else s)

/-! ## Errors per second and the fill (R281, R299) -/

/-- CE_RATE_CHECK (R299): a second of a lane with more corrected errors than CE_LIMIT. -/
def execCeRateCheck (subch lane corrected : Nat) (s : State) : Out :=
  within subch 12 (if (s.get Key.ceLimit).toNat < corrected ∧ lane < 5 then s.fault 67 (.subch subch) (dramDetail subch lane) else s)

/-- DRAM_FILL_DONE (R281): the fill has passed every address, and the writes that waited take effect in order. -/
def execDramFillDone (s : State) : Out :=
  .next (s.waitingWrites.foldl (fun t w => t.writeBytes w.1 w.2) { s.put Key.dramFill (toWord s.capacity) with waitingWrites := [] })

end Sys2Proof.Machine
end

