-- ==== Sys2Proof/Machine/Scheduler.lean ====
section
/-! DEFINITION. The scheduler and the threads' own events (R91-R100, R114-R130): dispatch, preemption, spans and credits, fetches, the ends of waits and of MATCH, tokens,
host jumps. -/

namespace Sys2Proof.Machine

/-! ## Dispatch (R94, R95) -/

/-- A slice holds a span of a thread: released, or waiting in its own slot (R97). -/
def State.holds (s : State) (sl th seq : Nat) : Bool := s.released th sl seq || (s.slice sl).held.contains (th, seq)

/-- The port time at which the first cycle starts for which a slice holds no span (R94): `tu` is the start of the first span of the list, a span still in the crossing is not held. -/
def State.supplied (s : State) (sl th : Nat) : List Span → Nat → Nat
  | [], tu => tu
  | sp :: r, tu => if s.holds sl th sp.seq then s.supplied sl th r (tu + sp.left * s.rowPeriod th sp.row) else tu

/-- The slack of a thread in tu: to the first cycle for which some slice of its port holds no span, less 8 ns (R94). -/
def State.slack (s : State) (th : Nat) : Int :=
  let t := s.thread th
  ((s.threadSlices th).map (fun sl => s.supplied sl th t.spans t.startTu)).foldl min t.issueTu - s.sliceNow - 32000

/-- A thread READY for 4 µs. -/
def State.starved (s : State) (th : Nat) : Bool := s.threadSt th == Th.ready && decide ((s.thread th).readySince + 3200 ≤ s.raw)

/-- The slack that counts: a thread READY for 4 µs has zero (R94). -/
def State.effSlack (s : State) (th : Nat) : Int := if s.starved th then 0 else s.slack th

/-- Thread `a` goes before thread `b` on a core (R94): the lesser slack, among starved ones the one READY longest, then one the core caches, then the lower number. -/
def State.before (s : State) (core a b : Nat) : Bool :=
  let sa := s.effSlack a
  let sb := s.effSlack b
  let ca := (mget [] s.caches core).contains a
  let cb := (mget [] s.caches core).contains b
  if sa ≠ sb then decide (sa < sb)
  else if s.starved a && s.starved b && (s.thread a).readySince != (s.thread b).readySince then decide ((s.thread a).readySince < (s.thread b).readySince)
  else if ca != cb then ca
  else decide (a < b)

/-- The READY threads of the burst. -/
def State.readyThreads (s : State) : List Nat := s.burst.threads.filter (fun th => s.threadSt th == Th.ready)

/-- The thread that a free core takes. -/
def State.nextReady (s : State) (core : Nat) : Option Nat :=
  s.readyThreads.foldl (fun best th => match best with
    | none => some th
    | some b => if s.before core th b then some th else some b) none

/-- The thread on a core. -/
def State.onCore (s : State) (core : Nat) : Option Nat := s.burst.threads.find? (fun th => (s.thread th).core == some core)

/-- The core a thread goes to from a free one (R95): a free core that caches its context, if there is one. DESIGN CHOICE (log entry 124): a caching core that is busy is
not waited for. -/
def State.homeCore (s : State) (core th : Nat) : Nat :=
  let caching (c : Nat) : Bool := (mget [] s.caches c).contains th && (s.onCore c).isNone
  if caching core then core else ((List.range 64).find? caching).getD core

/-- The core runs a thread: RUNNING, its context cached (R90). -/
def State.dispatchTo (s : State) (core th : Nat) : State :=
  let s := (s.putThread th { s.thread th with core := some core, runSince := s.raw, waits := true }).setThreadSt th Th.running
  let old := mget [] s.caches core
  { s with caches := mset [] s.caches core ((th :: old.filter (fun x => x != th)).take 16) }

/-- DISPATCH (R94, R95): the READY thread that goes first on a free core leaves for it, or for the free core that caches its context; nothing happens on a busy core or with
none READY. -/
def execDispatch (core : Nat) (s : State) : Out :=
  within core 64
    (if s.machineCheck || s.mode != Mode.burst || (s.onCore core).isSome then s
     else match s.nextReady core with
      | some th => (((s.dispatchTo (s.homeCore core th) th).examine 16 (.thread th)).1.examine 17 (.thread th)).1
      | none => s)

/-- PREEMPT (R95): a RUNNING thread that has run for 10 ns returns to READY at a microword boundary where a READY thread has less slack and no core is free. -/
def execPreempt (core : Nat) (s : State) : Out :=
  within core 64
    (match s.onCore core with
     | none => s
     | some th =>
      let free := (List.range 64).any (fun c => (s.onCore c).isNone)
      let due := decide ((s.thread th).runSince + 8 ≤ s.raw) && s.threadSt th == Th.running && (s.thread th).matchRun.isNone
      if due && !free && !s.machineCheck && s.readyThreads.any (fun x => decide (s.effSlack x < s.slack th)) then
        (s.putThread th { s.thread th with core := none, readySince := s.raw, waits := false }).setThreadSt th Th.ready
      else s)

/-! ## Spans (R97) -/

/-- A slice releases the span it expects and every held one that follows on (`fuel` bounds them by the share). -/
def State.release (s : State) (sl th : Nat) : Nat → State
  | 0 => s
  | fuel + 1 =>
    let x := s.slice sl
    let e := mget 0 x.expect th
    if x.held.contains (th, e) then
      (s.putSlice sl { x with expect := mset 0 x.expect th ((e + 1) % 2 ^ 32), held := x.held.filter (fun y => y != (th, e)) }).release sl th fuel
    else s

/-- A span reaches a slice: released in order, held where it is early; a number outside the window raises FS036. -/
def State.arrive (s : State) (sl th seq : Nat) : State :=
  let x := s.slice sl
  let ahead := (seq + 2 ^ 32 - mget 0 x.expect th) % 2 ^ 32
  if s.spanShare sl th ≤ ahead then s.fault 36 (.thread th) 0
  else
    let s := if x.held.contains (th, seq) then s else s.putSlice sl { x with held := x.held ++ [(th, seq)] }
    s.release sl th 257

/-- SPAN_ARRIVAL (R97). -/
def execSpanArrival (slice thread seq : Nat) (s : State) : Out :=
  within slice 32 (if s.live thread && (s.threadSlices thread).contains slice then s.arrive slice thread seq else s)

/-- A thread that waited for a credit goes on: HELD becomes READY, a MATCH issues more rows (R91, R99). -/
def State.creditBack (s : State) (th : Nat) : State :=
  let s := if s.threadSt th = Th.held && s.hasCredit th && !s.heldByToken th then s.enterReady th else s
  if (s.thread th).matchRun.isSome then s.feedMatch th 256 else s

/-- SPAN_CREDIT_RETURN (R97): one credit owed by the slice comes back. -/
def execSpanCreditReturn (slice thread : Nat) (s : State) : Out :=
  within slice 32
    (let x := s.slice slice
     let owed := mget 0 x.owed thread
     if owed = 0 then s
     else
      let s := s.putSlice slice { x with
        owed := mset 0 x.owed thread (owed - 1), spanFree := mset 0 x.spanFree thread (min (s.spanShare slice thread) (s.spanFree slice thread + 1)) }
      s.creditBack thread)

/-- FETCH_COMPLETE (R91): DEP_FETCH counts down, and a thread that nothing else keeps becomes READY. -/
def execFetchComplete (thread : Nat) (s : State) : Out :=
  within thread 3072
    (let t := s.thread thread
     if t.depFetch = 0 then s
     else
      let s := s.putThread thread { t with depFetch := t.depFetch - 1 }
      if s.threadSt thread = Th.waiting && !(s.thread thread).depends then s.enterReady thread else s)

/-- CYCLE_START (R161). -/
def execCycleStart (thread : Nat) (obs : List ChanObs) (missing : Bool) (uword : Ecc) (s : State) : Out :=
  within thread 3072 (s.cycleStart thread obs missing uword)

/-! ## The ends of MATCH and of waits (R126, R127, R130, R133) -/

/-- The members a MATCH served that did not meet its condition by the last timely pass. -/
def MatchRun.unmet (m : MatchRun) : List Nat := if m.timedOut then m.served.filter (fun o => !m.met.any (fun x => x.1 == o)) else []

/-- A MATCH exits after pass `e` (R130, R133): MTO, the result flag of the sites that timed out and, in a MASKED group, their masking from the cycle after the body;
the row after the body is next. -/
def State.leaveMatch (s : State) (th : Nat) (m : MatchRun) (e : Nat) : State :=
  let t := s.thread th
  let cycles := m.first + (e + 1) * m.len
  let unmet := m.unmet
  let masks := if s.isSplit (s.groupOf th) || decide ((s.members (s.groupOf th)).length < 2) then [] else unmet
  let s := s.putThread th { t with
    matchRun := none, matchLeft := 0, mto := m.timedOut, matchTimeout := t.matchTimeout || m.timedOut, failedOrds := t.failedOrds ++ unmet, pc := m.row + m.body + 1, cycles := cycles,
    issueTu := m.firstTu + (e + 1) * m.dur }
  let s := (s.served th).foldl (fun u x => if unmet.contains x.1 then u.siteFails (siteOf x.2) 3 else u) s
  let s := (s.maskOrds th masks).jumpAtEnd th
  if (s.thread th).core.isSome then s.setThreadSt th Th.running else s.enterReady th

/-- MATCH_EXIT (R130), once the passes through q + D have executed. -/
def execMatchExit (thread : Nat) (s : State) : Out :=
  within thread 3072
    (let t := s.thread thread
     match t.matchRun with
     | some m =>
      (match m.exit with
       | some e => if s.live thread && decide (m.first + (e + 1) * m.len ≤ t.started) then (s.leaveMatch thread m e).settleThread thread else s
       | none => s)
     | none => s)

/-- WAITTRIG_TIMEOUT (R126): after TIMEOUT cycles of the row. -/
def execWaittrigTimeout (thread : Nat) (s : State) : Out :=
  within thread 3072
    (let t := s.thread thread
     match t.waitRun with
     | some w =>
      (match w.kind with
       | .trig _ timeout =>
         if timeout ≠ 0 ∧ w.first + timeout ≤ t.started ∧ s.live thread then (s.putThread thread { t with depTrig := false, wto := true }).endWait thread timeout else s
       | _ => s)
     | none => s)

/-- WAITTIME_WAKE (R127): 128 ns before the wake time DEP_TIME clears, and the row ends at the resume cycle. -/
def execWaittimeWake (thread : Nat) (s : State) : Out :=
  within thread 3072
    (let t := s.thread thread
     match t.waitRun with
     | some w =>
      (match w.kind with
       | .time wake => if wake ≤ t.startTu + lead ∧ s.live thread then (s.putThread thread { t with depTime := false }).wakeThread thread wake else s
       | _ => s)
     | none => s)

/-- SYNC_TOKEN (R91, R125): a token on its way arrives. -/
def execSyncToken (thread sender t : Nat) (s : State) : Out :=
  within thread 3072
    (if s.tokens.contains (thread, sender, t) then
      let s := { s with tokens := s.tokens.erase (thread, sender, t) }
      if s.live thread then s.takeToken thread sender t else s
     else s)

/-! ## Host jumps (R120-R122) -/

/-- HOST_JUMP's checks and acceptance (R121): every thread of a group takes the jump at a boundary of its own; the reach time is 8 ns after the arrival. -/
def State.cmdHostJump (s : State) (th : Nat) (arg : Word) : Code × State :=
  let key := Key.hostJump th
  let entry := arg.toNat
  let c := refuse [
    (decide (3072 ≤ th), .noObject), (s.mode != Mode.burst, .wrongMode), (s.cmdBusy key, .busy),
    (decide (3 < entry) || s.get (Key.hjEntry th entry) == 0xFFFFFFFFFFFFFFFF || !s.burst.threads.contains th, .range)]
  if c ≠ .ok then (c, s)
  else
    let ths := (s.groupThreads th).filter (fun t => s.live t)
    if ths.isEmpty then (.ok, s.cmdFail key .aborted 0)
    else (.ok, ths.foldl (fun u t => u.putThread t { u.thread t with jump := some ⟨entry, th, s.sliceNow + 32000, false⟩ }) (s.cmdPend key 0))

/-- HOST_JUMP by its object, or by slot 10 of the hot window, which remembers the thread addressed (R332). -/
def execHostJump (p : Path) (thread : Nat) (arg : Word) (s : State) : Out :=
  let s := if p = .hot ∧ s.mode ≠ Mode.reset ∧ s.mode ≠ Mode.boot ∧ thread < 4096 then { s with hotJump := thread } else s
  .next (if p = .hot ∧ 3072 ≤ thread ∧ s.mode ≠ Mode.reset ∧ s.mode ≠ Mode.boot then s.hotRefused Code.noObject.toNat (mkKey 0x23 (0x3000 + thread) 0)
    else s.access p 0 (Key.hostJump thread) (fun t => t.cmdHostJump thread arg))

/-- A row whose first cycle starts at port time `tu` as cycle `first` has not begun: its start lies after the reach time, and no slice has come to it (R121). -/
def Thread.unbegun (t : Thread) (reach : Int) (first tu : Nat) : Bool := decide (t.started ≤ first) && decide (reach < tu)

/-- The first span that begins a segment and whose preceding row has not begun at the reach time (R121); `tu` is the port time at which the first span of the list starts. -/
def State.jumpSpan (s : State) (th : Nat) (reach : Int) : List Span → Nat → Option Span
  | a :: b :: r, tu =>
    if b.snap.isSome && (s.thread th).unbegun reach a.first tu then some b else s.jumpSpan th reach (b :: r) (tu + a.left * s.rowPeriod th a.row)
  | _, _ => none

/-- The port time at which the last span issued starts. -/
def State.lastStart (s : State) (th : Nat) : Nat :=
  match (s.thread th).spans.getLast? with
  | some sp => (s.thread th).issueTu - sp.left * s.rowPeriod th sp.row
  | none => (s.thread th).issueTu

/-- The row a thread's core comes to next begins a segment. -/
def State.segmNext (s : State) (th row : Nat) : Bool := match s.uopAt th row with | some (.segm ..) => true | _ => false

/-- The jump is taken with `pc`'s row as the boundary: nothing after it has been issued. A waiting word in progress is the last row as long as it has not begun. -/
def State.jumpAtPc (s : State) (th : Nat) (reach : Int) : Bool :=
  let t := s.thread th
  t.matchRun.isNone && !t.lastRow && s.segmNext th t.pc && (match t.spans.getLast? with
    | some sp => t.unbegun reach sp.first (s.lastStart th)
    | none => false)

/-- The jump is taken at the end of the MATCH in progress: the row after its body begins a segment, and the last row of its last pass has not begun (R121). -/
def State.jumpAfterMatch (s : State) (th : Nat) (reach : Int) : Bool :=
  let t := s.thread th
  match t.matchRun with
  | none => false
  | some m =>
    let row := m.row + m.body
    let n := match s.uopAt th row with | some u => u.cycles | none => 1
    s.segmNext th (row + 1) && (match m.exit with
      | none => true
      | some e => t.unbegun reach (m.first + (e + 1) * m.len - n) (m.firstTu + (e + 1) * m.dur - n * s.rowPeriod th row))

/-- A thread's context as it was before the row of a span that a jump discards; tokens that discarded rows consumed are banked again. -/
def Thread.rewind (t : Thread) (sp : Span) (n : Snap) : Thread :=
  let back := ((t.spans.filter (fun x => decide (sp.first ≤ x.first))).filterMap (fun x => x.took))
  { t with
    stack := n.stack, loops := n.loops, siteMask := n.siteMask, seen := n.seen, mto := n.mto, wto := n.wto, wlate := n.wlate, uf := n.uf,
    segLabel := n.segLabel, segCount := n.segCount, segStart := n.segStart, issueTu := n.issueTu, judgeMasked := n.judgeMasked, capture := n.capture, sigHeld := n.sigHeld,
    spanSeq := sp.seq, cycles := sp.first, spans := t.spans.filter (fun x => decide (x.first < sp.first)), matchRun := none, waitRun := none, depTrig := false, depTime := false,
    depFetch := 0, banked := back ++ t.banked, depSync := -((back ++ t.banked).length : Int) }

/-- The spans from the boundary on are discarded: their credits return, their cycles were never issued, and the slices expect their numbers again. -/
def State.discardFrom (s : State) (th : Nat) (sp : Span) (n : Snap) : State :=
  let t := s.thread th
  let count := (t.spans.filter (fun x => decide (sp.first ≤ x.first))).length
  let s := (s.countBack th (t.cycles - sp.first)).putThread th (t.rewind sp n)
  let s := s.returnCredits th count
  (s.threadSlices th).foldl (fun u sl =>
    let x := u.slice sl
    let e := mget 0 x.expect th
    u.putSlice sl { x with
      expect := if (e + 2 ^ 32 - sp.seq) % 2 ^ 32 < 2 ^ 31 then mset 0 x.expect th sp.seq else x.expect
      held := x.held.filter (fun y => !(y.1 == th && decide ((y.2 + 2 ^ 32 - sp.seq) % 2 ^ 32 < 2 ^ 31))) }) s

/-- A thread whose jump has been taken goes on. -/
def State.jumpOn (s : State) (th : Nat) : State := if s.threadSt th = Th.running then s else s.enterReady th

/-- HOST_JUMP_TAKEN (R121, R122): the jump is taken at the first boundary whose last row has not begun; a waiting word or MATCH before it is carried through first. -/
def execHostJumpTaken (thread : Nat) (s : State) : Out :=
  within thread 3072
    (let t := s.thread thread
     match t.jump with
     | none => s
     | some j =>
      if !s.live thread || s.machineCheck || j.atEnd then s
      else match s.jumpSpan thread j.reach t.spans t.startTu with
        | some sp =>
          (match sp.snap with
           | some n => ((s.discardFrom thread sp n).takeJump thread j.entry j.who).jumpOn thread
           | none => s)
        | none =>
          if s.jumpAfterMatch thread j.reach || (s.jumpAtPc thread j.reach && t.waitRun.isSome) then s.putThread thread { t with jump := some { j with atEnd := true } }
          else if s.jumpAtPc thread j.reach then (s.takeJump thread j.entry j.who).jumpOn thread
          else s)

/-- HOST_TRIG (R126, R243): any write is line 17. -/
def execHostTrig (p : Path) (value : Word) (s : State) : Out := .next (s.accessPlain p 0 Key.hostTrig value)

end Sys2Proof.Machine
end

