-- ==== Sys2Proof/Machine/Crossings.lean ====
section
/-! DEFINITION. The crossings between islands (R16-R18): their credits, and the items that stand in each, which are those of the queues the state holds. A sender whose crossing
has no free credit keeps its further items in their order (R17). -/

namespace Sys2Proof.Machine

/-- The crossings of R16; a slice, sub-channel or island by its number. -/
inductive Crossing where
  | fetched (subch : Nat) | coreMemory | spans (slice : Nat) | rows (slice : Nat) | control (slice : Nat) | judge (slice : Nat) | hostCore | coreHost | hostMemory | memoryHost
  | network | hostManagement | managementHost | service (slice : Nat) | alwaysOn (island : Nat)
deriving DecidableEq, Repr

/-- The initial credits of a crossing (R16). -/
def Crossing.credits : Crossing → Nat
  | .fetched _ => 64
  | .coreMemory => 64
  | .spans _ => 256
  | .rows _ => 512
  | .control _ => 16
  | .judge _ => 128
  | .hostCore => 32
  | .coreHost => 32
  | .hostMemory => 128
  | .memoryHost => 128
  | .network => 16
  | .hostManagement => 8
  | .managementHost => 8
  | .service _ => 8
  | .alwaysOn _ => 4

/-- The crossings of the device: 32 slices, 12 sub-channels, 39 islands beside the always-on one (R13). -/
def Crossing.all : List Crossing :=
  (List.range 12).map .fetched ++ [.coreMemory] ++ (List.range 32).flatMap (fun sl => [.spans sl, .rows sl, .control sl, .judge sl, .service sl]) ++
    [.hostCore, .coreHost, .hostMemory, .memoryHost, .network, .hostManagement, .managementHost] ++ (List.range 39).map .alwaysOn

/-- The 64-byte blocks a thread's port holds in the vector FIFO of a slice: the rows of its spans not yet executed, up to its share; a further row stays in the local store
until a block is free (R98, R99, R124). DEDUCED (log entry 125): a row's slice of at most 32 codes is one block, which a repeated row keeps. -/
def State.fifoHeld (s : State) (sl th : Nat) : Nat := min (mget 0 (s.slice sl).fifoShare th) ((s.thread th).spans.length)

/-- The span credits taken on a slice (R97). -/
def State.spansHeld (s : State) (sl : Nat) : Nat := ((s.threadsOnSlice sl).map (fun th => s.spanShare sl th - s.spanFree sl th)).sum

/-- The items a sender has for a crossing: fetch requests of the cores, rows and spans of a slice, launch messages not yet taken, fail events and capture data, result records due, writes waiting for the
memory, drift updates, launches of scheduled actions. The events of the table carry every other item across whole. -/
def State.crossingItems (s : State) : Crossing → Nat
  | .coreMemory => (s.burst.threads.map (fun th => (s.thread th).depFetch)).sum
  | .spans sl => s.spansHeld sl
  | .rows sl => ((s.threadsOnSlice sl).map (fun th => s.fifoHeld sl th)).sum
  | .control sl => if s.burst.running && !s.burst.launched && !(s.threadsOnSlice sl).isEmpty then 1 else 0
  | .judge sl => let b := mget ⟨0, 0, false, 0⟩ s.burst.judge sl; ceilDiv b.events 4 + b.bits / 512
  | .coreHost => s.burst.records.length
  | .hostMemory => s.waitingWrites.length
  | .service sl => b2n (s.slice sl).drift.isSome
  | .alwaysOn i => if i = 0 then (List.range 64).countP (fun n => s.getF (Key.slotStatus n) 0 3 == 2) else 0
  | _ => 0

/-- The credits in flight on a crossing: those of its items, and none beyond its credits, for then the sender stalls (R17). -/
def State.crossingHeld (s : State) (c : Crossing) : Nat := min c.credits (s.crossingItems c)

/-- The free credits of a crossing (R18): an item's credit returns when the receiving side consumes it. -/
def State.crossingFree (s : State) (c : Crossing) : Nat := c.credits - s.crossingItems c

/-- The sender of a crossing is stalled (R17). -/
def State.stalled (s : State) (c : Crossing) : Bool := s.crossingFree c == 0

/-- Free credits of the completion ring (R219). -/
def State.ringFree (s : State) : Nat := (4096 + (s.get Key.ringConsumer).toNat + 2 ^ 32 - (s.get Key.ringProducer).toNat) % 2 ^ 32

/-- Entries of the completion ring written and not yet returned by host software (R25). -/
def State.ringWritten (s : State) : Nat := (2 ^ 32 + (s.get Key.ringProducer).toNat - (s.get Key.ringConsumer).toNat) % 2 ^ 32

end Sys2Proof.Machine
end

