-- ==== Sys2Proof/Machine/Bursts.lean ====
section
/-! DEFINITION. Bursts (R19, R20, R23-R31, R63, R76, R232): acceptance of a start, the launch, the stop command, the audit and its report. -/

namespace Sys2Proof.Machine

/-! ## Mode requests that end (R61, R63) -/

/-- A mode change that was requested has been made: MODE_REQUEST reads DONE (R61) and its interrupt is signalled (R343). -/
def State.finishRequest (s : State) : State :=
  if s.cmdBusy Key.modeRequest then (s.cmdDone Key.modeRequest (s.getF Key.modeRequest 16 16)).irq Irq.mode else s

/-- Entry into QUIESCE: units in POST close their records with TRUNC (R259), and every slot returns to IDLE (R321). -/
def State.enterQuiesce (s : State) : State :=
  let s := (List.range 8).foldl (fun t u => if t.acqSt u = 2 then t.closeRecord u true else t) s
  let s := (List.range 64).foldl (fun t n => if t.slotState n = 0 then t else t.putF (Key.slotStatus n) 0 3 0) s
  s.enterMode Mode.quiesce

/-- The device enters a mode, with what QUIESCE adds. -/
def State.goMode (s : State) (m : Nat) : State := if m = Mode.quiesce then s.enterQuiesce else s.enterMode m

/-- The mode that waited for the audit of the burst is entered (R63). -/
def State.settleEntering (s : State) : State :=
  match s.entering with
  | none => s
  | some m => (s.goMode m).finishRequest

/-- A mode that waited for an audit which R28 has cut is entered without it. -/
def State.settleCut (s : State) : State := if s.entering.isSome && !s.burst.running then s.settleEntering else s

/-! ## Accepting a start (R19, R23, R30, R62, R76, R77) -/

/-- Objects take their shipped value again. -/
def State.dropObjs (s : State) (f : Nat → Bool) : State := (s.objs.filter (fun kv => f kv.1)).foldl (fun t kv => t.put kv.1 (shipped kv.1)) s

/-- The objects that an accepted burst start sets to 0 or to "none" (R30, R102, R122, R154, R177, R205, R206, R210,
R213). -/
def burstObject (key : Nat) : Bool :=
  let o := keyObj key
  let e := keyEl key
  match keyArea key with
  | 0x01 => decide (0x1000 ≤ o) && decide (1 ≤ e)
  | 0x24 => ((o == 0x20 || o == 0x21) && decide (1 ≤ e)) || o == 0x33 || o == 0x34 || o == 0x35 || (decide (0x1000 ≤ o) && decide (o ≤ 0x13FF)) ||
      (decide (0x2000 ≤ o) && decide (o ≤ 0x21FF) && decide (1 ≤ e))
  | 0x23 => o == 0x10 || o == 0x11 || o == 0x14 || (decide (0x4000 ≤ o) && decide (o ≤ 0x4BFF) && e == 5)
  | 0x25 => o == 0x14 || o == 0x15
  | 0x31 => o == 0x16
  | 0x21 => o == 0x12
  | _ => false

/-- The threads whose stop fields still tell of an earlier burst (R436). -/
def State.stopKept (s : State) : List Nat :=
  (s.objs.filterMap (fun kv =>
    if keyArea kv.1 = 0x23 ∧ 0x1000 ≤ keyObj kv.1 ∧ keyObj kv.1 ≤ 0x1BFF ∧ (keyEl kv.1 = 2 ∨ (keyEl kv.1 = 1 ∧ field kv.2 8 9 ≠ 0)) then some (keyObj kv.1 - 0x1000) else none)).eraseDups

/-- The cycle counts of a thread start afresh on every slice of its port, with the primed spans issued (R25, R30, R93). -/
def State.freshCounts (s : State) (th : Nat) : State :=
  let n := (s.thread th).cycles
  (s.putCounts (s.threadSlices th) th (fun _ => ⟨n, 0, 0⟩)).put (Key.cyclesIssued th) (toWord n)

/-- An accepted burst start (R23, R30): every armed thread is in the burst, its counters start afresh, CYCLES_ISSUED with the primed spans, and the device
enters BURST; `tick` is the launch time. -/
def State.acceptBurst (s : State) (tick : Nat) : State :=
  let ths := s.armedThreads
  let s := (s.dropObjs burstObject).clearDmaCounts
  let s := s.count Key.burstNumber 32
  let s := { s with ledger := { s.ledger with bursts := (s.ledger.bursts + 1) % 2 ^ 64 } }
  let s := ths.foldl (fun t th => t.freshCounts th) s
  let s := ths.foldl (fun t th => (t.served th).foldl (fun u x => u.putF (Key.siteStatus (siteOf x.2)) 0 1 1) t) s
  let s := s.put Key.captureStatus 3
  let s := s.enterMode Mode.burst
  { s with burst := { Burst.none with running := true, launchTick := tick, threads := ths, records := s.burst.records, previous := s.stopKept } }

/-- START_LEAD in slice ticks. -/
def State.leadTicks (s : State) : Nat := ceilDiv ((s.get Key.startLead).toNat * 32) 10

/-- The first FREF edge at or after an epoch time. -/
def frefEdge (t : Nat) : Nat := 32 * ceilDiv t 32

/-- A joint start is under way on this device (R232). -/
def State.jointBusy (s : State) : Bool := s.ring.startFlight || s.ring.launchDue.isSome

/-- The code of a burst start by either source (R64, R77): BUSY while a mode change runs or once the audit has reported, AUDIT_BUSY before; DISABLED
after the loss of a sub-channel (R296). -/
def State.startCode (s : State) : Code :=
  refuse [(s.modeChanging, .busy), (s.mode != Mode.armed && s.mode != Mode.burst, .wrongMode), (s.jointBusy || (s.mode == Mode.burst && !s.burst.running), .busy),
    (s.mode == Mode.burst, .auditBusy), (s.mapChanged, .disabled)]

/-- A member with JOINT set in a ring that is up starts jointly (R232). -/
def State.joint (s : State) : Bool := bit (s.get Key.ringCtrl) 2 && s.ringUp

/-- The originator sends START_REQ (R232); `slot` names the slot that asked, if one did. -/
def State.startJoint (s : State) (slot : Option Nat) : State :=
  let s := s.queueFlit 3 s.nowTick 0
  { s with ring := { s.ring with startFlight := true, startSlot := slot } }

/-- BURST_START (R76). -/
def State.cmdBurstStart (s : State) (arg : Word) : Code × State :=
  let c := s.startCode
  let c := if c = .ok ∨ c = .auditBusy ∨ c = .disabled then refuse [(s.cmdBusy Key.burstStart, .busy), (arg != 0, .range), (true, c)] else c
  if c ≠ .ok then (c, s)
  else if s.joint then (.ok, (s.startJoint none).cmdRun Key.burstStart 0)
  else (.ok, (s.acceptBurst (frefEdge (s.nowTick + s.leadTicks))).cmdDone Key.burstStart 0)

/-- BURST_START by its object or slot 3 of the hot window. -/
def execBurstStart (p : Path) (arg : Word) (s : State) : Out := .next (s.access p 0 Key.burstStart (fun t => t.cmdBurstStart arg))

/-! ## The launch (R19, R20, R74, R217, R235, R436) -/

/-- The stop fields of a thread start afresh (R436). -/
def State.clearStop (s : State) (th : Nat) : State :=
  (s.put (Key.threadState th) (setField (setField (s.get (Key.threadState th)) 8 8 0) 16 1 0)).put (Key.stopCycle th) 0

/-- One thread is launched: its stop fields start afresh, its signatures initialise, and it is READY, WAITING or HELD. -/
def State.launchThread (s : State) (th : Nat) : State :=
  if s.ended th then s
  else
    let t := s.thread th
    let s := s.clearStop th
    let s := (s.sigSlots th).foldl (fun u i => if bit (u.get (Key.sigCtrl (8 * u.groupOf th + i))) 15 then u else u.sigReset th i) s
    if t.lastRow then s.setThreadSt th Th.running
    else s.enterReady th

/-- Every condition is 0 at launch (R235). -/
def State.clearConditions (s : State) : State := { s with ring := { s.ring with contributions := [], ownContribution := 0, pubBefore := 0 } }.put Key.ringCond 0

/-- A thread with slices that are late (R20): it ends at once where none of its slices started, else at the next cycle boundary of those that did. -/
def State.launchThreadLate (s : State) (th : Nat) (late : List Nat) : State :=
  let sls := (s.threadSlices th).filter (fun sl => late.contains sl)
  if sls.isEmpty || s.ended th then s
  else
    let s := s.putThread th { s.thread th with late := sls }
    if (s.startedSlices th).isEmpty then s.endAll [(th, Stop.launchLate)] else s

/-- The threads that a late slice keeps from starting stop on every slice, and FS045 is raised (R20). -/
def State.launchLate (s : State) (late : List Nat) : State :=
  if late.isEmpty then s
  else
    let s := (s.burst.threads.foldl (fun t th => t.launchThreadLate th late) s).settleStop
    s.collect (late.map (fun sl => { source := 45, loc := .slice sl, detail := 0, injected := false }))

/-- The stops that came before the launch take effect at the start of cycle 0, by ascending thread number (R220). -/
def State.takeEarly (s : State) : State :=
  let l := s.burst.threads.filterMap (fun th => s.burst.early.find? (fun x => x.1 == th))
  ({ s with burst := { s.burst with early := [] } }.endAll l).settleStop

/-- The launch of the accepted burst. -/
def State.launch (s : State) (late : List Nat) : State :=
  let s := { s with burst := { s.burst with launched := true } }
  let s := s.put Key.launchEpoch (toWord (s.burst.launchTick / 32))
  let s := s.burst.previous.foldl (fun t th => t.clearStop th) s.clearConditions
  let s := s.burst.threads.foldl (fun t th => t.launchThread th) s
  (s.takeEarly.launchLate late).settleBurst

/-- A joint start that this device asked for ends: its command reads DONE or FAILED, its slot records the outcome (R76, R232, R320). -/
def State.endJoint (s : State) (c : Code) : State :=
  let slot := s.ring.startSlot
  let s := { s with ring := { s.ring with startFlight := false, startSlot := none } }
  let s := if s.cmdBusy Key.burstStart then (if c = .ok then s.cmdDone Key.burstStart 0 else s.cmdFail Key.burstStart c 0) else s
  match slot with
  | some n => s.slotDecided n c
  | none => s

/-- The launch time of a joint start is reached (R232): a member that is ARMED launches; one that has left ARMED does not, and a command of its own ends FAILED. -/
def State.jointLaunch (s : State) : State :=
  match s.ring.launchDue with
  | none => s
  | some l =>
    let s := { s with ring := { s.ring with launchDue := none } }
    if s.mode = Mode.armed ∧ !s.modeChanging then (s.acceptBurst l).endJoint .ok else s.endJoint .aborted

/-- BURST_LAUNCH (R19, R20). -/
def execBurstLaunch (late : List Nat) (s : State) : Out :=
  let s := s.jointLaunch
  .next (if s.mode = Mode.burst ∧ s.burst.running ∧ !s.burst.launched ∧ !s.machineCheck then s.launch (late.filter (fun sl => decide (sl < 32))).eraseDups else s)

/-! ## The stop command (R76) -/

/-- BURST_STOP (R76). -/
def State.cmdBurstStop (s : State) (arg : Word) : Code × State :=
  let n := arg.toNat
  let c := refuse [(s.mode != Mode.burst, .wrongMode), (s.cmdBusy Key.burstStop, .busy), (n != 0xFFFF && !s.burst.threads.contains n, .range)]
  if c ≠ .ok then (c, s)
  else
    let ths := if n = 0xFFFF then s.burst.threads else s.groupThreads n
    let s := s.cmdRun Key.burstStop 0
    let s := { s with burst := { s.burst with stopping := ths } }
    let s := if n = 0xFFFF then s.stopThreads ths Stop.hostStop else (s.stopThreads [n] Stop.hostStop).stopThreads ths Stop.groupStop
    (.ok, s)

/-- BURST_STOP by its object or slot 4 of the hot window. -/
def execBurstStop (p : Path) (arg : Word) (s : State) : Out := .next (s.access p 0 Key.burstStop (fun t => t.cmdBurstStop arg))

/-! ## The audit (R24-R28) -/

/-- The cycle guarantee of a thread, on each slice of its port. -/
def State.cycleOk (s : State) (th : Nat) : Bool :=
  (s.threadSlices th).all (fun sl => let c := s.counts sl th; c.issued == c.executed + c.flushed)

/-- The strobe guarantee of a thread. -/
def State.strobeOk (s : State) (th : Nat) : Bool :=
  s.get (Key.strobesPlaced th) == s.get (Key.strobesJudged th) &&
    (s.get (Key.strobesJudged th)).toNat == (s.get (Key.passes th)).toNat + (s.get (Key.fails th)).toNat + (s.get (Key.masked th)).toNat

/-- The fail guarantee of a site. -/
def State.failOk (s : State) (site : Nat) : Bool :=
  (s.get (Key.failTotal site)).toNat == (s.get (Key.loggedBits site)).toNat + (s.get (Key.failOverflow site)).toNat

/-- The credit guarantee: free credits and credits in flight make the initial count in every span queue, whose spans have all been released or flushed, on every crossing of
R16, in every ring class and in the completion ring. -/
def State.creditOk (s : State) : Bool :=
  s.burst.threads.all (fun th => (s.threadSlices th).all (fun sl => s.spanFree sl th == s.spanShare sl th)) && s.ring.quiet &&
    Crossing.all.all (fun c => s.crossingFree c + s.crossingHeld c == c.credits) && s.ringFree + s.ringWritten == 4096

/-- The DMA byte guarantee of a channel, over closed descriptors. -/
def State.dmaOk (s : State) (c : Nat) : Bool := let d := s.chan c; d.reqBytes == d.doneBytes + d.abortBytes

/-- The sites of the burst. -/
def State.burstSites (s : State) : List Nat := (s.burst.threads.flatMap (fun th => (s.served th).map (fun x => siteOf x.2))).eraseDups

/-- The smallest number of a list, or a given one if it is empty. -/
def leastOr (d : Nat) : List Nat → Nat
  | [] => d
  | x :: r => let m := leastOr d r; if r.isEmpty ∨ x < m then x else m

/-- What the comparison finds: the mismatch flags of R31 from bit 8 on, FIRST_THREAD, the lowest failing site. -/
def State.compareAudit (s : State) (timeout : Bool) : List Bool × Nat × Nat :=
  let badThreads := s.burst.threads.filter (fun th => !s.cycleOk th || !s.strobeOk th)
  let badSites := s.burstSites.filter (fun x => !s.failOk x)
  ([s.burst.threads.any (fun th => !s.cycleOk th), s.burst.threads.any (fun th => !s.strobeOk th), !badSites.isEmpty, timeout || !s.creditOk, (List.range 8).any (fun c => !s.dmaOk c)],
   leastOr 0xFFF badThreads, leastOr 0 badSites)

/-- The raises of a failed audit (R27): FS040-FS044, with the DETAIL of R377. -/
def auditRaises (flags : List Bool) (thread site : Nat) : List Raise :=
  (flags.mapIdx (fun i b => (i, b))).filterMap (fun x =>
    if x.2 then some { source := 40 + x.1, loc := .none, detail := if x.1 = 2 then site else thread, injected := false } else none)

/-- The comparators examine the burst (R383): the inversion that waits for one is taken, and its source is the failed check, with DRY. -/
def State.examineAudit (s : State) : State × Option (Nat × Bool) :=
  match s.injection with
  | some (x, _, dry) => if 40 ≤ x ∧ x ≤ 44 then ({ s with injection := none }.cmdDone Key.faultInject 0, some (x, dry)) else (s, none)
  | none => (s, none)

/-- The raises of an audit (R27): those of the failed guarantees, and that of an inverted comparator, all in one collector cycle. -/
def State.raiseAudit (s : State) (rs : List Raise) (inverted : Option (Nat × Bool)) : State :=
  match inverted with
  | none => s.collect rs
  | some (x, dry) =>
    if rs.any (fun r => r.source == x) then s.collect rs
    else s.collectAt (orderBy (fun src => if src = x ∧ dry then Sev.note else s.severityOf src) (rs ++ [{ source := x, loc := .none, detail := 0, injected := true }]))

/-- The audit compares and reports (R26, R27): AUDIT_STATUS, the burst-complete interrupt, the faults of failed guarantees; then a mode that waited is entered (R63). -/
def State.report (s : State) (drainNs : Nat) (timeout : Bool) : State :=
  let x := s.spillAll.examineAudit
  let s := x.1
  let a := s.compareAudit timeout
  let flags := a.1.mapIdx (fun i b => b || (x.2.map Prod.fst == some (40 + i)))
  let failed := flags.any id
  let word := packFields ([(0, 3, if failed then 4 else 3), (16, 12, a.2.1)] ++ flags.mapIdx (fun i b => (8 + i, 1, b2n b)))
  let s := s.put Key.auditDrainNs (toWord drainNs)
  let s := s.put Key.dmaOpenBytes (toWord (((List.range 8).map (fun c => ((s.chan c).opens.map (fun d => d.desc.length)).sum)).sum))
  let s := s.put Key.auditStatus (toWord word)
  let s := if failed then (s.putF Key.captureStatus 0 1 0).putF Key.captureStatus 1 1 0 else s
  let s := { s with burst := { s.burst with running := false } }.irq Irq.burstComplete
  (s.raiseAudit (auditRaises a.1 a.2.1 a.2.2) x.2).disablePending.settleEntering

/-- AUDIT_DRAIN_END (R26): nothing happens while a drain condition does not hold. AUDIT_DRAIN_NS reads at most 100 where all held at burst end. -/
def execAuditDrainEnd (drainNs : Nat) (s : State) : Out :=
  .next (if s.auditSt = 1 ∧ s.drained then s.report (min drainNs (if s.burst.quick then 100 else 10000)) false else s.settleCut)

/-- AUDIT_DRAIN_TIMEOUT (R26): AUDIT_DRAIN_NS reads 10,000 and the credit audit fails. -/
def execAuditDrainTimeout (s : State) : Out := .next (if s.auditSt = 1 ∧ !s.drained then s.report 10000 true else s)

end Sys2Proof.Machine
end

