-- ==== Sys2Proof/Machine/Levels.lean ====
section
/-! DEFINITION. The commands of the level DACs (R262-R275). -/

namespace Sys2Proof.Machine

/-- A load strobe by its mode (R77): accepted in ARMED, BURST and DIAGNOSE, BUSY in CALIBRATE, WRONG_MODE elsewhere. -/
def State.strobeCode (s : State) : Code :=
  refuse [(!(decide (Mode.armed ≤ s.mode) && decide (s.mode ≤ Mode.calibrate)), .wrongMode), (s.mode == Mode.calibrate, .busy)]

/-- The load strobes whose modulator edge has come take effect (R267, R268), each with the pending codes of that moment; those that the mode no longer takes are dropped
(DESIGN CHOICE, log entry 84). A code that the envelope refuses raises FS064. -/
def State.loadEdge (s : State) : State :=
  let now := s.nowTick
  let due := s.loadsDue.filter (fun x => decide (x.1 ≤ now))
  if due.isEmpty then s
  else
    let s := { s with loadsDue := s.loadsDue.filter (fun x => decide (now < x.1)) }
    let takes := s.strobeCode = .ok
    let r := (due.filter (fun x => x.2.isNone || takes)).foldl (fun (acc : State × List Raise) x => let y := acc.1.loadDue x.1 x.2; (y.1, acc.2 ++ y.2)) (s, [])
    r.1.collect r.2

/-- DAC_LOAD (R267): the named groups load on the first modulator edge at least 20 ns later. -/
def State.cmdDacLoad (s : State) (arg : Word) : Code × State :=
  let c := s.strobeCode
  let c := if c = .wrongMode then c else refuse [(c != .ok || s.cmdBusy Key.dacLoad, .busy), (decide (2 ^ 8 ≤ arg.toNat), .range)]
  if c ≠ .ok then (c, s)
  else
    let e := edgeAfter (s.nowTick + 64)
    let s := (s.cmdRun Key.dacLoad 0).queueLoads (bitsOf 8 arg.toNat) e
    (.ok, { s with loadsDue := s.loadsDue ++ [(e, none)] })

def execDacLoad (p : Path) (arg : Word) (s : State) : Out := .next (s.access p 0 Key.dacLoad (fun t => t.cmdDacLoad arg))

/-- DAC_PARK_WRITE (R269, R271). -/
def execDacParkWrite (p : Path) (dac : Nat) (value : Word) (s : State) : Out := within dac 64 (s.accessPlain p 0 (Key.dacPark dac) value)

/-- The compliance window of a current output in mV (R272). -/
def State.complianceLow (s : State) (d : Nat) : Int := ((max 200 (s.get (Key.compLow d)).toNat : Nat) : Int)
def State.complianceHigh (s : State) (d : Nat) : Int := ((min 1600 (s.get (Key.compHigh d)).toNat : Nat) : Int)

/-- DAC_COMPLIANCE (R272): the node of a current output has stayed outside its window for 2 µs. -/
def execDacCompliance (dac : Nat) (mv : Int) (s : State) : Out :=
  within dac 64
    (if s.unitsRun ∧ 48 ≤ dac ∧ (mv < s.complianceLow dac ∨ s.complianceHigh dac < mv) then
      let s := s.putF (Key.dacStatus dac) 3 1 1
      let s := s.putF (Key.dacStatus dac) (if mv < 100 ∨ 1700 < mv then 4 else 5) 1 1
      (s.faultDac dac).fault 63 (.dac dac) 0
     else s)

/-- DAC_MODULATOR (R273). -/
def execDacModulator (dac : Nat) (s : State) : Out :=
  within dac 64 (if Mode.train ≤ s.mode then (s.putF (Key.dacStatus dac) 8 1 1).fault 65 (.dac dac) 0 else s)

end Sys2Proof.Machine
end

