-- ==== Sys2Proof/Machine/FernRing.lean ====
section
/-! DEFINITION. The commands of Fern alignment (R222-R225) and of the Creder ring (R226-R241). -/

namespace Sys2Proof.Machine

/-! ## Fern -/

/-- A new epoch 0 at a raw count (R223, R225): the ARMED slots are converted again. -/
def State.newEpoch (s : State) (raw0 : Nat) : State :=
  { (s.put Key.epochCount 0).put Key.rawAtEpoch0 (toWord raw0) with loadEdges := [] }.slotsFollow s.raw

/-- The raw count of the next aligned FREF edge. -/
def State.nextEdge (s : State) : Nat := s.raw + (8 - epochPhase s.raw (s.get Key.rawAtEpoch0).toNat) % 8

/-- FERN_ALIGN's gates (R223, R225). -/
def State.fernCode (s : State) (arg : Word) : Code :=
  refuse [(s.mode != Mode.idle, .wrongMode), (s.cmdBusy Key.fernAlign || (List.range 64).any (fun n => s.slotState n == 2), .busy), (decide (1 < arg.toNat), .range)]

/-- FERN_ALIGN (R223): `din` the measured D_IN in fs, `none` where no return has arrived; `roundTrip` the round trip it rests on. -/
def State.cmdFernAlign (s : State) (arg : Word) (din : Option Nat) (roundTrip : Nat) : Code × State :=
  let c := s.fernCode arg
  if c ≠ .ok then (c, s)
  else
    let s := s.ringDown false
    let s := { s with ring := { s.ring with due := [] } }
    if arg = 1 then (.ok, (((s.put Key.fernOffset 0).newEpoch s.nextEdge).setFernSt 3).cmdDone Key.fernAlign 0)
    else
      let s := (s.cmdRun Key.fernAlign 0).emit (.fsyncOut 4096)
      match din with
      | none => (.ok, s)
      | some d =>
        let s := (s.putF Key.fernStatus 4 1 1).put Key.fernDin (toWord d)
        let target := 250 * (s.get Key.fernTarget).toNat
        if target < d then (.ok, s.cmdFail Key.fernAlign .range 3)
        else (.ok, { (s.put Key.fernOffset (toWord (target - d))).setFernSt 1 with fernAligned := some roundTrip, fernAwait := true })

/-- FERN_ALIGN with argument 0 and what its measurement finds. -/
def execFernAlign (p : Path) (arg : Word) (din : Option Nat) (roundTrip : Nat) (s : State) : Out :=
  .next (s.access p 0 Key.fernAlign (fun t => t.cmdFernAlign arg din roundTrip))

/-- FERN_ALIGN with LOCAL. -/
def execFernAlignLocal (p : Path) (s : State) : Out := .next (s.access p 0 Key.fernAlign (fun t => t.cmdFernAlign 1 none 0))

/-- FERN_ALIGN_TIMEOUT (R223): no return within 1 ms, or no pulse within 2 s. -/
def execFernAlignTimeout (noReturn : Bool) (s : State) : Out :=
  .next (if !s.cmdBusy Key.fernAlign then s
    else if noReturn then (if s.fernAwait then s else (s.putF Key.fernStatus 4 1 0).cmdFail Key.fernAlign .hwFail 2)
    else if s.fernAwait then ({ s with fernAwait := false }.setFernSt 0).cmdFail Key.fernAlign .hwFail 1
    else s)

/-- FSYNC_PULSE (R223, R224): epoch 0 where one is awaited; on an aligned device only a check. -/
def execFsyncPulse (s : State) : Out :=
  .next (if s.mode = Mode.reset ∨ !s.frefPresent then s
    else if s.fernSt = 1 then
      let s := ({ s with fernAwait := false }.newEpoch s.raw).setFernSt 2
      if s.cmdBusy Key.fernAlign then s.cmdDone Key.fernAlign 0 else s
    else if s.fernSt = 2 then
      let n := (s.get Key.fsyncPeriod).toNat
      if n ≠ 0 ∧ (s.get Key.epochCount).toNat % n ≠ 0 then (s.count Key.fsyncMismatches 32).ringFault 57 .none else s
    else s)

/-- FERN_RETURN (R224): the round trip of the pulse sent every 2^20 epochs. -/
def State.fernReturn (s : State) (roundTrip : Option Nat) (aligned : Nat) : State :=
  let s := s.emit (.fsyncOut 1)
  match roundTrip with
  | none => s.putF Key.fernStatus 4 1 0
  | some rt =>
    let d : Int := (rt : Int) - aligned
    let was := bit (s.get Key.fernStatus) 5
    let drifts := decide (8000 < d.natAbs)
    let s := ((s.put Key.fernRtDrift (intWord d)).putF Key.fernStatus 4 1 1).putF Key.fernStatus 5 1 (b2n drifts)
    if drifts && !was then s.fault 58 .none 0
    else if !drifts && s.liveBit 58 then s.clearLive 58
    else s

def execFernReturn (roundTrip : Option Nat) (s : State) : Out :=
  .next (match s.fernAligned with
    | some a => if s.fernSt = 2 then s.fernReturn roundTrip a else s
    | none => s)

/-- FREF_LOSS (R240). -/
def execFrefLoss (s : State) : Out :=
  .next (if s.mode = Mode.reset then s else (({ s with frefPresent := false }.setFernSt 4).ringDown false).fault 56 .none 0)

/-! ## Formation (R231, R241) -/

/-- RING_CTRL: ENABLE, MASTER, JOINT, WRAP. -/
def State.ringEnabled (s : State) : Bool := bit (s.get Key.ringCtrl) 0
def State.ringMaster (s : State) : Bool := bit (s.get Key.ringCtrl) 1
def State.ringJoint (s : State) : Bool := bit (s.get Key.ringCtrl) 2

/-- RING_FORM (R231). -/
def State.cmdRingForm (s : State) (arg : Word) : Code × State :=
  let c := refuse [(s.mode != Mode.idle, .wrongMode), (s.cmdBusy Key.ringForm, .busy), (arg != 0 || !s.ringMaster, .range)]
  if c ≠ .ok then (c, s)
  else
    let s := (s.ringDown false).cmdRun Key.ringForm 0
    let s := ({ s with ring := { Ring.rest with nextSeq := s.ring.nextSeq } }.setRingSt 1).putF Key.ringStatus 5 5 0
    (.ok, s.queueFlit 1 s.nowTick 0)

def execRingForm (p : Path) (s : State) : Out := .next (s.access p 0 Key.ringForm (fun t => t.cmdRingForm 0))

/-- A formation ends FAILED: DETAIL holds the position and the reason. -/
def State.formFails (s : State) (reason position : Nat) : State :=
  let c : Code := if reason = 2 then .wrongMode else if reason = 3 ∨ reason = 4 then .range else .hwFail
  ((s.ringDown false).setRingSt 0).cmdFail Key.ringForm c (position % 32 + 32 * (reason % 8))

/-- RING_FORM_TIMEOUT (R231). -/
def execRingFormTimeout (reason position : Nat) (s : State) : Out :=
  .next (if s.cmdBusy Key.ringForm ∧ 1 ≤ reason ∧ reason ≤ 5 then s.formFails reason position else s)

/-- LAP in ps and RING_LAT in ns from the sum of the hops in ps (R231). -/
def lapOf (n hops : Nat) : Nat := ceilDiv hops (n * 2125) * (n * 2125)
def latOf (n lap : Nat) : Nat := ceilDiv (2 * lap + 17 * (n * 2125) + 150000) 10000 * 10

/-- The ring is up (R231, R241): FORMED, or WRAPPED where it is folded, and RING_LAT is in force. -/
def State.formed (s : State) : State := (s.setRingSt (if s.foldedRing then 3 else 2)).put Key.ringLat (toWord s.ring.lat)

/-- The 256 MEASURE flits a device sends in a direction (R231): they wait for slots and credits like every flit of class CTRL. DESIGN CHOICE (log entry 77): a payload of 1
marks, until departure, those of the B to A direction of a folded ring. -/
def State.sendMeasures (s : State) (portB : Bool) : State := (List.range 256).foldl (fun t _ => t.queueFlit 2 0 (b2n portB)) s

/-- The master's FORM flit is back (R231): the ring's size after the first lap, the formed ring after the second. -/
def State.formBack (s : State) (f : Flit) : State :=
  let w : Word := toWord f.payload.toNat
  let n := field w 0 5 + 1
  if !s.linkA && !s.linkB then s.formFails 5 0
  else if !(s.linkA && s.linkB) && !s.wrap then s.formFails 1 0
  else if bit w 5 then s.formed.cmdDone Key.ringForm 0
  else if f.mark ∧ field w 24 5 = 0 then s.formFails 4 0
  else if f.mark then s.formFails 2 (field w 24 5)
  else if s.fernSt ≠ 2 ∧ !(n = 1 ∧ s.fernSt = 3) then s.formFails 2 0
  else (s.putF Key.ringStatus 10 6 n).sendMeasures (s.outPort false)

/-- A member takes its place on the first lap, or RING_LAT and the size on the second, where its links carry the lap (R231, R241). DESIGN CHOICE (log entry 148): a device
that would be position 32 sets MARK beside position 0, which the master reports as reason 4. -/
def State.formPass (s : State) (back : Bool) (f : Flit) : State :=
  let w : Word := toWord f.payload.toNat
  let n := field w 0 5
  if bit w 5 then
    let s := s.putF Key.ringStatus 10 6 (n + 1)
    let s := { s with ring := { s.ring with lat := 10 * field w 8 13 } }
    (if (s.linkA && s.linkB) || s.wrap then s.formed else s).forward back f
  else if n = 31 then s.forward back { f with mark := true, payload := BitVec.ofNat 32 (setField w 24 5 0).toNat }
  else
    let pos := n + 1
    let ready := s.fernSt = 2 ∧ (s.mode = Mode.idle ∨ s.mode = Mode.load)
    let s := { s.ringDown false with ring := { Ring.rest with nextSeq := s.ring.nextSeq } }
    let s := ((s.setRingSt 1).putF Key.ringStatus 5 5 pos)
    let s := s.sendMeasures (s.outPort false)
    let w := setField w 0 5 pos
    if ready then s.forward back { f with payload := BitVec.ofNat 32 w.toNat }
    else s.forward back { f with mark := true, payload := BitVec.ofNat 32 (setField w 24 5 pos).toNat }

/-- A flit is this device's own. -/
def State.ownFlit (s : State) (f : Flit) : Bool := f.src == s.ringPos && s.ring.inFlight.any (fun g => g.typ == f.typ && g.seq == f.seq)

/-- A slot on its way back through a folded ring is only passed on; a first-lap FORM tells the device that the ring is folded, and it measures the way back too (R241).
DEDUCED (log entry 80): each device acts on a flit once, as it goes from A to B, or where it turns round. -/
def State.passBack (s : State) (f : Flit) : State :=
  let s := if f.typ = 1 ∧ !s.ring.folded then { s with ring := { s.ring with folded := true } }.sendMeasures true else s
  s.forward true f

/-- What every arriving flit meets first (R228, R231): a device that takes no part ignores it, a bad CRC is counted and the slot forwarded as ERRORED; of a good one DUE is
resolved. -/
def State.arrives (s : State) (back : Bool) (f : Flit) (act : State → Flit → State) : Out :=
  .next (if !s.ringEnabled || s.mode == Mode.reset then s
    else if !flitOk f then s.badCrc back f
    else
      let g := { f with due := s.resolveDue f.due }
      if back && s.linkB then s.passBack g else act s g)

/-- What a member's flit meets on its way (R228): a second copy of a flit that is already held is only forwarded. -/
def State.passes (s : State) (back : Bool) (f : Flit) (act : State → State) : State := if s.seenFlit f then s.forward back f else (act (s.noteFlit f))

/-- FLIT_FORM. -/
def execFlitForm (back : Bool) (f : Flit) (s : State) : Out :=
  s.arrives back f (fun s f =>
    if s.ringMaster then (if s.cmdBusy Key.ringForm ∧ s.ownFlit f then (s.flitHome f).formBack f else s)
    else s.passes back f (fun t => t.formPass back f))

/-- The hops whose mean is known: those of the A to B direction by their position, those of the B to A direction from 32 on. -/
def State.knownHops (s : State) : List (Nat × Nat × Nat) := s.ring.hops.filter (fun x => x.2.1 == 256)

/-- Every hop of the lap is known: one from each position, in a folded ring both ways over every link but the broken one (R241). -/
def State.lapKnown (s : State) (n : Nat) : Bool :=
  if s.foldedRing then s.knownHops.length == 2 * (n - 1) else (List.range n).all (fun j => (mget (0, 0) s.ring.hops j).1 == 256)

/-- The master knows every hop (R231, R241): LAP, RING_LAT, and the second lap of FORM. -/
def State.secondLap (s : State) (n : Nat) : State :=
  let lap := lapOf n ((s.knownHops.map (fun x => x.2.2)).sum)
  let lat := latOf n lap
  let s := { s.put Key.ringLap (toWord lap) with ring := { s.ring with lat := lat } }
  s.queueFlit 1 s.nowTick (packFields [(0, 5, n - 1), (5, 1, 1), (8, 13, lat / 10)])

/-- The hop of a MEASURE flit in grid steps: arrival less departure (R227, R231). -/
def hopSteps (f : Flit) (tick grid : Nat) : Nat := 400 * tick + grid - (400 * f.due + f.payload.toNat % 512)

/-- FLIT_MEASURE: the mean of 256 hops from position `i` (32 and up: of the B to A direction), rounded to the grid step of 0.78125 ps, is RING_HOP in ps; above 40 ns the
formation fails. -/
def State.measured (s : State) (i steps : Nat) : State :=
  let old := mget (0, 0) s.ring.hops i
  let n := old.1 + 1
  let sum := old.2 + steps
  if n ≠ 256 then { s with ring := { s.ring with hops := mset (0, 0) s.ring.hops i (n, sum) } }
  else
    let g := s.nearestOpen ((sum : Rat) / 256)
    let r := g.2.roundOpen ((g.1 : Rat) * 25 / 32)
    let s := { r.2 with ring := { r.2.ring with hops := mset (0, 0) r.2.ring.hops i (256, r.1.toNat) } }
    let s := if i < 32 then s.put (Key.ringHop i) (intWord r.1) else s
    let size := s.ringSize
    if !s.cmdBusy Key.ringForm then s
    else if 40000 * 32 < 25 * g.1 then s.formFails 3 i
    else if size ≠ 0 ∧ s.lapKnown size then s.secondLap size
    else s

/-- FLIT_MEASURE: removed by the device it reaches, on either port. -/
def execFlitMeasure (back : Bool) (f : Flit) (tick grid : Nat) (s : State) : Out :=
  .next (if !s.ringEnabled || s.mode == Mode.reset then s
    else if !flitOk f then s.badCrc back f
    else if s.ringSt = 1 ∧ f.src < 32 then s.measured (f.src + (if back then 32 else 0)) (hopSteps { f with due := s.resolveDue f.due } tick grid)
    else s)

/-! ## Joint starts (R232, R233) -/

/-- The lowest position below this device's whose START_REQ has passed: the one that marked its own (R233). -/
def State.marker (s : State) : Option Nat := (List.range s.ringPos).find? (fun p => s.ring.starters.contains p)

/-- The originator's START_REQ is back: refused, or LAUNCH goes out. DETAIL holds the marking position, which is known from the START_REQ of that position; where none has
passed it is left open (R233, log entry 78). -/
def State.startBack (s : State) (f : Flit) : State :=
  let asked := ((s.ring.inFlight.find? (fun g => g.typ == 3 && g.seq == f.seq)).map Flit.due).getD f.due
  let s := s.flitHome f
  if !s.ring.startFlight then s
  else
    let cmd := s.cmdBusy Key.burstStart
    let fails (t : State) (c : Code) (detail : Nat) : State := let t := t.endJoint c; if cmd then t.cmdFail Key.burstStart c detail else t
    if f.mark then
      (match s.marker with
       | some p => fails s .busy p
       | none => let r := s.free; fails r.2 .busy (r.1.toNat % 32))
    else if f.payload ≠ 0 then fails s .wrongMode ((bitsOf 32 f.payload.toNat).headD 0)
    else
      let l := frefEdge (asked + s.leadTicks + 2 * s.ringLatTicks)
      let s := s.queueFlit 4 l 0
      { s with ring := { s.ring with startFlight := false, launchDue := some l } }

/-- A START_REQ passes a member: its readiness, and MARK against a request from a higher position while its own is in flight. -/
def State.startPass (s : State) (back : Bool) (f : Flit) : State :=
  let ready := s.mode == Mode.armed && s.auditSt != 1 && s.auditSt != 2
  let s := { s with ring := { s.ring with starters := f.src :: s.ring.starters.filter (fun p => p != f.src) } }
  let p := if ready then f.payload else f.payload ||| (1#32 <<< s.ringPos)
  s.forward back { f with payload := p, mark := f.mark || (s.ring.startFlight && decide (s.ringPos < f.src)) }

/-- FLIT_START_REQ. -/
def execFlitStartReq (back : Bool) (f : Flit) (s : State) : Out :=
  s.arrives back f (fun s f => if s.ownFlit f then s.startBack f else s.passes back f (fun t => t.startPass back f))

/-- LAUNCH passes a member: the originator's start is over, and a JOINT member notes the launch time. -/
def State.launchPass (s : State) (back : Bool) (f : Flit) : State :=
  let s := { s with ring := { s.ring with starters := s.ring.starters.filter (fun p => p != f.src) } }
  (if s.ringJoint then { s with ring := { s.ring with launchDue := some f.due } } else s).forward back f

/-- FLIT_LAUNCH. -/
def execFlitLaunch (back : Bool) (f : Flit) (s : State) : Out :=
  s.arrives back f (fun s f => if s.ownFlit f then s.flitHome f else s.passes back f (fun t => t.launchPass back f))

/-! ## Conditions, tokens, triggers (R234-R238) -/

/-- A flit that reaches the core after DUE − 128 ns is late (R234). -/
def State.flitLate (s : State) (f : Flit) : Bool := decide (10 * f.due < 10 * s.nowTick + 4096)

/-- A flit is held until its DUE. -/
def State.holdFlit (s : State) (f : Flit) : State := { s with ring := { s.ring with due := s.ring.due ++ [f] } }

/-- A COND or TRIG flit passes a member: held, or lost where it is late (FS060). -/
def State.holdPass (s : State) (back : Bool) (f : Flit) : State := (if s.flitLate f then s.ringFault 60 .none else s.holdFlit f).forward back f

/-- FLIT_COND. -/
def execFlitCond (back : Bool) (f : Flit) (s : State) : Out :=
  s.arrives back f (fun s f => if s.ownFlit f then s.flitHome f else s.passes back f (fun t => t.holdPass back f))

/-- A TOKEN passes a member (R236, R237): claimed where a place is free, else FS060 on the destination thread; the flit returns unmarked. A late one is lost on every
device (R234). -/
def State.tokenPass (s : State) (back : Bool) (f : Flit) : State :=
  match s.tokenThread f with
  | none => (if s.flitLate f then s.ringFault 60 .none else s).forward back f
  | some th =>
    if s.flitLate f || decide (15 ≤ s.placesTaken th) then (s.ringFault 60 (.thread th)).forward back f
    else (s.holdFlit { f with mark := true }).forward back { f with mark := true }

/-- FLIT_TOKEN. -/
def execFlitToken (back : Bool) (f : Flit) (s : State) : Out :=
  s.arrives back f (fun s f =>
    if s.ownFlit f then (if f.mark then s.flitHome f else (s.flitHome f).count Key.tokensUnclaimed 32)
    else s.passes back f (fun t => t.tokenPass back f))

/-- FLIT_TRIG. -/
def execFlitTrig (back : Bool) (f : Flit) (s : State) : Out :=
  s.arrives back f (fun s f => if s.ownFlit f then s.flitHome f else s.passes back f (fun t => t.holdPass back f))

/-- The flit held with the earliest DUE, the first of equal ones. -/
def earliestDue : List Flit → Option Flit
  | [] => none
  | f :: r =>
    match earliestDue r with
    | none => some f
    | some g => if g.due < f.due then some g else some f

/-- The effect of a flit at its DUE (R235-R238). -/
def State.flitActs (s : State) (f : Flit) : State :=
  match f.typ with
  | 5 => s.contribute f.src (BitVec.ofNat 16 f.payload.toNat)
  | 6 =>
    if !f.mark then s
    else (match s.tokenThread f with
      | some th => s.takeToken th 0xFFF (s.portTime f.due - lead).toNat
      | none => s)
  | 7 => s.line (8 + f.payload.toNat % 8) f.due
  | _ => s

/-- RING_DUE: the earliest DUE held is reached. -/
def execRingDue (s : State) : Out :=
  .next (match earliestDue s.ring.due with
    | none => s
    | some f => { s with ring := { s.ring with due := s.ring.due.erase f } }.flitActs f)

/-! ## Failure (R228, R241) -/

/-- The ring breaks: ring-bound threads stop by FS059's severity, the ring is DOWN, a joint start in flight ends. -/
def State.ringBreaks (s : State) : State :=
  let s := s.ringDown true
  let s := if s.ring.startFlight then s.endJoint .aborted else s
  s.ringFault 59 .none

/-- A formation that a break meets ends FAILED with reason 1 (R231). -/
def State.formBroken (s : State) (position : Nat) : State := if s.cmdBusy Key.ringForm then s.formFails 1 position else s

/-- FLIT_BREAK (R240, R241): FS059, and the ring is DOWN; a formation ends. The device that sent it removes it. -/
def execFlitBreak (back : Bool) (f : Flit) (s : State) : Out :=
  s.arrives back f (fun s f => if s.ownFlit f then s.flitHome f else ((s.forward back f).formBroken (f.payload.toNat % 32)).ringBreaks)

/-- FLIT_ERRORED (R228, R239): the originator sends its flit once more with RESENT; a second failure loses it. -/
def execFlitErrored (back : Bool) (f : Flit) (s : State) : Out :=
  s.arrives back f (fun s f => match s.ring.inFlight.find? (fun g => f.src == s.ringPos && g.seq == f.seq) with
      | none => s.forward back f
      | some g =>
        let s := s.flitHome g
        if g.resent then s.ringFault 60 .none
        else { s with ring := { s.ring with pendingFlits := { g with resent := true } :: s.ring.pendingFlits } })

/-- RING_LINK_DOWN (R240, R241): the device at the break raises FS059, its ring is DOWN, a formation ends, and it fills its slots with BREAK from the next on; the position
upstream of the link is the one before it for port B, its own for port A. -/
def execRingLinkDown (portB : Bool) (s : State) : Out :=
  .next (let b := if portB then 4 else 3
    if s.mode = Mode.reset ∨ !bit (s.get Key.ringStatus) b then s
    else
      let s := s.putF Key.ringStatus b 1 0
      let up := if portB then (s.ringPos + s.ringSize - 1) % (max 1 s.ringSize) else s.ringPos
      if !s.ringEnabled then s
      else
        let s := if s.ringSt = 0 then s else { s with ring := { s.ring with breaking := some up } }
        (s.formBroken up).ringBreaks)

/-- RING_LINK_LOCK (R231): the link's bit; with both locked no lane lacks block lock any longer. -/
def execRingLinkLock (portB : Bool) (s : State) : Out :=
  .next (if s.mode < Mode.train then s
    else
      let s := s.putF Key.ringStatus (if portB then 4 else 3) 1 1
      if s.getF Key.ringStatus 3 2 = 3 ∧ s.liveBit 59 then s.clearLive 59 else s)

/-- The slot of a MEASURE flit has come round empty, and its credit returns (R229-R231). DEDUCED (log entry 77): the next device removes the flit, so its slot is what comes
back. -/
def State.measureHome (s : State) : State :=
  match s.ring.inFlight.find? (fun f => f.typ == 2) with
  | some f => s.flitHome f
  | none => s

/-- RING_SLOT (R229, R230): at a break a BREAK fills it (R241); else the next pending flit with a credit of its class goes out, at an epoch slice tick and grid position. -/
def execRingSlot (tick grid : Nat) (s : State) : Out :=
  .next (let s := s.measureHome
    if !s.ringEnabled then s
    else if let some up := s.ring.breaking then
      let f := s.newFlit 8 s.nowTick up
      { s with ring := { s.ring with nextSeq := (s.ring.nextSeq + 1) % 256 } }.sendFlit f tick grid
    else if s.ringSt == 0 then s
    else match firstFlit (s.ring.pendingFlits.filter (fun f => decide (0 < s.ring.credit f.cls))) with
      | none => s
      | some f =>
        let s := s.sendFlit f tick grid
        if f.typ = 7 ∧ f.payload.toNat / 8 % 2 = 1 then { s with ring := { s.ring with acqPending := false } } else s)

end Sys2Proof.Machine
end

