-- ==== Sys2Proof/Machine/LoadChecks.lean ====
section
/-! DEFINITION. The eleven load-time checks (R80): allocation of derived threads (R89), each check over the graphs of the armed threads, the choice of the reported failure
(R437) and the objects that hold the result (R81, R82, R89, R101, R142, R154). -/

namespace Sys2Proof.Machine

/-! ## Failures (R437) -/

/-- One failure: its check, what orders it within the check, and what LOAD_STATUS, LOAD_ROW and LOAD_DETAIL show of it. -/
structure Fail where
  check : Nat
  order : List Nat
  thread : Nat
  channel : Nat
  row : Nat
  detail : Nat
deriving DecidableEq, Repr

/-- No row, no channel, no thread. -/
def noRow : Nat := 2 ^ 64 - 1
def noChannel : Nat := 0x7FF
def noThread : Nat := 0xFFF

/-- A failure in the order of R437: thread, channel, row; one that names none comes after those that do. -/
def failAt (check thread channel row detail : Nat) : Fail :=
  { check := check, order := [thread, channel, row, detail], thread := thread, channel := channel, row := row, detail := detail }

/-- Lexicographic order of lists of numbers. -/
def lexLt : List Nat → List Nat → Bool
  | [], [] => false
  | [], _ :: _ => true
  | _ :: _, [] => false
  | a :: x, b :: y => decide (a < b) || (decide (a = b) && lexLt x y)

/-- The first failure of a list in the order of its check. -/
def firstFail : List Fail → Option Fail
  | [] => none
  | f :: r => match firstFail r with | none => some f | some g => if lexLt g.order f.order then some g else some f

/-! ## Exact fractions -/

/-- A non-negative fraction. -/
structure Frac where
  n : Nat
  d : Nat
deriving DecidableEq, Repr

def Frac.add (a b : Frac) : Frac := if a.d = b.d then ⟨a.n + b.n, a.d⟩ else ⟨a.n * b.d + b.n * a.d, a.d * b.d⟩
def Frac.sum (l : List Frac) : Frac := l.foldl Frac.add ⟨0, 1⟩
def Frac.ceil (a : Frac) : Nat := ceilDiv a.n a.d
/-- The fraction exceeds a whole number. -/
def Frac.exceeds (a : Frac) (k : Nat) : Bool := decide (k * a.d < a.n)

/-! ## The armed threads and their graphs -/

/-- A thread to be armed with what the checks read of it. -/
structure Plan where
  th : Nat
  g : List GNode
  pins : List (Nat × Nat)
deriving DecidableEq, Repr

/-- Threads whose ENABLE is set and whose group is not empty (R88), ascending. -/
def State.toArm (s : State) : List Nat :=
  (s.objs.filterMap (fun kv =>
    if keyArea kv.1 = 0x20 ∧ 0x1000 ≤ keyObj kv.1 ∧ keyObj kv.1 < 0x1C00 ∧ keyEl kv.1 = 1 ∧ bit kv.2 0 then some (keyObj kv.1 - 0x1000) else none)).filter
    (fun th => !(s.members th).isEmpty)

/-- Numbers of threads that are not enabled and have no bound port (R89). -/
def State.freeThreads (s : State) : List Nat :=
  let named := s.namedThreads
  (List.range 3072).filter (fun th => !bit (s.get (Key.threadCtrl th)) 0 && !named.contains th)

/-- Thread `t` becomes member `i` of group `g` as a derived thread (R89). -/
def State.deriveOne (s : State) (g i t : Nat) : State :=
  (s.put (Key.role t) (toWord (packFields [(0, 12, g), (12, 9, i)]))).putThread t { s.thread t with armed := true }

/-- Derived threads of one SPLIT group: members 1 on take free numbers, lowest first, while there are any. -/
def State.derive (s : State) (g : Nat) : List Nat → List Nat → State × List Nat
  | [], free => (s, free)
  | _ :: _, [] => (s, [])
  | i :: is, t :: free => (s.deriveOne g i t).derive g is free

/-- The threads of a burst are allocated (R88, R89). -/
def State.allocate (s : State) : State :=
  let ths := s.toArm
  let split := ths.filter (fun th => s.isSplit th)
  let s := ths.foldl (fun t th => t.putThread th { t.thread th with armed := true }) s
  let free := if split.isEmpty then [] else s.freeThreads
  (split.foldl (fun (acc : State × List Nat) g => acc.1.derive g ((List.range ((acc.1.members g).length)).drop 1) acc.2) (s, free)).1

/-- The first group whose members found no free number (R89). -/
def State.shortGroup (s : State) : Option Nat :=
  (s.toArm.filter (fun th => s.isSplit th)).find? (fun g => decide ((s.groupThreads g).length < (s.members g).length))

/-- Contexts needed (R101). -/
def State.contextsNeeded (s : State) : Nat := (s.toArm.map (fun th => if s.isSplit th then (s.members th).length else 1)).sum

/-- The plans of the armed threads, ascending. -/
def State.plans (s : State) : List Plan := s.armedThreads.map (fun th => let g := s.graphOf th; { th := th, g := g, pins := s.pinsOf th g })

/-- The shortest period among the timing sets of the reachable rows, tu; 0 where none is reachable. -/
def Plan.shortest (p : Plan) : Nat := ((p.g.map GNode.per).min?).getD 0

/-- v_t in Mvps (R101) as tu per second over the period. -/
def Plan.rate (p : Plan) : Frac := if p.shortest = 0 then ⟨0, 1⟩ else ⟨4000000, p.shortest⟩

/-- The reachable rows. -/
def Plan.rows (p : Plan) : List Nat := (p.g.map GNode.row).eraseDups

/-- A reachable row is not pinned. -/
def Plan.streams (p : Plan) : Bool := p.rows.any (fun r => !inRanges p.pins r)

/-! ## Check 1: sequencing budget (R101) -/

/-- r_t. -/
def Plan.seqRate (p : Plan) : Frac :=
  let v := p.rate
  match cyclesPerBranch p.g with
  | none => ⟨v.n, v.d * 256⟩
  | some (c, w) => if c = 0 then ⟨v.n, v.d * 256⟩ else ⟨v.n * (256 * w + c), v.d * 256 * c⟩

/-- Check 1 and the thread it names. DESIGN CHOICE (log entry 129): R101 does not say what members are charged that found no free number; only the threads there are
are. -/
def State.check1 (s : State) (ps : List Plan) (short : Option Nat) : List Fail :=
  let rates := ps.map (fun p => (p.th, p.seqRate))
  let sum := Frac.sum (rates.map Prod.snd)
  let th := match rates.find? (fun x => x.2.exceeds 1600) with
    | some x => some x.1
    | none => if short.isSome then short else if sum.exceeds 96000 ∨ 3072 < s.contextsNeeded then some noThread else none
  match th with
  | some t => [failAt 1 t noChannel noRow sum.ceil]
  | none => []

/-! ## Check 2: streaming budget (R153) -/

/-- The row charge r of a thread in MB/s, 0 where all reachable rows are pinned. -/
def State.rowCharge (s : State) (p : Plan) : Frac :=
  if p.streams then ⟨p.rate.n * (s.get (Key.patStride (s.groupOf p.th))).toNat, p.rate.d * 256⟩ else ⟨0, 1⟩

/-- A reachable CAPC starts full capture. -/
def Plan.captures (p : Plan) : Bool := p.g.any (fun x => match x.op with | some (.capc 1 _ _ _) => true | _ => false)

/-- The full-capture charge of a thread's ports. -/
def State.captureCharge (s : State) (p : Plan) : Frac :=
  let quarters := ((s.served p.th).map (fun x => if p.captures || bit (s.get (Key.capCtrl x.2)) 0 then 2 * (s.channels x.2).length + 1 else 0)).sum
  ⟨p.rate.n * quarters, p.rate.d * 4⟩

/-- The charge S. -/
def State.streamCharge (s : State) (ps : List Plan) : Frac :=
  Frac.sum (⟨(s.get Key.spillReserve).toNat, 1⟩ :: ps.flatMap (fun p => [s.rowCharge p, s.captureCharge p]))

def State.check2 (s : State) (ps : List Plan) : List Fail :=
  let c := s.streamCharge ps
  if c.exceeds (s.get Key.streamBudget).toNat then [failAt 2 noThread noChannel noRow c.ceil] else []

/-! ## Check 3: event limits (R79, R166-R174) -/

/-- The edges a drive format and a compare format use, in name order (R166, R167). -/
def driveEdges (f : Nat) : List Nat := if f = 0 then [0] else if f = 3 then [0, 1, 2] else [0, 1]
def compareEdges (f : Nat) : List Nat := if f = 1 then [4] else if f = 2 then [4, 5] else []

/-- A compare symbol that places strobes: L, H, M, V. -/
def strobeSym (sym : Nat) : Bool := decide (4 ≤ sym) && decide (sym ≤ 7)

/-- The events a symbol places on a channel in a timing set: event and offset (R166-R168). -/
def State.symbolEvents (s : State) (ch ts sym : Nat) : List (Nat × Nat) :=
  let at_ (es : List Nat) : List (Nat × Nat) := es.filterMap (fun e => (s.edge ch ts e).map (fun o => (e, o)))
  if sym < 2 then at_ (driveEdges (s.driveFmt ch ts))
  else if sym = 2 then at_ [0]
  else if strobeSym sym then (3, (s.edge ch ts 3).getD 0) :: at_ (compareEdges (s.cmpFmt ch ts))
  else if sym = 8 then [(3, 0)]
  else []

/-- Whole ps of a shortfall in tu, rounded up and saturated (R174). -/
def psUp (tu : Nat) : Nat := satTo 255 (ceilDiv tu 4)

/-- An event-limit failure in the order of R174 over all threads: timing set, channel, event, test; then the lowest row and the greatest shortfall. -/
def eventFail (th ts ch ev test row prev short : Nat) : Fail :=
  { check := 3, order := [ts, ch, ev, test, row, 255 - short, prev, th], thread := th, channel := ch, row := row
    detail := packFields [(0, 8, ts), (8, 8, prev), (16, 8, ev), (24, 8, short)] }

/-- The counts of the bands A, B, C (R171). -/
def bandDrive (per : Nat) : Nat := if 5000 ≤ per then 4 else if 2500 ≤ per then 2 else 1
def bandCompare (per : Nat) : Nat := if 5000 ≤ per then 2 else 1

/-- The Band and Order tests of a timing set on a channel; `row` is the lowest reachable row that selects it. -/
def State.setFails (s : State) (th ts ch per row : Nat) : List Fail :=
  let de := driveEdges (s.driveFmt ch ts)
  let ce := compareEdges (s.cmpFmt ch ts)
  let band := ((de.drop (bandDrive per)).take 1 ++ (ce.drop (bandCompare per)).take 1).map (fun e => eventFail th ts ch e 0 row 0xFF 0)
  let order (es : List Nat) : List Fail := (es.zip (es.drop 1)).filterMap (fun x =>
    match s.edge ch ts x.1, s.edge ch ts x.2 with
    | some a, some b => if b < a + 600 then some (eventFail th ts ch x.2 1 row 0xFF (psUp (a + 600 - b))) else none
    | _, _ => none)
  band ++ order de ++ order ce

/-- The cycles of a node may be followed by another of its own, and by a third. -/
def GNode.repeats (x : GNode) (n : Nat) : Bool := decide (n ≤ x.cyc) || x.waits

/-- Pairs of rows that hold cycles one or two apart on some path, with the distance of their starts in tu. -/
def rowPairs (g : List GNode) : List (Nat × Nat × Nat) :=
  (g.flatMap (fun x =>
    let own := (if x.repeats 2 then [(x.row, x.row, x.per)] else []) ++ (if x.repeats 3 then [(x.row, x.row, 2 * x.per)] else [])
    own ++ x.succ.flatMap (fun n =>
      let y := gnode g n.1
      [(x.row, y.row, x.per)] ++ (if x.repeats 2 then [(x.row, y.row, 2 * x.per)] else []) ++ (if y.repeats 2 then [(x.row, y.row, x.per + y.per)] else []) ++
        (if y.repeats 2 && !y.waits then [] else y.succ.map (fun m => (x.row, (gnode g m.1).row, x.per + y.per)))))).eraseDups

/-- Pairs of a row and the period and set of a cycle that follows one of its cycles; a cycle that nothing follows counts as followed by one of its own period (R169). -/
def nextPeriods (s : State) (th : Nat) (g : List GNode) : List (Nat × Nat × Nat) :=
  (g.flatMap (fun x =>
    let ts := s.rowTs th x.row
    (if x.repeats 2 then [(x.row, x.per, ts)] else []) ++
      (if x.succ.isEmpty then [(x.row, x.per, 0xFF)] else x.succ.map (fun n => let y := gnode g n.1; (x.row, y.per, s.rowTs th y.row))))).eraseDups

/-- An event is a compare event, on the S-lane. -/
def onS (e : Nat) : Bool := decide (4 ≤ e)

/-- The Spacing test of two cycles `d` tu apart on a channel (R173): every pair of events of one lane; the later in time fails. -/
def spacingFails (th ch : Nat) (a b : Nat × Nat × List (Nat × Nat)) (d : Nat) : List Fail :=
  a.2.2.flatMap (fun x => b.2.2.filterMap (fun y =>
    let ty := d + y.2
    if onS x.1 != onS y.1 then none
    else if x.2 ≤ ty then
      (if ty < x.2 + 600 then some (eventFail th b.2.1 ch y.1 2 b.1 (if a.2.1 = b.2.1 then 0xFF else a.2.1) (psUp (x.2 + 600 - ty))) else none)
    else if x.2 < ty + 600 then some (eventFail th a.2.1 ch x.1 2 a.1 (if a.2.1 = b.2.1 then 0xFF else b.2.1) (psUp (ty + 600 - x.2)))
    else none))

/-- The event-limit failures of one channel of a port. -/
def State.channelFails (s : State) (p : Plan) (o k ch : Nat) : List Fail :=
  let th := p.th
  let evs := p.rows.map (fun r => let ts := s.rowTs th r; (r, ts, s.symbolEvents ch ts (s.symbol th o r k)))
  let find (r : Nat) : Nat × Nat × List (Nat × Nat) := (evs.find? (fun x => x.1 == r)).getD (r, 0, [])
  let sets := (p.rows.map (fun r => s.rowTs th r)).eraseDups
  let limits := sets.flatMap (fun ts =>
    s.setFails th ts ch (s.periodOf th ts) (((p.rows.filter (fun r => s.rowTs th r = ts)).min?).getD 0))
  let spacing := (rowPairs p.g).flatMap (fun x => spacingFails th ch (find x.1) (find x.2.1) x.2.2)
  let reach := (nextPeriods s th p.g).flatMap (fun x =>
    let a := find x.1
    let lim := s.rowPeriod th x.1 + x.2.1
    a.2.2.filterMap (fun e => if lim ≤ e.2 then some (eventFail th a.2.1 ch e.1 3 x.1 x.2.2 (psUp (e.2 - (lim - 1)))) else none))
  limits ++ spacing ++ reach

/-- The channels of a thread's ports: port object, channel index, channel. -/
def State.planChannels (s : State) (th : Nat) : List (Nat × Nat × Nat) := (s.served th).flatMap (fun x => (s.channels x.2).mapIdx (fun k ch => (x.2, k, ch)))

def State.check3 (s : State) (ps : List Plan) : List Fail := ps.flatMap (fun p => (s.planChannels p.th).flatMap (fun x => s.channelFails p x.1 x.2.1 x.2.2))

/-! ## Check 4: branch spacing (R116) -/

def check4 (ps : List Plan) : List Fail :=
  ps.flatMap (fun p => (List.range p.g.length).flatMap (fun b =>
    if (gnode p.g b).br then
      (hops p.g GNode.dur b).1.filterMap (fun x => if x.2 < 5000 then some (failAt 4 p.th noChannel (gnode p.g x.1).row (x.2 / 4)) else none)
    else []))

/-! ## Check 5: loop pinning (R120, R128, R149-R152) -/

/-- Bytes of a row in the local store (R149). -/
def State.rowBytes (s : State) (th : Nat) : Nat := 16 + 16 * ceilDiv (s.imageN th * s.imageW th) 128

/-- Reason 1-3 of R80 in LOAD_DETAIL. -/
def pinDetail (reason : Nat) : Nat := 2 ^ 31 + reason

/-- A MATCH body that R128 does not allow. -/
def State.bodyBad (s : State) (th row body : Nat) : Bool :=
  (List.range body).any (fun i => !s.rowUsable th (row + 1 + i) || (match s.uopAt th (row + 1 + i) with | some (.adv _) => false | some (.trig ..) => false | some (.capc ..) => false | _ => true)) ||
    decide ((s.bodyLength th row body).2 < 5000)

/-- A host-jump entry that R120 does not allow: outside the image, or a run shorter than 64 ns at the shortest period it selects. -/
def State.entryBad (s : State) (th e : Nat) : Bool :=
  let run := s.entryRun th 256 e
  let per := ((run.map (fun r => s.rowPeriod th r)).min?).getD 0
  let cyc := (run.map (fun r => match s.uopAt th r with | some u => u.cycles | none => 1)).sum
  decide (cyc * per < 256000)

/-- Pinned bytes of a thread. -/
def State.pinnedBytes (s : State) (p : Plan) : Nat := rangeRows p.pins * s.rowBytes p.th

/-- Stream buffer bytes of a thread (R152). -/
def State.bufferBytes (s : State) (p : Plan) : Nat :=
  if !p.streams then 0
  else
    let r := s.rowCharge p
    let b := max 16384 (ceilDiv (r.n * 4) (r.d * 4096) * 4096)
    let alt := p.g.any (fun x => match x.op with | some (.pref _) => true | some (.call ..) => !inRanges p.pins x.row | _ => false)
    if alt then 2 * b else b

/-- Pinned bytes of all threads: rows of one image once (R149). DESIGN CHOICE (log entry 131): one image is one PAT_REGION and PAT_OFFSET, its rows as large as those of
the first such thread. -/
def State.pinnedTotal (s : State) (ps : List Plan) : Nat :=
  let image (p : Plan) : Nat × Nat := let g := s.groupOf p.th; ((s.get (Key.patRegion g)).toNat, (s.get (Key.patOffset g)).toNat)
  ((ps.map image).eraseDups.map (fun i =>
    let mine := ps.filter (fun p => image p = i)
    rangeRows (unionRanges (mine.flatMap Plan.pins)) * ((mine.head?.map (fun p => s.rowBytes p.th)).getD 0))).sum

def State.bufferTotal (s : State) (ps : List Plan) : Nat := (ps.map (fun p => s.bufferBytes p)).sum

def State.check5 (s : State) (ps : List Plan) : List Fail :=
  let own := ps.flatMap (fun p =>
    ((nonResident p.g p.pins (s.patRowsOf p.th)).map (fun i => failAt 5 p.th noChannel (gnode p.g i).row (pinDetail 1))) ++
    (p.g.filterMap (fun x => match x.op with
      | some (.matchW body _ _) => if x.node.ctx.isNone ∧ s.bodyBad p.th x.row body then some (failAt 5 p.th noChannel x.row (pinDetail 2)) else none
      | _ => none)) ++
    ((s.hjEntries p.th).filterMap (fun e => if s.entryBad p.th e then some (failAt 5 p.th noChannel e (pinDetail 3)) else none)) ++
    (if 65536 < s.pinnedBytes p then [failAt 5 p.th noChannel noRow (ceilDiv (s.pinnedBytes p) 1024)] else []))
  let all := s.pinnedTotal ps + s.bufferTotal ps
  own ++ (if 32 * 2 ^ 20 < all then [failAt 5 noThread noChannel noRow (ceilDiv all 1024)] else [])

/-! ## Check 6: match privilege (R123) -/

/-- The armed thread that serves a port of a site. -/
def State.portThread (s : State) (site port : Nat) : Option Nat := s.armedThreads.find? (fun th => (s.served th).any (fun x => x.2 == 16 * site + port))

/-- A thread holds the privilege by its own rows, a wait on another device among them. -/
def State.privOwn (s : State) (p : Plan) : Bool :=
  p.g.any (fun x => match x.op with
    | some (.matchW ..) => true
    | some (.waittrig ..) => true
    | some (.waittime ..) => true
    | some (.sync partner _ wait) => wait && s.remotePort (siteOf (s.ownPort p.th)) partner
    | _ => false)

/-- The threads that a thread waits for by SYNC. -/
def State.syncPartners (s : State) (p : Plan) : List Nat :=
  p.g.filterMap (fun x => match x.op with | some (.sync partner _ true) => s.portThread (siteOf (s.ownPort p.th)) partner | _ => none)

/-- Threads that wait on privileged ones join them (`fuel` is their number). -/
def spreadPriv (w : List (Nat × List Nat)) : Nat → List Nat → List Nat
  | 0, l => l
  | fuel + 1, l => spreadPriv w fuel (l ++ (w.filter (fun x => !l.contains x.1 && x.2.any (fun y => l.contains y))).map Prod.fst)

/-- The threads with the match privilege. -/
def State.privileged (s : State) (ps : List Plan) : List Nat :=
  spreadPriv (ps.map (fun p => (p.th, s.syncPartners p))) ps.length ((ps.filter (fun p => s.privOwn p)).map Plan.th)

def State.check6 (s : State) (ps : List Plan) : List Fail :=
  let n := (s.privileged ps).length
  if 256 < n then [failAt 6 noThread noChannel noRow n] else []

/-! ## Check 7: encoding consistency (R109, R136-R145, R168) -/

/-- LOAD_DETAIL of an object (R141). -/
def objDetail (obj el : Nat) : Nat := 2 ^ 30 + obj * 256 + el

/-- The rows a thread's paths ask for within its image. -/
def State.triedRows (s : State) (p : Plan) : List Nat :=
  ((s.get (Key.patEntry (s.groupOf p.th))).toNat :: p.g.flatMap (fun x => (s.succsOf p.th x.node).map (fun y => y.1.row))).filter (fun r => decide (r < s.patRowsOf p.th))

/-- The blocks a thread's paths ask for. -/
def State.triedBlocks (s : State) (p : Plan) : List Nat := ((s.triedRows p).map (fun r => r / 256)).eraseDups

/-- A block ends within its region (R143). -/
def State.blockInRegion (s : State) (th b : Nat) : Bool :=
  let region := (s.get (Key.patRegion (s.groupOf th))).toNat
  decide (region < 256) && decide (s.blockAddr th b + s.blockBytes th b ≤ (s.get (Key.regionBase region)).toNat + (s.get (Key.regionLength region)).toNat)

/-- The blocks of an image whose content does not fit PAT_STRIDE, those that no path asks for among them (R143). -/
def State.strideFails (s : State) (th : Nat) : List Nat :=
  (List.range (ceilDiv (s.patRowsOf th) 256)).filter (fun b => s.blockInRegion th b && decide ((s.get (Key.patStride (s.groupOf th))).toNat < s.blockBytes th b))

/-- The descriptor's own failures (R143, R145): the stride of every block, the header and readability of each block that paths ask for. DEDUCED (log entry 45): a block
that lies beyond the region fails for PAT_ROWS alone, since what stands there is not the image. -/
def State.descFails (s : State) (p : Plan) : List Fail :=
  let g := s.groupOf p.th
  let rows := s.patRowsOf p.th
  let last := (rows - 1) / 256
  let fits := rows = 0 ∨ s.blockInRegion p.th last
  (if fits then [] else [failAt 7 p.th noChannel noRow (objDetail (0x1000 + g) 0x03)]) ++
  (if (s.get (Key.patEntry g)).toNat < rows then [] else [failAt 7 p.th noChannel noRow (objDetail (0x1000 + g) 0x05)]) ++
  ((s.triedBlocks p).filter (fun b => s.blockInRegion p.th b)).filterMap (fun b => (s.blockFault p.th b).map (fun el => failAt 7 p.th noChannel (256 * b) (objDetail (0x1000 + g) el))) ++
  (s.strideFails p.th).map (fun b => failAt 7 p.th noChannel (256 * b) (objDetail (0x1000 + g) 0x04))

/-- Words that R109 refuses, and a SYNC without an armed partner. -/
def State.wordFails (s : State) (p : Plan) : List Fail :=
  p.rows.filterMap (fun r =>
    let w := s.rowWord p.th r
    let bad := match decodeWord w with
      | none => true
      | some (.sync partner _ _) => let site := siteOf (s.ownPort p.th); !s.remotePort site partner && (s.portThread site partner).isNone
      | some _ => false
    if bad then some (failAt 7 p.th noChannel r (2 ^ 31 + field w 0 6)) else none)

/-- A symbol that a row may not put on a channel: reserved, or on an edge that is unset. -/
def State.symbolBad (s : State) (ch ts sym : Nat) : Bool :=
  let unset (es : List Nat) : Bool := es.any (fun e => (s.edge ch ts e).isNone)
  if sym < 2 then unset (driveEdges (s.driveFmt ch ts))
  else if sym = 2 then unset [0]
  else if strobeSym sym then unset (if s.cmpFmt ch ts = 2 then [4, 5] else [4])
  else decide (9 ≤ sym)

/-- Symbols that the rows of a thread may not apply. -/
def State.symbolFails (s : State) (p : Plan) (chs : List (Nat × Nat × Nat)) : List Fail :=
  chs.flatMap (fun x => p.rows.filterMap (fun r =>
    let sym := s.symbol p.th x.1 r x.2.1
    if s.symbolBad x.2.2 (s.rowTs p.th r) sym then some (failAt 7 p.th x.2.2 r (s.rowCode p.th r x.2.1 + 16 * sym)) else none))

/-- The map of channel index `k` of a port. -/
def State.mapOf (s : State) (o k : Nat) : Nat := s.getF (Key.mapSelect o (k / 32)) (2 * (k % 32)) 2

/-- A map is valid for a width (R139). -/
def State.mapValid (s : State) (o m : Nat) : Bool := (List.range 16).all (fun c => decide (c < 2 ^ s.width o) || s.getF (Key.map o m) (4 * c) 4 == 0xF)

/-- The invalid map that R141 names: of the armed port with the lowest port object, the lowest map, its lowest channel. -/
def State.mapFail (s : State) (ps : List Plan) : List Fail :=
  let bad := ps.flatMap (fun p => (s.planChannels p.th).filterMap (fun x =>
    let m := s.mapOf x.1 x.2.1
    if s.mapValid x.1 m then none
    else some { failAt 7 p.th x.2.2 noRow (objDetail (0x8000 + x.1) (2 + m)) with order := [x.1, m, x.2.2] }))
  match firstFail bad with
  | some f => [{ f with order := [f.thread, f.channel, f.row, f.detail] }]
  | none => []

/-- The width mismatch that R141 names: the member port with the lowest port object whose WIDTH differs from member 0's (R140). -/
def State.widthFails (s : State) (ps : List Plan) : List Fail :=
  let bad := (ps.filter (fun p => !s.isDerived p.th)).flatMap (fun p =>
    ((s.members p.th).filter (fun o => s.width o != s.width (s.member0 p.th))).map (fun o => { failAt 7 p.th noChannel noRow (objDetail (0x8000 + o) 1) with order := [o] }))
  match firstFail bad with
  | some f => [{ f with order := [f.thread, f.channel, f.row, f.detail] }]
  | none => []

def State.check7 (s : State) (ps : List Plan) : List Fail :=
  ps.flatMap (fun p => s.descFails p ++ s.wordFails p ++ s.symbolFails p (s.planChannels p.th)) ++ s.mapFail ps ++ s.widthFails ps

/-! ## Check 8: guard envelope (R60, R271, R386) -/

/-- Channel failures of a thread's ports. -/
def State.guardFails (s : State) (p : Plan) (chs : List (Nat × Nat × Nat)) : List Fail :=
  chs.flatMap (fun x =>
    let ch := x.2.2
    let rows := if s.permits ch then [] else p.rows.filter (fun r => decide (s.symbol p.th x.1 r x.2.1 < 2))
    let idle := !s.permits ch && s.idleLevel x.1 != .mid
    let pre := s.laneState ch == 0 && s.get Key.pretrainLimit != 0xFFFF
    rows.map (fun r => failAt 8 p.th ch r 0xFFFF) ++ (if idle || pre then [failAt 8 p.th ch noRow 0xFFFF] else []))

/-- The pending codes that the envelope does not allow. -/
def State.codeFails (s : State) : List Fail :=
  (List.range 64).filterMap (fun d => if s.inEnvelope d (s.get (Key.dacCode d)).toNat then none else some (failAt 8 noThread noChannel noRow d))

def State.check8 (s : State) (ps : List Plan) : List Fail := ps.flatMap (fun p => s.guardFails p (s.planChannels p.th)) ++ s.codeFails

/-! ## Check 9: cross-slice port alignment (R78, R370) -/

/-- A live fault of SLICE-SAFE or higher is located on a slice. -/
def State.sliceFaulted (s : State) (sl : Nat) : Bool :=
  s.liveLocs.any (fun x => (match x.2 with | .slice n => n == sl | .channel g => g / 32 == sl | _ => false) && s.liveBit x.1 && decide (Sev.sliceSafe ≤ s.severityOf x.1))

/-- A port fails on a slice that is not in FOLLOW, which carries no port (R65); one over several slices also where a channel of it there is not deskewed or disabled. -/
def State.check9 (s : State) (ps : List Plan) : List Fail :=
  ps.flatMap (fun p => (s.served p.th).flatMap (fun x =>
    let sls := s.portSliceList x.2
    sls.filterMap (fun sl =>
      let bad := s.sliceModeOf sl != 0 || (decide (2 ≤ sls.length) && (s.channels x.2).any (fun g => g / 32 == sl && s.laneState g != 1))
      if bad || s.sliceFaulted sl then some (failAt 9 p.th noChannel noRow sl) else none)))

/-! ## Check 10: ring-condition latency (R239) -/

/-- The reachable rows whose word makes the thread ring-bound. -/
def State.ringRowsOf (s : State) (p : Plan) : List Nat := (p.g.filter (fun x => match x.op with | some u => s.ringWord p.th u | none => false)).map GNode.row

/-- A reachable row makes the thread ring-bound, or a site it serves has remote ports. -/
def State.bindsRing (s : State) (p : Plan) : Bool := (s.served p.th).any (fun x => s.get (Key.remotePorts (siteOf x.2)) != 0) || !(s.ringRowsOf p).isEmpty

/-- The condition a word publishes, and the one it tests. -/
def publishes (x : GNode) : Option Nat := match x.op with | some (.flag _ _ n true _ _) => some n | _ => none
def tests (x : GNode) : Option Nat :=
  let c := match x.op with | some (.jmp c _ _) => c | some (.call c _ _) => c | some (.ret c _) => c | _ => 0
  if 0x20 ≤ c ∧ c ≤ 0x2F then some (c - 0x20) else none

/-- RING_LAT in tu. -/
def State.ringLatTu (s : State) : Nat := (s.get Key.ringLat).toNat * 4000

/-- Least cycles from a node's first cycle to each node's. -/
def cyclesFrom (g : List GNode) (i : Nat) : List (Nat × Nat) :=
  let x := gnode g i
  (relax g GNode.cyc (fun _ => false) enough (x.succ.map (fun y => (y.1, x.cyc))) []).map (fun y => (y.1, y.2 - 1))

/-- A test of a condition comes too soon after its publication, by port times at the shortest periods: the shortfall in cycles. DESIGN CHOICE (log entry 134): of several
shortfalls at one row the greatest is shown. -/
def State.tooSoon (s : State) (p : Plan) (th row tu : Nat) : List Fail :=
  if tu < s.ringLatTu ∧ p.shortest ≠ 0 then
    let short := ceilDiv (s.ringLatTu - tu) p.shortest
    [{ failAt 10 th noChannel row short with order := [th, noChannel, row, 2 ^ 32 - short] }]
  else []

/-- Late uses within one thread. -/
def State.ownLate (s : State) (p : Plan) : List Fail :=
  (List.range p.g.length).flatMap (fun i =>
    match publishes (gnode p.g i) with
    | none => []
    | some n => (cyclesFrom p.g i).flatMap (fun y => if tests (gnode p.g y.1) = some n then s.tooSoon p p.th (gnode p.g y.1).row (y.2 * p.shortest) else []))

/-- Duration of a node's row at a thread's shortest period. -/
def Plan.short (p : Plan) (x : GNode) : Nat := x.cyc * p.shortest

/-- Where two threads stand together: the next row of each, and the time until each starts, one of them at once. -/
structure Abreast where
  i : Nat
  ri : Nat
  j : Nat
  rj : Nat
deriving DecidableEq, Repr

/-- The pair at the moment the earlier row starts. -/
def Abreast.now (x : Abreast) : Abreast := let m := min x.ri x.rj; { x with ri := x.ri - m, rj := x.rj - m }

/-- The earlier of the two rows is left: the first thread's on a tie. -/
def Abreast.next (p q : Plan) (x : Abreast) : List Abreast :=
  if x.ri ≤ x.rj then (gnode p.g x.i).succ.map (fun y => ({ x with i := y.1, ri := x.ri + p.short (gnode p.g x.i) } : Abreast).now)
  else (gnode q.g x.j).succ.map (fun y => ({ x with j := y.1, rj := x.rj + q.short (gnode q.g x.j) } : Abreast).now)

/-- The pairs that two threads reach from the common launch (`fuel` only bounds the recursion). -/
def pairs (p q : Plan) : Nat → List Abreast → List Abreast → List Abreast
  | 0, _, seen => seen
  | _ + 1, [], seen => seen
  | fuel + 1, x :: w, seen => if seen.contains x then pairs p q fuel w seen else pairs p q fuel (x.next p q ++ w) (seen ++ [x])

/-- The thread publishes a condition that the other tests. -/
def sharesCondition (p q : Plan) : Bool := p.g.any (fun x => match publishes x with | some n => q.g.any (fun y => tests y == some n) | none => false)

/-- Late uses of a thread after a publication by another of the same site, over every pair of paths from the common launch. DEDUCED (log entry 46): a waiting word counts at
its shortest length, as in R151. -/
def State.otherLate (s : State) (p q : Plan) : List Fail :=
  if !sharesCondition p q then []
  else (pairs p q enough [⟨0, 0, 0, 0⟩] []).flatMap (fun x =>
    if x.ri ≠ 0 then []
    else match publishes (gnode p.g x.i) with
      | none => []
      | some n => (relax q.g q.short (fun _ => false) enough [(x.j, x.rj)] []).flatMap (fun y =>
          if tests (gnode q.g y.1) = some n then s.tooSoon q q.th (gnode q.g y.1).row (y.2 - 1) else []))

/-- Two threads serve a common site. -/
def State.shareSite (s : State) (a b : Nat) : Bool := (s.served a).any (fun x => (s.served b).any (fun y => siteOf x.2 == siteOf y.2))

/-- A ring-sending word: RCPUB, kind 5 TRIG, remote SEND. -/
def State.ringSends (s : State) (th : Nat) (x : GNode) : Bool :=
  match x.op with
  | some (.flag _ _ _ rcpub _ _) => rcpub
  | some (.trig kind _ _ _) => kind == 5
  | some (.sync partner send _) => send && s.remotePort (siteOf (s.ownPort th)) partner
  | _ => false

/-- A row that a path may reach: its node, when it starts, and the ring-sending words before it. -/
structure Ahead where
  node : Nat
  start : Nat
  sends : Nat
deriving DecidableEq, Repr

/-- Rows ahead in order of their starts, each once with the most words before it. -/
def addAhead (x : Ahead) : List Ahead → List Ahead
  | [] => [x]
  | y :: r =>
    if x.start < y.start then x :: y :: r
    else if x.start = y.start ∧ x.node = y.node then { y with sends := max x.sends y.sends } :: r
    else y :: addAhead x r

/-- The most ring-sending words on a path that start before `lat`, taking the rows ahead in order of their starts (`fuel` only bounds the recursion). -/
def State.sendsBefore (s : State) (p : Plan) (lat : Nat) : Nat → List Ahead → Nat → Nat
  | 0, _, best => best
  | _ + 1, [], best => best
  | fuel + 1, x :: w, best =>
    if lat ≤ x.start then s.sendsBefore p lat fuel w (max best x.sends)
    else
      let g := gnode p.g x.node
      let n := x.sends + b2n (s.ringSends p.th g)
      s.sendsBefore p lat fuel (g.succ.foldl (fun l y => addAhead ⟨y.1, x.start + g.dur, n⟩ l) w) (max best n)

/-- The most ring-sending words of a thread within an interval of RING_LAT. -/
def State.sendsOf (s : State) (p : Plan) : Nat :=
  (((List.range p.g.length).filter (fun i => s.ringSends p.th (gnode p.g i))).map (fun i => s.sendsBefore p s.ringLatTu enough [⟨i, 0, 0⟩] 0)).max?.getD 0

/-- The next rows of the threads at the next moment at which one starts. -/
def nextFronts (ps : List (Plan × List (Nat × Nat))) : List (Plan × List (Nat × Nat)) :=
  let on := ps.map (fun x => (x.1, (x.2.flatMap (fun y => if y.2 = 0 then (gnode x.1.g y.1).succ.map (fun z => (z.1, (gnode x.1.g y.1).dur)) else [y])).eraseDups))
  let m := ((on.flatMap (fun x => x.2.map Prod.snd)).min?).getD 0
  on.map (fun x => (x.1, x.2.map (fun y => (y.1, y.2 - m))))

/-- The most ring-sending words of all threads within one interval of RING_LAT from the common launch on, until the threads' places recur (`fuel` only bounds the
recursion). -/
def State.jointSends (s : State) : Nat → List (Plan × List (Nat × Nat)) → List (List (List (Nat × Nat))) → Nat → Nat
  | 0, _, _, best => best
  | fuel + 1, ps, seen, best =>
    let at_ := ps.map Prod.snd
    if seen.contains at_ || at_.all List.isEmpty then best
    else
      let n := (ps.map (fun x => s.sendsBefore x.1 s.ringLatTu enough (x.2.foldl (fun l y => addAhead ⟨y.1, y.2, 0⟩ l) []) 0)).sum
      s.jointSends fuel (nextFronts ps) (at_ :: seen) (max best n)

/-- The most ring-sending words that the armed threads together can reach within an interval of RING_LAT. Threads whose own most words come to 15 or less in all need no
common interval. -/
def State.ringLoad (s : State) (ps : List Plan) : Nat :=
  let each := (ps.map (fun p => s.sendsOf p)).sum
  if each ≤ 15 then each else s.jointSends enough (ps.map (fun p => (p, if p.g.isEmpty then [] else [(0, 0)]))) [] 0

def State.check10 (s : State) (ps : List Plan) : List Fail :=
  let bound := if s.ringUp then [] else (ps.filter (fun p => s.bindsRing p)).map (fun p => failAt 10 p.th noChannel (((s.ringRowsOf p).min?).getD noRow) 0xFFFFFFFF)
  let late := ps.flatMap (fun p => s.ownLate p ++ ps.flatMap (fun q => if q.th ≠ p.th ∧ s.shareSite p.th q.th then s.otherLate p q else []))
  let n := s.ringLoad ps
  bound ++ late ++ (if 15 < n then [failAt 10 noThread noChannel noRow (2 ^ 31 + n % 65536)] else [])

/-! ## Check 11: resource availability (R78, R281, R438) -/

/-- The lowest sub-channel that is fitted but not in the map, 0xFF where there is none (R281). -/
def State.lostSubch (s : State) : Nat := (s.populated.find? (fun i => !s.enabled.contains i)).getD 0xFF

/-- A region reaches beyond the reported capacity. -/
def State.regionBeyond (s : State) (r : Nat) : Bool := decide (r < 256) && decide (s.capacity < (s.get (Key.regionBase r)).toNat + (s.get (Key.regionLength r)).toNat)

def State.check11 (s : State) (ps : List Plan) : List Fail :=
  let own := ps.flatMap (fun p =>
    ((s.planChannels p.th).filterMap (fun x => if s.laneState x.2.2 = 2 then some (failAt 11 p.th x.2.2 noRow 0xFF) else none)) ++
    (if s.regionBeyond (s.get (Key.patRegion (s.groupOf p.th))).toNat then [failAt 11 p.th noChannel noRow s.lostSubch] else []))
  let capture := [Key.faillogRegion, Key.fullcapRegion].flatMap (fun k => if s.regionBeyond (s.get k).toNat then [failAt 11 noThread noChannel noRow s.lostSubch] else [])
  let areas := if areaBad s Key.faillogRegion Key.faillogOffset Key.faillogLength || areaBad s Key.fullcapRegion Key.fullcapOffset Key.fullcapLength
    then [failAt 11 noThread noChannel noRow 0xFE] else []
  own ++ capture ++ areas

/-! ## Running the checks -/

/-- Every failure of every check, in check order. -/
def State.allFails (s : State) (ps : List Plan) (short : Option Nat) : List Fail :=
  s.check1 ps short ++ s.check2 ps ++ s.check3 ps ++ check4 ps ++ s.check5 ps ++ s.check6 ps ++ s.check7 ps ++ s.check8 ps ++ s.check9 ps ++ s.check10 ps ++ s.check11 ps

/-- The failure LOAD_STATUS names: of the first failing check. -/
def reported (l : List Fail) : Option Fail := (l.head?).bind (fun f => firstFail (l.filter (fun x => x.check == f.check)))

/-- LOAD_FAIL_MASK. -/
def failMask (l : List Fail) : Nat := ((List.range 11).map (fun i => if l.any (fun f => f.check == i + 1) then 2 ^ i else 0)).sum

/-- LOAD_STATUS of an outcome (R82). -/
def loadWord : Option Fail → Nat
  | none => packFields [(0, 3, 2), (8, 12, 0xFFF), (20, 11, 0x7FF)]
  | some f => packFields [(0, 3, 3), (4, 4, f.check), (8, 12, f.thread), (20, 11, f.channel)]

/-- The objects of a check run. -/
def State.loadResult (s : State) (l : List Fail) : State :=
  let r := reported l
  let s := s.put Key.loadStatus (toWord (loadWord r))
  let s := s.put Key.loadFailMask (toWord (failMask l))
  let s := s.put Key.loadRow (toWord ((r.map Fail.row).getD noRow))
  s.put Key.loadDetail (toWord ((r.map (fun f => f.detail % 2 ^ 32)).getD 0))

/-- The objects that show the last check run's charges. -/
def chargeObject (key : Nat) : Bool :=
  (keyArea key == 0x20 && decide (0x1000 ≤ keyObj key) && decide (keyObj key < 0x1C00) && keyEl key == 3) ||
  (keyArea key == 0x31 && decide (0x1000 ≤ keyObj key) && decide (keyObj key < 0x1C00) && decide (0x0A ≤ keyEl key) && decide (keyEl key ≤ 0x0C))

/-- Rates, pinned rows, buffers and charges of the run (R89, R101, R142, R154), each for its threads, 0 for the others. -/
def State.charges (s : State) (ps : List Plan) : State :=
  let s0 := s.dropObjs chargeObject
  let s1 := ps.foldl (fun t p =>
    let t := t.put (Key.seqRate p.th) (toWord p.seqRate.ceil)
    let t := t.put (Key.patPinnedKib p.th) (toWord (ceilDiv (s.pinnedBytes p) 1024))
    let t := t.put (Key.patBufferKib p.th) (toWord (s.bufferBytes p / 1024))
    t.put (Key.patStream p.th) (toWord (s.rowCharge p).ceil)) s0
  let s1 := s1.put Key.seqRateTotal (toWord (Frac.sum (ps.map Plan.seqRate)).ceil)
  let s1 := s1.put Key.contextsArmed (toWord s.contextsNeeded)
  let s1 := s1.put Key.streamNeeded (toWord (s.streamCharge ps).ceil)
  let s1 := s1.put Key.lsPinnedKib (toWord (ceilDiv (s.pinnedTotal ps) 1024))
  s1.put Key.lsBufferKib (toWord (ceilDiv (s.bufferTotal ps) 1024))

/-- Uncorrectable reads during the checks (R298): each reachable block that cannot be read, at the first poisoned burst it holds. -/
def State.poisonReads (s : State) (ps : List Plan) : State :=
  let bad := (ps.flatMap (fun p => (s.triedBlocks p).filterMap (fun b =>
    let a := s.blockAddr p.th b
    s.poison.find? (fun x => decide (a / 64 ≤ x) && decide (64 * x < a + s.blockBytes p.th b))))).eraseDups
  bad.foldl (fun t x => t.dramUe (64 * x)) s

/-- The pages of the rows examined are checked until they are written again (R81, R148). -/
def State.notePages (s : State) (ps : List Plan) : State :=
  { s with checkedPages := (ps.flatMap (fun p => (s.triedBlocks p).flatMap (fun b => pagesOf (s.blockAddr p.th b) (s.blockBytes p.th b)))).eraseDups }

/-- The threads that read PRIVILEGED. -/
def State.privilegedNow (s : State) : List Nat :=
  s.objs.filterMap (fun kv => if keyArea kv.1 = 0x23 ∧ 0x1000 ≤ keyObj kv.1 ∧ keyObj kv.1 < 0x1C00 ∧ keyEl kv.1 = 1 ∧ bit kv.2 17 then some (keyObj kv.1 - 0x1000) else none)

/-- What a passed check leaves: pinned ranges and ring-bound rows in the armed threads, and the match privilege, which the others do not hold (R75, R123). -/
def State.notePassed (s : State) (ps : List Plan) : State :=
  let priv := s.privileged ps
  let s := s.privilegedNow.foldl (fun t th => t.putF (Key.threadState th) 17 1 0) s
  ps.foldl (fun t p =>
    let t := t.putThread p.th { t.thread p.th with pins := p.pins, ringRows := !(s.ringRowsOf p).isEmpty }
    t.putF (Key.threadState p.th) 17 1 (b2n (priv.contains p.th))) s

/-- The checks run over the allocated threads; whether all pass. -/
def State.runChecks (s : State) : State × Bool :=
  let ps := s.plans
  let l := s.allFails ps s.shortGroup
  let t := ((s.charges ps).loadResult l).poisonReads ps
  if l.isEmpty then ((t.notePages ps).notePassed ps, true) else (t, false)

/-- LOAD_STATUS while the checks run. -/
def State.checksRunning (s : State) : State := s.put Key.loadStatus (toWord (packFields [(0, 3, 1), (8, 12, 0xFFF), (20, 11, 0x7FF)]))

end Sys2Proof.Machine
end

