-- ==== Sys2Proof/Machine/Modes.lean ====
section
/-! DEFINITION. Changing the device mode (R61-R64, R77, R147, R437): requests, their completion, the load-time checks of ARM and of LOAD_CHECK, the returns that need no
request. -/

namespace Sys2Proof.Machine

/-! ## The request (R61, R62) -/

/-- The mode a request in progress names (DETAIL bits 7:4). -/
def State.modeTarget (s : State) : Nat := s.getF Key.modeRequest 20 4

/-- A request from the present mode to `m` is a trigger of R62. -/
def State.listed (s : State) (m : Nat) : Bool :=
  m == Mode.quiesce ||
  (if s.mode = Mode.idle then [Mode.train, Mode.load, Mode.armed, Mode.diagnose, Mode.calibrate, Mode.service].contains m
   else if s.mode = Mode.load then [Mode.idle, Mode.armed].contains m
   else if s.mode = Mode.armed then [Mode.idle, Mode.diagnose].contains m
   else if s.mode = Mode.diagnose then m == (s.get Key.modeOrigin).toNat
   else if s.mode = Mode.calibrate ∨ s.mode = Mode.service then m == Mode.idle
   else if s.mode = Mode.safe then [Mode.idle, Mode.service].contains m
   else false)

/-- The latch keeps a request out (R62, R371, R381, R382). -/
def State.latchRefuses (s : State) (m : Nat) : Bool :=
  bit (s.get Key.safeStatus) 0 && m == Mode.idle && (s.mode == Mode.safe || s.mode == Mode.service)

/-- A live fault bit keeps a request for IDLE from SAFE out (R62). -/
def State.liveRefuses (s : State) (m : Nat) : Bool := s.mode == Mode.safe && m == Mode.idle && !bit (s.get Key.safeStatus) 0 && s.anyLiveFault

/-- The code a request ends with at acceptance. A request that names the present mode is accepted; after a machine check every other target but QUIESCE is
refused (R371). -/
def State.requestCode (s : State) (arg : Word) : Code :=
  let m := arg.toNat % 16
  refuse [
    (s.mode == Mode.boot || (s.mode == Mode.quiesce && arg != 0xB), .wrongMode),
    (!s.machineCheck && decide (m < 12) && m != s.mode && (!s.listed m || s.liveRefuses m), .wrongMode), (s.modeChanging, .busy), (decide (16 ≤ arg.toNat), .reservedSet),
    (decide (12 ≤ m), .range), ((s.machineCheck && m != Mode.quiesce) || (m != s.mode && s.latchRefuses m), .safeLatched)]

/-- DETAIL of a mode change: the mode left and the mode entered. -/
def State.changeDetail (s : State) (m : Nat) : Nat := s.mode + 16 * m

/-! ## Into ARMED (R72, R89, R147, R352) -/

/-- The slices of the armed threads' ports. -/
def State.armedSlices (s : State) : List Nat := (List.range 32).filter (fun sl => s.sliceArmed sl)

/-- The regions that the armed threads reference are locked (R72): their images and the capture areas. -/
def State.lockRegions (s : State) : State :=
  let ths := s.armedThreads
  if ths.isEmpty then s
  else
    let rs := ths.map (fun th => (s.get (Key.patRegion (s.groupOf th))).toNat) ++ [(s.get Key.faillogRegion).toNat, (s.get Key.fullcapRegion).toNat]
    (rs.filter (fun r => decide (r < 256))).foldl (fun t r => t.put (Key.regionLocked r) 1) s

/-- Open descriptors of a channel that write a locked region abort with LOCKED (R147). -/
def State.abortLocked (s : State) (c : Nat) : State :=
  let d := s.chan c
  let hit (x : OpenDesc) : Bool := !x.desc.blob && !x.desc.toHost && x.abort == 0 && s.touchesLock (x.desc.devAddr + x.moved) (x.desc.length - x.moved)
  if d.opens.any hit then (s.putChan c { d with opens := d.opens.map (fun x => if hit x then { x with abort := Code.locked.toNat } else x) }).closeLost c 4 else s

/-- Writes in flight to a locked region are discarded (R147): those that wait for the fill of R281 are not yet in DDR5. -/
def State.dropLocked (s : State) : State := { s with waitingWrites := s.waitingWrites.filter (fun w => !s.touchesLock w.1 w.2.length) }

/-- An accepted request for ARMED from IDLE or LOAD: threads are allocated, a routine on their slices is abandoned, regions are locked, and the checks run. -/
def State.beginArm (s : State) : State :=
  let s := s.allocate
  let s := (s.abandonOn s.armedSlices).lockRegions
  ((List.range 8).foldl (fun t c => t.abortLocked c) s).dropLocked.checksRunning

/-- The request for ARMED whose checks run. -/
def State.arming (s : State) : Bool := s.cmdBusy Key.modeRequest && s.modeTarget == Mode.armed && (s.mode == Mode.idle || s.mode == Mode.load)

/-- The slots of the derived threads take their initial values, computed from the group thread's configuration, when their contexts are allocated (R89, R217). -/
def State.initDerived (s : State) : State :=
  (s.armedThreads.filter (fun t => s.isDerived t)).foldl (fun u t => (List.range 8).foldl (fun v k => v.sigReset t k) u) s

/-- ARMED is entered (R59, R93, R98, R217, R269, R370): parked slices freed, idle states driven, derived contexts initialised, shares fixed, threads primed, the ARM
strobe. -/
def State.enterArmed (s : State) : State :=
  let s := (List.range 32).foldl (fun t sl => if (t.slice sl).parked then t.putSlice sl { t.slice sl with parked := false } else t) s
  let s := (s.enterMode Mode.armed).initDerived
  let s := { s.setShares.primeAll with mapChanged := false }
  let r := s.armStrobe
  ((r.1.finishRequest).collect r.2).guardRaise

/-- The checks of an ARM request have run (R80, R147). -/
def State.armChecked (s : State) : State :=
  let r := s.runChecks
  if r.2 then r.1.enterArmed
  else
    let d := r.1.getF Key.modeRequest 16 16
    ((r.1.disarm).cmdFail Key.modeRequest .loadRefused d).irq Irq.mode

/-! ## QUIESCE (R63, R418) -/

/-- A write of a paired record that a command started runs (R400, R418). -/
def State.lichenBusy (s : State) : Bool := s.cmdBusy Key.dictPersist || s.cmdBusy Key.guardCommit || s.cmdBusy Key.fwActivate

/-- An accepted request for QUIESCE, once no such write runs: out of BURST the outputs are parked and the threads stop at once, and the mode is entered when the audit has reported. -/
def State.beginQuiesce (s : State) : State :=
  if s.lichenBusy then s
  else if s.mode = Mode.burst then
    let s := (s.allLanes .mid).parkDacs
    if s.burst.running then { s.stopAll Stop.modeStop with entering := some Mode.quiesce } else s
  else s

/-- A requested QUIESCE has been accepted: from then on every new Lichen command is refused with WRONG_MODE (R418). -/
def State.quiesceAsked (s : State) : Bool := s.cmdBusy Key.modeRequest && s.modeTarget == Mode.quiesce

/-- MODE_REQUEST (R61). -/
def State.cmdModeRequest (s : State) (arg : Word) : Code × State :=
  let c := s.requestCode arg
  let m := arg.toNat
  if c ≠ .ok then (c, s)
  else if m = s.mode then (.ok, s.cmdDone Key.modeRequest (s.changeDetail m))
  else
    let s := s.cmdRun Key.modeRequest (s.changeDetail m)
    (.ok, if s.arming then s.beginArm else if m = Mode.quiesce then s.beginQuiesce else s)

/-- MODE_REQUEST on a path. -/
def State.requestMode (s : State) (p : Path) (m : Nat) : State := s.access p 0 Key.modeRequest (fun t => t.cmdModeRequest (toWord m))

def execRequestTrain (p : Path) (s : State) : Out := .next (s.requestMode p Mode.train)
def execRequestIdle (p : Path) (s : State) : Out := .next (s.requestMode p Mode.idle)
def execRequestLoad (p : Path) (s : State) : Out := .next (s.requestMode p Mode.load)
def execRequestArmed (p : Path) (s : State) : Out := .next (s.requestMode p Mode.armed)
def execRequestDiagnose (p : Path) (s : State) : Out := .next (s.requestMode p Mode.diagnose)
def execRequestCalibrate (p : Path) (s : State) : Out := .next (s.requestMode p Mode.calibrate)
def execRequestService (p : Path) (s : State) : Out := .next (s.requestMode p Mode.service)
def execRequestQuiesce (p : Path) (s : State) : Out := .next (s.requestMode p Mode.quiesce)

/-! ## Completion (R61, R62) -/

/-- A requested change can be made: not while the load-time checks run, the audit is awaited, out of CALIBRATE a routine runs, or QUIESCE waits for a Lichen write. -/
def State.changeReady (s : State) : Bool :=
  s.cmdBusy Key.modeRequest && s.entering.isNone && !s.arming && !(s.mode == Mode.calibrate && s.modeTarget == Mode.idle && s.routine.isSome) &&
    !(s.modeTarget == Mode.quiesce && s.lichenBusy)

/-- The requested mode is entered; GUARD_UNLOCK_N low outside SERVICE raises FS081 (R373); DIAGNOSE from IDLE applies the pending codes as the ARM strobe does (R269). -/
def State.changeMode (s : State) : State :=
  let m := s.modeTarget
  let old := s.mode
  let s := (s.goMode m).finishRequest
  let s := if m = Mode.train then s.trainStarts else s
  let s := if m = Mode.service ∧ s.liveBit 81 then s.clearLive 81 else s
  let s := if old = Mode.service ∧ m ≠ Mode.service ∧ s.unlocked then s.fault 81 .none 0 else s
  (if m = Mode.diagnose ∧ old = Mode.idle then let r := s.armStrobe; r.1.collect r.2 else s).guardRaise

/-- MODE_CHANGE_DONE. -/
def execModeChangeDone (s : State) : Out := .next (if s.changeReady then s.changeMode else s)

/-- CALIBRATE_AUTO_EXIT (R62). -/
def execCalibrateAutoExit (s : State) : Out :=
  .next (if s.mode = Mode.calibrate ∧ s.calRan ∧ s.badgerQueue.isEmpty ∧ s.routine.isNone ∧ !s.modeChanging then s.enterMode Mode.idle else s)

/-- A routine runs on a slice of the burst. -/
def State.routineInBurst (s : State) : Bool :=
  match s.routine with
  | some r => s.burst.threads.any (fun th => (s.threadSlices th).any (fun sl => r.slices.contains sl))
  | none => false

/-- RETURN_TO_ARMED (R62, R93). -/
def execReturnToArmed (s : State) : Out :=
  .next (if s.mode = Mode.burst ∧ !s.burst.running ∧ !s.modeChanging ∧ !s.routineInBurst then (s.enterMode Mode.armed).primeAll.guardRaise else s)

/-! ## The load-time checks (R80, R81, R437) -/

/-- LOAD_CHECK. -/
def State.cmdLoadCheck (s : State) (arg : Word) : Code × State :=
  let c := refuse [(s.mode != Mode.load, .wrongMode), (s.cmdBusy Key.loadCheck, .busy), (arg != 0, .range)]
  if c ≠ .ok then (c, s) else (.ok, s.checksRunning.cmdRun Key.loadCheck 0)

def execLoadCheck (p : Path) (arg : Word) (s : State) : Out := .next (s.access p 0 Key.loadCheck (fun t => t.cmdLoadCheck arg))

/-- The checks of a LOAD_CHECK have run: the threads are allocated for them only. -/
def State.loadChecked (s : State) : State :=
  let r := (if s.arming then s else s.allocate).runChecks
  let t := if s.arming then r.1 else r.1.disarm
  if r.2 then t.cmdDone Key.loadCheck 0 else t.cmdFail Key.loadCheck .loadRefused 0

/-- LOAD_CHECKS_DONE. -/
def execLoadChecksDone (s : State) : Out :=
  .next (if s.cmdState Key.loadCheck = Cmd.running then s.loadChecked else if s.arming then s.armChecked else s)

end Sys2Proof.Machine
end

