-- ==== Sys2Proof/Machine/PowerOps.lean ====
section
/-! DEFINITION. Lichen and power as operations (R395-R406, R417-R419): which copy a write takes, tokens, the ledger snapshot, the fall of PWRFAIL_N, the release of the outputs. -/

namespace Sys2Proof.Machine

/-! ## Copies (R395, R396) -/

/-- A paired record as it lies in its pages (R395): header, body, and the trailer with the CRC-32 of both. -/
def pairedBytes (count seq version : Nat) (body : List Byte) : List Byte :=
  let head := leBytes 64 (packFields [(0, 32, 0x4B42444B), (32, 32, count), (64, 64, seq), (128, 32, version)])
  head ++ body ++ leBytes 64 (crc32 (head ++ body))

/-- The body of a dictionary bank (R397). -/
def bankBody (entries : List (Nat × Word)) : List Byte := entries.flatMap (fun e => leBytes 16 (packFields [(0, 32, e.1), (64, 64, e.2.toNat)]))


/-- `s` with another non-volatile array. -/
def State.putNvm (s : State) (n : Nvm) : State := { s with nvm := n }

/-- The pages of copy `i` are erased once more: guard 0 and 1, selector 0 and 1, ledger 0 and 1, bank A and B. -/
def Nvm.erase (n : Nvm) (i : Nat) : Nvm := { n with erases := n.erases.set i (n.erases.getD i 0 + 1) }

/-- The other of two copies. -/
def otherCopy (i : Nat) : Nat := 1 - i

/-- A dictionary bank. -/
def Nvm.putBank (n : Nvm) (i : Nat) (c : Copy) : Nvm := if i = 0 then { n with bankA := c } else { n with bankB := c }
def Nvm.bank (n : Nvm) (i : Nat) : Copy := if i = 0 then n.bankA else n.bankB

/-- A guard copy. -/
def Nvm.putGuard (n : Nvm) (i : Nat) (c : Copy) : Nvm := if i = 0 then { n with guard0 := c } else { n with guard1 := c }

/-- A boot selector copy. -/
def Nvm.putSel (n : Nvm) (i : Nat) (c : SelCopy) : Nvm := if i = 0 then { n with sel0 := c } else { n with sel1 := c }

/-- The boot selector in use (R396). -/
def Nvm.selInUse (n : Nvm) : Option (Nat × SelCopy) :=
  if n.sel0.cls = .valid then (if n.sel1.cls = .valid ∧ n.sel0.seq < n.sel1.seq then some (1, n.sel1) else some (0, n.sel0))
  else if n.sel1.cls = .valid then some (1, n.sel1) else none

/-- The slot that BOOT tries first (R413): slot 0 where no selector copy is VALID. -/
def Nvm.bootSlot (n : Nvm) : Nat :=
  match n.selInUse with
  | some (_, c) => c.slot
  | none => 0

/-- The bank that the next persist writes (R41, R399): bank A where none is valid. -/
def State.persistBank (s : State) : Nat := match s.bankInUse with | some (i, _) => otherCopy i | none => 0

/-- The guard copy that the next commit writes, and its SEQ (R395). -/
def State.guardTarget (s : State) : Nat := match s.guardInUse with | some (i, _) => otherCopy i | none => 0
def State.guardSeq (s : State) : Nat := match s.guardInUse with | some (_, c) => c.seq + 1 | none => 1

/-- A reset cuts a write of a bank or a guard copy short: it stays INCOMPLETE, or reads EMPTY where the reset fell between the erase of its header page and the header's
first program (R396); which, no command says. -/
def State.cutWrites (s : State) : State :=
  let s := (match s.nvm.persistImage with
    | some _ => let i := s.persistBank; let r := s.freeChoice; if r.1 then r.2.putNvm (r.2.nvm.putBank i ⟨.empty, 0, []⟩) else r.2
    | none => s)
  match s.nvm.guardImage with
  | some _ => let i := s.guardTarget; let r := s.freeChoice; if r.1 then r.2.putNvm (r.2.nvm.putGuard i ⟨.empty, 0, []⟩) else r.2
  | none => s

/-- A Lichen write or verify failed (R373). -/
def State.nvmFailed (s : State) : State := s.fault 25 .none 0

/-- The write classes of R406 (0 persist, 1 guard, 2 boot selector, 3 black box), the seconds between two tokens, and the size of the bucket. -/
def bucketRates : List (Nat × Nat × Nat) := [(0, 5400, 64), (1, 7200, 16), (2, 86400, 8), (3, 10, 256)]

/-- One bucket at the end of a second. -/
def State.refillBucket (s : State) (x : Nat × Nat × Nat) : State :=
  if s.bootSeconds % x.2.1 = 0 then s.put (Key.nvmTokens x.1) (toWord (min x.2.2 ((s.get (Key.nvmTokens x.1)).toNat + 1))) else s

/-- A second since BOOT began has passed: the buckets refill at their fixed rates (R406). -/
def State.refillBuckets (s : State) : State := bucketRates.foldl State.refillBucket { s with bootSeconds := s.bootSeconds + 1 }

/-- The minutes until the next token of a class; whether a part of a minute counts as one is open (log entry 107). -/
def State.minutesToToken (s : State) (cls : Nat) : Nat × State :=
  match bucketRates[cls]? with
  | none => (0, s)
  | some x =>
    let left := x.2.1 - s.bootSeconds % x.2.1
    if left % 60 = 0 then (left / 60, s) else let r := s.freeChoice; (if r.1 then left / 60 + 1 else left / 60, r.2)

/-- A command's write finds the bucket of its class empty (R406): FAILED with NVM_BUSY, the minutes to the next token, and FS026. -/
def State.noToken (s : State) (cls k : Nat) : State :=
  let d := s.minutesToToken cls
  (d.2.cmdFail k .nvmBusy d.1).fault 26 .none 0

/-! ## The ledger (R404, R405) -/

/-- The ledger as a copy holds it. -/
def State.ledgerCopy (s : State) (seq : Nat) : LedCopy :=
  { cls := .valid, seq := seq, seconds := (s.get Key.powerOnSeconds).toNat, bins := (List.range 16).map (fun i => s.get (Key.tempBin i)),
    recoveries := (s.get Key.bankRecoveries).toNat, rest := s.ledger }

/-- The newer of the snapshot copies, as R396 chooses. -/
def Nvm.ledInUse (n : Nvm) : Option (Nat × LedCopy) :=
  if n.led0.cls = .valid then (if n.led1.cls = .valid ∧ n.led0.seq < n.led1.seq then some (1, n.led1) else some (0, n.led0))
  else if n.led1.cls = .valid then some (1, n.led1) else none

/-- A snapshot is written into the copy not in use (R405). -/
def State.snapshot (s : State) : State :=
  let r := s.nvm.ledInUse
  let i := match r with | some (i, _) => otherCopy i | none => 0
  let q := match r with | some (_, c) => c.seq + 1 | none => 1
  let c := s.ledgerCopy q
  let n := ({ s.nvm with snapshotDue := false }).erase (4 + i)
  s.putNvm (if i = 0 then { n with led0 := c } else { n with led1 := c })

/-- What waited for a Lichen write to end follows (R400, R418): a snapshot that fell due, and a requested QUIESCE. -/
def State.lichenEnds (s : State) : State :=
  if s.lichenBusy then s
  else
    let s := if s.nvm.snapshotDue then s.snapshot else s
    if s.quiesceAsked then s.beginQuiesce else s

/-- A record with the ledger image (R402): written, and its image readable at the next BOOT (R405). -/
def State.flushRecord (s : State) (typ : Nat) : State :=
  if s.nvm.closed then s
  else
    let q := (s.get Key.bbNextSeq).toNat
    let s := s.bbWrite typ s.ledgerWords
    s.putNvm { s.nvm with flushRecords := s.nvm.flushRecords ++ [s.ledgerCopy q] }

/-! ## Outputs at FLUSHED (R417) -/

/-- T-lanes, DACs and TRIGOUTs are high-impedance; FLUSHED is set (R244, R418). -/
def State.releaseOutputs (s : State) : State :=
  let s := { s.floatTrigouts with laneBase := .highZ, lanes := [] }
  (s.setLbk (List.range 32) .highZ).releaseDacs.putF Key.quiesceStatus 0 1 1

/-! ## PWRFAIL_N (R63, R64, R403, R419) -/

/-- A command whose write of a paired record PWRFAIL_N abandons ends FAILED with ABORTED (R58); the copy stays INCOMPLETE (R400). -/
def State.abandonWrites (s : State) : State :=
  let f (t : State) (k : Nat) : State := if t.cmdBusy k then t.cmdFail k .aborted 0 else t
  let s := [Key.dictPersist, Key.guardCommit, Key.fwActivate].foldl f s
  s.putNvm { s.nvm with persistImage := none, guardImage := none, snapshotDue := false }

/-- QUIESCE follows from the mode being left: out of a running burst when its audit has reported. -/
def State.quiesceForPower (s : State) : State :=
  if s.mode = Mode.quiesce then s
  else if s.mode = Mode.burst && s.burst.running then
    let s := (s.allLanes .mid).parkDacs
    { s.stopAll Stop.modeStop with entering := some Mode.quiesce }
  else s.enterQuiesce

/-- PWRFAIL_N falls: its fall is counted, FS007 is raised, the flush starts, and the device goes to QUIESCE. One that falls again changes nothing more. -/
def State.powerFalls (s : State) : State :=
  let s := { s with ledger := { s.ledger with powerFails := (s.ledger.powerFails + 1) % 2 ^ 32 } }
  if s.powerFailing then s
  else (s.putF Key.quiesceStatus 1 1 1).modeAbort.abandonWrites.quiesceForPower

end Sys2Proof.Machine
end

