-- ==== Sys2Proof/Machine/Time.lean ====
section
/-! DEFINITION. The commands of device time, the scheduled slots, the Ethernet port and PTP (R305-R325). -/

namespace Sys2Proof.Machine

/-! ## Slots (R318-R321) -/

/-- KIND and TARGET of a slot (R322). -/
def State.slotKind (s : State) (n : Nat) : Nat := s.getF (Key.slotCtrl n) 0 3
def State.slotTarget (s : State) (n : Nat) : Nat := s.getF (Key.slotCtrl n) 8 16

/-- The units of a kind. -/
def slotUnits (kind : Nat) : Nat := match kind with | 0 => 0 | 1 => 8 | 3 => 8 | _ => 16

/-- TARGET names no unit, or one beyond the kind's units (R321). -/
def targetBad (kind target : Nat) : Bool := (target == 0 && kind != 0) || decide (2 ^ slotUnits kind ≤ target)

/-- A short time resolved to the full time within 32,768 s of an instant (R308). -/
def resolveTime (short : Nat) (ref : Int) : Int :=
  let half : Int := 32768 * secUnits
  let turn : Int := 65536 * secUnits
  ref - half + (short - (ref - half)).emod turn

/-- A slot is armed (R318, R319): its time resolved and kept; a late one without RUN_LATE is refused. -/
def State.armSlot (s : State) (n : Nat) : Code × State :=
  let t := resolveTime (s.get (Key.slotTime n)).toNat s.now
  let late := decide (t < s.now + twoMicros)
  if late && !bit (s.get (Key.slotCtrl n)) 3 then (.late, s.slotTooLate n)
  else
    let s := (s.putSlot n ⟨t, 0⟩).putF (Key.slotStatus n) 0 3 1
    (.ok, if late then s.runLate n (max t (s.now + oneMicro)) else (s.put (Key.slotLateness n) 0).convertSlot n)

/-- SLOT_ARM (R321). -/
def State.cmdSlotArm (s : State) (n : Nat) (arg : Word) : Code × State :=
  let arm := arg == 1
  let c := refuse [(s.cmdMode, .wrongMode), ((arm && !s.slotRest n) || s.slotState n == 2, .busy), (decide (1 < arg.toNat), .range),
    (arm && targetBad (s.slotKind n) (s.slotTarget n), .range)]
  if c ≠ .ok then (c, s)
  else if arm then
    let r := s.armSlot n
    if r.1 = .ok then (.ok, r.2.cmdDone (Key.slotArm n) 0) else r
  else (.ok, (if s.slotState n = 1 then s.putF (Key.slotStatus n) 0 3 0 else s).cmdDone (Key.slotArm n) 0)

/-- SLOT_ARM with argument 1. -/
def execSlotArm (p : Path) (n : Nat) (s : State) : Out := within n 64 (s.access p 0 (Key.slotArm n) (fun t => t.cmdSlotArm n 1))

/-- SLOT_ARM with argument 0. -/
def execSlotCancel (p : Path) (n : Nat) (s : State) : Out := within n 64 (s.access p 0 (Key.slotArm n) (fun t => t.cmdSlotArm n 0))

/-- SLOT_LAUNCH (R318, R321): the launch is sent, and a periodic slot's next time is a period later. -/
def execSlotLaunch (n : Nat) (s : State) : Out :=
  within n 64
    (if s.slotState n = 1 then
      let x := s.slotSt n
      let s := s.putSlot n { x with fullTime := x.fullTime + (s.get (Key.slotPeriod n)).toNat * 65536 }
      (s.putF (Key.slotStatus n) 0 3 2).countSat (Key.slotFires n) 32 1
     else s)

/-- A burst-start slot (R76, R232, R320): the code, `none` where it becomes a joint start still to be decided. Of two slots of one instant the second ends with BUSY. -/
def State.slotBurst (s : State) (n tick : Nat) : Option Code × State :=
  let c := s.startCode
  let c := if c = .auditBusy ∧ !s.burst.launched ∧ s.burst.launchTick = tick then .busy else c
  if c ≠ .ok then (some c, s)
  else if s.joint then (none, s.startJoint (some n))
  else (some .ok, s.acceptBurst tick)

/-- What the owning block does with a launched action (R77, R320). -/
def State.slotRun (s : State) (n : Nat) : Option Code × State :=
  let tick := s.epochOf (s.slotSt n).instant
  let target := s.slotTarget n
  let running : Code := if s.unitsRun then .ok else .wrongMode
  match s.slotKind n with
  | 0 => s.slotBurst n tick
  | 1 => let c := s.strobeCode; (some c, if c = .ok then s.queueLoads (bitsOf 8 target) (edgeAfter tick) else s)
  | 2 =>
    let c : Code := if s.mode = Mode.safe then .wrongMode else running
    (some c, if c = .ok then (bitsOf 16 target).foldl (fun t i => t.pulse i) s else s)
  | 3 => (some running, if running = .ok then (bitsOf 8 target).foldl (fun t u => t.armAcqBy u 14 (edgeAfter tick)) s else s)
  | 4 => (some running, if running = .ok then (bitsOf 16 target).foldl (fun t i => t.startAdcBy i 3) s else s)
  | _ => (some running, if running = .ok then (bitsOf 16 target).foldl (fun t u => t.armTiuBy u 5 (edgeAfter tick)) s else s)

/-- SLOT_ACTION (R320, R321). -/
def execSlotAction (n : Nat) (s : State) : Out :=
  within n 64
    (if s.slotState n = 2 ∧ s.ring.startSlot ≠ some n then
      let r := s.slotRun n
      match r.1 with
      | some c => r.2.slotDecided n c
      | none => r.2
     else s)

/-! ## The clock -/

/-- TIME_LATCH (R325). -/
def State.cmdTimeLatch (s : State) (arg : Word) : Code × State :=
  let c := refuse [(s.cmdMode, .wrongMode), (s.cmdBusy Key.timeLatch, .busy), (arg != 0, .range)]
  if c ≠ .ok then (c, s)
  else
    let t := s.now
    let s := (s.put Key.latchRaw (toWord s.raw)).put Key.latchSec (toWord ((t.fdiv secUnits).emod (2 ^ 48)).toNat)
    (.ok, (s.put Key.latchSub (intWord (t.fmod secUnits))).cmdDone Key.timeLatch 0)

def execTimeLatch (p : Path) (arg : Word) (s : State) : Out := .next (s.access p 0 Key.timeLatch (fun t => t.cmdTimeLatch arg))

/-- PENDING_STEP in 2^-16 ns. -/
def State.pendingStep (s : State) : Int := (s.get Key.pendingStepSec).toInt * secUnits + (s.get Key.pendingStepNs).toInt * 65536

/-- TIME_SET in 2^-16 ns. -/
def State.timeSet (s : State) : Int := (s.get Key.timeSetSec).toNat * secUnits + (s.get Key.timeSetSub).toNat

/-- TIME_STEP (R310). -/
def State.cmdTimeStep (s : State) (arg : Word) : Code × State :=
  let c := refuse [(s.cmdMode, .wrongMode), (s.cmdBusy Key.timeStep, .busy), (decide (1 < arg.toNat) || (arg == 0 && s.pendingStep == 0), .range)]
  if c ≠ .ok then (c, s)
  else if arg = 0 then (.ok, (s.applyStep s.pendingStep s.raw).cmdDone Key.timeStep 0)
  else (.ok, (s.applyStep (s.timeSet - s.timeAt (s.raw + 1)) (s.raw + 1)).cmdDone Key.timeStep 0)

/-- TIME_STEP with argument 0. -/
def execTimeStepPending (p : Path) (s : State) : Out := .next (s.access p 0 Key.timeStep (fun t => t.cmdTimeStep 0))

/-- TIME_STEP with argument 1. -/
def execTimeStepSet (p : Path) (s : State) : Out := .next (s.access p 0 Key.timeStep (fun t => t.cmdTimeStep 1))

/-! ## PTP (R309-R316) -/

/-- The Ethernet link is up. -/
def State.ethUp (s : State) : Bool := bit (s.get Key.ethStatus) 0

/-- PTP frames are exchanged: ENABLE, with the link up. -/
def State.ptpOn (s : State) : Bool := bit (s.get Key.ptpCtrl) 0 && s.ethUp

/-- The Sync interval in seconds, 2^logSyncInterval. -/
def State.syncInterval (s : State) : Rat :=
  let l := signedField (s.get Key.ptpCtrl) 24 4
  if l < 0 then 1 / (2 ^ l.natAbs : Nat) else ((2 ^ l.natAbs : Nat) : Rat)

/-- The link runs at 25 Gb/s (ETH_STATUS), else at 10 Gb/s. -/
def State.fastLink (s : State) : Bool := s.getF Key.ethStatus 1 2 == 1

/-- The MAC's corrections in 2^-16 ns (R315). -/
def State.ingress (s : State) : Rat := (if s.fastLink then -412 else -968) * 65536 / 10
def State.egress (s : State) : Rat := (if s.fastLink then 288 else 640) * 65536 / 10

/-- PTP_ASYM in 2^-16 ns. -/
def State.ptpAsym (s : State) : Rat := ((s.get Key.ptpAsym).toInt : Rat) * 65536 / 1000

/-- The offset of a Sync (R314): arrival less origin, mean delay and asymmetry, as IEEE 1588 lays down. -/
def State.offsetOf (s : State) (origin : Int) (arrival : Rat) : Rat := arrival - origin - (s.get Key.ptpPathDelay).toInt - s.ptpAsym

/-- PTP_SYNC (R309, R310, R312, R314, R315). The offset is rounded to 2^-16 ns as the device chooses. -/
def execPtpSync (origin capture : Int) (s : State) : Out :=
  .next (if s.ptpOn then
      let arrival := capture + s.ingress
      let r := s.roundOpen (s.offsetOf origin arrival)
      let s : State := { r.2.put Key.ptpOffset (intWord r.1) with ptp := { r.2.ptp with sync := some (origin, arrival) } }
      if s.get Key.timeSource = 1 then s.servo r.1 s.syncInterval else s
    else s)

/-- The port measures by the peer-to-peer mechanism, else end to end. -/
def State.peerDelay (s : State) : Bool := bit (s.get Key.ptpCtrl) 3

/-- A mean delay takes effect, rounded to 2^-16 ns as the device chooses; the request it answers is used up. -/
def State.delayIs (s : State) (d : Rat) : State :=
  let r := s.roundOpen d
  { r.2.put Key.ptpPathDelay (intWord r.1) with ptp := { r.2.ptp with sent := none } }

/-- The times of a message (R314): the mean path delay from a Delay_Resp, the mean link delay from a Pdelay_Resp, the arrival of a peer's request. -/
def State.ptpTakes (s : State) (m : PtpTimed) : State :=
  match m with
  | .untimed => s
  | .delayResp t4 =>
    (match s.peerDelay, s.ptp.sync, s.ptp.sent with
     | false, some (t1, t2), some t3 => s.delayIs ((t2 - t1 + (t4 - t3)) / 2)
     | _, _, _ => s)
  | .peerResp t2 t3 capture =>
    (match s.peerDelay, s.ptp.sent with
     | true, some t1 => s.delayIs ((capture + s.ingress - t1 - (t3 - t2 : Int)) / 2)
     | _, _ => s)
  | .peerReq capture => { s with ptp := { s.ptp with asked := some (capture + s.ingress) } }

/-- PTP_MESSAGE (R312, R314): the port's state after it, never MASTER under RECEIVER_ONLY; a port that leaves SLAVE puts a clock that follows it into HOLDOVER. -/
def execPtpMessage (portState : Nat) (times : PtpTimed) (s : State) : Out :=
  .next (if s.ptpOn then
      let old := (s.get Key.ptpPortState).toNat
      let s := s.ptpTakes times
      if portState < 1 ∨ 9 < portState ∨ (portState = 6 ∧ bit (s.get Key.ptpCtrl) 5) then s
      else
        let s := s.put Key.ptpPortState (toWord portState)
        if old = 9 ∧ portState ≠ 9 ∧ s.get Key.timeSource = 1 then s.holdover else s
    else s)

/-- HOLDOVER_TIMEOUT (R312). -/
def execHoldoverTimeout (s : State) : Out := .next (if Mode.train ≤ s.mode then s.holdover else s)

/-- The time an event frame carries, or its Follow_Up (R316): its departure, in a Pdelay_Resp the turnaround since the request it answers. -/
def State.frameStamp (s : State) (kind : Nat) (departure : Rat) : Rat := if kind = 3 then departure - s.ptp.asked.getD departure else departure

/-- PTP_EVENT_FRAME_SEND (R315, R316): the departure of a request of the device's own is kept for its answer. -/
def execPtpEventFrameSend (kind : Nat) (canInsert : Bool) (capture : Int) (s : State) : Out :=
  .next (if s.ptpOn then
      let one := bit (s.get Key.ptpCtrl) 4
      let departure := capture + s.egress
      let s := if one && !canInsert then s.countSat Key.oneStepFallback 32 1 else s
      let s : State := if kind = 1 ∨ kind = 2 then { s with ptp := { s.ptp with sent := some departure } } else s
      s.emit (.ptpFrame kind (one && canInsert) (s.frameStamp kind departure) (s.getF Key.ptpCtrl 1 2))
    else s)

/-! ## PTM (R317) -/

/-- A PTM Request is sent. -/
def State.ptmSend (s : State) : State := if s.pcieUp then s.emit .ptmRequest else s

/-- PTM_CORR as a command. -/
def State.cmdPtmCorr (s : State) (arg : Word) (enabled : Bool) : Code × State :=
  let c := refuse [(s.cmdMode || !enabled, .wrongMode), (s.cmdBusy Key.ptmCorr, .busy), (arg != 0, .range)]
  if c ≠ .ok then (c, s) else (.ok, (s.cmdRun Key.ptmCorr 0).ptmSend)

/-- PTM_CORR: the command, or the expiry of PTM_INTERVAL under TIME_SOURCE 2. -/
def execPtmCorr (p : Option Path) (arg : Word) (enabled : Bool) (s : State) : Out :=
  .next (match p with
    | some p => s.access p 0 Key.ptmCorr (fun t => t.cmdPtmCorr arg enabled)
    | none => if Mode.train ≤ s.mode ∧ s.get Key.timeSource = 2 ∧ enabled then { s.ptmSend with ptmAuto := true } else s)

/-- PTM_RESPONSE (R317, R309): the correlation, and the servo's update under TIME_SOURCE 2. -/
def State.correlate (s : State) (t1 t4 t2 t3 : Nat) : State :=
  let ps : Int := (((t4 : Int) - t1) * 1250 - ((t3 : Int) - t2) * 1000) / 2
  let r := s.roundOpen (((t2 * 1000 - ps : Int) : Rat) / 1000)
  let s : State := { r.2 with ptmAuto := false }
  let s := ((s.put Key.ptmRaw (toWord t1)).put Key.ptmLinkDelay (toWord (ps.emod (2 ^ 32)).toNat)).put Key.ptmHostNs (intWord r.1)
  let s : State := if s.cmdBusy Key.ptmCorr then s.cmdDone Key.ptmCorr 0 else s
  if s.get Key.timeSource == 2 then s.servo (s.timeAt t1 - r.1 * 65536) (((s.get Key.ptmInterval).toNat : Rat) / 1000) else s

def execPtmResponse (t1 t4 t2 t3 : Nat) (s : State) : Out := .next (if s.cmdBusy Key.ptmCorr || s.ptmAuto then s.correlate t1 t4 t2 t3 else s)

/-- PTM_TIMEOUT (R317). -/
def execPtmTimeout (s : State) : Out :=
  .next (let s := { s with ptmAuto := false }
    if s.cmdBusy Key.ptmCorr then s.cmdFail Key.ptmCorr .hwFail 0 else s)

/-! ## The Ethernet port (R313) -/

/-- ETH_FRAME (R313): kinds 0-3 (ARP, ICMP echo, ICMPv6 echo, neighbour discovery) for the device are answered; every other frame, and one too long, is dropped and counted. -/
def execEthFrame (kind : Nat) (toDevice : Bool) (len : Nat) (tagged : Bool) (s : State) : Out :=
  .next (if !s.ethUp then s
    else if toDevice && decide (kind < 4) && decide (len ≤ if tagged then 1522 else 1518) then s.emit (.ethReply kind)
    else s.countSat Key.ethRxDropped 32 1)

/-- ETH_LINK_DOWN (R313). -/
def execEthLinkDown (s : State) : Out := .next (if s.ethUp then (s.put Key.ethStatus 0).fault 72 .none 0 else s)

/-- ETH_LINK_UP (R313): LINK, and the speed in use. -/
def execEthLinkUp (speed : Nat) (s : State) : Out :=
  .next (if s.mode < Mode.train then s
    else
      let s := s.put Key.ethStatus (toWord (packFields [(0, 1, 1), (1, 2, speed)]))
      if s.liveBit 72 then s.clearLive 72 else s)

end Sys2Proof.Machine
end

