-- ==== Sys2Proof/WellFormed.lean ====
section
/-! DEFINITION. Well-formed commands: the units a command names exist (R4-R8, R83, R90, R245, R251, R253, R262, R276, R333, R359, R373, R391), and what it carries fits what the
spec gives it. The execution stops on no well-formed command. -/

namespace Sys2Proof

/-- A location names a unit of the device (R369, R377). -/
def Loc.wf : Loc → Bool
  | .none => true
  | .thread n => decide (n < 3072)
  | .channel g => decide (g < 1024)
  | .slice s => decide (s < 32)
  | .dac d => decide (d < 64)
  | .subch i => decide (i < 12)
  | .unit u => decide (u < 4096)

/-- A raise names one of the 128 sources (R373) and a unit of the device. -/
def Raise.wf (r : Raise) : Bool := decide (r.source < 128) && r.loc.wf && decide (r.detail < 4294967296)

/-- A flit's fields fit its layout (R227). -/
def Flit.wf (f : Flit) : Bool := decide (f.typ < 16) && decide (f.cls < 4) && decide (f.src < 32) && decide (f.seq < 256) && decide (f.due < 2 ^ 48)

/-- The units a command names exist. -/
def Instr.wf : Instr → Bool
  | .hotWindowWrite slot offset width _ => decide (slot < 256) && decide (offset < 8) && decide (1 ≤ width) && decide (offset + width ≤ 8)
  | .dispatch core => decide (core < 64)
  | .preempt core => decide (core < 64)
  | .spanArrival slice thread _ => decide (slice < 32) && decide (thread < 3072)
  | .spanCreditReturn slice thread => decide (slice < 32) && decide (thread < 3072)
  | .fetchComplete thread => decide (thread < 3072)
  | .cycleStart thread _ _ _ => decide (thread < 3072)
  | .adv thread _ => decide (thread < 3072)
  | .segm thread _ _ _ _ => decide (thread < 3072)
  | .trigTrigout thread _ _ => decide (thread < 3072)
  | .trigTiuArm thread _ _ => decide (thread < 3072)
  | .trigAdcStart thread _ _ => decide (thread < 3072)
  | .trigDacLoad thread _ _ => decide (thread < 3072)
  | .trigAcqArm thread _ _ => decide (thread < 3072)
  | .trigRing thread _ _ => decide (thread < 3072)
  | .capcFullcap thread _ _ _ _ => decide (thread < 3072)
  | .capcJudge thread _ _ _ _ => decide (thread < 3072)
  | .capcSig thread _ _ _ _ => decide (thread < 3072)
  | .flag thread _ _ _ _ _ _ => decide (thread < 3072)
  | .loop thread _ _ _ => decide (thread < 3072)
  | .halt thread _ => decide (thread < 3072)
  | .jmp thread _ _ _ => decide (thread < 3072)
  | .call thread _ _ _ => decide (thread < 3072)
  | .ret thread _ _ => decide (thread < 3072)
  | .lend thread _ _ => decide (thread < 3072)
  | .pref thread _ => decide (thread < 3072)
  | .sync thread _ _ _ => decide (thread < 3072)
  | .matchStart thread _ _ _ => decide (thread < 3072)
  | .matchExit thread => decide (thread < 3072)
  | .waittrig thread _ _ => decide (thread < 3072)
  | .waittrigTimeout thread => decide (thread < 3072)
  | .waittime thread _ => decide (thread < 3072)
  | .waittimeWake thread => decide (thread < 3072)
  | .syncToken thread _ _ => decide (thread < 3072)
  | .hostJump _ thread _ => decide (thread < 3072)
  | .hostJumpTaken thread => decide (thread < 3072)
  | .dmaDoorbell ch _ _ => decide (ch < 8)
  | .dmaRun ch _ => decide (ch < 8)
  | .dmaStop ch => decide (ch < 8)
  | .descBaseWrite ch _ _ => decide (ch < 8)
  | .descriptorClose ch _ _ => decide (ch < 8)
  | .dmaHostError ch cause _ => decide (ch < 8) && decide (1 ≤ cause) && decide (cause ≤ 3)
  | .flitForm _ f => f.wf
  | .flitMeasure _ f _ grid => f.wf && decide (grid < 400)
  | .flitStartReq _ f => f.wf
  | .flitLaunch _ f => f.wf
  | .flitCond _ f => f.wf
  | .flitToken _ f => f.wf
  | .flitTrig _ f => f.wf
  | .flitBreak _ f => f.wf
  | .flitErrored _ f => f.wf
  | .triginEdge n _ => decide (n < 8)
  | .trigoutEnd n => decide (n < 16)
  | .tiuArm _ u => decide (u < 16)
  | .tiuDisarm _ u => decide (u < 16)
  | .tiuEdge u _ _ _ _ => decide (u < 16)
  | .tiuGateEnd u => decide (u < 16)
  | .tiuTimeout u => decide (u < 16)
  | .tiuHoldoffEnd u => decide (u < 16)
  | .adcStart _ n => decide (n < 16)
  | .adcStop _ n => decide (n < 16)
  | .adcConversion n _ => decide (n < 16)
  | .acqArm _ u => decide (u < 8)
  | .acqDisarm _ u => decide (u < 8)
  | .acqForce _ u => decide (u < 8)
  | .acqSample u _ => decide (u < 8)
  | .acqGroupFire u => decide (u < 8)
  | .acqRearmEnd u => decide (u < 8)
  | .acqRelease _ u _ => decide (u < 8)
  | .failRateInterval port => decide (port < 8192)
  | .dacParkWrite _ dac _ => decide (dac < 64)
  | .dacCompliance dac _ => decide (dac < 64)
  | .dacModulator dac => decide (dac < 64)
  | .slotArm _ n => decide (n < 64)
  | .slotCancel _ n => decide (n < 64)
  | .slotLaunch n => decide (n < 64)
  | .slotAction n => decide (n < 64)
  | .reqCmd _ slot _ => decide (slot < 16)
  | .reqDeadline slot => decide (slot < 16)
  | .driftTracking s _ => decide (s < 32)
  | .driftCorrectionApply s => decide (s < 32)
  | .driftLimit s => decide (s < 32)
  | .eyeAggregation s => decide (s < 32)
  | .marginError g => decide (g < 1024)
  | .laneTxFault g => decide (g < 1024)
  | .laneRxOpen g => decide (g < 1024)
  | .slicePllUnlock s => decide (s < 32)
  | .slicePllLock s => decide (s < 32)
  | .nvmVerify page _ => decide (page < 1024)
  | .faultRaise rs => rs.all (fun r => r.wf)
  | .faultCauseClear _ el _ => el == 1 || el == 2
  | .faultCauseRead _ el => el == 1 || el == 2
  | .firstFaultRead _ hist el => (el == 1 || el == 2) && (match hist with | some n => decide (n < 32) | none => true)
  | .ledgerSecond temps => temps.length == 8
  | .resetRelease _ _ slot0 slot1 _ => decide (slot0 ≤ 4) && decide (slot1 ≤ 4)
  | .writeDrain subch => decide (subch < 12)
  | .refreshDue subch _ _ => decide (subch < 12)
  | .refreshRatePoll subch _ _ => decide (subch < 12)
  | .act subch _ _ _ => decide (subch < 12)
  | .actWindowReset subch _ => decide (subch < 12)
  | .retrainPause subch _ _ _ _ => decide (subch < 12)
  | .retrainEnd subch => decide (subch < 12)
  | .ceRateCheck subch _ _ => decide (subch < 12)
  | .liveBitClear source => decide (source < 128)
  | .fwActivateDone outcome => decide (outcome ≤ 3)
  | .dictBatch _ => true
  | .mailboxDoorbell _ _ _ => true
  | .atomicGroup _ _ => true
  | .read _ _ _ _ => true
  | .write _ _ _ _ _ => true
  | .subscribe _ _ _ => true
  | .unsubscribe _ _ => true
  | .sessionOpen _ _ _ => true
  | .sessionConfirm _ _ => true
  | .sessionClose _ => true
  | .sessionIdleTimeout _ => true
  | .notify _ _ => true
  | .bar0StrayWrite => true
  | .bar2Write addr data => decide (addr + data.length ≤ 2 ^ 36)
  | .bar2Read addr len _ => decide (addr + len ≤ 2 ^ 36)
  | .dictPersist _ _ => true
  | .dictPersistDone _ => true
  | .dictRevert _ _ => true
  | .requestTrain _ => true
  | .requestIdle _ => true
  | .requestLoad _ => true
  | .requestArmed _ => true
  | .requestDiagnose _ => true
  | .requestCalibrate _ => true
  | .requestService _ => true
  | .requestQuiesce _ => true
  | .modeChangeDone => true
  | .loadCheck _ _ => true
  | .loadChecksDone => true
  | .calibrateAutoExit => true
  | .returnToArmed => true
  | .sliceDiagRequest _ _ => true
  | .diagStart _ => true
  | .diagStop _ => true
  | .diagRunDone _ => true
  | .burstStart _ _ => true
  | .burstLaunch _ => true
  | .burstStop _ _ => true
  | .auditDrainEnd _ => true
  | .auditDrainTimeout => true
  | .hostTrig _ _ => true
  | .resultRecord => true
  | .ringConsumerWrite _ _ => true
  | .ringBaseWrite _ _ => true
  | .eventConsumerWrite _ _ => true
  | .hostIslandReset => true
  | .pcieLinkDown _ => true
  | .fernAlign _ _ _ _ => true
  | .fernAlignLocal _ => true
  | .fernAlignTimeout _ => true
  | .fsyncPulse => true
  | .fernReturn _ => true
  | .frefLoss => true
  | .ringForm _ => true
  | .ringFormTimeout _ _ => true
  | .ringDue => true
  | .ringLinkDown _ => true
  | .trigoutPulse _ _ => true
  | .dieTempSample _ => true
  | .dacLoad _ _ => true
  | .timeLatch _ _ => true
  | .timeStepPending _ => true
  | .timeStepSet _ => true
  | .ptpSync _ _ => true
  | .ptpMessage _ _ => true
  | .holdoverTimeout => true
  | .ptmCorr _ _ _ => true
  | .ptmResponse _ _ _ _ => true
  | .ptmTimeout => true
  | .ethFrame _ _ _ _ => true
  | .ethLinkDown => true
  | .calCancel _ _ => true
  | .routineStart => true
  | .conditionalWaitEnd _ => true
  | .routineCommit _ _ => true
  | .postCommitEnd => true
  | .routineOverrun => true
  | .adcReferenceCheck _ => true
  | .ffClear _ _ => true
  | .faultInject _ _ => true
  | .faultInjectTimeout => true
  | .quietPeriod => true
  | .safeUnlatch _ _ => true
  | .guardCommit _ _ => true
  | .guardCommitDone _ => true
  | .guardUnlocked => true
  | .watchdogKick => true
  | .watchdogExpiry => true
  | .bbNote _ _ => true
  | .ledgerSnapshot => true
  | .fwActivate _ _ => true
  | .powerOnReset _ => true
  | .resetNLow => true
  | .deviceReset _ _ => true
  | .deviceResetTaken => true
  | .tapReset => true
  | .bootDone _ => true
  | .trainDone _ _ _ => true
  | .pwrfail => true
  | .powerFailRecord => true
  | .quiesceFlushed => true
  | .dramRead _ _ => true
  | .dramWrite _ _ _ => true
  | .dramFillDone => true
  | .pcieLinkUp => true
  | .ethLinkUp _ => true
  | .ringLinkLock _ => true
  | .ringSlot _ grid => decide (grid < 400)
  | .ptpEventFrameSend kind _ _ => decide (kind < 4)
  | .interruptCoalescing _ => true

end Sys2Proof
end

