-- ==== Sys2Proof/Machine/Faults.lean ====
section
/-! DEFINITION. The commands of the fault collector (R368-R383), of the guard envelope (R384-R387) and of the watchdog (R388), and the die temperature (R254, R433). -/

namespace Sys2Proof.Machine

/-! ## Raises -/

/-- The threads that a source's own action names (R240). -/
def State.ownThreads (s : State) (src : Nat) : List Nat := if src = 57 ∨ src = 59 ∨ src = 60 then s.ringThreads else []

/-- The raises of one collector cycle, from whatever checker: recorded and acted on in the order of R376. PWRFAIL (FS007) is followed by QUIESCE whatever its severity. -/
def State.arriving (s : State) (rs : List Raise) : State :=
  let ordered := orderRaises s rs
  let s := ordered.foldl (fun t x => t.noteFull x.2 x.1) s
  let s := ordered.foldl (fun t x => t.effects x.2 x.1 (t.ownThreads x.2.source)) s
  (if rs.any (fun r => r.source == 7) then s.powerFalls else s).settleCut

/-- FAULT_RAISE. Outside RESET, and in BOOT once the collector runs, every raise is taken. -/
def execFaultRaise (rs : List Raise) (s : State) : Out :=
  if rs.all (fun r => r.wf) then .next (if s.mode = Mode.reset then s else s.arriving rs) else .fault .noSuchUnit

/-- The condition of a lasting source still holds in the state: its live bit does not clear (R374). -/
def State.persists (s : State) (src : Nat) : Bool :=
  match src with
  | 11 => bit (s.get Key.wdogStatus) 1
  | 58 => bit (s.get Key.fernStatus) 5
  | 59 => s.ringEnabled && s.getF Key.ringStatus 3 2 != 3
  | 68 => (List.range 12).any (fun i => s.laneDegraded i)
  | 69 => (List.range 12).any (fun i => s.subchSt i == 5 && s.getF (Key.subchStatus i) 4 4 == 2)
  | 70 => (List.range 12).any (fun i => s.subchSt i == 5 && s.getF (Key.subchStatus i) 4 4 != 2)
  | 71 => (List.range 12).any (fun i => bit (s.get (Key.subchStatus i)) 12)
  | 72 => !s.ethUp
  | 73 => s.clockSt == 3
  | 75 => !s.pcieUp
  | n => decide (96 ≤ n) && !(s.slice (n - 96)).pllLocked

/-- What a condition that ends leaves in its own unit: FREF is back (FS056), every node is inside its window (FS063), GUARD_UNLOCK_N is high (FS081). -/
def State.conditionEnds (s : State) (src : Nat) : State :=
  match src with
  | 56 => { s with frefPresent := true }
  | 63 => (List.range 64).foldl (fun t d => t.putF (Key.dacStatus d) 3 1 0) s
  | 81 => s.putF Key.guardStatus 0 1 0
  | _ => s

/-- LIVE_BIT_CLEAR (R374, R379): the condition behind a source ends, whether or not it had been raised. -/
def execLiveBitClear (source : Nat) (s : State) : Out :=
  within source 128
    (if s.persists source then s
     else
      let s := s.conditionEnds source
      if s.liveBit source then s.clearLive source else s)

/-! ## Reading and clearing (R374, R377-R379) -/

/-- FAULT_CAUSE_CLEAR. -/
def execFaultCauseClear (p : Path) (el : Nat) (value : Word) (s : State) : Out :=
  if el = 1 ∨ el = 2 then .next (s.accessPlain p 0 (Key.faultCause (el - 1)) value) else .fault .noSuchUnit

/-- FAULT_CAUSE_READ. -/
def execFaultCauseRead (p : Path) (el : Nat) (s : State) : Out :=
  if el = 1 ∨ el = 2 then .next (s.readAt p false 0 (Key.faultCause (el - 1))) else .fault .noSuchUnit

/-- The key of an element of FIRST_FAULT or of a history object. -/
def recordKey (hist : Option Nat) (el : Nat) : Nat := match hist with | none => Key.firstFault (el - 1) | some q => Key.histEntry q (el - 1)

/-- FIRST_FAULT_READ. -/
def execFirstFaultRead (p : Path) (hist : Option Nat) (el : Nat) (s : State) : Out :=
  if (el == 1 || el == 2) && (match hist with | some q => decide (q < 32) | none => true) then .next (s.readAt p false 0 (recordKey hist el)) else .fault .noSuchUnit

/-- FF_CLEAR (R378): the record is empty, and no raise of before is the first-fault record. -/
def State.cmdFfClear (s : State) (arg : Word) : Code × State :=
  let c := refuse [(s.cmdMode, .wrongMode), (s.cmdBusy Key.ffClear, .busy), (arg != 0, .range)]
  if c ≠ .ok then (c, s)
  else
    let s := { s with watch := s.watch.map (fun (w : Watch) => { w with first := false }) }
    (.ok, ((s.put (Key.firstFault 0) 0).put (Key.firstFault 1) 0).cmdDone Key.ffClear 0)

def execFfClear (p : Path) (arg : Word) (s : State) : Out := .next (s.access p 0 Key.ffClear (fun t => t.cmdFfClear arg))

/-! ## Injection (R383) -/

/-- Source, DOUBLE and DRY of an argument. -/
def injSource (arg : Word) : Nat := field arg 0 7
def injDouble (arg : Word) : Bool := bit arg 8
def injDry (arg : Word) : Bool := bit arg 9

/-- FAULT_INJECT's gates. -/
def State.injectCode (s : State) (arg : Word) : Code :=
  refuse [
    (!([Mode.idle, Mode.diagnose, Mode.service].contains s.mode), .wrongMode),
    (decide (defaultSeverity (injSource arg) = Sev.machineCheck) && !injDry arg && s.mode != Mode.service, .wrongMode),
    (s.cmdBusy Key.faultInject, .busy), ((arg &&& ~~~ 0x37F#64) != 0, .range), (!hasChecker (injSource arg), .range)]

/-- The checkers whose items pass all the time: the collector, the scheduler, the crossings, the management memory, Badger. -/
def alwaysChecks (src : Nat) : Bool := [15, 18, 19, 21, 77].contains src

/-- FAULT_INJECT: the inversion waits for the checker's next item. -/
def State.cmdFaultInject (s : State) (arg : Word) : Code × State :=
  let c := s.injectCode arg
  let src := injSource arg
  if c ≠ .ok then (c, s)
  else
    let s := { s with injection := some (src, injDouble arg, injDry arg) }.cmdRun Key.faultInject 0
    (.ok, if alwaysChecks src then (s.examine src .none).1 else s)

def execFaultInject (p : Path) (arg : Word) (s : State) : Out := .next (s.access p 0 Key.faultInject (fun t => t.cmdFaultInject arg))

/-- FAULT_INJECT_TIMEOUT. -/
def execFaultInjectTimeout (s : State) : Out :=
  .next (if s.injection.isSome then { s with injection := none }.cmdFail Key.faultInject .hwFail 0 else s)

/-! ## The way out of SAFE (R381, R382) -/

/-- QUIET_PERIOD: the quiet timer, while it runs, has reached QUIET_MS. -/
def State.quietEnds (s : State) : State :=
  if s.recentRecoveries < (s.get Key.recoveryLimit).toNat then
    ({ s with recoveries := s.recoveries ++ [s.raw] }.count Key.recoveryCount 32).enterMode Mode.idle
  else (s.latch 1).fault 33 .none 0

def execQuietPeriod (s : State) : Out := .next (if s.quietRunning && !s.modeChanging then s.quietEnds else s)

/-- SAFE_UNLATCH. -/
def State.cmdSafeUnlatch (s : State) (arg : Word) : Code × State :=
  let c := refuse [(s.cmdMode, .wrongMode), (s.cmdBusy Key.safeUnlatch, .busy), (arg != 0, .range), (s.getF Key.safeStatus 1 2 == 3, .safeLatched)]
  if c ≠ .ok then (c, s) else (.ok, ({ s with recoveries := [] }.putF Key.safeStatus 0 3 0).cmdDone Key.safeUnlatch 0)

def execSafeUnlatch (p : Path) (arg : Word) (s : State) : Out := .next (s.access p 0 Key.safeUnlatch (fun t => t.cmdSafeUnlatch arg))

/-! ## The guard envelope (R384, R390) -/

/-- The keys of the envelope. -/
def guardKeys : List Nat :=
  (List.range 16).map Key.drivePermit ++ [Key.pretrainLimit, Key.wdogPeriod] ++
    (List.range 64).flatMap (fun d => [Key.minCode d, Key.maxCode d, Key.compLow d, Key.compHigh d])

/-- A value of the staged envelope: staged, else in force. -/
def State.staged (s : State) (key : Nat) : Word := mget (s.get key) s.guardStaged key

/-- A DAC whose staged limits contradict each other; one whose park or fault code lies outside them. -/
def State.stagedRange (s : State) (d : Nat) : Bool :=
  decide ((s.staged (Key.maxCode d)).toNat < (s.staged (Key.minCode d)).toNat) ||
    (decide (48 ≤ d) && decide ((s.staged (Key.compHigh d)).toNat ≤ (s.staged (Key.compLow d)).toNat))
def State.stagedEnvelope (s : State) (d : Nat) : Bool :=
  let out (c : Nat) : Bool := decide (c < (s.staged (Key.minCode d)).toNat) || decide ((s.staged (Key.maxCode d)).toNat < c)
  out (s.get (Key.dacPark d)).toNat || out (s.get (Key.dacFaultCode d)).toNat

/-- The code and DETAIL a commit fails with, if it does. -/
def State.stagedFault (s : State) : Option (Code × Nat) :=
  match (List.range 64).find? (fun d => s.stagedRange d) with
  | some d => some (.range, d)
  | none => ((List.range 64).find? (fun d => s.stagedEnvelope d)).map (fun d => (.envelope, d))

/-- The write of a guard record begins: its copy is erased, and is INCOMPLETE until it has been verified (R395, R396). -/
def State.beginGuard (s : State) : State :=
  let i := s.guardTarget
  let image := guardKeys.foldl (fun m k => mset (shipped k) m k (s.staged k)) ([] : List (Nat × Word))
  let n := ({ s.nvm with guardImage := some image }).erase i
  s.putNvm (n.putGuard i ⟨.incomplete, s.guardSeq, []⟩)

/-- GUARD_COMMIT. -/
def State.cmdGuardCommit (s : State) (arg : Word) : Code × State :=
  let c := refuse [
    (s.mode != Mode.service || s.quiesceAsked, .wrongMode), (!s.unlocked, .guardLocked), (s.cmdBusy Key.guardCommit, .busy), (arg != 0, .range),
    (s.lichenBusy, .nvmBusy)]
  if c ≠ .ok then (c, s)
  else
    let s := { s with ledger := { s.ledger with guardCommits := (s.ledger.guardCommits + 1) % 2 ^ 32 } }
    match s.stagedFault with
    | some (f, d) => (.ok, s.cmdFail Key.guardCommit f d)
    | none =>
      match s.drawToken 1 with
      | none => (.ok, s.noToken 1 Key.guardCommit)
      | some s => (.ok, s.beginGuard.cmdRun Key.guardCommit 0)

def execGuardCommit (p : Path) (arg : Word) (s : State) : Out := .next (s.access p 0 Key.guardCommit (fun t => t.cmdGuardCommit arg))

/-- The envelope of the record is in force (R384). -/
def State.envelopeIn (s : State) (image : List (Nat × Word)) : State :=
  let i := s.guardTarget
  let s := s.putNvm ({ s.nvm with guardImage := none }.putGuard i ⟨.valid, s.guardSeq, image⟩)
  let s := (s.putF Key.guardStatus 2 1 1).putF Key.nvmStatus 5 1 i
  let s := guardKeys.foldl (fun t k => t.put k (mget (shipped k) image k)) s
  s.putF Key.guardStatus 1 1 (b2n (s.guardStaged.any (fun x => s.get x.1 != x.2)))

/-- GUARD_COMMIT_DONE: `ok` is the read-back verify (R395). -/
def execGuardCommitDone (ok : Bool) (s : State) : Out :=
  .next (match s.nvm.guardImage with
    | none => s
    | some image =>
      if !s.cmdBusy Key.guardCommit then s
      else if ok then (((s.envelopeIn image).fault 95 .none 0).cmdDone Key.guardCommit 0).lichenEnds
      else ((s.putNvm { s.nvm with guardImage := none }).cmdFail Key.guardCommit .nvmFail 0).nvmFailed.lichenEnds)

/-- GUARD_UNLOCKED: GUARD_UNLOCK_N goes low (R373). -/
def execGuardUnlocked (s : State) : Out :=
  .next (if s.unlocked then s
    else
      let s := s.putF Key.guardStatus 0 1 1
      if s.mode < Mode.train ∨ s.mode = Mode.service then s else s.fault 81 .none 0)

/-! ## The watchdog (R388) -/

/-- WATCHDOG_KICK. -/
def execWatchdogKick (s : State) : Out :=
  .next (if s.mode < Mode.train then s
    else
      let s := { s with wdogKick := s.raw }.putF Key.wdogStatus 1 1 0
      if s.liveBit 11 then s.clearLive 11 else s)

/-- WATCHDOG_EXPIRY. -/
def execWatchdogExpiry (s : State) : Out :=
  .next (if bit (s.get Key.wdogStatus) 0 && !bit (s.get Key.wdogStatus) 1 then
      let s := ((s.putF Key.wdogStatus 1 1 1).allLanes .mid).faultDacs
      s.fault 11 .none 0
    else s)

/-! ## Die temperature (R254, R373, R433) -/

/-- A temperature source whose live bit follows its condition: raised as the junction passes its limit, clear once it no longer lies above it. -/
def State.tempRaises (s : State) (t : Int) : List Raise :=
  let limits := [(8, (s.get Key.tempWarn).toNat), (9, 105), (10, 115)]
  (limits.filter (fun x => decide ((x.2 * 128 : Nat) < t) && !s.liveBit x.1)).map (fun x =>
    { source := x.1, loc := .none, detail := (t % 4294967296).toNat, injected := false })
def State.tempEnds (s : State) (t : Int) : State :=
  [(8, (s.get Key.tempWarn).toNat), (9, 105), (10, 115)].foldl (fun u (x : Nat × Nat) => if t ≤ (x.2 * 128 : Nat) ∧ u.liveBit x.1 then u.clearLive x.1 else u) s

/-- DIE_TEMP_SAMPLE. -/
def execDieTempSample (t : Int) (s : State) : Out :=
  .next (if s.mode < Mode.train then s
    else
      let s : State := { s with dieTemp := t }
      let s := if s.unitsRun then s.offer 0x21 t s.nowTick false else s
      (s.tempEnds t).collect (s.tempRaises t))

end Sys2Proof.Machine
end

