-- ==== Sys2Proof/Machine/Lichen.lean ====
section
/-! DEFINITION. Lichen's commands (R41, R42, R395-R407, R415): persisting and reverting the dictionary, notes, the ledger, the boot selector. -/

namespace Sys2Proof.Machine

/-! ## The dictionary bank (R41, R42, R397-R399) -/

/-- An object that a bank holds: default source N, not an envelope object, which the guard record holds (R384). -/
def isBankKey (key : Nat) : Bool := !isGuardKey key && (match rowOf key with | some r => decide (r.src = .N) | none => false)

/-- The entries of a bank image: the N objects whose working value differs from the shipped one (R397). -/
def State.bankImage (s : State) : List (Nat × Word) := s.objs.filter (fun kv => isBankKey kv.1)

/-- The state that a bank's entries are checked in: every entry overlaid, the capacity not yet known (R281). -/
def State.loadView (s : State) (entries : List (Nat × Word)) : State :=
  entries.foldl (fun t e => { t with objs := mset (shipped e.1) t.objs e.1 e.2 }) { s with objs := mset 0 s.objs Key.dramCapacity 0xFFFFFFFFFFFFFFFF }

/-- An entry passes the checks of its object (R399): implemented, R34, R35, the envelope of R271. -/
def State.entryOk (s v : State) (key : Nat) (w : Word) : Bool :=
  match rowOf key with
  | none => false
  | some r =>
    let o := keyObj key
    let e := keyEl key
    isBankKey key && !typeBad r.ty w && (w &&& ~~~ (toWord r.mask)) == 0 && !plainBad r.vr w && !(decide (r.vr = .special) && specialBad v v key w) &&
      !(keyArea key == 0x22 && decide (0x1000 ≤ o) && (e == 1 || e == 4 || e == 5) && !s.inEnvelope (o - 0x1000) w.toNat)

/-- The entries of the valid bank that are loaded (R399). -/
def State.bankEntries (s : State) : List (Nat × Word) :=
  match s.bankInUse with
  | none => []
  | some (_, c) => let v := s.loadView c.entries; c.entries.filter (fun e => s.entryOk v e.1 e.2)

/-- The write of a bank begins: it is erased, and INCOMPLETE until it has been verified. -/
def State.beginPersist (s : State) : State :=
  let i := s.persistBank
  let n := ({ s.nvm with persistImage := some s.bankImage }).erase (6 + i)
  (s.putNvm (n.putBank i ⟨.incomplete, (s.get Key.dictBankSeq).toNat + 1, []⟩)).cmdRun Key.dictPersist i

/-- DICT_PERSIST. -/
def State.cmdDictPersist (s : State) (arg : Word) : Code × State :=
  let c := refuse [
    (!(s.mode == Mode.idle || s.mode == Mode.service) || s.quiesceAsked, .wrongMode), (s.cmdBusy Key.dictPersist, .busy), (arg != 0, .range), (s.lichenBusy, .nvmBusy)]
  let n := s.bankImage.length
  if c ≠ .ok then (c, s)
  else if 98296 < n then (.ok, s.cmdFail Key.dictPersist .range (ceilDiv n 1024))
  else
    match s.drawToken 0 with
    | none => (.ok, s.noToken 0 Key.dictPersist)
    | some s => (.ok, s.beginPersist)

def execDictPersist (p : Path) (arg : Word) (s : State) : Out := .next (s.access p 0 Key.dictPersist (fun t => t.cmdDictPersist arg))

/-- The bank is the valid one (R41, R398). -/
def State.bankValid (s : State) (image : List (Nat × Word)) : State :=
  let i := s.persistBank
  let q := (s.get Key.dictBankSeq).toNat + 1
  let s := s.putNvm ({ s.nvm with persistImage := none }.putBank i ⟨.valid, q, image⟩)
  let s := { s with ledger := { s.ledger with persists := (s.ledger.persists + 1) % 2 ^ 32 } }
  ((s.put Key.dictBank (toWord i)).put Key.dictBankSeq (toWord q)).cmdDone Key.dictPersist i

/-- DICT_PERSIST_DONE. -/
def execDictPersistDone (ok : Bool) (s : State) : Out :=
  .next (match s.nvm.persistImage with
    | none => s
    | some image =>
      if !s.cmdBusy Key.dictPersist then s
      else if ok then (s.bankValid image).lichenEnds
      else ((s.putNvm { s.nvm with persistImage := none }).cmdFail Key.dictPersist .nvmFail s.persistBank).nvmFailed.lichenEnds)

/-- Every N object takes the valid bank's value again; a value that changes acts as a write of it. -/
def State.revert (s : State) : State :=
  let entries := s.bankEntries
  let keys := (s.bankImage.map Prod.fst ++ entries.map Prod.fst).eraseDups
  keys.foldl (fun t k => let w := mget (shipped k) entries k; if t.get k = w then t else t.applyWrite k w) s

/-- DICT_REVERT. -/
def State.cmdDictRevert (s : State) (arg : Word) : Code × State :=
  let c := refuse [
    (!(s.mode == Mode.idle || s.mode == Mode.service) || s.quiesceAsked, .wrongMode), (s.cmdBusy Key.dictPersist || s.cmdBusy Key.dictRevert, .busy), (arg != 0, .range)]
  if c ≠ .ok then (c, s) else (.ok, s.revert.cmdDone Key.dictRevert 0)

def execDictRevert (p : Path) (arg : Word) (s : State) : Out := .next (s.access p 0 Key.dictRevert (fun t => t.cmdDictRevert arg))

/-! ## The black box (R402, R406) -/

/-- BB_NOTE: a HOST record, for which a token is drawn. -/
def State.cmdBbNote (s : State) (value : Word) : Code × State :=
  let c := refuse [(s.cmdMode || s.quiesceAsked, .wrongMode), (s.cmdBusy Key.bbNote, .busy)]
  if c ≠ .ok then (c, s)
  else
    match s.drawToken 3 with
    | none => (.ok, s.noToken 3 Key.bbNote)
    | some s => (.ok, (s.bbWrite 6 [value]).cmdDone Key.bbNote 0)

def execBbNote (p : Path) (value : Word) (s : State) : Out := .next (s.access p 0 Key.bbNote (fun t => t.cmdBbNote value))

/-! ## The ledger (R404, R405, R433) -/

/-- The temperature bin of a reading in 1/128 °C. -/
def tempBinOf (t : Int) : Nat := if t < 0 then 0 else min 15 (t.toNat / 1024)

/-- The hottest and the coolest of the sensors. -/
def hottest (ts : List Int) : Int := ts.foldl max (ts.headD 0)
def coolest (ts : List Int) : Int := ts.foldl min (ts.headD 0)

/-- One second of the ledger (R404), and of the buckets (R406). -/
def State.ledgerTick (s : State) (t : Int) : State :=
  let s := { s with dieTemp := t }
  let s := { s.countBy Key.powerOnSeconds 64 1 with ledger := { s.ledger with tjMax := max s.ledger.tjMax t } }
  (s.countBy (Key.tempBin (tempBinOf t)) 32 1).refillBuckets

/-- FS093 while two sensors disagree by more than 5 °C. -/
def State.sensorsChecked (s : State) (ts : List Int) : State :=
  let apart := decide (640 < hottest ts - coolest ts)
  if s.mode < Mode.train then s
  else if apart && !s.liveBit 93 then s.fault 93 .none 0
  else if !apart && s.liveBit 93 then s.clearLive 93
  else s

/-- LEDGER_SECOND. -/
def execLedgerSecond (temps : List Int) (s : State) : Out :=
  .next (if s.mode = Mode.reset ∨ temps = [] then s else (s.ledgerTick (hottest temps)).sensorsChecked temps)

/-- LEDGER_SNAPSHOT: behind another Lichen write it waits for its end (R400). -/
def execLedgerSnapshot (s : State) : Out :=
  .next (if s.mode < Mode.train ∨ s.nvm.closed ∨ s.powerFailing then s
    else if s.lichenBusy then s.putNvm { s.nvm with snapshotDue := true }
    else s.snapshot)

/-! ## The boot selector (R415) -/

/-- FW_ACTIVATE: the checks of the inactive slot's image begin. -/
def State.cmdFwActivate (s : State) (arg : Word) : Code × State :=
  let c := refuse [(s.mode != Mode.service || s.quiesceAsked, .wrongMode), (s.cmdBusy Key.fwActivate, .busy), (arg != 0, .range), (s.lichenBusy, .nvmBusy)]
  if c ≠ .ok then (c, s) else (.ok, s.cmdRun Key.fwActivate 0)

def execFwActivate (p : Path) (arg : Word) (s : State) : Out := .next (s.access p 0 Key.fwActivate (fun t => t.cmdFwActivate arg))

/-- The paired write of the boot selector: `ok` is its verify. -/
def State.writeSelector (s : State) (ok : Bool) : State :=
  let r := s.nvm.selInUse
  let i := match r with | some (i, _) => otherCopy i | none => 0
  let q := match r with | some (_, c) => c.seq + 1 | none => 1
  let n := s.nvm.erase (2 + i)
  if ok then { s.putNvm (n.putSel i ⟨.valid, q, 1 - s.nvm.bootSlot⟩) with fwSlotImage := [] }.cmdDone Key.fwActivate 0
  else ((s.putNvm (n.putSel i ⟨.incomplete, q, 0⟩)).cmdFail Key.fwActivate .nvmFail 0).nvmFailed

/-- FW_ACTIVATE_DONE: the outcome of the checks of R414 and of the write. -/
def State.activateEnds (s : State) (outcome : Nat) : State :=
  if outcome = 1 ∨ outcome = 2 then s.cmdFail Key.fwActivate .range outcome
  else
    match s.drawToken 2 with
    | none => s.noToken 2 Key.fwActivate
    | some s => s.writeSelector (outcome == 0)

def execFwActivateDone (outcome : Nat) (s : State) : Out := .next (if s.cmdBusy Key.fwActivate then (s.activateEnds outcome).lichenEnds else s)

end Sys2Proof.Machine
end

