-- ==== Sys2Proof/Machine/PinOps.lean ====
section
/-! DEFINITION. What the device shows beside its dictionary: its identifiers (R11, R326, R428), the boundary-scan TAP (R408, R428), the objects that SMBus reads
(R37, R59, R433), the outputs that carry no event (R417), the rails (R422), the lane band of the ball map (R430). -/

namespace Sys2Proof.Machine

/-! ## Identifiers (R11, R428) -/

/-- Stepping A is 1, and the metal revision of A1 is 1. -/
def stepping : Nat := 1
def metalRevision : Nat := 1

/-- The PCI Express identifiers (R326). -/
def vendorId : Nat := 0x1F3A
def deviceId : Nat := 0x1024
def classCode : Nat := 0x120000

/-- The PCI Express Revision ID. -/
def revisionId : Nat := packFields [(0, 4, metalRevision), (4, 4, stepping)]

/-- The IEEE 1149.1 IDCODE: version, part number, manufacturer identity, 1. -/
def idcode : Nat := packFields [(0, 1, 1), (1, 11, 0x1F3), (12, 16, 0x1024), (28, 4, stepping)]

/-! ## The TAP (R428) -/

/-- TRST_N or Test-Logic-Reset (R408): EXTEST ends, and the IDCODE register is selected, as IEEE 1149.1 lays down. -/
def State.tapReset (s : State) : State := { s with tap := Tap.rest }

/-- What a T-lane ball carries: its lane, or under EXTEST what its boundary cell drives through the guard comparator, which holds a drive-forbidden channel at mid-level. -/
def State.ball (s : State) (g : Nat) : LaneLevel :=
  if !s.tap.extest then s.lane g else if s.permits g then mget .mid s.tap.cells g else .mid

/-- What the TAP shifts out of the data register that it has selected, 0 where that is not IDCODE. -/
def State.tapData (s : State) : Nat := if s.tap.idcode then idcode else 0

/-! ## SMBus (R59, R433) -/

/-- What SMBus answers in every mode (R37): the mode, the hottest die sensor in 1/128 °C, the objects of the identity area. It is no dictionary path. -/
def State.smbusMode (s : State) : Nat := s.mode
def State.smbusTemp (s : State) : Int := s.dieTemp
def State.smbusIdentity (s : State) (k : Nat) : Option Word := if k < 0x1000000 then some (s.get k) else none

/-! ## What the other outputs carry (R417) -/

/-- The output groups beside lanes, LVL and TRIGOUT. -/
inductive OutGroup where
  | ringTx | fsyncOut | spi | ddrReset | ddrOther | pcieTx | ethTx
deriving DecidableEq, Repr

/-- What a group carries: `rest` is electrical idle, `run` its traffic, `low` and `high` levels. -/
inductive OutState where
  | highZ | rest | low | high | run
deriving DecidableEq, Repr

/-- The state of an output group by the mode (R417); FSYNCOUT is low between pulses, SPI idle but driven. -/
def State.outGroup (s : State) (g : OutGroup) : OutState :=
  let flushed := bit (s.get Key.quiesceStatus) 0
  let boot := s.mode == Mode.boot
  if s.mode = Mode.reset then .highZ
  else match g with
    | .ringTx => if boot || s.mode == Mode.quiesce then .rest else .run
    | .fsyncOut => if boot then .highZ else .low
    | .spi => .run
    | .ddrReset => if boot || flushed then .low else .high
    | .ddrOther => if boot || flushed then .highZ else .run
    | .pcieTx => .run
    | .ethTx => if boot then .rest else .run

/-! ## Rails (R408, R422) -/

/-- The operating limits of the rails of FS000-FS006, in µV. -/
def railLimits : List (Nat × Nat) :=
  [(727500, 772500), (873000, 927000), (1140000, 1260000), (1067000, 1133000), (1710000, 1890000), (1746000, 1854000), (1710000, 1890000)]

/-- The raise that a rail's measured voltage brings once it has lasted 1 µs (R373, R377): its source, with the voltage in mV as DETAIL. -/
def railRaise (rail uv : Nat) : Option Raise :=
  match railLimits[rail]? with
  | some (lo, hi) => if uv < lo ∨ hi < uv then some { source := rail, loc := .none, detail := uv / 1000, injected := false } else none
  | none => none

/-! ## The lane band of the ball map (R430) -/

/-- Row and column of a ball of slice `sl` at local place (u, v). -/
def bandBall (sl u v : Nat) : Nat × Nat :=
  let j := sl % 8
  match sl / 8 with
  | 0 => (v + 1, 10 * j + u + 1)
  | 1 => (10 * j + u + 1, 102 - v)
  | 2 => (102 - v, 102 - 10 * j - u)
  | _ => (102 - 10 * j - u, v + 1)

/-- Row and column of a leg of a channel's T-lane or S-lane. -/
def laneBall (g : Nat) (sLane neg : Bool) : Nat × Nat :=
  let p := g % 32 + (if sLane then 32 else 0)
  bandBall (g / 32) ((if neg then 2 else 1) + 3 * (p % 3)) (p / 3)

/-- Row and column of the LBK ball of a slice. -/
def lbkBall (sl : Nat) : Nat × Nat := bandBall sl 4 21

end Sys2Proof.Machine
end

