-- ==== Sys2Proof/Machine/Boot.lean ====
section
/-! DEFINITION. Reset, boot and power (R408-R419, R402, R403, R405, R225, R292, R293): the commands that take the device through RESET, BOOT and TRAIN and into QUIESCE. -/

namespace Sys2Proof.Machine

/-! ## Reset (R408, R409, R411) -/

/-- A device reset: every island returns to its reset state. The retention registers, the reset sources and what is not volatile stay; so do the pins, and what the block
has emitted. -/
def State.enterReset (s : State) : State :=
  let s := s.cutWrites
  { State.reset with
    pending := s.pending, out := s.out, freeCount := s.freeCount, frefPresent := s.frefPresent, triginHigh := s.triginHigh, fwSlotImage := s.fwSlotImage, retainMode := s.mode
    retainBurst := (s.get Key.burstNumber).toNat, retained := true, resetSeen := []
    nvm := { s.nvm with persistImage := none, guardImage := none, snapshotDue := false } }.floatTrigouts.putF Key.guardStatus 0 1 (b2n s.unlocked)

/-- A reset source is asserted: 0 power-on, 1 RESET_N, 2 DEVICE_RESET. In RESET it is only recorded. -/
def State.resetBy (s : State) (src : Nat) : State :=
  let s := if s.mode = Mode.reset then s else s.enterReset
  { s with resetPending := false, resetSeen := if s.resetSeen.contains src then s.resetSeen else s.resetSeen ++ [src] }

/-- VNV falls after PWRFAIL_N and before the POWER_FAIL record is programmed: a record then being programmed is torn, and its slot is skipped from then on (R401, R403);
whether one was, no command says. -/
def State.tearRecord (s : State) : State :=
  if s.powerFailing && !s.nvm.closed then
    let r := s.freeChoice
    if r.1 then r.2.putNvm { r.2.nvm with tornSlots := r.2.nvm.tornSlots ++ [(s.get Key.bbNextSeq).toNat] } else r.2
  else s

/-- POWER_ON_RESET: the rails that fell below their threshold; with VNV the retention registers are lost. -/
def execPowerOnReset (rails : BitVec 7) (s : State) : Out :=
  .next (if rails = 0 then s
    else
      let t := (if rails.getLsbD 6 then s.tearRecord else s).resetBy 0
      { t with resetRails := t.resetRails ||| rails.toNat, retained := t.retained && !rails.getLsbD 6 })

/-- RESET_N_LOW. -/
def execResetNLow (s : State) : Out := .next (s.resetBy 1)

/-- DEVICE_RESET: the reset acts 10 µs after the response. -/
def State.cmdDeviceReset (s : State) (arg : Word) : Code × State :=
  let c := refuse [(s.mode == Mode.boot, .wrongMode), (s.resetPending, .busy), (arg != 0xA5A5, .range)]
  if c ≠ .ok then (c, s) else (.ok, { s with resetPending := true }.cmdRun Key.deviceReset 0)

def execDeviceReset (p : Path) (arg : Word) (s : State) : Out := .next (s.access p 0 Key.deviceReset (fun t => t.cmdDeviceReset arg))

/-- DEVICE_RESET_TAKEN. -/
def execDeviceResetTaken (s : State) : Out := .next (if s.resetPending then s.resetBy 2 else s)

/-- TAP_RESET: the TAP only (R408). -/
def execTapReset (s : State) : Out := .next s.tapReset

/-- RESET_CAUSE (R411). -/
def State.causeWord (s : State) : Word :=
  let power := s.resetSeen.contains 0
  let rail := power && s.resetRails != 0 && !s.resetRails.testBit 6
  let cause := if rail then 1 else if power then 0 else if s.resetSeen.contains 1 then 2 else 3
  toWord (packFields
    [(0, 3, cause), (3, 1, b2n power), (4, 1, b2n (s.resetSeen.contains 1)), (5, 1, b2n (s.resetSeen.contains 2)), (6, 1, b2n s.retained), (8, 7, s.resetRails)])

/-- The newest POWER_FAIL record, where no BOOT record is newer (R402). -/
def lastPowerFail (l : List BBRecord) : Option BBRecord :=
  match l.reverse.find? (fun r => r.typ == 1 || r.typ == 3) with
  | some r => if r.typ = 3 then some r else none
  | none => none

/-- PRIOR_MODE and PRIOR_BURST (R402, R409). -/
def State.priors (s : State) : Nat × Nat :=
  if s.retained then (s.retainMode, s.retainBurst)
  else match lastPowerFail s.nvm.blackBox with
    | some r => (r.mode, r.burstNumber)
    | none => (0xFF, 0)

/-! ## BOOT from the release to LOAD (R412-R414, R225, R384, R394-R396, R405, R406) -/

/-- The number of a copy's class in NVM_STATUS. -/
def classNumber (c : CopyClass) : Nat := match c with | .empty => 0 | .valid => 1 | .incomplete => 2

/-- The guard record is read (R396): the envelope in force, or, without a VALID copy, one that forbids every channel and every DAC code (R373). -/
def State.readGuard (s : State) : State :=
  match inUse s.nvm.guard0 s.nvm.guard1 with
  | some (i, c) => c.entries.foldl (fun t e => t.put e.1 e.2) ((s.putF Key.guardStatus 2 1 1).putF Key.nvmStatus 5 1 i)
  | none =>
    let s := (List.range 16).foldl (fun t e => t.put (Key.drivePermit e) 0) s
    (List.range 64).foldl (fun t d => (t.put (Key.minCode d) 0xFFFFFFFF).put (Key.maxCode d) 0) s

/-- The image of POWER_ON_SECONDS largest among the snapshot and the flush records that the black box still holds (R405). -/
def Nvm.bestLedger (n : Nvm) : Option LedCopy :=
  let all := (match n.ledInUse with | some (_, c) => [c] | none => []) ++ n.flushRecords.filter (fun c => n.blackBox.any (fun r => r.seq == c.seq))
  all.foldl (fun best c => match best with | none => some c | some b => if b.seconds < c.seconds then some c else some b) none

/-- The ledger is loaded (R405). -/
def State.readLedger (s : State) : State :=
  match s.nvm.bestLedger with
  | none => s
  | some c =>
    let s := ({ s with ledger := c.rest }.put Key.powerOnSeconds (toWord c.seconds)).put Key.bankRecoveries (toWord c.recoveries)
    (c.bins.mapIdx (fun i w => (i, w))).foldl (fun t x => t.put (Key.tempBin x.1) x.2) s

/-- What NVM_STATUS and the black-box objects show of the array, and the buckets of R406 full. -/
def State.readArray (s : State) : State :=
  let n := s.nvm
  let s := ((s.putF Key.nvmStatus 0 2 (classNumber n.bankA.cls)).putF Key.nvmStatus 2 2 (classNumber n.bankB.cls)).putF Key.nvmStatus 4 1 (b2n (inUse n.bankA n.bankB).isNone)
  let next := match n.blackBox.getLast?, n.tornSlots.getLast? with
    | some r, some q => if (q + 2 ^ 32 - r.seq) % 2 ^ 32 < 1024 then q + 1 else r.seq + 1
    | some r, none => r.seq + 1
    | none, some q => q + 1
    | none, none => 0
  let s := (s.put Key.bbNextSeq (toWord (next % 2 ^ 32))).put Key.bbValid (toWord n.blackBox.length)
  ([64, 16, 8, 256].mapIdx (fun i t => (i, t))).foldl (fun t x => t.put (Key.nvmTokens x.1) (toWord x.2)) s

/-- The factory region is read (R394): a page bad in both its copies raises FS024 and sets FACTORY_BAD. -/
def State.readFactory (s : State) : State :=
  if (List.range 32).any (fun p => s.nvm.factoryBad.contains p && s.nvm.factoryBad.contains (p + 32)) then (s.putF Key.nvmStatus 6 1 1).fault 24 .none 0 else s

/-- The images tried (R413, R414): the selector's slot, and the other where it was rejected; 1 is an accepted image. -/
def State.tryImages (s : State) (slot0 slot1 : Nat) (fwVersion : BitVec 32) : State :=
  let first := s.nvm.bootSlot
  let res (i : Nat) : Nat := if i = 0 then slot0 else slot1
  let fallback := res first != 1
  let used := if fallback then 1 - first else first
  let ok := res used == 1
  let shown (i : Nat) : Nat := if i = first ∨ fallback then res i else 0
  let s := s.put Key.bootStatus (toWord (packFields
    [(0, 3, if ok then 4 else 7), (3, 1, if ok then used else 0), (4, 1, b2n (fallback && ok)), (8, 3, shown 0), (11, 3, shown 1)]))
  if !ok then s
  else
    let s := s.put Key.firmwareVersion (toWord fwVersion.toNat)
    if fallback then { s with ledger := { s.ledger with fwFallbacks := (s.ledger.fwFallbacks + 1) % 2 ^ 32 } }.fault 22 .none 0 else s

/-- RESET ends (R225, R409, R411): the counters start, the local epoch's first edge falls at a raw count that the spec leaves open up to 40,008, and the ROM reads Lichen
and the image. -/
def State.startBoot (s : State) (slot0 slot1 : Nat) (fwVersion : BitVec 32) : State :=
  let cause := s.causeWord
  let prior := s.priors
  let f := { s with pcieUp := true, resetSeen := [], resetRails := 0, nvm := { s.nvm with closed := false } }.free
  let s := ((f.2.put Key.deviceMode 1).put Key.rawAtEpoch0 (toWord (f.1.toNat % 40009)))
  let s := ((s.put Key.resetCause cause).put Key.priorMode (toWord prior.1)).put Key.priorBurst (toWord prior.2)
  (s.readGuard.readLedger.readArray.readFactory.bbPass).tryImages slot0 slot1 fwVersion

/-- RESET_RELEASE. -/
def execResetRelease (released pwrfailHigh : Bool) (slot0 slot1 : Nat) (fwVersion : BitVec 32) (s : State) : Out :=
  .next (if s.mode = Mode.reset ∧ released ∧ pwrfailHigh then s.startBoot slot0 slot1 fwVersion else s)

/-! ## The end of BOOT (R396, R399, R402, R412) -/

/-- A recovery of a bank (R396): FS023, its record, its count. -/
def State.recoverBank (s : State) : State :=
  match s.bankInUse with
  | none => s
  | some (i, _) =>
    let j := otherCopy i
    let c := s.nvm.bank j
    if c.cls = .incomplete then ((s.bbWrite 5 [toWord j, toWord c.seq]).count Key.bankRecoveries 32).fault 23 .none 0 else s

/-- The dictionary bank is loaded (R399). -/
def State.loadBank (s : State) : State :=
  match inUse s.nvm.bankA s.nvm.bankB with
  | none => s
  | some (i, c) =>
    let s := (s.put Key.dictBank (toWord i)).put Key.dictBankSeq (toWord c.seq)
    let good := s.bankEntries
    let s := s.put Key.dictSkipped (toWord ((c.entries.length - good.length) % 2 ^ 32))
    (good.foldl (fun t e => t.put e.1 e.2) s).recoverBank

/-- The objects that follow from loaded ones: port counts, group sizes, free record slots. -/
def State.refreshLoaded (s : State) : State :=
  let ports := (s.objs.filterMap (fun kv => if keyArea kv.1 = 0x20 ∧ 0x8000 ≤ keyObj kv.1 ∧ 4 ≤ keyEl kv.1 then some (keyObj kv.1 - 0x8000) else none)).eraseDups
  let s := ports.foldl (fun t o => t.refreshPort o) s
  let s := s.namedThreads.foldl (fun t th => t.refreshGroup th) s
  (List.range 8).foldl (fun t u => t.setAcq u (t.acqSt u)) s

/-- The payload of the BOOT record (R402), one word for each item in the order the table names them. -/
def State.bootPayload (s : State) : List Word :=
  let b := s.bankInUse
  [s.get Key.resetCause, s.get Key.priorMode, s.get Key.priorBurst, toWord (b2n (s.get Key.priorMode == 6)), toWord (s.getF Key.nvmStatus 0 4),
   s.get Key.dictBank, (match b with | some _ => s.get Key.dictBankSeq | none => 0), toWord (s.getF Key.nvmStatus 5 1), toWord (s.getF Key.bootStatus 3 1), s.get Key.firmwareVersion]

/-- Step 7 of BOOT: park codes, the watchdog, the BOOT record, BOOTS, TRAIN; then FS014 where no guard record is VALID, and FS081 where GUARD_UNLOCK_N is low. -/
def State.endBoot (s : State) (ms : Nat) : State :=
  let s := s.loadBank.refreshLoaded
  let s := ((s.putF Key.bootStatus 0 3 6).put Key.bootMs (toWord (ms % 2 ^ 32))).parkDacs
  let s := { s.putF Key.wdogStatus 0 1 1 with wdogKick := s.raw }
  let s := s.bbWrite 1 s.bootPayload
  let s := { s with ledger := { s.ledger with boots := (s.ledger.boots + 1) % 2 ^ 32 } }
  let s := (s.enterMode Mode.train).trainStarts
  let s := if bit (s.get Key.guardStatus) 2 then s else s.fault 14 .none 0
  if s.unlocked then s.fault 81 .none 0 else s

/-- BOOT_DONE: not where both images were rejected (R414). -/
def execBootDone (ms : Nat) (s : State) : Out := .next (if s.mode = Mode.boot ∧ s.getF Key.bootStatus 0 3 = 4 then s.endBoot ms else s)

/-! ## The end of TRAIN (R62, R279, R292, R293, R416) -/

/-- The lanes of a sub-channel as its sweeps left them (R292, R304): an eye narrower than 32 is none. -/
def State.trainLanes (s : State) (r : SubchTrain) : State :=
  ((r.lanes.take 5).mapIdx (fun j x => (j, x))).foldl (fun t y =>
    let x := y.2
    let ok := decide (32 ≤ x.2.2.1) && decide (32 ≤ x.2.2.2)
    t.put (Key.laneTrain r.subch y.1)
      (toWord (packFields [(0, 12, x.1), (12, 12, x.2.1), (24, 7, min 127 x.2.2.1), (32, 7, min 127 x.2.2.2), (40, 2, if ok then 1 else 3)]))) s

/-- What training found on a fitted sub-channel; one of which nothing came back did not respond: INIT (R292). -/
def trainOf (ddr : List SubchTrain) (i : Nat) : SubchTrain :=
  (ddr.find? (fun r => r.subch == i)).getD { subch := i, cause := 3, lanes := [], rfm := false }

/-- CAUSE of a sub-channel after training, 0 where it trained (R292): a lane without an eye in either direction fails steps 4 or 5. -/
def trainCause (r : SubchTrain) : Nat :=
  let eyes := (r.lanes.take 5).all (fun x => decide (32 ≤ x.2.2.1) && decide (32 ≤ x.2.2.2)) && decide (5 ≤ r.lanes.length)
  if r.cause = 3 then 3 else if r.cause = 0 ∧ eyes then 0 else 1

/-- A fitted sub-channel after training (R292, R293, R303). -/
def State.trainSubch (s : State) (r : SubchTrain) : State :=
  let c := trainCause r
  let ok := c == 0
  (s.trainLanes r).put (Key.subchStatus r.subch) (toWord (packFields [(0, 3, if ok then 2 else 5), (4, 4, c), (11, 1, b2n (ok && r.rfm))]))

/-- The FS070 raises of a training. -/
def trainRaises (rs : List SubchTrain) : List Raise :=
  (rs.filter (fun r => trainCause r != 0)).map (fun r => { source := 70, loc := .subch r.subch, detail := dramDetail r.subch 0xF, injected := false })

/-- DDR5 is trained and the map built (R279). A sub-channel condition that no longer holds ends. -/
def State.trainDram (s : State) (ddr : List SubchTrain) : State :=
  let rs := s.populated.map (fun i => trainOf ddr i)
  let s := (rs.foldl (fun t r => t.trainSubch r) s).buildMap
  let s := [68, 69, 70, 71].foldl (fun t src => if t.liveBit src && !t.persists src then t.clearLive src else t) s
  s.collect (trainRaises rs)

/-- TRAIN is complete: DDR5, the deskew of all 32 slices, IDLE. -/
def State.endTrain (s : State) (ms : Nat) (ddr : List SubchTrain) (deskew : List DeskewResult) : State :=
  let s := ((s.trainDram ddr).deskew (List.range 32) deskew).put Key.trainMs (toWord (ms % 2 ^ 32))
  let s := (List.range 32).foldl (fun t sl => t.refreshSlice sl) s
  if s.mode = Mode.train then s.enterMode Mode.idle else s

/-- TRAIN_DONE. -/
def execTrainDone (ms : Nat) (ddr : List SubchTrain) (deskew : List DeskewResult) (s : State) : Out :=
  .next (if s.mode = Mode.train ∧ !s.modeChanging then s.endTrain ms ddr deskew else s)

/-! ## Power fail and QUIESCE (R403, R418, R419) -/

/-- PWRFAIL. -/
def execPwrfail (s : State) : Out := .next (if s.mode = Mode.reset then s else (s.fault 7 .none 0).powerFalls)

/-- POWER_FAIL_RECORD: captured and programmed; Lichen then accepts no write, and FLUSHED is set. -/
def execPowerFailRecord (s : State) : Out :=
  .next (if s.powerFailing && !s.nvm.closed then
      let s := s.flushRecord 3
      (s.putNvm { s.nvm with closed := true }).releaseOutputs
    else s)

/-- QUIESCE_FLUSHED: the DMA channels stop, the QUIESCE record is written, the outputs are released. -/
def execQuiesceFlushed (s : State) : Out :=
  .next (if s.mode = Mode.quiesce && !s.powerFailing && !bit (s.get Key.quiesceStatus) 0 && !s.lichenBusy then
      let s := (List.range 8).foldl (fun t c => t.stopChannel c) s
      (s.flushRecord 4).releaseOutputs
    else s)

end Sys2Proof.Machine
end

