-- ==== Sys2Proof/Machine/Diagnose.lean ====
section
/-! DEFINITION. Slice DIAGNOSE (R65-R67) and diagnostic runs (R195-R199): the request for slices, the start with its refusals and checks, the stop, the result. -/

namespace Sys2Proof.Machine

/-! ## SLICE_DIAG_REQUEST (R65-R67) -/

/-- The request is applied as a whole: named slices take slice DIAGNOSE, a routine that owns one is abandoned; unnamed ones in it return to FOLLOW. -/
def State.applySliceDiag (s : State) (named : List Nat) : State :=
  let back := (List.range 32).filter (fun sl => s.sliceModeOf sl == 2 && !named.contains sl)
  let s := back.foldl (fun t sl => t.sliceFollow sl) (s.abortDiagOn back)
  let s := s.abandonOn named
  let fresh := named.filter (fun sl => s.sliceModeOf sl != 2)
  ((fresh.foldl (fun t sl => t.put (Key.sliceMode sl) 2) s).restSlices (back ++ fresh)).guardRaise

/-- SLICE_DIAG_REQUEST. -/
def State.cmdSliceDiag (s : State) (arg : Word) : Code × State :=
  let named := bitsOf 32 arg.toNat
  let c := refuse [
    (s.mode != Mode.idle && s.mode != Mode.armed && s.mode != Mode.burst, .wrongMode), (s.cmdBusy Key.sliceDiagRequest, .busy),
    (decide (2 ^ 32 ≤ arg.toNat), .range), (named.any (fun sl => s.sliceModeOf sl == 3), .disabled),
    (s.mode != Mode.idle && named.any (fun sl => s.sliceArmed sl), .locked)]
  if c ≠ .ok then (c, s) else (.ok, (s.applySliceDiag named).cmdDone Key.sliceDiagRequest 0)

def execSliceDiagRequest (p : Path) (arg : Word) (s : State) : Out := .next (s.access p 0 Key.sliceDiagRequest (fun t => t.cmdSliceDiag arg))

/-! ## The configured run (R195, R197, R199) -/

/-- KIND, the port and its thread. -/
def State.diagKind (s : State) : Nat := s.getF Key.diagCtrl 0 2
def State.diagPortOf (s : State) : Nat := (s.get Key.diagPort).toNat
def State.diagThread (s : State) : Nat := s.getF (Key.portCtrl s.diagPortOf) 0 12

/-- LBK is raised for the run. -/
def State.diagLbk (s : State) : Bool := s.diagKind == 0 || bit (s.get Key.diagCtrl) 2

/-- The target slices. -/
def State.diagSliceList (s : State) : List Nat := if s.diagKind = 0 then bitsOf 32 (s.get Key.diagSlices).toNat else s.portSliceList s.diagPortOf

/-- The channels of the run, in the order of its channel index. -/
def State.diagChannels (s : State) : List Nat :=
  if s.diagKind = 0 then s.diagSliceList.flatMap (fun sl => (List.range 32).map (fun c => 32 * sl + c)) else s.channels s.diagPortOf

/-- The loop's first row and number of rows. -/
def State.diagFirst (s : State) : Nat := s.getF Key.diagRows 0 48
def State.diagCount (s : State) : Nat := s.getF Key.diagRows 48 8 + 1

/-- Y_POINTS and all points of the run. -/
def State.diagY (s : State) : Nat := if s.diagKind = 2 then s.getF Key.diagShmoo 46 12 + 1 else 1
def State.diagPoints (s : State) : Nat := s.diagX * s.diagY

/-- Numbers per entry of the result: three for SCOPE, else one; bytes of an entry. -/
def State.diagEntry (s : State) : Nat := if s.diagKind = 3 then 8 else 4

/-- Bytes of the result. -/
def State.diagSize (s : State) : Nat := 64 + s.diagPoints * s.diagChannels.length * s.diagEntry

/-- The least and the greatest OFFSET_k. -/
def State.diagOffsets (s : State) : Int × Int :=
  let a := signedField (s.get Key.diagSweep) 0 32
  (a, a + ((s.diagX - 1) * s.getF Key.diagSweep 32 16 : Nat))

/-- CODE_j. -/
def State.diagCode (s : State) (j : Nat) : Int := (s.getF Key.diagShmoo 0 20 : Int) + (j : Int) * signedField (s.get Key.diagShmoo) 20 20

/-- DIAG_DAC. -/
def State.diagDac (s : State) : Nat := s.getF Key.diagShmoo 40 6

/-! ## The loop (R196) -/

/-- The rows of the loop. -/
def State.diagRowList (s : State) : List Nat := (List.range s.diagCount).map (fun i => s.diagFirst + i)

/-- The loop as a graph: every row one cycle, the last followed by the first. -/
def State.diagPlan (s : State) : Plan :=
  let th := s.diagThread
  let n := s.diagCount
  { th := th, pins := []
    g := s.diagRowList.mapIdx (fun i r =>
      { node := ⟨r, [], noLoops, none⟩, row := r, op := none, succ := [((i + 1) % n, false)], cyc := 1, per := s.rowPeriod th r, waits := false, br := false }) }

/-- D in tu. -/
def State.diagLoop (s : State) : Nat := if s.diagKind = 0 then 0 else (s.diagPlan.g.map GNode.per).sum

/-- The channels of the port as the checks take them. -/
def State.diagPortChannels (s : State) : List (Nat × Nat × Nat) := (s.channels s.diagPortOf).mapIdx (fun k ch => (s.diagPortOf, k, ch))

/-- Blocks of the loop that cannot be used (R143, R145). -/
def State.diagBlocks (s : State) : List Fail :=
  let th := s.diagThread
  ((s.diagRowList.map (fun r => r / 256)).eraseDups).filterMap (fun b => (s.blockFault th b).map (fun el => failAt 7 th noChannel (256 * b) (objDetail (0x1000 + th) el)))

/-- Microwords of the loop that are not encodings (R109). -/
def State.diagWords (s : State) : List Fail :=
  let th := s.diagThread
  s.diagRowList.filterMap (fun r => let w := s.rowWord th r; if (decodeWord w).isNone then some (failAt 7 th noChannel r (2 ^ 31 + field w 0 6)) else none)

/-- An invalid map of the port, or a WIDTH that differs from member 0's (R139-R141). -/
def State.diagMaps (s : State) : List Fail :=
  let o := s.diagPortOf
  let th := s.diagThread
  let maps := s.diagPortChannels.filterMap (fun x =>
    let m := s.mapOf o x.2.1
    if s.mapValid o m then none else some (failAt 7 th x.2.2 noRow (objDetail (0x8000 + o) (2 + m))))
  maps ++ (if s.width o = s.width (s.member0 th) then [] else [failAt 7 th noChannel noRow (objDetail (0x8000 + o) 1)])

/-- Checks 3, 7 and 8 over the loop. -/
def State.diagFails (s : State) : List Fail :=
  let p := s.diagPlan
  let chs := s.diagPortChannels
  chs.flatMap (fun x => s.channelFails p x.1 x.2.1 x.2.2) ++ (s.diagBlocks ++ s.diagWords ++ s.symbolFails p chs ++ s.diagMaps) ++ (s.guardFails p chs ++ s.codeFails)

/-! ## Refusals of a start (R195) -/

/-- The lowest target slice that is not in slice DIAGNOSE, and the lowest channel that is not PASSED. -/
def State.diagOutside (s : State) : Option Nat := s.diagSliceList.find? (fun sl => s.sliceModeOf sl != 2)
def State.diagUnpassed (s : State) : Option Nat := s.diagChannels.find? (fun g => s.laneState g != 1)

/-- RANGE with DETAIL 0. -/
def State.diagShape (s : State) : Bool :=
  (s.diagKind == 0 && s.get Key.diagSlices == 0) ||
  (s.diagKind != 0 && (!bit (s.get (Key.portCtrl s.diagPortOf)) 12 || decide (s.patRowsOf s.diagThread < s.diagFirst + s.diagCount))) ||
  decide (1048576 < s.diagSize)

/-- The strobe and window edges that rows of the loop place on a channel: offset and reach limit of their cycle. -/
def State.diagStrobes (s : State) : List (Nat × Nat) :=
  let p := s.diagPlan
  let o := s.diagPortOf
  s.diagPortChannels.flatMap (fun x => p.g.flatMap (fun y =>
    let next := (gnode p.g ((y.succ.headD (0, false)).1)).per
    ((s.symbolEvents x.2.2 (s.rowTs p.th y.row) (s.symbol p.th o y.row x.2.1)).filter (fun e => onS e.1)).map (fun e => (e.2, y.per + next))))

/-- RANGE with DETAIL 1: at an end of the sweep a moved edge lies before its cycle or beyond its reach. -/
def State.diagMoved (s : State) : Bool :=
  let ends := s.diagOffsets
  (s.diagKind == 1 || s.diagKind == 2) && s.diagStrobes.any (fun e => decide ((e.1 : Int) + ends.1 < 0) || decide ((e.2 : Int) ≤ (e.1 : Int) + ends.2))

/-- RANGE with DETAIL 2: a SCOPE offset outside the loop. -/
def State.diagScope (s : State) : Bool := s.diagKind == 3 && (decide (s.diagOffsets.1 < 0) || decide ((s.diagLoop : Int) ≤ s.diagOffsets.2))

/-- RANGE with DETAIL 3: the DAC serves a slice outside the target slices. -/
def State.diagStray (s : State) : Bool := s.diagKind == 2 && (bitsOf 32 (s.get (Key.dacSlices s.diagDac)).toNat).any (fun sl => !s.diagSliceList.contains sl)

/-- A code of a SHMOO outside the usable range or the envelope. -/
def State.diagCodes (s : State) : Bool :=
  s.diagKind == 2 && (List.range s.diagY).any (fun j => let c := s.diagCode j; decide (c < 0) || !usable s.diagDac c.toNat || !s.inEnvelope s.diagDac c.toNat)

/-- The code of a start (R195, R37). -/
def State.diagRefusal (s : State) : Code :=
  refuse [
    (!([Mode.idle, Mode.armed, Mode.burst, Mode.diagnose].contains s.mode), .wrongMode), (s.cmdBusy Key.diagStart, .busy), (s.diagOutside.isSome, .wrongMode),
    (s.diagShape || s.diagMoved || s.diagScope || s.diagStray, .range), (s.diagUnpassed.isSome, .disabled), (s.diagKind != 0 && !s.diagFails.isEmpty, .loadRefused),
    (s.diagCodes, .envelope)]

/-- DETAIL of a refused start. -/
def State.diagDetail (s : State) (c : Code) : Nat :=
  match c with
  | .wrongMode => if [Mode.idle, Mode.armed, Mode.burst, Mode.diagnose].contains s.mode then s.diagOutside.getD 0 else 0
  | .range => if s.diagShape then 0 else if s.diagMoved then 1 else if s.diagScope then 2 else if s.diagStray then 3 else 0
  | .disabled => s.diagUnpassed.getD 0
  | _ => 0

/-- The objects that a refused check fills (R196). -/
def State.diagRefused (s : State) : State :=
  match reported s.diagFails with
  | none => s
  | some f =>
    let s := s.put Key.loadStatus (toWord (loadWord (some f)))
    (s.put Key.loadRow (toWord f.row)).put Key.loadDetail (toWord (f.detail % 2 ^ 32))

/-! ## The loop as the slices replay it (R196-R198) -/

/-- The strobes of one cycle of the loop by channel; a masked one is not counted. -/
def State.loopStrobes (s : State) (row : Nat) : List LoopStrobe :=
  let o := s.diagPortOf
  let th := s.diagThread
  let ts := s.rowTs th row
  s.diagPortChannels.filterMap (fun x =>
    let fmt := s.cmpFmt x.2.2 ts
    match expectOf (s.symbol th o row x.2.1) with
    | some e =>
      if fmt = 0 ∨ fmt = 3 then none
      else some { chan := x.2.2, expect := e, win := fmt == 2, masked := bit (s.get (Key.judgeMask o (x.2.2 / 64))) (x.2.2 % 64) }
    | none => none)

/-- The strobes of the loop, cycle by cycle; SCOPE and LOOPBACK place none. -/
def State.loopCycles (s : State) : List (List LoopStrobe) :=
  if s.diagKind = 1 ∨ s.diagKind = 2 then s.diagRowList.map (fun r => s.loopStrobes r) else []

/-- A drive event of the loop: one that would drive a forbidden channel is suppressed and raises FS012 (R386). -/
def State.loopEvent (s : State) (g tu : Nat) (l : LaneLevel) : State × List Raise :=
  if !s.permits g && l != .mid then (s, [{ source := 12, loc := .channel g, detail := 0, injected := false }])
  else (s.emit (.lane g tu (gridIndex tu) (s.launchPlace g tu) l), [])

/-- One replay of the loop drives the port's channels, its times counted from the loop origin (R161, R166, R167). -/
def State.replayLoop (s : State) : List Nat → Nat → State × List Raise
  | [], _ => (s, [])
  | row :: r, tu =>
    let th := s.diagThread
    let ts := s.rowTs th row
    let ev := s.diagPortChannels.flatMap (fun x => (s.driveEvents x.2.2 ts (s.symbol th s.diagPortOf row x.2.1)).map (fun e => (x.2.2, e)))
    let one := ev.foldl (fun acc e => let n := acc.1.loopEvent e.1 (tu + e.2.1) e.2.2; (n.1, acc.2 ++ n.2)) (s, ([] : List Raise))
    let rest := one.1.replayLoop r (tu + s.rowPeriod th row)
    (rest.1, one.2 ++ rest.2)

/-- What the lanes of a run carry: the sequence of LOOPBACK on every T-lane of its slices; the loop on the port's channels, the others of its slices at mid-level. -/
def State.driveDiag (s : State) (r : DiagRun) : State × List Raise :=
  if r.kind = 0 then (s.stimulate r.slices, [])
  else
    let l := (s.driveSlices r.slices .mid).replayLoop s.diagRowList 0
    (r.channels.foldl (fun t g => { t with lanes := mset t.laneBase t.lanes g (if t.permits g then .stimulus else .mid) }) l.1, l.2)

/-! ## The run -/

/-- An accepted start: in IDLE the DACs of the target slices take their pending codes, LBK is raised, a SHMOO loads its first code, which a DAC at its fault code
ignores (R270). -/
def State.startDiag (s : State) : State :=
  let dacs := if s.mode = Mode.idle then s.dacsOnlyOf s.diagSliceList else []
  let r : DiagRun :=
    { kind := s.diagKind, slices := s.diagSliceList, channels := s.diagChannels, lbk := s.diagLbk, dacs := dacs, shmooDac := none, points := s.diagPoints,
      loopTu := s.diagLoop, startRaw := s.raw, cycles := s.loopCycles, code := 0 }
  let code := toWord (s.diagCode 0).toNat
  let d := s.diagDac
  let s := { s.put Key.diagResult 0 with diagBytes := [] }
  let l := s.loadDacs dacs false
  let s := l.1
  let s := if r.kind == 2 && s.dacSource d != 0 && s.dacSource d != 3 then { s with diag := some { r with shmooDac := some (d, s.get (Key.dacActive d)) } }.put (Key.dacActive d) code else { s with diag := some r }
  let d := (if r.lbk then s.setLbk r.slices .high else s).driveDiag r
  (d.1.cmdRun Key.diagStart 0).collect (l.2 ++ d.2)

/-- In a SHMOO each next code is loaded at its loop origin (R197), as time passes. -/
def State.diagStep (s : State) : State :=
  match s.diag with
  | some r =>
    let j := (s.diagProgress r).1
    (match r.shmooDac with
     | some x => if j = r.code then s else { s with diag := some { r with code := j } }.put (Key.dacActive x.1) (toWord (s.diagCode j).toNat)
     | none => s)
  | none => s

/-- What one period of the raw clock does where no command waits (R267, R300, R305): the counts advance, the DAC loads whose edge has come take effect, the patrol scrub goes on, a SHMOO comes to its next code; an FS013 of a level that a routine or a thread's end gave a lane and that nothing has raised yet is raised (R386, log entry 160). -/
def State.elapse (s : State) : State := s.tick.loadEdge.scrub.diagStep.guardRaise

/-- DIAG_START. -/
def State.cmdDiag (s : State) (arg : Word) : Code × State :=
  if arg = 1 then
    let c := s.diagRefusal
    if c = .ok then (c, s.startDiag) else if c = .loadRefused then (c, s.diagRefused) else (c, s)
  else
    let c := refuse [(s.cmdMode, .wrongMode), (arg != 0, .range)]
    if c ≠ .ok then (c, s)
    else if s.diag.isSome then (.ok, s.abortDiag) else (.ok, s.cmdDone Key.diagStart 0)

def execDiagStart (p : Path) (s : State) : Out := .next (s.accessDetail p 0 Key.diagStart (fun t => t.cmdDiag 1) s.diagDetail)

def execDiagStop (p : Path) (s : State) : Out := .next (s.access p 0 Key.diagStart (fun t => t.cmdDiag 0))

/-- The entries of a result (R199), `n` numbers wide for SCOPE. -/
def diagEntries (kind : Nat) (counts : List Nat) : List Byte :=
  match kind with
  | 3 => (List.range (counts.length / 3)).flatMap (fun i =>
      leBytes 8 (packFields ((List.range 3).map (fun j => (16 * j, 16, satTo 0xFFFF (counts.getD (3 * i + j) 0))))))
  | _ => counts.flatMap (fun c => leBytes 4 (satTo 0xFFFFFFFF c))

/-- What was seen of one row of one point, each counted loop once. -/
def seenAt (passes : Nat) (obs : List DiagObs) (point row : Nat) : List DiagObs :=
  (obs.filter (fun x => x.point == point && x.row == row && decide (x.pass < passes))).foldr (fun x acc => if acc.any (fun y => y.pass == x.pass) then acc else x :: acc) []

/-- A strobe of the loop fails on what its S-lane showed (R201, R202). -/
def LoopStrobe.fails (x : LoopStrobe) (o : ChanObs) : Bool := !(seenStates x.win x.expect o).all (fun t => x.expect.passes t)

/-- What an S-lane shows that no observation names. -/
def shows0 (g : Nat) : ChanObs := ⟨g, .mid, [], false⟩

/-- The counts of a channel at a point (R197): symbols that came back different; judged fails; samples of −1, 0 and +1. -/
def DiagRun.countsOf (r : DiagRun) (passes : Nat) (obs : List DiagObs) (point g : Nat) : List Nat :=
  match r.kind with
  | 0 => [(obs.filter (fun x => x.point == point && decide (x.pass < passes) && x.obs.any (fun o => o.channel == g))).length]
  | 3 =>
    let mine := (seenAt passes obs point 0).map (fun x => (obsOf x.obs g).atCA)
    [mine.count .low, mine.count .mid + (passes - mine.length), mine.count .high]
  | _ =>
    [(r.cycles.mapIdx (fun i c =>
      match c.find? (fun x => x.chan == g && !x.masked) with
      | none => 0
      | some x =>
        let mine := seenAt passes obs point i
        (mine.filter (fun y => x.fails (obsOf y.obs g))).length + (if x.fails (shows0 g) then passes - mine.length else 0))).sum]

/-- The counts of a run in the order of its result (R198, R199). -/
def DiagRun.counts (r : DiagRun) (passes : Nat) (obs : List DiagObs) : List Nat :=
  (List.range r.points).flatMap (fun p => r.channels.flatMap (fun g => r.countsOf passes obs p g))

/-- DIAG_RUN_DONE (R198, R199). -/
def execDiagRunDone (obs : List DiagObs) (s : State) : Out :=
  .next (match s.diag with
    | some r => (s.endDiag r (s.diagHeader r true r.points ++ diagEntries r.kind (r.counts (s.get Key.diagPasses).toNat obs))).cmdDone Key.diagStart 0
    | none => s)

end Sys2Proof.Machine
end

