-- ==== Sys2Proof/Machine/Blobs.lean ====
section
/-! DEFINITION. The contents of the BLOB objects, which only DMA carries (R34): context images (R90, R115, R217), the capture images (R206), timing-store images (R164),
diagnostic results (R199), acquisition records (R260), the black box (R401), the ledger (R404), the inactive firmware slot (R415). -/

namespace Sys2Proof.Machine

/-- A number as `n` bits of two's complement. -/
def wrapInt (n : Nat) (i : Int) : Nat := (i.emod (2 ^ n : Nat)).toNat

/-- The 512 bytes of a thread's context (R90, R115, R217). -/
def State.contextBytes (s : State) (th : Nat) : List Byte :=
  let t := s.thread th
  leBytes 512 (packFields
    ([(0, 48, t.pc), (48, 4, t.stack.length), (52, 3, (t.loops.filter (fun l => l.active)).length)] ++ t.stack.mapIdx (fun i a => (64 + 64 * i, 48, a)) ++
      t.loops.mapIdx (fun i l => (576 + 32 * i, 24, l.count)) ++
      [(704, 32, t.spanSeq), (768, 64, t.cycles)] ++ t.siteMask.map (fun i => (832 + i, 1, 1)) ++
      [(1344, 8, t.depFetch), (1352, 8, wrapInt 8 t.depSync), (1360, 1, b2n t.depTrig), (1361, 1, b2n t.depTime), (1384, 24, t.matchLeft),
       (1408, 1, b2n (t.failFlag false)), (1409, 1, b2n (t.failFlag true)), (1410, 1, b2n t.mto), (1411, 1, b2n t.wto), (1412, 1, b2n t.wlate), (1416, 8, t.uf.toNat),
       (1424, 8, t.segLabel), (1440, 32, t.segCount), (1472, 48, t.segStart)] ++
      (List.range 8).map (fun i => (1536 + 64 * i, 64, (s.get (Key.sigValue (8 * th + i))).toNat))))

/-- FAIL_COUNT_IMAGE (R206). -/
def State.failCountBytes (s : State) : List Byte := (List.range 1024).flatMap (fun g => leBytes 4 (s.get (Key.failCount g)).toNat)

/-- The 32 bytes of a site's results (R206). -/
def State.siteResultBytes (s : State) (site : Nat) : List Byte :=
  leBytes 4 (s.get (Key.siteStatus site)).toNat ++ leBytes 2 (s.get (Key.firstFailChannel site)).toNat ++ leBytes 2 0 ++ leBytes 8 (s.get (Key.firstFail site)).toNat ++
    leBytes 8 (s.get (Key.maskCycle site)).toNat ++ leBytes 4 (s.get (Key.logEntries site)).toNat ++ leBytes 4 0

/-- The channel, timing set and word of the `i`-th word of a slice's image: the entry of channel c in set t lies at byte 32 × (64 × c + t) (R164). -/
def imageWord (sl i : Nat) : Nat := Key.tseWord (32 * sl + i / 256) (i / 4 % 64) (i % 4)

/-- TS_STORE_IMAGE of a slice (R164). -/
def State.timingBytes (s : State) (sl : Nat) : List Byte := (List.range 8192).flatMap (fun i => leBytes 8 (s.get (imageWord sl i)).toNat)

/-- A black-box record as it lies in its slot (R401), CRC-32 last. -/
def bbBytes (r : BBRecord) : List Byte :=
  let head := leBytes 56 (packFields
    [(0, 32, 0x4242524B), (32, 32, r.seq), (64, 8, r.typ), (72, 8, r.mode), (96, 64, r.rawTime), (160, 64, r.shortTime), (224, 32, r.bootCount), (256, 32, r.burstNumber),
     (288, 32, r.audit.toNat), (320, 64, r.firstFault1.toNat), (384, 64, r.firstFault2.toNat)])
  let body := head ++ (r.payload.flatMap (fun (w : Word) => leBytes 8 w.toNat) ++ List.replicate 452 0).take 452
  body ++ leBytes 4 (crc32 body)

/-- The bytes of a BLOB from an offset. The inactive firmware slot beyond what was written into it since reset is open. -/
def State.blobBytes (s : State) (key off n : Nat) : List Byte × State :=
  let o := keyObj key
  let all : List Byte :=
    match keyArea key with
    | 0x21 => s.timingBytes (o - 0x100)
    | 0x23 => s.contextBytes (o - 0x2000)
    | 0x24 => if o = 0x100 then s.failCountBytes else (List.range 512).flatMap (fun i => s.siteResultBytes i)
    | 0x40 => (match (s.acq (o - 0x1000)).records.head? with | some r => recordBytes (o - 0x1000) r | none => [])
    | 0x51 => s.nvm.blackBox.flatMap bbBytes
    | 0x52 => s.ledgerWords.flatMap (fun w => leBytes 8 w.toNat)
    | 0x61 => s.diagBytes
    | _ => s.fwSlotImage
  let got := (all.drop off).take n
  (got ++ openBytes s.freeCount (n - got.length), if got.length < n then { s with freeCount := s.freeCount + n } else s)

/-- The length of a BLOB (R34): its value. -/
def State.blobLength (s : State) (key : Nat) : Nat := (s.value key).toNat

/-- A BLOB is not at rest (R90, R199). -/
def State.blobBusy (s : State) (key : Nat) : Bool :=
  (keyArea key == 0x23 && !s.atRest (keyObj key - 0x2000)) || (keyArea key == 0x61 && s.cmdState Key.diagStart == Cmd.running)

/-- The words of a byte list. -/
def wordsOf (bs : List Byte) (n : Nat) : List Word := (List.range n).map (fun i => BitVec.ofNat 64 (ofLeBytes ((bs.drop (8 * i)).take 8)))

/-- A TSE_FORMAT word that R164 refuses: a reserved value or bit. -/
def formatBad (w : Word) : Bool := decide (4 < field w 0 3) || field w 3 2 == 3 || decide (32 ≤ w.toNat)

/-- An image that sets a reserved TSE_FORMAT. -/
def imageBad (ws : List Word) : Bool := (ws.mapIdx (fun i w => i % 4 == 3 && formatBad w)).any id

/-- A whole slice image is written (R164). -/
def State.writeTiming (s : State) (sl : Nat) (ws : List Word) : State :=
  let t := (ws.mapIdx (fun i w => (imageWord sl i, w))).foldl (fun t x => t.put x.1 x.2) s
  if t.objs = s.objs then t else t.stale

end Sys2Proof.Machine
end

