-- ==== Sys2Proof/Machine/HostIf.lean ====
section
/-! DEFINITION. The commands of the PCI Express attachment (R326-R345): DMA channels, the BAR2 aperture, stray BAR0 writes, the host-island reset, the link. -/

namespace Sys2Proof.Machine

/-- Host traffic reaches the device: out of RESET with the link up. -/
def State.hostOn (s : State) : Bool := s.mode != Mode.reset && s.pcieUp

/-- The DMA engines work: not halted by a machine check (R371), not stopped by QUIESCE (R418). -/
def State.dmaOn (s : State) : Bool := s.hostOn && !s.machineCheck && s.mode != Mode.quiesce

/-! ## Channel registers (R333, R334) -/

/-- The doorbell moves PRODUCER backwards or past the ring. -/
def DmaChan.badDoorbell (d : DmaChan) (producer : BitVec 32) : Bool :=
  decide (2 ^ d.ringLog2 < (producer - d.done).toNat) || decide ((producer - d.done).toNat < (d.producer - d.done).toNat)

/-- DMA_DOORBELL (R334): the descriptors from CONSUMER on join those waiting. -/
def State.doorbell (s : State) (ch : Nat) (producer : BitVec 32) (descs : List Descriptor) : State :=
  let d := s.chan ch
  if d.badDoorbell producer then
    let s := s.putChan ch { d with doorbellErr := true }
    if d.doorbellErr then s else s.fault 90 (.unit ch) 0
  else
    let n := (producer - d.consumer).toNat
    (s.putChan ch { d with producer := producer, waiting := descs.take n }).fetchDescs ch

def execDmaDoorbell (ch : Nat) (producer : BitVec 32) (descs : List Descriptor) (s : State) : Out :=
  within ch 8 (if s.dmaOn then s.doorbell ch producer descs else s)

/-- DMA_RUN (R333): STOPPED to RUNNING, HALT_ON_ERR latched. -/
def execDmaRun (ch : Nat) (haltOnErr : Bool) (s : State) : Out :=
  within ch 8
    (let d := s.chan ch
     if s.dmaOn ∧ d.state = 0 then (s.putChan ch { d with state := 1, haltOnErr := haltOnErr }).fetchDescs ch else s)

/-- DMA_STOP (R338). -/
def execDmaStop (ch : Nat) (s : State) : Out := within ch 8 (if s.dmaOn then s.stopChannel ch else s)

/-- What a write of a channel's configuration makes of it, `none` where it is ignored and sets CFG_ERR (R333): the rings and their length are taken in STOPPED alone, an
address only as a multiple of 4 KiB, the length from 2^4 to 2^16. The error bits of STATUS are cleared by a 1 in every state. -/
def DmaChan.configured (d : DmaChan) (reg : ChanReg) (value : Word) : Option DmaChan :=
  let page := d.state == 0 && value.toNat % 4096 == 0
  let log2 := field value 0 32
  match reg with
  | .descBase => if page then some { d with descBase := value.toNat, producer := 0, consumer := 0, done := 0, waiting := [] } else none
  | .cplBase => if page then some { d with cplBase := value.toNat } else none
  | .ringLog2 => if d.state = 0 ∧ 4 ≤ log2 ∧ log2 ≤ 16 then some { d with ringLog2 := log2 } else none
  | .status => some { d with doorbellErr := d.doorbellErr && !bit value 2, cfgErr := d.cfgErr && !bit value 3 }

/-- DESC_BASE_WRITE (R333), and the writes of the other configuration registers of the channel block. -/
def State.writeChannel (s : State) (ch : Nat) (reg : ChanReg) (value : Word) : State :=
  let d := s.chan ch
  match d.configured reg value with
  | some e => s.putChan ch e
  | none =>
    let s := s.putChan ch { d with cfgErr := true }
    if d.cfgErr then s else s.fault 90 (.unit ch) 0

def execDescBaseWrite (ch : Nat) (reg : ChanReg) (value : Word) (s : State) : Out := within ch 8 (if s.hostOn then s.writeChannel ch reg value else s)

/-- What a channel block shows at an offset (R333), 8 bytes at a time. -/
def DmaChan.register (d : DmaChan) (offset : Nat) : Nat :=
  match offset with
  | 0x00 => d.descBase
  | 0x08 => d.cplBase
  | 0x10 => d.ringLog2
  | 0x18 => packFields [(0, 32, d.producer.toNat), (32, 32, d.consumer.toNat)]
  | 0x20 => packFields [(0, 32, d.done.toNat), (32, 2, d.state), (34, 1, b2n d.doorbellErr), (35, 1, b2n d.cfgErr)]
  | 0x28 => d.reqBytes
  | 0x30 => d.doneBytes
  | 0x38 => d.abortBytes
  | 0x40 => (d.opens.map (fun x => x.desc.length)).sum
  | _ => 0

/-! ## Transfers (R335-R338) -/

/-- The areas whose BLOBs are read by DMA in every mode except RESET and BOOT (R164, R199, R206, R407). -/
def readInTrain (area : Nat) : Bool := [0x21, 0x24, 0x51, 0x52, 0x61].contains area

/-- The code a BLOB descriptor ends with before its transfer (R164, R337, R415). DEDUCED (log entry 146): in TRAIN the BLOBs whose own rules allow the read there are read,
though R337 speaks of every DMA in TRAIN. -/
def State.blobCode (s : State) (d : Descriptor) (data : List Byte) : Code :=
  let key := d.devAddr % 2 ^ 32
  let off := d.devAddr / 2 ^ 32
  let row := rowOf key
  let blob := match row with | some r => decide (r.ty = .blob) | none => false
  let ro := match row with | some r => decide (r.acc = .ro) | none => true
  let image := keyArea key == 0x21
  let modeBad := s.mode == Mode.boot || (s.mode == Mode.train && !(d.toHost && readInTrain (keyArea key))) ||
    (!d.toHost && (if image then !(s.mode == Mode.idle || s.mode == Mode.load) else s.mode != Mode.service))
  refuse [(!implemented key, .noObject), (!blob, .typeMismatch), (!d.toHost && ro, .readOnly), (modeBad, .wrongMode), (s.blobBusy key, .busy),
    (d.length == 0 || decide (s.blobLength key < off + d.length), .range),
    (!d.toHost && (off != 0 || (image && (d.length != 65536 || imageBad (wordsOf data 8192)))), .range)]

/-- The code a DDR5 descriptor ends with before its transfer (R71, R72, R337). -/
def State.dramCode (s : State) (d : Descriptor) : Code :=
  let modeBad := if d.toHost then decide (s.mode < Mode.idle) || decide (Mode.safe < s.mode) else !s.dramWritable
  refuse [(modeBad, .wrongMode), (d.length == 0 || decide (s.capacity < d.devAddr + d.length), .range), (!d.toHost && s.touchesLock d.devAddr d.length, .locked)]

/-- The first uncorrectable burst of a read of `n` bursts from burst `b`, each with its check; bursts the fill has not passed read as zeros (R281, R285, R298). -/
def State.scanBursts (s : State) (b : Nat) (ecc : Ecc) : Nat → State × Option Nat
  | 0 => (s, none)
  | n + 1 =>
    if (s.get Key.dramFill).toNat ≤ 64 * b then (s, none)
    else
      let r := s.readBurst (64 * b) ecc
      if r.2 then r.1.scanBursts (b + 1) .clean n else (r.1, some b)

/-- Bursts of a range. -/
def burstsOf (a n : Nat) : Nat := if n = 0 then 0 else (a + n - 1) / 64 - a / 64 + 1

/-- A write of bytes, burst by burst (R284, R285); `fuel` bounds the bursts. -/
def State.dramWriteAll (s : State) (a : Nat) (data : List Byte) : Nat → State
  | 0 => s
  | fuel + 1 =>
    let n := 64 - a % 64
    if data.isEmpty then s else (s.dramWriteAt a (data.take n) .clean).dramWriteAll (a + n) (data.drop n) fuel

/-- A DDR5 descriptor to the host: an uncorrectable burst, found by the scan or told of by the command, ends it with the bytes before that burst. -/
def State.dramToHost (s : State) (c : Nat) (d : Descriptor) (bad : Option Nat) : State :=
  let a := d.devAddr
  let last := match bad with | some n => if n < d.length then burstsOf a (n + 1) - 1 else burstsOf a d.length | none => burstsOf a d.length
  let r := s.scanBursts (a / 64) .clean last
  let told := decide (last < burstsOf a d.length)
  let s := if r.2.isNone && told then r.1.dramUe (64 * (a / 64 + last)) else r.1
  let failed := match r.2 with | some b => some b | none => if told then some (a / 64 + last) else none
  match failed with
  | some b =>
    let moved := 64 * b - a
    (s.emit (.hostWrite d.hostAddr (s.bytesAt a moved))).closeOldest c Code.aborted.toNat 4 moved
  | none => (s.emit (.hostWrite d.hostAddr (s.bytesAt a d.length))).closeOldest c 0 0 d.length

/-- FS061 on a read of acquisition memory, found by the check or told of by the command (R259): the record is flagged ECC. -/
def State.checkRecord (s : State) (u : Nat) (bad : Bool) : State :=
  let r := s.examine 61 (.unit u)
  if r.2 = some true then r.1.flagRecord u else if bad then r.1.fault 61 (.unit u) 0 else r.1

/-- A BLOB descriptor that is accepted. -/
def State.blobTransfer (s : State) (c : Nat) (d : Descriptor) (data : List Byte) (bad : Bool) : State :=
  let key := d.devAddr % 2 ^ 32
  let off := d.devAddr / 2 ^ 32
  let s :=
    if d.toHost then
      let s := if keyArea key = 0x40 then s.checkRecord (keyObj key - 0x1000) bad else s
      let s := if keyArea key = 0x51 then s.bbPass else s
      let r := s.blobBytes key off d.length
      r.2.emit (.hostWrite d.hostAddr r.1)
    else if keyArea key = 0x21 then s.writeTiming (keyObj key - 0x100) (wordsOf data 8192)
    else { s with fwSlotImage := data.take d.length }
  s.closeOldest c 0 0 d.length

/-- Data from the host move into DDR5 behind what the oldest open descriptor has moved. -/
def State.moveIn (s : State) (c : Nat) (x : OpenDesc) (data : List Byte) : State :=
  let a := x.desc.devAddr + x.moved
  let got := data.take (x.desc.length - x.moved)
  let s := s.dramWriteAll a got (burstsOf a got.length)
  s.putChan c { s.chan c with opens := { x with moved := x.moved + got.length } :: (s.chan c).opens.tail }

/-- The oldest open descriptor of a channel runs and closes; its checks come before its first byte. A host-to-device one needs its data from the host: a part of them moves,
and the descriptor stays open for the rest. A BLOB is written whole. -/
def State.closeDesc (s : State) (c : Nat) (data : List Byte) (uncorrectable : Option Nat) : State :=
  let s := s.closeLost c 4
  match (s.chan c).opens with
  | [] => s
  | x :: _ =>
    let d := x.desc
    let code := if d.blob then s.blobCode d data else if x.moved = 0 then s.dramCode d else if s.dramWritable then .ok else .wrongMode
    let part := !d.toHost && decide (x.moved + data.length < d.length)
    if code ≠ .ok then s.closeOldest c code.toNat 0 x.moved
    else if part then (if d.blob then s else s.moveIn c x data)
    else if d.blob then s.blobTransfer c d data uncorrectable.isSome
    else if d.toHost then s.dramToHost c d uncorrectable
    else (s.moveIn c x data).closeOldest c 0 0 d.length

/-- DESCRIPTOR_CLOSE (R336, R337). -/
def execDescriptorClose (ch : Nat) (data : List Byte) (uncorrectable : Option Nat) (s : State) : Out :=
  within ch 8 (if s.dmaOn then s.closeDesc ch data uncorrectable else s)

/-- The host fails a DMA read (R338, R345): the bytes moved before it are complete, the descriptor is ABORTED, FS076. A timing image is written whole or not at all. -/
def State.hostError (s : State) (c cause : Nat) (data : List Byte) : State :=
  match (s.chan c).opens with
  | [] => s
  | x :: _ =>
    let d := x.desc
    let code := if d.blob then s.blobCode d [] else if x.moved = 0 then s.dramCode d else if s.dramWritable then .ok else .wrongMode
    if d.toHost || code != .ok then s
    else
      let got := data.take (d.length - x.moved)
      let s := if d.blob then (if keyArea (d.devAddr % 2 ^ 32) = 0x01 then { s with fwSlotImage := got } else s) else s.moveIn c x got
      (s.closeOldest c Code.aborted.toNat cause (x.moved + got.length)).fault 76 (.unit c) 0

/-- DMA_HOST_ERROR: cause 1 UR or CA, 2 poison, 3 no completion in time. -/
def execDmaHostError (ch cause : Nat) (data : List Byte) (s : State) : Out :=
  within ch 8 (if s.dmaOn ∧ 1 ≤ cause ∧ cause ≤ 3 then s.hostError ch cause data else s)

/-! ## BAR0 and BAR2 (R329, R339) -/

/-- What BAR0 shows outside the hot window, 8 bytes at a time (R329, R330, R333): the identity, the doorbell's DONE, the channel blocks, the pending bits;
0 elsewhere. -/
def State.bar0 (s : State) (offset : Nat) : Nat :=
  if offset = 0 then packFields [(0, 32, (s.value Key.siliconRev).toNat), (32, 32, (s.value Key.dictVersion).toNat)]
  else if offset = 8 then (s.value Key.dieSerial).toNat
  else if offset = 0x2000 then packFields [(31, 1, b2n s.mailboxDone)]
  else if 0x3000 ≤ offset ∧ offset < 0x3800 then (s.chan ((offset - 0x3000) / 0x100)).register (offset % 0x100)
  else if 0x22000 ≤ offset ∧ offset < 0x22040 then ((s.msixPending.filter (fun v => v / 64 == (offset - 0x22000) / 8)).map (fun v => 2 ^ (v % 64))).sum
  else 0

/-- BAR0_STRAY_WRITE (R329). -/
def execBar0StrayWrite (s : State) : Out := .next (if s.hostOn then s.count Key.bar0Stray 32 else s)

/-- A refused BAR2 access is recorded (R339); the address of the first refused write is held. -/
def State.bar2Refused (s : State) (c : Code) (addr : Option Nat) : State :=
  let s' := s.put Key.bar2Err (recordRefusal (s.get Key.bar2Err) c.toNat)
  match addr with
  | some a => if s.get Key.bar2ErrAddr = 0xFFFFFFFFFFFFFFFF then s'.put Key.bar2ErrAddr (toWord a) else s'
  | none => s'

/-- BAR2_WRITE (R71, R72, R339). -/
def State.bar2Write (s : State) (a : Nat) (data : List Byte) : State :=
  match refuse [(!s.dramWritable, .wrongMode), (decide (s.capacity < a + data.length), .range), (s.touchesLock a data.length, .locked)] with
  | .ok => s.dramWriteAll a data (burstsOf a data.length)
  | c => s.bar2Refused c (some a)

def execBar2Write (addr : Nat) (data : List Byte) (s : State) : Out := .next (if s.hostOn then s.bar2Write addr data else s)

/-- BAR2_READ (R339): zeros in BOOT, TRAIN and beyond the capacity; poisoned data on an uncorrectable error. -/
def State.bar2Read (s : State) (a n : Nat) (ecc : Ecc) : State :=
  match refuse [(s.mode == Mode.boot || s.mode == Mode.train, .wrongMode), (decide (s.capacity < a + n), .range)] with
  | .ok =>
    let r := s.scanBursts (a / 64) ecc (burstsOf a n)
    r.1.emit (.readData (s.bytesAt a n) r.2.isSome)
  | c => (s.bar2Refused c none).emit (.readData (List.replicate n 0) false)

def execBar2Read (addr len : Nat) (ecc : Ecc) (s : State) : Out := .next (if s.hostOn then s.bar2Read addr len ecc else s)

/-! ## The host island and the link (R341, R410) -/

/-- Every open descriptor of every channel aborts with CAUSE 5. -/
def State.abortAllDma (s : State) : State := (List.range 8).foldl (fun t c => t.abortOpen c Code.aborted.toNat 5 4) s

/-- HOST_ISLAND_RESET (R410). -/
def State.hostReset (s : State) : State :=
  let s := { { s with pcieUp := false }.abortAllDma with pcieUp := s.pcieUp, dma := [], mailbox := [], mailboxDone := true, msixMasked := [], msixPending := [] }
  let s := s.closeSessions (fun x => x.overMailbox)
  (s.put Key.ringBase 0).put Key.eventRingBase 0

def execHostIslandReset (s : State) : Out := .next (if s.mode = Mode.reset then s else s.hostReset)

/-- PCIE_LINK_DOWN (R338, R341): FS075 after 1 ms out of L0, at once where records wait. -/
def execPcieLinkDown (longOrWaiting : Bool) (s : State) : Out :=
  .next (if !s.hostOn then s
    else
      let s := { s with pcieUp := false }.abortAllDma
      if longOrWaiting || !s.burst.records.isEmpty then s.fault 75 .none 0 else s)

/-- PCIE_LINK_UP (R341): RUNNING channels fetch again. -/
def execPcieLinkUp (s : State) : Out :=
  .next (if s.mode = Mode.reset then s
    else
      let s := (List.range 8).foldl (fun t c => t.fetchDescs c) { s with pcieUp := true }
      if s.liveBit 75 then s.clearLive 75 else s)

end Sys2Proof.Machine
end

