-- ==== Sys2Proof/Machine/Dictionary.lean ====
section
/-! DEFINITION. Single messages of the dictionary (R36, R39, R44, R45, R52, R56) and hot-window writes (R54, R331, R332): every key, the commands among them, and the atomic
group. -/

namespace Sys2Proof.Machine

/-! ## Writing any key -/

/-- FERN_ALIGN by a plain write (R223): what its measurement finds is not part of the write, and left open. -/
def State.writeFernAlign (s : State) (w : Word) : Code × State :=
  let r := s.freeChoice
  let d := r.2.free
  let t := d.2.free
  t.2.cmdFernAlign w (if r.1 then some d.1.toNat else none) t.1.toNat

/-- A write of a CMD object outside the numbered units. -/
def State.writeCmdOne (s : State) (key : Nat) (w : Word) : Code × State :=
  if key = Key.dictPersist then s.cmdDictPersist w
  else if key = Key.dictRevert then s.cmdDictRevert w
  else if key = Key.modeRequest then s.cmdModeRequest w
  else if key = Key.sliceDiagRequest then s.cmdSliceDiag w
  else if key = Key.loadCheck then s.cmdLoadCheck w
  else if key = Key.deviceReset then s.cmdDeviceReset w
  else if key = Key.fwActivate then s.cmdFwActivate w
  else if key = Key.burstStart then s.cmdBurstStart w
  else if key = Key.burstStop then s.cmdBurstStop w
  else if key = Key.guardCommit then s.cmdGuardCommit w
  else if key = Key.timeLatch then s.cmdTimeLatch w
  else if key = Key.timeStep then s.cmdTimeStep w
  else if key = Key.ptmCorr then let r := s.freeChoice; r.2.cmdPtmCorr w r.1
  else if key = Key.dacLoad then s.cmdDacLoad w
  else if key = Key.trigoutPulse then s.cmdTrigoutPulse w
  else if key = Key.ffClear then s.cmdFfClear w
  else if key = Key.faultInject then s.cmdFaultInject w
  else if key = Key.safeUnlatch then s.cmdSafeUnlatch w
  else if key = Key.bbNote then s.cmdBbNote w
  else if key = Key.calCancel then s.cmdCalCancel w
  else if key = Key.diagStart then s.cmdDiag w
  else if key = Key.fernAlign then s.writeFernAlign w
  else if key = Key.ringForm then s.cmdRingForm w
  else (.noObject, s)

/-- A write of a CMD object (R39). -/
def State.writeCmd (s : State) (key : Nat) (w : Word) : Code × State :=
  let o := keyObj key
  let e := keyEl key
  match keyArea key with
  | 0x10 => if 0x1000 ≤ o ∧ e = 4 then s.cmdSlotArm (o - 0x1000) w else s.writeCmdOne key w
  | 0x23 => if 0x3000 ≤ o then s.cmdHostJump (o - 0x3000) w else s.writeCmdOne key w
  | 0x40 => if 0x1000 ≤ o ∧ e = 8 then s.cmdAcqArm (o - 0x1000) w else if 0x1000 ≤ o ∧ e = 9 then s.cmdAcqForce (o - 0x1000) w else s.writeCmdOne key w
  | 0x41 => if 0x1000 ≤ o then s.cmdTiuArm (o - 0x1000) w else s.writeCmdOne key w
  | 0x42 => if 0x1000 ≤ o then s.cmdAdcStart (o - 0x1000) w else s.writeCmdOne key w
  | 0x60 => if 0x2000 ≤ o ∧ e = 3 then s.cmdReq (o - 0x2000) w else s.writeCmdOne key w
  | _ => s.writeCmdOne key w

/-- The object is a command. -/
def isCmd (key : Nat) : Bool := match rowOf key with | some r => decide (r.acc = .cmd) | none => false

/-- A write of any key by a message or a hot-window slot. -/
def State.writeKey (s : State) (p : Path) (key : Nat) (w : Word) : Code × State := if isCmd key then s.writeCmd key w else s.writePlain p key w

/-- The DETAIL that a refusal of a command shows (R195, R360). -/
def State.refusalDetail (s : State) (key : Nat) (c : Code) : Nat :=
  if key = Key.diagStart then s.diagDetail c
  else if keyArea key = 0x60 ∧ 0x2000 ≤ keyObj key ∧ keyEl key = 3 then s.reqDetail (keyObj key - 0x2000) c
  else 0

/-- A WRITE message on a path other than the hot window, and the same write there (R36, R54). -/
def State.writeAt (s : State) (p : Path) (index key : Nat) (w : Word) : State :=
  s.accessDetail p index key (fun t => t.writeKey p key w) (s.refusalDetail key)

/-- WRITE. The LAST flag is of string objects only, all of which are read-only (R45). -/
def execWrite (p : Path) (_last : Bool) (index : Nat) (key : Nat) (value : Word) (s : State) : Out := .next (s.writeAt p index key value)

/-- READ. -/
def execRead (p : Path) (dflt : Bool) (index : Nat) (key : Nat) (s : State) : Out := .next (s.readAt p dflt index key)

/-! ## Subscriptions (R56) -/

/-- A response whose VALUE is given. -/
def State.answerWith (s : State) (op : BitVec 8) (c : Code) (key : Nat) (v : Word) : State := s.answer (response op c 0 key v)

/-- The VALUE of the response to a refused message (R44): for a write and a subscription the value now in force, 0 where the response VALUE is 0, else one the spec does
not state. -/
def State.refusedValue (s : State) (op : BitVec 8) (key : Nat) : Word × State :=
  if op = 0x02 ∨ op = 0x03 then s.valueAfter key
  else if op = 0x04 ∨ op = 0x11 ∨ op = 0x12 then (0, s)
  else s.free

/-- A refused message, answered. -/
def State.refuseMessage (s : State) (op : BitVec 8) (index : Nat) (c : Code) (key : Nat) : State :=
  let f := s.refusedValue op key
  f.2.answer (response op c index key f.1)

/-- Why a SUBSCRIBE is refused. -/
def State.subscribeCode (s : State) (p : Path) (key : Nat) (w : Word) : Code :=
  let again := s.subs.any (fun (x : Subscription) => decide (x.dest = p) && x.key == key)
  refuse [
    (s.mode == Mode.boot, .wrongMode), (!s.hasSession p, .noSession), (!implemented key, .noObject),
    (match rowOf key with | some r => decide (r.ty = .blob) | none => false, .typeMismatch), (match rowOf key with | some r => decide (r.acc = .wo) | none => false, .writeOnly),
    (decide (w.toNat < 10) || decide (1000000 < w.toNat), .range), (!again && decide (256 ≤ s.subs.length), .subFull)]

/-- SUBSCRIBE; a second one by the same destination replaces the interval of the first. -/
def State.subscribeAt (s : State) (p : Path) (key : Nat) (w : Word) : State :=
  if s.mode = Mode.reset ∨ p = .hot then s
  else
    let c := s.subscribeCode p key w
    if c ≠ .ok then s.refuseMessage 0x03 0 c key
    else
      let mine (x : Subscription) : Bool := decide (x.dest = p) && x.key == key
      let subs := if s.subs.any mine then s.subs.map (fun (x : Subscription) => if mine x then { x with interval := w.toNat } else x)
        else s.subs ++ [{ dest := p, key := key, interval := w.toNat, changes := 0, last := s.value key, sent := none }]
      let s := { s with subs := subs }.refreshSessions
      s.answerWith 0x03 .ok key (s.value key)

def execSubscribe (p : Path) (key : Nat) (value : Word) (s : State) : Out := .next (s.subscribeAt p key value)

/-- UNSUBSCRIBE. -/
def State.unsubscribeAt (s : State) (p : Path) (key : Nat) : State :=
  if s.mode = Mode.reset ∨ p = .hot then s
  else
    let c := refuse [(s.mode == Mode.boot, .wrongMode), (!s.hasSession p, .noSession), (!implemented key, .noObject)]
    if c ≠ .ok then s.refuseMessage 0x04 0 c key
    else { s with subs := s.subs.filter (fun (x : Subscription) => !(decide (x.dest = p) && x.key == key)) }.refreshSessions.answerWith 0x04 .ok key 0

def execUnsubscribe (p : Path) (key : Nat) (s : State) : Out := .next (s.unsubscribeAt p key)

/-! ## Atomic groups (R52) -/

/-- The group holds another opcode, or a CMD write that is not last. -/
def groupBad (ms : List Message) : Bool := ms.any (fun m => m.opcode != 0x02) || ms.dropLast.any (fun m => isCmd m.key.toNat)

/-- The state with every plain write of the group overlaid. -/
def State.groupView (s : State) (ms : List Message) : State := ms.foldl (fun t m => if isCmd m.key.toNat then t else t.overlay m.key.toNat m.value) s

/-- The plain writes applied in message order. -/
def State.applyPlain (s : State) (ms : List Message) : State := ms.foldl (fun t m => if isCmd m.key.toNat then t else t.applyWrite m.key.toNat m.value) s

/-- The code of one write of the group; a CMD is judged on the state that the others leave in force. -/
def State.groupCode (s v t : State) (p : Path) (m : Message) : Code :=
  let key := m.key.toNat
  (s.gate p (if isCmd key then ((t.writeCmd key m.value).1, s) else (s.writeCode v p key m.value, s))).1

/-- Every message of a group answered with its code. -/
def State.answerGroup (s : State) (cs : List (Message × Code)) : State := cs.foldl (fun t x => t.respond 0x02 x.1.index.toNat x.1.key.toNat x.2) s

/-- An atomic group: all its writes as one step, or none. -/
def State.group (s : State) (p : Path) (ms : List Message) : State :=
  if groupBad ms then ms.foldl (fun t m => t.refuseMessage m.opcode m.index.toNat .badFormat m.key.toNat) s
  else if ms.any (fun m => inHotWindow m.key.toNat) then s.answerGroup (ms.map (fun m => (m, if inHotWindow m.key.toNat then Code.notAtomic else Code.atomicAborted)))
  else
    let v := s.groupView ms
    let t := s.applyPlain ms
    let cs := ms.map (fun m => (m, s.groupCode v t p m))
    if cs.any (fun x => x.2 != .ok) then
      let s := (cs.filter (fun x => x.2 == .envelope && !isCmd x.1.key.toNat)).foldl (fun u x => u.collect [envelopeRaise (keyObj x.1.key.toNat - 0x1000)]) s
      s.answerGroup (cs.map (fun x => (x.1, if x.2 = .ok then Code.atomicAborted else x.2)))
    else
      let t := (ms.filter (fun m => isCmd m.key.toNat)).foldl (fun u m => (u.writeCmd m.key.toNat m.value).2) t
      t.answerGroup cs

/-- The opcodes a host may send (R44). -/
def hostOpcode (op : Nat) : Bool := [0x01, 0x02, 0x03, 0x04, 0x10, 0x11, 0x12].contains op

/-- A message that the boot ROM answers (R36): reads and writes of area 00, BAD_FORMAT for an invalid opcode, WRONG_MODE for every other message. -/
def State.romMessage (s : State) (p : Path) (m : Message) : State :=
  if !hostOpcode m.opcode.toNat then s.refuseMessage m.opcode m.index.toNat .badFormat m.key.toNat
  else if m.opcode = 0x01 then s.readAt p m.dflt m.index.toNat m.key.toNat
  else if m.opcode = 0x02 then s.writeAt p m.index.toNat m.key.toNat m.value
  else s.refuseMessage m.opcode m.index.toNat .wrongMode m.key.toNat

/-- ATOMIC_GROUP on a path that carries messages. In BOOT the ROM answers each message by itself (R36). -/
def State.groupAt (s : State) (p : Path) (ms : List Message) : State :=
  if s.mode = Mode.reset ∨ p = .hot then s
  else if s.mode = Mode.boot then ms.foldl (fun t m => t.romMessage p m) s
  else s.group p ms

def execAtomicGroup (p : Path) (ms : List Message) (s : State) : Out := .next (s.groupAt p ms)

/-! ## The hot window (R54, R331, R332) -/

/-- The bytes an access must have at least: a command status word has 32 bits (R39), HOT_ERR four bytes (R54). -/
def hotWidth (key : Nat) : Nat :=
  match rowOf key with
  | some r => if r.acc = .cmd then 4 else if key = Key.hotErr then 4 else r.ty.width
  | none => 8

/-- An aligned access of at least the object's width. -/
def hotAligned (key offset width : Nat) : Bool := offset == 0 && decide (hotWidth key ≤ width) && (width == 1 || width == 2 || width == 4 || width == 8)

/-- A write of slot 10 (R332): the thread, the entry; the thread is the last one addressed. -/
def State.hotJumpWrite (s : State) (w : Word) : State :=
  let th := field w 0 12
  let key := Key.hostJump th
  if 3072 ≤ th then s.hotRefused Code.noObject.toNat key
  else if (w &&& ~~~ 0x30FFF#64) ≠ 0 then s.hotRefused Code.range.toNat key
  else { s with hotJump := th }.access .hot 0 key (fun t => t.cmdHostJump th (toWord (field w 16 2)))

/-- A write of a slot, from its first byte. -/
def State.hotWrite (s : State) (slot offset width : Nat) (value : Word) : State :=
  let w := toWord (value.toNat % 2 ^ (8 * width))
  if s.mode = Mode.boot then s
  else if slot = 10 then
    (if hotAligned (Key.hostJump 0) offset width then s.hotJumpWrite w else s.hotRefused (Config.misalignedCode slot offset width + 1) (Key.hostJump s.hotJump))
  else match hotKey slot with
    | none => s.hotRefused Code.noObject.toNat 0
    | some key =>
      if hotAligned key offset width then s.access .hot 0 key (fun t => t.writeKey .hot key w)
      else s.hotRefused (Config.misalignedCode slot offset width + 1) key

/-- HOT_WINDOW_WRITE. -/
def execHotWindowWrite (slot : Nat) (offset width : Nat) (value : Word) (s : State) : Out := within slot 256 (if s.hostOn then s.hotWrite slot offset width value else s)

end Sys2Proof.Machine
end

