-- ==== Sys2Proof/Machine/Microwords.lean ====
section
/-! DEFINITION. The microwords as commands (R107-R130): each executes on the thread that its core runs; the words' own effects are those of Sequencer. -/

namespace Sys2Proof.Machine

/-- A microword of a thread of the device. -/
def State.micro (s : State) (thread : Nat) (u : Uop) : Out := within thread 3072 (s.runWord thread u)

/-- ADV (R107). -/
def execAdv (thread rep : Nat) (s : State) : Out := s.micro thread (.adv rep)

/-- SEGM (R117). -/
def execSegm (thread label : Nat) (trigen : Bool) (trigout rep : Nat) (s : State) : Out := s.micro thread (.segm label trigen trigout rep)

/-- TRIG kind 0: a TRIGOUT pulse (R118). -/
def execTrigTrigout (thread unit rep : Nat) (s : State) : Out := s.micro thread (.trig 0 unit 0 rep)

/-- TRIG kind 1: a TIU arm (R118, R248). -/
def execTrigTiuArm (thread unit rep : Nat) (s : State) : Out := s.micro thread (.trig 1 unit 0 rep)

/-- TRIG kind 2: ADC starts (R118, R253). -/
def execTrigAdcStart (thread mask rep : Nat) (s : State) : Out := s.micro thread (.trig 2 0 mask rep)

/-- TRIG kind 3: a DAC load strobe (R118, R267). -/
def execTrigDacLoad (thread group rep : Nat) (s : State) : Out := s.micro thread (.trig 3 group 0 rep)

/-- TRIG kind 4: an acquisition arm (R118, R257). -/
def execTrigAcqArm (thread unit rep : Nat) (s : State) : Out := s.micro thread (.trig 4 unit 0 rep)

/-- TRIG kind 5: a ring trigger line (R118, R238). -/
def execTrigRing (thread line rep : Nat) (s : State) : Out := s.micro thread (.trig 5 line 0 rep)

/-- CAPC issued for its FULLCAP field (R108, R204). -/
def execCapcFullcap (thread fullcap judge sig rep : Nat) (s : State) : Out := s.micro thread (.capc fullcap judge sig rep)

/-- CAPC issued for its JUDGE field (R108, R204). -/
def execCapcJudge (thread fullcap judge sig rep : Nat) (s : State) : Out := s.micro thread (.capc fullcap judge sig rep)

/-- CAPC issued for its SIG field (R108, R204). -/
def execCapcSig (thread fullcap judge sig rep : Nat) (s : State) : Out := s.micro thread (.capc fullcap judge sig rep)

/-- FLAG (R108, R235). -/
def execFlag (thread : Nat) (setuf clruf : BitVec 8) (rcn : Nat) (rcpub rcval : Bool) (rep : Nat) (s : State) : Out :=
  s.micro thread (.flag setuf.toNat clruf.toNat rcn rcpub rcval rep)

/-- LOOP (R111). -/
def execLoop (thread ctr count rep : Nat) (s : State) : Out := s.micro thread (.loop ctr count rep)

/-- HALT (R112). -/
def execHalt (thread rep : Nat) (s : State) : Out := s.micro thread (.halt rep)

/-- JMP (R112, R113). -/
def execJmp (thread cond : Nat) (inv : Bool) (target : Int) (s : State) : Out := s.micro thread (.jmp cond inv target)

/-- CALL (R112). -/
def execCall (thread cond : Nat) (inv : Bool) (target : Int) (s : State) : Out := s.micro thread (.call cond inv target)

/-- RET (R112). -/
def execRet (thread cond : Nat) (inv : Bool) (s : State) : Out := s.micro thread (.ret cond inv)

/-- LEND (R111). -/
def execLend (thread ctr : Nat) (target : Int) (s : State) : Out := s.micro thread (.lend ctr target)

/-- PREF (R151). -/
def execPref (thread : Nat) (target : Int) (s : State) : Out := s.micro thread (.pref target)

/-- SYNC (R125). -/
def execSync (thread partner : Nat) (send wait : Bool) (s : State) : Out := s.micro thread (.sync partner send wait)

/-- MATCH (R128). -/
def execMatchStart (thread body timeout : Nat) (inv : Bool) (s : State) : Out := s.micro thread (.matchW body timeout inv)

/-- WAITTRIG (R126). -/
def execWaittrig (thread source timeout : Nat) (s : State) : Out := s.micro thread (.waittrig source timeout)

/-- WAITTIME (R127). -/
def execWaittime (thread time : Nat) (s : State) : Out := s.micro thread (.waittime time)

end Sys2Proof.Machine
end

