-- ==== Sys2Proof/Machine/Sha256.lean ====
section
/-! DEFINITION. The tag of an authenticated batch (R48, R49): SHA-256 (FIPS 180-4) and HMAC (RFC 2104), which the spec names and does not state (PRESUMED, log entry 13). -/

namespace Sys2Proof.Machine

/-- The first 64 primes, from whose roots the hash takes its constants. -/
def hashPrimes : List Nat :=
  [2, 3, 5, 7, 11, 13, 17, 19, 23, 29, 31, 37, 41, 43, 47, 53, 59, 61, 67, 71, 73, 79, 83, 89, 97, 101, 103, 107, 109, 113, 127, 131] ++
  [137, 139, 149, 151, 157, 163, 167, 173, 179, 181, 191, 193, 197, 199, 211, 223, 227, 229, 233, 239, 241, 251, 257, 263, 269, 271, 277, 281, 283, 293, 307, 311]

/-- The greatest `r` with `r ^ k ≤ n` among those that agree with `r` above bit `b`: one bit decided at a time, the highest first. -/
def rootBelow (k n : Nat) : Nat → Nat → Nat
  | 0, r => r
  | b + 1, r => rootBelow k n b (if (r + 2 ^ b) ^ k ≤ n then r + 2 ^ b else r)

/-- The first 32 bits after the point of the `k`-th root of a prime below 512. -/
def rootFraction (k p : Nat) : Nat := rootBelow k (p * 2 ^ (32 * k)) 37 0 % 2 ^ 32

/-- A 32-bit number turned right by `n` places, 0 < n < 32. -/
def turn (x n : Nat) : Nat := x / 2 ^ n ||| x * 2 ^ (32 - n) % 2 ^ 32

/-- What a chaining value holds: eight 32-bit numbers, the first `a`. -/
structure HashState where
  a : Nat
  b : Nat
  c : Nat
  d : Nat
  e : Nat
  f : Nat
  g : Nat
  h : Nat
deriving DecidableEq, Repr

/-- The chaining value before the first block: the square roots of the first eight primes. -/
def HashState.start : HashState :=
  let r (i : Nat) : Nat := rootFraction 2 (hashPrimes.getD i 0)
  ⟨r 0, r 1, r 2, r 3, r 4, r 5, r 6, r 7⟩

/-- Two chaining values added place by place. -/
def HashState.plus (x y : HashState) : HashState :=
  let m := 2 ^ 32
  ⟨(x.a + y.a) % m, (x.b + y.b) % m, (x.c + y.c) % m, (x.d + y.d) % m, (x.e + y.e) % m, (x.f + y.f) % m, (x.g + y.g) % m, (x.h + y.h) % m⟩

/-- The bit of `y` where `x` has a one, of `z` where it has a zero. -/
def pick (x y z : Nat) : Nat := z ^^^ (x &&& (y ^^^ z))

/-- The bit that two or three of the numbers have. -/
def vote (x y z : Nat) : Nat := pick (x ^^^ y) z x

/-- A round with the constant and message word added together in `k`. -/
def HashState.mix (x : HashState) (k : Nat) : HashState :=
  let up := x.h + (turn x.e 6 ^^^ turn x.e 11 ^^^ turn x.e 25) + pick x.e x.f x.g + k
  let down := (turn x.a 2 ^^^ turn x.a 13 ^^^ turn x.a 22) + vote x.a x.b x.c
  { a := (up + down) % 2 ^ 32, b := x.a, c := x.b, d := x.c, e := (x.d + up) % 2 ^ 32, f := x.e, g := x.f, h := x.g }

/-- The word that follows sixteen words of the schedule. -/
def followingWord (w : List Nat) : Nat :=
  let near := w.getD 14 0
  let far := w.getD 1 0
  (w.getD 0 0 + (turn far 7 ^^^ turn far 18 ^^^ far / 8) + w.getD 9 0 + (turn near 17 ^^^ turn near 19 ^^^ near / 1024)) % 2 ^ 32

/-- The rounds of one block, one per prime: `w` the sixteen words of the schedule from the present round on. -/
def hashRounds : List Nat → List Nat → HashState → HashState
  | [], _, x => x
  | p :: ps, w, x => hashRounds ps (w.tail ++ [followingWord w]) (x.mix (rootFraction 3 p + w.headD 0))

/-- The number in bytes, most significant first. -/
def ofBeBytes (bs : List Byte) : Nat := ofLeBytes bs.reverse

/-- The bytes of a number, most significant first. -/
def beBytes (n v : Nat) : List Byte := (leBytes n v).reverse

/-- `n` blocks of 64 bytes taken into a chaining value. -/
def hashBlocks : Nat → List Byte → HashState → HashState
  | 0, _, x => x
  | n + 1, bs, x =>
    let words := (List.range 16).map (fun i => ofBeBytes ((bs.drop (4 * i)).take 4))
    hashBlocks n (bs.drop 64) (x.plus (hashRounds hashPrimes words x))

/-- SHA-256: the message, a one bit, zeros up to a whole block, its length in bits. -/
def sha256 (bs : List Byte) : List Byte :=
  let blocks := bs.length / 64 + (if bs.length % 64 < 56 then 1 else 2)
  let fill := List.replicate (64 * blocks - bs.length - 9) (0 : Byte)
  let x := hashBlocks blocks (bs ++ [0x80] ++ fill ++ beBytes 8 (8 * bs.length)) HashState.start
  [x.a, x.b, x.c, x.d, x.e, x.f, x.g, x.h].flatMap (beBytes 4)

/-- HMAC-SHA-256 under a key of at most 64 bytes. -/
def hmacSha256 (key msg : List Byte) : List Byte :=
  let masked (m : Byte) : List Byte := (key ++ List.replicate (64 - key.length) 0).map (fun b => b ^^^ m)
  sha256 (masked 0x5c ++ sha256 (masked 0x36 ++ msg))

/-! ## Session keys and tags (R48, R49) -/

/-- "KR1024-SESSION" in ASCII. -/
def sessionLabel : List Byte := [0x4B, 0x52, 0x31, 0x30, 0x32, 0x34, 0x2D, 0x53, 0x45, 0x53, 0x53, 0x49, 0x4F, 0x4E]

/-- The secret of a key slot (R47). -/
def State.secret (s : State) (slot : Nat) : List Byte := (List.range 4).flatMap (fun e => leBytes 8 (s.get (Key.sessionKey slot e)).toNat)

/-- The key of a session (R48). -/
def State.sessionKeyOf (s : State) (x : Session) : List Byte :=
  hmacSha256 (s.secret x.slot) (sessionLabel ++ leBytes 8 x.clientNonce.toNat ++ leBytes 8 x.deviceNonce.toNat ++ leBytes 4 x.id)

/-- The tag of a batch under a session's key (R49). -/
def State.batchTag (s : State) (x : Session) (header : List Byte) (ms : List Message) : List Byte :=
  (hmacSha256 (s.sessionKeyOf x) (header ++ ms.flatMap messageBytes)).take 16

/-- The header of a batch the device sends (R46). -/
def answerHeader (auth : Bool) (session counter : Nat) (ms : List Message) : List Byte :=
  headerBytes { version := 1, atomic := false, auth := auth, count := BitVec.ofNat 8 ms.length, session := BitVec.ofNat 32 session, counter := toWord counter, messages := [], tag := [] }

end Sys2Proof.Machine
end

