-- ==== Sys2Proof/Machine/Results.lean ====
section
/-! DEFINITION. Result records and the completion ring (R218-R221), the event ring and notifications (R56, R57, R342), the coalescing windows (R343, R380). -/

namespace Sys2Proof.Machine

/-! ## The completion ring -/

/-- The 64 bytes of a record at producer index `p` (R218). -/
def recordAt (bits p : Nat) : List Byte := leBytes 64 (bits + packFields [(31, 1, 1 - p / 4096 % 2), (224, 32, p)])

/-- The oldest record is written: its place, its index, and the RECORD interrupt held for the end of its window (R343). -/
def State.writeRecord (s : State) (bits : Nat) : State :=
  let p := (s.get Key.ringProducer).toNat
  let s := s.emit (.hostWrite ((s.get Key.ringBase).toNat + 64 * (p % 4096)) (recordAt bits p))
  { s.count Key.ringProducer 32 with recordIrqHeld := true }

/-- RESULT_RECORD (R219, R220): the oldest due record is written, discarded where RING_BASE is 0, or waits for a credit (FS088) or for the link (R341). After a
machine check none is written. -/
def execResultRecord (s : State) : Out :=
  .next (match s.burst.records with
    | [] => s
    | r :: rest =>
      let gone := { s with burst := { s.burst with records := rest } }
      if s.machineCheck then s
      else if s.get Key.ringBase = 0 then gone.count Key.recordsDiscarded 32
      else if !s.pcieUp then s
      else if s.ringFree = 0 ∨ 4096 < s.ringFree then s.fault 88 .none 0
      else gone.writeRecord r)

/-- RING_CONSUMER_WRITE (R219). -/
def execRingConsumerWrite (p : Path) (value : Word) (s : State) : Out := .next (s.accessPlain p 0 Key.ringConsumer value)

/-- RING_BASE_WRITE (R219). -/
def execRingBaseWrite (p : Path) (value : Word) (s : State) : Out := .next (s.accessPlain p 0 Key.ringBase value)

/-! ## Notifications -/

/-- The changes a subscription has to report (R56). DESIGN CHOICE (log entry 140): an object that is computed as it is read has changed once where its value is not the one
reported last. -/
def State.changesOf (s : State) (x : Subscription) : Nat := if x.changes = 0 ∧ s.value x.key ≠ x.last then 1 else x.changes

/-- The minimum interval of a subscription has passed since its last notification (R56). -/
def State.intervalOver (s : State) (x : Subscription) : Bool :=
  match x.sent with
  | some r => decide (r + 800 * x.interval ≤ s.raw)
  | none => true

/-- The two messages of a notification (R56). -/
def State.noticeOf (s : State) (x : Subscription) : List Message :=
  [{ opcode := 0x20, last := false, dflt := false, status := 0, index := BitVec.ofNat 8 (satTo 255 (s.changesOf x)), key := BitVec.ofNat 32 x.key, value := s.value x.key },
   { opcode := 0x21, last := false, dflt := false, status := 0, index := 0, key := BitVec.ofNat 32 x.key, value := toWord (shortTime s.now) }]

/-- The subscription's changes are reported, or dropped. -/
def State.noticeTaken (s : State) (x : Subscription) : State :=
  { s with subs := s.subs.map (fun y => if y = x then { y with changes := 0, last := s.value x.key, sent := some s.raw } else y) }

/-- A notification is dropped (R57): NOTIFY_LOST and FS087. -/
def State.noticeLost (s : State) : State := (s.count Key.notifyLost 32).fault 87 .none 0

/-- The 64 bytes of event-ring entry `p` (R342). -/
def eventEntry (p entries session : Nat) (ms : List Message) : List Byte :=
  leBytes 16 (packFields [(0, 1, 1 - p / entries % 2), (32, 32, p), (64, 32, session)]) ++ ms.flatMap messageBytes ++ leBytes 16 0

/-- A notification goes to the event ring. -/
def State.toEventRing (s : State) (session : Nat) (ms : List Message) : State :=
  let n := (s.get Key.eventRingEntries).toNat
  let p := (s.get Key.eventProducer).toNat
  let used := (p + 2 ^ 32 - (s.get Key.eventConsumer).toNat) % 2 ^ 32
  if s.get Key.eventRingBase = 0 ∨ n ≤ used then s.noticeLost
  else ((s.emit (.hostWrite ((s.get Key.eventRingBase).toNat + 64 * (p % n)) (eventEntry p n session ms))).count Key.eventProducer 32).irq Irq.event

/-- A notification goes out on an Ethernet session in an authenticated batch with the session's next counter. -/
def State.toSession (s : State) (x : Session) (ms : List Message) : State :=
  if !bit (s.get Key.ethStatus) 0 then s.noticeLost
  else
    let n := x.sendCounter + 1
    let next (y : Session) : Session := if y.id = x.id then { y with sendCounter := n } else y
    { s with sessions := s.sessions.map next }.emit (.ethBatch x.id n ms (s.batchTag x (answerHeader true x.id n ms) ms))

/-- The destination of a subscription goes to the event ring. -/
def State.eventDest (s : State) (p : Path) : Bool :=
  match p with
  | .session n => s.sessions.any (fun x => x.id == n && x.overMailbox)
  | _ => true

/-- NOTIFY (R56, R57): the destination's next report of the object, if it has changed and the minimum interval is over; entries wait while the PCI Express link is down. -/
def execNotify (p : Path) (key : Nat) (s : State) : Out :=
  .next (match s.subs.find? (fun x => decide (x.dest = p) && x.key == key) with
    | none => s
    | some x =>
      if s.changesOf x = 0 ∨ !s.intervalOver x ∨ s.mode = Mode.reset ∨ s.mode = Mode.boot ∨ (s.eventDest p ∧ !s.pcieUp) then s
      else
        let ms := s.noticeOf x
        let s := s.noticeTaken x
        match p with
        | .session n =>
          (match s.sessions.find? (fun y => y.id == n) with
           | some y => if y.overMailbox then s.toEventRing n ms else s.toSession y ms
           | none => s.noticeLost)
        | _ => s.toEventRing 0 ms)

/-- EVENT_CONSUMER_WRITE (R342). -/
def execEventConsumerWrite (p : Path) (value : Word) (s : State) : Out := .next (s.accessPlain p 0 Key.eventConsumer value)

/-! ## Coalescing (R343, R380) -/

/-- INTERRUPT_COALESCING: the window of the FAULT or of the RECORD source ends, and a held message is sent. -/
def execInterruptCoalescing (record : Bool) (s : State) : Out :=
  .next (if record then (if s.recordIrqHeld then { s with recordIrqHeld := false }.irq Irq.record else s)
    else if s.faultIrqHeld then { s with faultIrqHeld := false }.irq Irq.fault
    else { s with faultWindow := false })

end Sys2Proof.Machine
end

