-- ==== Sys2Proof/Machine/Sessions.lean ====
section
/-! DEFINITION. Sessions and batches (R46-R51, R53, R330): opening, confirming and closing a session, a batch over Ethernet, a submission through the mailbox. -/

namespace Sys2Proof.Machine

/-! ## Sessions (R47, R48, R50) -/

/-- A session with a number on one of the two paths. -/
def State.sessionOf (s : State) (n : Nat) : Option Session := s.sessions.find? (fun x => x.id == n)

/-- The key slot is empty: its 32 bytes are zero (R47). -/
def State.slotEmpty (s : State) (slot : Nat) : Bool := (List.range 4).all (fun e => s.get (Key.sessionKey slot e) == 0)

/-- A session number the device gives: not zero and not in use; which one the spec leaves open. -/
def pickSession (used : List Nat) (v : Nat) : Nat :=
  ((List.range 10).map (fun i => (v + i) % 4294967296)).find? (fun n => n != 0 && !used.contains n) |>.getD 1

/-- SESSION_OPEN: its code, the session number (0 where refused), the state with its answer. -/
def State.openSession (s : State) (overMailbox : Bool) (slot : Nat) (clientNonce : Word) : Nat × State :=
  let c := refuse [(s.mode == Mode.boot, .wrongMode), (decide (8 ≤ slot), .range), (s.slotEmpty slot, .authFail), (decide (8 ≤ s.sessions.length), .sessionFull)]
  if c ≠ .ok then (0, s.refuseMessage 0x10 0 c slot)
  else
    let d := s.free
    let r := d.2.free
    let n := pickSession (s.sessions.map Session.id) r.1.toNat
    let x : Session :=
      { id := n, overMailbox := overMailbox, slot := slot, clientNonce := clientNonce, deviceNonce := d.1, confirmed := false, lastCounter := 0, lastBatch := none, cached := [], cachedCounter := 0,
        sendCounter := 0 }
    (n, { r.2 with sessions := s.sessions ++ [x] }.refreshSessions.answerWith 0x10 .ok slot d.1)

/-- SESSION_OPEN. -/
def execSessionOpen (overMailbox : Bool) (slot : Nat) (clientNonce : Word) (s : State) : Out :=
  .next (if s.mode = Mode.reset then s else (s.openSession overMailbox slot clientNonce).2)

/-- `s` with a session replaced. -/
def State.putSession (s : State) (x : Session) : State := { s with sessions := s.sessions.map (fun y => if y.id = x.id then x else y) }

/-- SESSION_CONFIRM: the first batch a session carries, with counter 1. -/
def State.confirm (s : State) (n counter : Nat) : State :=
  match s.sessionOf n with
  | none => s.refuseMessage 0x11 0 .noSession 0
  | some x =>
    if x.confirmed then s.refuseMessage 0x11 0 .badFormat 0
    else if counter ≠ 1 then s.refuseMessage 0x11 0 .noSession 0
    else (s.putSession { x with confirmed := true, lastCounter := 1 }).answerWith 0x11 .ok 0 0

def execSessionConfirm (n : Nat) (counter : Word) (s : State) : Out := .next (if s.mode = Mode.reset then s else s.confirm n counter.toNat)

/-- SESSION_CLOSE. -/
def State.closeOne (s : State) (n : Nat) : State :=
  match s.sessionOf n with
  | none => s.refuseMessage 0x12 0 .noSession 0
  | some _ => (s.closeSessions (fun x => x.id == n)).answerWith 0x12 .ok 0 0

def execSessionClose (n : Nat) (s : State) : Out := .next (if s.mode = Mode.reset then s else s.closeOne n)

/-- SESSION_IDLE_TIMEOUT. -/
def execSessionIdleTimeout (n : Nat) (s : State) : Out := .next (if (s.sessionOf n).isSome then s.closeSessions (fun x => x.id == n) else s)

/-! ## Messages of a batch (R44, R45) -/

/-- One message of a batch on a path; `counter` is the batch's. -/
def State.message (s : State) (p : Path) (overMailbox : Bool) (counter : Nat) (m : Message) : State :=
  let key := m.key.toNat
  let bad (c : Code) : State := s.refuseMessage m.opcode m.index.toNat c key
  if !hostOpcode m.opcode.toNat then bad .badFormat
  else if s.mode = Mode.boot then s.romMessage p m
  else match m.opcode.toNat with
    | 0x01 => s.readAt p m.dflt m.index.toNat key
    | 0x02 => s.writeAt p m.index.toNat key m.value
    | 0x03 => s.subscribeAt p key m.value
    | 0x04 => s.unsubscribeAt p key
    | 0x10 => if p = .noSession then (s.openSession overMailbox key m.value).2 else bad .badFormat
    | 0x11 => (match p with | .session n => s.confirm n counter | .noSession => bad .noSession | _ => bad .badFormat)
    | _ => (match p with | .session n => s.closeOne n | .noSession => bad .noSession | _ => bad .badFormat)

/-- The messages of a batch applied in order, its answers afresh. -/
def State.runBatch (s : State) (p : Path) (overMailbox : Bool) (b : Batch) : State :=
  let s := { s with answers := [] }
  if b.atomic && s.mode != Mode.boot then s.groupAt p b.messages
  else b.messages.foldl (fun t m => t.message p overMailbox b.counter.toNat m) s

/-- Every message of a batch answered with one code. -/
def State.refuseBatch (s : State) (c : Code) (b : Batch) : State :=
  b.messages.foldl (fun t m => t.refuseMessage m.opcode m.index.toNat c m.key.toNat) { s with answers := [] }

/-- What is wrong with a framed batch before its session is looked at (R46). -/
def frameCode (b : Batch) : Code :=
  refuse [(b.version != 1, .badVersion), (b.messages.length == 0 || decide (64 < b.messages.length) || b.count.toNat != b.messages.length, .badFormat)]

/-! ## Sending the answer -/

/-- The answers of a batch leave: header, messages and, with a session, its tag; over the mailbox they lie in the response area, DONE is set and the vector signalled. -/
def State.reply (s : State) (overMailbox : Bool) (header : List Byte) (session counter : Nat) (tag : List Byte) : State :=
  if overMailbox then { s with mailbox := header ++ s.answers.flatMap messageBytes ++ tag, mailboxDone := true }.irq Irq.mailbox
  else s.emit (.ethBatch session counter s.answers tag)

/-- An answer without a tag. -/
def State.replyPlain (s : State) (overMailbox : Bool) (session : Nat) : State := s.reply overMailbox (answerHeader false session 0 s.answers) session 0 []

/-- The answers of a session, under the key that `k` gives it. -/
def State.replySession (s k : State) (x : Session) (counter : Nat) : State :=
  let h := answerHeader true x.id counter s.answers
  s.reply x.overMailbox h x.id counter (k.batchTag x h s.answers)

/-! ## A framed batch (R46-R51) -/

/-- The session that a batch without a session opened, for the header of its answer (R44). -/
def newSession (before after : State) : Nat :=
  match after.sessions.getLast? with
  | some x => if before.sessions.any (fun y => y.id == x.id) then 0 else x.id
  | none => 0

/-- A batch that its session's tag or counter rejects (R49): discarded over Ethernet, answered over the mailbox, and counted. -/
def State.rejectBatch (s : State) (overMailbox : Bool) (c : Code) (counterKey : Nat) (b : Batch) : State :=
  let s := if c = .authFail then s.authFailed else s.count counterKey 32
  if overMailbox then (s.refuseBatch c b).replyPlain true b.session.toNat else s

/-- A batch that a session accepts: applied, answered with the session's next counter, the answer cached (R49). -/
def State.acceptBatch (s : State) (x : Session) (b : Batch) : State :=
  let n := x.sendCounter + 1
  let t := (s.putSession { x with lastCounter := b.counter.toNat }).runBatch (.session x.id) x.overMailbox b
  let t := match t.sessionOf x.id with
    | some y => t.putSession { y with lastBatch := some b, cached := t.answers, cachedCounter := n, sendCounter := max n y.sendCounter }
    | none => t
  t.replySession s x n

/-- The batch confirms its session: one SESSION_CONFIRM, counter 1 (R48). -/
def confirms (b : Batch) : Bool := b.counter == 1 && b.messages.length == 1 && b.messages.all (fun m => m.opcode == 0x11)

/-- A batch that names a session. -/
def State.sessionBatch (s : State) (overMailbox : Bool) (b : Batch) : State :=
  match s.sessions.find? (fun x => x.id == b.session.toNat && x.overMailbox == overMailbox) with
  | none => s.rejectBatch overMailbox .authFail Key.authFailCount b
  | some x =>
    if !b.auth || b.tag != s.batchTag x (headerBytes b) b.messages then s.rejectBatch overMailbox .authFail Key.authFailCount b
    else if b.counter.toNat ≤ x.lastCounter then
      if x.lastBatch = some b then { s with answers := x.cached }.replySession s x x.cachedCounter
      else s.rejectBatch overMailbox .replay Key.replayCount b
    else if !x.confirmed && !confirms b then (s.refuseBatch .noSession b).replyPlain overMailbox x.id
    else s.acceptBatch x b

/-- A framed batch, by either path. -/
def State.framed (s : State) (overMailbox : Bool) (b : Batch) : State :=
  let c := frameCode b
  if c ≠ .ok then (s.refuseBatch c b).replyPlain overMailbox b.session.toNat
  else if b.session = 0 ∨ s.mode = Mode.boot then let t := s.runBatch .noSession overMailbox b; t.replyPlain overMailbox (newSession s t)
  else s.sessionBatch overMailbox b

/-- DICT_BATCH: over Ethernet, from the end of BOOT on and while the link is up (R36, R313). -/
def execDictBatch (b : Batch) (s : State) : Out := .next (if s.mode < Mode.train ∨ !s.ethUp then s else s.framed false b)

/-! ## The mailbox (R53, R330) -/

/-- A doorbell write that is ignored (R53, R330): MBOX_OVERRUNS and FS089. -/
def State.overrun (s : State) : State := (s.count Key.mboxOverruns 32).fault 89 .none 0

/-- MAILBOX_DOORBELL. -/
def State.ringDoorbell (s : State) (count : Nat) (framed : Bool) (b : Batch) : State :=
  if count = 0 ∨ 64 < count ∨ !s.mailboxDone then s.overrun
  else if framed then s.framed true b
  else
    let t := s.runBatch .mailbox true { b with messages := b.messages.take count, atomic := false }
    t.reply true [] 0 0 []

def execMailboxDoorbell (count : Nat) (framed : Bool) (b : Batch) (s : State) : Out := .next (if s.hostOn then s.ringDoorbell count framed b else s)

end Sys2Proof.Machine
end

