-- ==== Sys2Proof/Machine/Dispatch.lean ====
section
/-! DEFINITION. The dispatch: one arm per command, each one direct call of its meaning. -/

namespace Sys2Proof.Machine

def exec (i : Instr) (s : State) : Host.Outcome State Fault Refusal :=
  match i with
  | .dictBatch b => Sys2Proof.Machine.execDictBatch b s
  | .mailboxDoorbell count framed b => Sys2Proof.Machine.execMailboxDoorbell count framed b s
  | .atomicGroup p ms => Sys2Proof.Machine.execAtomicGroup p ms s
  | .read p dflt index key => Sys2Proof.Machine.execRead p dflt index key s
  | .write p last index key value => Sys2Proof.Machine.execWrite p last index key value s
  | .subscribe p key value => Sys2Proof.Machine.execSubscribe p key value s
  | .unsubscribe p key => Sys2Proof.Machine.execUnsubscribe p key s
  | .sessionOpen overMailbox slot clientNonce => Sys2Proof.Machine.execSessionOpen overMailbox slot clientNonce s
  | .sessionConfirm n counter => Sys2Proof.Machine.execSessionConfirm n counter s
  | .sessionClose n => Sys2Proof.Machine.execSessionClose n s
  | .sessionIdleTimeout n => Sys2Proof.Machine.execSessionIdleTimeout n s
  | .notify p key => Sys2Proof.Machine.execNotify p key s
  | .hotWindowWrite slot offset width value => Sys2Proof.Machine.execHotWindowWrite slot offset width value s
  | .bar0StrayWrite => Sys2Proof.Machine.execBar0StrayWrite s
  | .bar2Write addr data => Sys2Proof.Machine.execBar2Write addr data s
  | .bar2Read addr len ecc => Sys2Proof.Machine.execBar2Read addr len ecc s
  | .dictPersist p arg => Sys2Proof.Machine.execDictPersist p arg s
  | .dictPersistDone ok => Sys2Proof.Machine.execDictPersistDone ok s
  | .dictRevert p arg => Sys2Proof.Machine.execDictRevert p arg s
  | .requestTrain p => Sys2Proof.Machine.execRequestTrain p s
  | .requestIdle p => Sys2Proof.Machine.execRequestIdle p s
  | .requestLoad p => Sys2Proof.Machine.execRequestLoad p s
  | .requestArmed p => Sys2Proof.Machine.execRequestArmed p s
  | .requestDiagnose p => Sys2Proof.Machine.execRequestDiagnose p s
  | .requestCalibrate p => Sys2Proof.Machine.execRequestCalibrate p s
  | .requestService p => Sys2Proof.Machine.execRequestService p s
  | .requestQuiesce p => Sys2Proof.Machine.execRequestQuiesce p s
  | .modeChangeDone => Sys2Proof.Machine.execModeChangeDone s
  | .loadCheck p arg => Sys2Proof.Machine.execLoadCheck p arg s
  | .loadChecksDone => Sys2Proof.Machine.execLoadChecksDone s
  | .calibrateAutoExit => Sys2Proof.Machine.execCalibrateAutoExit s
  | .returnToArmed => Sys2Proof.Machine.execReturnToArmed s
  | .sliceDiagRequest p arg => Sys2Proof.Machine.execSliceDiagRequest p arg s
  | .diagStart p => Sys2Proof.Machine.execDiagStart p s
  | .diagStop p => Sys2Proof.Machine.execDiagStop p s
  | .diagRunDone obs => Sys2Proof.Machine.execDiagRunDone obs s
  | .burstStart p arg => Sys2Proof.Machine.execBurstStart p arg s
  | .burstLaunch late => Sys2Proof.Machine.execBurstLaunch late s
  | .burstStop p arg => Sys2Proof.Machine.execBurstStop p arg s
  | .auditDrainEnd drainNs => Sys2Proof.Machine.execAuditDrainEnd drainNs s
  | .auditDrainTimeout => Sys2Proof.Machine.execAuditDrainTimeout s
  | .dispatch core => Sys2Proof.Machine.execDispatch core s
  | .preempt core => Sys2Proof.Machine.execPreempt core s
  | .spanArrival slice thread seq => Sys2Proof.Machine.execSpanArrival slice thread seq s
  | .spanCreditReturn slice thread => Sys2Proof.Machine.execSpanCreditReturn slice thread s
  | .fetchComplete thread => Sys2Proof.Machine.execFetchComplete thread s
  | .cycleStart thread obs missing uword => Sys2Proof.Machine.execCycleStart thread obs missing uword s
  | .adv thread rep => Sys2Proof.Machine.execAdv thread rep s
  | .segm thread label trigen trigout rep => Sys2Proof.Machine.execSegm thread label trigen trigout rep s
  | .trigTrigout thread unit rep => Sys2Proof.Machine.execTrigTrigout thread unit rep s
  | .trigTiuArm thread unit rep => Sys2Proof.Machine.execTrigTiuArm thread unit rep s
  | .trigAdcStart thread mask rep => Sys2Proof.Machine.execTrigAdcStart thread mask rep s
  | .trigDacLoad thread group rep => Sys2Proof.Machine.execTrigDacLoad thread group rep s
  | .trigAcqArm thread unit rep => Sys2Proof.Machine.execTrigAcqArm thread unit rep s
  | .trigRing thread line rep => Sys2Proof.Machine.execTrigRing thread line rep s
  | .capcFullcap thread fullcap judge sig rep => Sys2Proof.Machine.execCapcFullcap thread fullcap judge sig rep s
  | .capcJudge thread fullcap judge sig rep => Sys2Proof.Machine.execCapcJudge thread fullcap judge sig rep s
  | .capcSig thread fullcap judge sig rep => Sys2Proof.Machine.execCapcSig thread fullcap judge sig rep s
  | .flag thread setuf clruf rcn rcpub rcval rep => Sys2Proof.Machine.execFlag thread setuf clruf rcn rcpub rcval rep s
  | .loop thread ctr count rep => Sys2Proof.Machine.execLoop thread ctr count rep s
  | .halt thread rep => Sys2Proof.Machine.execHalt thread rep s
  | .jmp thread cond inv target => Sys2Proof.Machine.execJmp thread cond inv target s
  | .call thread cond inv target => Sys2Proof.Machine.execCall thread cond inv target s
  | .ret thread cond inv => Sys2Proof.Machine.execRet thread cond inv s
  | .lend thread ctr target => Sys2Proof.Machine.execLend thread ctr target s
  | .pref thread target => Sys2Proof.Machine.execPref thread target s
  | .sync thread partner send wait => Sys2Proof.Machine.execSync thread partner send wait s
  | .matchStart thread body timeout inv => Sys2Proof.Machine.execMatchStart thread body timeout inv s
  | .matchExit thread => Sys2Proof.Machine.execMatchExit thread s
  | .waittrig thread source timeout => Sys2Proof.Machine.execWaittrig thread source timeout s
  | .waittrigTimeout thread => Sys2Proof.Machine.execWaittrigTimeout thread s
  | .waittime thread time => Sys2Proof.Machine.execWaittime thread time s
  | .waittimeWake thread => Sys2Proof.Machine.execWaittimeWake thread s
  | .syncToken thread sender t => Sys2Proof.Machine.execSyncToken thread sender t s
  | .hostJump p thread arg => Sys2Proof.Machine.execHostJump p thread arg s
  | .hostJumpTaken thread => Sys2Proof.Machine.execHostJumpTaken thread s
  | .hostTrig p value => Sys2Proof.Machine.execHostTrig p value s
  | .resultRecord => Sys2Proof.Machine.execResultRecord s
  | .ringConsumerWrite p value => Sys2Proof.Machine.execRingConsumerWrite p value s
  | .ringBaseWrite p value => Sys2Proof.Machine.execRingBaseWrite p value s
  | .eventConsumerWrite p value => Sys2Proof.Machine.execEventConsumerWrite p value s
  | .dmaDoorbell ch producer descs => Sys2Proof.Machine.execDmaDoorbell ch producer descs s
  | .dmaRun ch haltOnErr => Sys2Proof.Machine.execDmaRun ch haltOnErr s
  | .dmaStop ch => Sys2Proof.Machine.execDmaStop ch s
  | .descBaseWrite ch reg value => Sys2Proof.Machine.execDescBaseWrite ch reg value s
  | .descriptorClose ch data uncorrectable => Sys2Proof.Machine.execDescriptorClose ch data uncorrectable s
  | .dmaHostError ch cause data => Sys2Proof.Machine.execDmaHostError ch cause data s
  | .hostIslandReset => Sys2Proof.Machine.execHostIslandReset s
  | .pcieLinkDown longOrWaiting => Sys2Proof.Machine.execPcieLinkDown longOrWaiting s
  | .fernAlign p arg din roundTrip => Sys2Proof.Machine.execFernAlign p arg din roundTrip s
  | .fernAlignLocal p => Sys2Proof.Machine.execFernAlignLocal p s
  | .fernAlignTimeout noReturn => Sys2Proof.Machine.execFernAlignTimeout noReturn s
  | .fsyncPulse => Sys2Proof.Machine.execFsyncPulse s
  | .fernReturn roundTrip => Sys2Proof.Machine.execFernReturn roundTrip s
  | .frefLoss => Sys2Proof.Machine.execFrefLoss s
  | .ringForm p => Sys2Proof.Machine.execRingForm p s
  | .ringFormTimeout reason position => Sys2Proof.Machine.execRingFormTimeout reason position s
  | .flitForm portA f => Sys2Proof.Machine.execFlitForm portA f s
  | .flitMeasure portA f tick grid => Sys2Proof.Machine.execFlitMeasure portA f tick grid s
  | .flitStartReq portA f => Sys2Proof.Machine.execFlitStartReq portA f s
  | .flitLaunch portA f => Sys2Proof.Machine.execFlitLaunch portA f s
  | .flitCond portA f => Sys2Proof.Machine.execFlitCond portA f s
  | .flitToken portA f => Sys2Proof.Machine.execFlitToken portA f s
  | .flitTrig portA f => Sys2Proof.Machine.execFlitTrig portA f s
  | .flitBreak portA f => Sys2Proof.Machine.execFlitBreak portA f s
  | .flitErrored portA f => Sys2Proof.Machine.execFlitErrored portA f s
  | .ringDue => Sys2Proof.Machine.execRingDue s
  | .ringLinkDown portB => Sys2Proof.Machine.execRingLinkDown portB s
  | .triginEdge n high => Sys2Proof.Machine.execTriginEdge n high s
  | .trigoutPulse p arg => Sys2Proof.Machine.execTrigoutPulse p arg s
  | .trigoutEnd n => Sys2Proof.Machine.execTrigoutEnd n s
  | .tiuArm p u => Sys2Proof.Machine.execTiuArm p u s
  | .tiuDisarm p u => Sys2Proof.Machine.execTiuDisarm p u s
  | .tiuEdge u onB e tick since => Sys2Proof.Machine.execTiuEdge u onB e tick since s
  | .tiuGateEnd u => Sys2Proof.Machine.execTiuGateEnd u s
  | .tiuTimeout u => Sys2Proof.Machine.execTiuTimeout u s
  | .tiuHoldoffEnd u => Sys2Proof.Machine.execTiuHoldoffEnd u s
  | .adcStart p n => Sys2Proof.Machine.execAdcStart p n s
  | .adcStop p n => Sys2Proof.Machine.execAdcStop p n s
  | .adcConversion n code => Sys2Proof.Machine.execAdcConversion n code s
  | .acqArm p u => Sys2Proof.Machine.execAcqArm p u s
  | .acqDisarm p u => Sys2Proof.Machine.execAcqDisarm p u s
  | .acqForce p u => Sys2Proof.Machine.execAcqForce p u s
  | .acqSample u edge => Sys2Proof.Machine.execAcqSample u edge s
  | .acqGroupFire u => Sys2Proof.Machine.execAcqGroupFire u s
  | .acqRearmEnd u => Sys2Proof.Machine.execAcqRearmEnd u s
  | .acqRelease p u value => Sys2Proof.Machine.execAcqRelease p u value s
  | .failRateInterval port => Sys2Proof.Machine.execFailRateInterval port s
  | .dieTempSample t => Sys2Proof.Machine.execDieTempSample t s
  | .dacLoad p arg => Sys2Proof.Machine.execDacLoad p arg s
  | .dacParkWrite p dac value => Sys2Proof.Machine.execDacParkWrite p dac value s
  | .dacCompliance dac mv => Sys2Proof.Machine.execDacCompliance dac mv s
  | .dacModulator dac => Sys2Proof.Machine.execDacModulator dac s
  | .slotArm p n => Sys2Proof.Machine.execSlotArm p n s
  | .slotCancel p n => Sys2Proof.Machine.execSlotCancel p n s
  | .slotLaunch n => Sys2Proof.Machine.execSlotLaunch n s
  | .slotAction n => Sys2Proof.Machine.execSlotAction n s
  | .timeLatch p arg => Sys2Proof.Machine.execTimeLatch p arg s
  | .timeStepPending p => Sys2Proof.Machine.execTimeStepPending p s
  | .timeStepSet p => Sys2Proof.Machine.execTimeStepSet p s
  | .ptpSync origin capture => Sys2Proof.Machine.execPtpSync origin capture s
  | .ptpMessage portState times => Sys2Proof.Machine.execPtpMessage portState times s
  | .holdoverTimeout => Sys2Proof.Machine.execHoldoverTimeout s
  | .ptmCorr p arg enabled => Sys2Proof.Machine.execPtmCorr p arg enabled s
  | .ptmResponse t1 t4 t2 t3 => Sys2Proof.Machine.execPtmResponse t1 t4 t2 t3 s
  | .ptmTimeout => Sys2Proof.Machine.execPtmTimeout s
  | .ethFrame kind toDevice len tagged => Sys2Proof.Machine.execEthFrame kind toDevice len tagged s
  | .ethLinkDown => Sys2Proof.Machine.execEthLinkDown s
  | .reqCmd p slot arg => Sys2Proof.Machine.execReqCmd p slot arg s
  | .calCancel p arg => Sys2Proof.Machine.execCalCancel p arg s
  | .routineStart => Sys2Proof.Machine.execRoutineStart s
  | .conditionalWaitEnd timedOut => Sys2Proof.Machine.execConditionalWaitEnd timedOut s
  | .routineCommit deskew units => Sys2Proof.Machine.execRoutineCommit deskew units s
  | .postCommitEnd => Sys2Proof.Machine.execPostCommitEnd s
  | .routineOverrun => Sys2Proof.Machine.execRoutineOverrun s
  | .reqDeadline slot => Sys2Proof.Machine.execReqDeadline slot s
  | .driftTracking sl lag => Sys2Proof.Machine.execDriftTracking sl lag s
  | .driftCorrectionApply sl => Sys2Proof.Machine.execDriftCorrectionApply sl s
  | .driftLimit sl => Sys2Proof.Machine.execDriftLimit sl s
  | .eyeAggregation sl => Sys2Proof.Machine.execEyeAggregation sl s
  | .marginError g => Sys2Proof.Machine.execMarginError g s
  | .laneTxFault g => Sys2Proof.Machine.execLaneTxFault g s
  | .laneRxOpen g => Sys2Proof.Machine.execLaneRxOpen g s
  | .slicePllUnlock sl => Sys2Proof.Machine.execSlicePllUnlock sl s
  | .slicePllLock sl => Sys2Proof.Machine.execSlicePllLock sl s
  | .adcReferenceCheck ok => Sys2Proof.Machine.execAdcReferenceCheck ok s
  | .nvmVerify page ok => Sys2Proof.Machine.execNvmVerify page ok s
  | .faultRaise rs => Sys2Proof.Machine.execFaultRaise rs s
  | .faultCauseClear p el value => Sys2Proof.Machine.execFaultCauseClear p el value s
  | .faultCauseRead p el => Sys2Proof.Machine.execFaultCauseRead p el s
  | .firstFaultRead p hist el => Sys2Proof.Machine.execFirstFaultRead p hist el s
  | .ffClear p arg => Sys2Proof.Machine.execFfClear p arg s
  | .faultInject p arg => Sys2Proof.Machine.execFaultInject p arg s
  | .faultInjectTimeout => Sys2Proof.Machine.execFaultInjectTimeout s
  | .quietPeriod => Sys2Proof.Machine.execQuietPeriod s
  | .safeUnlatch p arg => Sys2Proof.Machine.execSafeUnlatch p arg s
  | .guardCommit p arg => Sys2Proof.Machine.execGuardCommit p arg s
  | .guardCommitDone ok => Sys2Proof.Machine.execGuardCommitDone ok s
  | .guardUnlocked => Sys2Proof.Machine.execGuardUnlocked s
  | .watchdogKick => Sys2Proof.Machine.execWatchdogKick s
  | .watchdogExpiry => Sys2Proof.Machine.execWatchdogExpiry s
  | .bbNote p value => Sys2Proof.Machine.execBbNote p value s
  | .ledgerSecond temps => Sys2Proof.Machine.execLedgerSecond temps s
  | .ledgerSnapshot => Sys2Proof.Machine.execLedgerSnapshot s
  | .fwActivate p arg => Sys2Proof.Machine.execFwActivate p arg s
  | .powerOnReset rails => Sys2Proof.Machine.execPowerOnReset rails s
  | .resetNLow => Sys2Proof.Machine.execResetNLow s
  | .deviceReset p arg => Sys2Proof.Machine.execDeviceReset p arg s
  | .deviceResetTaken => Sys2Proof.Machine.execDeviceResetTaken s
  | .tapReset => Sys2Proof.Machine.execTapReset s
  | .resetRelease released pwrfailHigh slot0 slot1 fwVersion => Sys2Proof.Machine.execResetRelease released pwrfailHigh slot0 slot1 fwVersion s
  | .bootDone ms => Sys2Proof.Machine.execBootDone ms s
  | .trainDone ms ddr deskew => Sys2Proof.Machine.execTrainDone ms ddr deskew s
  | .pwrfail => Sys2Proof.Machine.execPwrfail s
  | .powerFailRecord => Sys2Proof.Machine.execPowerFailRecord s
  | .quiesceFlushed => Sys2Proof.Machine.execQuiesceFlushed s
  | .dramRead addr ecc => Sys2Proof.Machine.execDramRead addr ecc s
  | .dramWrite addr data ecc => Sys2Proof.Machine.execDramWrite addr data ecc s
  | .writeDrain subch => Sys2Proof.Machine.execWriteDrain subch s
  | .refreshDue subch rank paid => Sys2Proof.Machine.execRefreshDue subch rank paid s
  | .refreshRatePoll subch rank rate => Sys2Proof.Machine.execRefreshRatePoll subch rank rate s
  | .act subch rank bank row => Sys2Proof.Machine.execAct subch rank bank row s
  | .actWindowReset subch rank => Sys2Proof.Machine.execActWindowReset subch rank s
  | .retrainPause subch lane writeDir eye mid => Sys2Proof.Machine.execRetrainPause subch lane writeDir eye mid s
  | .retrainEnd subch => Sys2Proof.Machine.execRetrainEnd subch s
  | .ceRateCheck subch lane corrected => Sys2Proof.Machine.execCeRateCheck subch lane corrected s
  | .dramFillDone => Sys2Proof.Machine.execDramFillDone s
  | .liveBitClear source => Sys2Proof.Machine.execLiveBitClear source s
  | .pcieLinkUp => Sys2Proof.Machine.execPcieLinkUp s
  | .ethLinkUp speed => Sys2Proof.Machine.execEthLinkUp speed s
  | .ringLinkLock portB => Sys2Proof.Machine.execRingLinkLock portB s
  | .ringSlot tick grid => Sys2Proof.Machine.execRingSlot tick grid s
  | .fwActivateDone outcome => Sys2Proof.Machine.execFwActivateDone outcome s
  | .ptpEventFrameSend kind canInsert capture => Sys2Proof.Machine.execPtpEventFrameSend kind canInsert capture s
  | .interruptCoalescing record => Sys2Proof.Machine.execInterruptCoalescing record s

end Sys2Proof.Machine
end

