-- ==== Sys2Proof/Safety.lean ====
section
/-! DEFINITION. What a safe run is: the outcomes of a step by name, queues of well-formed commands, stores in canonical form, and what no command takes back. -/

namespace Sys2Proof.Machine

/-- The outcome is a next state. -/
def Completes (o : Host.Outcome State Fault Refusal) : Prop := ∃ t, o = .next t

/-- Every command waiting in the queue is well-formed. -/
def State.queueWf (s : State) : Prop := ∀ c ∈ s.pending, c.wf = true

/-- A sparse store is in canonical form: its keys rise, and no entry holds what its key reads as unlisted. -/
def storeWf {α : Type} [DecidableEq α] (d : Nat → α) (m : List (Nat × α)) : Bool := keysRise m && m.all (fun e => decide (e.2 ≠ d e.1))

/-- DDR5 as a list of cells is in canonical form; an unlisted byte reads 0 (R281). -/
def Memory.wf (m : List Host.Cell) : Bool := storeWf (fun _ => 0) m

/-- Every sparse store of the state is in canonical form: equal contents are equal data. -/
def State.canonical (s : State) : Bool :=
  storeWf shipped s.objs && Memory.wf s.cells && storeWf (fun _ => Thread.idle) s.threads && storeWf (fun _ => SliceSt.rest) s.slices &&
    storeWf (fun _ => s.laneBase) s.lanes && storeWf (fun _ => SubchSt.rest) s.subchs && storeWf (fun _ => DmaChan.rest) s.dma && storeWf (fun _ => AcqSt.rest) s.acqs

/-- What no command takes back: the queue of commands waiting is as it was, what was posted stays posted, and no free value is drawn twice. -/
def State.extends (s t : State) : Prop := t.pending = s.pending ∧ s.out <+: t.out ∧ s.freeCount ≤ t.freeCount

/-! ## Words the statements share -/

/-- A path on which the dictionary answers a message with its whole meaning: not the hot window, out of RESET and BOOT, and with a session where it needs one (R36, R51). -/
def State.serves (s : State) (p : Path) : Prop := p ≠ .hot ∧ s.mode ≠ Mode.reset ∧ s.mode ≠ Mode.boot ∧ s.hasSession p = true

/-- The last response is that of a write of `key`, with code `c` (R43, R58). -/
def State.answered (t : State) (key : Nat) (c : Code) : Prop := ∃ i v, t.answers.getLast? = some (response 0x02 c i key v)

/-- Every object but those of `ks` holds what it held. -/
def State.objectsBut (s t : State) (ks : List Nat) : Prop := ∀ k, k ∉ ks → t.get k = s.get k

/-- Who subscribed to what, at which interval: the subscriptions without the changes they have counted (R56). -/
def State.subscribed (s : State) : List (Path × Nat × Nat) := s.subs.map (fun x => (x.dest, x.key, x.interval))

/-- Nothing but objects (`ks` at most), the changes subscriptions count, answers and the free values drawn differs between two states. -/
def State.onlyObjects (s t : State) (ks : List Nat) : Prop :=
  s.objectsBut t ks ∧ t.subscribed = s.subscribed ∧ { t with objs := s.objs, subs := s.subs, answers := s.answers, freeCount := s.freeCount } = s

/-- The areas whose plain objects only hold their value: a write of one changes nothing else (R217, R248, R253 and R372 state what each is for). -/
def quietArea (key : Nat) : Bool := [0x12, 0x25, 0x30, 0x31, 0x41, 0x42, 0x50, 0x60, 0x61].contains (keyArea key)

/-- The mode requests with the mode each names (R61). -/
def modeRequests (p : Path) : List (Instr × Nat) :=
  [(.requestTrain p, Mode.train), (.requestIdle p, Mode.idle), (.requestLoad p, Mode.load), (.requestArmed p, Mode.armed), (.requestDiagnose p, Mode.diagnose),
   (.requestCalibrate p, Mode.calibrate), (.requestService p, Mode.service), (.requestQuiesce p, Mode.quiesce)]

/-- Nothing but thread `th` itself, its span credits, its issue count and its state word differs (with the event counter of HELD and the greatest
wait, R102, and the free values drawn). -/
def State.onlyThread (s t : State) (th : Nat) : Prop :=
  (∀ i, i ≠ th → t.thread i = s.thread i) ∧ s.objectsBut t [Key.cyclesIssued th, Key.threadState th, Key.heldEvents, Key.dispatchMaxNs] ∧ t.subscribed = s.subscribed ∧
    { t with objs := s.objs, subs := s.subs, threads := s.threads, slices := s.slices, freeCount := s.freeCount } = s

/-- Thread `th` has issued the row at its PC for `n` cycles with an event: the next sequence number, a credit on every slice of its ports (none where
the span is one staged outside the share, R120), the cycles and the port time (R25, R97, R104). -/
def State.issuedRow (s t : State) (th n : Nat) (ev : RowEvent) : Prop :=
  (∃ sp, (t.thread th).spans = (s.thread th).spans ++ [sp] ∧ sp.row = (s.thread th).pc ∧ sp.first = (s.thread th).cycles ∧ sp.left = n ∧ sp.event = ev ∧ sp.seq = (s.thread th).spanSeq) ∧
    (t.thread th).cycles = (s.thread th).cycles + n ∧ (t.thread th).issueTu = (s.thread th).issueTu + n * s.rowPeriod th (s.thread th).pc ∧
    (t.get (Key.cyclesIssued th)).toNat = ((s.get (Key.cyclesIssued th)).toNat + n) % 2 ^ 64 ∧ 
    (∀ sl ∈ s.threadSlices th, t.spanFree sl th + (if (s.thread th).stagedNext then 0 else 1) = s.spanFree sl th) ∧ s.onlyThread t th

/-- A core executes thread `th`'s word at once: RUNNING in BURST with a row to come and a free credit on every slice of its ports (R74, R99). -/
def State.ready (s : State) (th : Nat) : Prop := th < 3072 ∧ s.executes th = true ∧ s.hasCredit th = true

/-- The microword that a command has a core execute, with its thread (R104-R130). -/
def wordOf : Instr → Option (Nat × Uop)
  | .adv th rep => some (th, .adv rep)
  | .segm th label trigen trigout rep => some (th, .segm label trigen trigout rep)
  | .trigTrigout th u rep => some (th, .trig 0 u 0 rep)
  | .trigTiuArm th u rep => some (th, .trig 1 u 0 rep)
  | .trigAdcStart th m rep => some (th, .trig 2 0 m rep)
  | .trigDacLoad th g rep => some (th, .trig 3 g 0 rep)
  | .trigAcqArm th u rep => some (th, .trig 4 u 0 rep)
  | .trigRing th l rep => some (th, .trig 5 l 0 rep)
  | .capcFullcap th f j g rep | .capcJudge th f j g rep | .capcSig th f j g rep => some (th, .capc f j g rep)
  | .flag th setuf clruf n pub v rep => some (th, .flag setuf.toNat clruf.toNat n pub v rep)
  | .loop th ctr count rep => some (th, .loop ctr count rep)
  | .halt th rep => some (th, .halt rep)
  | .jmp th c inv target => some (th, .jmp c inv target)
  | .call th c inv target => some (th, .call c inv target)
  | .ret th c inv => some (th, .ret c inv)
  | .lend th ctr target => some (th, .lend ctr target)
  | .pref th target => some (th, .pref target)
  | .sync th partner send wait => some (th, .sync partner send wait)
  | .matchStart th body timeout inv => some (th, .matchW body timeout inv)
  | .waittrig th source timeout => some (th, .waittrig source timeout)
  | .waittime th time => some (th, .waittime time)
  | _ => none

/-- Nothing takes trigger line `n`: no thread of a burst is there to wait for it, no acquisition unit is armed or fired by it, and no time-interval unit or ADC
names it as its line (R243, R248, R253, R257). -/
def State.lineFree (s : State) (n : Nat) : Prop :=
  s.burst.threads = [] ∧
    (∀ u, u < 8 → (bit (s.get (Key.acqCtrl u)) 21 = false ∨ s.getF (Key.acqCtrl u) 22 5 ≠ n) ∧ (bit (s.get (Key.acqCtrl u)) 15 = false ∨ s.getF (Key.acqCtrl u) 16 5 ≠ n)) ∧
    (∀ u, u < 16 → s.getF (Key.tiuCtrl u) 10 5 ≠ n ∧ s.getF (Key.adcCfg u) 7 5 ≠ n)

/-- A unit that measures counts an edge: on a selected input and slope, inside its gate, 1.25 ns or more after the last edge of that input (R246, R247, R249). -/
def State.countsEdge (s : State) (u : Nat) (onB : Bool) (e : InputEdge) (tick since : Nat) : Prop :=
  u < 16 ∧ s.unitsRun = true ∧ s.qualifies u onB e = true ∧ s.tiuInside u (s.tiuStamp u onB tick).1 = true ∧ s.tiuFull u (s.tiuStamp u onB tick).1 = false ∧ 1250 ≤ since

/-- No scheduled slot is ARMED: a change of the clock's model moves none (R311). -/
def State.slotsIdle (s : State) : Prop := ∀ n, n < 64 → s.slotState n ≠ 1

/-- A sound flit of another device reaches a member for the first time (R228). -/
def State.reached (s : State) (f : Flit) : Prop := s.ringEnabled = true ∧ s.mode ≠ Mode.reset ∧ flitOk f = true ∧ s.ownFlit f = false ∧ s.seenFlit { f with due := s.resolveDue f.due } = false

/-- Nothing but objects of `ks`, the ring and the outputs differs. -/
def State.onlyRing (s t : State) (ks : List Nat) : Prop := s.objectsBut t ks ∧ { t with objs := s.objs, subs := s.subs, ring := s.ring, out := s.out } = s

end Sys2Proof.Machine
end

