-- ==== Sys2Proof/Certificates/Slice0/Obligations.lean ====
section
/-! DEFINITION. The statements for the provers. Each says in its comment which rules of the spec it rests on. -/

open Sys2Proof Sys2Proof.Machine

/-! ## The block as a whole -/

/-- A step takes the command at the front of the queue and runs it on the state with the rest of the queue. -/
def Obligations.AStepRunsTheFrontCommand : Prop :=
  ∀ (s : State) (c : Instr) (rest : List Instr), s.pending = c :: rest → step s = exec c { s with pending := rest }

/-- The model's choice for an empty queue (log entry 2): one period of the raw clock. The raw count advances and, on every eighth from the edge of epoch 0 on, the
48-bit epoch counter; in RESET the counts stand (R305, R222, R224). With no DAC load waiting for its edge, no diagnostic run and no burst for the scrub to
read yet, nothing else changes but the scrub's own count. -/
def Obligations.AnEmptyQueueTicks : Prop :=
  ∀ s : State, s.pending = [] →
    (s.mode = Mode.reset → s.loadsDue = [] → s.diag = none → s.guardHits = [] → step s = .next s) ∧
    (∀ r r0 e : Nat, r = ((s.get Key.rawCount).toNat + 1) % 2 ^ 64 → r0 = (s.get Key.rawAtEpoch0).toNat → e = (s.get Key.epochCount).toNat →
      s.mode ≠ Mode.reset → s.loadsDue = [] → s.diag = none → s.guardHits = [] →
      (s.mode < Mode.idle ∨ Mode.safe < s.mode ∨ s.capacity = 0 ∨ s.scrubGain + s.capacity / 64 < s.scrubTicks) →
      ∃ t, step s = .next t ∧ (t.get Key.rawCount).toNat = r ∧
        ((r0 < r ∧ (r + 2 ^ 64 - r0) % 8 = 0 → (t.get Key.epochCount).toNat = (e + 1) % 2 ^ 48) ∧ (r ≤ r0 ∨ (r + 2 ^ 64 - r0) % 8 ≠ 0 → t.get Key.epochCount = s.get Key.epochCount)) ∧
        s.onlyObjects { t with scrubGain := s.scrubGain } [Key.rawCount, Key.epochCount])

/-- State.reset is the block right after reset (R40, R59, R408): in RESET with nothing waiting, every object but DEVICE_MODE at its default, DDR5 unlisted, no
session, no thread armed, every ring credit at home; it is in canonical form. -/
def Obligations.ResetIsAsStated : Prop :=
  State.reset.mode = Mode.reset ∧ State.reset.pending = [] ∧ (∀ k, k ≠ Key.deviceMode → State.reset.get k = shipped k) ∧ (∀ a, State.reset.byteAt a = 0) ∧ State.reset.sessions = [] ∧
    State.reset.armedThreads = [] ∧ State.reset.ring.quiet = true ∧ State.reset.canonical = true

/-- Every step keeps the stores in canonical form: equal contents stay equal data. -/
def Obligations.EveryStepKeepsTheStoresCanonical : Prop :=
  ∀ s t : State, s.canonical = true → step s = .next t → t.canonical = true

/-- No command touches the queue behind it, takes back what was posted, or draws a free value twice. -/
def Obligations.NoCommandTakesBack : Prop :=
  ∀ (c : Instr) (s t : State), exec c s = .next t → s.extends t

/-- Every well-formed command answers a next state in every state; the one stop is a unit that the device does not have, and no command is refused. -/
def Obligations.EveryWellFormedCommandCompletes : Prop :=
  ∀ (c : Instr) (s : State), (c.wf = true → ∃ t, exec c s = .next t) ∧ (∀ f, exec c s = .fault f → c.wf = false ∧ f = .noSuchUnit) ∧ (∀ r, exec c s ≠ .refused r)

/-- R106-R108: every microword whose fields lie in their ranges is decoded from its own encoding, a word decodes to at most that microword, and what decodes is
well-formed. -/
def Obligations.MicrowordsRoundTrip : Prop :=
  (∀ u : Uop, u.wf = true → decodeWord (encodeWord u) = some u) ∧ (∀ (w : Word) (u : Uop), decodeWord w = some u → u.wf = true ∧ encodeWord u = w)

/-! ## The dictionary (spec/02, spec/15) -/

/-- READ (R44, R45): on a serving path with the management core intact, a readable object that is neither a string nor a latched record answers OK with its
working value, or, where the message asks for its default, with that (with 0 for a session key's secret, R47), and the read changes nothing but the marks of
R379. A string object answers the piece that the index names, out of eight, and the read changes nothing; an index beyond them is refused RANGE. -/
def Obligations.ReadsAnswerTheValue : Prop :=
  ∀ (s : State) (p : Sys2Proof.Path) (dflt : Bool) (index key : Nat), s.serves p → s.machineCheck = false →
    (∀ r : ObjRow, rowOf key = some r → r.acc ≠ .wo → r.ty ≠ .str → isRecord key = false →
      ∃ t, exec (.read p dflt index key) s = .next t ∧
        t.answers = s.answers ++ [response 0x01 .ok index key (if dflt then (if isSecret key then 0 else s.defaultOf key) else s.value key)] ∧
        { t with answers := s.answers, watch := s.watch, histRead := s.histRead } = s) ∧
    (key = Key.vendorName ∨ key = Key.deviceName ∨ key = Key.orderingCode → index < 8 →
      exec (.read p dflt index key) s = .next (s.answer (response 0x01 .ok index key (stringPiece key index)))) ∧
    (key = Key.vendorName ∨ key = Key.deviceName ∨ key = Key.orderingCode → 8 ≤ index →
      ∃ v, exec (.read p dflt index key) s = .next (s.free.2.answer (response 0x01 .range index key v)))

/-- WRITE (R35, R36, R37): a write that no check of R37 refuses is answered OK. In an area whose plain objects only hold their value, a write of an RW or RWI
object that is not busy, in a mode that writes it, with a value of its type, its bits and its range, does so: the object reads as written and nothing else
changes, but that LOAD_STATUS becomes STALE where an RWI object changes (R82). A write of a plain object that is refused changes no object, whatever the
reason; one refused ENVELOPE also raises FS064 on its DAC (R271). One refused ENVELOPE raises FS064, located on the DAC, and is answered so. R36: an RO object
refuses every write READ_ONLY; outside IDLE and LOAD an RWI object refuses every write with WRONG_MODE, in QUIESCE an RW object, and outside SERVICE an RWG
object; with GUARD_UNLOCK_N high in SERVICE it is GUARD_LOCKED (no object has the access code RWS). -/
def Obligations.WritesAreServed : Prop :=
  (∀ (s : State) (p : Sys2Proof.Path) (last : Bool) (index key : Nat) (w : Word) (r : ObjRow), s.serves p → rowOf key = some r →
     (r.acc ≠ .cmd → s.writeCode (s.overlay key w) p key w = .ok → ∃ t, exec (.write p last index key w) s = .next t ∧ t.answered key .ok) ∧
     (quietArea key = true → r.acc = .rw ∧ s.mode ≠ Mode.quiesce ∨ r.acc = .rwi ∧ (s.mode = Mode.idle ∨ s.mode = Mode.load) → s.busyKey key = false → r.ty ≠ .blob →
       typeBad r.ty w = false → w &&& ~~~ (toWord r.mask) = 0 → plainBad r.vr w = false → extraBad s key w = false → r.vr ≠ .special ∨ specialBad s (s.overlay key w) key w = false →
       ∃ t, exec (.write p last index key w) s = .next t ∧ t.answered key .ok ∧ t.get key = w ∧ s.onlyObjects t [key, Key.loadStatus])) ∧
  (∀ (s : State) (p : Sys2Proof.Path) (last : Bool) (index key : Nat) (w : Word), s.serves p → isCmd key = false →
     s.writeCode (s.overlay key w) p key w ≠ .ok → s.writeCode (s.overlay key w) p key w ≠ .envelope →
     ∃ t, exec (.write p last index key w) s = .next t ∧ t.answered key (s.writeCode (s.overlay key w) p key w) ∧ s.onlyObjects t []) ∧
  (∀ (s : State) (p : Sys2Proof.Path) (last : Bool) (index key : Nat) (w : Word), s.serves p → isCmd key = false → s.writeCode (s.overlay key w) p key w = .envelope →
     exec (.write p last index key w) s =
       .next ((s.collect [{ source := 64, loc := .dac (keyObj key - 0x1000), detail := 0, injected := false }]).respond 0x02 index key .envelope)) ∧
  (∀ (s : State) (p : Sys2Proof.Path) (last : Bool) (index key : Nat) (w : Word) (r : ObjRow), s.serves p → rowOf key = some r →
     (r.acc = .ro → ∃ t, exec (.write p last index key w) s = .next t ∧ t.answered key .readOnly ∧ s.onlyObjects t []) ∧
     (r.acc = .rwi → s.mode ≠ Mode.idle → s.mode ≠ Mode.load → ∃ t, exec (.write p last index key w) s = .next t ∧ t.answered key .wrongMode ∧ s.onlyObjects t []) ∧
     (r.acc = .rw → s.mode = Mode.quiesce → ∃ t, exec (.write p last index key w) s = .next t ∧ t.answered key .wrongMode ∧ s.onlyObjects t []) ∧
     (r.acc = .rwg → s.mode ≠ Mode.service → ∃ t, exec (.write p last index key w) s = .next t ∧ t.answered key .wrongMode ∧ s.onlyObjects t []) ∧
     (r.acc = .rwg → s.mode = Mode.service → s.unlocked = false → ∃ t, exec (.write p last index key w) s = .next t ∧ t.answered key .guardLocked ∧ s.onlyObjects t []))

/-- SUBSCRIBE and UNSUBSCRIBE (R56, R57): a subscription to an object that is neither a BLOB nor write-only, at 10 ms or more, is held once for its destination
and key, a second one replacing its interval, and answers with the present value; UNSUBSCRIBE ends it; the subscriptions of every other destination and key
are as they were, and SUB_COUNT says how many there are. A refused SUBSCRIBE changes no subscription and no object. -/
def Obligations.SubscriptionsAreHeld : Prop :=
  ∀ (s : State) (p : Sys2Proof.Path) (key : Nat) (w : Word), s.serves p →
    (∀ r, rowOf key = some r → r.ty ≠ .blob → r.acc ≠ .wo → 10 ≤ w.toNat → w.toNat ≤ 1000000 → s.subs.length < 256 →
      ∃ t, exec (.subscribe p key w) s = .next t ∧ (p, key, w.toNat) ∈ t.subscribed ∧ (∀ i, (p, key, i) ∈ t.subscribed → i = w.toNat) ∧
        t.subscribed.filter (fun x => !(decide (x.1 = p) && x.2.1 == key)) = s.subscribed.filter (fun x => !(decide (x.1 = p) && x.2.1 == key)) ∧
        t.get Key.subCount = toWord t.subs.length ∧ t.answers = s.answers ++ [response 0x03 .ok 0 key (t.value key)] ∧ s.objectsBut t [Key.subCount, Key.sessionsOpen] ∧
        { t with objs := s.objs, subs := s.subs, answers := s.answers } = s) ∧
    (s.subscribeCode p key w ≠ .ok → ∃ t, exec (.subscribe p key w) s = .next t ∧ t.subs = s.subs ∧ t.objs = s.objs) ∧
    (implemented key = true →
      ∃ t, exec (.unsubscribe p key) s = .next t ∧ t.subscribed = s.subscribed.filter (fun x => !(decide (x.1 = p) && x.2.1 == key)) ∧
        t.get Key.subCount = toWord t.subs.length ∧ t.answers = s.answers ++ [response 0x04 .ok 0 key 0] ∧ s.objectsBut t [Key.subCount, Key.sessionsOpen] ∧
        { t with objs := s.objs, subs := s.subs, answers := s.answers } = s)

/-- SESSION_OPEN, SESSION_CONFIRM, SESSION_CLOSE, SESSION_IDLE_TIMEOUT (R47, R48, R50): a session opens unconfirmed on its path with its key slot and nonces, the
batch with counter 1 confirms it, and a close or the idle time ends it with its subscriptions and latches. -/
def Obligations.SessionsOpenAndClose : Prop :=
  ∀ s : State, s.mode ≠ Mode.reset →
    (∀ (ov : Bool) (slot : Nat) (nonce : Word), s.mode ≠ Mode.boot → slot < 8 → s.slotEmpty slot = false → s.sessions.length < 8 →
      ∃ t x, exec (.sessionOpen ov slot nonce) s = .next t ∧ t.sessions = s.sessions ++ [x] ∧ x.overMailbox = ov ∧ x.slot = slot ∧ x.clientNonce = nonce ∧
        x.confirmed = false ∧ x.lastCounter = 0 ∧ x.id ≠ 0 ∧ (∀ y ∈ s.sessions, y.id ≠ x.id) ∧ t.get Key.sessionsOpen = toWord (s.sessions.length + 1)) ∧
    (∀ (n : Nat) (x : Session), s.sessionOf n = some x → x.confirmed = false →
      ∃ t, exec (.sessionConfirm n 1) s = .next t ∧ t.hasSession (.session n) = true ∧ s.onlyObjects { t with sessions := s.sessions } []) ∧
    (∀ (n : Nat) (c : Instr), (s.sessionOf n).isSome = true → c = .sessionClose n ∨ c = .sessionIdleTimeout n →
      ∃ t, exec c s = .next t ∧ t.sessions = s.sessions.filter (fun x => x.id != n) ∧
        t.subscribed = s.subscribed.filter (fun x => decide (x.1 ≠ .session n)) ∧ t.latches = s.latches.filter (fun x => decide (x.path ≠ .session n)) ∧
        t.get Key.sessionsOpen = toWord t.sessions.length ∧ s.objectsBut t [Key.subCount, Key.sessionsOpen])

/-- DICT_BATCH and MAILBOX_DOORBELL (R46, R53): a well-framed batch of one READ without a session sends one answer over Ethernet; an unframed submission of READs
lies answered in the response area, message by message, with DONE set. MAILBOX_DOORBELL: a doorbell with a count outside 1 to 64, or before DONE, is ignored,
counted and raised as FS089 (R53). -/
def Obligations.MessagesAreAnswered : Prop :=
  (∀ (s : State) (b : Batch), s.machineCheck = false →
     (∀ (m : Message) (r : ObjRow), Mode.train ≤ s.mode → s.ethUp = true → frameCode b = .ok → b.session = 0 → b.atomic = false → b.messages = [m] → m.opcode = 0x01 →
       m.dflt = false → rowOf m.key.toNat = some r → keyArea m.key.toNat = 0 → r.acc ≠ .wo → r.ty ≠ .str →
       ∃ t, exec (.dictBatch b) s = .next t ∧
         t.out = s.out ++ [.ethBatch 0 0 [response 0x01 .ok m.index.toNat m.key.toNat (s.value m.key.toNat)] []] ∧ t.objs = s.objs) ∧
     (∀ count : Nat, s.hostOn = true → s.mode ≠ Mode.boot → s.mailboxDone = true → 1 ≤ count → count ≤ 64 →
       (∀ m ∈ b.messages.take count, m.opcode = 0x01 ∧ m.dflt = false ∧ isRecord m.key.toNat = false ∧ ∃ r, rowOf m.key.toNat = some r ∧ r.acc ≠ .wo ∧ r.ty ≠ .str) →
       ∃ t, exec (.mailboxDoorbell count false b) s = .next t ∧ t.mailboxDone = true ∧
         t.mailbox = (b.messages.take count).flatMap (fun m => messageBytes (response 0x01 .ok m.index.toNat m.key.toNat (s.value m.key.toNat))) ∧ t.objs = s.objs)) ∧
  (∀ (s : State) (count : Nat) (framed : Bool) (b : Batch), s.hostOn = true → count = 0 ∨ 64 < count ∨ s.mailboxDone = false →
     exec (.mailboxDoorbell count framed b) s = .next ((s.count Key.mboxOverruns 32).fault 89 .none 0))

/-- ATOMIC_GROUP (R52): a group of plain writes that all pass is applied in message order as one step; if any is refused, no object takes a value.
HOT_WINDOW_WRITE (R54, R331): an aligned write of at least the object's width takes effect like a WRITE; a refused one changes no object but HOT_ERR and its
key, where HOT_ERR already holds one. -/
def Obligations.GroupsAndTheHotWindowWrite : Prop :=
  (∀ (s : State) (p : Sys2Proof.Path) (ms : List Message), s.serves p → (∀ m ∈ ms, m.opcode = 0x02 ∧ isCmd m.key.toNat = false ∧ inHotWindow m.key.toNat = false) →
     ((∀ m ∈ ms, s.writeCode (s.groupView ms) p m.key.toNat m.value = .ok) →
       ∃ t, exec (.atomicGroup p ms) s = .next t ∧ t.objs = (s.applyPlain ms).objs) ∧
     ((∃ m ∈ ms, s.writeCode (s.groupView ms) p m.key.toNat m.value ≠ .ok) → (∀ m ∈ ms, s.writeCode (s.groupView ms) p m.key.toNat m.value ≠ .envelope) →
       ∃ t, exec (.atomicGroup p ms) s = .next t ∧ s.onlyObjects t [] ∧
         t.answers.map (fun m => m.status) = (s.answers ++ ms.map (fun m => response 0x02
           (if s.writeCode (s.groupView ms) p m.key.toNat m.value = .ok then .atomicAborted else s.writeCode (s.groupView ms) p m.key.toNat m.value) 0 0 0)).map (fun m => m.status))) ∧
  (∀ (s : State) (slot width key : Nat) (value : Word), s.hostOn = true → s.mode ≠ Mode.boot → slot < 256 → slot ≠ 10 → hotKey slot = some key → isCmd key = false →
     hotAligned key 0 width = true →
     (s.writeCode (s.overlay key (toWord (value.toNat % 2 ^ (8 * width)))) .hot key (toWord (value.toNat % 2 ^ (8 * width))) = .ok →
       ∃ t, exec (.hotWindowWrite slot 0 width value) s = .next t ∧ t.objs = (s.applyWrite key (toWord (value.toNat % 2 ^ (8 * width)))).objs) ∧
     (bit (s.get Key.hotErr) 6 = true → s.writeCode (s.overlay key (toWord (value.toNat % 2 ^ (8 * width)))) .hot key (toWord (value.toNat % 2 ^ (8 * width))) ≠ .ok →
       s.writeCode (s.overlay key (toWord (value.toNat % 2 ^ (8 * width)))) .hot key (toWord (value.toNat % 2 ^ (8 * width))) ≠ .envelope →
       ∃ t, exec (.hotWindowWrite slot 0 width value) s = .next t ∧ bit (t.get Key.hotErr) 7 = true ∧ s.onlyObjects t [Key.hotErr]))

/-! ## The host interface and the result stream (spec/09, spec/15) -/

/-- R334: a doorbell that moves PRODUCER forward within the ring is taken, and the channel fetches what it may; one that does not sets DOORBELL_ERR and leaves
PRODUCER. DMA_RUN, DMA_STOP, DESC_BASE_WRITE (R333, R338): a STOPPED channel runs, latching HALT_ON_ERR, and fetches; a stop ends every open descriptor and
leaves the channel STOPPED. In STOPPED a channel takes new ring bases on 4 KiB boundaries, DESC_BASE returning the indices to zero, and a new ring length; in
another state such a write is ignored, sets CFG_ERR and, as that bit is set, raises FS090. Ones clear the error bits of STATUS. -/
def Obligations.DmaChannelsRunAndStop : Prop :=
  (∀ (s : State) (ch : Nat) (producer : BitVec 32) (descs : List Descriptor), ch < 8 → s.dmaOn = true →
     ((s.chan ch).badDoorbell producer = false →
       ∃ t, exec (.dmaDoorbell ch producer descs) s = .next t ∧
         t.chan ch = ({ s.chan ch with producer := producer, waiting := descs.take (producer - (s.chan ch).consumer).toNat } : DmaChan).fetch ∧
         (t.chan ch).producer = producer ∧ (∀ c, c ≠ ch → t.chan c = s.chan c) ∧ { t with dma := s.dma } = s) ∧
     ((s.chan ch).badDoorbell producer = true → (s.chan ch).doorbellErr = true →
       ∃ t, exec (.dmaDoorbell ch producer descs) s = .next t ∧ (∀ c, t.chan c = s.chan c)) ∧
     ((s.chan ch).badDoorbell producer = true → (s.chan ch).doorbellErr = false →
       exec (.dmaDoorbell ch producer descs) s = .next ((s.putChan ch { s.chan ch with doorbellErr := true }).fault 90 (.unit ch) 0))) ∧
  (∀ (s : State) (ch : Nat), ch < 8 → s.dmaOn = true →
     (∀ h : Bool, (s.chan ch).state = 0 →
       ∃ t, exec (.dmaRun ch h) s = .next t ∧ (t.chan ch).state = 1 ∧ (t.chan ch).haltOnErr = h ∧
         (t.chan ch).opens.map (fun x => x.desc) = (s.chan ch).opens.map (fun x => x.desc) ++ (s.chan ch).waiting.take (4 - (s.chan ch).opens.length) ∧
         (t.chan ch).waiting = (s.chan ch).waiting.drop (4 - (s.chan ch).opens.length) ∧ (∀ c, c ≠ ch → t.chan c = s.chan c) ∧ { t with dma := s.dma } = s) ∧
     ((s.chan ch).state ≠ 0 → (s.chan ch).opens.length ≤ 4 →
       ∃ t, exec (.dmaStop ch) s = .next t ∧ (t.chan ch).state = 0 ∧ (t.chan ch).opens = [] ∧
         (t.chan ch).done = (s.chan ch).done + BitVec.ofNat 32 (s.chan ch).opens.length ∧ (t.chan ch).waiting = (s.chan ch).waiting ∧
         (∀ c, c ≠ ch → t.chan c = s.chan c) ∧ t.objs = s.objs) ∧
     (∀ v : Word, (s.chan ch).state = 0 → v.toNat % 4096 = 0 →
       (∃ t, exec (.descBaseWrite ch .descBase v) s = .next t ∧ (t.chan ch).descBase = v.toNat ∧ (t.chan ch).producer = 0 ∧ (t.chan ch).consumer = 0 ∧ (t.chan ch).done = 0 ∧
         (∀ c, c ≠ ch → t.chan c = s.chan c) ∧ { t with dma := s.dma } = s) ∧
       exec (.descBaseWrite ch .cplBase v) s = .next (s.putChan ch { s.chan ch with cplBase := v.toNat })) ∧
     (∀ v : Word, (s.chan ch).state = 0 → 4 ≤ v.toNat → v.toNat ≤ 16 →
       exec (.descBaseWrite ch .ringLog2 v) s = .next (s.putChan ch { s.chan ch with ringLog2 := v.toNat })) ∧
     (∀ (reg : ChanReg) (v : Word), (s.chan ch).state ≠ 0 → reg ≠ .status →
       ((s.chan ch).cfgErr = true → ∃ t, exec (.descBaseWrite ch reg v) s = .next t ∧ ∀ c, t.chan c = s.chan c) ∧
       ((s.chan ch).cfgErr = false → exec (.descBaseWrite ch reg v) s = .next ((s.putChan ch { s.chan ch with cfgErr := true }).fault 90 (.unit ch) 0))) ∧
     exec (.descBaseWrite ch .status 0xC) s = .next (s.putChan ch { s.chan ch with doorbellErr := false, cfgErr := false }))

/-- DESCRIPTOR_CLOSE (R336, R337): the oldest open descriptor, not lost and with nothing moved yet. One that reads DDR5, met by no error, posts the bytes at its
address into host memory and closes with all of them moved; one that writes DDR5 stores exactly the bytes the host gave, closing when it has all and staying
open for the rest when it has a part; one that reads a BLOB posts the BLOB's bytes; and one that a check refuses closes with nothing moved. DMA_HOST_ERROR
(R338, R345): the host fails the read of a descriptor that writes DDR5; the bytes that had come are written, it closes, the rest counted as aborted, and FS076
is raised on the channel. -/
def Obligations.DescriptorsClose : Prop :=
  (∀ (s : State) (ch : Nat) (data : List Byte) (x : OpenDesc) (rest : List OpenDesc), ch < 8 → s.dmaOn = true → (s.chan ch).opens = x :: rest → x.abort = 0 → x.moved = 0 →
     (x.desc.blob = false → x.desc.toHost = true → s.dramCode x.desc = .ok → s.poison = [] → s.injection = none →
       ∃ t, exec (.descriptorClose ch data none) s = .next t ∧ s.out ++ [.hostWrite x.desc.hostAddr (s.bytesAt x.desc.devAddr x.desc.length)] <+: t.out ∧
         (t.chan ch).done = (s.chan ch).done + 1 ∧ (t.chan ch).doneBytes = (s.chan ch).doneBytes + x.desc.length ∧ t.objs = s.objs ∧ t.cells = s.cells) ∧
     (x.desc.blob = false → x.desc.toHost = false → s.dramCode x.desc = .ok → s.poison = [] → s.injection = none → s.capacity ≤ (s.get Key.dramFill).toNat →
       (x.desc.length ≤ data.length →
         ∃ t, exec (.descriptorClose ch data none) s = .next t ∧ t.bytesAt x.desc.devAddr x.desc.length = data.take x.desc.length ∧
           (∀ b, b < x.desc.devAddr ∨ x.desc.devAddr + x.desc.length ≤ b → t.byteAt b = s.byteAt b) ∧
           (t.chan ch).done = (s.chan ch).done + 1 ∧ (t.chan ch).doneBytes = (s.chan ch).doneBytes + x.desc.length) ∧
       (data.length < x.desc.length →
         ∃ t, exec (.descriptorClose ch data none) s = .next t ∧ t.bytesAt x.desc.devAddr data.length = data ∧
           (∀ b, b < x.desc.devAddr ∨ x.desc.devAddr + data.length ≤ b → t.byteAt b = s.byteAt b) ∧
           (t.chan ch).opens = { x with moved := data.length } :: rest ∧ (t.chan ch).done = (s.chan ch).done)) ∧
     (x.desc.blob = true → x.desc.toHost = true → s.blobCode x.desc data = .ok → keyArea (x.desc.devAddr % 2 ^ 32) ≠ 0x40 → keyArea (x.desc.devAddr % 2 ^ 32) ≠ 0x51 →
       ∃ t, exec (.descriptorClose ch data none) s = .next t ∧
         s.out ++ [.hostWrite x.desc.hostAddr (s.blobBytes (x.desc.devAddr % 2 ^ 32) (x.desc.devAddr / 2 ^ 32) x.desc.length).1] <+: t.out ∧
         (t.chan ch).done = (s.chan ch).done + 1 ∧ (t.chan ch).doneBytes = (s.chan ch).doneBytes + x.desc.length ∧ t.objs = s.objs ∧ t.cells = s.cells) ∧
     (x.desc.blob = false → s.dramCode x.desc ≠ .ok →
       ∃ t, exec (.descriptorClose ch data none) s = .next t ∧ (t.chan ch).done = (s.chan ch).done + 1 ∧ (t.chan ch).doneBytes = (s.chan ch).doneBytes ∧
         (t.chan ch).abortBytes = (s.chan ch).abortBytes + x.desc.length ∧ t.objs = s.objs ∧ t.cells = s.cells)) ∧
  (∀ (s : State) (ch cause : Nat) (data : List Byte) (x : OpenDesc) (rest : List OpenDesc), ch < 8 → s.dmaOn = true → 1 ≤ cause → cause ≤ 3 → (s.chan ch).opens = x :: rest →
     x.desc.blob = false → x.desc.toHost = false → x.moved = 0 → s.dramCode x.desc = .ok → s.poison = [] → s.injection = none → s.capacity ≤ (s.get Key.dramFill).toNat →
     data.length ≤ x.desc.length →
     ∃ u : State, exec (.dmaHostError ch cause data) s = .next (u.fault 76 (.unit ch) 0) ∧ u.bytesAt x.desc.devAddr data.length = data ∧
       (∀ b, b < x.desc.devAddr ∨ x.desc.devAddr + data.length ≤ b → u.byteAt b = s.byteAt b) ∧ (u.chan ch).done = (s.chan ch).done + 1 ∧
       (u.chan ch).doneBytes = (s.chan ch).doneBytes + data.length ∧ (u.chan ch).abortBytes = (s.chan ch).abortBytes + (x.desc.length - data.length) ∧
       s.out ++ [.hostWrite ((s.chan ch).cplBase + 16 * (x.index % 2 ^ (s.chan ch).ringLog2)) (completionBytes (s.chan ch) x Code.aborted.toNat cause data.length)] <+: u.out)

/-- BAR0_STRAY_WRITE, BAR2_READ, BAR2_WRITE (R329, R339): a stray write only counts; a read within the capacity returns the bytes of DDR5; a write in a mode that
permits it, clear of locked regions, stores exactly its bytes; and a refused access returns zeros, or stores nothing, and sets BAR2_ERR. -/
def Obligations.BarAccessesAct : Prop :=
  ∀ (s : State), s.hostOn = true →
    (∃ t, exec .bar0StrayWrite s = .next t ∧ (t.get Key.bar0Stray).toNat = ((s.get Key.bar0Stray).toNat + 1) % 2 ^ 32 ∧ s.onlyObjects t [Key.bar0Stray]) ∧
    (∀ a n : Nat, s.mode ≠ Mode.boot → s.mode ≠ Mode.train → a + n ≤ s.capacity → s.poison = [] → s.injection = none →
      ∃ t, exec (.bar2Read a n .clean) s = .next t ∧ t.out = s.out ++ [.readData (s.bytesAt a n) false] ∧ { t with out := s.out } = s) ∧
    (∀ (a : Nat) (data : List Byte), s.dramWritable = true → a + data.length ≤ s.capacity → s.capacity ≤ (s.get Key.dramFill).toNat → s.touchesLock a data.length = false →
      s.poison = [] → s.injection = none →
      ∃ t, exec (.bar2Write a data) s = .next t ∧ t.bytesAt a data.length = data ∧ (∀ b, b < a ∨ a + data.length ≤ b → t.byteAt b = s.byteAt b) ∧
        s.objectsBut t [Key.loadStatus]) ∧
    (∀ (a : Nat) (data : List Byte) (n : Nat) (e : Ecc), s.capacity < a + n → s.capacity < a + data.length →
      (∃ t, exec (.bar2Read a n e) s = .next t ∧ t.out = s.out ++ [.readData (List.replicate n 0) false] ∧ bit (t.get Key.bar2Err) 6 = true ∧ t.cells = s.cells) ∧
      (∃ t, exec (.bar2Write a data) s = .next t ∧ bit (t.get Key.bar2Err) 6 = true ∧ s.onlyObjects t [Key.bar2Err, Key.bar2ErrAddr]))

/-- HOST_ISLAND_RESET, PCIE_LINK_DOWN, PCIE_LINK_UP (R338, R341, R410): the reset returns the channels, the mailbox, the MSI-X table and the ring bases, and
closes the mailbox's sessions; a link that goes down aborts every open descriptor, leaves pattern path and objects as they are and, after 1 ms, raises FS075;
a link that comes up ends FS075's condition. -/
def Obligations.HostLinkActs : Prop :=
  ∀ s : State,
    (s.mode ≠ Mode.reset →
      ∃ t, exec .hostIslandReset s = .next t ∧ t.dma = [] ∧ t.mailbox = [] ∧ t.mailboxDone = true ∧ t.msixMasked = [] ∧ t.msixPending = [] ∧
        t.sessions = s.sessions.filter (fun x => !x.overMailbox) ∧ t.get Key.ringBase = 0 ∧ t.get Key.eventRingBase = 0 ∧ t.threads = s.threads ∧ t.lanes = s.lanes ∧
        t.burst = s.burst ∧ s.objectsBut t [Key.ringBase, Key.eventRingBase, Key.subCount, Key.sessionsOpen]) ∧
    (s.hostOn = true → (∀ c, (s.chan c).opens.length ≤ 4) →
      (s.burst.records = [] →
        ∃ t, exec (.pcieLinkDown false) s = .next t ∧ t.pcieUp = false ∧
          (∀ c, c < 8 → (t.chan c).opens = [] ∧ (t.chan c).done = (s.chan c).done + BitVec.ofNat 32 (s.chan c).opens.length) ∧
          t.objs = s.objs ∧ t.threads = s.threads ∧ t.lanes = s.lanes ∧ t.burst = s.burst) ∧
      (∃ u : State, exec (.pcieLinkDown true) s = .next (u.fault 75 .none 0) ∧ u.pcieUp = false ∧ (∀ c, c < 8 → (u.chan c).opens = []) ∧ u.objs = s.objs ∧ u.threads = s.threads)) ∧
    (s.mode ≠ Mode.reset →
      ∃ t, exec .pcieLinkUp s = .next t ∧ t.pcieUp = true ∧ t.liveBit 75 = false ∧ t.threads = s.threads ∧ t.cells = s.cells)

/-- RESULT_RECORD (R219, R220): with a ring, the link and a credit the oldest record is written at its place, PRODUCER advances and the RECORD interrupt is owed;
with RING_BASE 0 it is discarded and counted; without a credit it waits and FS088 is raised. RING_BASE_WRITE, RING_CONSUMER_WRITE, EVENT_CONSUMER_WRITE (R219,
R342): an accepted write of the base empties the ring, one of a consumer index returns the credits. -/
def Obligations.TheResultStreamIsWritten : Prop :=
  (∀ (s : State) (r : RecordWait) (rest : List RecordWait), s.burst.records = r :: rest → s.machineCheck = false →
     (s.get Key.ringBase ≠ 0 → s.pcieUp = true → 1 ≤ s.ringFree → s.ringFree ≤ 4096 →
       ∃ t, exec .resultRecord s = .next t ∧ t.burst.records = rest ∧
         t.out = s.out ++ [.hostWrite ((s.get Key.ringBase).toNat + 64 * ((s.get Key.ringProducer).toNat % 4096)) (recordAt r (s.get Key.ringProducer).toNat)] ∧
         (t.get Key.ringProducer).toNat = ((s.get Key.ringProducer).toNat + 1) % 2 ^ 32 ∧ t.recordIrqHeld = true ∧ s.objectsBut t [Key.ringProducer]) ∧
     (s.get Key.ringBase = 0 →
       ∃ t, exec .resultRecord s = .next t ∧ t.burst.records = rest ∧ (t.get Key.recordsDiscarded).toNat = ((s.get Key.recordsDiscarded).toNat + 1) % 2 ^ 32 ∧ t.out = s.out ∧
         s.objectsBut t [Key.recordsDiscarded]) ∧
     (s.get Key.ringBase ≠ 0 → s.pcieUp = true → s.ringFree = 0 → exec .resultRecord s = .next (s.fault 88 .none 0))) ∧
  (∀ (s : State) (p : Sys2Proof.Path) (v : Word), s.serves p →
     (s.writeCode (s.overlay Key.ringBase v) p Key.ringBase v = .ok →
       ∃ t, exec (.ringBaseWrite p v) s = .next t ∧ t.answered Key.ringBase .ok ∧ t.get Key.ringBase = v ∧ t.get Key.ringProducer = 0 ∧ t.get Key.ringConsumer = 0 ∧
         s.onlyObjects t [Key.ringBase, Key.ringProducer, Key.ringConsumer, Key.loadStatus]) ∧
     (s.writeCode (s.overlay Key.ringConsumer v) p Key.ringConsumer v = .ok →
       ∃ t, exec (.ringConsumerWrite p v) s = .next t ∧ t.answered Key.ringConsumer .ok ∧ t.get Key.ringConsumer = v ∧ s.onlyObjects t [Key.ringConsumer]) ∧
     (s.writeCode (s.overlay Key.eventConsumer v) p Key.eventConsumer v = .ok →
       ∃ t, exec (.eventConsumerWrite p v) s = .next t ∧ t.answered Key.eventConsumer .ok ∧ t.get Key.eventConsumer = v ∧ s.onlyObjects t [Key.eventConsumer]))

/-- NOTIFY and INTERRUPT_COALESCING (R56, R342, R343, R380): a changed object of a mailbox subscription whose interval is over is written into the event ring at
its place, the change count starts again with the value reported and the time; the end of a coalescing window signals the vector that is owed, or closes the
window. -/
def Obligations.NotificationsGoOut : Prop :=
  ∀ (s : State),
    (∀ (key : Nat) (x : Subscription), s.subs.find? (fun y => decide (y.dest = .mailbox) && y.key == key) = some x → x.changes ≠ 0 → (∀ r, x.sent = some r → r + 800 * x.interval ≤ s.raw) →
      Mode.train ≤ s.mode → s.pcieUp = true → key ≠ Key.eventProducer → s.get Key.eventRingBase ≠ 0 →
      ((s.get Key.eventProducer).toNat + 2 ^ 32 - (s.get Key.eventConsumer).toNat) % 2 ^ 32 < (s.get Key.eventRingEntries).toNat →
      ∃ t, exec (.notify .mailbox key) s = .next t ∧
        s.out ++ [.hostWrite ((s.get Key.eventRingBase).toNat + 64 * ((s.get Key.eventProducer).toNat % (s.get Key.eventRingEntries).toNat))
          (eventEntry (s.get Key.eventProducer).toNat (s.get Key.eventRingEntries).toNat 0 (s.noticeOf x))] <+: t.out ∧
        (t.get Key.eventProducer).toNat = ((s.get Key.eventProducer).toNat + 1) % 2 ^ 32 ∧
        t.subs.find? (fun y => decide (y.dest = .mailbox) && y.key == key) = some { x with changes := 0, last := s.value key, sent := some s.raw } ∧
        s.objectsBut t [Key.eventProducer]) ∧
    (s.recordIrqHeld = true →
      ∃ t, exec (.interruptCoalescing true) s = .next t ∧ t.recordIrqHeld = false ∧ t.objs = s.objs ∧
        (∀ v, (s.get (mkKey 0x12 0x0100 Irq.record)).toNat = v → v ≠ 0xFFFF → s.msixMasked.contains v = false → t.out = s.out ++ [.msix v])) ∧
    (s.faultIrqHeld = true →
      ∃ t, exec (.interruptCoalescing false) s = .next t ∧ t.faultIrqHeld = false ∧ t.objs = s.objs ∧
        (∀ v, (s.get (mkKey 0x12 0x0100 Irq.fault)).toNat = v → v ≠ 0xFFFF → s.msixMasked.contains v = false → t.out = s.out ++ [.msix v])) ∧
    (s.faultIrqHeld = false → exec (.interruptCoalescing false) s = .next { s with faultWindow := false })

/-! ## DDR5 (spec/13) -/

/-- DRAM_READ and DRAM_WRITE (R281, R284, R285, R298, R299): a read of a burst in the map that meets no error returns its bytes and changes no byte and no object;
a write stores exactly its bytes, and with no uncorrectable read under it no object changes but the counts of a corrected error and LOAD_STATUS. An
uncorrectable read is answered poisoned, counted in UE_COUNT with its UE_ADDRESS and raised as FS066. A write beyond what the fill has reached waits and
changes no byte; DRAM_FILL_DONE completes the fill, and a write that waited takes effect (R281). -/
def Obligations.DramReadsAndWrites : Prop :=
  (∀ (s : State) (a : Nat), a < s.capacity → s.injection = none →
     (s.poison = [] →
       ∃ t, exec (.dramRead a .clean) s = .next t ∧ t.out = s.out ++ [.readData (s.bytesAt (64 * (a / 64)) 64) false] ∧ t.cells = s.cells ∧ t.objs = s.objs) ∧
     (a < (s.get Key.dramFill).toNat → s.queued (s.localOf a).1 (a / 64) = none →
       exec (.dramRead a .uncorrectable) s =
         .next ((((s.countSat Key.ueCount 32 1).put Key.ueAddress (toWord (64 * (a / 64)))).fault 66 (.subch (s.localOf a).1) (dramDetail (s.localOf a).1 0xF)).emit
           (.readData (s.bytesAt (64 * (a / 64)) 64) true))) ∧
     (∀ (data : List Byte) (e : Ecc), data ≠ [] → s.poison = [] → e ≠ .uncorrectable → a + (data.take (64 - a % 64)).length ≤ (s.get Key.dramFill).toNat →
       ∃ t, exec (.dramWrite a data e) s = .next t ∧ t.bytesAt a (data.take (64 - a % 64)).length = data.take (64 - a % 64) ∧
         (∀ b, b < a ∨ a + (data.take (64 - a % 64)).length ≤ b → t.byteAt b = s.byteAt b) ∧ t.poison = [] ∧ t.out = s.out ∧
         (∀ k, k ≠ Key.loadStatus → k ≠ Key.subchCe (s.localOf a).1 → (∀ j, k ≠ Key.laneCe (s.localOf a).1 j) → t.get k = s.get k))) ∧
  (∀ (s : State) (a : Nat) (data : List Byte) (e : Ecc),
     (a < s.capacity → data ≠ [] → (s.get Key.dramFill).toNat < a + (data.take (64 - a % 64)).length →
       ∃ t, exec (.dramWrite a data e) s = .next t ∧ t.waitingWrites = s.waitingWrites ++ [(a, data.take (64 - a % 64))] ∧ t.cells = s.cells) ∧
     (s.waitingWrites = [(a, data)] → a + data.length ≤ s.capacity →
       ∃ t, exec .dramFillDone s = .next t ∧ (t.get Key.dramFill).toNat = s.capacity ∧ t.waitingWrites = [] ∧ t.bytesAt a data.length = data ∧
         (∀ b, b < a ∨ a + data.length ≤ b → t.byteAt b = s.byteAt b) ∧ s.objectsBut t [Key.dramFill, Key.loadStatus]))

/-- WRITE_DRAIN, ACT_WINDOW_RESET, RETRAIN_PAUSE (R283, R290, R294): a drain retires the oldest writes until at most 16 are left, the window's end forgets the
rank's counts, a pause keeps what its sweep found in place of an earlier sweep of that lane and direction; no byte of DDR5 changes. REFRESH_DUE and
REFRESH_RATE_POLL (R286, R287, R289): a due refresh raises what the rank owes by one, less what was paid ahead, at most four ahead; a fifth is forced. A rank
that reports hotter than the doubled rate is held as hot, in bit 12 of SUBCH_STATUS, and raises FS071 where it was not hot before; one that reports no more
than that no longer is. ACT (R290, R291): below ACT_THRESHOLD the row's count goes up and nothing else happens; at it the count starts again and, without RFM,
the row's existing neighbours at distance one and two are refreshed and the refresh is counted. -/
def Obligations.SubchannelsAreKept : Prop :=
  (∀ (s : State) (sub : Nat), sub < 12 →
     (∃ t, exec (.writeDrain sub) s = .next t ∧ (t.subch sub).queue = (s.subch sub).queue.drop ((s.subch sub).queue.length - 16) ∧ (t.subch sub).queue.length ≤ 16 ∧
       (∀ i, i ≠ sub → t.subch i = s.subch i) ∧ { t with subchs := s.subchs } = s) ∧
     (∀ rank : Nat, ∃ t, exec (.actWindowReset sub rank) s = .next t ∧ (∀ e ∈ (t.subch sub).acts, e.rank ≠ rank) ∧
       (∀ e ∈ (s.subch sub).acts, e.rank ≠ rank → e ∈ (t.subch sub).acts) ∧ (∀ i, i ≠ sub → t.subch i = s.subch i) ∧ { t with subchs := s.subchs } = s) ∧
     (∀ (lane : Nat) (w : Bool) (eye mid : Nat), s.retrains sub = true → lane < 5 →
       ∃ t, exec (.retrainPause sub lane w eye mid) s = .next t ∧ sweepOf (t.subch sub).sweeps lane w = (eye, mid) ∧
         (∀ l v, l ≠ lane ∨ v ≠ w → sweepOf (t.subch sub).sweeps l v = sweepOf (s.subch sub).sweeps l v) ∧ { t with subchs := s.subchs } = s)) ∧
  (∀ (s : State) (sub rank : Nat), sub < 12 → s.hasRank sub rank = true →
     (∀ paid : Nat, max (-4) (s.owes sub rank - paid) + 1 < 5 →
       ∃ t, exec (.refreshDue sub rank paid) s = .next t ∧ t.owes sub rank = max (-4) (s.owes sub rank - paid) + 1 ∧ t.out = s.out ∧ s.objectsBut t [Key.subchStatus sub] ∧
         t.cells = s.cells) ∧
     (∀ paid : Nat, 5 ≤ max (-4) (s.owes sub rank - paid) + 1 →
       ∃ t, exec (.refreshDue sub rank paid) s = .next t ∧ t.owes sub rank = 4 ∧ t.out = s.out ++ [.refresh sub rank] ∧
         (t.get Key.refreshForced).toNat = satTo (2 ^ 64 - 1) ((s.get Key.refreshForced).toNat + 1) ∧ s.objectsBut t [Key.subchStatus sub, Key.refreshForced]) ∧
     (∀ rate : Nat, rate ≤ 2 → s.liveBit 71 = false →
       ∃ t, exec (.refreshRatePoll sub rank rate) s = .next t ∧ (t.subch sub).hotRanks = (s.subch sub).hotRanks.filter (fun r => r != rank) ∧
         s.objectsBut t [Key.subchStatus sub] ∧ t.cells = s.cells) ∧
     (∀ rate : Nat, 2 < rate → (s.subch sub).hotRanks.contains rank = false →
       ∃ u : State, exec (.refreshRatePoll sub rank rate) s = .next (u.fault 71 (.subch sub) (dramDetail sub 0xF)) ∧ rank ∈ (u.subch sub).hotRanks ∧
         u.getF (Key.subchStatus sub) 12 1 = 1 ∧ s.objectsBut u [Key.subchStatus sub]) ∧
     (∀ rate : Nat, 2 < rate → (s.subch sub).hotRanks.contains rank = true →
       ∃ t, exec (.refreshRatePoll sub rank rate) s = .next t ∧ rank ∈ (t.subch sub).hotRanks ∧ t.getF (Key.subchStatus sub) 12 1 = 1 ∧ s.objectsBut t [Key.subchStatus sub])) ∧
  (∀ (s : State) (sub rank bank row : Nat), sub < 12 → s.hasRank sub rank = true →
     ((countAct (s.subch sub).acts rank bank row).2 < (s.get Key.actThreshold).toNat →
       ∃ t, exec (.act sub rank bank row) s = .next t ∧ (t.subch sub).acts = (countAct (s.subch sub).acts rank bank row).1 ∧ { t with subchs := s.subchs } = s) ∧
     ((s.get Key.actThreshold).toNat ≤ (countAct (s.subch sub).acts rank bank row).2 → bit (s.get Key.dramConfig) 7 = false →
       ∃ t, exec (.act sub rank bank row) s = .next t ∧ t.out = s.out ++ (neighbours s.bankRows row).map (fun n => .neighbour sub rank bank n) ∧
         (∀ e ∈ (t.subch sub).acts, e.rank = rank → e.bank = bank → e.row = row → e.count = 0) ∧
         (t.get Key.neighbourRefreshes).toNat = satTo (2 ^ 64 - 1) ((s.get Key.neighbourRefreshes).toNat + 1) ∧ s.objectsBut t [Key.neighbourRefreshes]) ∧
     ((s.get Key.actThreshold).toNat ≤ (countAct (s.subch sub).acts rank bank row).2 → bit (s.get Key.dramConfig) 7 = true → bit (s.get (Key.subchStatus sub)) 11 = true →
       ∃ t, exec (.act sub rank bank row) s = .next t ∧ t.out = s.out ++ [.rfm sub bank] ∧
         (t.get (Key.subchRfmIssued sub)).toNat = satTo (2 ^ 64 - 1) ((s.get (Key.subchRfmIssued sub)).toNat + 1) ∧ s.objectsBut t [Key.subchRfmIssued sub]))

/-- RETRAIN_END and CE_RATE_CHECK (R295, R299): when both sweeps of every lane found an eye of 20 or more, each lane reads TRAINED with its delays moved at most 8
steps toward the midpoints, FAIL_RUN is 0 and RETRAINS one higher; more corrected errors in a second than CE_LIMIT raise FS067 on the lane, and no more do
nothing. R300, by the model's schedule (log entry 141): from IDLE to SAFE the patrol scrub comes to its next burst when its share of SCRUB_PERIOD has passed;
one that the fill has not reached is passed over unread. Behind the last burst of the map it starts again, and SCRUB_PASSES counts the pass. -/
def Obligations.RetrainingEnds : Prop :=
  (∀ (s : State) (sub : Nat), sub < 12 →
     (s.retrains sub = true → (s.subch sub).sweeps.length = 10 → s.liveBit 68 = false →
       (∀ lane w, lane < 5 → 20 ≤ (sweepOf (s.subch sub).sweeps lane w).1) →
       ∃ t, exec (.retrainEnd sub) s = .next t ∧ (t.subch sub).sweeps = [] ∧ t.getF (Key.subchStatus sub) 13 2 = 0 ∧
         (t.get (Key.subchRetrains sub)).toNat = satTo (2 ^ 32 - 1) ((s.get (Key.subchRetrains sub)).toNat + 1) ∧
         (∀ lane, lane < 5 → t.getF (Key.laneTrain sub lane) 40 2 = 1 ∧
           t.getF (Key.laneTrain sub lane) 0 12 = moveDelay (s.getF (Key.laneTrain sub lane) 0 12) (sweepOf (s.subch sub).sweeps lane false).2 % 2 ^ 12 ∧
           t.getF (Key.laneTrain sub lane) 12 12 = moveDelay (s.getF (Key.laneTrain sub lane) 12 12) (sweepOf (s.subch sub).sweeps lane true).2 % 2 ^ 12) ∧
         t.cells = s.cells ∧ t.out = s.out) ∧
     (∀ lane n : Nat, lane < 5 → n ≤ (s.get Key.ceLimit).toNat → exec (.ceRateCheck sub lane n) s = .next s) ∧
     (∀ lane n : Nat, lane < 5 → (s.get Key.ceLimit).toNat < n → exec (.ceRateCheck sub lane n) s = .next (s.fault 67 (.subch sub) (dramDetail sub lane)))) ∧
  (∀ s : State, s.pending = [] → Mode.idle ≤ s.mode → s.mode ≤ Mode.safe → s.loadsDue = [] → s.diag = none → s.guardHits = [] → s.capacity ≠ 0 →
     s.scrubTicks ≤ s.scrubGain + s.capacity / 64 → (s.get Key.dramFill).toNat ≤ 64 * s.scrubNext →
     ∃ t, step s = .next t ∧ t.scrubGain = s.scrubGain + s.capacity / 64 - s.scrubTicks ∧ t.cells = s.cells ∧ t.poison = s.poison ∧ t.out = s.out ∧
       ((s.scrubNext + 1) * 64 < s.capacity → t.scrubNext = s.scrubNext + 1 ∧ t.get Key.scrubPasses = s.get Key.scrubPasses) ∧
       (s.capacity ≤ (s.scrubNext + 1) * 64 → t.scrubNext = 0 ∧ (t.get Key.scrubPasses).toNat = satTo (2 ^ 32 - 1) ((s.get Key.scrubPasses).toNat + 1)))

/-! ## Faults, the guard envelope and the watchdog (spec/17) -/

/-- FAULT_RAISE (R374, R375, R377, R378): a first raise below PORT-STOP of a source without further effects of its own rule (that is, not FS007, FS049, FS050,
FS053, FS054 or FS061) sets its cause bit, counts, and enters the history with its source, severity, location, detail and raw time; it is the first-fault
record where that was empty. A raise of a source whose cause bit is set only counts. -/
def Obligations.RaisesAreRecorded : Prop :=
  ∀ (s : State) (r : Raise), r.wf = true → r.injected = false → s.mode ≠ Mode.reset → s.severityOf r.source ≤ Sev.degrade → r.source ≠ 7 → r.source ≠ 49 → r.source ≠ 50 → r.source ≠ 53 → r.source ≠ 54 → r.source ≠ 61 → s.entering = none →
    (s.causeBit r.source = false → (s.get Key.histCount).toNat + 1 < 2 ^ 32 →
      ∃ t, exec (.faultRaise [r]) s = .next t ∧ t.causeBit r.source = true ∧ t.liveBit r.source = lastingSource r.source ∧
        (t.get (Key.raises r.source)).toNat = satTo (2 ^ 32 - 1) ((s.get (Key.raises r.source)).toNat + 1) ∧
        (t.get Key.histCount).toNat = (s.get Key.histCount).toNat + 1 ∧
        setField (t.get (Key.histEntry ((s.get Key.histCount).toNat % 32) 0)) 11 1 0 = recordLow r.source (s.severityOf r.source) r.detail r.loc false ∧
        (t.get (Key.histEntry ((s.get Key.histCount).toNat % 32) 1)).toNat = s.raw ∧
        (bit (s.get (Key.firstFault 0)) 7 = false →
          setField (t.get (Key.firstFault 0)) 11 1 0 = recordLow r.source (s.severityOf r.source) r.detail r.loc false ∧ (t.get (Key.firstFault 1)).toNat = s.raw) ∧
        (bit (s.get (Key.firstFault 0)) 7 = true → t.get (Key.firstFault 1) = s.get (Key.firstFault 1)) ∧ t.mode = s.mode) ∧
    (s.causeBit r.source = true →
      ∃ t, exec (.faultRaise [r]) s = .next t ∧ (t.get (Key.raises r.source)).toNat = satTo (2 ^ 32 - 1) ((s.get (Key.raises r.source)).toNat + 1) ∧
        t.get Key.histCount = s.get Key.histCount ∧ t.get (Key.firstFault 1) = s.get (Key.firstFault 1) ∧ t.mode = s.mode)

/-- FAULT_CAUSE_CLEAR, FAULT_CAUSE_READ, FIRST_FAULT_READ, FF_CLEAR (R374, R377, R378, R379): ones clear cause bits but those of live conditions; a read of
element 01 returns it and latches element 02 for its path; FF_CLEAR empties the first-fault record and leaves the history. -/
def Obligations.FaultRegistersAreServed : Prop :=
  ∀ (s : State) (p : Sys2Proof.Path), s.serves p → s.machineCheck = false →
    (∀ (el : Nat) (v : Word), el = 1 ∨ el = 2 → s.mode ≠ Mode.quiesce →
      ∃ t, exec (.faultCauseClear p el v) s = .next t ∧
        t.answered (Key.faultCause (el - 1)) .ok ∧
        t.get (Key.faultCause (el - 1)) = s.get (Key.faultCause (el - 1)) &&& ~~~ (v &&& ~~~ s.get (Key.faultLive (el - 1))) ∧ s.onlyObjects t [Key.faultCause (el - 1)]) ∧
    (∀ el : Nat, el = 1 ∨ el = 2 →
      ∃ t, exec (.faultCauseRead p el) s = .next t ∧
        t.answers = s.answers ++ [response 0x01 .ok 0 (Key.faultCause (el - 1)) (s.get (Key.faultCause (el - 1)))] ∧ t.objs = s.objs ∧
        (∀ w ∈ t.watch, w.source / 64 + 1 = el → w.read = true)) ∧
    (∃ t, exec (.firstFaultRead p none 1) s = .next t ∧ t.answers = s.answers ++ [response 0x01 .ok 0 (Key.firstFault 0) (s.get (Key.firstFault 0))] ∧
      t.latches.find? (fun l => decide (l.path = p) && l.obj == 3) = some ⟨p, 3, s.get (Key.firstFault 1)⟩ ∧ t.objs = s.objs) ∧
    (∀ l, s.latches.find? (fun l => decide (l.path = p) && l.obj == 3) = some l →
      ∃ t, exec (.firstFaultRead p none 2) s = .next t ∧ t.answers = s.answers ++ [response 0x01 .ok 0 (Key.firstFault 1) l.value] ∧
        t.latches.find? (fun l => decide (l.path = p) && l.obj == 3) = none ∧ t.objs = s.objs) ∧
    (s.cmdMode = false → s.cmdBusy Key.ffClear = false →
      ∃ t, exec (.ffClear p 0) s = .next t ∧ t.answered Key.ffClear .ok ∧ t.cmdState Key.ffClear = Cmd.done ∧ t.get (Key.firstFault 0) = 0 ∧ t.get (Key.firstFault 1) = 0 ∧
        s.objectsBut t [Key.firstFault 0, Key.firstFault 1, Key.ffClear])

/-- FAULT_INJECT and FAULT_INJECT_TIMEOUT (R383): an accepted inversion, of a checker that does not pass items all the time, waits for its next item and the
command reads RUNNING; without an item within the time limit it reads FAILED with HW_FAIL and the inversion is gone. SAFE_UNLATCH and QUIET_PERIOD (R381): an
unlatch clears LATCHED and its cause and forgets the recoveries; the end of the quiet period returns the device from SAFE to IDLE and counts a recovery while
RECOVERY_LIMIT is not reached, and latches SAFE with FS033 when it is. -/
def Obligations.InjectionsAndSafeEnd : Prop :=
  (∀ (s : State) (p : Sys2Proof.Path),
     (∀ arg : Word, s.serves p → s.injectCode arg = .ok → alwaysChecks (injSource arg) = false →
       ∃ t, exec (.faultInject p arg) s = .next t ∧ t.answered Key.faultInject .ok ∧ t.injection = some (injSource arg, injDouble arg, injDry arg) ∧
         t.cmdState Key.faultInject = Cmd.running ∧ s.objectsBut t [Key.faultInject]) ∧
     (s.injection.isSome = true →
       ∃ t, exec .faultInjectTimeout s = .next t ∧ t.injection = none ∧ t.cmdState Key.faultInject = Cmd.failed ∧ t.getF Key.faultInject 8 6 = Code.hwFail.toNat ∧
         s.objectsBut t [Key.faultInject])) ∧
  (∀ (s : State) (p : Sys2Proof.Path),
     (s.serves p → s.cmdMode = false → s.cmdBusy Key.safeUnlatch = false → s.getF Key.safeStatus 1 2 ≠ 3 →
       ∃ t, exec (.safeUnlatch p 0) s = .next t ∧ t.answered Key.safeUnlatch .ok ∧ t.cmdState Key.safeUnlatch = Cmd.done ∧ t.getF Key.safeStatus 0 3 = 0 ∧ t.recoveries = [] ∧
         t.mode = s.mode ∧ s.objectsBut t [Key.safeStatus, Key.safeUnlatch]) ∧
     (s.serves p → s.cmdMode = false → s.cmdBusy Key.safeUnlatch = false → s.getF Key.safeStatus 1 2 = 3 →
       ∃ t, exec (.safeUnlatch p 0) s = .next t ∧ t.answered Key.safeUnlatch .safeLatched ∧ s.onlyObjects t []) ∧
     (s.quietRunning = true → s.modeChanging = false → s.recentRecoveries < (s.get Key.recoveryLimit).toNat →
       ∃ t, exec .quietPeriod s = .next t ∧ t.mode = Mode.idle ∧ (t.get Key.recoveryCount).toNat = ((s.get Key.recoveryCount).toNat + 1) % 2 ^ 32 ∧
         t.recoveries = s.recoveries ++ [s.raw]) ∧
     (s.quietRunning = true → s.modeChanging = false → (s.get Key.recoveryLimit).toNat ≤ s.recentRecoveries → s.getF Key.safeStatus 1 2 ≠ 3 →
       ∃ u : State, exec .quietPeriod s = .next (u.fault 33 .none 0) ∧ u.getF Key.safeStatus 0 1 = 1 ∧ u.getF Key.safeStatus 1 2 = 1 ∧ s.objectsBut u [Key.safeStatus] ∧
         u.recoveries = s.recoveries))

/-- GUARD_COMMIT and GUARD_COMMIT_DONE (R384, R395): a commit of a sound staged envelope draws a token and starts the write of the copy not in use, which reads
INCOMPLETE; a commit whose staged limits contradict each other, or leave a park or fault code outside, fails with the code and the DAC. When the copy has
verified, its values are the envelope in force, the command reads DONE and FS095, at a severity below PORT-STOP, is recorded; a copy that does not verify
leaves the envelope, the command reads FAILED with NVM_FAIL and FS025 is raised. (No QUIESCE is waiting.) -/
def Obligations.GuardCommits : Prop :=
  ∀ (s : State) (p : Sys2Proof.Path),
    (s.serves p → s.mode = Mode.service → s.quiesceAsked = false → s.unlocked = true → s.cmdBusy Key.guardCommit = false → s.lichenBusy = false →
      (s.stagedFault = none → s.get (Key.nvmTokens 1) ≠ 0 →
        ∃ t, exec (.guardCommit p 0) s = .next t ∧ t.answered Key.guardCommit .ok ∧ t.cmdState Key.guardCommit = Cmd.running ∧ t.nvm.guardImage.isSome = true ∧
          (if s.guardTarget = 0 then t.nvm.guard0.cls else t.nvm.guard1.cls) = .incomplete ∧
          (t.get (Key.nvmTokens 1)).toNat + 1 = (s.get (Key.nvmTokens 1)).toNat ∧ s.objectsBut t [Key.guardCommit, Key.nvmTokens 1]) ∧
      (∀ c d, s.stagedFault = some (c, d) → d < 64 →
        ∃ t, exec (.guardCommit p 0) s = .next t ∧ t.cmdState Key.guardCommit = Cmd.failed ∧ t.getF Key.guardCommit 8 6 = c.toNat ∧ t.getF Key.guardCommit 16 16 = d ∧
          s.objectsBut t [Key.guardCommit])) ∧
    (∀ image, s.nvm.guardImage = some image → s.cmdBusy Key.guardCommit = true → s.quiesceAsked = false → s.nvm.snapshotDue = false →
      (s.severityOf 95 ≤ Sev.degrade →
        ∃ t, exec (.guardCommitDone true) s = .next t ∧ (∀ k ∈ guardKeys, t.get k = mget (shipped k) image k) ∧ t.cmdState Key.guardCommit = Cmd.done ∧
          t.nvm.guardImage = none ∧ (if s.guardTarget = 0 then t.nvm.guard0.cls else t.nvm.guard1.cls) = .valid ∧ t.getF Key.nvmStatus 5 1 = s.guardTarget ∧
          t.causeBit 95 = true ∧ t.mode = s.mode) ∧
      (s.severityOf 25 ≤ Sev.degrade →
        ∃ t, exec (.guardCommitDone false) s = .next t ∧ (∀ k ∈ guardKeys, t.get k = s.get k) ∧ t.cmdState Key.guardCommit = Cmd.failed ∧
          t.getF Key.guardCommit 8 6 = Code.nvmFail.toNat ∧ t.nvm.guardImage = none ∧ t.causeBit 25 = true ∧ t.mode = s.mode))

/-- GUARD_UNLOCKED, WATCHDOG_KICK, WATCHDOG_EXPIRY, LIVE_BIT_CLEAR, DIE_TEMP_SAMPLE (R373, R374, R388, R433): the strap is seen, and raises FS081 outside SERVICE;
a kick restarts the watchdog and ends FS011's condition; an expiry drives every lane that is not disabled to mid-level, every DAC to its fault code and raises
FS011; a condition that no unit still holds ends, and with it its live bit; a sample between the limits is the die temperature, one above the warning raises
FS008 with it. -/
def Obligations.MonitorsReport : Prop :=
  ∀ (s : State),
    (s.unlocked = false → s.mode = Mode.service → ∃ t, exec .guardUnlocked s = .next t ∧ t.unlocked = true ∧ s.onlyObjects t [Key.guardStatus]) ∧
    (s.unlocked = false → Mode.train ≤ s.mode → s.mode ≠ Mode.service → exec .guardUnlocked s = .next ((s.putF Key.guardStatus 0 1 1).fault 81 .none 0)) ∧
    (Mode.train ≤ s.mode →
      ∃ t, exec .watchdogKick s = .next t ∧ t.wdogKick = s.raw ∧ bit (t.get Key.wdogStatus) 1 = false ∧ t.liveBit 11 = false ∧
        (s.liveBit 11 = false → s.objectsBut t [Key.wdogStatus])) ∧
    (bit (s.get Key.wdogStatus) 0 = true → bit (s.get Key.wdogStatus) 1 = false →
      ∃ u : State, exec .watchdogExpiry s = .next (u.fault 11 .none 0) ∧ bit (u.get Key.wdogStatus) 1 = true ∧ (∀ g, g < 1024 → s.laneState g ≠ 2 → u.lane g = .mid) ∧
        (∀ d, d < 64 → s.dacSource d ≠ 0 → u.get (Key.dacActive d) = s.get (Key.dacFaultCode d) ∧ u.dacSource d = 3) ∧ u.mode = s.mode) ∧
    (∀ src, src < 128 → s.persists src = false → s.liveBit src = true →
      ∃ t, exec (.liveBitClear src) s = .next t ∧ t.liveBit src = false ∧ t.causeBit src = s.causeBit src ∧ (∀ i, i < 128 → i ≠ src → t.liveBit i = s.liveBit i) ∧
        (src = 56 → t.frefPresent = true) ∧ (src = 81 → t.unlocked = false)) ∧
    (∀ src, src < 128 → s.persists src = true → exec (.liveBitClear src) s = .next s) ∧
    (∀ deg : Int, Mode.train ≤ s.mode → s.liveBit 8 = false → s.liveBit 9 = false → s.liveBit 10 = false → deg ≤ 105 * 128 →
      (∀ u, u < 8 → s.acqSource u ≠ 0x21) →
      (deg ≤ (((s.get Key.tempWarn).toNat * 128 : Nat) : Int) → exec (.dieTempSample deg) s = .next { s with dieTemp := deg }) ∧
      ((((s.get Key.tempWarn).toNat * 128 : Nat) : Int) < deg →
        exec (.dieTempSample deg) s =
          .next ({ s with dieTemp := deg }.collect [{ source := 8, loc := .none, detail := (deg % 4294967296).toNat, injected := false }])))

/-! ## Modes, checks and diagnostics (spec/03, spec/06, spec/08) -/

/-- MODE_REQUEST by requestTrain, requestIdle, requestLoad, requestArmed, requestDiagnose, requestCalibrate, requestService and requestQuiesce (R61, R62): an
accepted request for another mode reads RUNNING with the mode left and the mode named in DETAIL, while the mode left stays in force; one for the present mode
reads DONE at once and changes nothing else. One for ARMED starts the checks, LOAD_STATUS reading RUNNING; one for QUIESCE out of a running burst waits for
the burst's audit. R61, R62: a request for a mode that is no trigger of the transition table from the present mode is refused with WRONG_MODE and changes
nothing. -/
def Obligations.ModeRequestsAreTaken : Prop :=
  (∀ (s : State) (p : Sys2Proof.Path) (c : Instr) (m : Nat), (c, m) ∈ modeRequests p → s.serves p → s.mode < 16 → s.requestCode (toWord m) = .ok →
     (m = s.mode → ∃ t, exec c s = .next t ∧ t.answered Key.modeRequest .ok ∧ t.cmdState Key.modeRequest = Cmd.done ∧ t.mode = s.mode ∧ s.onlyObjects t [Key.modeRequest]) ∧
     (m ≠ s.mode → m ≠ Mode.armed → m ≠ Mode.quiesce →
       ∃ t, exec c s = .next t ∧ t.answered Key.modeRequest .ok ∧ t.cmdState Key.modeRequest = Cmd.running ∧ t.getF Key.modeRequest 16 8 = s.mode + 16 * m ∧ t.mode = s.mode ∧
         s.onlyObjects t [Key.modeRequest]) ∧
     (m = Mode.quiesce → s.mode ≠ Mode.burst → s.mode ≠ Mode.quiesce →
       ∃ t, exec c s = .next t ∧ t.cmdState Key.modeRequest = Cmd.running ∧ t.mode = s.mode ∧ s.onlyObjects t [Key.modeRequest]) ∧
     (m = Mode.quiesce → s.mode = Mode.burst → s.burst.running = true → s.lichenBusy = false →
       ∃ t, exec c s = .next t ∧ t.cmdState Key.modeRequest = Cmd.running ∧ t.entering = some Mode.quiesce) ∧
     (m = Mode.armed → s.mode = Mode.diagnose →
       ∃ t, exec c s = .next t ∧ t.cmdState Key.modeRequest = Cmd.running ∧ t.mode = s.mode ∧ s.onlyObjects t [Key.modeRequest]) ∧
     (m = Mode.armed → s.mode = Mode.idle ∨ s.mode = Mode.load →
       ∃ t, exec c s = .next t ∧ t.answered Key.modeRequest .ok ∧ t.cmdState Key.modeRequest = Cmd.running ∧ t.getF Key.loadStatus 0 3 = 1 ∧ t.mode = s.mode)) ∧
  (∀ (s : State) (p : Sys2Proof.Path) (c : Instr) (m : Nat), (c, m) ∈ modeRequests p → s.serves p → s.machineCheck = false → m ≠ s.mode → s.listed m = false →
     ∃ t, exec c s = .next t ∧ t.answered Key.modeRequest .wrongMode ∧ s.onlyObjects t [])

/-- MODE_CHANGE_DONE (R61, R62): a requested change that is ready is made: DEVICE_MODE reads the mode named, MODE_CHANGES counts it, and the request reads DONE.
No limit on lane changes is in force (R386), so that none of them is suppressed. Where the change leaves SERVICE with the guard unlocked, FS081 is raised
after it; where it enters DIAGNOSE from IDLE, the pending codes load after it (R269). CALIBRATE_AUTO_EXIT and RETURN_TO_ARMED (R62, R93): the returns that
need no request. CALIBRATE with its routines run and its queue empty goes back to IDLE; BURST whose audit has reported goes back to ARMED, where the threads
are primed again. -/
def Obligations.ModeChangesComplete : Prop :=
  (∀ (s : State), s.cmdBusy Key.modeRequest = true → s.entering = none → s.modeTarget < 12 → s.mode < 12 →
     ¬ (s.modeTarget = Mode.armed ∧ (s.mode = Mode.idle ∨ s.mode = Mode.load)) → ¬ (s.mode = Mode.calibrate ∧ s.modeTarget = Mode.idle ∧ s.routine ≠ none) →
     (s.modeTarget = Mode.quiesce → s.lichenBusy = false ∧ ∀ u, u < 8 → s.acqSt u ≠ 2) → s.guardHits = [] → (s.get Key.pretrainLimit).toNat = 0xFFFF →
     (¬ (s.mode = Mode.service ∧ s.modeTarget ≠ Mode.service ∧ s.unlocked = true) → ¬ (s.modeTarget = Mode.diagnose ∧ s.mode = Mode.idle) →
       ∃ t, exec .modeChangeDone s = .next t ∧ t.mode = s.modeTarget ∧ t.cmdState Key.modeRequest = Cmd.done ∧ t.getF Key.modeRequest 16 16 = s.getF Key.modeRequest 16 16 ∧
         (t.get Key.modeChanges).toNat = ((s.get Key.modeChanges).toNat + 1) % 2 ^ 32) ∧
     (s.mode = Mode.service → s.modeTarget ≠ Mode.service → s.unlocked = true →
       ∃ u : State, exec .modeChangeDone s = .next (u.fault 81 .none 0).guardRaise ∧ u.mode = s.modeTarget ∧ u.cmdState Key.modeRequest = Cmd.done) ∧
     (s.mode = Mode.idle → s.modeTarget = Mode.diagnose →
       ∃ u : State, exec .modeChangeDone s = .next (u.armStrobe.1.collect u.armStrobe.2).guardRaise ∧ u.mode = Mode.diagnose ∧ u.cmdState Key.modeRequest = Cmd.done)) ∧
  (∀ (s : State), s.modeChanging = false →
     (s.mode = Mode.calibrate → s.calRan = true → s.badgerQueue = [] → s.routine = none →
       ∃ t, exec .calibrateAutoExit s = .next t ∧ t.mode = Mode.idle ∧ t.get Key.modeRequest = s.get Key.modeRequest ∧
         (t.get Key.modeChanges).toNat = ((s.get Key.modeChanges).toNat + 1) % 2 ^ 32) ∧
     (s.mode = Mode.burst → s.burst.running = false → s.routineInBurst = false →
       ∃ u : State, exec .returnToArmed s = .next u.primeAll.guardRaise ∧ u.mode = Mode.armed ∧ u.get Key.modeRequest = s.get Key.modeRequest ∧
         (u.get Key.modeChanges).toNat = ((s.get Key.modeChanges).toNat + 1) % 2 ^ 32 ∧ u.burst.threads = [] ∧ u.armedThreads = s.armedThreads))

/-- LOAD_CHECK and LOAD_CHECKS_DONE (R80, R82, R147): the command starts the checks, LOAD_STATUS reading RUNNING; their end leaves LOAD_STATUS PASSED and the
command DONE if no check failed, and REFUSED, with the command FAILED with LOAD_REFUSED, if one did. A request for ARMED whose checks fail ends FAILED with
LOAD_REFUSED in the mode it was made in; one whose checks pass enters ARMED, fixes the shares, primes the threads, applies the pending codes by the ARM strobe
and ends. No burst of DDR5 is poisoned (a check that reads one raises FS066). -/
def Obligations.LoadChecksDecide : Prop :=
  ∀ (s : State) (p : Sys2Proof.Path),
    (s.serves p → s.mode = Mode.load → s.cmdBusy Key.loadCheck = false →
      ∃ t, exec (.loadCheck p 0) s = .next t ∧ t.answered Key.loadCheck .ok ∧ t.cmdState Key.loadCheck = Cmd.running ∧ t.getF Key.loadStatus 0 3 = 1 ∧
        s.onlyObjects t [Key.loadCheck, Key.loadStatus]) ∧
    (s.cmdState Key.loadCheck = Cmd.running → s.arming = false → s.poison = [] →
      ∃ t, exec .loadChecksDone s = .next t ∧ t.mode = s.mode ∧
        (s.allocate.allFails s.allocate.plans s.allocate.shortGroup = [] → t.cmdState Key.loadCheck = Cmd.done ∧ t.getF Key.loadStatus 0 3 = 2) ∧
        (s.allocate.allFails s.allocate.plans s.allocate.shortGroup ≠ [] →
          t.cmdState Key.loadCheck = Cmd.failed ∧ t.getF Key.loadCheck 8 6 = Code.loadRefused.toNat ∧ t.getF Key.loadStatus 0 3 = 3)) ∧
    (s.cmdState Key.loadCheck ≠ Cmd.running → s.arming = true → s.poison = [] →
      (s.allFails s.plans s.shortGroup = [] →
        ∃ u v : State, exec .loadChecksDone s = .next (v.armStrobe.1.finishRequest.collect v.armStrobe.2).guardRaise ∧ v = { u.setShares.primeAll with mapChanged := false } ∧
          u.mode = Mode.armed ∧ u.cmdBusy Key.modeRequest = true ∧ u.getF Key.loadStatus 0 3 = 2) ∧
      (s.allFails s.plans s.shortGroup ≠ [] →
        ∃ t, exec .loadChecksDone s = .next t ∧ t.mode = s.mode ∧ t.cmdState Key.modeRequest = Cmd.failed ∧ t.getF Key.modeRequest 8 6 = Code.loadRefused.toNat ∧
          t.getF Key.loadStatus 0 3 = 3))

/-- SLICE_DIAG_REQUEST (R65-R67): with no routine and no run to end, and no limit on lane changes in force (R386), the named slices read DIAGNOSE, the others that
did read FOLLOW or, where they are dead, DISABLED, every slice that is neither stays as it was, and the command reads DONE. DIAG_START, DIAG_STOP,
DIAG_RUN_DONE (R195, R198, R199): an accepted start outside IDLE, on channels that may be driven, reads RUNNING with the configured run under way and no
result yet; a stop ends it FAILED with ABORTED, DIAG_RESULT telling the length of what is kept; its end leaves the header and the counts of what the S-lanes
showed as the result and reads DONE. -/
def Obligations.DiagnosticsRun : Prop :=
  (∀ (s : State) (p : Sys2Proof.Path) (arg : Word), s.serves p → s.mode = Mode.idle → s.cmdBusy Key.sliceDiagRequest = false → arg.toNat < 2 ^ 32 →
     (∀ sl ∈ bitsOf 32 arg.toNat, s.sliceModeOf sl ≠ 3) → s.routine = none → s.diag = none → s.guardHits = [] → (s.get Key.pretrainLimit).toNat = 0xFFFF →
     ∃ t, exec (.sliceDiagRequest p arg) s = .next t ∧ t.answered Key.sliceDiagRequest .ok ∧ t.cmdState Key.sliceDiagRequest = Cmd.done ∧ t.mode = s.mode ∧
       (∀ sl, sl ∈ bitsOf 32 arg.toNat → t.sliceModeOf sl = 2) ∧
       (∀ sl, sl < 32 → sl ∉ bitsOf 32 arg.toNat → s.sliceModeOf sl = 2 → t.sliceModeOf sl = if s.sliceDead sl then 3 else 0) ∧
       (∀ sl, sl < 32 → sl ∉ bitsOf 32 arg.toNat → s.sliceModeOf sl ≠ 2 → t.sliceModeOf sl = s.sliceModeOf sl) ∧
       s.objectsBut t (Key.sliceDiagRequest :: (List.range 32).map Key.sliceMode)) ∧
  (∀ (s : State) (p : Sys2Proof.Path),
     (s.serves p → s.mode ≠ Mode.idle → s.diagRefusal = .ok → (∀ g ∈ s.diagChannels, s.permits g = true) →
       ∃ t r, exec (.diagStart p) s = .next t ∧ t.answered Key.diagStart .ok ∧ t.cmdState Key.diagStart = Cmd.running ∧ t.get Key.diagResult = 0 ∧ t.diag = some r ∧
         r.kind = s.diagKind ∧ r.slices = s.diagSliceList ∧ r.channels = s.diagChannels ∧ r.points = s.diagPoints ∧ t.mode = s.mode) ∧
     (s.serves p → s.mode ≠ Mode.quiesce → s.diag.isSome = true →
       ∃ t, exec (.diagStop p) s = .next t ∧ t.answered Key.diagStart .ok ∧ t.diag = none ∧ t.cmdState Key.diagStart = Cmd.failed ∧
         t.getF Key.diagStart 8 6 = Code.aborted.toNat ∧ t.get Key.diagResult = toWord t.diagBytes.length ∧ t.mode = s.mode) ∧
     (∀ (r : DiagRun) (obs : List DiagObs), s.diag = some r →
       ∃ t, exec (.diagRunDone obs) s = .next t ∧ t.diag = none ∧
         t.diagBytes = s.diagHeader r true r.points ++ diagEntries r.kind (r.counts (s.get Key.diagPasses).toNat obs) ∧
         t.get Key.diagResult = toWord t.diagBytes.length ∧ t.cmdState Key.diagStart = Cmd.done ∧ t.mode = s.mode))

/-! ## Bursts and the audit (spec/01, spec/03) -/

/-- BURST_START (R23, R30, R76, R232): alone, an accepted start enters BURST with every armed thread in it, the launch on an FREF edge after START_LEAD,
BURST_NUMBER one higher and the strobe and cycle counters at zero; a member of a ring with JOINT sends START_REQ and waits. BURST_LAUNCH (R19, R20, R75,
R235): at the launch of a burst none of whose threads has ended, LAUNCH_EPOCH holds the launch's FREF edge and every ring condition is 0; a single thread that
has issued all its rows reads RUNNING, with no STOP_REASON, not INCOMPLETE, and STOP_CYCLE 0. A slice that starts late raises FS045 after the launch, and a
thread that runs on that slice alone ends with LAUNCH_LATE. -/
def Obligations.BurstsStart : Prop :=
  (∀ (s : State) (p : Sys2Proof.Path), s.serves p → s.startCode = .ok → s.cmdBusy Key.burstStart = false →
     (s.joint = false →
       ∃ t, exec (.burstStart p 0) s = .next t ∧ t.answered Key.burstStart .ok ∧ t.cmdState Key.burstStart = Cmd.done ∧ t.mode = Mode.burst ∧ t.burst.running = true ∧
         t.burst.launched = false ∧ t.burst.threads = s.armedThreads ∧ t.burst.launchTick = frefEdge (s.nowTick + s.leadTicks) ∧ s.nowTick + s.leadTicks ≤ t.burst.launchTick ∧
         (t.get Key.burstNumber).toNat = ((s.get Key.burstNumber).toNat + 1) % 2 ^ 32 ∧
         (∀ k, keyArea k = 0x01 → 0x1000 ≤ keyObj k → 2 ≤ keyEl k → t.get k = shipped k)) ∧
     (s.joint = true →
       ∃ t, exec (.burstStart p 0) s = .next t ∧ t.answered Key.burstStart .ok ∧ t.cmdState Key.burstStart = Cmd.running ∧ t.ring.startFlight = true ∧ t.mode = s.mode)) ∧
  (∀ (s : State), s.ring.launchDue = none → s.mode = Mode.burst → s.burst.running = true → s.burst.launched = false → s.machineCheck = false → s.burst.early = [] →
     ((∀ th ∈ s.burst.threads, s.ended th = false) →
       ∃ t, exec (.burstLaunch []) s = .next t ∧ t.burst.launched = true ∧ t.get Key.launchEpoch = toWord (s.burst.launchTick / 32) ∧ t.get Key.ringCond = 0 ∧ t.mode = s.mode) ∧
     (∀ th, th < 3072 → s.burst.threads = [th] → s.ended th = false → (s.thread th).lastRow = true →
       ∃ t, exec (.burstLaunch []) s = .next t ∧ t.threadSt th = Th.running ∧ t.getF (Key.threadState th) 8 8 = Stop.none ∧ t.getF (Key.threadState th) 16 1 = 0 ∧
         t.get (Key.stopCycle th) = 0) ∧
     (∀ sl th, sl < 32 → th < 3072 → s.burst.threads = [th] → s.ended th = false → s.threadSlices th = [sl] →
       ∃ u : State, exec (.burstLaunch [sl]) s = .next (u.collect [{ source := 45, loc := .slice sl, detail := 0, injected := false }]).settleBurst ∧
         u.burst.launched = true ∧ u.get Key.launchEpoch = toWord (s.burst.launchTick / 32) ∧ u.getF (Key.threadState th) 8 8 = Stop.launchLate ∧ u.mode = s.mode))

/-- BURST_STOP (R75, R76): stopping the one running thread of a launched burst, which is not ending already, ends it DONE with HOST_STOP and INCOMPLETE, its cycle
count is kept, its issued spans are dropped, and the command reads DONE. AUDIT_DRAIN_END and AUDIT_DRAIN_TIMEOUT (R26, R27, R31), with no audit raise injected
and no spill staged: a drained burst reports its drain time, PASSED if the cycle, strobe, fail, credit and DMA guarantees all hold and else FAILED with the
mismatch flag of each one that does not; when all hold nothing is raised. A burst that does not drain in time reports after 10,000 ns FAILED with the credit
flag, and FS043 is among what is raised. -/
def Obligations.BurstsEnd : Prop :=
  (∀ (s : State) (p : Sys2Proof.Path) (th : Nat), s.serves p → s.mode = Mode.burst → s.cmdBusy Key.burstStop = false → th < 3072 → s.burst.threads = [th] → s.burst.running = true →
     s.burst.launched = true → s.ended th = false → (s.thread th).jump = none → (s.thread th).late = [] →
     ∃ t, exec (.burstStop p 0xFFFF) s = .next t ∧ t.answered Key.burstStop .ok ∧ t.cmdState Key.burstStop = Cmd.done ∧ t.threadSt th = Th.done ∧
       t.getF (Key.threadState th) 8 8 = Stop.hostStop ∧ t.getF (Key.threadState th) 16 1 = 1 ∧ t.get (Key.stopCycle th) = toWord (s.thread th).started ∧
       (t.thread th).spans = [] ∧ t.mode = s.mode) ∧
  (∀ (s : State), s.auditSt = 1 → s.injection = none → s.burst.staging = [] → s.burst.judge = [] →
     (∀ ns : Nat, s.drained = true →
       ∃ (u : State) (rs : List Raise), exec (.auditDrainEnd ns) s = .next (u.collect rs).disablePending.settleEntering ∧ u.burst.running = false ∧ u.mode = s.mode ∧
         (u.get Key.auditDrainNs).toNat = min ns (if s.burst.quick then 100 else 10000) ∧
         u.getF Key.auditStatus 8 1 = b2n (s.burst.threads.any (fun th => !s.cycleOk th)) ∧ u.getF Key.auditStatus 9 1 = b2n (s.burst.threads.any (fun th => !s.strobeOk th)) ∧
         u.getF Key.auditStatus 10 1 = b2n (s.burstSites.any (fun x => !s.failOk x)) ∧ u.getF Key.auditStatus 11 1 = b2n (!s.creditOk) ∧
         u.getF Key.auditStatus 12 1 = b2n ((List.range 8).any (fun c => !s.dmaOk c)) ∧ (u.auditSt = 3 ∨ u.auditSt = 4) ∧ (u.auditSt = 3 ↔ u.getF Key.auditStatus 8 5 = 0) ∧
         (u.auditSt = 3 → rs = []) ∧ (∀ i, i < 5 → u.getF Key.auditStatus (8 + i) 1 = 1 → ∃ r ∈ rs, r.source = 40 + i)) ∧
     (s.drained = false →
       ∃ (u : State) (rs : List Raise), exec .auditDrainTimeout s = .next (u.collect rs).disablePending.settleEntering ∧ u.burst.running = false ∧ u.auditSt = 4 ∧
         (u.get Key.auditDrainNs).toNat = 10000 ∧ u.getF Key.auditStatus 11 1 = 1 ∧ ∃ r ∈ rs, r.source = 43))

/-! ## Microwords (spec/05) -/

/-- ADV, TRIG, CAPC, SEGM, FLAG and LOOP (R97, R104, R107, R118): the row is issued for REPEAT + 1 cycles with the event the word names, and the sequential row is
next; nothing outside the thread changes. HALT (R112): the row is issued for REPEAT + 1 cycles as the thread's last, and its core is free. R99, R114: of every
microword. Without a free span credit on every slice it is not executed: the thread is HELD, leaves its core and HELD_EVENTS counts it. With one, a word whose
condition looks at compares not yet judged or at flags whose instant has not come waits, and nothing changes. -/
def Obligations.PlainWordsIssueTheirRow : Prop :=
  (∀ (s : State) (th rep : Nat) (c : Instr) (ev : RowEvent), s.ready th →
     (c = .adv th rep ∧ ev = .none) ∨ (∃ u, c = .trigTrigout th u rep ∧ ev = .trigout u) ∨ (∃ u, c = .trigTiuArm th u rep ∧ ev = .tiuArm u) ∨
       (∃ m, c = .trigAdcStart th m rep ∧ ev = .adcStart m) ∨ (∃ g, c = .trigDacLoad th g rep ∧ ev = .dacLoad g) ∨ (∃ u, c = .trigAcqArm th u rep ∧ ev = .acqArm u) ∨
       (∃ l, c = .trigRing th l rep ∧ ev = .ring l) →
     ∃ t, exec c s = .next t ∧ s.issuedRow t th (rep + 1) ev ∧ (t.thread th).pc = (s.thread th).pc + 1) ∧
  (∀ (s : State) (th rep : Nat), s.ready th →
     ∃ t, exec (.halt th rep) s = .next t ∧ s.issuedRow t th (rep + 1) .none ∧ (t.thread th).lastRow = true ∧ (t.thread th).core = none ∧
       (t.thread th).spans.getLast?.map Span.halts = some true ∧ t.executes th = false) ∧
  (∀ (s : State) (th : Nat) (u : Uop) (c : Instr), wordOf c = some (th, u) → th < 3072 → s.executes th = true →
     (s.hasCredit th = false →
       ∃ t, exec c s = .next t ∧ t.threadSt th = Th.held ∧ (t.thread th).core = none ∧ (t.thread th).pc = (s.thread th).pc ∧ (t.thread th).spans = (s.thread th).spans ∧
         (t.get Key.heldEvents).toNat = ((s.get Key.heldEvents).toNat + 1) % 2 ^ 64 ∧ s.onlyThread t th) ∧
     (s.hasCredit th = true → s.horizonOpen th u = true → exec c s = .next s))

/-- CAPC (R108, R204): FULLCAP, JUDGE and SIG switch what the following strobes get, code 0 leaves it, and SIG 1 resets the signatures with the row. SEGM, FLAG
and LOOP (R108, R111, R117): SEGM begins a segment at the row's first cycle, FLAG clears and then sets user flags, LOOP loads and activates a counter. -/
def Obligations.ContextWordsWrite : Prop :=
  (∀ (s : State) (th fullcap judge sig rep : Nat) (c : Instr), s.ready th →
     c = .capcFullcap th fullcap judge sig rep ∨ c = .capcJudge th fullcap judge sig rep ∨ c = .capcSig th fullcap judge sig rep →
     ∃ t, exec c s = .next t ∧ s.issuedRow t th (rep + 1) .none ∧ (t.thread th).pc = (s.thread th).pc + 1 ∧
       (t.thread th).capture = (if fullcap = 1 then some true else if fullcap = 2 then some false else (s.thread th).capture) ∧
       (t.thread th).judgeMasked = (if judge = 1 then true else if judge = 2 then false else (s.thread th).judgeMasked) ∧
       (t.thread th).sigHeld = (if sig = 2 then true else if sig = 3 then false else (s.thread th).sigHeld) ∧
       ((t.thread th).spans.getLast?.map Span.sigReset = some (sig == 1))) ∧
  (∀ (s : State) (th rep : Nat), s.ready th →
     (∀ (label : Nat) (trigen : Bool) (trigout : Nat),
       ∃ t, exec (.segm th label trigen trigout rep) s = .next t ∧ s.issuedRow t th (rep + 1) (if trigen then .trigout trigout else .none) ∧ (t.thread th).pc = (s.thread th).pc + 1 ∧
         (t.thread th).segLabel = label ∧ (t.thread th).segCount = (s.thread th).segCount + 1 ∧ (t.thread th).segStart = (s.thread th).cycles) ∧
     (∀ (setuf clruf : BitVec 8) (rcn : Nat) (rcpub rcval : Bool),
       ∃ t, exec (.flag th setuf clruf rcn rcpub rcval rep) s = .next t ∧ s.issuedRow t th (rep + 1) (if rcpub then .ringCond rcn rcval else .none) ∧
         (t.thread th).pc = (s.thread th).pc + 1 ∧ (t.thread th).uf = ((s.thread th).uf &&& ~~~ clruf) ||| setuf) ∧
     (∀ ctr count : Nat, ctr < (s.thread th).loops.length →
       ∃ t, exec (.loop th ctr count rep) s = .next t ∧ s.issuedRow t th (rep + 1) .none ∧ (t.thread th).pc = (s.thread th).pc + 1 ∧ (t.thread th).loop ctr = ⟨count, true⟩ ∧
         (∀ i, i ≠ ctr → (t.thread th).loop i = (s.thread th).loop i)))

/-- JMP (R110, R112, R113, R132): taken, PC is the row of the target; not taken, the sequential row; a site condition masks the members on which it does not hold.
A target that is not resident needs a fetch. CALL and RET (R112): a taken CALL pushes the sequential row and goes to its target, a taken RET pops the row it
goes to; with eight rows stacked, or none, the row stops the thread. LEND and PREF (R111, R151): an active counter above 0 counts down and goes back; one at 0
becomes inactive and an inactive one is left, and the sequential row follows. PREF names the row of the alternate stream. -/
def Obligations.BranchesAreFollowed : Prop :=
  (∀ (s : State) (th cond : Nat) (inv : Bool) (target : Int), s.ready th → s.horizonOpen th (.jmp cond inv target) = false →
     ∃ t, exec (.jmp th cond inv target) s = .next t ∧ s.issuedRow t th 1 .none ∧
       (t.thread th).pc = (if (s.branch th cond inv).1 then targetRow (s.thread th).pc target else (s.thread th).pc + 1) ∧
       (∀ o, o ∈ (t.thread th).siteMask ↔ o ∈ (s.thread th).siteMask ∨ o ∈ (s.branch th cond inv).2) ∧ (t.thread th).stack = (s.thread th).stack ∧
       ((s.branch th cond inv).1 = true → (s.thread th).resident (targetRow (s.thread th).pc target) = false →
         (t.thread th).depFetch = min 16 ((s.thread th).depFetch + 1))) ∧
  (∀ (s : State) (th cond : Nat) (inv : Bool), s.ready th →
     (∀ target : Int, s.horizonOpen th (.call cond inv target) = false → (s.branch th cond inv).1 = true →
       ((s.thread th).stack.length < 8 →
         ∃ t, exec (.call th cond inv target) s = .next t ∧ s.issuedRow t th 1 .none ∧ (t.thread th).pc = targetRow (s.thread th).pc target ∧
           (t.thread th).stack = (s.thread th).stack ++ [(s.thread th).pc + 1]) ∧
       (8 ≤ (s.thread th).stack.length →
         ∃ t, exec (.call th cond inv target) s = .next t ∧ s.issuedRow t th 1 .none ∧ (t.thread th).spans.getLast?.map Span.stops = some (some Stop.stackOvf) ∧
           (t.thread th).stack = (s.thread th).stack ∧ t.executes th = false)) ∧
     (s.horizonOpen th (.ret cond inv) = false → (s.branch th cond inv).1 = true →
       (∀ rest row, (s.thread th).stack = rest ++ [row] →
         ∃ t, exec (.ret th cond inv) s = .next t ∧ s.issuedRow t th 1 .none ∧ (t.thread th).pc = row ∧ (t.thread th).stack = rest) ∧
       ((s.thread th).stack = [] →
         ∃ t, exec (.ret th cond inv) s = .next t ∧ s.issuedRow t th 1 .none ∧ (t.thread th).spans.getLast?.map Span.stops = some (some Stop.stackUnf) ∧ t.executes th = false)) ∧
     (∀ target : Int, (s.branch th cond inv).1 = false → s.horizonOpen th (.call cond inv target) = false →
       (∃ t, exec (.call th cond inv target) s = .next t ∧ s.issuedRow t th 1 .none ∧ (t.thread th).pc = (s.thread th).pc + 1 ∧ (t.thread th).stack = (s.thread th).stack) ∧
       (∃ t, exec (.ret th cond inv) s = .next t ∧ s.issuedRow t th 1 .none ∧ (t.thread th).pc = (s.thread th).pc + 1 ∧ (t.thread th).stack = (s.thread th).stack))) ∧
  (∀ (s : State) (th : Nat) (target : Int), s.ready th →
     (∀ (ctr n : Nat), ctr < (s.thread th).loops.length →
       ((s.thread th).loop ctr = ⟨n + 1, true⟩ →
         ∃ t, exec (.lend th ctr target) s = .next t ∧ s.issuedRow t th 1 .none ∧ (t.thread th).loop ctr = ⟨n, true⟩ ∧ (t.thread th).pc = targetRow (s.thread th).pc target) ∧
       ((s.thread th).loop ctr = ⟨0, true⟩ →
         ∃ t, exec (.lend th ctr target) s = .next t ∧ s.issuedRow t th 1 .none ∧ (t.thread th).loop ctr = ⟨0, false⟩ ∧ (t.thread th).pc = (s.thread th).pc + 1) ∧
       (((s.thread th).loop ctr).active = false →
         ∃ t, exec (.lend th ctr target) s = .next t ∧ s.issuedRow t th 1 .none ∧ (t.thread th).loops = (s.thread th).loops ∧ (t.thread th).pc = (s.thread th).pc + 1)) ∧
     (∃ t, exec (.pref th target) s = .next t ∧ s.issuedRow t th 1 .none ∧ (t.thread th).pc = (s.thread th).pc + 1 ∧
       (t.thread th).altRow = some (targetRow (s.thread th).pc target)))

/-- SYNC, WAITTRIG, WAITTIME (R91, R124-R127): a word that must wait leaves the thread WAITING on its dependence with the open repeat begun; a SYNC that only
sends, one that finds a banked token, which it consumes, and a WAITTIME whose time has passed do not. MATCH (R128): the MATCH is in progress with the members
it serves unmasked, its timeout, its first cycle and no pass executed; the first row of its body, the MATCH's own, is issued at once, and the thread is
RUNNING until that cycle starts. -/
def Obligations.WaitingWordsWait : Prop :=
  (∀ (s : State) (th : Nat), s.ready th →
     (∀ (partner : Nat) (send : Bool), ∃ t, exec (.sync th partner send false) s = .next t ∧
       s.issuedRow t th 1 (if send then .token (siteOf (s.ownPort th)) partner (portOf (s.ownPort th)) else .none) ∧ (t.thread th).pc = (s.thread th).pc + 1) ∧
     (∀ (partner tok : Nat) (send : Bool) (rest : List Nat), (s.thread th).banked = tok :: rest → (s.thread th).heldTokens = [] →
       ∃ t, exec (.sync th partner send true) s = .next t ∧
         s.issuedRow t th (max 1 (ceilDiv (tok + 512000 - (s.thread th).issueTu) (s.rowPeriod th (s.thread th).pc)))
           (if send then .token (siteOf (s.ownPort th)) partner (portOf (s.ownPort th)) else .none) ∧
         (t.thread th).banked = rest ∧ (t.thread th).depSync = (s.thread th).depSync + 1 ∧ (t.thread th).waitRun = (s.thread th).waitRun ∧
         (t.thread th).pc = (s.thread th).pc + 1) ∧
     (∀ (partner : Nat) (send : Bool), (s.thread th).banked = [] → (s.thread th).depSync = 0 →
       ∃ t, exec (.sync th partner send true) s = .next t ∧ s.issuedRow t th 1 (if send then .token (siteOf (s.ownPort th)) partner (portOf (s.ownPort th)) else .none) ∧
         t.threadSt th = Th.waiting ∧ (t.thread th).depSync = 1 ∧ (t.thread th).core = none ∧
         (t.thread th).waitRun = some { kind := .sync, first := (s.thread th).cycles, firstTu := (s.thread th).issueTu, wake := none }) ∧
     (∀ (source timeout : Nat), ∃ t, exec (.waittrig th source timeout) s = .next t ∧ s.issuedRow t th 1 .none ∧ t.threadSt th = Th.waiting ∧ (t.thread th).depTrig = true ∧
       (t.thread th).core = none ∧ (t.thread th).waitRun = some { kind := .trig source timeout, first := (s.thread th).cycles, firstTu := (s.thread th).issueTu, wake := none }) ∧
     (∀ time : Nat, (s.thread th).issueTu ≤ time * 40000 →
       ∃ t, exec (.waittime th time) s = .next t ∧ s.issuedRow t th 1 .none ∧ t.threadSt th = Th.waiting ∧ (t.thread th).depTime = true ∧ (t.thread th).wlate = false ∧
         (t.thread th).core = none ∧
         (t.thread th).waitRun = some { kind := .time (time * 40000), first := (s.thread th).cycles, firstTu := (s.thread th).issueTu, wake := some (time * 40000) }) ∧
     (∀ time : Nat, time * 40000 < (s.thread th).issueTu →
       ∃ t, exec (.waittime th time) s = .next t ∧ s.issuedRow t th 1 .none ∧ (t.thread th).wlate = true ∧ (t.thread th).waitRun = (s.thread th).waitRun ∧
         (t.thread th).pc = (s.thread th).pc + 1)) ∧
  (∀ (s : State) (th body timeout : Nat) (inv : Bool), s.ready th →
     ∃ t m, exec (.matchStart th body timeout inv) s = .next t ∧ (t.thread th).matchRun = some m ∧ t.threadSt th = Th.running ∧ m.row = (s.thread th).pc ∧ m.body = body ∧
       m.timeout = timeout ∧ m.inv = inv ∧ m.served = s.openOrds th ∧ m.first = (s.thread th).cycles ∧ m.firstTu = (s.thread th).issueTu ∧ m.pass = 0 ∧ m.met = [] ∧
       (∃ sp rest, (t.thread th).spans = (s.thread th).spans ++ sp :: rest ∧ sp.row = (s.thread th).pc ∧ sp.first = (s.thread th).cycles ∧ sp.inMatch = true) ∧
       (∀ i, i ≠ th → t.thread i = s.thread i))

/-! ## The scheduler, spans and cycles (spec/04, spec/07, spec/09) -/

/-- DISPATCH and PREEMPT (R90, R94, R95): the READY thread that goes first on a free core runs on it, or on a free core that caches its context where the core
offered does not; that core caches it first of its contexts. A thread that has run 10 ns on a device with no free core gives its core back to READY where a
READY thread has less slack. -/
def Obligations.CoresRunThreads : Prop :=
  ∀ (s : State) (core th : Nat), core < 64 → s.machineCheck = false →
    (s.mode = Mode.burst → s.onCore core = none → s.nextReady core = some th → s.injection = none →
      ∃ t home, exec (.dispatch core) s = .next t ∧ (home = core ∨ ((mget [] s.caches core).contains th = false ∧ (mget [] s.caches home).contains th = true ∧ s.onCore home = none)) ∧
        t.threadSt th = Th.running ∧ (t.thread th).core = some home ∧ (t.thread th).runSince = s.raw ∧
        (mget [] t.caches home).head? = some th ∧ (mget [] t.caches home).length ≤ 16 ∧ (∀ i, i ≠ th → t.thread i = s.thread i) ∧
        s.objectsBut t [Key.threadState th]) ∧
    (s.onCore core = some th → (s.thread th).runSince + 8 ≤ s.raw → s.threadSt th = Th.running → (s.thread th).matchRun = none → (∀ c, c < 64 → (s.onCore c).isSome = true) →
      (∃ x ∈ s.readyThreads, s.effSlack x < s.slack th) →
      ∃ t, exec (.preempt core) s = .next t ∧ t.threadSt th = Th.ready ∧ (t.thread th).core = none ∧ (t.thread th).readySince = s.raw ∧ (∀ i, i ≠ th → t.thread i = s.thread i) ∧
        s.objectsBut t [Key.threadState th])

/-- SPAN_ARRIVAL (R97): the span a slice expects is released, an early one is held without being released, and a number beyond the share raises FS036.
SPAN_CREDIT_RETURN and FETCH_COMPLETE (R91, R97, R98, R99): a credit that a slice owes comes back, never above the share, and a thread that was HELD for it
alone is READY; a fetch counts DEP_FETCH down, and the thread that waited for nothing else is READY. -/
def Obligations.SpansAndCreditsMove : Prop :=
  (∀ (s : State) (sl th seq : Nat), sl < 32 → s.live th = true → (s.threadSlices th).contains sl = true → seq < 2 ^ 32 → mget 0 (s.slice sl).expect th < 2 ^ 32 →
     (seq = mget 0 (s.slice sl).expect th → 0 < s.spanShare sl th → (s.slice sl).held.contains (th, (seq + 1) % 2 ^ 32) = false →
       ∃ t, exec (.spanArrival sl th seq) s = .next t ∧ mget 0 (t.slice sl).expect th = (seq + 1) % 2 ^ 32 ∧ (t.slice sl).held.contains (th, seq) = false ∧
         (∀ i, i ≠ sl → t.slice i = s.slice i) ∧ { t with slices := s.slices } = s) ∧
     (0 < (seq + 2 ^ 32 - mget 0 (s.slice sl).expect th) % 2 ^ 32 → (seq + 2 ^ 32 - mget 0 (s.slice sl).expect th) % 2 ^ 32 < s.spanShare sl th →
       (s.slice sl).held.contains (th, mget 0 (s.slice sl).expect th) = false →
       ∃ t, exec (.spanArrival sl th seq) s = .next t ∧ (t.slice sl).expect = (s.slice sl).expect ∧ (t.slice sl).held.contains (th, seq) = true ∧
         (∀ i, i ≠ sl → t.slice i = s.slice i) ∧ { t with slices := s.slices } = s) ∧
     (s.spanShare sl th ≤ (seq + 2 ^ 32 - mget 0 (s.slice sl).expect th) % 2 ^ 32 → exec (.spanArrival sl th seq) s = .next (s.fault 36 (.thread th) 0))) ∧
  (∀ (s : State) (sl th : Nat), sl < 32 → th < 3072 →
     (mget 0 (s.slice sl).owed th ≠ 0 → (s.thread th).matchRun = none →
       (s.threadSt th ≠ Th.held →
         ∃ t, exec (.spanCreditReturn sl th) s = .next t ∧ mget 0 (t.slice sl).owed th + 1 = mget 0 (s.slice sl).owed th ∧
           t.spanFree sl th = min (s.spanShare sl th) (s.spanFree sl th + 1) ∧ (∀ i, i ≠ sl → t.slice i = s.slice i) ∧ { t with slices := s.slices } = s) ∧
       (s.threadSt th = Th.held → 0 < s.spanShare sl th → (∀ x ∈ s.threadSlices th, x ≠ sl → 0 < s.spanFree x th) → (s.thread th).depends = false → s.heldByToken th = false →
         ∃ t, exec (.spanCreditReturn sl th) s = .next t ∧ mget 0 (t.slice sl).owed th + 1 = mget 0 (s.slice sl).owed th ∧
           t.spanFree sl th = min (s.spanShare sl th) (s.spanFree sl th + 1) ∧ t.threadSt th = Th.ready ∧ (t.thread th).readySince = s.raw ∧
           (∀ i, i ≠ th → t.thread i = s.thread i))) ∧
     (1 < (s.thread th).depFetch →
       ∃ t, exec (.fetchComplete th) s = .next t ∧ (t.thread th).depFetch + 1 = (s.thread th).depFetch ∧ t.threadSt th = s.threadSt th ∧ (∀ i, i ≠ th → t.thread i = s.thread i)) ∧
     ((s.thread th).depFetch = 1 → s.threadSt th = Th.waiting → (s.thread th).depSync ≤ 0 → (s.thread th).depTrig = false → (s.thread th).depTime = false → s.hasCredit th = true →
       s.heldByToken th = false →
       ∃ t, exec (.fetchComplete th) s = .next t ∧ (t.thread th).depFetch = 0 ∧ t.threadSt th = Th.ready ∧ (t.thread th).readySince = s.raw ∧ (∀ i, i ≠ th → t.thread i = s.thread i)))

/-- WAITTRIG_TIMEOUT, WAITTIME_WAKE, SYNC_TOKEN (R91, R125-R127), of a thread with no host jump to take: the end of a wait clears its dependence and closes the
open repeat, WTO telling a timeout after TIMEOUT cycles, and the thread that waited for nothing else is READY; a token that no SYNC awaits is banked with its
event time, or held back with the sender HELD where 15 places are taken. MATCH_EXIT (R130), of a thread with no host jump to take: once the passes through the
exit pass have executed, the row after the body is next, MTO tells whether the MATCH timed out, and the cycles and the time of the passes count. -/
def Obligations.WaitsEnd : Prop :=
  (∀ (s : State) (th : Nat), th < 3072 → s.live th = true → (s.thread th).jump = none →
     (∀ src timeout first ftu wake, (s.thread th).waitRun = some ⟨.trig src timeout, first, ftu, wake⟩ → timeout ≠ 0 → first + timeout ≤ (s.thread th).started →
       ∃ t, exec (.waittrigTimeout th) s = .next t ∧ (t.thread th).depTrig = false ∧ (t.thread th).wto = true ∧ (t.thread th).waitRun = none ∧
         (t.thread th).cycles = first + max timeout ((s.thread th).cycles - first) ∧ (∀ i, i ≠ th → t.thread i = s.thread i) ∧
         (s.threadSt th = Th.waiting → (s.thread th).depFetch = 0 → (s.thread th).depSync ≤ 0 → (s.thread th).depTime = false → s.hasCredit th = true → s.heldByToken th = false →
           t.threadSt th = Th.ready)) ∧
     (∀ wake first ftu w, (s.thread th).waitRun = some ⟨.time wake, first, ftu, w⟩ → wake ≤ (s.thread th).startTu + 512000 →
       ∃ t, exec (.waittimeWake th) s = .next t ∧ (t.thread th).depTime = false ∧ (t.thread th).waitRun = none ∧ (∀ i, i ≠ th → t.thread i = s.thread i)) ∧
     (∀ sender time, s.tokens.contains (th, sender, time) = true → (s.thread th).waitRun = none → s.placesTaken th < 15 →
       ∃ t, exec (.syncToken th sender time) s = .next t ∧ (t.thread th).banked = (s.thread th).banked ++ [time] ∧ (t.thread th).depSync = (s.thread th).depSync - 1 ∧
         t.tokens = s.tokens.erase (th, sender, time) ∧ (∀ i, i ≠ th → t.thread i = s.thread i) ∧ t.objs = s.objs) ∧
     (∀ sender time, s.tokens.contains (th, sender, time) = true → (s.thread th).waitRun = none → 15 ≤ s.placesTaken th → sender < 3072 → s.ended sender = false →
       ∃ t, exec (.syncToken th sender time) s = .next t ∧ (t.thread th).banked = (s.thread th).banked ∧ (t.thread th).heldTokens = (s.thread th).heldTokens ++ [(sender, time)] ∧
         t.threadSt sender = Th.held ∧ t.tokens = s.tokens.erase (th, sender, time)) ∧
     (∀ sender time first ftu wake, s.tokens.contains (th, sender, time) = true → (s.thread th).waitRun = some ⟨.sync, first, ftu, wake⟩ →
       ∃ t, exec (.syncToken th sender time) s = .next t ∧ (t.thread th).depSync = (s.thread th).depSync - 1 ∧ (t.thread th).waitRun = none ∧
         (t.thread th).banked = (s.thread th).banked)) ∧
  (∀ (s : State) (th e : Nat) (m : MatchRun), th < 3072 → s.live th = true → (s.thread th).matchRun = some m → m.exit = some e → m.first + (e + 1) * m.len ≤ (s.thread th).started →
     (s.thread th).jump = none →
     ∃ t, exec (.matchExit th) s = .next t ∧ (t.thread th).matchRun = none ∧ (t.thread th).pc = m.row + m.body + 1 ∧ (t.thread th).mto = m.timedOut ∧
       (t.thread th).cycles = m.first + (e + 1) * m.len ∧ (t.thread th).issueTu = m.firstTu + (e + 1) * m.dur ∧ (∀ i, i ≠ th → t.thread i = s.thread i) ∧ t.mode = s.mode)

/-- HOST_JUMP, HOST_JUMP_TAKEN, HOST_TRIG (R121, R122, R126, R243): an accepted jump waits PENDING on every running thread of the group, reaching them 8 ns later.
At a boundary, a row that begins a segment whose preceding row has not begun then, the entry row is next and HJ_TAKEN_CYCLE holds the cycle: where the row is
the next to issue, and where it has been issued, with its span and what follows discarded and their cycles taken back. HOST_JUMP reads DONE once no thread has
still to take it. An accepted write of HOST_TRIG is line 17: a thread that waits for it alone wakes, and with nothing to take the line only the answer
differs. -/
def Obligations.HostJumpsAreTaken : Prop :=
  ∀ (s : State) (p : Sys2Proof.Path) (th : Nat), th < 3072 →
    (∀ arg : Word, s.serves p → s.mode = Mode.burst → s.cmdBusy (Key.hostJump th) = false → arg.toNat ≤ 3 → s.get (Key.hjEntry th arg.toNat) ≠ 0xFFFFFFFFFFFFFFFF →
      s.burst.threads.contains th = true → (s.groupThreads th).filter (fun t => s.live t) ≠ [] →
      ∃ t, exec (.hostJump p th arg) s = .next t ∧ t.answered (Key.hostJump th) .ok ∧ t.cmdState (Key.hostJump th) = Cmd.pending ∧
        (∀ x, x ∈ s.groupThreads th → s.live x = true → (t.thread x).jump = some ⟨arg.toNat, th, s.sliceNow + 32000, false⟩) ∧
        (∀ x, x ∉ s.groupThreads th → t.thread x = s.thread x) ∧ s.objectsBut t [Key.hostJump th]) ∧
    (∀ (j : JumpReq) (sp : Span), (s.thread th).jump = some j → j.atEnd = false → j.who < 3072 → s.live th = true → s.machineCheck = false → (s.thread th).spans = [sp] →
      (s.thread th).started ≤ sp.first → j.reach < s.lastStart th → s.segmNext th (s.thread th).pc = true → (s.thread th).matchRun = none → (s.thread th).waitRun = none →
      (s.thread th).lastRow = false →
      ∃ t, exec (.hostJumpTaken th) s = .next t ∧ (t.thread th).pc = (s.get (Key.hjEntry j.who j.entry)).toNat ∧ (t.thread th).jump = none ∧
        t.get (Key.hjTakenCycle th) = toWord (s.thread th).cycles ∧ (∀ i, i ≠ th → t.thread i = s.thread i) ∧
        ((∀ x ∈ s.threads, x.1 ≠ th → x.2.jump = none) → s.canonical = true → t.cmdState (Key.hostJump j.who) = Cmd.done)) ∧
    (∀ (j : JumpReq) (a b : Span) (n : Snap), (s.thread th).jump = some j → j.atEnd = false → j.who < 3072 → s.live th = true → s.machineCheck = false →
      (s.thread th).spans = [a, b] → b.snap = some n → a.first < b.first → (s.thread th).started ≤ a.first → j.reach < (s.thread th).startTu →
      ∃ t, exec (.hostJumpTaken th) s = .next t ∧ (t.thread th).pc = (s.get (Key.hjEntry j.who j.entry)).toNat ∧ (t.thread th).jump = none ∧ (t.thread th).spans = [a] ∧
        (t.thread th).cycles = b.first ∧ t.get (Key.hjTakenCycle th) = toWord b.first ∧
        t.get (Key.cyclesIssued th) = toWord ((s.get (Key.cyclesIssued th)).toNat - ((s.thread th).cycles - b.first)) ∧ (∀ i, i ≠ th → t.thread i = s.thread i)) ∧
    (∀ v : Word, s.serves p → s.writeCode (s.overlay Key.hostTrig v) p Key.hostTrig v = .ok → s.unitsRun = true →
      (s.lineFree 17 → ∃ t, exec (.hostTrig p v) s = .next t ∧ t.answered Key.hostTrig .ok ∧ s.onlyObjects t []) ∧
      (∀ timeout first ftu wake, s.burst.threads = [th] → s.lineFires 17 = [] → (s.thread th).waitRun = some ⟨.trig 17 timeout, first, ftu, wake⟩ →
        (ftu : Int) ≤ s.portTime s.nowTick → timeout = 0 → (s.thread th).jump = none →
        ∃ t, exec (.hostTrig p v) s = .next t ∧ t.answered Key.hostTrig .ok ∧ (t.thread th).depTrig = false ∧ (t.thread th).wto = false ∧ (t.thread th).waitRun = none))

/-- CYCLE_START (R24, R155, R161, R203): a cycle whose row and spans are there, on permitted and trained channels of slices that all started, with nothing staged
for the fail log, executes: CYCLES_EXECUTED and the strobe counts advance by what it placed, the cycle number by one, and the span has one cycle less. Without
a span the port underruns: the thread ends FAULTED with REFILL_UNDERRUN, UNDERRUNS and SPAN_STARVE count it, and FS047 is raised. -/
def Obligations.CyclesExecute : Prop :=
  ∀ (s : State) (th : Nat) (obs : List ChanObs), th < 3072 → s.machineCheck = false → s.burst.launched = true → s.live th = true → s.injection = none → (s.thread th).late = [] →
    (∀ sp rest, (s.thread th).spans = sp :: rest → s.rowLost th sp.row = false → s.spanReady th sp = true → sp.stops = none → sp.event = .none → sp.maskedOrds = [] →
      sp.waiting = false → sp.halts = false → (s.thread th).matchRun = none → s.burst.staging = [] →
      (∀ x ∈ s.served th, ∀ g ∈ s.channels x.2, s.permits g = true ∧ s.laneState g = 1) →
      ∃ t, exec (.cycleStart th obs false .clean) s = .next t ∧
        (t.get (Key.cyclesExecuted th)).toNat = ((s.get (Key.cyclesExecuted th)).toNat + 1) % 2 ^ 64 ∧
        (t.get (Key.strobesPlaced th)).toNat = ((s.get (Key.strobesPlaced th)).toNat + (s.strobes th sp obs).length) % 2 ^ 64 ∧
        (t.get (Key.strobesJudged th)).toNat = ((s.get (Key.strobesJudged th)).toNat + (s.strobes th sp obs).length) % 2 ^ 64 ∧
        (t.get (Key.fails th)).toNat = ((s.get (Key.fails th)).toNat + ((s.strobes th sp obs).filter (fun x => x.fail && !x.masked)).length) % 2 ^ 64 ∧
        (t.thread th).started = (s.thread th).started + 1 ∧ (sp.left = 1 → (t.thread th).spans = rest) ∧
        (2 ≤ sp.left → (t.thread th).spans = { sp with left := sp.left - 1 } :: rest) ∧ t.mode = s.mode) ∧
    ((s.thread th).spans = [] → s.burst.threads = [th] → (s.thread th).jump = none →
      ∃ u : State, exec (.cycleStart th obs false .clean) s = .next ((u.fault 47 (.thread th) 0).endLate th) ∧ u.threadSt th = Th.faulted ∧
        u.getF (Key.threadState th) 8 8 = Stop.refillUnderrun ∧ (u.get Key.underruns).toNat = ((s.get Key.underruns).toNat + 1) % 2 ^ 32 ∧
        (u.get Key.spanStarve).toNat = ((s.get Key.spanStarve).toNat + 1) % 2 ^ 32 ∧ u.mode = s.mode)

/-! ## Rules stated whole -/

/-- R201: the table of the four compare symbols against the S-lane's state at CA, for the strobe of a channel that is not disabled, under EDGE, and under WIN
where the S-lane shows no later state before CB; no other symbol places a strobe. -/
def Obligations.StrobesAreJudgedByTheTable : Prop :=
  ∀ (s : State) (th ord o k g : Nat) (sp : Span) (obs : List ChanObs), (s.cmpFmt g (s.rowTs th sp.row) = 1 ∨ s.cmpFmt g (s.rowTs th sp.row) = 2 ∧ (obsOf obs g).later = []) → (s.edge g (s.rowTs th sp.row) 4).isSome = true → s.laneState g ≠ 2 →
    (∀ (sym : Nat) (pass : Tern → Bool), s.symbol th o sp.row k = sym →
      (sym, pass) ∈ [(4, fun l => decide (l = .low)), (5, fun l => decide (l = .high)), (6, fun l => decide (l = .mid)), (7, fun l => decide (l ≠ .mid))] →
      ∃ x, s.strobeOf th sp obs ord o k g = some x ∧ x.fail = !pass (obsOf obs g).atCA) ∧
    (s.symbol th o sp.row k ∉ [4, 5, 6, 7] → s.strobeOf th sp obs ord o k g = none)

/-- R185: D_T is half of RT and ASYM, ASYM being LANE_ASYM × 8 ÷ 25, rounded with a tie upward, and D_S the rest of RT; a channel with either outside 0-12,000 ps,
15,360 grid steps, is disabled with DESKEW_RANGE, any other passes with both. -/
def Obligations.TheRoundTripIsSplit : Prop :=
  (∀ (rt : Nat) (asym : Int), (splitT rt asym : Rat) ≤ ((rt : Rat) + asym * 8 / 25) / 2 + 1 / 2 ∧ ((rt : Rat) + asym * 8 / 25) / 2 + 1 / 2 < (splitT rt asym : Rat) + 1) ∧
    ∀ (s : State) (r : DeskewResult) (dt ds : Int), r.channel < 1024 → earlyCause r = 0 → 150 ≤ r.eye → dt = splitT (rtOf r) (s.get (Key.laneAsym r.channel)).toInt → ds = rtOf r - dt →
      (0 ≤ dt → dt ≤ 15360 → 0 ≤ ds → ds ≤ 15360 →
        (s.deskewChannel r).laneState r.channel = 1 ∧ (s.deskewChannel r).get (Key.laneDt r.channel) = toWord (gridFs dt.toNat) ∧
          (s.deskewChannel r).get (Key.laneDs r.channel) = toWord (gridFs ds.toNat)) ∧
      (dt < 0 ∨ 15360 < dt ∨ ds < 0 ∨ 15360 < ds →
        (s.deskewChannel r).laneState r.channel = 2 ∧ (s.deskewChannel r).getF (Key.laneStatus r.channel) 4 4 = 3 ∧ (s.deskewChannel r).lane r.channel = .highZ)

/-- R290: on an ACT below the threshold of R291 the row's entry counts one more, or it takes a free one with count 1, or, of 256 in use, one of lowest count with
that count and one; every other entry stays. The start of the rank's refresh window clears its entries. -/
def Obligations.TheActivateTableCounts : Prop :=
  ∀ (s : State) (sub rank bank row : Nat), sub < 12 → s.hasRank sub rank = true →
    ((countAct (s.subch sub).acts rank bank row).2 < (s.get Key.actThreshold).toNat →
      ∃ t, exec (.act sub rank bank row) s = .next t ∧
        (∀ e, (s.subch sub).acts.find? (fun x => x.rank == rank && x.bank == bank && x.row == row) = some e →
          (t.subch sub).acts.find? (fun x => x.rank == rank && x.bank == bank && x.row == row) = some ⟨rank, bank, row, e.count + 1⟩ ∧
            (t.subch sub).acts.length = (s.subch sub).acts.length ∧
            (∀ x ∈ (s.subch sub).acts, (x.rank, x.bank, x.row) ≠ (rank, bank, row) → x ∈ (t.subch sub).acts)) ∧
        ((∀ x ∈ (s.subch sub).acts, (x.rank, x.bank, x.row) ≠ (rank, bank, row)) →
          ((s.subch sub).acts.length < 256 → (t.subch sub).acts = (s.subch sub).acts ++ [⟨rank, bank, row, 1⟩]) ∧
          (256 ≤ (s.subch sub).acts.length →
            ∃ v ∈ (s.subch sub).acts, (∀ x ∈ (s.subch sub).acts, v.count ≤ x.count) ∧ ⟨rank, bank, row, v.count + 1⟩ ∈ (t.subch sub).acts ∧
              (t.subch sub).acts.length = (s.subch sub).acts.length ∧ (∀ x ∈ (s.subch sub).acts, x = v ∨ x ∈ (t.subch sub).acts)))) ∧
    (∃ t, exec (.actWindowReset sub rank) s = .next t ∧ (∀ e ∈ (t.subch sub).acts, e.rank ≠ rank) ∧ (∀ e ∈ (s.subch sub).acts, e.rank ≠ rank → e ∈ (t.subch sub).acts))

/-- R355: a routine that has not committed when its overrun falls due is abandoned, its slices free again with LBK low, its request FAILED with HW_FAIL and out of
the queue, and FS079 is raised. -/
def Obligations.OverrunsAbandonTheRoutine : Prop :=
  ∀ (s : State) (r : Routine), s.routine = some r → s.machineCheck = false → r.slot < 16 → (∀ sl ∈ r.slices, sl < 32) →
    (r.postCommit = false →
      ∃ t : State, exec .routineOverrun s = .next (t.fault 79 .none 0) ∧ t.routine = none ∧ (∀ sl ∈ r.slices, t.sliceModeOf sl ≠ 1 ∧ (t.slice sl).lbk = .low) ∧ t.cmdState (Key.reqCmd r.slot) = Cmd.failed ∧
        t.getF (Key.reqCmd r.slot) 8 6 = Code.hwFail.toNat ∧ r.slot ∉ t.badgerQueue) ∧
    (r.postCommit = true → exec .routineOverrun s = .next s)

/-! ## Lichen (spec/18) -/

/-- DICT_PERSIST, DICT_PERSIST_DONE, DICT_REVERT (R41, R42, R397, R398, R406): a persist draws a token and starts the write of the bank not in use, which reads
INCOMPLETE, with the N objects that differ from their shipped values; verified, that bank is the valid one under the next sequence number. A revert gives
every N object, here of an area that only holds its values, the valid bank's value again, or its shipped one. -/
def Obligations.TheDictionaryPersists : Prop :=
  ∀ (s : State) (p : Sys2Proof.Path),
    (s.serves p → s.mode = Mode.idle ∨ s.mode = Mode.service → s.quiesceAsked = false → s.lichenBusy = false → s.bankImage.length ≤ 98296 → s.get (Key.nvmTokens 0) ≠ 0 →
      ∃ t, exec (.dictPersist p 0) s = .next t ∧ t.answered Key.dictPersist .ok ∧ t.cmdState Key.dictPersist = Cmd.running ∧ t.nvm.persistImage = some s.bankImage ∧
        (t.nvm.bank s.persistBank).cls = .incomplete ∧ (t.get (Key.nvmTokens 0)).toNat + 1 = (s.get (Key.nvmTokens 0)).toNat ∧
        s.objectsBut t [Key.dictPersist, Key.nvmTokens 0]) ∧
    (∀ image, s.nvm.persistImage = some image → s.cmdBusy Key.dictPersist = true → s.nvm.snapshotDue = false → s.quiesceAsked = false →
      ∃ t, exec (.dictPersistDone true) s = .next t ∧ t.cmdState Key.dictPersist = Cmd.done ∧ t.nvm.persistImage = none ∧ t.get Key.dictBank = toWord s.persistBank ∧
        t.get Key.dictBankSeq = toWord ((s.get Key.dictBankSeq).toNat + 1) ∧ t.nvm.bank s.persistBank = ⟨.valid, (s.get Key.dictBankSeq).toNat + 1, image⟩ ∧
        s.objectsBut t [Key.dictPersist, Key.dictBank, Key.dictBankSeq]) ∧
    (s.serves p → s.mode = Mode.idle ∨ s.mode = Mode.service → s.quiesceAsked = false → s.cmdBusy Key.dictPersist = false → s.cmdBusy Key.dictRevert = false →
      (∀ e ∈ s.bankImage ++ s.bankEntries, quietArea e.1 = true) →
      ∃ t, exec (.dictRevert p 0) s = .next t ∧ t.answered Key.dictRevert .ok ∧ t.cmdState Key.dictRevert = Cmd.done ∧
        (∀ k, isBankKey k = true → k ≠ Key.loadStatus → k ≠ Key.dictRevert → t.get k = mget (shipped k) s.bankEntries k) ∧
        (∀ k, isBankKey k = false → k ≠ Key.loadStatus → k ≠ Key.dictRevert → t.get k = s.get k))

/-- BB_NOTE, LEDGER_SECOND, LEDGER_SNAPSHOT (R400, R402, R404-R406): a note draws a token and is the newest record with its value, the records behind the newest
1,024 dropped; a second counts POWER_ON_SECONDS and the bin of the hottest sensor, and refills at its rate each bucket whose interval ends with it, up to its
size; a snapshot is the copy in use then, and behind another write it waits. FW_ACTIVATE and FW_ACTIVATE_DONE (R415): the command starts the checks; a
verified write of the boot selector names the other slot, which the next BOOT tries first; an image that the checks reject leaves the selector and draws no
token. -/
def Obligations.LichenKeepsItsRecords : Prop :=
  (∀ (s : State) (p : Sys2Proof.Path),
     (∀ v : Word, s.serves p → s.cmdMode = false → s.quiesceAsked = false → s.cmdBusy Key.bbNote = false → s.get (Key.nvmTokens 3) ≠ 0 → s.nvm.closed = false →
       ∃ t r, exec (.bbNote p v) s = .next t ∧ t.answered Key.bbNote .ok ∧ t.cmdState Key.bbNote = Cmd.done ∧ t.nvm.blackBox.getLast? = some r ∧ r.typ = 6 ∧ r.payload = [v] ∧
         r.seq = (s.get Key.bbNextSeq).toNat ∧ r.rawTime = s.raw ∧ (t.get Key.bbNextSeq).toNat = ((s.get Key.bbNextSeq).toNat + 1) % 2 ^ 32 ∧ (∀ x ∈ t.nvm.blackBox, (r.seq + 2 ^ 32 - x.seq) % 2 ^ 32 < 1024) ∧
         (t.get (Key.nvmTokens 3)).toNat + 1 = (s.get (Key.nvmTokens 3)).toNat ∧ s.objectsBut t [Key.bbNote, Key.nvmTokens 3, Key.bbNextSeq, Key.bbValid]) ∧
     (∀ temps : List Int, s.mode ≠ Mode.reset → temps ≠ [] → hottest temps - coolest temps ≤ 640 → s.liveBit 93 = false →
       ∃ t, exec (.ledgerSecond temps) s = .next t ∧ (t.get Key.powerOnSeconds).toNat = ((s.get Key.powerOnSeconds).toNat + 1) % 2 ^ 64 ∧
         (t.get (Key.tempBin (tempBinOf (hottest temps)))).toNat = ((s.get (Key.tempBin (tempBinOf (hottest temps)))).toNat + 1) % 2 ^ 32 ∧
         t.ledger.tjMax = max s.ledger.tjMax (hottest temps) ∧ t.dieTemp = hottest temps ∧ t.bootSeconds = s.bootSeconds + 1 ∧
         (∀ x ∈ bucketRates, (t.get (Key.nvmTokens x.1)).toNat =
           if (s.bootSeconds + 1) % x.2.1 = 0 then min x.2.2 ((s.get (Key.nvmTokens x.1)).toNat + 1) else (s.get (Key.nvmTokens x.1)).toNat) ∧
         s.objectsBut t [Key.powerOnSeconds, Key.tempBin (tempBinOf (hottest temps)), Key.nvmTokens 0, Key.nvmTokens 1, Key.nvmTokens 2, Key.nvmTokens 3] ∧ t.mode = s.mode) ∧
     (Mode.train ≤ s.mode → s.nvm.closed = false → s.powerFailing = false →
       (s.lichenBusy = false →
         ∃ t i c, exec .ledgerSnapshot s = .next t ∧ t.nvm.ledInUse = some (i, c) ∧ c.seconds = (s.get Key.powerOnSeconds).toNat ∧ c.rest = s.ledger ∧
           c.bins = (List.range 16).map (fun j => s.get (Key.tempBin j)) ∧ t.nvm.snapshotDue = false ∧ { t with nvm := s.nvm } = s) ∧
       (s.lichenBusy = true → ∃ t, exec .ledgerSnapshot s = .next t ∧ t.nvm = { s.nvm with snapshotDue := true } ∧ { t with nvm := s.nvm } = s))) ∧
  (∀ (s : State) (p : Sys2Proof.Path),
     (s.serves p → s.mode = Mode.service → s.quiesceAsked = false → s.lichenBusy = false →
       ∃ t, exec (.fwActivate p 0) s = .next t ∧ t.answered Key.fwActivate .ok ∧ t.cmdState Key.fwActivate = Cmd.running ∧ s.onlyObjects t [Key.fwActivate]) ∧
     (s.cmdBusy Key.fwActivate = true → s.nvm.snapshotDue = false → s.quiesceAsked = false →
       (s.get (Key.nvmTokens 2) ≠ 0 →
         ∃ t, exec (.fwActivateDone 0) s = .next t ∧ t.cmdState Key.fwActivate = Cmd.done ∧ t.nvm.bootSlot = 1 - s.nvm.bootSlot ∧
           (t.get (Key.nvmTokens 2)).toNat + 1 = (s.get (Key.nvmTokens 2)).toNat ∧ s.objectsBut t [Key.fwActivate, Key.nvmTokens 2]) ∧
       (∀ n : Nat, n = 1 ∨ n = 2 →
         ∃ t, exec (.fwActivateDone n) s = .next t ∧ t.cmdState Key.fwActivate = Cmd.failed ∧ t.getF Key.fwActivate 8 6 = Code.range.toNat ∧ t.getF Key.fwActivate 16 16 = n ∧
           t.nvm = s.nvm ∧ s.objectsBut t [Key.fwActivate])))

/-! ## The instrument and the level DACs (spec/11, spec/12) -/

/-- TRIGIN_EDGE, TRIGOUT_PULSE, TRIGOUT_END (R242-R244): an input takes its level; where that makes it active, by INVERT, while the units run, it arrives, and a
line on which only time-interval units and ADC inputs wait arms and starts them on the service-logic edge that follows; otherwise nothing else happens. A
pulse activates the outputs named, an active one is merged, and its end makes the output inactive; each shows the level that INVERT gives it. -/
def Obligations.TriggersAct : Prop :=
  ∀ (s : State) (p : Sys2Proof.Path),
    (∀ (n : Nat) (high : Bool), n < 8 → s.unitsRun = true → s.triginOn n = false → high = !bit (s.get (Key.triginCfg n)) 0 → s.burst.threads = [] →
      (∀ u, u < 8 → (bit (s.get (Key.acqCtrl u)) 21 = false ∨ s.getF (Key.acqCtrl u) 22 5 ≠ n) ∧ (bit (s.get (Key.acqCtrl u)) 15 = false ∨ s.getF (Key.acqCtrl u) 16 5 ≠ n)) →
      ∃ t, exec (.triginEdge n high) s = .next t ∧ t.mode = s.mode ∧ t.triginOn n = true ∧
        (∀ u, u < 16 → bit (s.get (Key.tiuCtrl u)) 6 = true → s.getF (Key.tiuCtrl u) 10 5 = n → s.tiuSt u = 0 →
          t.tiuSt u = (if s.tiuMode u = 2 ∨ s.tiuMode u = 3 then 2 else 1) ∧ (t.tiuRun u).armTick = edgeAfter (s.nowTick + 16)) ∧
        (∀ a, a < 16 → bit (s.get (Key.adcCfg a)) 4 = true → s.getF (Key.adcCfg a) 7 5 = n → s.adcRunning a = false → t.adcRunning a = true)) ∧
    (∀ (n : Nat) (high : Bool), n < 8 → s.unitsRun = false ∨ s.triginOn n = true ∨ high = bit (s.get (Key.triginCfg n)) 0 →
      ∃ t, exec (.triginEdge n high) s = .next t ∧ t.triginOn n = (high != bit (s.get (Key.triginCfg n)) 0) ∧ (∀ m, m ≠ n → t.triginOn m = s.triginOn m) ∧
        { t with triginHigh := s.triginHigh } = s) ∧
    (∀ arg : Word, s.serves p → s.cmdIdle = false → s.mode ≠ Mode.safe → s.machineCheck = false → s.trigoutHighZ = false → s.cmdBusy Key.trigoutPulse = false → arg.toNat < 2 ^ 16 →
      (s.get Key.trigoutMerged).toNat < 2 ^ 32 →
      ∃ t, exec (.trigoutPulse p arg) s = .next t ∧ t.answered Key.trigoutPulse .ok ∧ t.cmdState Key.trigoutPulse = Cmd.done ∧
        (∀ n, n ∈ t.trigoutActive ↔ n ∈ s.trigoutActive ∨ n ∈ bitsOf 16 arg.toNat) ∧
        (∀ n, n ∈ bitsOf 16 arg.toNat → n ∉ s.trigoutActive → .trigout n (some (!bit (s.get (Key.trigoutCfg n)) 16)) ∈ t.out) ∧
        (t.get Key.trigoutMerged).toNat = ((s.get Key.trigoutMerged).toNat + ((bitsOf 16 arg.toNat).filter (fun n => s.trigoutActive.contains n)).length) % 2 ^ 32 ∧
        s.objectsBut t [Key.trigoutPulse, Key.trigoutMerged]) ∧
    (∀ n : Nat, n < 16 → s.trigoutActive.contains n = true → s.trigoutHighZ = false →
      exec (.trigoutEnd n) s = .next { s with
        trigoutActive := s.trigoutActive.filter (fun x => x != n), out := s.out ++ [.trigout n (some (bit (s.get (Key.trigoutCfg n)) 16))] })

/-- TIU_ARM, TIU_EDGE, TIU_GATE_END, TIU_TIMEOUT, TIU_HOLDOFF_END (R246-R251): an armed unit measures from the first edge of A to the next of B, by their stamps;
the result, its start time and its status stand together, and the unit is IDLE, or holds off under REPEAT, after which it is armed again. An edge less than
1.25 ns after the last one of its input is lost and counted. A FREQUENCY gate ends with the edges counted, a timeout with 0. ADC_START and ADC_CONVERSION
(R252, R253): a start runs the sequence of its mode; a conversion within full scale is ADC_VALUE and counts the sequence down, which ends after its last one
unless it is continuous; a stop ends it. -/
def Obligations.MeasurementsAreMade : Prop :=
  (∀ (s : State) (p : Sys2Proof.Path) (u : Nat), u < 16 →
     (s.serves p → s.cmdMode = false → s.mode ≠ Mode.train → s.tiuSt u = 0 → selKind (s.get (Key.tiuInA u)) ≠ 0 → s.tiuMode u ≠ 0 ∨ selKind (s.get (Key.tiuInB u)) ≠ 0 →
       s.selDisabled (s.get (Key.tiuInA u)) = false → s.selDisabled (s.get (Key.tiuInB u)) = false →
       ∃ t, exec (.tiuArm p u) s = .next t ∧ t.answered (Key.tiuArm u) .ok ∧ t.cmdState (Key.tiuArm u) = Cmd.done ∧ t.tiuSt u = (if s.tiuMode u = 2 ∨ s.tiuMode u = 3 then 2 else 1) ∧
         (t.tiuRun u).armTick = s.nowTick ∧ (t.tiuRun u).count = 0 ∧ (∀ v, v ≠ u → t.tiuRun v = s.tiuRun v) ∧ s.objectsBut t [Key.tiuArm u, Key.tiuStatus u]) ∧
     (s.serves p → s.cmdMode = false → s.tiuSt u ≠ 2 ∨ s.tiuOpenCount u = false →
       ∃ t, exec (.tiuDisarm p u) s = .next t ∧ t.answered (Key.tiuArm u) .ok ∧ t.tiuSt u = 0 ∧ (t.tiuRun u).start = none ∧ (∀ v, v ≠ u → t.tiuRun v = s.tiuRun v) ∧
         s.objectsBut t [Key.tiuArm u, Key.tiuStatus u]) ∧
     (∀ (onB : Bool) (e : InputEdge) (tick since : Nat), s.countsEdge u onB e tick since → s.tiuMode u = 0 →
       (s.tiuSt u = 1 → onB = false → (s.tiuRun u).start = none →
         ∃ t, exec (.tiuEdge u onB e tick since) s = .next t ∧ t.tiuSt u = 2 ∧ (t.tiuRun u).start = some (s.tiuStamp u onB tick).1 ∧ s.objectsBut t [Key.tiuStatus u]) ∧
       (∀ t0 : Nat, s.tiuSt u = 2 → onB = true → (s.tiuRun u).start = some t0 → (s.tiuStamp u onB tick).1 - t0 < tiuMax →
         ∃ t, exec (.tiuEdge u onB e tick since) s = .next t ∧ t.tiuSt u = (if bit (s.get (Key.tiuCtrl u)) 3 then 3 else 0) ∧
           t.get (Key.tiuResult u) = toWord ((s.tiuStamp u onB tick).1 - t0) ∧ t.get (Key.tiuStartTime u) = toWord (t0 % 2 ^ 48) ∧
           t.getF (Key.tiuStatus u) 2 4 = (if (s.tiuStamp u onB tick).1 = t0 then 3 else 1) ∧ s.objectsBut t [Key.tiuStatus u, Key.tiuResult u, Key.tiuStartTime u])) ∧
     (∀ (e : InputEdge) (tick since : Nat), s.unitsRun = true → s.tiuSt u = 1 ∨ s.tiuSt u = 2 → s.qualifies u true e = true → s.tiuInside u (s.tiuStamp u true tick).1 = true →
       s.tiuFull u (s.tiuStamp u true tick).1 = false → since < 1250 → (s.get (Key.deadMiss u)).toNat < 2 ^ 32 →
       ∃ t, exec (.tiuEdge u true e tick since) s = .next t ∧ (t.get (Key.deadMiss u)).toNat = min (2 ^ 32 - 1) ((s.get (Key.deadMiss u)).toNat + 1) ∧
         t.tius = s.tius ∧ s.objectsBut t [Key.deadMiss u]) ∧
     (s.unitsRun = true → s.tiuSt u = 2 → s.tiuMode u = 2 → (s.tiuRun u).count < tiuMax →
       ∃ t, exec (.tiuGateEnd u) s = .next t ∧ t.get (Key.tiuResult u) = toWord (s.tiuRun u).count ∧ t.get (Key.tiuStartTime u) = toWord ((s.tiuRun u).armTick % 2 ^ 48) ∧
         t.tiuSt u = (if bit (s.get (Key.tiuCtrl u)) 3 then 3 else 0) ∧ s.objectsBut t [Key.tiuStatus u, Key.tiuResult u, Key.tiuStartTime u]) ∧
     (∀ t0 : Nat, s.unitsRun = true → s.tiuSt u = 2 → s.get (Key.tiuTimeout u) ≠ 0 → s.tiuOpenCount u = false → (s.tiuRun u).start = some t0 →
       ∃ t, exec (.tiuTimeout u) s = .next t ∧ t.get (Key.tiuResult u) = 0 ∧ t.getF (Key.tiuStatus u) 4 1 = 1 ∧ t.get (Key.tiuStartTime u) = toWord (t0 % 2 ^ 48) ∧
         s.objectsBut t [Key.tiuStatus u, Key.tiuResult u, Key.tiuStartTime u]) ∧
     (s.unitsRun = true → s.tiuSt u = 3 →
       ∃ t, exec (.tiuHoldoffEnd u) s = .next t ∧ t.tiuSt u = (if s.tiuMode u = 2 ∨ s.tiuMode u = 3 then 2 else 1) ∧ (t.tiuRun u).armTick = s.nowTick ∧
         s.objectsBut t [Key.tiuStatus u])) ∧
  (∀ (s : State) (p : Sys2Proof.Path) (n : Nat), n < 16 →
     (s.serves p → s.cmdMode = false → s.mode ≠ Mode.train → s.adcRunning n = false →
       ∃ t, exec (.adcStart p n) s = .next t ∧ t.answered (Key.adcStart n) .ok ∧ t.cmdState (Key.adcStart n) = Cmd.done ∧ t.adcRunning n = true ∧
         mget 0 t.adcLeft n = (if s.getF (Key.adcCfg n) 0 2 = 1 then (s.get (Key.adcCount n)).toNat else 1) ∧ (∀ m, m ≠ n → mget 0 t.adcLeft m = mget 0 s.adcLeft m) ∧
         s.objectsBut t [Key.adcStart n, Key.adcStatus n]) ∧
     (s.serves p → s.cmdMode = false →
       ∃ t, exec (.adcStop p n) s = .next t ∧ t.answered (Key.adcStart n) .ok ∧ t.adcRunning n = false ∧ s.objectsBut t [Key.adcStart n, Key.adcStatus n]) ∧
     (∀ code : Int, s.unitsRun = true → s.adcRunning n = true → -32768 ≤ code → code ≤ 32767 →
       ∃ t, exec (.adcConversion n code) s = .next t ∧ t.get (Key.adcValue n) = intWord code ∧ s.objectsBut t [Key.adcValue n, Key.adcStatus n] ∧
         (s.getF (Key.adcCfg n) 0 2 = 2 → t.adcRunning n = true) ∧
         (s.getF (Key.adcCfg n) 0 2 ≠ 2 → mget 0 s.adcLeft n = 1 → t.adcRunning n = false) ∧
         (s.getF (Key.adcCfg n) 0 2 ≠ 2 → 2 ≤ mget 0 s.adcLeft n → t.adcRunning n = true ∧ mget 0 t.adcLeft n + 1 = mget 0 s.adcLeft n)) ∧
     (∀ code : Int, s.unitsRun = true → s.adcRunning n = true → 32767 < code → bit (s.get (Key.adcStatus n)) 1 = true →
       ∃ t, exec (.adcConversion n code) s = .next t ∧ t.get (Key.adcValue n) = 32767))

/-- ACQ_ARM, ACQ_FORCE, ACQ_SAMPLE, ACQ_GROUP_FIRE, ACQ_REARM_END, ACQ_RELEASE, FAIL_RATE_INTERVAL (R254-R259): an armed unit outside a group follows its stream
from its arm time on, fires by a level it has been primed for or when it is forced, and enters POST with its firing time and source; a group master arms every
IDLE member of its group; a force of a unit in POST is refused and counted; after its rearm time it is ARMED again under REARM, else IDLE; a release frees the
record named. -/
def Obligations.UnitsAcquire : Prop :=
  ∀ (s : State) (p : Sys2Proof.Path) (u : Nat), u < 8 →
    (s.serves p → s.cmdMode = false → s.mode ≠ Mode.train → s.acqSt u = 0 → s.acqGroup u = false → (s.acq u).records.length < s.acqSlots u →
      ∃ t, exec (.acqArm p u) s = .next t ∧ t.answered (Key.acqArm u) .ok ∧ t.cmdState (Key.acqArm u) = Cmd.done ∧ t.acqSt u = 1 ∧
        t.acq u = { (s.acq u).fresh with armTick := edgeAfter s.nowTick } ∧ s.objectsBut t [Key.acqArm u, Key.acqState u]) ∧
    (s.serves p → s.cmdMode = false → s.mode ≠ Mode.train → s.acqGroup u = true → s.acqMaster u = true → s.armSet u ≠ [] →
      (∀ x ∈ s.armSet u, (s.acq x).records.length < s.acqSlots x) →
      ∃ t, exec (.acqArm p u) s = .next t ∧ t.answered (Key.acqArm u) .ok ∧
        (∀ x, x < 8 → s.acqGroup x = true → s.acqSt x = 0 → t.acqSt x = 1 ∧ t.acq x = { (s.acq x).fresh with armTick := edgeAfter s.nowTick }) ∧
        (∀ x, x < 8 → s.acqGroup x = false ∨ s.acqSt x ≠ 0 → t.acqSt x = s.acqSt x ∧ t.acq x = s.acq x)) ∧
    (s.serves p → s.cmdMode = false →
      ∃ t, exec (.acqDisarm p u) s = .next t ∧ t.answered (Key.acqArm u) .ok ∧ (s.acqSt u = 0 ∨ s.acqSt u = 1 ∨ s.acqSt u = 4 → t.acqSt u = 0) ∧
        (s.acqSt u = 2 → t.acqSt u = 3 ∧ (t.acq u).records.length = (s.acq u).records.length + 1 ∧ ((t.acq u).records.getLast?.map AcqRecord.trunc = some true)) ∧
        (s.acqSt u = 3 → t.acqSt u = 3 ∧ (t.acq u).cancelRearm = true) ∧ s.objectsBut t [Key.acqArm u, Key.acqState u]) ∧
    (s.serves p → s.cmdMode = false → s.acqSt u = 1 → s.acqGroup u = false → s.lineFree 16 →
      ∃ t, exec (.acqForce p u) s = .next t ∧ t.answered (Key.acqForce u) .ok ∧ t.cmdState (Key.acqForce u) = Cmd.done ∧ t.acqSt u = 2 ∧
        (t.acq u).fired = some (edgeAfter s.nowTick, u) ∧ (t.acq u).firedForced = true) ∧
    (s.serves p → s.cmdMode = false → s.acqSt u = 2 → (s.get (Key.trigAfterFire u)).toNat < 2 ^ 32 →
      ∃ t, exec (.acqForce p u) s = .next t ∧ t.answered (Key.acqForce u) .busy ∧ t.acqSt u = 2 ∧
        (t.get (Key.trigAfterFire u)).toNat = min (2 ^ 32 - 1) ((s.get (Key.trigAfterFire u)).toNat + 1) ∧ s.onlyObjects t [Key.trigAfterFire u]) ∧
    (∀ (edge : Nat) (v : Int) (time : Nat) (sat : Bool) (rest : List (Int × Nat × Bool)), s.unitsRun = true → s.acqSt u = 1 → (s.acq u).offers = (v, time, sat) :: rest →
      (notBefore time (s.acq u).armTick = false →
        ∃ t, exec (.acqSample u edge) s = .next t ∧ t.acqSt u = 1 ∧ t.acq u = { s.acq u with offers := rest, prev := some v } ∧ t.objs = s.objs) ∧
      (notBefore time (s.acq u).armTick = true → ((s.acq u).primed && s.atLevel u v) = false →
        ∃ t, exec (.acqSample u edge) s = .next t ∧ t.acqSt u = 1 ∧ (t.acq u).primed = ((s.acq u).primed || s.primes u v) ∧ (t.acq u).prev = some v ∧ (t.acq u).offers = rest ∧
          (t.acq u).records = (s.acq u).records ∧ t.objs = s.objs) ∧
      (notBefore time (s.acq u).armTick = true → ((s.acq u).primed && s.atLevel u v) = true → s.acqGroup u = false → s.lineFree 16 → (s.get (Key.acqPre u)).toNat + 2 ≤ (s.get (Key.acqLength u)).toNat →
        ∃ t, exec (.acqSample u edge) s = .next t ∧ t.acqSt u = 2 ∧ (t.acq u).fired = some (edgeAfter edge, u) ∧ (t.acq u).firedForced = false ∧
          (t.acq u).trigPair = some (s.acq u).pairs.length ∧ (t.acq u).offers = rest)) ∧
    (∀ f who : Nat, (s.acq u).groupFire = some (f, who) → s.unitsRun = true → s.acqSt u = 1 →
      ∃ t, exec (.acqGroupFire u) s = .next t ∧ t.acqSt u = 2 ∧ (t.acq u).fired = some (f, who) ∧ (t.acq u).groupFire = none ∧ s.objectsBut t [Key.acqState u]) ∧
    (s.unitsRun = true → s.acqSt u = 3 →
      (bit (s.get (Key.acqCtrl u)) 12 = true → (s.acq u).cancelRearm = false → (s.acq u).records.length < s.acqSlots u →
        ∃ t, exec (.acqRearmEnd u) s = .next t ∧ t.acqSt u = 1 ∧ t.acq u = { (s.acq u).fresh with armTick := s.nowTick } ∧ s.objectsBut t [Key.acqState u]) ∧
      (bit (s.get (Key.acqCtrl u)) 12 = false ∨ (s.acq u).cancelRearm = true →
        ∃ t, exec (.acqRearmEnd u) s = .next t ∧ t.acqSt u = 0 ∧ t.acq u = (s.acq u).fresh ∧ s.objectsBut t [Key.acqState u])) ∧
    (∀ v : Word, s.serves p → s.writeCode (s.overlay (Key.acqRelease u) v) p (Key.acqRelease u) v = .ok → s.acqSt u ≠ 4 →
      ∃ t, exec (.acqRelease p u v) s = .next t ∧ t.answered (Key.acqRelease u) .ok ∧ t.acqSt u = s.acqSt u ∧
        t.acq u = { s.acq u with records := (s.acq u).records.filter (fun r => r.seq != v.toNat) } ∧ s.objectsBut t [Key.acqState u]) ∧
    (∀ port : Nat, port < 8192 → s.unitsRun = true → s.mode = Mode.burst →
      ∃ t, exec (.failRateInterval port) s = .next t ∧ mget 0 t.burst.rateMark port = mget 0 s.burst.failTotals port ∧ t.objs = s.objs ∧
        (s.acqSource u = 0x20 → (s.get (Key.acqPort u)).toNat = port →
          (t.acq u).offers = (s.acq u).offers ++ [(((mget 0 s.burst.failTotals port - mget 0 s.burst.rateMark port : Nat) : Int), s.nowTick % 2 ^ 48, false)]) ∧
        (s.acqSource u ≠ 0x20 ∨ (s.get (Key.acqPort u)).toNat ≠ port → t.acq u = s.acq u))

/-- DAC_LOAD, DAC_PARK_WRITE, DAC_COMPLIANCE, DAC_MODULATOR (R266-R273): an accepted load reads RUNNING and is due, with its end, on the first modulator edge 20
ns or more later. Due, a load of one group whose codes the envelope lets pass (State.loadEdge, which a period of the clock runs) moves each of its outputs to
its pending code, but one at its fault code, which notes SKIPPED, and one that is high-impedance; no other output moves, and the command reads DONE. A parked
output follows its park code. A compliance fault moves the output to its fault code before FS063 is raised, and a sound reading changes nothing; a modulator
fault is noted before FS065 is raised. -/
def Obligations.LevelsMove : Prop :=
  ∀ (s : State) (p : Sys2Proof.Path),
    (∀ arg : Word, s.serves p → s.strobeCode = .ok → s.cmdBusy Key.dacLoad = false → arg.toNat < 2 ^ 8 →
      ∃ t, exec (.dacLoad p arg) s = .next t ∧ t.answered Key.dacLoad .ok ∧ t.cmdState Key.dacLoad = Cmd.running ∧
        t.loadsDue = s.loadsDue ++ (bitsOf 8 arg.toNat).map (fun g => (edgeAfter (s.nowTick + 64), some g)) ++ [(edgeAfter (s.nowTick + 64), none)] ∧
        s.onlyObjects { t with loadsDue := s.loadsDue } [Key.dacLoad]) ∧
    (∀ g e : Nat, s.loadsDue = [(e, some g), (e, none)] → e ≤ s.nowTick → s.strobeCode = .ok → s.groupDacs g ≠ [] → mget 0 s.loadEdges g ≠ e + 1 →
      (∀ d, d < 64 → (s.get (Key.dacGroup d)).toNat = g → s.dacSource d = 1 ∨ s.dacSource d = 2 → s.inEnvelope d (s.get (Key.dacCode d)).toNat = true) →
      ∃ t, s.loadEdge = t ∧ t.loadsDue = [] ∧ t.cmdState Key.dacLoad = Cmd.done ∧ (t.get Key.dacLoads).toNat = ((s.get Key.dacLoads).toNat + 1) % 2 ^ 32 ∧
        (∀ d, d < 64 →
          ((s.get (Key.dacGroup d)).toNat = g → s.dacSource d = 1 ∨ s.dacSource d = 2 → t.get (Key.dacActive d) = s.get (Key.dacCode d) ∧ t.dacSource d = 2) ∧
          ((s.get (Key.dacGroup d)).toNat = g → s.dacSource d = 3 → t.get (Key.dacActive d) = s.get (Key.dacActive d) ∧ t.dacSource d = 3 ∧ bit (t.get (Key.dacStatus d)) 7 = true) ∧
          ((s.get (Key.dacGroup d)).toNat ≠ g ∨ s.dacSource d = 0 → t.get (Key.dacActive d) = s.get (Key.dacActive d) ∧ t.get (Key.dacStatus d) = s.get (Key.dacStatus d)))) ∧
    (∀ (d : Nat) (v : Word), d < 64 → s.serves p → s.writeCode (s.overlay (Key.dacPark d) v) p (Key.dacPark d) v = .ok →
      ∃ t, exec (.dacParkWrite p d v) s = .next t ∧ t.answered (Key.dacPark d) .ok ∧ t.get (Key.dacPark d) = v ∧ (s.dacSource d = 1 → t.get (Key.dacActive d) = v) ∧
        (s.dacSource d = 2 ∨ s.dacSource d = 3 → t.get (Key.dacActive d) = s.get (Key.dacActive d)) ∧
        s.objectsBut t [Key.dacPark d, Key.dacActive d, Key.dacStatus d, Key.loadStatus]) ∧
    (∀ (d : Nat) (mv : Int), 48 ≤ d → d < 64 → s.unitsRun = true → s.dacSource d ≠ 0 → mv < s.complianceLow d ∨ s.complianceHigh d < mv →
      ∃ t, exec (.dacCompliance d mv) s = .next (t.fault 63 (.dac d) 0) ∧ t.get (Key.dacActive d) = toWord (s.get (Key.dacFaultCode d)).toNat ∧ t.dacSource d = 3 ∧
        bit (t.get (Key.dacStatus d)) 3 = true ∧ bit (t.get (Key.dacStatus d)) (if mv < 100 ∨ 1700 < mv then 4 else 5) = true ∧ s.objectsBut t [Key.dacActive d, Key.dacStatus d]) ∧
    (∀ (d : Nat) (mv : Int), d < 64 → s.complianceLow d ≤ mv → mv ≤ s.complianceHigh d → exec (.dacCompliance d mv) s = .next s) ∧
    (∀ d : Nat, d < 64 → Mode.train ≤ s.mode →
      ∃ t, exec (.dacModulator d) s = .next (t.fault 65 (.dac d) 0) ∧ bit (t.get (Key.dacStatus d)) 8 = true ∧ s.objectsBut t [Key.dacStatus d])

/-! ## Device time, scheduled slots and the network (spec/14) -/

/-- SLOT_ARM, SLOT_CANCEL, SLOT_LAUNCH, SLOT_ACTION (R318-R323): an armed slot keeps its full time and the slice tick nearest to it; a cancelled one is IDLE; a
launch counts and moves a periodic slot's time on; a TRIGOUT action of a single slot pulses its outputs and is DONE, and an action in a mode that does not
permit it is REFUSED. A slot armed for a time nearer than 2 µs without RUN_LATE is refused as late, counted, and raises FS086. A load action queues the loads
of its groups for the first modulator edge at its time. -/
def Obligations.SlotsFire : Prop :=
  ∀ (s : State) (p : Sys2Proof.Path) (n : Nat), n < 64 →
    (s.serves p → s.cmdMode = false → s.slotRest n = true → targetBad (s.slotKind n) (s.slotTarget n) = false →
      (s.now + twoMicros ≤ resolveTime (s.get (Key.slotTime n)).toNat s.now → 0 ≤ s.ticksOf (resolveTime (s.get (Key.slotTime n)).toNat s.now) →
        ∃ t, exec (.slotArm p n) s = .next t ∧ t.answered (Key.slotArm n) .ok ∧ t.cmdState (Key.slotArm n) = Cmd.done ∧ t.slotState n = 1 ∧
          (t.slotSt n).fullTime = resolveTime (s.get (Key.slotTime n)).toNat s.now ∧ 2 * ((t.slotSt n).instant : Rat) ≤ 2 * s.ticksOf (t.slotSt n).fullTime + 1 ∧
          2 * s.ticksOf (t.slotSt n).fullTime ≤ 2 * ((t.slotSt n).instant : Rat) + 1 ∧ t.get (Key.slotLateness n) = 0 ∧ (∀ m, m ≠ n → t.slotSt m = s.slotSt m) ∧
          s.objectsBut t [Key.slotArm n, Key.slotStatus n, Key.slotLateness n]) ∧
      (resolveTime (s.get (Key.slotTime n)).toNat s.now < s.now + twoMicros → bit (s.get (Key.slotCtrl n)) 3 = false →
        ∃ u : State, exec (.slotArm p n) s = .next ((u.fault 86 (.unit n) 0).respond 0x02 0 (Key.slotArm n) .late) ∧ u.slotState n = s.slotState n ∧
          (u.get Key.slotLateCount).toNat = satTo (2 ^ 32 - 1) ((s.get Key.slotLateCount).toNat + 1) ∧ s.onlyObjects u [Key.slotLateCount])) ∧
    (s.serves p → s.cmdMode = false → s.slotState n = 1 →
      ∃ t, exec (.slotCancel p n) s = .next t ∧ t.answered (Key.slotArm n) .ok ∧ t.slotState n = 0 ∧ s.onlyObjects t [Key.slotArm n, Key.slotStatus n]) ∧
    (s.slotState n = 1 →
      ∃ t, exec (.slotLaunch n) s = .next t ∧ t.slotState n = 2 ∧ (t.slotSt n).fullTime = (s.slotSt n).fullTime + (s.get (Key.slotPeriod n)).toNat * 65536 ∧
        (t.get (Key.slotFires n)).toNat = satTo (2 ^ 32 - 1) ((s.get (Key.slotFires n)).toNat + 1) ∧ (∀ m, m ≠ n → t.slotSt m = s.slotSt m) ∧
        s.objectsBut t [Key.slotStatus n, Key.slotFires n]) ∧
    (s.slotState n ≠ 1 → exec (.slotLaunch n) s = .next s) ∧
    (s.slotState n = 2 → s.ring.startSlot ≠ some n → s.get (Key.slotPeriod n) = 0 → s.get (Key.slotLateness n) = 0 → s.slotKind n = 1 → s.strobeCode = .ok →
      ∃ t, exec (.slotAction n) s = .next t ∧ t.slotState n = 3 ∧ t.getF (Key.slotStatus n) 4 2 = 1 ∧
        t.loadsDue = s.loadsDue ++ (bitsOf 8 (s.slotTarget n)).map (fun g => (edgeAfter (s.epochOf (s.slotSt n).instant), some g)) ∧ s.objectsBut t [Key.slotStatus n]) ∧
    (s.slotState n = 2 → s.ring.startSlot ≠ some n → s.get (Key.slotPeriod n) = 0 → s.get (Key.slotLateness n) = 0 → s.slotKind n = 2 → s.machineCheck = false →
      s.trigoutHighZ = false →
      (s.unitsRun = true → s.mode ≠ Mode.safe →
        ∃ t, exec (.slotAction n) s = .next t ∧ t.slotState n = 3 ∧ t.getF (Key.slotStatus n) 4 2 = 1 ∧ t.getF (Key.slotStatus n) 8 6 = 0 ∧
          (∀ m, m ∈ t.trigoutActive ↔ m ∈ s.trigoutActive ∨ m ∈ bitsOf 16 (s.slotTarget n)) ∧ s.objectsBut t [Key.slotStatus n, Key.trigoutMerged]) ∧
      (s.unitsRun = false ∨ s.mode = Mode.safe →
        ∃ t, exec (.slotAction n) s = .next t ∧ t.slotState n = 4 ∧ t.getF (Key.slotStatus n) 4 2 = 3 ∧ t.getF (Key.slotStatus n) 8 6 = Code.wrongMode.toNat ∧
          t.trigoutActive = s.trigoutActive ∧ s.objectsBut t [Key.slotStatus n]))

/-- TIME_LATCH, TIME_STEP, PTM_CORR, PTM_RESPONSE, PTM_TIMEOUT (R306, R310, R317, R325): a latch holds the raw count and the device time of one instant; a step
moves device time at every raw count by the pending step, or so that it reads TIME_SET at the next; a correlation stores the raw count of its request and the
link delay. PTP_SYNC, PTP_MESSAGE, HOLDOVER_TIMEOUT, ETH_FRAME, ETH_LINK_DOWN, ETH_LINK_UP, PTP_EVENT_FRAME_SEND (R309, R312-R316): a Sync sets the offset,
its arrival corrected by -41.2 ns at 25 Gb/s and -96.8 ns at 10 Gb/s less its origin, the path delay and the asymmetry, to the nearest 2^-16 ns below or
above; under TIME_SOURCE 1 one of at most 100 ns moves FREQ by its integral term and RATE within 500 ppm. A message sets the port state, and a Delay_Resp the
mean path delay. An event frame carries its departure, corrected by +28.8 ns or +64.0 ns. A clock that loses its source holds over with FS073; frames for the
device of the kinds it serves are answered and every other frame is dropped and counted. -/
def Obligations.TimeAndTheNetworkAreServed : Prop :=
  (∀ (s : State) (p : Sys2Proof.Path),
     (s.serves p → s.cmdMode = false → s.cmdBusy Key.timeLatch = false →
       ∃ t, exec (.timeLatch p 0) s = .next t ∧ t.answered Key.timeLatch .ok ∧ t.cmdState Key.timeLatch = Cmd.done ∧ t.get Key.latchRaw = s.get Key.rawCount ∧
         ((t.get Key.latchSec).toNat : Int) * secUnits + (t.get Key.latchSub).toNat = s.now.emod (2 ^ 48 * secUnits : Nat) ∧
         s.onlyObjects t [Key.timeLatch, Key.latchRaw, Key.latchSec, Key.latchSub]) ∧
     (s.serves p → s.cmdMode = false → s.cmdBusy Key.timeStep = false → s.slotsIdle →
       (s.pendingStep ≠ 0 → -(2 ^ 63) ≤ (s.tRef + s.pendingStep).fdiv secUnits → (s.tRef + s.pendingStep).fdiv secUnits < 2 ^ 63 →
         ∃ t, exec (.timeStepPending p) s = .next t ∧ t.answered Key.timeStep .ok ∧ t.cmdState Key.timeStep = Cmd.done ∧ (∀ r, t.timeAt r = s.timeAt r + s.pendingStep) ∧
           t.pendingStep = 0 ∧ bit (t.get Key.clockFlags) 1 = true ∧ (t.get Key.stepsApplied).toNat = satTo (2 ^ 32 - 1) ((s.get Key.stepsApplied).toNat + 1)) ∧
       (-(2 ^ 63) ≤ (s.tRef + (s.timeSet - s.timeAt (s.raw + 1))).fdiv secUnits → (s.tRef + (s.timeSet - s.timeAt (s.raw + 1))).fdiv secUnits < 2 ^ 63 →
         ∃ t, exec (.timeStepSet p) s = .next t ∧ t.answered Key.timeStep .ok ∧ t.cmdState Key.timeStep = Cmd.done ∧ t.timeAt (s.raw + 1) = s.timeSet ∧ t.pendingStep = 0)) ∧
     (s.serves p → s.cmdMode = false → s.cmdBusy Key.ptmCorr = false →
       ∃ t, exec (.ptmCorr (some p) 0 true) s = .next t ∧ t.answered Key.ptmCorr .ok ∧ t.cmdState Key.ptmCorr = Cmd.running ∧
         t.out = s.out ++ (if s.pcieUp then [.ptmRequest] else []) ∧ s.objectsBut t [Key.ptmCorr]) ∧
     (s.serves p → s.cmdMode = false → ∃ t, exec (.ptmCorr (some p) 0 false) s = .next t ∧ t.answered Key.ptmCorr .wrongMode ∧ s.onlyObjects t []) ∧
     (∀ t1 t4 t2 t3 : Nat, s.cmdBusy Key.ptmCorr = true → s.get Key.timeSource ≠ 2 →
       ∃ t, exec (.ptmResponse t1 t4 t2 t3) s = .next t ∧ t.cmdState Key.ptmCorr = Cmd.done ∧ t.get Key.ptmRaw = toWord t1 ∧ t.ptmAuto = false ∧
         t.get Key.ptmLinkDelay = toWord (((((t4 : Int) - t1) * 1250 - ((t3 : Int) - t2) * 1000) / 2).emod (2 ^ 32)).toNat ∧
         s.objectsBut t [Key.ptmCorr, Key.ptmRaw, Key.ptmLinkDelay, Key.ptmHostNs]) ∧
     (s.cmdBusy Key.ptmCorr = true →
       ∃ t, exec .ptmTimeout s = .next t ∧ t.cmdState Key.ptmCorr = Cmd.failed ∧ t.getF Key.ptmCorr 8 6 = Code.hwFail.toNat ∧ s.objectsBut t [Key.ptmCorr])) ∧
  (∀ s : State,
     (s.ptpOn = true →
       (∀ (origin capture : Int) (arrival q : Rat), arrival = capture + (if s.getF Key.ethStatus 1 2 = 1 then -412 else -968) * 65536 / 10 →
         q = arrival - origin - (s.get Key.ptpPathDelay).toInt - (s.get Key.ptpAsym).toInt * 65536 / 1000 →
         (s.get Key.timeSource ≠ 1 →
           ∃ (t : State) (o : Int), exec (.ptpSync origin capture) s = .next t ∧ t.get Key.ptpOffset = intWord o ∧ q - 1 < o ∧ (o : Rat) < q + 1 ∧
             t.ptp.sync = some (origin, arrival) ∧ s.onlyObjects { t with ptp := s.ptp } [Key.ptpOffset]) ∧
         (s.get Key.timeSource = 1 → -(100 * 65536) ≤ q → q ≤ 100 * 65536 → s.slotsIdle → s.clockSt ≠ 3 →
           ∃ (t : State) (o : Int), exec (.ptpSync origin capture) s = .next t ∧ t.get Key.ptpOffset = intWord o ∧ q - 1 < o ∧ (o : Rat) < q + 1 ∧
             t.clockFreq = s.clockFreq - (o * 2 ^ 24 : Rat) / (64 * 1000000000 * s.syncInterval) ∧
             -rateLimit ≤ (t.get Key.modelRate).toInt ∧ (t.get Key.modelRate).toInt ≤ rateLimit ∧ t.get Key.stepsApplied = s.get Key.stepsApplied ∧ t.mode = s.mode)) ∧
       (∀ ps : Nat, 1 ≤ ps → ps ≤ 9 → ps ≠ 6 ∨ bit (s.get Key.ptpCtrl) 5 = false → s.get Key.timeSource ≠ 1 →
         (∃ t, exec (.ptpMessage ps .untimed) s = .next t ∧ t.get Key.ptpPortState = toWord ps ∧ s.onlyObjects t [Key.ptpPortState]) ∧
         (∀ (t4 t1 : Int) (t2 t3 : Rat), bit (s.get Key.ptpCtrl) 3 = false → s.ptp.sync = some (t1, t2) → s.ptp.sent = some t3 →
           ∃ (t : State) (d : Int), exec (.ptpMessage ps (.delayResp t4)) s = .next t ∧ t.get Key.ptpPortState = toWord ps ∧ t.get Key.ptpPathDelay = intWord d ∧
             (t2 - t1 + (t4 - t3)) / 2 - 1 < d ∧ (d : Rat) < (t2 - t1 + (t4 - t3)) / 2 + 1 ∧ t.ptp.sent = none ∧ s.objectsBut t [Key.ptpPortState, Key.ptpPathDelay])) ∧
       (bit (s.get Key.ptpCtrl) 5 = true → exec (.ptpMessage 6 .untimed) s = .next s) ∧
       (∀ (kind : Nat) (ins : Bool) (capture : Int) (departure : Rat), departure = capture + (if s.getF Key.ethStatus 1 2 = 1 then 288 else 640) * 65536 / 10 → kind < 3 →
         ∃ t, exec (.ptpEventFrameSend kind ins capture) s = .next t ∧
           t.out = s.out ++ [.ptpFrame kind (bit (s.get Key.ptpCtrl) 4 && ins) departure (s.getF Key.ptpCtrl 1 2)] ∧ (kind = 1 ∨ kind = 2 → t.ptp.sent = some departure) ∧
           (t.get Key.oneStepFallback).toNat =
             (if bit (s.get Key.ptpCtrl) 4 = true ∧ ins = false then satTo (2 ^ 32 - 1) ((s.get Key.oneStepFallback).toNat + 1) else (s.get Key.oneStepFallback).toNat) ∧
           s.objectsBut t [Key.oneStepFallback]) ∧
       (∀ (ins : Bool) (capture : Int) (asked departure : Rat), departure = capture + (if s.getF Key.ethStatus 1 2 = 1 then 288 else 640) * 65536 / 10 →
         s.ptp.asked = some asked →
         ∃ t, exec (.ptpEventFrameSend 3 ins capture) s = .next t ∧
           t.out = s.out ++ [.ptpFrame 3 (bit (s.get Key.ptpCtrl) 4 && ins) (departure - asked) (s.getF Key.ptpCtrl 1 2)] ∧ s.objectsBut t [Key.oneStepFallback])) ∧
     (Mode.train ≤ s.mode → s.slotsIdle → s.clockSt = 1 ∨ s.clockSt = 2 →
       ∃ t : State, exec .holdoverTimeout s = .next (t.fault 73 .none 0) ∧ t.clockSt = 3 ∧ t.clockGood = 0 ∧ t.clockFreq = s.clockFreq) ∧
     (Mode.train ≤ s.mode → s.clockSt = 0 ∨ s.clockSt = 3 → exec .holdoverTimeout s = .next s) ∧
     (s.ethUp = true →
       (∀ (kind len : Nat) (tagged : Bool), kind < 4 → len ≤ 1518 → exec (.ethFrame kind true len tagged) s = .next { s with out := s.out ++ [.ethReply kind] }) ∧
       (∀ (kind len : Nat) (mine tagged : Bool), mine = false ∨ 4 ≤ kind ∨ 1522 < len →
         ∃ t, exec (.ethFrame kind mine len tagged) s = .next t ∧ t.out = s.out ∧ (t.get Key.ethRxDropped).toNat = satTo (2 ^ 32 - 1) ((s.get Key.ethRxDropped).toNat + 1) ∧
           s.onlyObjects t [Key.ethRxDropped]) ∧
       (∃ t : State, exec .ethLinkDown s = .next (t.fault 72 .none 0) ∧ t.ethUp = false ∧ s.objectsBut t [Key.ethStatus])) ∧
     (∀ speed : Nat, speed < 4 → Mode.train ≤ s.mode →
       ∃ t, exec (.ethLinkUp speed) s = .next t ∧ t.ethUp = true ∧ t.getF Key.ethStatus 1 2 = speed ∧ t.liveBit 72 = false ∧ t.mode = s.mode))

/-! ## Fern and the Creder ring (spec/10) -/

/-- FERN_ALIGN, FERN_ALIGN_TIMEOUT, FSYNC_PULSE, FERN_RETURN, FREF_LOSS (R222-R225, R240): a measured D_IN within the target awaits its pulse with the rest as the
offset; the pulse begins epoch 0 at its raw count and the device is ALIGNED; LOCAL begins it at the next aligned FREF edge; a pulse at a wrong epoch is
counted and raises FS057; a failed measurement or a missing pulse ends FAILED; a lost FREF raises FS056 with the device unaligned and the ring down. -/
def Obligations.FernAligns : Prop :=
  ∀ (s : State) (p : Sys2Proof.Path),
    (s.serves p → s.mode = Mode.idle → s.cmdBusy Key.fernAlign = false → (∀ n, n < 64 → s.slotState n ≠ 2) →
      (∀ d rt : Nat, d ≤ 250 * (s.get Key.fernTarget).toNat →
        ∃ t, exec (.fernAlign p 0 (some d) rt) s = .next t ∧ t.answered Key.fernAlign .ok ∧ t.cmdState Key.fernAlign = Cmd.running ∧ t.fernSt = 1 ∧ t.get Key.fernDin = toWord d ∧
          t.get Key.fernOffset = toWord (250 * (s.get Key.fernTarget).toNat - d) ∧ t.fernAligned = some rt ∧ t.fernAwait = true ∧ .fsyncOut 4096 ∈ t.out ∧ t.ringSt = 0 ∧
          s.objectsBut t [Key.fernAlign, Key.fernStatus, Key.fernDin, Key.fernOffset, Key.ringStatus, Key.ringLat]) ∧
      (∀ d rt : Nat, 250 * (s.get Key.fernTarget).toNat < d →
        ∃ t, exec (.fernAlign p 0 (some d) rt) s = .next t ∧ t.cmdState Key.fernAlign = Cmd.failed ∧ t.getF Key.fernAlign 8 6 = Code.range.toNat ∧
          t.getF Key.fernAlign 16 16 = 3) ∧
      (s.slotsIdle →
        ∃ t, exec (.fernAlignLocal p) s = .next t ∧ t.answered Key.fernAlign .ok ∧ t.cmdState Key.fernAlign = Cmd.done ∧ t.fernSt = 3 ∧ t.get Key.fernOffset = 0 ∧
          t.get Key.epochCount = 0 ∧ t.get Key.rawAtEpoch0 = toWord s.nextEdge ∧
          s.objectsBut t [Key.fernAlign, Key.fernStatus, Key.fernOffset, Key.epochCount, Key.rawAtEpoch0, Key.ringStatus, Key.ringLat])) ∧
    (s.cmdBusy Key.fernAlign = true → s.fernAwait = false →
      ∃ t, exec (.fernAlignTimeout true) s = .next t ∧ t.cmdState Key.fernAlign = Cmd.failed ∧ t.getF Key.fernAlign 8 6 = Code.hwFail.toNat ∧ t.getF Key.fernAlign 16 16 = 2 ∧
        t.getF Key.fernStatus 4 1 = 0 ∧ s.onlyObjects t [Key.fernAlign, Key.fernStatus]) ∧
    (s.cmdBusy Key.fernAlign = true → s.fernAwait = true →
      ∃ t, exec (.fernAlignTimeout false) s = .next t ∧ t.cmdState Key.fernAlign = Cmd.failed ∧ t.getF Key.fernAlign 8 6 = Code.hwFail.toNat ∧ t.getF Key.fernAlign 16 16 = 1 ∧
        t.fernSt = 0 ∧ t.fernAwait = false ∧ s.objectsBut t [Key.fernAlign, Key.fernStatus]) ∧
    (s.mode ≠ Mode.reset → s.frefPresent = true →
      (s.fernSt = 1 → s.slotsIdle →
        ∃ t, exec .fsyncPulse s = .next t ∧ t.fernSt = 2 ∧ t.get Key.epochCount = 0 ∧ t.get Key.rawAtEpoch0 = s.get Key.rawCount ∧
          (s.cmdBusy Key.fernAlign = true → t.cmdState Key.fernAlign = Cmd.done) ∧
          s.objectsBut t [Key.fernAlign, Key.fernStatus, Key.epochCount, Key.rawAtEpoch0]) ∧
      (s.fernSt = 2 → (s.get Key.epochCount).toNat % (s.get Key.fsyncPeriod).toNat = 0 → exec .fsyncPulse s = .next s) ∧
      (s.fernSt = 2 → s.get Key.fsyncPeriod ≠ 0 → (s.get Key.epochCount).toNat % (s.get Key.fsyncPeriod).toNat ≠ 0 →
        ∃ u : State, exec .fsyncPulse s = .next (u.ringFault 57 .none) ∧ (u.get Key.fsyncMismatches).toNat = ((s.get Key.fsyncMismatches).toNat + 1) % 2 ^ 32 ∧
          s.onlyObjects u [Key.fsyncMismatches])) ∧
    (∀ a : Nat, s.fernAligned = some a → s.fernSt = 2 →
      (∀ rt : Nat, ((rt : Int) - a).natAbs ≤ 8000 → s.liveBit 58 = false →
        ∃ t, exec (.fernReturn (some rt)) s = .next t ∧ t.get Key.fernRtDrift = intWord ((rt : Int) - a) ∧ t.getF Key.fernStatus 4 2 = 1 ∧ t.out = s.out ++ [.fsyncOut 1] ∧
          s.objectsBut t [Key.fernRtDrift, Key.fernStatus]) ∧
      (∃ t, exec (.fernReturn none) s = .next t ∧ t.getF Key.fernStatus 4 1 = 0 ∧ t.out = s.out ++ [.fsyncOut 1] ∧ s.objectsBut t [Key.fernStatus])) ∧
    (s.mode ≠ Mode.reset →
      ∃ t : State, exec .frefLoss s = .next (t.fault 56 .none 0) ∧ t.frefPresent = false ∧ t.fernSt = 4 ∧ t.ringSt = 0 ∧ t.get Key.ringLat = 0 ∧
        s.objectsBut t [Key.fernStatus, Key.ringStatus, Key.ringLat])

/-- RING_FORM, RING_FORM_TIMEOUT, FLIT_FORM, FLIT_MEASURE, RING_SLOT, RING_LINK_LOCK (R226, R227, R229-R231): the master sends FORM; on the first lap a member
takes the next position, measures its hop with 256 MEASURE flits and marks the flit where it is not ready, and the master takes the size or ends FAILED with
the marking position; on the second lap a member takes the size and the latency and is FORMED, and the flit back at the master ends the formation; a MEASURE
adds its hop, arrival less departure; a slot sends the pending flit of the first class that has a credit, and BREAK at a break. -/
def Obligations.TheRingForms : Prop :=
  ∀ (s : State) (p : Sys2Proof.Path),
    (s.serves p → s.mode = Mode.idle → s.cmdBusy Key.ringForm = false → s.ringMaster = true →
      ∃ t f, exec (.ringForm p) s = .next t ∧ t.answered Key.ringForm .ok ∧ t.cmdState Key.ringForm = Cmd.running ∧ t.ringSt = 1 ∧ t.ringPos = 0 ∧ t.ring.pendingFlits = [f] ∧
        f.typ = 1 ∧ f.src = 0 ∧ f.seq = s.ring.nextSeq ∧ f.payload = 0 ∧ t.ring.inFlight = [] ∧ t.ring.creditCtrl = 4 ∧
        s.objectsBut t [Key.ringForm, Key.ringStatus, Key.ringLat]) ∧
    (∀ reason position : Nat, s.cmdBusy Key.ringForm = true → 1 ≤ reason → reason ≤ 5 →
      ∃ t, exec (.ringFormTimeout reason position) s = .next t ∧ t.cmdState Key.ringForm = Cmd.failed ∧ t.ringSt = 0 ∧
        t.getF Key.ringForm 16 16 = position % 32 + 32 * reason ∧ s.objectsBut t [Key.ringForm, Key.ringStatus, Key.ringLat]) ∧
    (∀ (back : Bool) (f : Flit), s.ringEnabled = true → s.mode ≠ Mode.reset → flitOk f = true → (back && s.linkB) = false →
      (s.ringMaster = false → s.seenFlit { f with due := s.resolveDue f.due } = false →
        (f.payload.toNat / 32 % 2 = 0 → f.payload.toNat % 32 < 31 →
          ∃ t g blocks, exec (.flitForm back f) s = .next t ∧ t.ringSt = 1 ∧ t.ringPos = f.payload.toNat % 32 + 1 ∧ t.ring.pendingFlits.map Flit.typ = List.replicate 256 2 ∧
            t.out.getLast? = some (.flit (s.outPort back) g blocks) ∧ g.src = f.src ∧ g.seq = f.seq ∧ g.payload.toNat % 32 = f.payload.toNat % 32 + 1 ∧
            (s.fernSt = 2 ∧ (s.mode = Mode.idle ∨ s.mode = Mode.load) → g.mark = f.mark) ∧
            (¬ (s.fernSt = 2 ∧ (s.mode = Mode.idle ∨ s.mode = Mode.load)) → g.mark = true ∧ g.payload.toNat / 2 ^ 24 % 32 = f.payload.toNat % 32 + 1) ∧
            s.objectsBut t [Key.ringStatus, Key.ringLat]) ∧
        (f.payload.toNat / 32 % 2 = 1 → s.linkA = true → s.linkB = true →
          ∃ t blocks, exec (.flitForm back f) s = .next t ∧ t.ringSt = (if s.foldedRing then 3 else 2) ∧ t.ringSize = f.payload.toNat % 32 + 1 ∧
            t.get Key.ringLat = toWord (10 * (f.payload.toNat / 256 % 8192)) ∧ t.out.getLast? = some (.flit (s.outPort back) (wire f) blocks) ∧
            s.objectsBut t [Key.ringStatus, Key.ringLat])) ∧
      (s.ringMaster = true → s.cmdBusy Key.ringForm = true → s.ownFlit f = true → s.linkA = true → s.linkB = true →
        (f.payload.toNat / 32 % 2 = 1 →
          ∃ t, exec (.flitForm back f) s = .next t ∧ t.ringSt = (if s.foldedRing then 3 else 2) ∧ t.cmdState Key.ringForm = Cmd.done ∧ t.get Key.ringLat = toWord s.ring.lat ∧
            s.objectsBut t [Key.ringForm, Key.ringStatus, Key.ringLat]) ∧
        (f.payload.toNat / 32 % 2 = 0 → f.mark = false → s.fernSt = 2 →
          ∃ t, exec (.flitForm back f) s = .next t ∧ t.ringSize = f.payload.toNat % 32 + 1 ∧ (t.ring.pendingFlits.map Flit.typ) = s.ring.pendingFlits.map Flit.typ ++ List.replicate 256 2 ∧
            t.cmdState Key.ringForm = s.cmdState Key.ringForm ∧ s.objectsBut t [Key.ringStatus]) ∧
        (f.payload.toNat / 32 % 2 = 0 → f.mark = true → f.payload.toNat / 2 ^ 24 % 32 ≠ 0 →
          ∃ t, exec (.flitForm back f) s = .next t ∧ t.ringSt = 0 ∧ t.cmdState Key.ringForm = Cmd.failed ∧ t.getF Key.ringForm 8 6 = Code.wrongMode.toNat ∧
            t.getF Key.ringForm 16 16 = f.payload.toNat / 2 ^ 24 % 32 + 64))) ∧
    (∀ (back : Bool) (f : Flit) (tick grid i : Nat), s.ringEnabled = true → s.mode ≠ Mode.reset → flitOk f = true → s.ringSt = 1 → f.src < 32 →
      i = f.src + (if back then 32 else 0) → (mget (0, 0) s.ring.hops i).1 + 1 ≠ 256 →
      ∃ t, exec (.flitMeasure back f tick grid) s = .next t ∧
        mget (0, 0) t.ring.hops i =
          ((mget (0, 0) s.ring.hops i).1 + 1, (mget (0, 0) s.ring.hops i).2 + (400 * tick + grid - (400 * s.resolveDue f.due + f.payload.toNat % 512))) ∧
        { t with ring := s.ring } = s) ∧
    (∀ tick grid : Nat, s.ringEnabled = true → (∀ f ∈ s.ring.inFlight, f.typ ≠ 2) →
      (∀ f : Flit, s.ring.breaking = none → s.ringSt ≠ 0 → firstFlit (s.ring.pendingFlits.filter (fun f => decide (0 < s.ring.credit f.cls))) = some f → f.typ ≠ 7 →
        ∃ t blocks, exec (.ringSlot tick grid) s = .next t ∧ t.out = s.out ++ [.flit (s.sendPort f) (wire (departs f tick grid)) blocks] ∧
          t.ring.credit f.cls + 1 = s.ring.credit f.cls ∧ f ∈ t.ring.inFlight ∧ f ∉ t.ring.pendingFlits ∧ { t with ring := s.ring, out := s.out } = s) ∧
      (∀ up : Nat, s.ring.breaking = some up →
        ∃ t g blocks, exec (.ringSlot tick grid) s = .next t ∧ t.out = s.out ++ [.flit (s.outPort false) g blocks] ∧ g.typ = 8 ∧ g.src = s.ringPos ∧ g.seq = s.ring.nextSeq ∧
          g.payload = BitVec.ofNat 32 up ∧ { t with ring := s.ring, out := s.out } = s)) ∧
    (∀ portB : Bool, Mode.train ≤ s.mode → s.liveBit 59 = false →
      ∃ t, exec (.ringLinkLock portB) s = .next t ∧ t.getF Key.ringStatus (if portB then 4 else 3) 1 = 1 ∧ s.onlyObjects t [Key.ringStatus])

/-- The flits of a ring in use (R227, R228, R230, R232-R238, R241), on a slot that does not turn back through a folded ring: a member forwards what passes with a
good CRC and acts on it once; a flit with a bad CRC goes on as ERRORED and is counted, and its originator sends it once more; a flit that comes home returns
its credit, and a START_REQ back decides the joint start; a condition or a token that waits for its DUE takes effect then; BREAK and a lost link raise FS059
with the ring down. -/
def Obligations.FlitsAct : Prop :=
  ∀ (s : State) (back : Bool) (f g : Flit), (back && s.linkB) = false → g = { f with due := s.resolveDue f.due } →
    (s.ringEnabled = true → s.mode ≠ Mode.reset → flitOk f = false → ∀ tick grid : Nat,
      ∀ c, c ∈ [Instr.flitForm back f, .flitMeasure back f tick grid, .flitStartReq back f, .flitLaunch back f, .flitCond back f, .flitToken back f, .flitTrig back f, .flitBreak back f,
        .flitErrored back f] →
      ∃ t blocks, exec c s = .next t ∧ t.out = s.out ++ [.flit (s.outPort back) (wire { f with typ := 9 }) blocks] ∧
        (t.get Key.ringCrcErrors).toNat = ((s.get Key.ringCrcErrors).toNat + 1) % 2 ^ 32 ∧ s.onlyRing t [Key.ringCrcErrors] ∧ t.ring = s.ring) ∧
    (s.reached f →
      (∃ t blocks, exec (.flitStartReq back f) s = .next t ∧ s.onlyRing t [] ∧ t.out = s.out ++ [.flit (s.outPort back) (wire { f with
        payload := if s.mode = Mode.armed ∧ s.auditSt ≠ 1 ∧ s.auditSt ≠ 2 then f.payload else f.payload ||| (1#32 <<< s.ringPos)
        mark := f.mark || (s.ring.startFlight && decide (s.ringPos < f.src)) }) blocks] ∧ f.src ∈ t.ring.starters) ∧
      (∃ t blocks, exec (.flitLaunch back f) s = .next t ∧ s.onlyRing t [] ∧ t.out = s.out ++ [.flit (s.outPort back) (wire f) blocks] ∧
        t.ring.launchDue = if s.ringJoint then some g.due else s.ring.launchDue) ∧
      (∀ c, c ∈ [Instr.flitCond back f, .flitTrig back f] → s.flitLate g = false →
        ∃ t blocks, exec c s = .next t ∧ s.onlyRing t [] ∧ t.out = s.out ++ [.flit (s.outPort back) (wire f) blocks] ∧ t.ring.due = s.ring.due ++ [g]) ∧
      (∀ c, c ∈ [Instr.flitCond back f, .flitTrig back f] → s.flitLate g = true → exec c s = .next (((s.noteFlit g).ringFault 60 .none).forward back g)) ∧
      (s.tokenThread f = none → s.flitLate g = false →
        ∃ t blocks, exec (.flitToken back f) s = .next t ∧ s.onlyRing t [] ∧ t.out = s.out ++ [.flit (s.outPort back) (wire f) blocks] ∧ t.ring.due = s.ring.due) ∧
      (∀ th : Nat, s.tokenThread f = some th →
        (s.flitLate g = false → s.placesTaken th < 15 →
          ∃ t blocks, exec (.flitToken back f) s = .next t ∧ s.onlyRing t [] ∧ t.out = s.out ++ [.flit (s.outPort back) (wire { f with mark := true }) blocks] ∧
            t.ring.due = s.ring.due ++ [{ g with mark := true }]) ∧
        (s.flitLate g = true ∨ 15 ≤ s.placesTaken th → exec (.flitToken back f) s = .next (((s.noteFlit g).ringFault 60 (.thread th)).forward back g)))) ∧
    (s.ringEnabled = true → s.mode ≠ Mode.reset → flitOk f = true → s.ownFlit f = true →
      (∀ c, c ∈ [Instr.flitLaunch back f, .flitCond back f, .flitTrig back f, .flitBreak back f] ∨ (c = .flitToken back f ∧ f.mark = true) →
        ∃ t, exec c s = .next t ∧ t.ring.credit f.cls = min (ringCredits f.cls) (s.ring.credit f.cls + 1) ∧ t.ownFlit f = false ∧ { t with ring := s.ring } = s) ∧
      (f.mark = false →
        ∃ t, exec (.flitToken back f) s = .next t ∧ (t.get Key.tokensUnclaimed).toNat = ((s.get Key.tokensUnclaimed).toNat + 1) % 2 ^ 32 ∧ s.onlyRing t [Key.tokensUnclaimed]) ∧
      (f.typ = 3 → s.ring.startFlight = true →
        (∀ x : Flit, f.mark = false → f.payload = 0 → s.ring.inFlight.find? (fun x => x.typ == 3 && x.seq == f.seq) = some x →
          ∃ t, exec (.flitStartReq back f) s = .next t ∧ t.ring.launchDue = some (frefEdge (x.due + s.leadTicks + 2 * s.ringLatTicks)) ∧ t.ring.startFlight = false ∧
            (∃ l ∈ t.ring.pendingFlits, l.typ = 4 ∧ l.due = frefEdge (x.due + s.leadTicks + 2 * s.ringLatTicks)) ∧ t.objs = s.objs) ∧
        (∀ pos : Nat, f.mark = true → s.marker = some pos → s.cmdBusy Key.burstStart = true →
          ∃ t, exec (.flitStartReq back f) s = .next t ∧ t.cmdState Key.burstStart = Cmd.failed ∧ t.getF Key.burstStart 8 6 = Code.busy.toNat ∧
            t.getF Key.burstStart 16 16 = pos) ∧
        (f.mark = false → f.payload ≠ 0 → s.cmdBusy Key.burstStart = true →
          ∃ t, exec (.flitStartReq back f) s = .next t ∧ t.cmdState Key.burstStart = Cmd.failed ∧ t.getF Key.burstStart 8 6 = Code.wrongMode.toNat ∧
            (bitsOf 32 f.payload.toNat).head? = some (t.getF Key.burstStart 16 16)))) ∧
    (s.ringEnabled = true → s.mode ≠ Mode.reset → flitOk f = true →
      (∀ x : Flit, s.ring.inFlight.find? (fun x => f.src == s.ringPos && x.seq == f.seq) = some x → x.resent = false →
        ∃ t, exec (.flitErrored back f) s = .next t ∧ t.ring.pendingFlits = { x with resent := true } :: s.ring.pendingFlits ∧ { t with ring := s.ring } = s) ∧
      (f.src ≠ s.ringPos → ∃ t blocks, exec (.flitErrored back f) s = .next t ∧ t.out = s.out ++ [.flit (s.outPort back) (wire f) blocks] ∧ { t with out := s.out } = s) ∧
      (s.ownFlit f = false →
        ∃ (u : State) (blocks : List Nat), exec (.flitBreak back f) s = .next (u.ringFault 59 .none) ∧ u.ringSt = 0 ∧ u.get Key.ringLat = 0 ∧
          Output.flit (s.outPort back) (wire f) blocks ∈ u.out ∧
          (s.cmdBusy Key.ringForm = true → u.cmdState Key.ringForm = Cmd.failed ∧ u.getF Key.ringForm 16 16 = f.payload.toNat % 32 + 32))) ∧
    (earliestDue s.ring.due = some f →
      (f.typ = 5 →
        ∃ t, exec .ringDue s = .next t ∧ t.ring.due = s.ring.due.erase f ∧ t.get Key.ringCond = toWord t.ring.conditions.toNat ∧
          t.ring.contributions = (f.src, BitVec.ofNat 16 f.payload.toNat) :: s.ring.contributions.filter (fun x => x.1 != f.src) ∧ s.objectsBut t [Key.ringCond]) ∧
      (∀ th : Nat, f.typ = 6 → f.mark = true → s.tokenThread f = some th → (s.thread th).waitRun = none →
        State.placesTaken { s with ring := { s.ring with due := s.ring.due.erase f } } th < 15 →
        ∃ t, exec .ringDue s = .next t ∧ t.ring.due = s.ring.due.erase f ∧ (t.thread th).banked = (s.thread th).banked ++ [(s.portTime f.due - 512000).toNat] ∧
          (t.thread th).depSync = (s.thread th).depSync - 1 ∧ t.objs = s.objs)) ∧
    (∀ portB : Bool, s.mode ≠ Mode.reset → bit (s.get Key.ringStatus) (if portB then 4 else 3) = true →
      (s.ringEnabled = false →
        ∃ t, exec (.ringLinkDown portB) s = .next t ∧ t.getF Key.ringStatus (if portB then 4 else 3) 1 = 0 ∧ s.onlyObjects t [Key.ringStatus]) ∧
      (s.ringEnabled = true →
        ∃ u : State, exec (.ringLinkDown portB) s = .next (u.ringFault 59 .none) ∧ u.getF Key.ringStatus (if portB then 4 else 3) 1 = 0 ∧ u.ringSt = 0 ∧ u.get Key.ringLat = 0 ∧
          (s.ringSt ≠ 0 → u.ring.breaking = some (if portB then (s.ringPos + s.ringSize - 1) % max 1 s.ringSize else s.ringPos))))

/-! ## Badger (spec/16, spec/08) -/

/-- REQ_CMD, CAL_CANCEL, REQ_DEADLINE, ROUTINE_START, CONDITIONAL_WAIT_END, POST_COMMIT_END (R349, R351, R356, R360-R365): an accepted request is PENDING at the
end of the queue; the next one that a gap lets start, here outside a burst, owns its slices, which read CALIBRATE, and reads RUNNING, a deskew with their LBK
high; a wait that times out takes the failure path, and one that ends brings a DAC under test its next code; the end of the post-commit part leaves the
request DONE; a cancel or a deadline ends it FAILED. ROUTINE_COMMIT (R177, R185-R188, R350, R351, R357, R358, R366): the commit of a slice self-test whose
units all passed leaves PASSED in each unit's result and their number in the request's; the commit of a deskew whose channels all pass splits each channel's
round trip, the mean of its four transitions, between the two directions and leaves the lane PASSED. Either ends the stimulus: the slices' LBK is low, they
read CALIBRATE no longer, and no drift correction is pending on them. -/
def Obligations.RequestsRun : Prop :=
  (∀ (s : State) (p : Sys2Proof.Path),
     (∀ n : Nat, n < 16 → s.serves p → s.cmdMode = false → s.mode ≠ Mode.safe → s.cmdBusy (Key.reqCmd n) = false → s.reqBad n = false → s.reqUnlocked n = [] → s.reqNow n = false →
       ∃ t, exec (.reqCmd p n 1) s = .next t ∧ t.answered (Key.reqCmd n) .ok ∧ t.cmdState (Key.reqCmd n) = Cmd.pending ∧ t.badgerQueue = s.badgerQueue ++ [n] ∧ t.abandons n = 0 ∧
         s.objectsBut t [Key.reqCmd n, Key.reqResult n]) ∧
     (∀ arg : Word, s.serves p → s.cmdMode = false → arg.toNat < 16 → s.cmdBusy (Key.reqCmd arg.toNat) = true → s.routine = none →
       ∃ t, exec (.calCancel p arg) s = .next t ∧ t.answered Key.calCancel .ok ∧ t.cmdState Key.calCancel = Cmd.done ∧ t.cmdState (Key.reqCmd arg.toNat) = Cmd.failed ∧
         t.getF (Key.reqCmd arg.toNat) 8 6 = Code.aborted.toNat ∧ t.badgerQueue = s.badgerQueue.filter (fun x => x != arg.toNat) ∧
         s.objectsBut t [Key.reqCmd arg.toNat, Key.calCancel]) ∧
     (∀ n : Nat, n < 16 → s.cmdState (Key.reqCmd n) = Cmd.pending →
       ∃ t, exec (.reqDeadline n) s = .next t ∧ t.cmdState (Key.reqCmd n) = Cmd.failed ∧ t.getF (Key.reqCmd n) 8 6 = Code.calDeferredTimeout.toNat ∧
         t.badgerQueue = s.badgerQueue.filter (fun x => x != n) ∧ s.onlyObjects { t with badgerQueue := s.badgerQueue } [Key.reqCmd n]) ∧
     (∀ n : Nat, n < 16 → s.machineCheck = false → s.routine = none → s.nextRequest [] s.badgerQueue = some n → s.mode ≠ Mode.burst → s.burst.running = false →
       ∃ t, exec .routineStart s = .next t ∧ t.cmdState (Key.reqCmd n) = Cmd.running ∧
         t.routine = some { slot := n, code := s.reqCode n, slices := s.reqSlices n, dacs := s.reqDacs n, tested := s.reqTested n, postCommit := false, failPath := false, held := s.heldDacs n, point := 0 } ∧
         (∀ sl, sl ∈ s.reqSlices n → t.sliceModeOf sl = 1 ∧ (t.slice sl).lbk = (if s.reqCode n = 1 then .high else (s.slice sl).lbk)) ∧ t.getF Key.badgerStatus 0 2 = 1 ∧ t.getF Key.badgerStatus 4 4 = n ∧
         (∀ sl, sl < 32 → sl ∉ s.reqSlices n → t.sliceModeOf sl = s.sliceModeOf sl) ∧ t.mode = s.mode) ∧
     (s.routine.isSome = true ∨ s.nextRequest [] s.badgerQueue = none → exec .routineStart s = .next s) ∧
     (∀ r : Routine, s.routine = some r →
       (r.postCommit = false → s.machineCheck = false → exec (.conditionalWaitEnd true) s = .next { s with routine := some { r with failPath := true } }) ∧
       (r.postCommit = true ∨ r.held = [] → exec (.conditionalWaitEnd false) s = .next s) ∧
       (∀ (d src c : Nat) (w : Word), r.postCommit = false → s.machineCheck = false → r.held = [(d, src, w)] → (s.testCodes d)[min 2 (r.point + 1)]? = some c → s.dacSource d ≠ 3 →
         ∃ t, exec (.conditionalWaitEnd false) s = .next t ∧ t.routine = some { r with point := min 2 (r.point + 1) } ∧ t.get (Key.dacActive d) = toWord c ∧ t.dacSource d = 2 ∧
           s.objectsBut t [Key.dacActive d, Key.dacStatus d]) ∧
       (r.postCommit = true → s.machineCheck = false →
         ∃ t, exec .postCommitEnd s = .next t ∧ t.routine = none ∧ t.get Key.badgerStatus = badgerIdle ∧ t.cmdState (Key.reqCmd r.slot) = Cmd.done ∧
           t.badgerQueue = s.badgerQueue.filter (fun x => x != r.slot) ∧ t.slices = s.slices ∧ s.objectsBut t [Key.badgerStatus, Key.reqCmd r.slot]))) ∧
  (∀ (s : State) (r : Routine) (deskew : List DeskewResult) (units : List UnitResult), s.routine = some r → r.postCommit = false → s.machineCheck = false → r.slot < 16 →
     (∀ sl ∈ r.slices, sl < 32) →
     (r.code = 0x20 → (∀ x ∈ unitsOf r.slices units, x.passed = true) →
       ∃ t, exec (.routineCommit deskew units) s = .next t ∧ t.routine = some { r with postCommit := true } ∧ t.get (Key.reqCommitRaw r.slot) = s.get Key.rawCount ∧
         t.getF (Key.reqResult r.slot) 0 16 = satTo 0xFFFF (unitsOf r.slices units).length ∧ t.getF (Key.reqResult r.slot) 16 16 = 0 ∧ t.getF Key.badgerStatus 0 2 = 2 ∧
         (∀ x ∈ unitsOf r.slices units, t.get (Key.sliceBistResult x.unit) = 1) ∧
         (∀ sl ∈ r.slices, (t.slice sl).lbk = .low ∧ (t.slice sl).drift = none ∧ t.sliceModeOf sl ≠ 1) ∧ t.mode = s.mode) ∧
     (r.code = 1 → (∀ d ∈ deskewOf r.slices deskew, s.deskewCause d = 0) →
       ∃ t, exec (.routineCommit deskew units) s = .next t ∧ t.routine = some { r with postCommit := true } ∧
         t.getF (Key.reqResult r.slot) 0 16 = satTo 0xFFFF (32 * r.slices.length) ∧ t.getF (Key.reqResult r.slot) 16 16 = 0 ∧
         (∀ d ∈ deskewOf r.slices deskew, ∀ rt : Nat, rt = (d.rise + d.fall + d.dip + d.lift + 2) / 4 →
           t.laneState d.channel = 1 ∧ t.get (Key.laneRt d.channel) = toWord (gridFs rt) ∧
           t.get (Key.laneDt d.channel) = toWord (gridFs (splitT rt (s.get (Key.laneAsym d.channel)).toInt).toNat) ∧
           t.get (Key.laneDs d.channel) = toWord (gridFs ((rt : Int) - splitT rt (s.get (Key.laneAsym d.channel)).toInt).toNat) ∧
           t.get (Key.eyeWidth d.channel) = toWord (satTo 0xFFFF d.eye)) ∧
         (∀ sl ∈ r.slices, (t.slice sl).lbk = .low ∧ (t.slice sl).drift = none ∧ t.sliceModeOf sl ≠ 1) ∧ t.mode = s.mode))

/-- DRIFT_TRACKING, DRIFT_CORRECTION_APPLY, DRIFT_LIMIT, EYE_AGGREGATION, MARGIN_ERROR, LANE_TX_FAULT, LANE_RX_OPEN, SLICE_PLL_UNLOCK, SLICE_PLL_LOCK,
ADC_REFERENCE_CHECK, NVM_VERIFY (R67, R176, R177, R190, R191, R261, R347, R407): a measured lag waits while a port runs and is otherwise applied at once, at
most 0.8 ps of it; margin errors count until the second ends; what the checks find raises its source. -/
def Obligations.HousekeepingActs : Prop :=
  ∀ s : State,
    (∀ (sl : Nat) (lag : Int), sl < 32 → s.housekeeping = true → s.sliceModeOf sl ≠ 1 → lag.natAbs < 2 ^ 32 →
      (s.portRuns sl = true →
        ∃ t, exec (.driftTracking sl lag) s = .next t ∧ t.get (Key.driftLag sl) = intWord lag ∧ (t.slice sl).drift = some lag ∧
          (t.get Key.driftMaxFs).toNat = max (s.get Key.driftMaxFs).toNat lag.natAbs ∧ s.objectsBut t [Key.driftLag sl, Key.driftMaxFs]) ∧
      (s.portRuns sl = false →
        ∃ t, exec (.driftTracking sl lag) s = .next t ∧ t.get (Key.driftLag sl) = intWord (lag - clampStep lag) ∧ (t.slice sl).drift = none ∧
          (t.get Key.driftUpdates).toNat = ((s.get Key.driftUpdates).toNat + 1) % 2 ^ 64 ∧ s.objectsBut t [Key.driftLag sl, Key.driftMaxFs, Key.driftUpdates])) ∧
    (∀ (sl : Nat) (lag : Int), sl < 32 → Mode.train ≤ s.mode → s.mode ≤ Mode.safe → s.sliceModeOf sl ≠ 1 →
      ((s.slice sl).drift = none → exec (.driftCorrectionApply sl) s = .next s) ∧
      ((s.slice sl).drift = some lag →
        ∃ t, exec (.driftCorrectionApply sl) s = .next t ∧ t.get (Key.driftLag sl) = intWord ((s.get (Key.driftLag sl)).toInt - clampStep lag) ∧ (t.slice sl).drift = none ∧
          (t.get Key.driftUpdates).toNat = ((s.get Key.driftUpdates).toNat + 1) % 2 ^ 64 ∧ s.objectsBut t [Key.driftLag sl, Key.driftUpdates])) ∧
    (∀ sl : Nat, sl < 32 →
      ((s.get (Key.driftLag sl)).toInt.natAbs ≤ 4000 → exec (.driftLimit sl) s = .next s) ∧
      (4000 < (s.get (Key.driftLag sl)).toInt.natAbs → s.housekeeping = true → s.sliceModeOf sl ≠ 1 → (s.slice sl).lagHigh = false →
        exec (.driftLimit sl) s = .next ((s.putSlice sl { s.slice sl with lagHigh := true }).fault 48 (.slice sl) 0)) ∧
      (s.housekeeping = true → (∀ x ∈ (s.slice sl).margins, x.2 ≤ (s.get Key.eyeLimit).toNat) →
        exec (.eyeAggregation sl) s = .next (s.putSlice sl { s.slice sl with margins := [] }))) ∧
    (∀ g : Nat, g < 1024 →
      (s.monitored g = true →
        ∃ t, exec (.marginError g) s = .next t ∧ (t.get (Key.marginErrors g)).toNat = satTo (2 ^ 32 - 1) ((s.get (Key.marginErrors g)).toNat + 1) ∧
          mget 0 (t.slice (g / 32)).margins g = mget 0 (s.slice (g / 32)).margins g + 1 ∧ s.objectsBut t [Key.marginErrors g]) ∧
      (s.monitored g = true → s.laneState g = 1 → s.sliceModeOf (g / 32) ≠ 1 → exec (.laneTxFault g) s = .next (s.fault 49 (.channel g) 5)) ∧
      (s.monitored g = true → exec (.laneRxOpen g) s = .next (s.fault 50 (.channel g) 6)) ∧
      (s.monitored g = false → exec (.marginError g) s = .next s ∧ exec (.laneTxFault g) s = .next s ∧ exec (.laneRxOpen g) s = .next s)) ∧
    (∀ sl : Nat, sl < 32 →
      (Mode.train ≤ s.mode → (s.slice sl).pllLocked = true →
        exec (.slicePllUnlock sl) s = .next (((s.putSlice sl { s.slice sl with pllLocked := false }).fault (96 + sl) (.slice sl) 0).refreshSlice sl)) ∧
      (s.frefPresent = true → (s.slice sl).pllLocked = false → s.diag = none →
        ∃ t, exec (.slicePllLock sl) s = .next t ∧ (t.slice sl).pllLocked = true ∧ t.liveBit (96 + sl) = false ∧ t.mode = s.mode)) ∧
    (s.housekeeping = true →
      (s.liveBit 62 = false → exec (.adcReferenceCheck true) s = .next s ∧ exec (.adcReferenceCheck false) s = .next (s.fault 62 .none 0)) ∧
      (s.liveBit 62 = true → ∃ t, exec (.adcReferenceCheck true) s = .next t ∧ t.liveBit 62 = false ∧ t.mode = s.mode)) ∧
    (∀ page : Nat, page < 1024 →
      exec (.nvmVerify page true) s = .next s ∧
      (∀ j : Nat, regionOfPage page = some j → s.housekeeping = true →
        ∃ t : State, exec (.nvmVerify page false) s = .next (t.fault 24 .none 0) ∧ t.nvm = s.nvm.damage page ∧ t.getF Key.nvmStatus 7 1 = 1 ∧ t.getF Key.nvmStatus 8 3 = j ∧
          s.objectsBut t [Key.nvmStatus]))

/-! ## Reset, boot and power (spec/19) -/

/-- POWER_ON_RESET, RESET_N_LOW, DEVICE_RESET, DEVICE_RESET_TAKEN, TAP_RESET (R408, R409): a device reset returns every object but GUARD_UNLOCK_N's level to its
reset value and keeps the mode left and the burst number in the retention registers, which the loss of VNV alone takes; further sources in RESET are noted.
DEVICE_RESET acts after its response, and the TAP's reset returns the TAP alone to its reset state (log entry 153). RESET_RELEASE, BOOT_DONE, TRAIN_DONE (R62,
R411-R416): with every source released the device boots and the PCIe link comes up, RESET_CAUSE tells what reset it, and the accepted image of the selector's
slot runs; where it is rejected and the other accepted, that one runs, the fallback is counted and FS022 raised; with both rejected the device stays in BOOT,
LOAD failed. The end of BOOT starts the watchdog, programs the BOOT record and enters TRAIN; a TRAIN whose sub-channels and channels all pass enters IDLE with
DDR5 enabled and empty. The guard record and the ledger that are read hold what such copies hold, no factory page is bad in both copies, no record is torn,
and no dictionary bank is valid. PWRFAIL, POWER_FAIL_RECORD, QUIESCE_FLUSHED (R403, R417-R419): a power fail, here with FS007 at no more than DEGRADE, takes
an idle device to QUIESCE with the flush running; the record is the newest, after which Lichen takes none, and the outputs are released; an ordered QUIESCE
ends with its own record and the same release: lanes, TRIGOUT and LBK balls are high-impedance and every DAC is at 0. -/
def Obligations.ResetsBootAndPowerFail : Prop :=
  (∀ (s : State) (p : Sys2Proof.Path),
     (s.mode ≠ Mode.reset →
       ∃ t, exec .resetNLow s = .next t ∧ t.mode = Mode.reset ∧ t.resetSeen = [1] ∧ t.retained = true ∧ t.retainMode = s.mode ∧
         t.retainBurst = (s.get Key.burstNumber).toNat ∧ t.pending = s.pending ∧ s.out <+: t.out ∧ (∀ k, k ≠ Key.guardStatus → k ≠ Key.deviceMode → t.get k = shipped k) ∧
         bit (t.get Key.guardStatus) 0 = s.unlocked ∧ t.sessions = [] ∧ t.cells = [] ∧ t.nvm.blackBox = s.nvm.blackBox ∧ t.nvm.persistImage = none) ∧
     (s.mode = Mode.reset → s.resetSeen.contains 1 = false → exec .resetNLow s = .next { s with resetPending := false, resetSeen := s.resetSeen ++ [1] }) ∧
     (∀ rails : BitVec 7, rails ≠ 0 →
       ∃ t, exec (.powerOnReset rails) s = .next t ∧ t.mode = Mode.reset ∧ 0 ∈ t.resetSeen ∧ (rails.getLsbD 6 = true → t.retained = false) ∧
         (rails.getLsbD 6 = false → s.mode ≠ Mode.reset → t.retained = true ∧ t.resetRails = rails.toNat)) ∧
     exec (.powerOnReset 0) s = .next s ∧
     (s.serves p → s.resetPending = false →
       ∃ t, exec (.deviceReset p 0xA5A5) s = .next t ∧ t.answered Key.deviceReset .ok ∧ t.cmdState Key.deviceReset = Cmd.running ∧ t.resetPending = true ∧ t.mode = s.mode ∧
         s.objectsBut t [Key.deviceReset]) ∧
     (∀ arg : Word, s.serves p → s.resetPending = false → arg ≠ 0xA5A5 → ∃ t, exec (.deviceReset p arg) s = .next t ∧ t.answered Key.deviceReset .range ∧ s.onlyObjects t []) ∧
     (s.resetPending = true → s.mode ≠ Mode.reset → ∃ t, exec .deviceResetTaken s = .next t ∧ t.mode = Mode.reset ∧ t.resetSeen = [2] ∧ t.resetPending = false) ∧
     (s.resetPending = false → exec .deviceResetTaken s = .next s) ∧ exec .tapReset s = .next { s with tap := Tap.rest }) ∧
  (∀ s : State,
     (∀ (slot0 slot1 : Nat) (v : BitVec 32), s.mode = Mode.reset → (∀ i c, inUse s.nvm.guard0 s.nvm.guard1 = some (i, c) → ∀ e ∈ c.entries, isGuardKey e.1 = true) →
       (∀ c, s.nvm.bestLedger = some c → c.bins.length = 16) → (∀ p, p < 32 → p ∈ s.nvm.factoryBad → p + 32 ∉ s.nvm.factoryBad) → s.nvm.tornSlots = [] →
       ((if s.nvm.bootSlot = 0 then slot0 else slot1) = 1 →
         ∃ t, exec (.resetRelease true true slot0 slot1 v) s = .next t ∧ t.mode = Mode.boot ∧ t.getF Key.bootStatus 0 3 = 4 ∧ t.getF Key.bootStatus 4 1 = 0 ∧
           t.get Key.firmwareVersion = toWord v.toNat ∧ t.get Key.resetCause = s.causeWord ∧ t.resetSeen = [] ∧ t.pcieUp = true ∧ t.get Key.bbValid = toWord s.nvm.blackBox.length) ∧
       ((if s.nvm.bootSlot = 0 then slot0 else slot1) ≠ 1 → (if s.nvm.bootSlot = 0 then slot1 else slot0) = 1 → s.nvm.bootSlot < 2 →
         ∃ u : State, exec (.resetRelease true true slot0 slot1 v) s = .next (u.fault 22 .none 0) ∧ u.mode = Mode.boot ∧ u.getF Key.bootStatus 0 3 = 4 ∧ u.getF Key.bootStatus 3 1 = 1 - s.nvm.bootSlot ∧
           u.getF Key.bootStatus 4 1 = 1 ∧ u.get Key.firmwareVersion = toWord v.toNat ∧ u.pcieUp = true) ∧
       (slot0 ≠ 1 → slot1 ≠ 1 →
         ∃ t, exec (.resetRelease true true slot0 slot1 v) s = .next t ∧ t.mode = Mode.boot ∧ t.getF Key.bootStatus 0 3 = 7 ∧ ∀ ms, exec (.bootDone ms) t = .next t)) ∧
     (∀ (high : Bool) (slot0 slot1 : Nat) (v : BitVec 32), exec (.resetRelease false high slot0 slot1 v) s = .next s) ∧
     (∀ ms : Nat, s.mode = Mode.boot → s.getF Key.bootStatus 0 3 = 4 → inUse s.nvm.bankA s.nvm.bankB = none → s.nvm.closed = false → bit (s.get Key.guardStatus) 2 = true →
       s.unlocked = false → s.routine = none → s.diag = none →
       ∃ t r, exec (.bootDone ms) s = .next t ∧ t.mode = Mode.train ∧ t.getF Key.bootStatus 0 3 = 6 ∧ t.get Key.bootMs = toWord (ms % 2 ^ 32) ∧ t.getF Key.wdogStatus 0 1 = 1 ∧
         t.nvm.blackBox.getLast? = some r ∧ r.typ = 1 ∧ t.ledger.boots = (s.ledger.boots + 1) % 2 ^ 32 ∧ t.capacity = 0) ∧
     (∀ (ms : Nat) (ddr : List SubchTrain) (deskew : List DeskewResult), s.mode = Mode.train → s.modeChanging = false → s.diag = none → s.routine = none →
       (∀ i ∈ s.populated, trainCause (trainOf ddr i) = 0) → (∀ r ∈ deskewOf (List.range 32) deskew, s.deskewCause r = 0) →
       ∃ t, exec (.trainDone ms ddr deskew) s = .next t ∧ t.mode = Mode.idle ∧ t.get Key.trainMs = toWord (ms % 2 ^ 32) ∧ (∀ i ∈ s.populated, t.subchSt i = 2) ∧
         (∀ g, g < 1024 → t.laneState g = 1) ∧ (∀ i ∈ s.populated, i ∈ t.enabled) ∧ t.get Key.dramFill = 0 ∧ t.cells = [])) ∧
  (∀ s : State,
     (s.mode = Mode.reset → exec .pwrfail s = .next s) ∧
     (s.mode = Mode.idle → s.severityOf 7 ≤ Sev.degrade → s.powerFailing = false → s.modeChanging = false → s.routine = none → s.diag = none →
       ∃ t, exec .pwrfail s = .next t ∧ t.mode = Mode.quiesce ∧ t.powerFailing = true ∧ t.ledger.powerFails = (s.ledger.powerFails + 1) % 2 ^ 32 ∧ t.causeBit 7 = true ∧
         t.nvm.persistImage = none) ∧
     (s.powerFailing = true → s.nvm.closed = false →
       ∃ t r, exec .powerFailRecord s = .next t ∧ t.nvm.blackBox.getLast? = some r ∧ r.typ = 3 ∧ r.payload = s.ledgerWords ∧ t.nvm.closed = true ∧ bit (t.get Key.quiesceStatus) 0 = true ∧
         t.laneBase = .highZ ∧ t.lanes = [] ∧ t.trigoutActive = [] ∧ t.trigoutHighZ = true ∧ (∀ sl, sl < 32 → (t.slice sl).lbk = .highZ) ∧ (∀ d, d < 64 → t.get (Key.dacActive d) = 0 ∧ t.dacSource d = 0) ∧ t.mode = s.mode) ∧
     (s.mode = Mode.quiesce → s.powerFailing = false → bit (s.get Key.quiesceStatus) 0 = false → s.lichenBusy = false → s.nvm.closed = false → (∀ c, c < 8 → (s.chan c).state = 0) →
       ∃ t r, exec .quiesceFlushed s = .next t ∧ t.nvm.blackBox.getLast? = some r ∧ r.typ = 4 ∧ bit (t.get Key.quiesceStatus) 0 = true ∧ t.laneBase = .highZ ∧ t.lanes = [] ∧
         t.trigoutHighZ = true ∧ (∀ sl, sl < 32 → (t.slice sl).lbk = .highZ) ∧ (∀ d, d < 64 → t.get (Key.dacActive d) = 0 ∧ t.dacSource d = 0) ∧ t.mode = s.mode))
end

