-- ==== Sys2Proof/Laws/Bits.lean ====
section
/-! SUPPORT. The laws of bit fields and byte order: a field reads what was written to it, disjoint fields do not disturb each other, bytes and numbers agree. -/

namespace Sys2Proof.Machine

/-- Bit `i` of a field is bit `lo + i` of the word. -/
theorem field_testBit (w : Word) (lo len i : Nat) : (field w lo len).testBit i = (decide (i < len) && w.getLsbD (lo + i)) := by
  simp [field, Nat.testBit_mod_two_pow, Nat.testBit_shiftRight, BitVec.getLsbD]

theorem field_lt (w : Word) (lo len : Nat) : field w lo len < 2 ^ len := Nat.mod_lt _ (Nat.two_pow_pos _)

theorem fieldMask_bit (lo len i : Nat) : (fieldMask lo len).getLsbD i = (decide (i < 64) && decide (lo ≤ i) && decide (i < lo + len)) := by
  have h : ∀ j, (2 ^ len - 1).testBit j = decide (j < len) := fun j => Nat.testBit_two_pow_sub_one len j
  simp only [fieldMask, BitVec.getLsbD_ofNat, Nat.testBit_mul_two_pow]
  rw [h]
  by_cases h1 : i < 64 <;> by_cases h2 : lo ≤ i <;> simp [h1, h2]
  omega

/-- Bit `i` of a word after a field was set. -/
theorem setField_bit (w : Word) (lo len v i : Nat) : (setField w lo len v).getLsbD i =
    if lo ≤ i ∧ i < lo + len then (decide (i < 64) && v.testBit (i - lo)) else w.getLsbD i := by
  have hw : ¬ i < 64 → w.getLsbD i = false := fun h => BitVec.getLsbD_of_ge w i (by omega)
  simp only [setField, BitVec.getLsbD_or, BitVec.getLsbD_and, BitVec.getLsbD_not, fieldMask_bit, BitVec.getLsbD_ofNat, Nat.testBit_mul_two_pow, Nat.testBit_mod_two_pow]
  by_cases h1 : i < 64 <;> by_cases h2 : lo ≤ i <;> by_cases h3 : i < lo + len <;> simp [h1, h2, h3, hw]
  · intro _
    omega
  · intro h
    omega

/-- A field reads what was written to it. -/
theorem field_setField_same (w : Word) (lo len v : Nat) (h : lo + len ≤ 64) : field (setField w lo len v) lo len = v % 2 ^ len := by
  apply Nat.eq_of_testBit_eq
  intro i
  rw [field_testBit, setField_bit, Nat.testBit_mod_two_pow]
  by_cases hi : i < len
  · have h1 : lo ≤ lo + i ∧ lo + i < lo + len := by omega
    have h2 : lo + i < 64 := by omega
    simp [hi, h2]
  · simp [hi]

/-- A disjoint field is as it was. -/
theorem field_setField_other (w : Word) (lo len v lo' len' : Nat) (h : lo' + len' ≤ lo ∨ lo + len ≤ lo') :
    field (setField w lo len v) lo' len' = field w lo' len' := by
  apply Nat.eq_of_testBit_eq
  intro i
  rw [field_testBit, field_testBit, setField_bit]
  by_cases hi : i < len'
  · have h1 : ¬ (lo ≤ lo' + i ∧ lo' + i < lo + len) := by omega
    simp [h1]
  · simp [hi]

@[simp] theorem toWord_toNat (n : Nat) : (toWord n).toNat = n % 2 ^ 64 := by simp [toWord]

theorem toWord_toNat_of_lt {n : Nat} (h : n < 2 ^ 64) : (toWord n).toNat = n := by
  rw [toWord_toNat, Nat.mod_eq_of_lt h]

/-- The number of the bytes of a number. -/
theorem ofLeBytes_leBytes (n v : Nat) : ofLeBytes (leBytes n v) = v % 256 ^ n := by
  induction n generalizing v with
  | zero => simp [leBytes, ofLeBytes, Nat.mod_one]
  | succ n ih =>
    simp only [leBytes, ofLeBytes, ih, BitVec.toNat_ofNat]
    have h : v % 256 ^ (n + 1) = v % 256 + 256 * (v / 256 % 256 ^ n) := by
      rw [pow_succ, mul_comm (256 ^ n) 256, Nat.mod_mul]
    rw [h]

@[simp] theorem leBytes_length (n v : Nat) : (leBytes n v).length = n := by
  induction n generalizing v with
  | zero => rfl
  | succ n ih => simp [leBytes, ih]

end Sys2Proof.Machine
end

