-- ==== Sys2Proof/Laws/Stores.lean ====
section
/-! SUPPORT. The laws of the sparse stores: a read after a write, writes to other keys, and the canonical form. -/

namespace Sys2Proof.Machine

variable {α : Type}

@[simp] theorem mget_nil (d : α) (k : Nat) : mget d [] k = d := rfl

theorem mget_merase (d : α) (m : List (Nat × α)) (k k' : Nat) : mget d (merase m k) k' = if k = k' then d else mget d m k' := by
  induction m with
  | nil => simp [merase]
  | cons e m ih =>
    obtain ⟨a, v⟩ := e
    simp only [merase]
    split
    · subst_vars
      rw [ih]
      by_cases h : a = k' <;> simp [mget, h]
    · simp only [mget]
      split
      · simp_all [eq_comm]
      · exact ih

theorem mget_minsert (d : α) (m : List (Nat × α)) (k k' : Nat) (v : α) (h : mget d m k = d ∨ k ≠ k') (hm : ∀ e ∈ m, e.1 ≠ k) :
    mget d (minsert m k v) k' = if k = k' then v else mget d m k' := by
  induction m with
  | nil => simp [minsert, mget]
  | cons e m ih =>
    obtain ⟨a, w⟩ := e
    have ha : a ≠ k := hm (a, w) (by simp)
    have ih' := ih (by simpa [mget, ha] using h) (fun e he => hm e (by simp [he]))
    simp only [minsert]
    split
    · simp [mget]
    · simp only [mget]
      split
      · subst_vars
        simp [Ne.symm ha]
      · exact ih'

theorem merase_ne (m : List (Nat × α)) (k : Nat) : ∀ e ∈ merase m k, e.1 ≠ k := by
  induction m with
  | nil => simp [merase]
  | cons e m ih =>
    obtain ⟨a, v⟩ := e
    simp only [merase]
    split
    · exact ih
    · rename_i h
      intro e he
      rcases List.mem_cons.1 he with rfl | he
      · exact h
      · exact ih e he

/-- A store answers what was written last at a key, and at every other key what it answered before. -/
theorem mget_mset [DecidableEq α] (d : α) (m : List (Nat × α)) (k k' : Nat) (v : α) : mget d (mset d m k v) k' = if k = k' then v else mget d m k' := by
  unfold mset
  split
  · rename_i h
    rw [mget_merase, h]
  · rw [mget_minsert _ _ _ _ _ (by rw [mget_merase]; simp) (merase_ne m k), mget_merase]
    by_cases h : k = k' <;> simp [h]

@[simp] theorem mget_mset_same [DecidableEq α] (d : α) (m : List (Nat × α)) (k : Nat) (v : α) : mget d (mset d m k v) k = v := by simp [mget_mset]

/-- Another key answers as before, whatever unlisted keys read as. -/
theorem mget_mset_other [DecidableEq α] (d d' : α) (m : List (Nat × α)) {k k' : Nat} (v : α) (h : k ≠ k') : mget d' (mset d m k v) k' = mget d' m k' := by
  unfold mset
  split
  · rw [mget_merase, if_neg h]
  · rw [mget_minsert _ _ _ _ _ (Or.inr h) (merase_ne m k), if_neg h, mget_merase, if_neg h]

/-- The keys of a store rise as a chain. -/
theorem keysRise_iff (m : List (Nat × α)) : keysRise m = true ↔ m.Pairwise (fun a b => a.1 < b.1) := by
  induction m with
  | nil => simp [keysRise]
  | cons e m ih =>
    cases m with
    | nil => simp [keysRise]
    | cons f r =>
      obtain ⟨a, v⟩ := e
      obtain ⟨b, w⟩ := f
      simp only [keysRise, Bool.and_eq_true, decide_eq_true_eq, ih]
      constructor
      · rintro ⟨h, hp⟩
        refine List.pairwise_cons.2 ⟨?_, hp⟩
        intro x hx
        rcases List.mem_cons.1 hx with rfl | hx
        · exact h
        · exact lt_trans h ((List.pairwise_cons.1 hp).1 x hx)
      · intro hp
        exact ⟨(List.pairwise_cons.1 hp).1 (b, w) (by simp), (List.pairwise_cons.1 hp).2⟩

theorem merase_sublist (m : List (Nat × α)) (k : Nat) : (merase m k).Sublist m := by
  induction m with
  | nil => simp [merase]
  | cons e m ih =>
    obtain ⟨a, v⟩ := e
    simp only [merase]
    split
    · exact ih.cons _
    · exact ih.cons_cons _

theorem mem_minsert (m : List (Nat × α)) (k : Nat) (v : α) (e : Nat × α) : e ∈ minsert m k v ↔ e = (k, v) ∨ e ∈ m := by
  induction m with
  | nil => simp [minsert]
  | cons f m ih =>
    obtain ⟨a, w⟩ := f
    simp only [minsert]
    split
    · simp
    · simp only [List.mem_cons, ih]
      tauto

theorem minsert_rise (m : List (Nat × α)) (k : Nat) (v : α) (h : m.Pairwise (fun a b => a.1 < b.1)) (hk : ∀ e ∈ m, e.1 ≠ k) :
    (minsert m k v).Pairwise (fun a b => a.1 < b.1) := by
  induction m with
  | nil => simp [minsert]
  | cons f m ih =>
    obtain ⟨a, w⟩ := f
    have hp := List.pairwise_cons.1 h
    simp only [minsert]
    split
    · rename_i hlt
      refine List.pairwise_cons.2 ⟨?_, h⟩
      intro e he
      rcases List.mem_cons.1 he with rfl | he
      · exact hlt
      · exact lt_trans hlt (hp.1 e he)
    · rename_i hlt
      have hak : a < k := lt_of_le_of_ne (not_lt.1 hlt) (hk (a, w) (by simp))
      refine List.pairwise_cons.2 ⟨?_, ih hp.2 (fun e he => hk e (by simp [he]))⟩
      intro e he
      rcases (mem_minsert m k v e).1 he with rfl | he
      · exact hak
      · exact hp.1 e he

theorem storeWf_iff [DecidableEq α] (d : Nat → α) (m : List (Nat × α)) :
    storeWf d m = true ↔ m.Pairwise (fun a b => a.1 < b.1) ∧ ∀ e ∈ m, e.2 ≠ d e.1 := by
  simp [storeWf, keysRise_iff]

@[simp] theorem storeWf_nil [DecidableEq α] (d : Nat → α) : storeWf d [] = true := rfl

/-- A write keeps the canonical form. -/
theorem mset_wf [DecidableEq α] (d : Nat → α) (m : List (Nat × α)) (k : Nat) (v : α) (h : storeWf d m = true) : storeWf d (mset (d k) m k v) = true := by
  rw [storeWf_iff] at h ⊢
  have hs := merase_sublist m k
  have he : (merase m k).Pairwise (fun a b => a.1 < b.1) := h.1.sublist hs
  have hd : ∀ e ∈ merase m k, e.2 ≠ d e.1 := fun e hm => h.2 e (hs.subset hm)
  unfold mset
  split
  · exact ⟨he, hd⟩
  · rename_i hv
    refine ⟨minsert_rise _ _ _ he (merase_ne m k), ?_⟩
    intro e hm
    rcases (mem_minsert _ _ _ _).1 hm with rfl | hm
    · exact hv
    · exact hd e hm

/-- Two canonical stores that answer alike are equal. -/
theorem store_ext [DecidableEq α] (d : Nat → α) (m m' : List (Nat × α)) (h : storeWf d m = true) (h' : storeWf d m' = true)
    (hg : ∀ k, mget (d k) m k = mget (d k) m' k) : m = m' := by
  have lookup : ∀ (l : List (Nat × α)), l.Pairwise (fun a b => a.1 < b.1) → ∀ e ∈ l, mget (d e.1) l e.1 = e.2 := by
    intro l
    induction l with
    | nil => simp
    | cons f l ih =>
      obtain ⟨a, v⟩ := f
      intro hp e he
      have hp' := List.pairwise_cons.1 hp
      rcases List.mem_cons.1 he with rfl | he
      · simp [mget]
      · have : a ≠ e.1 := ne_of_lt (hp'.1 e he)
        simp [mget, this, ih hp'.2 e he]
  have miss : ∀ (l : List (Nat × α)) (k : Nat), (∀ e ∈ l, e.1 ≠ k) → mget (d k) l k = d k := by
    intro l k
    induction l with
    | nil => simp
    | cons f l ih =>
      obtain ⟨a, v⟩ := f
      intro hk
      have : a ≠ k := hk (a, v) (by simp)
      simp [mget, this, ih (fun e he => hk e (by simp [he]))]
  have sub : ∀ (l l' : List (Nat × α)), storeWf d l = true → storeWf d l' = true → (∀ k, mget (d k) l k = mget (d k) l' k) → ∀ e ∈ l, e ∈ l' := by
    intro l l' hl hl' hg e he
    rw [storeWf_iff] at hl hl'
    by_contra hn
    have h1 := lookup l hl.1 e he
    rw [hg] at h1
    by_cases hx : ∃ f ∈ l', f.1 = e.1
    · obtain ⟨f, hf, hk⟩ := hx
      have h2 := lookup l' hl'.1 f hf
      rw [hk] at h2
      have : f = e := Prod.ext hk (h2.symm.trans h1)
      exact hn (this ▸ hf)
    · have hx' : ∀ f ∈ l', f.1 ≠ e.1 := fun f hf hk => hx ⟨f, hf, hk⟩
      rw [miss l' e.1 hx'] at h1
      exact hl.2 e he h1.symm
  have hl := (storeWf_iff d m).1 h
  have hl' := (storeWf_iff d m').1 h'
  exact List.Perm.eq_of_pairwise (le := fun a b => a.1 < b.1) (fun a b _ _ h1 h2 => absurd (lt_trans h1 h2) (lt_irrefl _)) hl.1 hl'.1
    ((List.perm_ext_iff_of_nodup (hl.1.imp (fun h he => by simp [he] at h)) (hl'.1.imp (fun h he => by simp [he] at h))).2
      (fun e => ⟨sub m m' h h' hg e, sub m' m h' h (fun k => (hg k).symm) e⟩))

end Sys2Proof.Machine
end

