-- ==== Sys2Proof/Laws/State.lean ====
section
/-! SUPPORT. The laws of the accessors: what each update of the state leaves in each field, and what an object, a thread, a slice reads after a write. -/

namespace Sys2Proof.Machine

/-! ## Objects -/

/-- An object reads what was written to it last. -/
theorem State.get_put (s : State) (k k' : Nat) (v : Word) : (s.put k v).get k' = if k = k' then v else s.get k' := by
  by_cases h : k = k'
  · subst h
    simp [State.get, State.put]
  · simp [State.get, State.put, h, mget_mset_other]

@[simp] theorem State.get_put_same (s : State) (k : Nat) (v : Word) : (s.put k v).get k = v := by simp [State.get_put]

theorem State.get_put_other (s : State) {k k' : Nat} (v : Word) (h : k ≠ k') : (s.put k v).get k' = s.get k' := by simp [State.get_put, h]

@[simp] theorem State.getF_eq (s : State) (k lo len : Nat) : s.getF k lo len = field (s.get k) lo len := rfl

/-- A field reads what was written to it last. -/
theorem State.get_putF (s : State) (k k' lo len v : Nat) : (s.putF k lo len v).get k' = if k = k' then setField (s.get k) lo len v else s.get k' := by
  simp [State.putF, State.get_put]

theorem State.put_objs (s : State) (k : Nat) (v : Word) : (s.put k v).objs = mset (shipped k) s.objs k v := rfl

theorem State.put_subs (s : State) (k : Nat) (v : Word) : (s.put k v).subs = if s.get k = v then s.subs else noteChange k s.subs := rfl

/-! ## Threads, slices, units -/

theorem State.thread_putThread (s : State) (n m : Nat) (x : Thread) : (s.putThread n x).thread m = if n = m then x else s.thread m := by
  simp [State.thread, State.putThread, mget_mset]

theorem State.slice_putSlice (s : State) (n m : Nat) (x : SliceSt) : (s.putSlice n x).slice m = if n = m then x else s.slice m := by
  simp [State.slice, State.putSlice, mget_mset]

theorem State.chan_putChan (s : State) (n m : Nat) (x : DmaChan) : (s.putChan n x).chan m = if n = m then x else s.chan m := by
  simp [State.chan, State.putChan, mget_mset]

theorem State.subch_putSubch (s : State) (n m : Nat) (x : SubchSt) : (s.putSubch n x).subch m = if n = m then x else s.subch m := by
  simp [State.subch, State.putSubch, mget_mset]

theorem State.acq_putAcq (s : State) (n m : Nat) (x : AcqSt) : (s.putAcq n x).acq m = if n = m then x else s.acq m := by
  simp [State.acq, State.putAcq, mget_mset]

@[simp] theorem State.emit_out (s : State) (o : Output) : (s.emit o).out = s.out ++ [o] := rfl

@[simp] theorem State.answer_answers (s : State) (m : Message) : (s.answer m).answers = s.answers ++ [m] := rfl

@[simp] theorem State.withPending_pending (s : State) (q : List Instr) : (s.withPending q).pending = q := rfl

/-! ## Every other field is as it was -/

@[simp] theorem State.put_pending (s : State) (k : Nat) (v : Word) : (s.put k v).pending = s.pending := rfl
@[simp] theorem State.put_answers (s : State) (k : Nat) (v : Word) : (s.put k v).answers = s.answers := rfl
@[simp] theorem State.put_mailbox (s : State) (k : Nat) (v : Word) : (s.put k v).mailbox = s.mailbox := rfl
@[simp] theorem State.put_mailboxDone (s : State) (k : Nat) (v : Word) : (s.put k v).mailboxDone = s.mailboxDone := rfl
@[simp] theorem State.put_sessions (s : State) (k : Nat) (v : Word) : (s.put k v).sessions = s.sessions := rfl
@[simp] theorem State.put_latches (s : State) (k : Nat) (v : Word) : (s.put k v).latches = s.latches := rfl
@[simp] theorem State.put_hotJump (s : State) (k : Nat) (v : Word) : (s.put k v).hotJump = s.hotJump := rfl
@[simp] theorem State.put_pcieUp (s : State) (k : Nat) (v : Word) : (s.put k v).pcieUp = s.pcieUp := rfl
@[simp] theorem State.put_msixMasked (s : State) (k : Nat) (v : Word) : (s.put k v).msixMasked = s.msixMasked := rfl
@[simp] theorem State.put_msixPending (s : State) (k : Nat) (v : Word) : (s.put k v).msixPending = s.msixPending := rfl
@[simp] theorem State.put_dma (s : State) (k : Nat) (v : Word) : (s.put k v).dma = s.dma := rfl
@[simp] theorem State.put_threads (s : State) (k : Nat) (v : Word) : (s.put k v).threads = s.threads := rfl
@[simp] theorem State.put_caches (s : State) (k : Nat) (v : Word) : (s.put k v).caches = s.caches := rfl
@[simp] theorem State.put_tokens (s : State) (k : Nat) (v : Word) : (s.put k v).tokens = s.tokens := rfl
@[simp] theorem State.put_slices (s : State) (k : Nat) (v : Word) : (s.put k v).slices = s.slices := rfl
@[simp] theorem State.put_laneBase (s : State) (k : Nat) (v : Word) : (s.put k v).laneBase = s.laneBase := rfl
@[simp] theorem State.put_lanes (s : State) (k : Nat) (v : Word) : (s.put k v).lanes = s.lanes := rfl
@[simp] theorem State.put_cells (s : State) (k : Nat) (v : Word) : (s.put k v).cells = s.cells := rfl
@[simp] theorem State.put_poison (s : State) (k : Nat) (v : Word) : (s.put k v).poison = s.poison := rfl
@[simp] theorem State.put_waitingWrites (s : State) (k : Nat) (v : Word) : (s.put k v).waitingWrites = s.waitingWrites := rfl
@[simp] theorem State.put_checkedPages (s : State) (k : Nat) (v : Word) : (s.put k v).checkedPages = s.checkedPages := rfl
@[simp] theorem State.put_mapChanged (s : State) (k : Nat) (v : Word) : (s.put k v).mapChanged = s.mapChanged := rfl
@[simp] theorem State.put_subchs (s : State) (k : Nat) (v : Word) : (s.put k v).subchs = s.subchs := rfl
@[simp] theorem State.put_ring (s : State) (k : Nat) (v : Word) : (s.put k v).ring = s.ring := rfl
@[simp] theorem State.put_fernAligned (s : State) (k : Nat) (v : Word) : (s.put k v).fernAligned = s.fernAligned := rfl
@[simp] theorem State.put_frefPresent (s : State) (k : Nat) (v : Word) : (s.put k v).frefPresent = s.frefPresent := rfl
@[simp] theorem State.put_clockFreq (s : State) (k : Nat) (v : Word) : (s.put k v).clockFreq = s.clockFreq := rfl
@[simp] theorem State.put_clockGood (s : State) (k : Nat) (v : Word) : (s.put k v).clockGood = s.clockGood := rfl
@[simp] theorem State.put_ptmAuto (s : State) (k : Nat) (v : Word) : (s.put k v).ptmAuto = s.ptmAuto := rfl
@[simp] theorem State.put_slots (s : State) (k : Nat) (v : Word) : (s.put k v).slots = s.slots := rfl
@[simp] theorem State.put_tius (s : State) (k : Nat) (v : Word) : (s.put k v).tius = s.tius := rfl
@[simp] theorem State.put_adcLeft (s : State) (k : Nat) (v : Word) : (s.put k v).adcLeft = s.adcLeft := rfl
@[simp] theorem State.put_acqs (s : State) (k : Nat) (v : Word) : (s.put k v).acqs = s.acqs := rfl
@[simp] theorem State.put_trigoutActive (s : State) (k : Nat) (v : Word) : (s.put k v).trigoutActive = s.trigoutActive := rfl
@[simp] theorem State.put_loadEdges (s : State) (k : Nat) (v : Word) : (s.put k v).loadEdges = s.loadEdges := rfl
@[simp] theorem State.put_badgerQueue (s : State) (k : Nat) (v : Word) : (s.put k v).badgerQueue = s.badgerQueue := rfl
@[simp] theorem State.put_calRan (s : State) (k : Nat) (v : Word) : (s.put k v).calRan = s.calRan := rfl
@[simp] theorem State.put_routine (s : State) (k : Nat) (v : Word) : (s.put k v).routine = s.routine := rfl
@[simp] theorem State.put_watch (s : State) (k : Nat) (v : Word) : (s.put k v).watch = s.watch := rfl
@[simp] theorem State.put_histRead (s : State) (k : Nat) (v : Word) : (s.put k v).histRead = s.histRead := rfl
@[simp] theorem State.put_liveLocs (s : State) (k : Nat) (v : Word) : (s.put k v).liveLocs = s.liveLocs := rfl
@[simp] theorem State.put_recoveries (s : State) (k : Nat) (v : Word) : (s.put k v).recoveries = s.recoveries := rfl
@[simp] theorem State.put_injection (s : State) (k : Nat) (v : Word) : (s.put k v).injection = s.injection := rfl
@[simp] theorem State.put_faultWindow (s : State) (k : Nat) (v : Word) : (s.put k v).faultWindow = s.faultWindow := rfl
@[simp] theorem State.put_faultIrqHeld (s : State) (k : Nat) (v : Word) : (s.put k v).faultIrqHeld = s.faultIrqHeld := rfl
@[simp] theorem State.put_recordIrqHeld (s : State) (k : Nat) (v : Word) : (s.put k v).recordIrqHeld = s.recordIrqHeld := rfl
@[simp] theorem State.put_machineCheck (s : State) (k : Nat) (v : Word) : (s.put k v).machineCheck = s.machineCheck := rfl
@[simp] theorem State.put_wdogKick (s : State) (k : Nat) (v : Word) : (s.put k v).wdogKick = s.wdogKick := rfl
@[simp] theorem State.put_entering (s : State) (k : Nat) (v : Word) : (s.put k v).entering = s.entering := rfl
@[simp] theorem State.put_guardStaged (s : State) (k : Nat) (v : Word) : (s.put k v).guardStaged = s.guardStaged := rfl
@[simp] theorem State.put_nvm (s : State) (k : Nat) (v : Word) : (s.put k v).nvm = s.nvm := rfl
@[simp] theorem State.put_ledger (s : State) (k : Nat) (v : Word) : (s.put k v).ledger = s.ledger := rfl
@[simp] theorem State.put_bootSeconds (s : State) (k : Nat) (v : Word) : (s.put k v).bootSeconds = s.bootSeconds := rfl
@[simp] theorem State.put_retainMode (s : State) (k : Nat) (v : Word) : (s.put k v).retainMode = s.retainMode := rfl
@[simp] theorem State.put_retainBurst (s : State) (k : Nat) (v : Word) : (s.put k v).retainBurst = s.retainBurst := rfl
@[simp] theorem State.put_retained (s : State) (k : Nat) (v : Word) : (s.put k v).retained = s.retained := rfl
@[simp] theorem State.put_resetSeen (s : State) (k : Nat) (v : Word) : (s.put k v).resetSeen = s.resetSeen := rfl
@[simp] theorem State.put_resetRails (s : State) (k : Nat) (v : Word) : (s.put k v).resetRails = s.resetRails := rfl
@[simp] theorem State.put_resetPending (s : State) (k : Nat) (v : Word) : (s.put k v).resetPending = s.resetPending := rfl
@[simp] theorem State.put_burst (s : State) (k : Nat) (v : Word) : (s.put k v).burst = s.burst := rfl
@[simp] theorem State.put_diag (s : State) (k : Nat) (v : Word) : (s.put k v).diag = s.diag := rfl
@[simp] theorem State.put_diagBytes (s : State) (k : Nat) (v : Word) : (s.put k v).diagBytes = s.diagBytes := rfl
@[simp] theorem State.put_fwSlotImage (s : State) (k : Nat) (v : Word) : (s.put k v).fwSlotImage = s.fwSlotImage := rfl
@[simp] theorem State.put_flagsPast (s : State) (k : Nat) (v : Word) : (s.put k v).flagsPast = s.flagsPast := rfl
@[simp] theorem State.put_lanePast (s : State) (k : Nat) (v : Word) : (s.put k v).lanePast = s.lanePast := rfl
@[simp] theorem State.put_guardHits (s : State) (k : Nat) (v : Word) : (s.put k v).guardHits = s.guardHits := rfl
@[simp] theorem State.put_scrubNext (s : State) (k : Nat) (v : Word) : (s.put k v).scrubNext = s.scrubNext := rfl
@[simp] theorem State.put_scrubGain (s : State) (k : Nat) (v : Word) : (s.put k v).scrubGain = s.scrubGain := rfl
@[simp] theorem State.put_fernAwait (s : State) (k : Nat) (v : Word) : (s.put k v).fernAwait = s.fernAwait := rfl
@[simp] theorem State.put_ptp (s : State) (k : Nat) (v : Word) : (s.put k v).ptp = s.ptp := rfl
@[simp] theorem State.put_trigoutHighZ (s : State) (k : Nat) (v : Word) : (s.put k v).trigoutHighZ = s.trigoutHighZ := rfl
@[simp] theorem State.put_triginHigh (s : State) (k : Nat) (v : Word) : (s.put k v).triginHigh = s.triginHigh := rfl
@[simp] theorem State.put_tap (s : State) (k : Nat) (v : Word) : (s.put k v).tap = s.tap := rfl
@[simp] theorem State.put_dieTemp (s : State) (k : Nat) (v : Word) : (s.put k v).dieTemp = s.dieTemp := rfl
@[simp] theorem State.put_authTimes (s : State) (k : Nat) (v : Word) : (s.put k v).authTimes = s.authTimes := rfl
@[simp] theorem State.put_loadsDue (s : State) (k : Nat) (v : Word) : (s.put k v).loadsDue = s.loadsDue := rfl
@[simp] theorem State.put_freeCount (s : State) (k : Nat) (v : Word) : (s.put k v).freeCount = s.freeCount := rfl
@[simp] theorem State.put_out (s : State) (k : Nat) (v : Word) : (s.put k v).out = s.out := rfl
@[simp] theorem State.put_thread (s : State) (k : Nat) (v : Word) (j : Nat) : (s.put k v).thread j = s.thread j := rfl
@[simp] theorem State.put_slice (s : State) (k : Nat) (v : Word) (j : Nat) : (s.put k v).slice j = s.slice j := rfl

@[simp] theorem State.putThread_pending (s : State) (n : Nat) (x : Thread) : (s.putThread n x).pending = s.pending := rfl
@[simp] theorem State.putThread_objs (s : State) (n : Nat) (x : Thread) : (s.putThread n x).objs = s.objs := rfl
@[simp] theorem State.putThread_answers (s : State) (n : Nat) (x : Thread) : (s.putThread n x).answers = s.answers := rfl
@[simp] theorem State.putThread_mailbox (s : State) (n : Nat) (x : Thread) : (s.putThread n x).mailbox = s.mailbox := rfl
@[simp] theorem State.putThread_mailboxDone (s : State) (n : Nat) (x : Thread) : (s.putThread n x).mailboxDone = s.mailboxDone := rfl
@[simp] theorem State.putThread_sessions (s : State) (n : Nat) (x : Thread) : (s.putThread n x).sessions = s.sessions := rfl
@[simp] theorem State.putThread_subs (s : State) (n : Nat) (x : Thread) : (s.putThread n x).subs = s.subs := rfl
@[simp] theorem State.putThread_latches (s : State) (n : Nat) (x : Thread) : (s.putThread n x).latches = s.latches := rfl
@[simp] theorem State.putThread_hotJump (s : State) (n : Nat) (x : Thread) : (s.putThread n x).hotJump = s.hotJump := rfl
@[simp] theorem State.putThread_pcieUp (s : State) (n : Nat) (x : Thread) : (s.putThread n x).pcieUp = s.pcieUp := rfl
@[simp] theorem State.putThread_msixMasked (s : State) (n : Nat) (x : Thread) : (s.putThread n x).msixMasked = s.msixMasked := rfl
@[simp] theorem State.putThread_msixPending (s : State) (n : Nat) (x : Thread) : (s.putThread n x).msixPending = s.msixPending := rfl
@[simp] theorem State.putThread_dma (s : State) (n : Nat) (x : Thread) : (s.putThread n x).dma = s.dma := rfl
@[simp] theorem State.putThread_caches (s : State) (n : Nat) (x : Thread) : (s.putThread n x).caches = s.caches := rfl
@[simp] theorem State.putThread_tokens (s : State) (n : Nat) (x : Thread) : (s.putThread n x).tokens = s.tokens := rfl
@[simp] theorem State.putThread_slices (s : State) (n : Nat) (x : Thread) : (s.putThread n x).slices = s.slices := rfl
@[simp] theorem State.putThread_laneBase (s : State) (n : Nat) (x : Thread) : (s.putThread n x).laneBase = s.laneBase := rfl
@[simp] theorem State.putThread_lanes (s : State) (n : Nat) (x : Thread) : (s.putThread n x).lanes = s.lanes := rfl
@[simp] theorem State.putThread_cells (s : State) (n : Nat) (x : Thread) : (s.putThread n x).cells = s.cells := rfl
@[simp] theorem State.putThread_poison (s : State) (n : Nat) (x : Thread) : (s.putThread n x).poison = s.poison := rfl
@[simp] theorem State.putThread_waitingWrites (s : State) (n : Nat) (x : Thread) : (s.putThread n x).waitingWrites = s.waitingWrites := rfl
@[simp] theorem State.putThread_checkedPages (s : State) (n : Nat) (x : Thread) : (s.putThread n x).checkedPages = s.checkedPages := rfl
@[simp] theorem State.putThread_mapChanged (s : State) (n : Nat) (x : Thread) : (s.putThread n x).mapChanged = s.mapChanged := rfl
@[simp] theorem State.putThread_subchs (s : State) (n : Nat) (x : Thread) : (s.putThread n x).subchs = s.subchs := rfl
@[simp] theorem State.putThread_ring (s : State) (n : Nat) (x : Thread) : (s.putThread n x).ring = s.ring := rfl
@[simp] theorem State.putThread_fernAligned (s : State) (n : Nat) (x : Thread) : (s.putThread n x).fernAligned = s.fernAligned := rfl
@[simp] theorem State.putThread_frefPresent (s : State) (n : Nat) (x : Thread) : (s.putThread n x).frefPresent = s.frefPresent := rfl
@[simp] theorem State.putThread_clockFreq (s : State) (n : Nat) (x : Thread) : (s.putThread n x).clockFreq = s.clockFreq := rfl
@[simp] theorem State.putThread_clockGood (s : State) (n : Nat) (x : Thread) : (s.putThread n x).clockGood = s.clockGood := rfl
@[simp] theorem State.putThread_ptmAuto (s : State) (n : Nat) (x : Thread) : (s.putThread n x).ptmAuto = s.ptmAuto := rfl
@[simp] theorem State.putThread_slots (s : State) (n : Nat) (x : Thread) : (s.putThread n x).slots = s.slots := rfl
@[simp] theorem State.putThread_tius (s : State) (n : Nat) (x : Thread) : (s.putThread n x).tius = s.tius := rfl
@[simp] theorem State.putThread_adcLeft (s : State) (n : Nat) (x : Thread) : (s.putThread n x).adcLeft = s.adcLeft := rfl
@[simp] theorem State.putThread_acqs (s : State) (n : Nat) (x : Thread) : (s.putThread n x).acqs = s.acqs := rfl
@[simp] theorem State.putThread_trigoutActive (s : State) (n : Nat) (x : Thread) : (s.putThread n x).trigoutActive = s.trigoutActive := rfl
@[simp] theorem State.putThread_loadEdges (s : State) (n : Nat) (x : Thread) : (s.putThread n x).loadEdges = s.loadEdges := rfl
@[simp] theorem State.putThread_badgerQueue (s : State) (n : Nat) (x : Thread) : (s.putThread n x).badgerQueue = s.badgerQueue := rfl
@[simp] theorem State.putThread_calRan (s : State) (n : Nat) (x : Thread) : (s.putThread n x).calRan = s.calRan := rfl
@[simp] theorem State.putThread_routine (s : State) (n : Nat) (x : Thread) : (s.putThread n x).routine = s.routine := rfl
@[simp] theorem State.putThread_watch (s : State) (n : Nat) (x : Thread) : (s.putThread n x).watch = s.watch := rfl
@[simp] theorem State.putThread_histRead (s : State) (n : Nat) (x : Thread) : (s.putThread n x).histRead = s.histRead := rfl
@[simp] theorem State.putThread_liveLocs (s : State) (n : Nat) (x : Thread) : (s.putThread n x).liveLocs = s.liveLocs := rfl
@[simp] theorem State.putThread_recoveries (s : State) (n : Nat) (x : Thread) : (s.putThread n x).recoveries = s.recoveries := rfl
@[simp] theorem State.putThread_injection (s : State) (n : Nat) (x : Thread) : (s.putThread n x).injection = s.injection := rfl
@[simp] theorem State.putThread_faultWindow (s : State) (n : Nat) (x : Thread) : (s.putThread n x).faultWindow = s.faultWindow := rfl
@[simp] theorem State.putThread_faultIrqHeld (s : State) (n : Nat) (x : Thread) : (s.putThread n x).faultIrqHeld = s.faultIrqHeld := rfl
@[simp] theorem State.putThread_recordIrqHeld (s : State) (n : Nat) (x : Thread) : (s.putThread n x).recordIrqHeld = s.recordIrqHeld := rfl
@[simp] theorem State.putThread_machineCheck (s : State) (n : Nat) (x : Thread) : (s.putThread n x).machineCheck = s.machineCheck := rfl
@[simp] theorem State.putThread_wdogKick (s : State) (n : Nat) (x : Thread) : (s.putThread n x).wdogKick = s.wdogKick := rfl
@[simp] theorem State.putThread_entering (s : State) (n : Nat) (x : Thread) : (s.putThread n x).entering = s.entering := rfl
@[simp] theorem State.putThread_guardStaged (s : State) (n : Nat) (x : Thread) : (s.putThread n x).guardStaged = s.guardStaged := rfl
@[simp] theorem State.putThread_nvm (s : State) (n : Nat) (x : Thread) : (s.putThread n x).nvm = s.nvm := rfl
@[simp] theorem State.putThread_ledger (s : State) (n : Nat) (x : Thread) : (s.putThread n x).ledger = s.ledger := rfl
@[simp] theorem State.putThread_bootSeconds (s : State) (n : Nat) (x : Thread) : (s.putThread n x).bootSeconds = s.bootSeconds := rfl
@[simp] theorem State.putThread_retainMode (s : State) (n : Nat) (x : Thread) : (s.putThread n x).retainMode = s.retainMode := rfl
@[simp] theorem State.putThread_retainBurst (s : State) (n : Nat) (x : Thread) : (s.putThread n x).retainBurst = s.retainBurst := rfl
@[simp] theorem State.putThread_retained (s : State) (n : Nat) (x : Thread) : (s.putThread n x).retained = s.retained := rfl
@[simp] theorem State.putThread_resetSeen (s : State) (n : Nat) (x : Thread) : (s.putThread n x).resetSeen = s.resetSeen := rfl
@[simp] theorem State.putThread_resetRails (s : State) (n : Nat) (x : Thread) : (s.putThread n x).resetRails = s.resetRails := rfl
@[simp] theorem State.putThread_resetPending (s : State) (n : Nat) (x : Thread) : (s.putThread n x).resetPending = s.resetPending := rfl
@[simp] theorem State.putThread_burst (s : State) (n : Nat) (x : Thread) : (s.putThread n x).burst = s.burst := rfl
@[simp] theorem State.putThread_diag (s : State) (n : Nat) (x : Thread) : (s.putThread n x).diag = s.diag := rfl
@[simp] theorem State.putThread_diagBytes (s : State) (n : Nat) (x : Thread) : (s.putThread n x).diagBytes = s.diagBytes := rfl
@[simp] theorem State.putThread_fwSlotImage (s : State) (n : Nat) (x : Thread) : (s.putThread n x).fwSlotImage = s.fwSlotImage := rfl
@[simp] theorem State.putThread_flagsPast (s : State) (n : Nat) (x : Thread) : (s.putThread n x).flagsPast = s.flagsPast := rfl
@[simp] theorem State.putThread_lanePast (s : State) (n : Nat) (x : Thread) : (s.putThread n x).lanePast = s.lanePast := rfl
@[simp] theorem State.putThread_guardHits (s : State) (n : Nat) (x : Thread) : (s.putThread n x).guardHits = s.guardHits := rfl
@[simp] theorem State.putThread_scrubNext (s : State) (n : Nat) (x : Thread) : (s.putThread n x).scrubNext = s.scrubNext := rfl
@[simp] theorem State.putThread_scrubGain (s : State) (n : Nat) (x : Thread) : (s.putThread n x).scrubGain = s.scrubGain := rfl
@[simp] theorem State.putThread_fernAwait (s : State) (n : Nat) (x : Thread) : (s.putThread n x).fernAwait = s.fernAwait := rfl
@[simp] theorem State.putThread_ptp (s : State) (n : Nat) (x : Thread) : (s.putThread n x).ptp = s.ptp := rfl
@[simp] theorem State.putThread_trigoutHighZ (s : State) (n : Nat) (x : Thread) : (s.putThread n x).trigoutHighZ = s.trigoutHighZ := rfl
@[simp] theorem State.putThread_triginHigh (s : State) (n : Nat) (x : Thread) : (s.putThread n x).triginHigh = s.triginHigh := rfl
@[simp] theorem State.putThread_tap (s : State) (n : Nat) (x : Thread) : (s.putThread n x).tap = s.tap := rfl
@[simp] theorem State.putThread_dieTemp (s : State) (n : Nat) (x : Thread) : (s.putThread n x).dieTemp = s.dieTemp := rfl
@[simp] theorem State.putThread_authTimes (s : State) (n : Nat) (x : Thread) : (s.putThread n x).authTimes = s.authTimes := rfl
@[simp] theorem State.putThread_loadsDue (s : State) (n : Nat) (x : Thread) : (s.putThread n x).loadsDue = s.loadsDue := rfl
@[simp] theorem State.putThread_freeCount (s : State) (n : Nat) (x : Thread) : (s.putThread n x).freeCount = s.freeCount := rfl
@[simp] theorem State.putThread_out (s : State) (n : Nat) (x : Thread) : (s.putThread n x).out = s.out := rfl
@[simp] theorem State.putThread_get (s : State) (n : Nat) (x : Thread) (j : Nat) : (s.putThread n x).get j = s.get j := rfl
@[simp] theorem State.putThread_slice (s : State) (n : Nat) (x : Thread) (j : Nat) : (s.putThread n x).slice j = s.slice j := rfl

@[simp] theorem State.putSlice_pending (s : State) (n : Nat) (x : SliceSt) : (s.putSlice n x).pending = s.pending := rfl
@[simp] theorem State.putSlice_objs (s : State) (n : Nat) (x : SliceSt) : (s.putSlice n x).objs = s.objs := rfl
@[simp] theorem State.putSlice_answers (s : State) (n : Nat) (x : SliceSt) : (s.putSlice n x).answers = s.answers := rfl
@[simp] theorem State.putSlice_mailbox (s : State) (n : Nat) (x : SliceSt) : (s.putSlice n x).mailbox = s.mailbox := rfl
@[simp] theorem State.putSlice_mailboxDone (s : State) (n : Nat) (x : SliceSt) : (s.putSlice n x).mailboxDone = s.mailboxDone := rfl
@[simp] theorem State.putSlice_sessions (s : State) (n : Nat) (x : SliceSt) : (s.putSlice n x).sessions = s.sessions := rfl
@[simp] theorem State.putSlice_subs (s : State) (n : Nat) (x : SliceSt) : (s.putSlice n x).subs = s.subs := rfl
@[simp] theorem State.putSlice_latches (s : State) (n : Nat) (x : SliceSt) : (s.putSlice n x).latches = s.latches := rfl
@[simp] theorem State.putSlice_hotJump (s : State) (n : Nat) (x : SliceSt) : (s.putSlice n x).hotJump = s.hotJump := rfl
@[simp] theorem State.putSlice_pcieUp (s : State) (n : Nat) (x : SliceSt) : (s.putSlice n x).pcieUp = s.pcieUp := rfl
@[simp] theorem State.putSlice_msixMasked (s : State) (n : Nat) (x : SliceSt) : (s.putSlice n x).msixMasked = s.msixMasked := rfl
@[simp] theorem State.putSlice_msixPending (s : State) (n : Nat) (x : SliceSt) : (s.putSlice n x).msixPending = s.msixPending := rfl
@[simp] theorem State.putSlice_dma (s : State) (n : Nat) (x : SliceSt) : (s.putSlice n x).dma = s.dma := rfl
@[simp] theorem State.putSlice_threads (s : State) (n : Nat) (x : SliceSt) : (s.putSlice n x).threads = s.threads := rfl
@[simp] theorem State.putSlice_caches (s : State) (n : Nat) (x : SliceSt) : (s.putSlice n x).caches = s.caches := rfl
@[simp] theorem State.putSlice_tokens (s : State) (n : Nat) (x : SliceSt) : (s.putSlice n x).tokens = s.tokens := rfl
@[simp] theorem State.putSlice_laneBase (s : State) (n : Nat) (x : SliceSt) : (s.putSlice n x).laneBase = s.laneBase := rfl
@[simp] theorem State.putSlice_lanes (s : State) (n : Nat) (x : SliceSt) : (s.putSlice n x).lanes = s.lanes := rfl
@[simp] theorem State.putSlice_cells (s : State) (n : Nat) (x : SliceSt) : (s.putSlice n x).cells = s.cells := rfl
@[simp] theorem State.putSlice_poison (s : State) (n : Nat) (x : SliceSt) : (s.putSlice n x).poison = s.poison := rfl
@[simp] theorem State.putSlice_waitingWrites (s : State) (n : Nat) (x : SliceSt) : (s.putSlice n x).waitingWrites = s.waitingWrites := rfl
@[simp] theorem State.putSlice_checkedPages (s : State) (n : Nat) (x : SliceSt) : (s.putSlice n x).checkedPages = s.checkedPages := rfl
@[simp] theorem State.putSlice_mapChanged (s : State) (n : Nat) (x : SliceSt) : (s.putSlice n x).mapChanged = s.mapChanged := rfl
@[simp] theorem State.putSlice_subchs (s : State) (n : Nat) (x : SliceSt) : (s.putSlice n x).subchs = s.subchs := rfl
@[simp] theorem State.putSlice_ring (s : State) (n : Nat) (x : SliceSt) : (s.putSlice n x).ring = s.ring := rfl
@[simp] theorem State.putSlice_fernAligned (s : State) (n : Nat) (x : SliceSt) : (s.putSlice n x).fernAligned = s.fernAligned := rfl
@[simp] theorem State.putSlice_frefPresent (s : State) (n : Nat) (x : SliceSt) : (s.putSlice n x).frefPresent = s.frefPresent := rfl
@[simp] theorem State.putSlice_clockFreq (s : State) (n : Nat) (x : SliceSt) : (s.putSlice n x).clockFreq = s.clockFreq := rfl
@[simp] theorem State.putSlice_clockGood (s : State) (n : Nat) (x : SliceSt) : (s.putSlice n x).clockGood = s.clockGood := rfl
@[simp] theorem State.putSlice_ptmAuto (s : State) (n : Nat) (x : SliceSt) : (s.putSlice n x).ptmAuto = s.ptmAuto := rfl
@[simp] theorem State.putSlice_slots (s : State) (n : Nat) (x : SliceSt) : (s.putSlice n x).slots = s.slots := rfl
@[simp] theorem State.putSlice_tius (s : State) (n : Nat) (x : SliceSt) : (s.putSlice n x).tius = s.tius := rfl
@[simp] theorem State.putSlice_adcLeft (s : State) (n : Nat) (x : SliceSt) : (s.putSlice n x).adcLeft = s.adcLeft := rfl
@[simp] theorem State.putSlice_acqs (s : State) (n : Nat) (x : SliceSt) : (s.putSlice n x).acqs = s.acqs := rfl
@[simp] theorem State.putSlice_trigoutActive (s : State) (n : Nat) (x : SliceSt) : (s.putSlice n x).trigoutActive = s.trigoutActive := rfl
@[simp] theorem State.putSlice_loadEdges (s : State) (n : Nat) (x : SliceSt) : (s.putSlice n x).loadEdges = s.loadEdges := rfl
@[simp] theorem State.putSlice_badgerQueue (s : State) (n : Nat) (x : SliceSt) : (s.putSlice n x).badgerQueue = s.badgerQueue := rfl
@[simp] theorem State.putSlice_calRan (s : State) (n : Nat) (x : SliceSt) : (s.putSlice n x).calRan = s.calRan := rfl
@[simp] theorem State.putSlice_routine (s : State) (n : Nat) (x : SliceSt) : (s.putSlice n x).routine = s.routine := rfl
@[simp] theorem State.putSlice_watch (s : State) (n : Nat) (x : SliceSt) : (s.putSlice n x).watch = s.watch := rfl
@[simp] theorem State.putSlice_histRead (s : State) (n : Nat) (x : SliceSt) : (s.putSlice n x).histRead = s.histRead := rfl
@[simp] theorem State.putSlice_liveLocs (s : State) (n : Nat) (x : SliceSt) : (s.putSlice n x).liveLocs = s.liveLocs := rfl
@[simp] theorem State.putSlice_recoveries (s : State) (n : Nat) (x : SliceSt) : (s.putSlice n x).recoveries = s.recoveries := rfl
@[simp] theorem State.putSlice_injection (s : State) (n : Nat) (x : SliceSt) : (s.putSlice n x).injection = s.injection := rfl
@[simp] theorem State.putSlice_faultWindow (s : State) (n : Nat) (x : SliceSt) : (s.putSlice n x).faultWindow = s.faultWindow := rfl
@[simp] theorem State.putSlice_faultIrqHeld (s : State) (n : Nat) (x : SliceSt) : (s.putSlice n x).faultIrqHeld = s.faultIrqHeld := rfl
@[simp] theorem State.putSlice_recordIrqHeld (s : State) (n : Nat) (x : SliceSt) : (s.putSlice n x).recordIrqHeld = s.recordIrqHeld := rfl
@[simp] theorem State.putSlice_machineCheck (s : State) (n : Nat) (x : SliceSt) : (s.putSlice n x).machineCheck = s.machineCheck := rfl
@[simp] theorem State.putSlice_wdogKick (s : State) (n : Nat) (x : SliceSt) : (s.putSlice n x).wdogKick = s.wdogKick := rfl
@[simp] theorem State.putSlice_entering (s : State) (n : Nat) (x : SliceSt) : (s.putSlice n x).entering = s.entering := rfl
@[simp] theorem State.putSlice_guardStaged (s : State) (n : Nat) (x : SliceSt) : (s.putSlice n x).guardStaged = s.guardStaged := rfl
@[simp] theorem State.putSlice_nvm (s : State) (n : Nat) (x : SliceSt) : (s.putSlice n x).nvm = s.nvm := rfl
@[simp] theorem State.putSlice_ledger (s : State) (n : Nat) (x : SliceSt) : (s.putSlice n x).ledger = s.ledger := rfl
@[simp] theorem State.putSlice_bootSeconds (s : State) (n : Nat) (x : SliceSt) : (s.putSlice n x).bootSeconds = s.bootSeconds := rfl
@[simp] theorem State.putSlice_retainMode (s : State) (n : Nat) (x : SliceSt) : (s.putSlice n x).retainMode = s.retainMode := rfl
@[simp] theorem State.putSlice_retainBurst (s : State) (n : Nat) (x : SliceSt) : (s.putSlice n x).retainBurst = s.retainBurst := rfl
@[simp] theorem State.putSlice_retained (s : State) (n : Nat) (x : SliceSt) : (s.putSlice n x).retained = s.retained := rfl
@[simp] theorem State.putSlice_resetSeen (s : State) (n : Nat) (x : SliceSt) : (s.putSlice n x).resetSeen = s.resetSeen := rfl
@[simp] theorem State.putSlice_resetRails (s : State) (n : Nat) (x : SliceSt) : (s.putSlice n x).resetRails = s.resetRails := rfl
@[simp] theorem State.putSlice_resetPending (s : State) (n : Nat) (x : SliceSt) : (s.putSlice n x).resetPending = s.resetPending := rfl
@[simp] theorem State.putSlice_burst (s : State) (n : Nat) (x : SliceSt) : (s.putSlice n x).burst = s.burst := rfl
@[simp] theorem State.putSlice_diag (s : State) (n : Nat) (x : SliceSt) : (s.putSlice n x).diag = s.diag := rfl
@[simp] theorem State.putSlice_diagBytes (s : State) (n : Nat) (x : SliceSt) : (s.putSlice n x).diagBytes = s.diagBytes := rfl
@[simp] theorem State.putSlice_fwSlotImage (s : State) (n : Nat) (x : SliceSt) : (s.putSlice n x).fwSlotImage = s.fwSlotImage := rfl
@[simp] theorem State.putSlice_flagsPast (s : State) (n : Nat) (x : SliceSt) : (s.putSlice n x).flagsPast = s.flagsPast := rfl
@[simp] theorem State.putSlice_lanePast (s : State) (n : Nat) (x : SliceSt) : (s.putSlice n x).lanePast = s.lanePast := rfl
@[simp] theorem State.putSlice_guardHits (s : State) (n : Nat) (x : SliceSt) : (s.putSlice n x).guardHits = s.guardHits := rfl
@[simp] theorem State.putSlice_scrubNext (s : State) (n : Nat) (x : SliceSt) : (s.putSlice n x).scrubNext = s.scrubNext := rfl
@[simp] theorem State.putSlice_scrubGain (s : State) (n : Nat) (x : SliceSt) : (s.putSlice n x).scrubGain = s.scrubGain := rfl
@[simp] theorem State.putSlice_fernAwait (s : State) (n : Nat) (x : SliceSt) : (s.putSlice n x).fernAwait = s.fernAwait := rfl
@[simp] theorem State.putSlice_ptp (s : State) (n : Nat) (x : SliceSt) : (s.putSlice n x).ptp = s.ptp := rfl
@[simp] theorem State.putSlice_trigoutHighZ (s : State) (n : Nat) (x : SliceSt) : (s.putSlice n x).trigoutHighZ = s.trigoutHighZ := rfl
@[simp] theorem State.putSlice_triginHigh (s : State) (n : Nat) (x : SliceSt) : (s.putSlice n x).triginHigh = s.triginHigh := rfl
@[simp] theorem State.putSlice_tap (s : State) (n : Nat) (x : SliceSt) : (s.putSlice n x).tap = s.tap := rfl
@[simp] theorem State.putSlice_dieTemp (s : State) (n : Nat) (x : SliceSt) : (s.putSlice n x).dieTemp = s.dieTemp := rfl
@[simp] theorem State.putSlice_authTimes (s : State) (n : Nat) (x : SliceSt) : (s.putSlice n x).authTimes = s.authTimes := rfl
@[simp] theorem State.putSlice_loadsDue (s : State) (n : Nat) (x : SliceSt) : (s.putSlice n x).loadsDue = s.loadsDue := rfl
@[simp] theorem State.putSlice_freeCount (s : State) (n : Nat) (x : SliceSt) : (s.putSlice n x).freeCount = s.freeCount := rfl
@[simp] theorem State.putSlice_out (s : State) (n : Nat) (x : SliceSt) : (s.putSlice n x).out = s.out := rfl
@[simp] theorem State.putSlice_get (s : State) (n : Nat) (x : SliceSt) (j : Nat) : (s.putSlice n x).get j = s.get j := rfl
@[simp] theorem State.putSlice_thread (s : State) (n : Nat) (x : SliceSt) (j : Nat) : (s.putSlice n x).thread j = s.thread j := rfl

@[simp] theorem State.putChan_pending (s : State) (n : Nat) (x : DmaChan) : (s.putChan n x).pending = s.pending := rfl
@[simp] theorem State.putChan_objs (s : State) (n : Nat) (x : DmaChan) : (s.putChan n x).objs = s.objs := rfl
@[simp] theorem State.putChan_answers (s : State) (n : Nat) (x : DmaChan) : (s.putChan n x).answers = s.answers := rfl
@[simp] theorem State.putChan_mailbox (s : State) (n : Nat) (x : DmaChan) : (s.putChan n x).mailbox = s.mailbox := rfl
@[simp] theorem State.putChan_mailboxDone (s : State) (n : Nat) (x : DmaChan) : (s.putChan n x).mailboxDone = s.mailboxDone := rfl
@[simp] theorem State.putChan_sessions (s : State) (n : Nat) (x : DmaChan) : (s.putChan n x).sessions = s.sessions := rfl
@[simp] theorem State.putChan_subs (s : State) (n : Nat) (x : DmaChan) : (s.putChan n x).subs = s.subs := rfl
@[simp] theorem State.putChan_latches (s : State) (n : Nat) (x : DmaChan) : (s.putChan n x).latches = s.latches := rfl
@[simp] theorem State.putChan_hotJump (s : State) (n : Nat) (x : DmaChan) : (s.putChan n x).hotJump = s.hotJump := rfl
@[simp] theorem State.putChan_pcieUp (s : State) (n : Nat) (x : DmaChan) : (s.putChan n x).pcieUp = s.pcieUp := rfl
@[simp] theorem State.putChan_msixMasked (s : State) (n : Nat) (x : DmaChan) : (s.putChan n x).msixMasked = s.msixMasked := rfl
@[simp] theorem State.putChan_msixPending (s : State) (n : Nat) (x : DmaChan) : (s.putChan n x).msixPending = s.msixPending := rfl
@[simp] theorem State.putChan_threads (s : State) (n : Nat) (x : DmaChan) : (s.putChan n x).threads = s.threads := rfl
@[simp] theorem State.putChan_caches (s : State) (n : Nat) (x : DmaChan) : (s.putChan n x).caches = s.caches := rfl
@[simp] theorem State.putChan_tokens (s : State) (n : Nat) (x : DmaChan) : (s.putChan n x).tokens = s.tokens := rfl
@[simp] theorem State.putChan_slices (s : State) (n : Nat) (x : DmaChan) : (s.putChan n x).slices = s.slices := rfl
@[simp] theorem State.putChan_laneBase (s : State) (n : Nat) (x : DmaChan) : (s.putChan n x).laneBase = s.laneBase := rfl
@[simp] theorem State.putChan_lanes (s : State) (n : Nat) (x : DmaChan) : (s.putChan n x).lanes = s.lanes := rfl
@[simp] theorem State.putChan_cells (s : State) (n : Nat) (x : DmaChan) : (s.putChan n x).cells = s.cells := rfl
@[simp] theorem State.putChan_poison (s : State) (n : Nat) (x : DmaChan) : (s.putChan n x).poison = s.poison := rfl
@[simp] theorem State.putChan_waitingWrites (s : State) (n : Nat) (x : DmaChan) : (s.putChan n x).waitingWrites = s.waitingWrites := rfl
@[simp] theorem State.putChan_checkedPages (s : State) (n : Nat) (x : DmaChan) : (s.putChan n x).checkedPages = s.checkedPages := rfl
@[simp] theorem State.putChan_mapChanged (s : State) (n : Nat) (x : DmaChan) : (s.putChan n x).mapChanged = s.mapChanged := rfl
@[simp] theorem State.putChan_subchs (s : State) (n : Nat) (x : DmaChan) : (s.putChan n x).subchs = s.subchs := rfl
@[simp] theorem State.putChan_ring (s : State) (n : Nat) (x : DmaChan) : (s.putChan n x).ring = s.ring := rfl
@[simp] theorem State.putChan_fernAligned (s : State) (n : Nat) (x : DmaChan) : (s.putChan n x).fernAligned = s.fernAligned := rfl
@[simp] theorem State.putChan_frefPresent (s : State) (n : Nat) (x : DmaChan) : (s.putChan n x).frefPresent = s.frefPresent := rfl
@[simp] theorem State.putChan_clockFreq (s : State) (n : Nat) (x : DmaChan) : (s.putChan n x).clockFreq = s.clockFreq := rfl
@[simp] theorem State.putChan_clockGood (s : State) (n : Nat) (x : DmaChan) : (s.putChan n x).clockGood = s.clockGood := rfl
@[simp] theorem State.putChan_ptmAuto (s : State) (n : Nat) (x : DmaChan) : (s.putChan n x).ptmAuto = s.ptmAuto := rfl
@[simp] theorem State.putChan_slots (s : State) (n : Nat) (x : DmaChan) : (s.putChan n x).slots = s.slots := rfl
@[simp] theorem State.putChan_tius (s : State) (n : Nat) (x : DmaChan) : (s.putChan n x).tius = s.tius := rfl
@[simp] theorem State.putChan_adcLeft (s : State) (n : Nat) (x : DmaChan) : (s.putChan n x).adcLeft = s.adcLeft := rfl
@[simp] theorem State.putChan_acqs (s : State) (n : Nat) (x : DmaChan) : (s.putChan n x).acqs = s.acqs := rfl
@[simp] theorem State.putChan_trigoutActive (s : State) (n : Nat) (x : DmaChan) : (s.putChan n x).trigoutActive = s.trigoutActive := rfl
@[simp] theorem State.putChan_loadEdges (s : State) (n : Nat) (x : DmaChan) : (s.putChan n x).loadEdges = s.loadEdges := rfl
@[simp] theorem State.putChan_badgerQueue (s : State) (n : Nat) (x : DmaChan) : (s.putChan n x).badgerQueue = s.badgerQueue := rfl
@[simp] theorem State.putChan_calRan (s : State) (n : Nat) (x : DmaChan) : (s.putChan n x).calRan = s.calRan := rfl
@[simp] theorem State.putChan_routine (s : State) (n : Nat) (x : DmaChan) : (s.putChan n x).routine = s.routine := rfl
@[simp] theorem State.putChan_watch (s : State) (n : Nat) (x : DmaChan) : (s.putChan n x).watch = s.watch := rfl
@[simp] theorem State.putChan_histRead (s : State) (n : Nat) (x : DmaChan) : (s.putChan n x).histRead = s.histRead := rfl
@[simp] theorem State.putChan_liveLocs (s : State) (n : Nat) (x : DmaChan) : (s.putChan n x).liveLocs = s.liveLocs := rfl
@[simp] theorem State.putChan_recoveries (s : State) (n : Nat) (x : DmaChan) : (s.putChan n x).recoveries = s.recoveries := rfl
@[simp] theorem State.putChan_injection (s : State) (n : Nat) (x : DmaChan) : (s.putChan n x).injection = s.injection := rfl
@[simp] theorem State.putChan_faultWindow (s : State) (n : Nat) (x : DmaChan) : (s.putChan n x).faultWindow = s.faultWindow := rfl
@[simp] theorem State.putChan_faultIrqHeld (s : State) (n : Nat) (x : DmaChan) : (s.putChan n x).faultIrqHeld = s.faultIrqHeld := rfl
@[simp] theorem State.putChan_recordIrqHeld (s : State) (n : Nat) (x : DmaChan) : (s.putChan n x).recordIrqHeld = s.recordIrqHeld := rfl
@[simp] theorem State.putChan_machineCheck (s : State) (n : Nat) (x : DmaChan) : (s.putChan n x).machineCheck = s.machineCheck := rfl
@[simp] theorem State.putChan_wdogKick (s : State) (n : Nat) (x : DmaChan) : (s.putChan n x).wdogKick = s.wdogKick := rfl
@[simp] theorem State.putChan_entering (s : State) (n : Nat) (x : DmaChan) : (s.putChan n x).entering = s.entering := rfl
@[simp] theorem State.putChan_guardStaged (s : State) (n : Nat) (x : DmaChan) : (s.putChan n x).guardStaged = s.guardStaged := rfl
@[simp] theorem State.putChan_nvm (s : State) (n : Nat) (x : DmaChan) : (s.putChan n x).nvm = s.nvm := rfl
@[simp] theorem State.putChan_ledger (s : State) (n : Nat) (x : DmaChan) : (s.putChan n x).ledger = s.ledger := rfl
@[simp] theorem State.putChan_bootSeconds (s : State) (n : Nat) (x : DmaChan) : (s.putChan n x).bootSeconds = s.bootSeconds := rfl
@[simp] theorem State.putChan_retainMode (s : State) (n : Nat) (x : DmaChan) : (s.putChan n x).retainMode = s.retainMode := rfl
@[simp] theorem State.putChan_retainBurst (s : State) (n : Nat) (x : DmaChan) : (s.putChan n x).retainBurst = s.retainBurst := rfl
@[simp] theorem State.putChan_retained (s : State) (n : Nat) (x : DmaChan) : (s.putChan n x).retained = s.retained := rfl
@[simp] theorem State.putChan_resetSeen (s : State) (n : Nat) (x : DmaChan) : (s.putChan n x).resetSeen = s.resetSeen := rfl
@[simp] theorem State.putChan_resetRails (s : State) (n : Nat) (x : DmaChan) : (s.putChan n x).resetRails = s.resetRails := rfl
@[simp] theorem State.putChan_resetPending (s : State) (n : Nat) (x : DmaChan) : (s.putChan n x).resetPending = s.resetPending := rfl
@[simp] theorem State.putChan_burst (s : State) (n : Nat) (x : DmaChan) : (s.putChan n x).burst = s.burst := rfl
@[simp] theorem State.putChan_diag (s : State) (n : Nat) (x : DmaChan) : (s.putChan n x).diag = s.diag := rfl
@[simp] theorem State.putChan_diagBytes (s : State) (n : Nat) (x : DmaChan) : (s.putChan n x).diagBytes = s.diagBytes := rfl
@[simp] theorem State.putChan_fwSlotImage (s : State) (n : Nat) (x : DmaChan) : (s.putChan n x).fwSlotImage = s.fwSlotImage := rfl
@[simp] theorem State.putChan_flagsPast (s : State) (n : Nat) (x : DmaChan) : (s.putChan n x).flagsPast = s.flagsPast := rfl
@[simp] theorem State.putChan_lanePast (s : State) (n : Nat) (x : DmaChan) : (s.putChan n x).lanePast = s.lanePast := rfl
@[simp] theorem State.putChan_guardHits (s : State) (n : Nat) (x : DmaChan) : (s.putChan n x).guardHits = s.guardHits := rfl
@[simp] theorem State.putChan_scrubNext (s : State) (n : Nat) (x : DmaChan) : (s.putChan n x).scrubNext = s.scrubNext := rfl
@[simp] theorem State.putChan_scrubGain (s : State) (n : Nat) (x : DmaChan) : (s.putChan n x).scrubGain = s.scrubGain := rfl
@[simp] theorem State.putChan_fernAwait (s : State) (n : Nat) (x : DmaChan) : (s.putChan n x).fernAwait = s.fernAwait := rfl
@[simp] theorem State.putChan_ptp (s : State) (n : Nat) (x : DmaChan) : (s.putChan n x).ptp = s.ptp := rfl
@[simp] theorem State.putChan_trigoutHighZ (s : State) (n : Nat) (x : DmaChan) : (s.putChan n x).trigoutHighZ = s.trigoutHighZ := rfl
@[simp] theorem State.putChan_triginHigh (s : State) (n : Nat) (x : DmaChan) : (s.putChan n x).triginHigh = s.triginHigh := rfl
@[simp] theorem State.putChan_tap (s : State) (n : Nat) (x : DmaChan) : (s.putChan n x).tap = s.tap := rfl
@[simp] theorem State.putChan_dieTemp (s : State) (n : Nat) (x : DmaChan) : (s.putChan n x).dieTemp = s.dieTemp := rfl
@[simp] theorem State.putChan_authTimes (s : State) (n : Nat) (x : DmaChan) : (s.putChan n x).authTimes = s.authTimes := rfl
@[simp] theorem State.putChan_loadsDue (s : State) (n : Nat) (x : DmaChan) : (s.putChan n x).loadsDue = s.loadsDue := rfl
@[simp] theorem State.putChan_freeCount (s : State) (n : Nat) (x : DmaChan) : (s.putChan n x).freeCount = s.freeCount := rfl
@[simp] theorem State.putChan_out (s : State) (n : Nat) (x : DmaChan) : (s.putChan n x).out = s.out := rfl
@[simp] theorem State.putChan_get (s : State) (n : Nat) (x : DmaChan) (j : Nat) : (s.putChan n x).get j = s.get j := rfl
@[simp] theorem State.putChan_thread (s : State) (n : Nat) (x : DmaChan) (j : Nat) : (s.putChan n x).thread j = s.thread j := rfl
@[simp] theorem State.putChan_slice (s : State) (n : Nat) (x : DmaChan) (j : Nat) : (s.putChan n x).slice j = s.slice j := rfl

@[simp] theorem State.putSubch_pending (s : State) (n : Nat) (x : SubchSt) : (s.putSubch n x).pending = s.pending := rfl
@[simp] theorem State.putSubch_objs (s : State) (n : Nat) (x : SubchSt) : (s.putSubch n x).objs = s.objs := rfl
@[simp] theorem State.putSubch_answers (s : State) (n : Nat) (x : SubchSt) : (s.putSubch n x).answers = s.answers := rfl
@[simp] theorem State.putSubch_mailbox (s : State) (n : Nat) (x : SubchSt) : (s.putSubch n x).mailbox = s.mailbox := rfl
@[simp] theorem State.putSubch_mailboxDone (s : State) (n : Nat) (x : SubchSt) : (s.putSubch n x).mailboxDone = s.mailboxDone := rfl
@[simp] theorem State.putSubch_sessions (s : State) (n : Nat) (x : SubchSt) : (s.putSubch n x).sessions = s.sessions := rfl
@[simp] theorem State.putSubch_subs (s : State) (n : Nat) (x : SubchSt) : (s.putSubch n x).subs = s.subs := rfl
@[simp] theorem State.putSubch_latches (s : State) (n : Nat) (x : SubchSt) : (s.putSubch n x).latches = s.latches := rfl
@[simp] theorem State.putSubch_hotJump (s : State) (n : Nat) (x : SubchSt) : (s.putSubch n x).hotJump = s.hotJump := rfl
@[simp] theorem State.putSubch_pcieUp (s : State) (n : Nat) (x : SubchSt) : (s.putSubch n x).pcieUp = s.pcieUp := rfl
@[simp] theorem State.putSubch_msixMasked (s : State) (n : Nat) (x : SubchSt) : (s.putSubch n x).msixMasked = s.msixMasked := rfl
@[simp] theorem State.putSubch_msixPending (s : State) (n : Nat) (x : SubchSt) : (s.putSubch n x).msixPending = s.msixPending := rfl
@[simp] theorem State.putSubch_dma (s : State) (n : Nat) (x : SubchSt) : (s.putSubch n x).dma = s.dma := rfl
@[simp] theorem State.putSubch_threads (s : State) (n : Nat) (x : SubchSt) : (s.putSubch n x).threads = s.threads := rfl
@[simp] theorem State.putSubch_caches (s : State) (n : Nat) (x : SubchSt) : (s.putSubch n x).caches = s.caches := rfl
@[simp] theorem State.putSubch_tokens (s : State) (n : Nat) (x : SubchSt) : (s.putSubch n x).tokens = s.tokens := rfl
@[simp] theorem State.putSubch_slices (s : State) (n : Nat) (x : SubchSt) : (s.putSubch n x).slices = s.slices := rfl
@[simp] theorem State.putSubch_laneBase (s : State) (n : Nat) (x : SubchSt) : (s.putSubch n x).laneBase = s.laneBase := rfl
@[simp] theorem State.putSubch_lanes (s : State) (n : Nat) (x : SubchSt) : (s.putSubch n x).lanes = s.lanes := rfl
@[simp] theorem State.putSubch_cells (s : State) (n : Nat) (x : SubchSt) : (s.putSubch n x).cells = s.cells := rfl
@[simp] theorem State.putSubch_poison (s : State) (n : Nat) (x : SubchSt) : (s.putSubch n x).poison = s.poison := rfl
@[simp] theorem State.putSubch_waitingWrites (s : State) (n : Nat) (x : SubchSt) : (s.putSubch n x).waitingWrites = s.waitingWrites := rfl
@[simp] theorem State.putSubch_checkedPages (s : State) (n : Nat) (x : SubchSt) : (s.putSubch n x).checkedPages = s.checkedPages := rfl
@[simp] theorem State.putSubch_mapChanged (s : State) (n : Nat) (x : SubchSt) : (s.putSubch n x).mapChanged = s.mapChanged := rfl
@[simp] theorem State.putSubch_ring (s : State) (n : Nat) (x : SubchSt) : (s.putSubch n x).ring = s.ring := rfl
@[simp] theorem State.putSubch_fernAligned (s : State) (n : Nat) (x : SubchSt) : (s.putSubch n x).fernAligned = s.fernAligned := rfl
@[simp] theorem State.putSubch_frefPresent (s : State) (n : Nat) (x : SubchSt) : (s.putSubch n x).frefPresent = s.frefPresent := rfl
@[simp] theorem State.putSubch_clockFreq (s : State) (n : Nat) (x : SubchSt) : (s.putSubch n x).clockFreq = s.clockFreq := rfl
@[simp] theorem State.putSubch_clockGood (s : State) (n : Nat) (x : SubchSt) : (s.putSubch n x).clockGood = s.clockGood := rfl
@[simp] theorem State.putSubch_ptmAuto (s : State) (n : Nat) (x : SubchSt) : (s.putSubch n x).ptmAuto = s.ptmAuto := rfl
@[simp] theorem State.putSubch_slots (s : State) (n : Nat) (x : SubchSt) : (s.putSubch n x).slots = s.slots := rfl
@[simp] theorem State.putSubch_tius (s : State) (n : Nat) (x : SubchSt) : (s.putSubch n x).tius = s.tius := rfl
@[simp] theorem State.putSubch_adcLeft (s : State) (n : Nat) (x : SubchSt) : (s.putSubch n x).adcLeft = s.adcLeft := rfl
@[simp] theorem State.putSubch_acqs (s : State) (n : Nat) (x : SubchSt) : (s.putSubch n x).acqs = s.acqs := rfl
@[simp] theorem State.putSubch_trigoutActive (s : State) (n : Nat) (x : SubchSt) : (s.putSubch n x).trigoutActive = s.trigoutActive := rfl
@[simp] theorem State.putSubch_loadEdges (s : State) (n : Nat) (x : SubchSt) : (s.putSubch n x).loadEdges = s.loadEdges := rfl
@[simp] theorem State.putSubch_badgerQueue (s : State) (n : Nat) (x : SubchSt) : (s.putSubch n x).badgerQueue = s.badgerQueue := rfl
@[simp] theorem State.putSubch_calRan (s : State) (n : Nat) (x : SubchSt) : (s.putSubch n x).calRan = s.calRan := rfl
@[simp] theorem State.putSubch_routine (s : State) (n : Nat) (x : SubchSt) : (s.putSubch n x).routine = s.routine := rfl
@[simp] theorem State.putSubch_watch (s : State) (n : Nat) (x : SubchSt) : (s.putSubch n x).watch = s.watch := rfl
@[simp] theorem State.putSubch_histRead (s : State) (n : Nat) (x : SubchSt) : (s.putSubch n x).histRead = s.histRead := rfl
@[simp] theorem State.putSubch_liveLocs (s : State) (n : Nat) (x : SubchSt) : (s.putSubch n x).liveLocs = s.liveLocs := rfl
@[simp] theorem State.putSubch_recoveries (s : State) (n : Nat) (x : SubchSt) : (s.putSubch n x).recoveries = s.recoveries := rfl
@[simp] theorem State.putSubch_injection (s : State) (n : Nat) (x : SubchSt) : (s.putSubch n x).injection = s.injection := rfl
@[simp] theorem State.putSubch_faultWindow (s : State) (n : Nat) (x : SubchSt) : (s.putSubch n x).faultWindow = s.faultWindow := rfl
@[simp] theorem State.putSubch_faultIrqHeld (s : State) (n : Nat) (x : SubchSt) : (s.putSubch n x).faultIrqHeld = s.faultIrqHeld := rfl
@[simp] theorem State.putSubch_recordIrqHeld (s : State) (n : Nat) (x : SubchSt) : (s.putSubch n x).recordIrqHeld = s.recordIrqHeld := rfl
@[simp] theorem State.putSubch_machineCheck (s : State) (n : Nat) (x : SubchSt) : (s.putSubch n x).machineCheck = s.machineCheck := rfl
@[simp] theorem State.putSubch_wdogKick (s : State) (n : Nat) (x : SubchSt) : (s.putSubch n x).wdogKick = s.wdogKick := rfl
@[simp] theorem State.putSubch_entering (s : State) (n : Nat) (x : SubchSt) : (s.putSubch n x).entering = s.entering := rfl
@[simp] theorem State.putSubch_guardStaged (s : State) (n : Nat) (x : SubchSt) : (s.putSubch n x).guardStaged = s.guardStaged := rfl
@[simp] theorem State.putSubch_nvm (s : State) (n : Nat) (x : SubchSt) : (s.putSubch n x).nvm = s.nvm := rfl
@[simp] theorem State.putSubch_ledger (s : State) (n : Nat) (x : SubchSt) : (s.putSubch n x).ledger = s.ledger := rfl
@[simp] theorem State.putSubch_bootSeconds (s : State) (n : Nat) (x : SubchSt) : (s.putSubch n x).bootSeconds = s.bootSeconds := rfl
@[simp] theorem State.putSubch_retainMode (s : State) (n : Nat) (x : SubchSt) : (s.putSubch n x).retainMode = s.retainMode := rfl
@[simp] theorem State.putSubch_retainBurst (s : State) (n : Nat) (x : SubchSt) : (s.putSubch n x).retainBurst = s.retainBurst := rfl
@[simp] theorem State.putSubch_retained (s : State) (n : Nat) (x : SubchSt) : (s.putSubch n x).retained = s.retained := rfl
@[simp] theorem State.putSubch_resetSeen (s : State) (n : Nat) (x : SubchSt) : (s.putSubch n x).resetSeen = s.resetSeen := rfl
@[simp] theorem State.putSubch_resetRails (s : State) (n : Nat) (x : SubchSt) : (s.putSubch n x).resetRails = s.resetRails := rfl
@[simp] theorem State.putSubch_resetPending (s : State) (n : Nat) (x : SubchSt) : (s.putSubch n x).resetPending = s.resetPending := rfl
@[simp] theorem State.putSubch_burst (s : State) (n : Nat) (x : SubchSt) : (s.putSubch n x).burst = s.burst := rfl
@[simp] theorem State.putSubch_diag (s : State) (n : Nat) (x : SubchSt) : (s.putSubch n x).diag = s.diag := rfl
@[simp] theorem State.putSubch_diagBytes (s : State) (n : Nat) (x : SubchSt) : (s.putSubch n x).diagBytes = s.diagBytes := rfl
@[simp] theorem State.putSubch_fwSlotImage (s : State) (n : Nat) (x : SubchSt) : (s.putSubch n x).fwSlotImage = s.fwSlotImage := rfl
@[simp] theorem State.putSubch_flagsPast (s : State) (n : Nat) (x : SubchSt) : (s.putSubch n x).flagsPast = s.flagsPast := rfl
@[simp] theorem State.putSubch_lanePast (s : State) (n : Nat) (x : SubchSt) : (s.putSubch n x).lanePast = s.lanePast := rfl
@[simp] theorem State.putSubch_guardHits (s : State) (n : Nat) (x : SubchSt) : (s.putSubch n x).guardHits = s.guardHits := rfl
@[simp] theorem State.putSubch_scrubNext (s : State) (n : Nat) (x : SubchSt) : (s.putSubch n x).scrubNext = s.scrubNext := rfl
@[simp] theorem State.putSubch_scrubGain (s : State) (n : Nat) (x : SubchSt) : (s.putSubch n x).scrubGain = s.scrubGain := rfl
@[simp] theorem State.putSubch_fernAwait (s : State) (n : Nat) (x : SubchSt) : (s.putSubch n x).fernAwait = s.fernAwait := rfl
@[simp] theorem State.putSubch_ptp (s : State) (n : Nat) (x : SubchSt) : (s.putSubch n x).ptp = s.ptp := rfl
@[simp] theorem State.putSubch_trigoutHighZ (s : State) (n : Nat) (x : SubchSt) : (s.putSubch n x).trigoutHighZ = s.trigoutHighZ := rfl
@[simp] theorem State.putSubch_triginHigh (s : State) (n : Nat) (x : SubchSt) : (s.putSubch n x).triginHigh = s.triginHigh := rfl
@[simp] theorem State.putSubch_tap (s : State) (n : Nat) (x : SubchSt) : (s.putSubch n x).tap = s.tap := rfl
@[simp] theorem State.putSubch_dieTemp (s : State) (n : Nat) (x : SubchSt) : (s.putSubch n x).dieTemp = s.dieTemp := rfl
@[simp] theorem State.putSubch_authTimes (s : State) (n : Nat) (x : SubchSt) : (s.putSubch n x).authTimes = s.authTimes := rfl
@[simp] theorem State.putSubch_loadsDue (s : State) (n : Nat) (x : SubchSt) : (s.putSubch n x).loadsDue = s.loadsDue := rfl
@[simp] theorem State.putSubch_freeCount (s : State) (n : Nat) (x : SubchSt) : (s.putSubch n x).freeCount = s.freeCount := rfl
@[simp] theorem State.putSubch_out (s : State) (n : Nat) (x : SubchSt) : (s.putSubch n x).out = s.out := rfl
@[simp] theorem State.putSubch_get (s : State) (n : Nat) (x : SubchSt) (j : Nat) : (s.putSubch n x).get j = s.get j := rfl
@[simp] theorem State.putSubch_thread (s : State) (n : Nat) (x : SubchSt) (j : Nat) : (s.putSubch n x).thread j = s.thread j := rfl
@[simp] theorem State.putSubch_slice (s : State) (n : Nat) (x : SubchSt) (j : Nat) : (s.putSubch n x).slice j = s.slice j := rfl

@[simp] theorem State.putAcq_pending (s : State) (n : Nat) (x : AcqSt) : (s.putAcq n x).pending = s.pending := rfl
@[simp] theorem State.putAcq_objs (s : State) (n : Nat) (x : AcqSt) : (s.putAcq n x).objs = s.objs := rfl
@[simp] theorem State.putAcq_answers (s : State) (n : Nat) (x : AcqSt) : (s.putAcq n x).answers = s.answers := rfl
@[simp] theorem State.putAcq_mailbox (s : State) (n : Nat) (x : AcqSt) : (s.putAcq n x).mailbox = s.mailbox := rfl
@[simp] theorem State.putAcq_mailboxDone (s : State) (n : Nat) (x : AcqSt) : (s.putAcq n x).mailboxDone = s.mailboxDone := rfl
@[simp] theorem State.putAcq_sessions (s : State) (n : Nat) (x : AcqSt) : (s.putAcq n x).sessions = s.sessions := rfl
@[simp] theorem State.putAcq_subs (s : State) (n : Nat) (x : AcqSt) : (s.putAcq n x).subs = s.subs := rfl
@[simp] theorem State.putAcq_latches (s : State) (n : Nat) (x : AcqSt) : (s.putAcq n x).latches = s.latches := rfl
@[simp] theorem State.putAcq_hotJump (s : State) (n : Nat) (x : AcqSt) : (s.putAcq n x).hotJump = s.hotJump := rfl
@[simp] theorem State.putAcq_pcieUp (s : State) (n : Nat) (x : AcqSt) : (s.putAcq n x).pcieUp = s.pcieUp := rfl
@[simp] theorem State.putAcq_msixMasked (s : State) (n : Nat) (x : AcqSt) : (s.putAcq n x).msixMasked = s.msixMasked := rfl
@[simp] theorem State.putAcq_msixPending (s : State) (n : Nat) (x : AcqSt) : (s.putAcq n x).msixPending = s.msixPending := rfl
@[simp] theorem State.putAcq_dma (s : State) (n : Nat) (x : AcqSt) : (s.putAcq n x).dma = s.dma := rfl
@[simp] theorem State.putAcq_threads (s : State) (n : Nat) (x : AcqSt) : (s.putAcq n x).threads = s.threads := rfl
@[simp] theorem State.putAcq_caches (s : State) (n : Nat) (x : AcqSt) : (s.putAcq n x).caches = s.caches := rfl
@[simp] theorem State.putAcq_tokens (s : State) (n : Nat) (x : AcqSt) : (s.putAcq n x).tokens = s.tokens := rfl
@[simp] theorem State.putAcq_slices (s : State) (n : Nat) (x : AcqSt) : (s.putAcq n x).slices = s.slices := rfl
@[simp] theorem State.putAcq_laneBase (s : State) (n : Nat) (x : AcqSt) : (s.putAcq n x).laneBase = s.laneBase := rfl
@[simp] theorem State.putAcq_lanes (s : State) (n : Nat) (x : AcqSt) : (s.putAcq n x).lanes = s.lanes := rfl
@[simp] theorem State.putAcq_cells (s : State) (n : Nat) (x : AcqSt) : (s.putAcq n x).cells = s.cells := rfl
@[simp] theorem State.putAcq_poison (s : State) (n : Nat) (x : AcqSt) : (s.putAcq n x).poison = s.poison := rfl
@[simp] theorem State.putAcq_waitingWrites (s : State) (n : Nat) (x : AcqSt) : (s.putAcq n x).waitingWrites = s.waitingWrites := rfl
@[simp] theorem State.putAcq_checkedPages (s : State) (n : Nat) (x : AcqSt) : (s.putAcq n x).checkedPages = s.checkedPages := rfl
@[simp] theorem State.putAcq_mapChanged (s : State) (n : Nat) (x : AcqSt) : (s.putAcq n x).mapChanged = s.mapChanged := rfl
@[simp] theorem State.putAcq_subchs (s : State) (n : Nat) (x : AcqSt) : (s.putAcq n x).subchs = s.subchs := rfl
@[simp] theorem State.putAcq_ring (s : State) (n : Nat) (x : AcqSt) : (s.putAcq n x).ring = s.ring := rfl
@[simp] theorem State.putAcq_fernAligned (s : State) (n : Nat) (x : AcqSt) : (s.putAcq n x).fernAligned = s.fernAligned := rfl
@[simp] theorem State.putAcq_frefPresent (s : State) (n : Nat) (x : AcqSt) : (s.putAcq n x).frefPresent = s.frefPresent := rfl
@[simp] theorem State.putAcq_clockFreq (s : State) (n : Nat) (x : AcqSt) : (s.putAcq n x).clockFreq = s.clockFreq := rfl
@[simp] theorem State.putAcq_clockGood (s : State) (n : Nat) (x : AcqSt) : (s.putAcq n x).clockGood = s.clockGood := rfl
@[simp] theorem State.putAcq_ptmAuto (s : State) (n : Nat) (x : AcqSt) : (s.putAcq n x).ptmAuto = s.ptmAuto := rfl
@[simp] theorem State.putAcq_slots (s : State) (n : Nat) (x : AcqSt) : (s.putAcq n x).slots = s.slots := rfl
@[simp] theorem State.putAcq_tius (s : State) (n : Nat) (x : AcqSt) : (s.putAcq n x).tius = s.tius := rfl
@[simp] theorem State.putAcq_adcLeft (s : State) (n : Nat) (x : AcqSt) : (s.putAcq n x).adcLeft = s.adcLeft := rfl
@[simp] theorem State.putAcq_trigoutActive (s : State) (n : Nat) (x : AcqSt) : (s.putAcq n x).trigoutActive = s.trigoutActive := rfl
@[simp] theorem State.putAcq_loadEdges (s : State) (n : Nat) (x : AcqSt) : (s.putAcq n x).loadEdges = s.loadEdges := rfl
@[simp] theorem State.putAcq_badgerQueue (s : State) (n : Nat) (x : AcqSt) : (s.putAcq n x).badgerQueue = s.badgerQueue := rfl
@[simp] theorem State.putAcq_calRan (s : State) (n : Nat) (x : AcqSt) : (s.putAcq n x).calRan = s.calRan := rfl
@[simp] theorem State.putAcq_routine (s : State) (n : Nat) (x : AcqSt) : (s.putAcq n x).routine = s.routine := rfl
@[simp] theorem State.putAcq_watch (s : State) (n : Nat) (x : AcqSt) : (s.putAcq n x).watch = s.watch := rfl
@[simp] theorem State.putAcq_histRead (s : State) (n : Nat) (x : AcqSt) : (s.putAcq n x).histRead = s.histRead := rfl
@[simp] theorem State.putAcq_liveLocs (s : State) (n : Nat) (x : AcqSt) : (s.putAcq n x).liveLocs = s.liveLocs := rfl
@[simp] theorem State.putAcq_recoveries (s : State) (n : Nat) (x : AcqSt) : (s.putAcq n x).recoveries = s.recoveries := rfl
@[simp] theorem State.putAcq_injection (s : State) (n : Nat) (x : AcqSt) : (s.putAcq n x).injection = s.injection := rfl
@[simp] theorem State.putAcq_faultWindow (s : State) (n : Nat) (x : AcqSt) : (s.putAcq n x).faultWindow = s.faultWindow := rfl
@[simp] theorem State.putAcq_faultIrqHeld (s : State) (n : Nat) (x : AcqSt) : (s.putAcq n x).faultIrqHeld = s.faultIrqHeld := rfl
@[simp] theorem State.putAcq_recordIrqHeld (s : State) (n : Nat) (x : AcqSt) : (s.putAcq n x).recordIrqHeld = s.recordIrqHeld := rfl
@[simp] theorem State.putAcq_machineCheck (s : State) (n : Nat) (x : AcqSt) : (s.putAcq n x).machineCheck = s.machineCheck := rfl
@[simp] theorem State.putAcq_wdogKick (s : State) (n : Nat) (x : AcqSt) : (s.putAcq n x).wdogKick = s.wdogKick := rfl
@[simp] theorem State.putAcq_entering (s : State) (n : Nat) (x : AcqSt) : (s.putAcq n x).entering = s.entering := rfl
@[simp] theorem State.putAcq_guardStaged (s : State) (n : Nat) (x : AcqSt) : (s.putAcq n x).guardStaged = s.guardStaged := rfl
@[simp] theorem State.putAcq_nvm (s : State) (n : Nat) (x : AcqSt) : (s.putAcq n x).nvm = s.nvm := rfl
@[simp] theorem State.putAcq_ledger (s : State) (n : Nat) (x : AcqSt) : (s.putAcq n x).ledger = s.ledger := rfl
@[simp] theorem State.putAcq_bootSeconds (s : State) (n : Nat) (x : AcqSt) : (s.putAcq n x).bootSeconds = s.bootSeconds := rfl
@[simp] theorem State.putAcq_retainMode (s : State) (n : Nat) (x : AcqSt) : (s.putAcq n x).retainMode = s.retainMode := rfl
@[simp] theorem State.putAcq_retainBurst (s : State) (n : Nat) (x : AcqSt) : (s.putAcq n x).retainBurst = s.retainBurst := rfl
@[simp] theorem State.putAcq_retained (s : State) (n : Nat) (x : AcqSt) : (s.putAcq n x).retained = s.retained := rfl
@[simp] theorem State.putAcq_resetSeen (s : State) (n : Nat) (x : AcqSt) : (s.putAcq n x).resetSeen = s.resetSeen := rfl
@[simp] theorem State.putAcq_resetRails (s : State) (n : Nat) (x : AcqSt) : (s.putAcq n x).resetRails = s.resetRails := rfl
@[simp] theorem State.putAcq_resetPending (s : State) (n : Nat) (x : AcqSt) : (s.putAcq n x).resetPending = s.resetPending := rfl
@[simp] theorem State.putAcq_burst (s : State) (n : Nat) (x : AcqSt) : (s.putAcq n x).burst = s.burst := rfl
@[simp] theorem State.putAcq_diag (s : State) (n : Nat) (x : AcqSt) : (s.putAcq n x).diag = s.diag := rfl
@[simp] theorem State.putAcq_diagBytes (s : State) (n : Nat) (x : AcqSt) : (s.putAcq n x).diagBytes = s.diagBytes := rfl
@[simp] theorem State.putAcq_fwSlotImage (s : State) (n : Nat) (x : AcqSt) : (s.putAcq n x).fwSlotImage = s.fwSlotImage := rfl
@[simp] theorem State.putAcq_flagsPast (s : State) (n : Nat) (x : AcqSt) : (s.putAcq n x).flagsPast = s.flagsPast := rfl
@[simp] theorem State.putAcq_lanePast (s : State) (n : Nat) (x : AcqSt) : (s.putAcq n x).lanePast = s.lanePast := rfl
@[simp] theorem State.putAcq_guardHits (s : State) (n : Nat) (x : AcqSt) : (s.putAcq n x).guardHits = s.guardHits := rfl
@[simp] theorem State.putAcq_scrubNext (s : State) (n : Nat) (x : AcqSt) : (s.putAcq n x).scrubNext = s.scrubNext := rfl
@[simp] theorem State.putAcq_scrubGain (s : State) (n : Nat) (x : AcqSt) : (s.putAcq n x).scrubGain = s.scrubGain := rfl
@[simp] theorem State.putAcq_fernAwait (s : State) (n : Nat) (x : AcqSt) : (s.putAcq n x).fernAwait = s.fernAwait := rfl
@[simp] theorem State.putAcq_ptp (s : State) (n : Nat) (x : AcqSt) : (s.putAcq n x).ptp = s.ptp := rfl
@[simp] theorem State.putAcq_trigoutHighZ (s : State) (n : Nat) (x : AcqSt) : (s.putAcq n x).trigoutHighZ = s.trigoutHighZ := rfl
@[simp] theorem State.putAcq_triginHigh (s : State) (n : Nat) (x : AcqSt) : (s.putAcq n x).triginHigh = s.triginHigh := rfl
@[simp] theorem State.putAcq_tap (s : State) (n : Nat) (x : AcqSt) : (s.putAcq n x).tap = s.tap := rfl
@[simp] theorem State.putAcq_dieTemp (s : State) (n : Nat) (x : AcqSt) : (s.putAcq n x).dieTemp = s.dieTemp := rfl
@[simp] theorem State.putAcq_authTimes (s : State) (n : Nat) (x : AcqSt) : (s.putAcq n x).authTimes = s.authTimes := rfl
@[simp] theorem State.putAcq_loadsDue (s : State) (n : Nat) (x : AcqSt) : (s.putAcq n x).loadsDue = s.loadsDue := rfl
@[simp] theorem State.putAcq_freeCount (s : State) (n : Nat) (x : AcqSt) : (s.putAcq n x).freeCount = s.freeCount := rfl
@[simp] theorem State.putAcq_out (s : State) (n : Nat) (x : AcqSt) : (s.putAcq n x).out = s.out := rfl
@[simp] theorem State.putAcq_get (s : State) (n : Nat) (x : AcqSt) (j : Nat) : (s.putAcq n x).get j = s.get j := rfl
@[simp] theorem State.putAcq_thread (s : State) (n : Nat) (x : AcqSt) (j : Nat) : (s.putAcq n x).thread j = s.thread j := rfl
@[simp] theorem State.putAcq_slice (s : State) (n : Nat) (x : AcqSt) (j : Nat) : (s.putAcq n x).slice j = s.slice j := rfl

@[simp] theorem State.emit_pending (s : State) (o : Output) : (s.emit o).pending = s.pending := rfl
@[simp] theorem State.emit_objs (s : State) (o : Output) : (s.emit o).objs = s.objs := rfl
@[simp] theorem State.emit_answers (s : State) (o : Output) : (s.emit o).answers = s.answers := rfl
@[simp] theorem State.emit_mailbox (s : State) (o : Output) : (s.emit o).mailbox = s.mailbox := rfl
@[simp] theorem State.emit_mailboxDone (s : State) (o : Output) : (s.emit o).mailboxDone = s.mailboxDone := rfl
@[simp] theorem State.emit_sessions (s : State) (o : Output) : (s.emit o).sessions = s.sessions := rfl
@[simp] theorem State.emit_subs (s : State) (o : Output) : (s.emit o).subs = s.subs := rfl
@[simp] theorem State.emit_latches (s : State) (o : Output) : (s.emit o).latches = s.latches := rfl
@[simp] theorem State.emit_hotJump (s : State) (o : Output) : (s.emit o).hotJump = s.hotJump := rfl
@[simp] theorem State.emit_pcieUp (s : State) (o : Output) : (s.emit o).pcieUp = s.pcieUp := rfl
@[simp] theorem State.emit_msixMasked (s : State) (o : Output) : (s.emit o).msixMasked = s.msixMasked := rfl
@[simp] theorem State.emit_msixPending (s : State) (o : Output) : (s.emit o).msixPending = s.msixPending := rfl
@[simp] theorem State.emit_dma (s : State) (o : Output) : (s.emit o).dma = s.dma := rfl
@[simp] theorem State.emit_threads (s : State) (o : Output) : (s.emit o).threads = s.threads := rfl
@[simp] theorem State.emit_caches (s : State) (o : Output) : (s.emit o).caches = s.caches := rfl
@[simp] theorem State.emit_tokens (s : State) (o : Output) : (s.emit o).tokens = s.tokens := rfl
@[simp] theorem State.emit_slices (s : State) (o : Output) : (s.emit o).slices = s.slices := rfl
@[simp] theorem State.emit_laneBase (s : State) (o : Output) : (s.emit o).laneBase = s.laneBase := rfl
@[simp] theorem State.emit_lanes (s : State) (o : Output) : (s.emit o).lanes = s.lanes := rfl
@[simp] theorem State.emit_cells (s : State) (o : Output) : (s.emit o).cells = s.cells := rfl
@[simp] theorem State.emit_poison (s : State) (o : Output) : (s.emit o).poison = s.poison := rfl
@[simp] theorem State.emit_waitingWrites (s : State) (o : Output) : (s.emit o).waitingWrites = s.waitingWrites := rfl
@[simp] theorem State.emit_checkedPages (s : State) (o : Output) : (s.emit o).checkedPages = s.checkedPages := rfl
@[simp] theorem State.emit_mapChanged (s : State) (o : Output) : (s.emit o).mapChanged = s.mapChanged := rfl
@[simp] theorem State.emit_subchs (s : State) (o : Output) : (s.emit o).subchs = s.subchs := rfl
@[simp] theorem State.emit_ring (s : State) (o : Output) : (s.emit o).ring = s.ring := rfl
@[simp] theorem State.emit_fernAligned (s : State) (o : Output) : (s.emit o).fernAligned = s.fernAligned := rfl
@[simp] theorem State.emit_frefPresent (s : State) (o : Output) : (s.emit o).frefPresent = s.frefPresent := rfl
@[simp] theorem State.emit_clockFreq (s : State) (o : Output) : (s.emit o).clockFreq = s.clockFreq := rfl
@[simp] theorem State.emit_clockGood (s : State) (o : Output) : (s.emit o).clockGood = s.clockGood := rfl
@[simp] theorem State.emit_ptmAuto (s : State) (o : Output) : (s.emit o).ptmAuto = s.ptmAuto := rfl
@[simp] theorem State.emit_slots (s : State) (o : Output) : (s.emit o).slots = s.slots := rfl
@[simp] theorem State.emit_tius (s : State) (o : Output) : (s.emit o).tius = s.tius := rfl
@[simp] theorem State.emit_adcLeft (s : State) (o : Output) : (s.emit o).adcLeft = s.adcLeft := rfl
@[simp] theorem State.emit_acqs (s : State) (o : Output) : (s.emit o).acqs = s.acqs := rfl
@[simp] theorem State.emit_trigoutActive (s : State) (o : Output) : (s.emit o).trigoutActive = s.trigoutActive := rfl
@[simp] theorem State.emit_loadEdges (s : State) (o : Output) : (s.emit o).loadEdges = s.loadEdges := rfl
@[simp] theorem State.emit_badgerQueue (s : State) (o : Output) : (s.emit o).badgerQueue = s.badgerQueue := rfl
@[simp] theorem State.emit_calRan (s : State) (o : Output) : (s.emit o).calRan = s.calRan := rfl
@[simp] theorem State.emit_routine (s : State) (o : Output) : (s.emit o).routine = s.routine := rfl
@[simp] theorem State.emit_watch (s : State) (o : Output) : (s.emit o).watch = s.watch := rfl
@[simp] theorem State.emit_histRead (s : State) (o : Output) : (s.emit o).histRead = s.histRead := rfl
@[simp] theorem State.emit_liveLocs (s : State) (o : Output) : (s.emit o).liveLocs = s.liveLocs := rfl
@[simp] theorem State.emit_recoveries (s : State) (o : Output) : (s.emit o).recoveries = s.recoveries := rfl
@[simp] theorem State.emit_injection (s : State) (o : Output) : (s.emit o).injection = s.injection := rfl
@[simp] theorem State.emit_faultWindow (s : State) (o : Output) : (s.emit o).faultWindow = s.faultWindow := rfl
@[simp] theorem State.emit_faultIrqHeld (s : State) (o : Output) : (s.emit o).faultIrqHeld = s.faultIrqHeld := rfl
@[simp] theorem State.emit_recordIrqHeld (s : State) (o : Output) : (s.emit o).recordIrqHeld = s.recordIrqHeld := rfl
@[simp] theorem State.emit_machineCheck (s : State) (o : Output) : (s.emit o).machineCheck = s.machineCheck := rfl
@[simp] theorem State.emit_wdogKick (s : State) (o : Output) : (s.emit o).wdogKick = s.wdogKick := rfl
@[simp] theorem State.emit_entering (s : State) (o : Output) : (s.emit o).entering = s.entering := rfl
@[simp] theorem State.emit_guardStaged (s : State) (o : Output) : (s.emit o).guardStaged = s.guardStaged := rfl
@[simp] theorem State.emit_nvm (s : State) (o : Output) : (s.emit o).nvm = s.nvm := rfl
@[simp] theorem State.emit_ledger (s : State) (o : Output) : (s.emit o).ledger = s.ledger := rfl
@[simp] theorem State.emit_bootSeconds (s : State) (o : Output) : (s.emit o).bootSeconds = s.bootSeconds := rfl
@[simp] theorem State.emit_retainMode (s : State) (o : Output) : (s.emit o).retainMode = s.retainMode := rfl
@[simp] theorem State.emit_retainBurst (s : State) (o : Output) : (s.emit o).retainBurst = s.retainBurst := rfl
@[simp] theorem State.emit_retained (s : State) (o : Output) : (s.emit o).retained = s.retained := rfl
@[simp] theorem State.emit_resetSeen (s : State) (o : Output) : (s.emit o).resetSeen = s.resetSeen := rfl
@[simp] theorem State.emit_resetRails (s : State) (o : Output) : (s.emit o).resetRails = s.resetRails := rfl
@[simp] theorem State.emit_resetPending (s : State) (o : Output) : (s.emit o).resetPending = s.resetPending := rfl
@[simp] theorem State.emit_burst (s : State) (o : Output) : (s.emit o).burst = s.burst := rfl
@[simp] theorem State.emit_diag (s : State) (o : Output) : (s.emit o).diag = s.diag := rfl
@[simp] theorem State.emit_diagBytes (s : State) (o : Output) : (s.emit o).diagBytes = s.diagBytes := rfl
@[simp] theorem State.emit_fwSlotImage (s : State) (o : Output) : (s.emit o).fwSlotImage = s.fwSlotImage := rfl
@[simp] theorem State.emit_flagsPast (s : State) (o : Output) : (s.emit o).flagsPast = s.flagsPast := rfl
@[simp] theorem State.emit_lanePast (s : State) (o : Output) : (s.emit o).lanePast = s.lanePast := rfl
@[simp] theorem State.emit_guardHits (s : State) (o : Output) : (s.emit o).guardHits = s.guardHits := rfl
@[simp] theorem State.emit_scrubNext (s : State) (o : Output) : (s.emit o).scrubNext = s.scrubNext := rfl
@[simp] theorem State.emit_scrubGain (s : State) (o : Output) : (s.emit o).scrubGain = s.scrubGain := rfl
@[simp] theorem State.emit_fernAwait (s : State) (o : Output) : (s.emit o).fernAwait = s.fernAwait := rfl
@[simp] theorem State.emit_ptp (s : State) (o : Output) : (s.emit o).ptp = s.ptp := rfl
@[simp] theorem State.emit_trigoutHighZ (s : State) (o : Output) : (s.emit o).trigoutHighZ = s.trigoutHighZ := rfl
@[simp] theorem State.emit_triginHigh (s : State) (o : Output) : (s.emit o).triginHigh = s.triginHigh := rfl
@[simp] theorem State.emit_tap (s : State) (o : Output) : (s.emit o).tap = s.tap := rfl
@[simp] theorem State.emit_dieTemp (s : State) (o : Output) : (s.emit o).dieTemp = s.dieTemp := rfl
@[simp] theorem State.emit_authTimes (s : State) (o : Output) : (s.emit o).authTimes = s.authTimes := rfl
@[simp] theorem State.emit_loadsDue (s : State) (o : Output) : (s.emit o).loadsDue = s.loadsDue := rfl
@[simp] theorem State.emit_freeCount (s : State) (o : Output) : (s.emit o).freeCount = s.freeCount := rfl
@[simp] theorem State.emit_get (s : State) (o : Output) (j : Nat) : (s.emit o).get j = s.get j := rfl
@[simp] theorem State.emit_thread (s : State) (o : Output) (j : Nat) : (s.emit o).thread j = s.thread j := rfl
@[simp] theorem State.emit_slice (s : State) (o : Output) (j : Nat) : (s.emit o).slice j = s.slice j := rfl

@[simp] theorem State.answer_pending (s : State) (m : Message) : (s.answer m).pending = s.pending := rfl
@[simp] theorem State.answer_objs (s : State) (m : Message) : (s.answer m).objs = s.objs := rfl
@[simp] theorem State.answer_mailbox (s : State) (m : Message) : (s.answer m).mailbox = s.mailbox := rfl
@[simp] theorem State.answer_mailboxDone (s : State) (m : Message) : (s.answer m).mailboxDone = s.mailboxDone := rfl
@[simp] theorem State.answer_sessions (s : State) (m : Message) : (s.answer m).sessions = s.sessions := rfl
@[simp] theorem State.answer_subs (s : State) (m : Message) : (s.answer m).subs = s.subs := rfl
@[simp] theorem State.answer_latches (s : State) (m : Message) : (s.answer m).latches = s.latches := rfl
@[simp] theorem State.answer_hotJump (s : State) (m : Message) : (s.answer m).hotJump = s.hotJump := rfl
@[simp] theorem State.answer_pcieUp (s : State) (m : Message) : (s.answer m).pcieUp = s.pcieUp := rfl
@[simp] theorem State.answer_msixMasked (s : State) (m : Message) : (s.answer m).msixMasked = s.msixMasked := rfl
@[simp] theorem State.answer_msixPending (s : State) (m : Message) : (s.answer m).msixPending = s.msixPending := rfl
@[simp] theorem State.answer_dma (s : State) (m : Message) : (s.answer m).dma = s.dma := rfl
@[simp] theorem State.answer_threads (s : State) (m : Message) : (s.answer m).threads = s.threads := rfl
@[simp] theorem State.answer_caches (s : State) (m : Message) : (s.answer m).caches = s.caches := rfl
@[simp] theorem State.answer_tokens (s : State) (m : Message) : (s.answer m).tokens = s.tokens := rfl
@[simp] theorem State.answer_slices (s : State) (m : Message) : (s.answer m).slices = s.slices := rfl
@[simp] theorem State.answer_laneBase (s : State) (m : Message) : (s.answer m).laneBase = s.laneBase := rfl
@[simp] theorem State.answer_lanes (s : State) (m : Message) : (s.answer m).lanes = s.lanes := rfl
@[simp] theorem State.answer_cells (s : State) (m : Message) : (s.answer m).cells = s.cells := rfl
@[simp] theorem State.answer_poison (s : State) (m : Message) : (s.answer m).poison = s.poison := rfl
@[simp] theorem State.answer_waitingWrites (s : State) (m : Message) : (s.answer m).waitingWrites = s.waitingWrites := rfl
@[simp] theorem State.answer_checkedPages (s : State) (m : Message) : (s.answer m).checkedPages = s.checkedPages := rfl
@[simp] theorem State.answer_mapChanged (s : State) (m : Message) : (s.answer m).mapChanged = s.mapChanged := rfl
@[simp] theorem State.answer_subchs (s : State) (m : Message) : (s.answer m).subchs = s.subchs := rfl
@[simp] theorem State.answer_ring (s : State) (m : Message) : (s.answer m).ring = s.ring := rfl
@[simp] theorem State.answer_fernAligned (s : State) (m : Message) : (s.answer m).fernAligned = s.fernAligned := rfl
@[simp] theorem State.answer_frefPresent (s : State) (m : Message) : (s.answer m).frefPresent = s.frefPresent := rfl
@[simp] theorem State.answer_clockFreq (s : State) (m : Message) : (s.answer m).clockFreq = s.clockFreq := rfl
@[simp] theorem State.answer_clockGood (s : State) (m : Message) : (s.answer m).clockGood = s.clockGood := rfl
@[simp] theorem State.answer_ptmAuto (s : State) (m : Message) : (s.answer m).ptmAuto = s.ptmAuto := rfl
@[simp] theorem State.answer_slots (s : State) (m : Message) : (s.answer m).slots = s.slots := rfl
@[simp] theorem State.answer_tius (s : State) (m : Message) : (s.answer m).tius = s.tius := rfl
@[simp] theorem State.answer_adcLeft (s : State) (m : Message) : (s.answer m).adcLeft = s.adcLeft := rfl
@[simp] theorem State.answer_acqs (s : State) (m : Message) : (s.answer m).acqs = s.acqs := rfl
@[simp] theorem State.answer_trigoutActive (s : State) (m : Message) : (s.answer m).trigoutActive = s.trigoutActive := rfl
@[simp] theorem State.answer_loadEdges (s : State) (m : Message) : (s.answer m).loadEdges = s.loadEdges := rfl
@[simp] theorem State.answer_badgerQueue (s : State) (m : Message) : (s.answer m).badgerQueue = s.badgerQueue := rfl
@[simp] theorem State.answer_calRan (s : State) (m : Message) : (s.answer m).calRan = s.calRan := rfl
@[simp] theorem State.answer_routine (s : State) (m : Message) : (s.answer m).routine = s.routine := rfl
@[simp] theorem State.answer_watch (s : State) (m : Message) : (s.answer m).watch = s.watch := rfl
@[simp] theorem State.answer_histRead (s : State) (m : Message) : (s.answer m).histRead = s.histRead := rfl
@[simp] theorem State.answer_liveLocs (s : State) (m : Message) : (s.answer m).liveLocs = s.liveLocs := rfl
@[simp] theorem State.answer_recoveries (s : State) (m : Message) : (s.answer m).recoveries = s.recoveries := rfl
@[simp] theorem State.answer_injection (s : State) (m : Message) : (s.answer m).injection = s.injection := rfl
@[simp] theorem State.answer_faultWindow (s : State) (m : Message) : (s.answer m).faultWindow = s.faultWindow := rfl
@[simp] theorem State.answer_faultIrqHeld (s : State) (m : Message) : (s.answer m).faultIrqHeld = s.faultIrqHeld := rfl
@[simp] theorem State.answer_recordIrqHeld (s : State) (m : Message) : (s.answer m).recordIrqHeld = s.recordIrqHeld := rfl
@[simp] theorem State.answer_machineCheck (s : State) (m : Message) : (s.answer m).machineCheck = s.machineCheck := rfl
@[simp] theorem State.answer_wdogKick (s : State) (m : Message) : (s.answer m).wdogKick = s.wdogKick := rfl
@[simp] theorem State.answer_entering (s : State) (m : Message) : (s.answer m).entering = s.entering := rfl
@[simp] theorem State.answer_guardStaged (s : State) (m : Message) : (s.answer m).guardStaged = s.guardStaged := rfl
@[simp] theorem State.answer_nvm (s : State) (m : Message) : (s.answer m).nvm = s.nvm := rfl
@[simp] theorem State.answer_ledger (s : State) (m : Message) : (s.answer m).ledger = s.ledger := rfl
@[simp] theorem State.answer_bootSeconds (s : State) (m : Message) : (s.answer m).bootSeconds = s.bootSeconds := rfl
@[simp] theorem State.answer_retainMode (s : State) (m : Message) : (s.answer m).retainMode = s.retainMode := rfl
@[simp] theorem State.answer_retainBurst (s : State) (m : Message) : (s.answer m).retainBurst = s.retainBurst := rfl
@[simp] theorem State.answer_retained (s : State) (m : Message) : (s.answer m).retained = s.retained := rfl
@[simp] theorem State.answer_resetSeen (s : State) (m : Message) : (s.answer m).resetSeen = s.resetSeen := rfl
@[simp] theorem State.answer_resetRails (s : State) (m : Message) : (s.answer m).resetRails = s.resetRails := rfl
@[simp] theorem State.answer_resetPending (s : State) (m : Message) : (s.answer m).resetPending = s.resetPending := rfl
@[simp] theorem State.answer_burst (s : State) (m : Message) : (s.answer m).burst = s.burst := rfl
@[simp] theorem State.answer_diag (s : State) (m : Message) : (s.answer m).diag = s.diag := rfl
@[simp] theorem State.answer_diagBytes (s : State) (m : Message) : (s.answer m).diagBytes = s.diagBytes := rfl
@[simp] theorem State.answer_fwSlotImage (s : State) (m : Message) : (s.answer m).fwSlotImage = s.fwSlotImage := rfl
@[simp] theorem State.answer_flagsPast (s : State) (m : Message) : (s.answer m).flagsPast = s.flagsPast := rfl
@[simp] theorem State.answer_lanePast (s : State) (m : Message) : (s.answer m).lanePast = s.lanePast := rfl
@[simp] theorem State.answer_guardHits (s : State) (m : Message) : (s.answer m).guardHits = s.guardHits := rfl
@[simp] theorem State.answer_scrubNext (s : State) (m : Message) : (s.answer m).scrubNext = s.scrubNext := rfl
@[simp] theorem State.answer_scrubGain (s : State) (m : Message) : (s.answer m).scrubGain = s.scrubGain := rfl
@[simp] theorem State.answer_fernAwait (s : State) (m : Message) : (s.answer m).fernAwait = s.fernAwait := rfl
@[simp] theorem State.answer_ptp (s : State) (m : Message) : (s.answer m).ptp = s.ptp := rfl
@[simp] theorem State.answer_trigoutHighZ (s : State) (m : Message) : (s.answer m).trigoutHighZ = s.trigoutHighZ := rfl
@[simp] theorem State.answer_triginHigh (s : State) (m : Message) : (s.answer m).triginHigh = s.triginHigh := rfl
@[simp] theorem State.answer_tap (s : State) (m : Message) : (s.answer m).tap = s.tap := rfl
@[simp] theorem State.answer_dieTemp (s : State) (m : Message) : (s.answer m).dieTemp = s.dieTemp := rfl
@[simp] theorem State.answer_authTimes (s : State) (m : Message) : (s.answer m).authTimes = s.authTimes := rfl
@[simp] theorem State.answer_loadsDue (s : State) (m : Message) : (s.answer m).loadsDue = s.loadsDue := rfl
@[simp] theorem State.answer_freeCount (s : State) (m : Message) : (s.answer m).freeCount = s.freeCount := rfl
@[simp] theorem State.answer_out (s : State) (m : Message) : (s.answer m).out = s.out := rfl
@[simp] theorem State.answer_get (s : State) (m : Message) (j : Nat) : (s.answer m).get j = s.get j := rfl
@[simp] theorem State.answer_thread (s : State) (m : Message) (j : Nat) : (s.answer m).thread j = s.thread j := rfl
@[simp] theorem State.answer_slice (s : State) (m : Message) (j : Nat) : (s.answer m).slice j = s.slice j := rfl

@[simp] theorem State.withPending_objs (s : State) (q : List Instr) : (s.withPending q).objs = s.objs := rfl
@[simp] theorem State.withPending_answers (s : State) (q : List Instr) : (s.withPending q).answers = s.answers := rfl
@[simp] theorem State.withPending_mailbox (s : State) (q : List Instr) : (s.withPending q).mailbox = s.mailbox := rfl
@[simp] theorem State.withPending_mailboxDone (s : State) (q : List Instr) : (s.withPending q).mailboxDone = s.mailboxDone := rfl
@[simp] theorem State.withPending_sessions (s : State) (q : List Instr) : (s.withPending q).sessions = s.sessions := rfl
@[simp] theorem State.withPending_subs (s : State) (q : List Instr) : (s.withPending q).subs = s.subs := rfl
@[simp] theorem State.withPending_latches (s : State) (q : List Instr) : (s.withPending q).latches = s.latches := rfl
@[simp] theorem State.withPending_hotJump (s : State) (q : List Instr) : (s.withPending q).hotJump = s.hotJump := rfl
@[simp] theorem State.withPending_pcieUp (s : State) (q : List Instr) : (s.withPending q).pcieUp = s.pcieUp := rfl
@[simp] theorem State.withPending_msixMasked (s : State) (q : List Instr) : (s.withPending q).msixMasked = s.msixMasked := rfl
@[simp] theorem State.withPending_msixPending (s : State) (q : List Instr) : (s.withPending q).msixPending = s.msixPending := rfl
@[simp] theorem State.withPending_dma (s : State) (q : List Instr) : (s.withPending q).dma = s.dma := rfl
@[simp] theorem State.withPending_threads (s : State) (q : List Instr) : (s.withPending q).threads = s.threads := rfl
@[simp] theorem State.withPending_caches (s : State) (q : List Instr) : (s.withPending q).caches = s.caches := rfl
@[simp] theorem State.withPending_tokens (s : State) (q : List Instr) : (s.withPending q).tokens = s.tokens := rfl
@[simp] theorem State.withPending_slices (s : State) (q : List Instr) : (s.withPending q).slices = s.slices := rfl
@[simp] theorem State.withPending_laneBase (s : State) (q : List Instr) : (s.withPending q).laneBase = s.laneBase := rfl
@[simp] theorem State.withPending_lanes (s : State) (q : List Instr) : (s.withPending q).lanes = s.lanes := rfl
@[simp] theorem State.withPending_cells (s : State) (q : List Instr) : (s.withPending q).cells = s.cells := rfl
@[simp] theorem State.withPending_poison (s : State) (q : List Instr) : (s.withPending q).poison = s.poison := rfl
@[simp] theorem State.withPending_waitingWrites (s : State) (q : List Instr) : (s.withPending q).waitingWrites = s.waitingWrites := rfl
@[simp] theorem State.withPending_checkedPages (s : State) (q : List Instr) : (s.withPending q).checkedPages = s.checkedPages := rfl
@[simp] theorem State.withPending_mapChanged (s : State) (q : List Instr) : (s.withPending q).mapChanged = s.mapChanged := rfl
@[simp] theorem State.withPending_subchs (s : State) (q : List Instr) : (s.withPending q).subchs = s.subchs := rfl
@[simp] theorem State.withPending_ring (s : State) (q : List Instr) : (s.withPending q).ring = s.ring := rfl
@[simp] theorem State.withPending_fernAligned (s : State) (q : List Instr) : (s.withPending q).fernAligned = s.fernAligned := rfl
@[simp] theorem State.withPending_frefPresent (s : State) (q : List Instr) : (s.withPending q).frefPresent = s.frefPresent := rfl
@[simp] theorem State.withPending_clockFreq (s : State) (q : List Instr) : (s.withPending q).clockFreq = s.clockFreq := rfl
@[simp] theorem State.withPending_clockGood (s : State) (q : List Instr) : (s.withPending q).clockGood = s.clockGood := rfl
@[simp] theorem State.withPending_ptmAuto (s : State) (q : List Instr) : (s.withPending q).ptmAuto = s.ptmAuto := rfl
@[simp] theorem State.withPending_slots (s : State) (q : List Instr) : (s.withPending q).slots = s.slots := rfl
@[simp] theorem State.withPending_tius (s : State) (q : List Instr) : (s.withPending q).tius = s.tius := rfl
@[simp] theorem State.withPending_adcLeft (s : State) (q : List Instr) : (s.withPending q).adcLeft = s.adcLeft := rfl
@[simp] theorem State.withPending_acqs (s : State) (q : List Instr) : (s.withPending q).acqs = s.acqs := rfl
@[simp] theorem State.withPending_trigoutActive (s : State) (q : List Instr) : (s.withPending q).trigoutActive = s.trigoutActive := rfl
@[simp] theorem State.withPending_loadEdges (s : State) (q : List Instr) : (s.withPending q).loadEdges = s.loadEdges := rfl
@[simp] theorem State.withPending_badgerQueue (s : State) (q : List Instr) : (s.withPending q).badgerQueue = s.badgerQueue := rfl
@[simp] theorem State.withPending_calRan (s : State) (q : List Instr) : (s.withPending q).calRan = s.calRan := rfl
@[simp] theorem State.withPending_routine (s : State) (q : List Instr) : (s.withPending q).routine = s.routine := rfl
@[simp] theorem State.withPending_watch (s : State) (q : List Instr) : (s.withPending q).watch = s.watch := rfl
@[simp] theorem State.withPending_histRead (s : State) (q : List Instr) : (s.withPending q).histRead = s.histRead := rfl
@[simp] theorem State.withPending_liveLocs (s : State) (q : List Instr) : (s.withPending q).liveLocs = s.liveLocs := rfl
@[simp] theorem State.withPending_recoveries (s : State) (q : List Instr) : (s.withPending q).recoveries = s.recoveries := rfl
@[simp] theorem State.withPending_injection (s : State) (q : List Instr) : (s.withPending q).injection = s.injection := rfl
@[simp] theorem State.withPending_faultWindow (s : State) (q : List Instr) : (s.withPending q).faultWindow = s.faultWindow := rfl
@[simp] theorem State.withPending_faultIrqHeld (s : State) (q : List Instr) : (s.withPending q).faultIrqHeld = s.faultIrqHeld := rfl
@[simp] theorem State.withPending_recordIrqHeld (s : State) (q : List Instr) : (s.withPending q).recordIrqHeld = s.recordIrqHeld := rfl
@[simp] theorem State.withPending_machineCheck (s : State) (q : List Instr) : (s.withPending q).machineCheck = s.machineCheck := rfl
@[simp] theorem State.withPending_wdogKick (s : State) (q : List Instr) : (s.withPending q).wdogKick = s.wdogKick := rfl
@[simp] theorem State.withPending_entering (s : State) (q : List Instr) : (s.withPending q).entering = s.entering := rfl
@[simp] theorem State.withPending_guardStaged (s : State) (q : List Instr) : (s.withPending q).guardStaged = s.guardStaged := rfl
@[simp] theorem State.withPending_nvm (s : State) (q : List Instr) : (s.withPending q).nvm = s.nvm := rfl
@[simp] theorem State.withPending_ledger (s : State) (q : List Instr) : (s.withPending q).ledger = s.ledger := rfl
@[simp] theorem State.withPending_bootSeconds (s : State) (q : List Instr) : (s.withPending q).bootSeconds = s.bootSeconds := rfl
@[simp] theorem State.withPending_retainMode (s : State) (q : List Instr) : (s.withPending q).retainMode = s.retainMode := rfl
@[simp] theorem State.withPending_retainBurst (s : State) (q : List Instr) : (s.withPending q).retainBurst = s.retainBurst := rfl
@[simp] theorem State.withPending_retained (s : State) (q : List Instr) : (s.withPending q).retained = s.retained := rfl
@[simp] theorem State.withPending_resetSeen (s : State) (q : List Instr) : (s.withPending q).resetSeen = s.resetSeen := rfl
@[simp] theorem State.withPending_resetRails (s : State) (q : List Instr) : (s.withPending q).resetRails = s.resetRails := rfl
@[simp] theorem State.withPending_resetPending (s : State) (q : List Instr) : (s.withPending q).resetPending = s.resetPending := rfl
@[simp] theorem State.withPending_burst (s : State) (q : List Instr) : (s.withPending q).burst = s.burst := rfl
@[simp] theorem State.withPending_diag (s : State) (q : List Instr) : (s.withPending q).diag = s.diag := rfl
@[simp] theorem State.withPending_diagBytes (s : State) (q : List Instr) : (s.withPending q).diagBytes = s.diagBytes := rfl
@[simp] theorem State.withPending_fwSlotImage (s : State) (q : List Instr) : (s.withPending q).fwSlotImage = s.fwSlotImage := rfl
@[simp] theorem State.withPending_flagsPast (s : State) (q : List Instr) : (s.withPending q).flagsPast = s.flagsPast := rfl
@[simp] theorem State.withPending_lanePast (s : State) (q : List Instr) : (s.withPending q).lanePast = s.lanePast := rfl
@[simp] theorem State.withPending_guardHits (s : State) (q : List Instr) : (s.withPending q).guardHits = s.guardHits := rfl
@[simp] theorem State.withPending_scrubNext (s : State) (q : List Instr) : (s.withPending q).scrubNext = s.scrubNext := rfl
@[simp] theorem State.withPending_scrubGain (s : State) (q : List Instr) : (s.withPending q).scrubGain = s.scrubGain := rfl
@[simp] theorem State.withPending_fernAwait (s : State) (q : List Instr) : (s.withPending q).fernAwait = s.fernAwait := rfl
@[simp] theorem State.withPending_ptp (s : State) (q : List Instr) : (s.withPending q).ptp = s.ptp := rfl
@[simp] theorem State.withPending_trigoutHighZ (s : State) (q : List Instr) : (s.withPending q).trigoutHighZ = s.trigoutHighZ := rfl
@[simp] theorem State.withPending_triginHigh (s : State) (q : List Instr) : (s.withPending q).triginHigh = s.triginHigh := rfl
@[simp] theorem State.withPending_tap (s : State) (q : List Instr) : (s.withPending q).tap = s.tap := rfl
@[simp] theorem State.withPending_dieTemp (s : State) (q : List Instr) : (s.withPending q).dieTemp = s.dieTemp := rfl
@[simp] theorem State.withPending_authTimes (s : State) (q : List Instr) : (s.withPending q).authTimes = s.authTimes := rfl
@[simp] theorem State.withPending_loadsDue (s : State) (q : List Instr) : (s.withPending q).loadsDue = s.loadsDue := rfl
@[simp] theorem State.withPending_freeCount (s : State) (q : List Instr) : (s.withPending q).freeCount = s.freeCount := rfl
@[simp] theorem State.withPending_out (s : State) (q : List Instr) : (s.withPending q).out = s.out := rfl
@[simp] theorem State.withPending_get (s : State) (q : List Instr) (j : Nat) : (s.withPending q).get j = s.get j := rfl
@[simp] theorem State.withPending_thread (s : State) (q : List Instr) (j : Nat) : (s.withPending q).thread j = s.thread j := rfl
@[simp] theorem State.withPending_slice (s : State) (q : List Instr) (j : Nat) : (s.withPending q).slice j = s.slice j := rfl

end Sys2Proof.Machine
end

