-- ==== Sys2Proof/Laws/Access.lean ====
section
/-! SUPPORT. What an access of the dictionary does on a serving path, once for every command: its operation runs, one response follows, and nothing else differs but what
the operation changed. -/

namespace Sys2Proof.Machine

/-- A response appends one answer and draws at most a free value. -/
theorem respond_spec (s : State) (op : BitVec 8) (i k : Nat) (c : Code) : ∃ v n, s.respond op i k c = { s with answers := s.answers ++ [response op c i k v], freeCount := n } := by
  have h : s.valueAfter k = (s.value k, s) ∨ s.valueAfter k = s.free := by
    unfold State.valueAfter; split_ifs <;> simp
  unfold State.respond
  rcases h with h | h <;> rw [h] <;> exact ⟨_, _, rfl⟩

/-- On a serving path a write runs its operation and answers with its code. -/
theorem access_serves {s : State} {p : Path} (h : s.serves p) (i k : Nat) (op : State → Code × State) : s.access p i k op = (op s).2.respond 0x02 i k (op s).1 := by
  obtain ⟨h1, h2, h3, h4⟩ := h
  simp [State.access, h1, h2, h3, State.gate, h4]

/-- A list of conditions refuses nothing where the first does not hold and the rest refuse nothing. -/
theorem refuse_ok_cons {b : Bool} {c : Code} {r : List (Bool × Code)} (hc : c ≠ .ok) : refuse ((b, c) :: r) = .ok ↔ b = false ∧ refuse r = .ok := by
  cases b <;> simp [refuse, hc]

/-- The last answer is the response. -/
theorem respond_answered (s : State) (i k : Nat) (c : Code) : (s.respond 0x02 i k c).answered k c := by
  obtain ⟨v, n, h⟩ := respond_spec s 0x02 i k c
  rw [h]; exact ⟨i, v, by simp⟩

/-- A response changes no object. -/
theorem respond_objs (s : State) (op : BitVec 8) (i k : Nat) (c : Code) : (s.respond op i k c).objs = s.objs := by
  obtain ⟨v, n, h⟩ := respond_spec s op i k c; rw [h]

/-- A response changes no object, as it reads. -/
theorem respond_get (s : State) (op : BitVec 8) (i k : Nat) (c : Code) (j : Nat) : (s.respond op i k c).get j = s.get j := by
  simp only [State.get, respond_objs]

/-- Nothing differs between a state and itself. -/
theorem onlyObjects_refl (s : State) (ks : List Nat) : s.onlyObjects s ks := ⟨fun _ _ => rfl, rfl, rfl⟩

/-- A response adds nothing to what differs. -/
theorem onlyObjects_respond {s t : State} {ks : List Nat} (h : s.onlyObjects t ks) (op : BitVec 8) (i k : Nat) (c : Code) : s.onlyObjects (t.respond op i k c) ks := by
  obtain ⟨v, n, e⟩ := respond_spec t op i k c
  obtain ⟨h1, h2, h3⟩ := h
  refine ⟨fun j hj => by rw [respond_get]; exact h1 j hj, ?_, ?_⟩
  · rw [e]; exact h2
  · rw [e]; exact h3

/-- A change leaves who is subscribed to what. -/
theorem noteChange_subscribed (k : Nat) (l : List Subscription) : (noteChange k l).map (fun x => (x.dest, x.key, x.interval)) = l.map (fun x => (x.dest, x.key, x.interval)) := by
  simp [noteChange, Function.comp_def]; intro x _; split <;> simp

/-- A write of one of the objects named. -/
theorem onlyObjects_put {s t : State} {ks : List Nat} (h : s.onlyObjects t ks) {k : Nat} (hk : k ∈ ks) (v : Word) : s.onlyObjects (t.put k v) ks := by
  obtain ⟨h1, h2, h3⟩ := h
  refine ⟨fun j hj => ?_, ?_, ?_⟩
  · rw [State.get_put, if_neg (by rintro rfl; exact hj hk)]; exact h1 j hj
  · simp only [State.subscribed, State.put]; split
    · exact h2
    · rw [noteChange_subscribed]; exact h2
  · simpa [State.put] using h3

/-- A write of a field of one of the objects named. -/
theorem onlyObjects_putF {s t : State} {ks : List Nat} (h : s.onlyObjects t ks) {k : Nat} (hk : k ∈ ks) (a b v : Nat) : s.onlyObjects (t.putF k a b v) ks := onlyObjects_put h hk _

/-- LOAD_STATUS becoming STALE. -/
theorem onlyObjects_stale {s t : State} {ks : List Nat} (h : s.onlyObjects t ks) (hk : Key.loadStatus ∈ ks) : s.onlyObjects t.stale ks := by
  unfold State.stale; split
  · exact onlyObjects_putF h hk _ _ _
  · exact h

/-- A serving path is out of BOOT. -/
theorem accessMode_of_serves {s : State} {p : Path} (h : s.serves p) : s.mode ≠ Mode.boot := h.2.2.1

/-- A command that passes its checks is answered OK by its operation's state. -/
theorem access_ok {s t : State} {p : Path} {op : State → Code × State} (h : s.serves p) (i k : Nat) (e : op s = (.ok, t)) : s.access p i k op = t.respond 0x02 i k .ok := by
  rw [access_serves h, e]

/-- A command refused without an effect leaves every object. -/
theorem access_refused {s : State} {p : Path} {c : Code} {op : State → Code × State} (h : s.serves p) (i k : Nat) (e : op s = (c, s)) :
    s.onlyObjects (s.access p i k op) [] ∧ (s.access p 0 k op).answered k c := by
  rw [access_serves h, access_serves h, e]
  exact ⟨onlyObjects_respond (onlyObjects_refl s []) _ _ _ _, respond_answered _ _ _ _⟩

end Sys2Proof.Machine
end

