-- ==== Sys2Proof/Laws/Keeps.lean ====
section
/-! SUPPORT. What every operation keeps: the queue, the outputs posted, the free values drawn and the canonical form of the stores. One lemma for each way a state is
updated, and the rules that carry the property through folds and named intermediate states. -/

namespace Sys2Proof.Machine

/-- `t` extends `s`, and its stores are in canonical form where those of `s` are. -/
structure Keeps (s t : State) : Prop where
  ext : s.extends t
  canon : s.canonical = true → t.canonical = true

/-- The outcome, where it is a next state, keeps. -/
def OutKeeps (s : State) : Out → Prop
  | .next t => Keeps s t
  | .fault _ => True
  | .refused _ => True

theorem Keeps.refl (s : State) : Keeps s s := ⟨⟨rfl, List.prefix_refl _, Nat.le_refl _⟩, id⟩

theorem Keeps.trans {r s t : State} (h : Keeps r s) (k : Keeps s t) : Keeps r t :=
  ⟨⟨k.ext.1.trans h.ext.1, h.ext.2.1.trans k.ext.2.1, h.ext.2.2.trans k.ext.2.2⟩, fun c => k.canon (h.canon c)⟩

/-- An update of fields that hold no store, queue or output. -/
theorem Keeps.upd {r s : State} (h : Keeps r s) {xanswers xmailbox xmailboxDone xsessions xsubs xlatches xhotJump xpcieUp xmsixMasked xmsixPending xcaches xtokens xpoison xwaitingWrites xcheckedPages xmapChanged xring xfernAligned xfrefPresent xclockFreq xclockGood xptmAuto xslots xtius xadcLeft xtrigoutActive xloadEdges xbadgerQueue xcalRan xroutine xwatch xhistRead xliveLocs xrecoveries xinjection xfaultWindow xfaultIrqHeld xrecordIrqHeld xmachineCheck xwdogKick xentering xguardStaged xnvm xledger xbootSeconds xretainMode xretainBurst xretained xresetSeen xresetRails xresetPending xburst xdiag xdiagBytes xfwSlotImage xflagsPast xlanePast xguardHits xscrubNext xscrubGain xfernAwait xptp xtrigoutHighZ xtriginHigh xtap xdieTemp xauthTimes xloadsDue} :
    Keeps r ⟨s.pending, s.objs, xanswers, xmailbox, xmailboxDone, xsessions, xsubs, xlatches, xhotJump, xflagsPast, xpcieUp, xmsixMasked, xmsixPending, s.dma, s.threads, xcaches, xtokens, s.slices, s.laneBase, s.lanes, xlanePast, xguardHits, s.cells, xpoison, xwaitingWrites, xcheckedPages, xscrubNext, xscrubGain, xmapChanged, s.subchs, xring, xfernAligned, xfernAwait, xfrefPresent, xclockFreq, xclockGood, xptmAuto, xptp, xslots, xtius, xadcLeft, s.acqs, xtrigoutActive, xtrigoutHighZ, xtriginHigh, xloadEdges, xbadgerQueue, xcalRan, xroutine, xwatch, xhistRead, xliveLocs, xrecoveries, xinjection, xfaultWindow, xfaultIrqHeld, xrecordIrqHeld, xmachineCheck, xwdogKick, xentering, xguardStaged, xnvm, xledger, xbootSeconds, xretainMode, xretainBurst, xretained, xresetSeen, xresetRails, xresetPending, xburst, xdiag, xdiagBytes, xfwSlotImage, xtap, xdieTemp, xauthTimes, xloadsDue, s.freeCount, s.out⟩ := ⟨h.ext, h.canon⟩

theorem keeps_have {r x t : State} (h : Keeps r x) (k : Keeps r x → Keeps r t) : Keeps r t := k h

theorem keeps_have_fun {r t : State} {x : State → State} (h : ∀ u, Keeps r u → Keeps r (x u)) (k : (∀ u, Keeps r u → Keeps r (x u)) → Keeps r t) : Keeps r t := k h

theorem keeps_have_out {r x : State} {o : Out} (h : Keeps r x) (k : Keeps r x → OutKeeps r o) : OutKeeps r o := k h

theorem keeps_ite {r s t : State} {c : Prop} [Decidable c] (h : Keeps r s) (k : Keeps r t) : Keeps r (if c then s else t) := by split <;> assumption

theorem keeps_ite1 {β : Type} {r : State} {s t : State × β} {c : Prop} [Decidable c] (h : Keeps r s.1) (k : Keeps r t.1) : Keeps r (if c then s else t).1 := by split <;> assumption

theorem keeps_ite2 {β : Type} {r : State} {s t : β × State} {c : Prop} [Decidable c] (h : Keeps r s.2) (k : Keeps r t.2) : Keeps r (if c then s else t).2 := by split <;> assumption

theorem out_ite {r : State} {s t : Out} {c : Prop} [Decidable c] (h : OutKeeps r s) (k : OutKeeps r t) : OutKeeps r (if c then s else t) := by split <;> assumption

theorem keeps_fold {α : Type} {r s : State} (f : State → α → State) (l : List α) (h : Keeps r s) (hf : ∀ u x, Keeps r u → Keeps r (f u x)) : Keeps r (l.foldl f s) := by
  induction l generalizing s with
  | nil => exact h
  | cons a l ih => exact ih (hf _ _ h)

theorem keeps_fold1 {α β : Type} {r : State} {p : State × β} (f : State × β → α → State × β) (l : List α) (h : Keeps r p.1)
    (hf : ∀ u x, Keeps r u.1 → Keeps r (f u x).1) : Keeps r (l.foldl f p).1 := by
  induction l generalizing p with
  | nil => exact h
  | cons a l ih => exact ih (hf _ _ h)

theorem keeps_fold2 {α β : Type} {r : State} {p : β × State} (f : β × State → α → β × State) (l : List α) (h : Keeps r p.2)
    (hf : ∀ u x, Keeps r u.2 → Keeps r (f u x).2) : Keeps r (l.foldl f p).2 := by
  induction l generalizing p with
  | nil => exact h
  | cons a l ih => exact ih (hf _ _ h)

theorem out_next {r t : State} (h : Keeps r t) : OutKeeps r (.next t) := h

theorem out_fault {r : State} {f : Fault} : OutKeeps r (.fault f) := trivial

theorem out_within {r t : State} {n c : Nat} (h : Keeps r t) : OutKeeps r (within n c t) := by
  unfold within
  split
  · exact h
  · trivial

/-! ## The stores of the state -/

theorem canonical_iff (s : State) : s.canonical = true ↔
    storeWf shipped s.objs = true ∧ Memory.wf s.cells = true ∧ storeWf (fun _ => Thread.idle) s.threads = true ∧ storeWf (fun _ => SliceSt.rest) s.slices = true ∧
      storeWf (fun _ => s.laneBase) s.lanes = true ∧ storeWf (fun _ => SubchSt.rest) s.subchs = true ∧ storeWf (fun _ => DmaChan.rest) s.dma = true ∧
        storeWf (fun _ => AcqSt.rest) s.acqs = true := by
  simp [State.canonical, and_assoc]

/-- An update of objs, and of fields that hold no store. -/
theorem Keeps.updObjs {r s : State} (h : Keeps r s) {k : Nat} {v : Word} {xanswers xmailbox xmailboxDone xsessions xsubs xlatches xhotJump xpcieUp xmsixMasked xmsixPending xcaches xtokens xpoison xwaitingWrites xcheckedPages xmapChanged xring xfernAligned xfrefPresent xclockFreq xclockGood xptmAuto xslots xtius xadcLeft xtrigoutActive xloadEdges xbadgerQueue xcalRan xroutine xwatch xhistRead xliveLocs xrecoveries xinjection xfaultWindow xfaultIrqHeld xrecordIrqHeld xmachineCheck xwdogKick xentering xguardStaged xnvm xledger xbootSeconds xretainMode xretainBurst xretained xresetSeen xresetRails xresetPending xburst xdiag xdiagBytes xfwSlotImage xflagsPast xlanePast xguardHits xscrubNext xscrubGain xfernAwait xptp xtrigoutHighZ xtriginHigh xtap xdieTemp xauthTimes xloadsDue} :
    Keeps r ⟨s.pending, mset (shipped k) s.objs k v, xanswers, xmailbox, xmailboxDone, xsessions, xsubs, xlatches, xhotJump, xflagsPast, xpcieUp, xmsixMasked, xmsixPending, s.dma, s.threads, xcaches, xtokens, s.slices, s.laneBase, s.lanes, xlanePast, xguardHits, s.cells, xpoison, xwaitingWrites, xcheckedPages, xscrubNext, xscrubGain, xmapChanged, s.subchs, xring, xfernAligned, xfernAwait, xfrefPresent, xclockFreq, xclockGood, xptmAuto, xptp, xslots, xtius, xadcLeft, s.acqs, xtrigoutActive, xtrigoutHighZ, xtriginHigh, xloadEdges, xbadgerQueue, xcalRan, xroutine, xwatch, xhistRead, xliveLocs, xrecoveries, xinjection, xfaultWindow, xfaultIrqHeld, xrecordIrqHeld, xmachineCheck, xwdogKick, xentering, xguardStaged, xnvm, xledger, xbootSeconds, xretainMode, xretainBurst, xretained, xresetSeen, xresetRails, xresetPending, xburst, xdiag, xdiagBytes, xfwSlotImage, xtap, xdieTemp, xauthTimes, xloadsDue, s.freeCount, s.out⟩ := by
  refine ⟨h.ext, fun c => ?_⟩
  have hc := h.canon c
  rw [canonical_iff] at hc ⊢
  obtain ⟨h1, h2, h3, h4, h5, h6, h7, h8⟩ := hc
  exact ⟨mset_wf shipped _ _ _ h1, h2, h3, h4, h5, h6, h7, h8⟩

/-- An update of cells, and of fields that hold no store. -/
theorem Keeps.updCells {r s : State} (h : Keeps r s) {m : List Host.Cell} {xanswers xmailbox xmailboxDone xsessions xsubs xlatches xhotJump xpcieUp xmsixMasked xmsixPending xcaches xtokens xpoison xwaitingWrites xcheckedPages xmapChanged xring xfernAligned xfrefPresent xclockFreq xclockGood xptmAuto xslots xtius xadcLeft xtrigoutActive xloadEdges xbadgerQueue xcalRan xroutine xwatch xhistRead xliveLocs xrecoveries xinjection xfaultWindow xfaultIrqHeld xrecordIrqHeld xmachineCheck xwdogKick xentering xguardStaged xnvm xledger xbootSeconds xretainMode xretainBurst xretained xresetSeen xresetRails xresetPending xburst xdiag xdiagBytes xfwSlotImage xflagsPast xlanePast xguardHits xscrubNext xscrubGain xfernAwait xptp xtrigoutHighZ xtriginHigh xtap xdieTemp xauthTimes xloadsDue} (hm : Memory.wf s.cells = true → Memory.wf m = true) :
    Keeps r ⟨s.pending, s.objs, xanswers, xmailbox, xmailboxDone, xsessions, xsubs, xlatches, xhotJump, xflagsPast, xpcieUp, xmsixMasked, xmsixPending, s.dma, s.threads, xcaches, xtokens, s.slices, s.laneBase, s.lanes, xlanePast, xguardHits, m, xpoison, xwaitingWrites, xcheckedPages, xscrubNext, xscrubGain, xmapChanged, s.subchs, xring, xfernAligned, xfernAwait, xfrefPresent, xclockFreq, xclockGood, xptmAuto, xptp, xslots, xtius, xadcLeft, s.acqs, xtrigoutActive, xtrigoutHighZ, xtriginHigh, xloadEdges, xbadgerQueue, xcalRan, xroutine, xwatch, xhistRead, xliveLocs, xrecoveries, xinjection, xfaultWindow, xfaultIrqHeld, xrecordIrqHeld, xmachineCheck, xwdogKick, xentering, xguardStaged, xnvm, xledger, xbootSeconds, xretainMode, xretainBurst, xretained, xresetSeen, xresetRails, xresetPending, xburst, xdiag, xdiagBytes, xfwSlotImage, xtap, xdieTemp, xauthTimes, xloadsDue, s.freeCount, s.out⟩ := by
  refine ⟨h.ext, fun c => ?_⟩
  have hc := h.canon c
  rw [canonical_iff] at hc ⊢
  obtain ⟨h1, h2, h3, h4, h5, h6, h7, h8⟩ := hc
  exact ⟨h1, hm h2, h3, h4, h5, h6, h7, h8⟩

/-- An update of threads, and of fields that hold no store. -/
theorem Keeps.updThreads {r s : State} (h : Keeps r s) {k : Nat} {v : Thread} {xanswers xmailbox xmailboxDone xsessions xsubs xlatches xhotJump xpcieUp xmsixMasked xmsixPending xcaches xtokens xpoison xwaitingWrites xcheckedPages xmapChanged xring xfernAligned xfrefPresent xclockFreq xclockGood xptmAuto xslots xtius xadcLeft xtrigoutActive xloadEdges xbadgerQueue xcalRan xroutine xwatch xhistRead xliveLocs xrecoveries xinjection xfaultWindow xfaultIrqHeld xrecordIrqHeld xmachineCheck xwdogKick xentering xguardStaged xnvm xledger xbootSeconds xretainMode xretainBurst xretained xresetSeen xresetRails xresetPending xburst xdiag xdiagBytes xfwSlotImage xflagsPast xlanePast xguardHits xscrubNext xscrubGain xfernAwait xptp xtrigoutHighZ xtriginHigh xtap xdieTemp xauthTimes xloadsDue} :
    Keeps r ⟨s.pending, s.objs, xanswers, xmailbox, xmailboxDone, xsessions, xsubs, xlatches, xhotJump, xflagsPast, xpcieUp, xmsixMasked, xmsixPending, s.dma, mset Thread.idle s.threads k v, xcaches, xtokens, s.slices, s.laneBase, s.lanes, xlanePast, xguardHits, s.cells, xpoison, xwaitingWrites, xcheckedPages, xscrubNext, xscrubGain, xmapChanged, s.subchs, xring, xfernAligned, xfernAwait, xfrefPresent, xclockFreq, xclockGood, xptmAuto, xptp, xslots, xtius, xadcLeft, s.acqs, xtrigoutActive, xtrigoutHighZ, xtriginHigh, xloadEdges, xbadgerQueue, xcalRan, xroutine, xwatch, xhistRead, xliveLocs, xrecoveries, xinjection, xfaultWindow, xfaultIrqHeld, xrecordIrqHeld, xmachineCheck, xwdogKick, xentering, xguardStaged, xnvm, xledger, xbootSeconds, xretainMode, xretainBurst, xretained, xresetSeen, xresetRails, xresetPending, xburst, xdiag, xdiagBytes, xfwSlotImage, xtap, xdieTemp, xauthTimes, xloadsDue, s.freeCount, s.out⟩ := by
  refine ⟨h.ext, fun c => ?_⟩
  have hc := h.canon c
  rw [canonical_iff] at hc ⊢
  obtain ⟨h1, h2, h3, h4, h5, h6, h7, h8⟩ := hc
  exact ⟨h1, h2, mset_wf (fun _ => Thread.idle) _ _ _ h3, h4, h5, h6, h7, h8⟩

/-- An update of slices, and of fields that hold no store. -/
theorem Keeps.updSlices {r s : State} (h : Keeps r s) {k : Nat} {v : SliceSt} {xanswers xmailbox xmailboxDone xsessions xsubs xlatches xhotJump xpcieUp xmsixMasked xmsixPending xcaches xtokens xpoison xwaitingWrites xcheckedPages xmapChanged xring xfernAligned xfrefPresent xclockFreq xclockGood xptmAuto xslots xtius xadcLeft xtrigoutActive xloadEdges xbadgerQueue xcalRan xroutine xwatch xhistRead xliveLocs xrecoveries xinjection xfaultWindow xfaultIrqHeld xrecordIrqHeld xmachineCheck xwdogKick xentering xguardStaged xnvm xledger xbootSeconds xretainMode xretainBurst xretained xresetSeen xresetRails xresetPending xburst xdiag xdiagBytes xfwSlotImage xflagsPast xlanePast xguardHits xscrubNext xscrubGain xfernAwait xptp xtrigoutHighZ xtriginHigh xtap xdieTemp xauthTimes xloadsDue} :
    Keeps r ⟨s.pending, s.objs, xanswers, xmailbox, xmailboxDone, xsessions, xsubs, xlatches, xhotJump, xflagsPast, xpcieUp, xmsixMasked, xmsixPending, s.dma, s.threads, xcaches, xtokens, mset SliceSt.rest s.slices k v, s.laneBase, s.lanes, xlanePast, xguardHits, s.cells, xpoison, xwaitingWrites, xcheckedPages, xscrubNext, xscrubGain, xmapChanged, s.subchs, xring, xfernAligned, xfernAwait, xfrefPresent, xclockFreq, xclockGood, xptmAuto, xptp, xslots, xtius, xadcLeft, s.acqs, xtrigoutActive, xtrigoutHighZ, xtriginHigh, xloadEdges, xbadgerQueue, xcalRan, xroutine, xwatch, xhistRead, xliveLocs, xrecoveries, xinjection, xfaultWindow, xfaultIrqHeld, xrecordIrqHeld, xmachineCheck, xwdogKick, xentering, xguardStaged, xnvm, xledger, xbootSeconds, xretainMode, xretainBurst, xretained, xresetSeen, xresetRails, xresetPending, xburst, xdiag, xdiagBytes, xfwSlotImage, xtap, xdieTemp, xauthTimes, xloadsDue, s.freeCount, s.out⟩ := by
  refine ⟨h.ext, fun c => ?_⟩
  have hc := h.canon c
  rw [canonical_iff] at hc ⊢
  obtain ⟨h1, h2, h3, h4, h5, h6, h7, h8⟩ := hc
  exact ⟨h1, h2, h3, mset_wf (fun _ => SliceSt.rest) _ _ _ h4, h5, h6, h7, h8⟩

/-- An update of lanes, and of fields that hold no store. -/
theorem Keeps.updLanes {r s : State} (h : Keeps r s) {k : Nat} {v : LaneLevel} {xanswers xmailbox xmailboxDone xsessions xsubs xlatches xhotJump xpcieUp xmsixMasked xmsixPending xcaches xtokens xpoison xwaitingWrites xcheckedPages xmapChanged xring xfernAligned xfrefPresent xclockFreq xclockGood xptmAuto xslots xtius xadcLeft xtrigoutActive xloadEdges xbadgerQueue xcalRan xroutine xwatch xhistRead xliveLocs xrecoveries xinjection xfaultWindow xfaultIrqHeld xrecordIrqHeld xmachineCheck xwdogKick xentering xguardStaged xnvm xledger xbootSeconds xretainMode xretainBurst xretained xresetSeen xresetRails xresetPending xburst xdiag xdiagBytes xfwSlotImage xflagsPast xlanePast xguardHits xscrubNext xscrubGain xfernAwait xptp xtrigoutHighZ xtriginHigh xtap xdieTemp xauthTimes xloadsDue} :
    Keeps r ⟨s.pending, s.objs, xanswers, xmailbox, xmailboxDone, xsessions, xsubs, xlatches, xhotJump, xflagsPast, xpcieUp, xmsixMasked, xmsixPending, s.dma, s.threads, xcaches, xtokens, s.slices, s.laneBase, mset s.laneBase s.lanes k v, xlanePast, xguardHits, s.cells, xpoison, xwaitingWrites, xcheckedPages, xscrubNext, xscrubGain, xmapChanged, s.subchs, xring, xfernAligned, xfernAwait, xfrefPresent, xclockFreq, xclockGood, xptmAuto, xptp, xslots, xtius, xadcLeft, s.acqs, xtrigoutActive, xtrigoutHighZ, xtriginHigh, xloadEdges, xbadgerQueue, xcalRan, xroutine, xwatch, xhistRead, xliveLocs, xrecoveries, xinjection, xfaultWindow, xfaultIrqHeld, xrecordIrqHeld, xmachineCheck, xwdogKick, xentering, xguardStaged, xnvm, xledger, xbootSeconds, xretainMode, xretainBurst, xretained, xresetSeen, xresetRails, xresetPending, xburst, xdiag, xdiagBytes, xfwSlotImage, xtap, xdieTemp, xauthTimes, xloadsDue, s.freeCount, s.out⟩ := by
  refine ⟨h.ext, fun c => ?_⟩
  have hc := h.canon c
  rw [canonical_iff] at hc ⊢
  obtain ⟨h1, h2, h3, h4, h5, h6, h7, h8⟩ := hc
  exact ⟨h1, h2, h3, h4, mset_wf (fun _ => s.laneBase) _ _ _ h5, h6, h7, h8⟩

/-- An update of laneBase, lanes, and of fields that hold no store. -/
theorem Keeps.updAllLanes {r s : State} (h : Keeps r s) {l : LaneLevel} {xanswers xmailbox xmailboxDone xsessions xsubs xlatches xhotJump xpcieUp xmsixMasked xmsixPending xcaches xtokens xpoison xwaitingWrites xcheckedPages xmapChanged xring xfernAligned xfrefPresent xclockFreq xclockGood xptmAuto xslots xtius xadcLeft xtrigoutActive xloadEdges xbadgerQueue xcalRan xroutine xwatch xhistRead xliveLocs xrecoveries xinjection xfaultWindow xfaultIrqHeld xrecordIrqHeld xmachineCheck xwdogKick xentering xguardStaged xnvm xledger xbootSeconds xretainMode xretainBurst xretained xresetSeen xresetRails xresetPending xburst xdiag xdiagBytes xfwSlotImage xflagsPast xlanePast xguardHits xscrubNext xscrubGain xfernAwait xptp xtrigoutHighZ xtriginHigh xtap xdieTemp xauthTimes xloadsDue} :
    Keeps r ⟨s.pending, s.objs, xanswers, xmailbox, xmailboxDone, xsessions, xsubs, xlatches, xhotJump, xflagsPast, xpcieUp, xmsixMasked, xmsixPending, s.dma, s.threads, xcaches, xtokens, s.slices, l, [], xlanePast, xguardHits, s.cells, xpoison, xwaitingWrites, xcheckedPages, xscrubNext, xscrubGain, xmapChanged, s.subchs, xring, xfernAligned, xfernAwait, xfrefPresent, xclockFreq, xclockGood, xptmAuto, xptp, xslots, xtius, xadcLeft, s.acqs, xtrigoutActive, xtrigoutHighZ, xtriginHigh, xloadEdges, xbadgerQueue, xcalRan, xroutine, xwatch, xhistRead, xliveLocs, xrecoveries, xinjection, xfaultWindow, xfaultIrqHeld, xrecordIrqHeld, xmachineCheck, xwdogKick, xentering, xguardStaged, xnvm, xledger, xbootSeconds, xretainMode, xretainBurst, xretained, xresetSeen, xresetRails, xresetPending, xburst, xdiag, xdiagBytes, xfwSlotImage, xtap, xdieTemp, xauthTimes, xloadsDue, s.freeCount, s.out⟩ := by
  refine ⟨h.ext, fun c => ?_⟩
  have hc := h.canon c
  rw [canonical_iff] at hc ⊢
  obtain ⟨h1, h2, h3, h4, h5, h6, h7, h8⟩ := hc
  exact ⟨h1, h2, h3, h4, storeWf_nil _, h6, h7, h8⟩

/-- An update of subchs, and of fields that hold no store. -/
theorem Keeps.updSubchs {r s : State} (h : Keeps r s) {k : Nat} {v : SubchSt} {xanswers xmailbox xmailboxDone xsessions xsubs xlatches xhotJump xpcieUp xmsixMasked xmsixPending xcaches xtokens xpoison xwaitingWrites xcheckedPages xmapChanged xring xfernAligned xfrefPresent xclockFreq xclockGood xptmAuto xslots xtius xadcLeft xtrigoutActive xloadEdges xbadgerQueue xcalRan xroutine xwatch xhistRead xliveLocs xrecoveries xinjection xfaultWindow xfaultIrqHeld xrecordIrqHeld xmachineCheck xwdogKick xentering xguardStaged xnvm xledger xbootSeconds xretainMode xretainBurst xretained xresetSeen xresetRails xresetPending xburst xdiag xdiagBytes xfwSlotImage xflagsPast xlanePast xguardHits xscrubNext xscrubGain xfernAwait xptp xtrigoutHighZ xtriginHigh xtap xdieTemp xauthTimes xloadsDue} :
    Keeps r ⟨s.pending, s.objs, xanswers, xmailbox, xmailboxDone, xsessions, xsubs, xlatches, xhotJump, xflagsPast, xpcieUp, xmsixMasked, xmsixPending, s.dma, s.threads, xcaches, xtokens, s.slices, s.laneBase, s.lanes, xlanePast, xguardHits, s.cells, xpoison, xwaitingWrites, xcheckedPages, xscrubNext, xscrubGain, xmapChanged, mset SubchSt.rest s.subchs k v, xring, xfernAligned, xfernAwait, xfrefPresent, xclockFreq, xclockGood, xptmAuto, xptp, xslots, xtius, xadcLeft, s.acqs, xtrigoutActive, xtrigoutHighZ, xtriginHigh, xloadEdges, xbadgerQueue, xcalRan, xroutine, xwatch, xhistRead, xliveLocs, xrecoveries, xinjection, xfaultWindow, xfaultIrqHeld, xrecordIrqHeld, xmachineCheck, xwdogKick, xentering, xguardStaged, xnvm, xledger, xbootSeconds, xretainMode, xretainBurst, xretained, xresetSeen, xresetRails, xresetPending, xburst, xdiag, xdiagBytes, xfwSlotImage, xtap, xdieTemp, xauthTimes, xloadsDue, s.freeCount, s.out⟩ := by
  refine ⟨h.ext, fun c => ?_⟩
  have hc := h.canon c
  rw [canonical_iff] at hc ⊢
  obtain ⟨h1, h2, h3, h4, h5, h6, h7, h8⟩ := hc
  exact ⟨h1, h2, h3, h4, h5, mset_wf (fun _ => SubchSt.rest) _ _ _ h6, h7, h8⟩

/-- An update of dma, and of fields that hold no store. -/
theorem Keeps.updDma {r s : State} (h : Keeps r s) {k : Nat} {v : DmaChan} {xanswers xmailbox xmailboxDone xsessions xsubs xlatches xhotJump xpcieUp xmsixMasked xmsixPending xcaches xtokens xpoison xwaitingWrites xcheckedPages xmapChanged xring xfernAligned xfrefPresent xclockFreq xclockGood xptmAuto xslots xtius xadcLeft xtrigoutActive xloadEdges xbadgerQueue xcalRan xroutine xwatch xhistRead xliveLocs xrecoveries xinjection xfaultWindow xfaultIrqHeld xrecordIrqHeld xmachineCheck xwdogKick xentering xguardStaged xnvm xledger xbootSeconds xretainMode xretainBurst xretained xresetSeen xresetRails xresetPending xburst xdiag xdiagBytes xfwSlotImage xflagsPast xlanePast xguardHits xscrubNext xscrubGain xfernAwait xptp xtrigoutHighZ xtriginHigh xtap xdieTemp xauthTimes xloadsDue} :
    Keeps r ⟨s.pending, s.objs, xanswers, xmailbox, xmailboxDone, xsessions, xsubs, xlatches, xhotJump, xflagsPast, xpcieUp, xmsixMasked, xmsixPending, mset DmaChan.rest s.dma k v, s.threads, xcaches, xtokens, s.slices, s.laneBase, s.lanes, xlanePast, xguardHits, s.cells, xpoison, xwaitingWrites, xcheckedPages, xscrubNext, xscrubGain, xmapChanged, s.subchs, xring, xfernAligned, xfernAwait, xfrefPresent, xclockFreq, xclockGood, xptmAuto, xptp, xslots, xtius, xadcLeft, s.acqs, xtrigoutActive, xtrigoutHighZ, xtriginHigh, xloadEdges, xbadgerQueue, xcalRan, xroutine, xwatch, xhistRead, xliveLocs, xrecoveries, xinjection, xfaultWindow, xfaultIrqHeld, xrecordIrqHeld, xmachineCheck, xwdogKick, xentering, xguardStaged, xnvm, xledger, xbootSeconds, xretainMode, xretainBurst, xretained, xresetSeen, xresetRails, xresetPending, xburst, xdiag, xdiagBytes, xfwSlotImage, xtap, xdieTemp, xauthTimes, xloadsDue, s.freeCount, s.out⟩ := by
  refine ⟨h.ext, fun c => ?_⟩
  have hc := h.canon c
  rw [canonical_iff] at hc ⊢
  obtain ⟨h1, h2, h3, h4, h5, h6, h7, h8⟩ := hc
  exact ⟨h1, h2, h3, h4, h5, h6, mset_wf (fun _ => DmaChan.rest) _ _ _ h7, h8⟩

/-- An update of dma, and of fields that hold no store. -/
theorem Keeps.updNoDma {r s : State} (h : Keeps r s)  {xanswers xmailbox xmailboxDone xsessions xsubs xlatches xhotJump xpcieUp xmsixMasked xmsixPending xcaches xtokens xpoison xwaitingWrites xcheckedPages xmapChanged xring xfernAligned xfrefPresent xclockFreq xclockGood xptmAuto xslots xtius xadcLeft xtrigoutActive xloadEdges xbadgerQueue xcalRan xroutine xwatch xhistRead xliveLocs xrecoveries xinjection xfaultWindow xfaultIrqHeld xrecordIrqHeld xmachineCheck xwdogKick xentering xguardStaged xnvm xledger xbootSeconds xretainMode xretainBurst xretained xresetSeen xresetRails xresetPending xburst xdiag xdiagBytes xfwSlotImage xflagsPast xlanePast xguardHits xscrubNext xscrubGain xfernAwait xptp xtrigoutHighZ xtriginHigh xtap xdieTemp xauthTimes xloadsDue} :
    Keeps r ⟨s.pending, s.objs, xanswers, xmailbox, xmailboxDone, xsessions, xsubs, xlatches, xhotJump, xflagsPast, xpcieUp, xmsixMasked, xmsixPending, [], s.threads, xcaches, xtokens, s.slices, s.laneBase, s.lanes, xlanePast, xguardHits, s.cells, xpoison, xwaitingWrites, xcheckedPages, xscrubNext, xscrubGain, xmapChanged, s.subchs, xring, xfernAligned, xfernAwait, xfrefPresent, xclockFreq, xclockGood, xptmAuto, xptp, xslots, xtius, xadcLeft, s.acqs, xtrigoutActive, xtrigoutHighZ, xtriginHigh, xloadEdges, xbadgerQueue, xcalRan, xroutine, xwatch, xhistRead, xliveLocs, xrecoveries, xinjection, xfaultWindow, xfaultIrqHeld, xrecordIrqHeld, xmachineCheck, xwdogKick, xentering, xguardStaged, xnvm, xledger, xbootSeconds, xretainMode, xretainBurst, xretained, xresetSeen, xresetRails, xresetPending, xburst, xdiag, xdiagBytes, xfwSlotImage, xtap, xdieTemp, xauthTimes, xloadsDue, s.freeCount, s.out⟩ := by
  refine ⟨h.ext, fun c => ?_⟩
  have hc := h.canon c
  rw [canonical_iff] at hc ⊢
  obtain ⟨h1, h2, h3, h4, h5, h6, h7, h8⟩ := hc
  exact ⟨h1, h2, h3, h4, h5, h6, storeWf_nil _, h8⟩

/-- An update of acqs, and of fields that hold no store. -/
theorem Keeps.updAcqs {r s : State} (h : Keeps r s) {k : Nat} {v : AcqSt} {xanswers xmailbox xmailboxDone xsessions xsubs xlatches xhotJump xpcieUp xmsixMasked xmsixPending xcaches xtokens xpoison xwaitingWrites xcheckedPages xmapChanged xring xfernAligned xfrefPresent xclockFreq xclockGood xptmAuto xslots xtius xadcLeft xtrigoutActive xloadEdges xbadgerQueue xcalRan xroutine xwatch xhistRead xliveLocs xrecoveries xinjection xfaultWindow xfaultIrqHeld xrecordIrqHeld xmachineCheck xwdogKick xentering xguardStaged xnvm xledger xbootSeconds xretainMode xretainBurst xretained xresetSeen xresetRails xresetPending xburst xdiag xdiagBytes xfwSlotImage xflagsPast xlanePast xguardHits xscrubNext xscrubGain xfernAwait xptp xtrigoutHighZ xtriginHigh xtap xdieTemp xauthTimes xloadsDue} :
    Keeps r ⟨s.pending, s.objs, xanswers, xmailbox, xmailboxDone, xsessions, xsubs, xlatches, xhotJump, xflagsPast, xpcieUp, xmsixMasked, xmsixPending, s.dma, s.threads, xcaches, xtokens, s.slices, s.laneBase, s.lanes, xlanePast, xguardHits, s.cells, xpoison, xwaitingWrites, xcheckedPages, xscrubNext, xscrubGain, xmapChanged, s.subchs, xring, xfernAligned, xfernAwait, xfrefPresent, xclockFreq, xclockGood, xptmAuto, xptp, xslots, xtius, xadcLeft, mset AcqSt.rest s.acqs k v, xtrigoutActive, xtrigoutHighZ, xtriginHigh, xloadEdges, xbadgerQueue, xcalRan, xroutine, xwatch, xhistRead, xliveLocs, xrecoveries, xinjection, xfaultWindow, xfaultIrqHeld, xrecordIrqHeld, xmachineCheck, xwdogKick, xentering, xguardStaged, xnvm, xledger, xbootSeconds, xretainMode, xretainBurst, xretained, xresetSeen, xresetRails, xresetPending, xburst, xdiag, xdiagBytes, xfwSlotImage, xtap, xdieTemp, xauthTimes, xloadsDue, s.freeCount, s.out⟩ := by
  refine ⟨h.ext, fun c => ?_⟩
  have hc := h.canon c
  rw [canonical_iff] at hc ⊢
  obtain ⟨h1, h2, h3, h4, h5, h6, h7, h8⟩ := hc
  exact ⟨h1, h2, h3, h4, h5, h6, h7, mset_wf (fun _ => AcqSt.rest) _ _ _ h8⟩

/-- An update of cells, subchs, and of fields that hold no store. -/
theorem Keeps.updTrain {r s : State} (h : Keeps r s)  {xanswers xmailbox xmailboxDone xsessions xsubs xlatches xhotJump xpcieUp xmsixMasked xmsixPending xcaches xtokens xpoison xwaitingWrites xcheckedPages xmapChanged xring xfernAligned xfrefPresent xclockFreq xclockGood xptmAuto xslots xtius xadcLeft xtrigoutActive xloadEdges xbadgerQueue xcalRan xroutine xwatch xhistRead xliveLocs xrecoveries xinjection xfaultWindow xfaultIrqHeld xrecordIrqHeld xmachineCheck xwdogKick xentering xguardStaged xnvm xledger xbootSeconds xretainMode xretainBurst xretained xresetSeen xresetRails xresetPending xburst xdiag xdiagBytes xfwSlotImage xflagsPast xlanePast xguardHits xscrubNext xscrubGain xfernAwait xptp xtrigoutHighZ xtriginHigh xtap xdieTemp xauthTimes xloadsDue} :
    Keeps r ⟨s.pending, s.objs, xanswers, xmailbox, xmailboxDone, xsessions, xsubs, xlatches, xhotJump, xflagsPast, xpcieUp, xmsixMasked, xmsixPending, s.dma, s.threads, xcaches, xtokens, s.slices, s.laneBase, s.lanes, xlanePast, xguardHits, [], xpoison, xwaitingWrites, xcheckedPages, xscrubNext, xscrubGain, xmapChanged, [], xring, xfernAligned, xfernAwait, xfrefPresent, xclockFreq, xclockGood, xptmAuto, xptp, xslots, xtius, xadcLeft, s.acqs, xtrigoutActive, xtrigoutHighZ, xtriginHigh, xloadEdges, xbadgerQueue, xcalRan, xroutine, xwatch, xhistRead, xliveLocs, xrecoveries, xinjection, xfaultWindow, xfaultIrqHeld, xrecordIrqHeld, xmachineCheck, xwdogKick, xentering, xguardStaged, xnvm, xledger, xbootSeconds, xretainMode, xretainBurst, xretained, xresetSeen, xresetRails, xresetPending, xburst, xdiag, xdiagBytes, xfwSlotImage, xtap, xdieTemp, xauthTimes, xloadsDue, s.freeCount, s.out⟩ := by
  refine ⟨h.ext, fun c => ?_⟩
  have hc := h.canon c
  rw [canonical_iff] at hc ⊢
  obtain ⟨h1, h2, h3, h4, h5, h6, h7, h8⟩ := hc
  exact ⟨h1, rfl, h3, h4, h5, storeWf_nil _, h7, h8⟩

/-- The cells are emptied, as TRAIN and a map build do. -/
theorem Keeps.updNoCells {r s : State} (h : Keeps r s) {xanswers xmailbox xmailboxDone xsessions xsubs xlatches xhotJump xpcieUp xmsixMasked xmsixPending xcaches xtokens xpoison xwaitingWrites xcheckedPages xmapChanged xring xfernAligned xfrefPresent xclockFreq xclockGood xptmAuto xslots xtius xadcLeft xtrigoutActive xloadEdges xbadgerQueue xcalRan xroutine xwatch xhistRead xliveLocs xrecoveries xinjection xfaultWindow xfaultIrqHeld xrecordIrqHeld xmachineCheck xwdogKick xentering xguardStaged xnvm xledger xbootSeconds xretainMode xretainBurst xretained xresetSeen xresetRails xresetPending xburst xdiag xdiagBytes xfwSlotImage xflagsPast xlanePast xguardHits xscrubNext xscrubGain xfernAwait xptp xtrigoutHighZ xtriginHigh xtap xdieTemp xauthTimes xloadsDue} :
    Keeps r ⟨s.pending, s.objs, xanswers, xmailbox, xmailboxDone, xsessions, xsubs, xlatches, xhotJump, xflagsPast, xpcieUp, xmsixMasked, xmsixPending, s.dma, s.threads, xcaches, xtokens, s.slices, s.laneBase, s.lanes, xlanePast, xguardHits, [], xpoison, xwaitingWrites, xcheckedPages, xscrubNext, xscrubGain, xmapChanged, s.subchs, xring, xfernAligned, xfernAwait, xfrefPresent, xclockFreq, xclockGood, xptmAuto, xptp, xslots, xtius, xadcLeft, s.acqs, xtrigoutActive, xtrigoutHighZ, xtriginHigh, xloadEdges, xbadgerQueue, xcalRan, xroutine, xwatch, xhistRead, xliveLocs, xrecoveries, xinjection, xfaultWindow, xfaultIrqHeld, xrecordIrqHeld, xmachineCheck, xwdogKick, xentering, xguardStaged, xnvm, xledger, xbootSeconds, xretainMode, xretainBurst, xretained, xresetSeen, xresetRails, xresetPending, xburst, xdiag, xdiagBytes, xfwSlotImage, xtap, xdieTemp, xauthTimes, xloadsDue, s.freeCount, s.out⟩ := h.updCells (fun _ => rfl)

/-- An output is posted after those before it. -/
theorem Keeps.updOut {r s : State} (h : Keeps r s) {l : List Output} {xanswers xmailbox xmailboxDone xsessions xsubs xlatches xhotJump xpcieUp xmsixMasked xmsixPending xcaches xtokens xpoison xwaitingWrites xcheckedPages xmapChanged xring xfernAligned xfrefPresent xclockFreq xclockGood xptmAuto xslots xtius xadcLeft xtrigoutActive xloadEdges xbadgerQueue xcalRan xroutine xwatch xhistRead xliveLocs xrecoveries xinjection xfaultWindow xfaultIrqHeld xrecordIrqHeld xmachineCheck xwdogKick xentering xguardStaged xnvm xledger xbootSeconds xretainMode xretainBurst xretained xresetSeen xresetRails xresetPending xburst xdiag xdiagBytes xfwSlotImage xflagsPast xlanePast xguardHits xscrubNext xscrubGain xfernAwait xptp xtrigoutHighZ xtriginHigh xtap xdieTemp xauthTimes xloadsDue} :
    Keeps r ⟨s.pending, s.objs, xanswers, xmailbox, xmailboxDone, xsessions, xsubs, xlatches, xhotJump, xflagsPast, xpcieUp, xmsixMasked, xmsixPending, s.dma, s.threads, xcaches, xtokens, s.slices, s.laneBase, s.lanes, xlanePast, xguardHits, s.cells, xpoison, xwaitingWrites, xcheckedPages, xscrubNext, xscrubGain, xmapChanged, s.subchs, xring, xfernAligned, xfernAwait, xfrefPresent, xclockFreq, xclockGood, xptmAuto, xptp, xslots, xtius, xadcLeft, s.acqs, xtrigoutActive, xtrigoutHighZ, xtriginHigh, xloadEdges, xbadgerQueue, xcalRan, xroutine, xwatch, xhistRead, xliveLocs, xrecoveries, xinjection, xfaultWindow, xfaultIrqHeld, xrecordIrqHeld, xmachineCheck, xwdogKick, xentering, xguardStaged, xnvm, xledger, xbootSeconds, xretainMode, xretainBurst, xretained, xresetSeen, xresetRails, xresetPending, xburst, xdiag, xdiagBytes, xfwSlotImage, xtap, xdieTemp, xauthTimes, xloadsDue, s.freeCount, s.out ++ l⟩ :=
  ⟨⟨h.ext.1, h.ext.2.1.trans (List.prefix_append _ _), h.ext.2.2⟩, h.canon⟩

/-- Free values are drawn. -/
theorem Keeps.updFree {r s : State} (h : Keeps r s) {n : Nat} {xanswers xmailbox xmailboxDone xsessions xsubs xlatches xhotJump xpcieUp xmsixMasked xmsixPending xcaches xtokens xpoison xwaitingWrites xcheckedPages xmapChanged xring xfernAligned xfrefPresent xclockFreq xclockGood xptmAuto xslots xtius xadcLeft xtrigoutActive xloadEdges xbadgerQueue xcalRan xroutine xwatch xhistRead xliveLocs xrecoveries xinjection xfaultWindow xfaultIrqHeld xrecordIrqHeld xmachineCheck xwdogKick xentering xguardStaged xnvm xledger xbootSeconds xretainMode xretainBurst xretained xresetSeen xresetRails xresetPending xburst xdiag xdiagBytes xfwSlotImage xflagsPast xlanePast xguardHits xscrubNext xscrubGain xfernAwait xptp xtrigoutHighZ xtriginHigh xtap xdieTemp xauthTimes xloadsDue} :
    Keeps r ⟨s.pending, s.objs, xanswers, xmailbox, xmailboxDone, xsessions, xsubs, xlatches, xhotJump, xflagsPast, xpcieUp, xmsixMasked, xmsixPending, s.dma, s.threads, xcaches, xtokens, s.slices, s.laneBase, s.lanes, xlanePast, xguardHits, s.cells, xpoison, xwaitingWrites, xcheckedPages, xscrubNext, xscrubGain, xmapChanged, s.subchs, xring, xfernAligned, xfernAwait, xfrefPresent, xclockFreq, xclockGood, xptmAuto, xptp, xslots, xtius, xadcLeft, s.acqs, xtrigoutActive, xtrigoutHighZ, xtriginHigh, xloadEdges, xbadgerQueue, xcalRan, xroutine, xwatch, xhistRead, xliveLocs, xrecoveries, xinjection, xfaultWindow, xfaultIrqHeld, xrecordIrqHeld, xmachineCheck, xwdogKick, xentering, xguardStaged, xnvm, xledger, xbootSeconds, xretainMode, xretainBurst, xretained, xresetSeen, xresetRails, xresetPending, xburst, xdiag, xdiagBytes, xfwSlotImage, xtap, xdieTemp, xauthTimes, xloadsDue, s.freeCount + n, s.out⟩ :=
  ⟨⟨h.ext.1, h.ext.2.1, h.ext.2.2.trans (Nat.le_add_right _ _)⟩, h.canon⟩

/-- Bytes written keep the canonical form of DDR5. -/
theorem setBytes_wf (m : List Host.Cell) (a : Nat) (bs : List Byte) (h : Memory.wf m = true) : Memory.wf (setBytes m a bs) = true := by
  induction bs generalizing m a with
  | nil => exact h
  | cons b bs ih => exact ih _ _ (mset_wf (fun _ => 0) m a b h)

end Sys2Proof.Machine
end

