-- ==== Sys2Proof/Laws/KeepsStore.lean ====
section
/-! SUPPORT. What the operations of Machine/Store.lean keep. -/

set_option linter.all false

namespace Sys2Proof.Machine

theorem State.put_keeps {r : State} {a1} {a2} {a3} (h1 : Keeps r a1) : Keeps r (State.put a1 a2 a3) := by
  delta State.put
  exact Keeps.updObjs h1

theorem State.putF_keeps {r : State} {a1} {a2} {a3} {a4} {a5} (h1 : Keeps r a1) : Keeps r (State.putF a1 a2 a3 a4 a5) := by
  delta State.putF
  with_reducible repeat' first
    | assumption
    | apply State.put_keeps
    | (intro; try beta_reduce)
    | apply_assumption

theorem State.putThread_keeps {r : State} {a1} {a2} {a3} (h1 : Keeps r a1) : Keeps r (State.putThread a1 a2 a3) := by
  delta State.putThread
  exact Keeps.updThreads h1

theorem State.putSlice_keeps {r : State} {a1} {a2} {a3} (h1 : Keeps r a1) : Keeps r (State.putSlice a1 a2 a3) := by
  delta State.putSlice
  exact Keeps.updSlices h1

end Sys2Proof.Machine
end

