-- ==== Sys2Proof/Laws/KeepsFlags.lean ====
section
/-! SUPPORT. What the operations of Machine/Flags.lean keep. -/

set_option linter.all false

namespace Sys2Proof.Machine

theorem State.cmdRun_keeps {r : State} {a1} {a2} {a3} (h1 : Keeps r a1) : Keeps r (State.cmdRun a1 a2 a3) := by
  delta State.cmdRun
  with_reducible repeat' first
    | assumption
    | apply State.put_keeps
    | (intro; try beta_reduce)
    | apply_assumption

theorem State.cmdPend_keeps {r : State} {a1} {a2} {a3} (h1 : Keeps r a1) : Keeps r (State.cmdPend a1 a2 a3) := by
  delta State.cmdPend
  with_reducible repeat' first
    | assumption
    | apply State.put_keeps
    | (intro; try beta_reduce)
    | apply_assumption

theorem State.cmdDone_keeps {r : State} {a1} {a2} {a3} (h1 : Keeps r a1) : Keeps r (State.cmdDone a1 a2 a3) := by
  delta State.cmdDone
  with_reducible repeat' first
    | assumption
    | apply State.put_keeps
    | (intro; try beta_reduce)
    | apply_assumption

theorem State.cmdFail_keeps {r : State} {a1} {a2} {a3} {a4} (h1 : Keeps r a1) : Keeps r (State.cmdFail a1 a2 a3 a4) := by
  delta State.cmdFail
  with_reducible repeat' first
    | assumption
    | apply State.put_keeps
    | (intro; try beta_reduce)
    | apply_assumption

theorem State.setThreadSt_keeps {r : State} {a1} {a2} {a3} (h1 : Keeps r a1) : Keeps r (State.setThreadSt a1 a2 a3) := by
  delta State.setThreadSt
  with_reducible repeat' first
    | assumption
    | apply State.putF_keeps
    | (intro; try beta_reduce)
    | apply_assumption

theorem State.setMapBit_keeps {r : State} {a1} {a2 : Nat → Nat} {a3} (h1 : Keeps r a1) : Keeps r (State.setMapBit a1 a2 a3) := by
  delta State.setMapBit
  with_reducible repeat' first
    | assumption
    | apply State.put_keeps
    | (intro; try beta_reduce)
    | apply_assumption

theorem State.siteFails_keeps {r : State} {a1} {a2} {a3} (h1 : Keeps r a1) : Keeps r (State.siteFails a1 a2 a3) := by
  delta State.siteFails
  with_reducible repeat' first
    | assumption
    | apply State.putF_keeps
    | apply State.setMapBit_keeps
    | (extract_lets +onlyGivenNames x; refine keeps_have (x := x) ?_ ?_; (on_goal 1 => dsimp -zeta only [x]; clear x); (on_goal 2 => (intro _; clear_value x; rename' x => y)))
    | (intro; try beta_reduce)
    | apply_assumption

theorem State.stale_keeps {r : State} {a1} (h1 : Keeps r a1) : Keeps r (State.stale a1) := by
  delta State.stale
  with_reducible repeat' first
    | assumption
    | apply State.putF_keeps
    | (intro; try beta_reduce)
    | refine keeps_ite ?_ ?_
    | split
    | apply_assumption

theorem State.count_keeps {r : State} {a1} {a2} {a3} (h1 : Keeps r a1) : Keeps r (State.count a1 a2 a3) := by
  delta State.count
  with_reducible repeat' first
    | assumption
    | apply State.put_keeps
    | (intro; try beta_reduce)
    | apply_assumption

theorem State.countBy_keeps {r : State} {a1} {a2} {a3} {a4} (h1 : Keeps r a1) : Keeps r (State.countBy a1 a2 a3 a4) := by
  delta State.countBy
  with_reducible repeat' first
    | assumption
    | apply State.put_keeps
    | (intro; try beta_reduce)
    | apply_assumption

theorem State.countSat_keeps {r : State} {a1} {a2} {a3} {a4} (h1 : Keeps r a1) : Keeps r (State.countSat a1 a2 a3 a4) := by
  delta State.countSat
  with_reducible repeat' first
    | assumption
    | apply State.put_keeps
    | (intro; try beta_reduce)
    | apply_assumption

end Sys2Proof.Machine
end

