-- ==== Sys2Proof/Laws/KeepsOps.lean ====
section
/-! SUPPORT. What the operations of Machine/Ops.lean keep. -/

set_option linter.all false

namespace Sys2Proof.Machine

theorem within_keeps {r : State} {a1} {a2} {a3} (h3 : Keeps r a3) : OutKeeps r (within a1 a2 a3) := by
  delta within
  with_reducible repeat' first
    | assumption
    | (intro; try beta_reduce)
    | refine out_next ?_
    | refine out_ite ?_ ?_
    | refine keeps_ite ?_ ?_
    | split
    | apply_assumption

theorem State.emit_keeps {r : State} {a1} {a2} (h1 : Keeps r a1) : Keeps r (State.emit a1 a2) := by
  delta State.emit
  exact Keeps.updOut h1

theorem State.free_keeps {r : State} {a1} (h1 : Keeps r a1) : Keeps r (State.free a1).2 := by
  delta State.free
  exact Keeps.updFree h1

theorem State.freeChoice_keeps {r : State} {a1} (h1 : Keeps r a1) : Keeps r (State.freeChoice a1).2 := by
  delta State.freeChoice
  exact Keeps.updFree h1

theorem State.signal_keeps {r : State} {a1} {a2} (h1 : Keeps r a1) : Keeps r (State.signal a1 a2) := by
  delta State.signal
  with_reducible repeat' first
    | assumption
    | apply State.emit_keeps
    | (intro; try beta_reduce)
    | exact Keeps.upd (by assumption)
    | refine keeps_ite ?_ ?_
    | split
    | apply_assumption

theorem State.irq_keeps {r : State} {a1} {a2} (h1 : Keeps r a1) : Keeps r (State.irq a1 a2) := by
  delta State.irq
  with_reducible repeat' first
    | assumption
    | apply State.signal_keeps
    | (intro; try beta_reduce)
    | apply_assumption

theorem State.faultIrq_keeps {r : State} {a1} (h1 : Keeps r a1) : Keeps r (State.faultIrq a1) := by
  delta State.faultIrq
  with_reducible repeat' first
    | assumption
    | apply State.irq_keeps
    | (extract_lets +onlyGivenNames x; refine keeps_have (x := x) ?_ ?_; (on_goal 1 => dsimp -zeta only [x]; clear x); (on_goal 2 => (intro _; clear_value x; rename' x => y)))
    | (intro; try beta_reduce)
    | exact Keeps.upd (by assumption)
    | refine keeps_ite ?_ ?_
    | split
    | apply_assumption

theorem State.showTrigout_keeps {r : State} {a1} {a2} (h1 : Keeps r a1) : Keeps r (State.showTrigout a1 a2) := by
  delta State.showTrigout
  with_reducible repeat' first
    | assumption
    | apply State.emit_keeps
    | (intro; try beta_reduce)
    | apply_assumption

theorem State.stopTrigouts_keeps {r : State} {a1} (h1 : Keeps r a1) : Keeps r (State.stopTrigouts a1) := by
  delta State.stopTrigouts
  with_reducible repeat' first
    | assumption
    | apply State.showTrigout_keeps
    | refine keeps_fold _ _ ?_ ?_
    | (intro; try beta_reduce)
    | exact Keeps.upd (by assumption)
    | apply_assumption

theorem State.floatTrigouts_keeps {r : State} {a1} (h1 : Keeps r a1) : Keeps r (State.floatTrigouts a1) := by
  delta State.floatTrigouts
  with_reducible repeat' first
    | assumption
    | apply State.showTrigout_keeps
    | refine keeps_fold _ _ ?_ ?_
    | (intro; try beta_reduce)
    | exact Keeps.upd (by assumption)
    | apply_assumption

theorem State.driveTrigouts_keeps {r : State} {a1} (h1 : Keeps r a1) : Keeps r (State.driveTrigouts a1) := by
  delta State.driveTrigouts
  with_reducible repeat' first
    | assumption
    | apply State.showTrigout_keeps
    | refine keeps_fold _ _ ?_ ?_
    | (intro; try beta_reduce)
    | exact Keeps.upd (by assumption)
    | refine keeps_ite ?_ ?_
    | split
    | apply_assumption

theorem State.tick_keeps {r : State} {a1} (h1 : Keeps r a1) : Keeps r (State.tick a1) := by
  delta State.tick
  with_reducible repeat' first
    | assumption
    | apply State.put_keeps
    | (extract_lets +onlyGivenNames x; first | (refine keeps_have (x := x) ?_ ?_; (on_goal 1 => dsimp -zeta only [x]; clear x); (on_goal 2 => (intro _; clear_value x; rename' x => y))) | (clear_value x; rename' x => y))
    | (intro; try beta_reduce)
    | refine keeps_ite ?_ ?_
    | split
    | apply_assumption

theorem State.putAcq_keeps {r : State} {a1} {a2} {a3} (h1 : Keeps r a1) : Keeps r (State.putAcq a1 a2 a3) := by
  delta State.putAcq
  exact Keeps.updAcqs h1

theorem State.flagRecord_keeps {r : State} {a1} {a2} (h1 : Keeps r a1) : Keeps r (State.flagRecord a1 a2) := by
  delta State.flagRecord
  with_reducible repeat' first
    | assumption
    | apply State.putAcq_keeps
    | (extract_lets +onlyGivenNames x; clear_value x; rename' x => y)
    | (intro; try beta_reduce)
    | split
    | apply_assumption

theorem State.setLane_keeps {r : State} {a1} {a2} {a3} (h1 : Keeps r a1) : Keeps r (State.setLane a1 a2 a3) := by
  delta State.setLane
  exact Keeps.updLanes h1

theorem State.driveLane_keeps {r : State} {a1} {a2} {a3} (h1 : Keeps r a1) : Keeps r (State.driveLane a1 a2 a3) := by
  delta State.driveLane
  refine keeps_ite (State.setLane_keeps h1) ?_
  exact keeps_ite (Keeps.upd (State.setLane_keeps (a1 := a1) h1)) (Keeps.upd (State.setLane_keeps h1))

theorem State.allLanes_keeps {r : State} {a1} {a2} (h1 : Keeps r a1) : Keeps r (State.allLanes a1 a2) := by
  delta State.allLanes
  with_reducible repeat' first
    | assumption
    | (extract_lets +onlyGivenNames x; first | (refine keeps_have (x := x) ?_ ?_; (on_goal 1 => dsimp -zeta only [x]; clear x); (on_goal 2 => (intro _; clear_value x; rename' x => y))) | (clear_value x; rename' x => y))
    | refine keeps_fold _ _ ?_ ?_
    | (intro; try beta_reduce)
    | exact Keeps.upd (by assumption)
    | exact Keeps.updAllLanes (by assumption)
    | exact Keeps.updLanes (by assumption)
    | refine keeps_ite ?_ ?_
    | split
    | apply_assumption

theorem State.drivePort_keeps {r : State} {a1} {a2} {a3} (h1 : Keeps r a1) : Keeps r (State.drivePort a1 a2 a3) := by
  delta State.drivePort
  with_reducible repeat' first
    | assumption
    | apply State.driveLane_keeps
    | refine keeps_fold _ _ ?_ ?_
    | (intro; try beta_reduce)
    | apply_assumption

theorem State.stimulate_keeps {r : State} {a1} {a2} (h1 : Keeps r a1) : Keeps r (State.stimulate a1 a2) := by
  delta State.stimulate
  exact keeps_fold _ _ h1 (fun t sl ht => keeps_fold _ _ ht (fun u c hu => Keeps.updLanes hu))

theorem State.writeBytes_keeps {r : State} {a1} {a2} {a3} (h1 : Keeps r a1) : Keeps r (State.writeBytes a1 a2 a3) := by
  delta State.writeBytes
  have hs : ∀ t, Keeps r t → Keeps r (if (t.get Key.dramFill).toNat < a2 + a3.length then { t with waitingWrites := t.waitingWrites ++ [(a2, a3)] }
      else { t with cells := setBytes t.cells a2 a3, poison := t.poison.filter (fun b => !(decide (a2 ≤ 64 * b) && decide (64 * b + 64 ≤ a2 + a3.length))) }) := by
    intro t ht
    split
    · exact Keeps.upd ht
    · exact Keeps.updCells ht (setBytes_wf _ _ _)
  apply hs
  refine Keeps.upd ?_
  split
  · exact State.stale_keeps h1
  · exact h1

theorem State.answer_keeps {r : State} {a1} {a2} (h1 : Keeps r a1) : Keeps r (State.answer a1 a2) := by
  delta State.answer
  with_reducible repeat' first
    | assumption
    | (intro; try beta_reduce)
    | exact Keeps.upd (by assumption)
    | apply_assumption

theorem State.bbWrite_keeps {r : State} {a1} {a2} {a3} (h1 : Keeps r a1) : Keeps r (State.bbWrite a1 a2 a3) := by
  delta State.bbWrite
  with_reducible repeat' first
    | assumption
    | apply State.put_keeps
    | apply State.count_keeps
    | (extract_lets +onlyGivenNames x; first | ((first | refine keeps_have (x := x) ?_ ?_ | refine keeps_have_fun (x := x) ?_ ?_); (on_goal 1 => dsimp -zeta only [x]; clear x); (on_goal 2 => (intro _; clear_value x; rename' x => y))) | (clear_value x; rename' x => y))
    | (intro; try beta_reduce)
    | exact Keeps.upd (by assumption)
    | refine keeps_ite ?_ ?_
    | split
    | apply_assumption

/-- A token drawn keeps. -/
theorem State.drawToken_some {r s t : State} {c : Nat} (h : Keeps r s) (e : s.drawToken c = some t) : Keeps r t := by
  unfold State.drawToken at e
  dsimp only at e
  split at e
  · cases e
  · cases e
    exact State.put_keeps h

theorem State.bbBudget_keeps {r : State} {a1} {a2} {a3} (h1 : Keeps r a1) : Keeps r (State.bbBudget a1 a2 a3) := by
  delta State.bbBudget
  with_reducible repeat' first
    | assumption
    | apply State.bbWrite_keeps
    | apply State.count_keeps
    | (intro; try beta_reduce)
    | split
    | exact State.drawToken_some (e := ‹State.drawToken _ _ = some _›) (h := by assumption)
    | apply_assumption

end Sys2Proof.Machine
end

