-- ==== Sys2Proof/Laws/KeepsCapture.lean ====
section
/-! SUPPORT. What the operations of Machine/Capture.lean keep. -/

set_option linter.all false

namespace Sys2Proof.Machine

theorem State.sigReset_keeps {r : State} {a1} {a2} {a3} (h1 : Keeps r a1) : Keeps r (State.sigReset a1 a2 a3) := by
  delta State.sigReset
  with_reducible repeat' first
    | assumption
    | apply State.put_keeps
    | (intro; try beta_reduce)
    | apply_assumption

theorem State.failOverflow_keeps {r : State} {a1} {a2} {a3} {a4} (h1 : Keeps r a1) : Keeps r (State.failOverflow a1 a2 a3 a4) := by
  delta State.failOverflow
  with_reducible repeat' first
    | assumption
    | apply State.countBy_keeps
    | apply State.putF_keeps
    | apply State.putThread_keeps
    | (extract_lets +onlyGivenNames x; first | (refine keeps_have (x := x) ?_ ?_; (on_goal 1 => dsimp -zeta only [x]; clear x); (on_goal 2 => (intro _; clear_value x; rename' x => y))) | (clear_value x; rename' x => y))
    | (intro; try beta_reduce)
    | apply_assumption

theorem State.admitFail_keeps {r : State} {a1} {a2} {a3} {a4} {a5} {a6} {a7} (h1 : Keeps r a1) : Keeps r (State.admitFail a1 a2 a3 a4 a5 a6 a7) := by
  delta State.admitFail
  with_reducible repeat' first
    | assumption
    | apply State.failOverflow_keeps
    | apply State.putF_keeps
    | (extract_lets +onlyGivenNames x; first | (refine keeps_have (x := x) ?_ ?_; (on_goal 1 => dsimp -zeta only [x]; clear x); (on_goal 2 => (intro _; clear_value x; rename' x => y))) | (clear_value x; rename' x => y))
    | (intro; try beta_reduce)
    | exact Keeps.upd (by assumption)
    | refine keeps_ite ?_ ?_
    | split
    | apply_assumption

theorem State.unstage_keeps {r : State} {a1} (h1 : Keeps r a1) : Keeps r (State.unstage a1) := by
  delta State.unstage
  with_reducible repeat' first
    | assumption
    | (extract_lets +onlyGivenNames x; clear_value x; rename' x => y)
    | (intro; try beta_reduce)
    | exact Keeps.upd (by assumption)
    | apply_assumption

theorem State.dropStaged_keeps {r : State} {a1} (h1 : Keeps r a1) : Keeps r (State.dropStaged a1) := by
  delta State.dropStaged
  with_reducible repeat' first
    | assumption
    | apply State.failOverflow_keeps
    | apply State.unstage_keeps
    | (intro; try beta_reduce)
    | split
    | apply_assumption

theorem State.writeStaged_keeps {r : State} {a1} {a2} (h1 : Keeps r a1) : Keeps r (State.writeStaged a1 a2) := by
  delta State.writeStaged
  with_reducible repeat' first
    | assumption
    | apply State.writeBytes_keeps
    | apply State.unstage_keeps
    | apply State.countBy_keeps
    | apply State.count_keeps
    | (extract_lets +onlyGivenNames x; first | (refine keeps_have (x := x) ?_ ?_; (on_goal 1 => dsimp -zeta only [x]; clear x); (on_goal 2 => (intro _; clear_value x; rename' x => y))) | (clear_value x; rename' x => y))
    | (intro; try beta_reduce)
    | apply_assumption

theorem State.putJudge_keeps {r : State} {a1} {a2} {a3} (h1 : Keeps r a1) : Keeps r (State.putJudge a1 a2 a3) := by
  delta State.putJudge
  with_reducible repeat' first
    | assumption
    | (extract_lets +onlyGivenNames x; clear_value x; rename' x => y)
    | (intro; try beta_reduce)
    | exact Keeps.upd (by assumption)
    | apply_assumption

theorem State.feedCapture_keeps {r : State} {a1} {a2} {a3} (h1 : Keeps r a1) : Keeps r (State.feedCapture a1 a2 a3) := by
  delta State.feedCapture
  with_reducible repeat' first
    | assumption
    | apply State.putJudge_keeps
    | (extract_lets +onlyGivenNames x; clear_value x; rename' x => y)
    | refine keeps_fold _ _ ?_ ?_
    | (intro; try beta_reduce)
    | refine keeps_ite ?_ ?_
    | split
    | apply_assumption

theorem State.frameLost_keeps {r : State} {a1} (h1 : Keeps r a1) : Keeps r (State.frameLost a1).2 := by
  delta State.frameLost
  with_reducible repeat' first
    | assumption
    | apply State.freeChoice_keeps
    | (intro; try beta_reduce)
    | refine keeps_ite ?_ ?_
    | refine keeps_ite2 ?_ ?_
    | split
    | apply_assumption

theorem State.writeFrame_keeps {r : State} {a1} {a2} {a3} {a4} (h1 : Keeps r a1) : Keeps r (State.writeFrame a1 a2 a3 a4) := by
  delta State.writeFrame
  with_reducible repeat' first
    | assumption
    | apply State.frameLost_keeps
    | apply State.putThread_keeps
    | apply State.putF_keeps
    | apply State.count_keeps
    | apply State.countBy_keeps
    | apply State.writeBytes_keeps
    | (extract_lets +onlyGivenNames x; first | (refine keeps_have (x := x.2) ?_ ?_; (on_goal 1 => dsimp -zeta only [x]; clear x); (on_goal 2 => (intro _; clear_value x; rename' x => y))) | (clear_value x; rename' x => y))
    | (intro; try beta_reduce)
    | refine keeps_ite ?_ ?_
    | refine keeps_ite2 ?_ ?_
    | split
    | apply_assumption

theorem State.closeFrame_keeps {r : State} {a1} {a2} (h1 : Keeps r a1) : Keeps r (State.closeFrame a1 a2) := by
  delta State.closeFrame
  with_reducible repeat' first
    | assumption
    | apply State.writeFrame_keeps
    | apply State.putThread_keeps
    | apply State.putF_keeps
    | (extract_lets +onlyGivenNames x; first | (refine keeps_have (x := x) ?_ ?_; (on_goal 1 => dsimp -zeta only [x]; clear x); (on_goal 2 => (intro _; clear_value x; rename' x => y))) | (clear_value x; rename' x => y))
    | (intro; try beta_reduce)
    | exact Keeps.upd (by assumption)
    | refine keeps_ite ?_ ?_
    | split
    | apply_assumption

theorem State.capCycle_keeps {r : State} {a1} {a2} {a3} {a4} {a5} {a6} (h1 : Keeps r a1) : Keeps r (State.capCycle a1 a2 a3 a4 a5 a6) := by
  delta State.capCycle
  extract_lets f b s'
  have hx : Keeps r s' := Keeps.upd h1
  clear_value s'
  split
  · exact State.closeFrame_keeps hx
  · exact hx

theorem State.endCapture_keeps {r : State} {a1} {a2} (h1 : Keeps r a1) : Keeps r (State.endCapture a1 a2) := by
  delta State.endCapture
  with_reducible repeat' first
    | assumption
    | apply State.closeFrame_keeps
    | refine keeps_fold _ _ ?_ ?_
    | (intro; try beta_reduce)
    | apply_assumption

end Sys2Proof.Machine
end

