-- ==== Sys2Proof/Laws/KeepsStops.lean ====
section
/-! SUPPORT. What the operations of Machine/Stops.lean keep. -/

set_option linter.all false

namespace Sys2Proof.Machine

theorem State.takeCredits_keeps {r : State} {a1} {a2} (h1 : Keeps r a1) : Keeps r (State.takeCredits a1 a2) := by
  delta State.takeCredits
  with_reducible repeat' first
    | assumption
    | apply State.putSlice_keeps
    | (extract_lets +onlyGivenNames x; clear_value x; rename' x => y)
    | refine keeps_fold _ _ ?_ ?_
    | (intro; try beta_reduce)
    | apply_assumption

theorem State.returnCredits_keeps {r : State} {a1} {a2} {a3} (h1 : Keeps r a1) : Keeps r (State.returnCredits a1 a2 a3) := by
  delta State.returnCredits
  with_reducible repeat' first
    | assumption
    | apply State.putSlice_keeps
    | (extract_lets +onlyGivenNames x; clear_value x; rename' x => y)
    | refine keeps_fold _ _ ?_ ?_
    | (intro; try beta_reduce)
    | apply_assumption

theorem State.oweCredit_keeps {r : State} {a1} {a2} (h1 : Keeps r a1) : Keeps r (State.oweCredit a1 a2) := by
  delta State.oweCredit
  with_reducible repeat' first
    | assumption
    | apply State.putSlice_keeps
    | (extract_lets +onlyGivenNames x; clear_value x; rename' x => y)
    | refine keeps_fold _ _ ?_ ?_
    | (intro; try beta_reduce)
    | apply_assumption

theorem State.putCounts_keeps {r : State} {a1} {a2} {a3} {a4 : CycleCounts → CycleCounts} (h1 : Keeps r a1) : Keeps r (State.putCounts a1 a2 a3 a4) := by
  delta State.putCounts
  with_reducible repeat' first
    | assumption
    | apply State.putSlice_keeps
    | (extract_lets +onlyGivenNames x; clear_value x; rename' x => y)
    | refine keeps_fold _ _ ?_ ?_
    | (intro; try beta_reduce)
    | apply_assumption

theorem State.countIssued_keeps {r : State} {a1} {a2} {a3} (h1 : Keeps r a1) : Keeps r (State.countIssued a1 a2 a3) := by
  delta State.countIssued
  with_reducible repeat' first
    | assumption
    | apply State.countBy_keeps
    | apply State.putCounts_keeps
    | (intro; try beta_reduce)
    | apply_assumption

theorem State.countBack_keeps {r : State} {a1} {a2} {a3} (h1 : Keeps r a1) : Keeps r (State.countBack a1 a2 a3) := by
  delta State.countBack
  with_reducible repeat' first
    | assumption
    | apply State.put_keeps
    | apply State.putCounts_keeps
    | (intro; try beta_reduce)
    | apply_assumption

theorem State.countExecuted_keeps {r : State} {a1} {a2} (h1 : Keeps r a1) : Keeps r (State.countExecuted a1 a2) := by
  delta State.countExecuted
  with_reducible repeat' first
    | assumption
    | apply State.putCounts_keeps
    | apply State.countBy_keeps
    | (extract_lets +onlyGivenNames x; refine keeps_have (x := x) ?_ ?_; (on_goal 1 => dsimp -zeta only [x]; clear x); (on_goal 2 => (intro _; clear_value x; rename' x => y)))
    | (intro; try beta_reduce)
    | refine keeps_ite ?_ ?_
    | split
    | apply_assumption

theorem State.countFlushed_keeps {r : State} {a1} {a2} {a3} (h1 : Keeps r a1) : Keeps r (State.countFlushed a1 a2 a3) := by
  delta State.countFlushed
  with_reducible repeat' first
    | assumption
    | apply State.putCounts_keeps
    | apply State.countBy_keeps
    | (extract_lets +onlyGivenNames x; first | (refine keeps_have (x := x) ?_ ?_; (on_goal 1 => dsimp -zeta only [x]; clear x); (on_goal 2 => (intro _; clear_value x; rename' x => y))) | (clear_value x; rename' x => y))
    | (intro; try beta_reduce)
    | refine keeps_ite ?_ ?_
    | split
    | apply_assumption

theorem State.maskSite_keeps {r : State} {a1} {a2} {a3} {a4} {a5} {a6} (h1 : Keeps r a1) : Keeps r (State.maskSite a1 a2 a3 a4 a5 a6) := by
  delta State.maskSite
  with_reducible repeat' first
    | assumption
    | apply State.putThread_keeps
    | apply State.putF_keeps
    | apply State.setMapBit_keeps
    | apply State.put_keeps
    | (extract_lets +onlyGivenNames x; first | (refine keeps_have (x := x) ?_ ?_; (on_goal 1 => dsimp -zeta only [x]; clear x); (on_goal 2 => (intro _; clear_value x; rename' x => y))) | (clear_value x; rename' x => y))
    | (intro; try beta_reduce)
    | exact Keeps.upd (by assumption)
    | refine keeps_ite ?_ ?_
    | split
    | apply_assumption

theorem State.stopLane_keeps {r : State} {a1} {a2} {a3} {a4} (h1 : Keeps r a1) : Keeps r (State.stopLane a1 a2 a3 a4) := by
  delta State.stopLane
  with_reducible repeat' first
    | assumption
    | apply State.driveLane_keeps
    | apply State.emit_keeps
    | (extract_lets +onlyGivenNames x; first | (refine keeps_have (x := x) ?_ ?_; (on_goal 1 => dsimp -zeta only [x]; clear x); (on_goal 2 => (intro _; clear_value x; rename' x => y))) | (clear_value x; rename' x => y))
    | (intro; try beta_reduce)
    | refine keeps_ite ?_ ?_
    | split
    | apply_assumption

theorem State.stopLanes_keeps {r : State} {a1} {a2} {a3} (h1 : Keeps r a1) : Keeps r (State.stopLanes a1 a2 a3) := by
  delta State.stopLanes
  with_reducible repeat' first
    | assumption
    | apply State.stopLane_keeps
    | refine keeps_fold _ _ ?_ ?_
    | (intro; try beta_reduce)
    | refine keeps_ite ?_ ?_
    | split
    | apply_assumption

theorem State.settleStop_keeps {r : State} {a1} (h1 : Keeps r a1) : Keeps r (State.settleStop a1) := by
  delta State.settleStop
  with_reducible repeat' first
    | assumption
    | apply State.cmdDone_keeps
    | (extract_lets +onlyGivenNames x; first | (refine keeps_have (x := x) ?_ ?_; (on_goal 1 => dsimp -zeta only [x]; clear x); (on_goal 2 => (intro _; clear_value x; rename' x => y))) | (clear_value x; rename' x => y))
    | (intro; try beta_reduce)
    | exact Keeps.upd (by assumption)
    | refine keeps_ite ?_ ?_
    | split
    | apply_assumption

theorem State.settleBurst_keeps {r : State} {a1} (h1 : Keeps r a1) : Keeps r (State.settleBurst a1) := by
  delta State.settleBurst
  with_reducible repeat' first
    | assumption
    | apply State.put_keeps
    | (extract_lets +onlyGivenNames x; clear_value x; rename' x => y)
    | (intro; try beta_reduce)
    | exact Keeps.upd (by assumption)
    | refine keeps_ite ?_ ?_
    | split
    | apply_assumption

theorem State.failJump_keeps {r : State} {a1} {a2} (h1 : Keeps r a1) : Keeps r (State.failJump a1 a2) := by
  delta State.failJump
  with_reducible repeat' first
    | assumption
    | apply State.putThread_keeps
    | apply State.cmdFail_keeps
    | (extract_lets +onlyGivenNames x; first | (refine keeps_have (x := x) ?_ ?_; (on_goal 1 => dsimp -zeta only [x]; clear x); (on_goal 2 => (intro _; clear_value x; rename' x => y))) | (clear_value x; rename' x => y))
    | refine keeps_fold _ _ ?_ ?_
    | (intro; try beta_reduce)
    | refine keeps_ite ?_ ?_
    | split
    | apply_assumption

theorem State.endThread_keeps {r : State} {a1} {a2} {a3} (h1 : Keeps r a1) : Keeps r (State.endThread a1 a2 a3) := by
  delta State.endThread
  with_reducible repeat' first
    | assumption
    | apply State.countFlushed_keeps
    | apply State.returnCredits_keeps
    | apply State.put_keeps
    | apply State.endCapture_keeps
    | apply State.putThread_keeps
    | apply State.putSlice_keeps
    | apply State.stopLanes_keeps
    | apply State.failJump_keeps
    | apply State.siteFails_keeps
    | (extract_lets +onlyGivenNames x; first | (refine keeps_have (x := x) ?_ ?_; (on_goal 1 => dsimp -zeta only [x]; clear x); (on_goal 2 => (intro _; clear_value x; rename' x => y))) | (clear_value x; rename' x => y))
    | refine keeps_fold _ _ ?_ ?_
    | refine keeps_fold1 _ _ ?_ ?_
    | refine keeps_fold2 _ _ ?_ ?_
    | (intro; try beta_reduce)
    | exact Keeps.upd (by assumption)
    | refine keeps_ite ?_ ?_
    | split
    | apply_assumption

theorem State.endAll_keeps {r : State} {a1} {a2} (h1 : Keeps r a1) : Keeps r (State.endAll a1 a2) := by
  delta State.endAll
  with_reducible repeat' first
    | assumption
    | apply State.endThread_keeps
    | refine keeps_fold _ _ ?_ ?_
    | (intro; try beta_reduce)
    | apply_assumption

theorem State.stopThreads_keeps {r : State} {a1} {a2} {a3} (h1 : Keeps r a1) : Keeps r (State.stopThreads a1 a2 a3) := by
  delta State.stopThreads
  with_reducible repeat' first
    | assumption
    | apply State.settleStop_keeps
    | apply State.settleBurst_keeps
    | apply State.endAll_keeps
    | (extract_lets +onlyGivenNames x; clear_value x; rename' x => y)
    | (intro; try beta_reduce)
    | exact Keeps.upd (by assumption)
    | refine keeps_ite ?_ ?_
    | split
    | apply_assumption

theorem State.stopNow_keeps {r : State} {a1} {a2} (h1 : Keeps r a1) : Keeps r (State.stopNow a1 a2) := by
  delta State.stopNow
  with_reducible repeat' first
    | assumption
    | apply State.settleStop_keeps
    | apply State.endAll_keeps
    | (intro; try beta_reduce)
    | apply_assumption

theorem State.stopAll_keeps {r : State} {a1} {a2} (h1 : Keeps r a1) : Keeps r (State.stopAll a1 a2) := by
  delta State.stopAll
  with_reducible repeat' first
    | assumption
    | apply State.stopThreads_keeps
    | (intro; try beta_reduce)
    | apply_assumption

theorem State.dormantThreads_keeps {r : State} {a1} (h1 : Keeps r a1) : Keeps r (State.dormantThreads a1) := by
  delta State.dormantThreads
  with_reducible repeat' first
    | assumption
    | apply State.setThreadSt_keeps
    | refine keeps_fold _ _ ?_ ?_
    | (intro; try beta_reduce)
    | refine keeps_ite ?_ ?_
    | split
    | apply_assumption

theorem State.unlockAll_keeps {r : State} {a1} (h1 : Keeps r a1) : Keeps r (State.unlockAll a1) := by
  delta State.unlockAll
  with_reducible repeat' first
    | assumption
    | apply State.put_keeps
    | refine keeps_fold _ _ ?_ ?_
    | (intro; try beta_reduce)
    | refine keeps_ite ?_ ?_
    | split
    | apply_assumption

theorem State.disarm_keeps {r : State} {a1} (h1 : Keeps r a1) : Keeps r (State.disarm a1) := by
  delta State.disarm
  extract_lets derived s1 s2 s3
  have e1 : Keeps r s1 := keeps_fold _ _ h1 (fun u t hu => keeps_ite (State.putThread_keeps hu) (State.putF_keeps (State.putThread_keeps hu)))
  have e2 : Keeps r s2 := keeps_fold _ _ e1 (fun u t hu => State.put_keeps hu)
  have e3 : Keeps r s3 := keeps_fold _ _ e2 (fun u t hu => State.putSlice_keeps hu)
  exact State.unlockAll_keeps e3

theorem State.auditNotRun_keeps {r : State} {a1} {a2} (h1 : Keeps r a1) : Keeps r (State.auditNotRun a1 a2) := by
  delta State.auditNotRun
  with_reducible repeat' first
    | assumption
    | apply State.put_keeps
    | apply State.putF_keeps
    | (extract_lets +onlyGivenNames x; refine keeps_have (x := x) ?_ ?_; (on_goal 1 => dsimp -zeta only [x]; clear x); (on_goal 2 => (intro _; clear_value x; rename' x => y)))
    | (intro; try beta_reduce)
    | apply_assumption

end Sys2Proof.Machine
end

