-- ==== Sys2Proof/Laws/KeepsDacOps.lean ====
section
/-! SUPPORT. What the operations of Machine/DacOps.lean keep. -/

set_option linter.all false

namespace Sys2Proof.Machine

theorem State.setDac_keeps {r : State} {a1} {a2} {a3} {a4} (h1 : Keeps r a1) : Keeps r (State.setDac a1 a2 a3 a4) := by
  delta State.setDac
  with_reducible repeat' first
    | assumption
    | apply State.putF_keeps
    | apply State.put_keeps
    | (intro; try beta_reduce)
    | apply_assumption

theorem State.parkDac_keeps {r : State} {a1} {a2} (h1 : Keeps r a1) : Keeps r (State.parkDac a1 a2) := by
  delta State.parkDac
  with_reducible repeat' first
    | assumption
    | apply State.setDac_keeps
    | (intro; try beta_reduce)
    | refine keeps_ite ?_ ?_
    | split
    | apply_assumption

theorem State.faultDac_keeps {r : State} {a1} {a2} (h1 : Keeps r a1) : Keeps r (State.faultDac a1 a2) := by
  delta State.faultDac
  with_reducible repeat' first
    | assumption
    | apply State.setDac_keeps
    | (intro; try beta_reduce)
    | refine keeps_ite ?_ ?_
    | split
    | apply_assumption

theorem State.parkDacs_keeps {r : State} {a1} (h1 : Keeps r a1) : Keeps r (State.parkDacs a1) := by
  delta State.parkDacs
  with_reducible repeat' first
    | assumption
    | apply State.parkDac_keeps
    | refine keeps_fold _ _ ?_ ?_
    | (intro; try beta_reduce)
    | apply_assumption

theorem State.faultDacs_keeps {r : State} {a1} (h1 : Keeps r a1) : Keeps r (State.faultDacs a1) := by
  delta State.faultDacs
  with_reducible repeat' first
    | assumption
    | apply State.faultDac_keeps
    | refine keeps_fold _ _ ?_ ?_
    | (intro; try beta_reduce)
    | apply_assumption

theorem State.releaseDacs_keeps {r : State} {a1} (h1 : Keeps r a1) : Keeps r (State.releaseDacs a1) := by
  delta State.releaseDacs
  with_reducible repeat' first
    | assumption
    | apply State.setDac_keeps
    | refine keeps_fold _ _ ?_ ?_
    | (intro; try beta_reduce)
    | apply_assumption

theorem State.loadDac_keeps {r : State} {a1} {a2} {a3} (h1 : Keeps r a1) : Keeps r (State.loadDac a1 a2 a3).1 := by
  delta State.loadDac
  with_reducible repeat' first
    | assumption
    | apply State.putF_keeps
    | apply State.setDac_keeps
    | (extract_lets +onlyGivenNames x; clear_value x; rename' x => y)
    | (intro; try beta_reduce)
    | refine keeps_ite ?_ ?_
    | refine keeps_ite1 ?_ ?_
    | split
    | apply_assumption

theorem State.loadDacs_keeps {r : State} {a1} {a2} {a3} (h1 : Keeps r a1) : Keeps r (State.loadDacs a1 a2 a3).1 := by
  delta State.loadDacs
  with_reducible repeat' first
    | assumption
    | apply State.loadDac_keeps
    | (extract_lets +onlyGivenNames x; refine keeps_have (x := x.1) ?_ ?_; (on_goal 1 => dsimp -zeta only [x]; clear x); (on_goal 2 => (intro _; clear_value x; rename' x => y)))
    | refine keeps_fold _ _ ?_ ?_
    | refine keeps_fold1 _ _ ?_ ?_
    | (intro; try beta_reduce)
    | apply_assumption

theorem State.strobeGroup_keeps {r : State} {a1} {a2} {a3} (h1 : Keeps r a1) : Keeps r (State.strobeGroup a1 a2 a3).1 := by
  delta State.strobeGroup
  with_reducible repeat' first
    | assumption
    | apply State.count_keeps
    | apply State.loadDacs_keeps
    | (extract_lets +onlyGivenNames x; first | (refine keeps_have (x := x.1) ?_ ?_; (on_goal 1 => dsimp -zeta only [x]; clear x); (on_goal 2 => (intro _; clear_value x; rename' x => y))) | (clear_value x; rename' x => y))
    | (intro; try beta_reduce)
    | exact Keeps.upd (by assumption)
    | refine keeps_ite ?_ ?_
    | refine keeps_ite1 ?_ ?_
    | split
    | apply_assumption

theorem State.queueLoads_keeps {r : State} {a1} {a2} {a3} (h1 : Keeps r a1) : Keeps r (State.queueLoads a1 a2 a3) := by
  delta State.queueLoads
  with_reducible repeat' first
    | assumption
    | (intro; try beta_reduce)
    | exact Keeps.upd (by assumption)
    | apply_assumption

theorem State.loadDue_keeps {r : State} {a1} {a2} {a3} (h1 : Keeps r a1) : Keeps r (State.loadDue a1 a2 a3).1 := by
  delta State.loadDue
  with_reducible repeat' first
    | assumption
    | apply State.strobeGroup_keeps
    | apply State.cmdDone_keeps
    | (intro; try beta_reduce)
    | split
    | apply_assumption

theorem State.armStrobe_keeps {r : State} {a1} (h1 : Keeps r a1) : Keeps r (State.armStrobe a1).1 := by
  delta State.armStrobe
  with_reducible repeat' first
    | assumption
    | apply State.loadDacs_keeps
    | (intro; try beta_reduce)
    | apply_assumption

end Sys2Proof.Machine
end

