-- ==== Sys2Proof/Laws/KeepsModeOps.lean ====
section
/-! SUPPORT. What the operations of Machine/ModeOps.lean keep. -/

set_option linter.all false

namespace Sys2Proof.Machine

theorem State.sliceFollow_keeps {r : State} {a1} {a2} (h1 : Keeps r a1) : Keeps r (State.sliceFollow a1 a2) := by
  delta State.sliceFollow
  with_reducible repeat' first
    | assumption
    | apply State.putSlice_keeps
    | apply State.put_keeps
    | (extract_lets +onlyGivenNames x; first | (refine keeps_have (x := x) ?_ ?_; (on_goal 1 => dsimp -zeta only [x]; clear x); (on_goal 2 => (intro _; clear_value x; rename' x => y))) | (clear_value x; rename' x => y))
    | (intro; try beta_reduce)
    | refine keeps_ite ?_ ?_
    | split
    | apply_assumption

theorem State.setLbk_keeps {r : State} {a1} {a2} {a3} (h1 : Keeps r a1) : Keeps r (State.setLbk a1 a2 a3) := by
  delta State.setLbk
  with_reducible repeat' first
    | assumption
    | apply State.putSlice_keeps
    | (extract_lets +onlyGivenNames x; clear_value x; rename' x => y)
    | refine keeps_fold _ _ ?_ ?_
    | (intro; try beta_reduce)
    | apply_assumption

theorem State.trainLanesOn_keeps {r : State} {a1} (h1 : Keeps r a1) : Keeps r (State.trainLanesOn a1) := by
  delta State.trainLanesOn
  with_reducible repeat' first
    | assumption
    | apply State.stimulate_keeps
    | apply State.setLbk_keeps
    | (intro; try beta_reduce)
    | apply_assumption

theorem State.driveSlices_keeps {r : State} {a1} {a2} {a3} (h1 : Keeps r a1) : Keeps r (State.driveSlices a1 a2 a3) := by
  delta State.driveSlices
  with_reducible repeat' first
    | assumption
    | apply State.driveLane_keeps
    | refine keeps_fold _ _ ?_ ?_
    | (intro; try beta_reduce)
    | apply_assumption

theorem State.driveFrom_keeps {r : State} {a1} {a2} {a3} (h1 : Keeps r a1) (h2 : Keeps r a2) : Keeps r (State.driveFrom a1 a2 a3) := by
  delta State.driveFrom
  with_reducible repeat' first
    | assumption
    | apply State.setLane_keeps
    | apply State.driveLane_keeps
    | refine keeps_fold _ _ ?_ ?_
    | (intro; try beta_reduce)
    | refine keeps_ite ?_ ?_
    | split
    | apply_assumption

theorem State.restSlices_keeps {r : State} {a1} {a2} (h1 : Keeps r a1) : Keeps r (State.restSlices a1 a2) := by
  delta State.restSlices
  with_reducible repeat' first
    | assumption
    | apply State.driveFrom_keeps
    | apply State.setLane_keeps
    | refine keeps_fold _ _ ?_ ?_
    | (intro; try beta_reduce)
    | apply_assumption

theorem State.restLanes_keeps {r : State} {a1} (h1 : Keeps r a1) : Keeps r (State.restLanes a1) := by
  delta State.restLanes
  with_reducible repeat' first
    | assumption
    | apply State.driveFrom_keeps
    | apply State.allLanes_keeps
    | (intro; try beta_reduce)
    | apply_assumption

theorem State.endDiag_keeps {r : State} {a1} {a2} {a3} (h1 : Keeps r a1) : Keeps r (State.endDiag a1 a2 a3) := by
  delta State.endDiag
  with_reducible repeat' first
    | assumption
    | apply State.restSlices_keeps
    | apply State.setLbk_keeps
    | apply State.put_keeps
    | apply State.parkDac_keeps
    | (extract_lets +onlyGivenNames x; refine keeps_have (x := x) ?_ ?_; (on_goal 1 => dsimp -zeta only [x]; clear x); (on_goal 2 => (intro _; clear_value x; rename' x => y)))
    | refine keeps_fold _ _ ?_ ?_
    | refine keeps_fold1 _ _ ?_ ?_
    | refine keeps_fold2 _ _ ?_ ?_
    | (intro; try beta_reduce)
    | exact Keeps.upd (by assumption)
    | refine keeps_ite ?_ ?_
    | split
    | apply_assumption

theorem State.abortDiag_keeps {r : State} {a1} (h1 : Keeps r a1) : Keeps r (State.abortDiag a1) := by
  delta State.abortDiag
  split
  · exact h1
  · exact State.cmdFail_keeps (State.endDiag_keeps (Keeps.updFree h1))

theorem State.abortDiagOn_keeps {r : State} {a1} {a2} (h1 : Keeps r a1) : Keeps r (State.abortDiagOn a1 a2) := by
  delta State.abortDiagOn
  with_reducible repeat' first
    | assumption
    | apply State.abortDiag_keeps
    | (intro; try beta_reduce)
    | refine keeps_ite ?_ ?_
    | split
    | apply_assumption

theorem State.refreshLanes_keeps {r : State} {a1} (h1 : Keeps r a1) : Keeps r (State.refreshLanes a1) := by
  delta State.refreshLanes
  with_reducible repeat' first
    | assumption
    | apply State.put_keeps
    | (extract_lets +onlyGivenNames x; first | (refine keeps_have_fun (x := x) ?_ ?_; (on_goal 1 => dsimp -zeta only [x]; clear x); (on_goal 2 => (intro _; clear_value x; rename' x => y))) | (clear_value x; rename' x => y))
    | (intro; try beta_reduce)
    | apply_assumption

theorem State.refreshSlice_keeps {r : State} {a1} {a2} (h1 : Keeps r a1) : Keeps r (State.refreshSlice a1 a2) := by
  delta State.refreshSlice
  with_reducible repeat' first
    | assumption
    | apply State.abortDiagOn_keeps
    | apply State.put_keeps
    | apply State.putSlice_keeps
    | (extract_lets +onlyGivenNames x; clear_value x; rename' x => y)
    | (intro; try beta_reduce)
    | refine keeps_ite ?_ ?_
    | split
    | apply_assumption

theorem State.disableChannel_keeps {r : State} {a1} {a2} {a3} (h1 : Keeps r a1) : Keeps r (State.disableChannel a1 a2 a3) := by
  delta State.disableChannel
  with_reducible repeat' first
    | assumption
    | apply State.putF_keeps
    | apply State.refreshSlice_keeps
    | apply State.refreshLanes_keeps
    | apply State.driveLane_keeps
    | (extract_lets +onlyGivenNames x; refine keeps_have (x := x) ?_ ?_; (on_goal 1 => dsimp -zeta only [x]; clear x); (on_goal 2 => (intro _; clear_value x; rename' x => y)))
    | (intro; try beta_reduce)
    | apply_assumption

theorem State.returnDacs_keeps {r : State} {a1} {a2} (h1 : Keeps r a1) : Keeps r (State.returnDacs a1 a2) := by
  delta State.returnDacs
  with_reducible repeat' first
    | assumption
    | apply State.parkDac_keeps
    | apply State.setDac_keeps
    | refine keeps_fold _ _ ?_ ?_
    | (intro; try beta_reduce)
    | refine keeps_ite ?_ ?_
    | split
    | apply_assumption

theorem State.stopStimulus_keeps {r : State} {a1} {a2} (h1 : Keeps r a1) : Keeps r (State.stopStimulus a1 a2) := by
  delta State.stopStimulus
  with_reducible repeat' first
    | assumption
    | apply State.returnDacs_keeps
    | apply State.setLbk_keeps
    | apply State.sliceFollow_keeps
    | apply State.restSlices_keeps
    | (extract_lets +onlyGivenNames x; refine keeps_have (x := x) ?_ ?_; (on_goal 1 => dsimp -zeta only [x]; clear x); (on_goal 2 => (intro _; clear_value x; rename' x => y)))
    | refine keeps_fold _ _ ?_ ?_
    | (intro; try beta_reduce)
    | refine keeps_ite ?_ ?_
    | split
    | apply_assumption

theorem State.endStimulus_keeps {r : State} {a1} {a2} (h1 : Keeps r a1) : Keeps r (State.endStimulus a1 a2) := by
  delta State.endStimulus
  with_reducible repeat' first
    | assumption
    | apply State.stopStimulus_keeps
    | apply State.put_keeps
    | (extract_lets +onlyGivenNames x; refine keeps_have (x := x) ?_ ?_; (on_goal 1 => dsimp -zeta only [x]; clear x); (on_goal 2 => (intro _; clear_value x; rename' x => y)))
    | (intro; try beta_reduce)
    | exact Keeps.upd (by assumption)
    | refine keeps_ite ?_ ?_
    | split
    | apply_assumption

theorem State.countAbandon_keeps {r : State} {a1} {a2} (h1 : Keeps r a1) : Keeps r (State.countAbandon a1 a2) := by
  delta State.countAbandon
  with_reducible repeat' first
    | assumption
    | apply State.putF_keeps
    | apply State.count_keeps
    | (intro; try beta_reduce)
    | apply_assumption

theorem State.abandonRoutine_keeps {r : State} {a1} (h1 : Keeps r a1) : Keeps r (State.abandonRoutine a1) := by
  delta State.abandonRoutine
  with_reducible repeat' first
    | assumption
    | apply State.countAbandon_keeps
    | apply State.endStimulus_keeps
    | apply State.cmdPend_keeps
    | (extract_lets +onlyGivenNames x; refine keeps_have (x := x) ?_ ?_; (on_goal 1 => dsimp -zeta only [x]; clear x); (on_goal 2 => (intro _; clear_value x; rename' x => y)))
    | (intro; try beta_reduce)
    | refine keeps_ite ?_ ?_
    | split
    | apply_assumption

theorem State.abandonOn_keeps {r : State} {a1} {a2} (h1 : Keeps r a1) : Keeps r (State.abandonOn a1 a2) := by
  delta State.abandonOn
  with_reducible repeat' first
    | assumption
    | apply State.abandonRoutine_keeps
    | (intro; try beta_reduce)
    | refine keeps_ite ?_ ?_
    | split
    | apply_assumption

theorem State.leaveMode_keeps {r : State} {a1} {a2} (h1 : Keeps r a1) : Keeps r (State.leaveMode a1 a2) := by
  delta State.leaveMode
  with_reducible repeat' first
    | assumption
    | apply State.dormantThreads_keeps
    | apply State.disarm_keeps
    | apply State.sliceFollow_keeps
    | apply State.abortDiagOn_keeps
    | apply State.setLbk_keeps
    | apply State.putF_keeps
    | (extract_lets +onlyGivenNames x; first | (refine keeps_have (x := x) ?_ ?_; (on_goal 1 => dsimp -zeta only [x]; clear x); (on_goal 2 => (intro _; clear_value x; rename' x => y))) | (clear_value x; rename' x => y))
    | refine keeps_fold _ _ ?_ ?_
    | (intro; try beta_reduce)
    | exact Keeps.upd (by assumption)
    | refine keeps_ite ?_ ?_
    | split
    | apply_assumption

theorem State.modeOutputs_keeps {r : State} {a1} {a2} {a3} (h1 : Keeps r a1) : Keeps r (State.modeOutputs a1 a2 a3) := by
  delta State.modeOutputs
  with_reducible repeat' first
    | assumption
    | apply State.faultDacs_keeps
    | apply State.restLanes_keeps
    | apply State.parkDacs_keeps
    | apply State.setLbk_keeps
    | apply State.driveTrigouts_keeps
    | apply State.trainLanesOn_keeps
    | (intro; try beta_reduce)
    | refine keeps_ite ?_ ?_
    | split
    | apply_assumption

theorem State.placeDiagnose_keeps {r : State} {a1} (h1 : Keeps r a1) : Keeps r (State.placeDiagnose a1) := by
  delta State.placeDiagnose
  with_reducible repeat' first
    | assumption
    | apply State.put_keeps
    | apply State.putSlice_keeps
    | (extract_lets +onlyGivenNames x; clear_value x; rename' x => y)
    | refine keeps_fold _ _ ?_ ?_
    | (intro; try beta_reduce)
    | refine keeps_ite ?_ ?_
    | split
    | apply_assumption

theorem State.enterMode_keeps {r : State} {a1} {a2} (h1 : Keeps r a1) : Keeps r (State.enterMode a1 a2) := by
  delta State.enterMode
  with_reducible repeat' first
    | assumption
    | apply State.abandonRoutine_keeps
    | apply State.abortDiag_keeps
    | apply State.leaveMode_keeps
    | apply State.count_keeps
    | apply State.put_keeps
    | apply State.stopTrigouts_keeps
    | apply State.putF_keeps
    | apply State.modeOutputs_keeps
    | apply State.placeDiagnose_keeps
    | apply State.faultIrq_keeps
    | (extract_lets +onlyGivenNames x; first | (refine keeps_have (x := x) ?_ ?_; (on_goal 1 => dsimp -zeta only [x]; clear x); (on_goal 2 => (intro _; clear_value x; rename' x => y))) | (clear_value x; rename' x => y))
    | (intro; try beta_reduce)
    | exact Keeps.upd (by assumption)
    | refine keeps_ite ?_ ?_
    | split
    | apply_assumption

end Sys2Proof.Machine
end

