-- ==== Sys2Proof/Laws/KeepsFaultOps.lean ====
section
/-! SUPPORT. What the operations of Machine/FaultOps.lean keep. -/

set_option linter.all false

namespace Sys2Proof.Machine

theorem State.recordRaise_keeps {r : State} {a1} {a2} {a3} (h1 : Keeps r a1) : Keeps r (State.recordRaise a1 a2 a3) := by
  delta State.recordRaise
  with_reducible repeat' first
    | assumption
    | apply State.count_keeps
    | apply State.put_keeps
    | apply State.faultIrq_keeps
    | (extract_lets +onlyGivenNames x; first | (refine keeps_have (x := x) ?_ ?_; (on_goal 1 => dsimp -zeta only [x]; clear x); (on_goal 2 => (intro _; clear_value x; rename' x => y))) | (clear_value x; rename' x => y))
    | (intro; try beta_reduce)
    | exact Keeps.upd (by assumption)
    | refine keeps_ite ?_ ?_
    | split
    | apply_assumption

theorem State.clearLive_keeps {r : State} {a1} {a2} (h1 : Keeps r a1) : Keeps r (State.clearLive a1 a2) := by
  delta State.clearLive
  with_reducible repeat' first
    | assumption
    | apply State.put_keeps
    | apply State.putF_keeps
    | (extract_lets +onlyGivenNames x; refine keeps_have (x := x) ?_ ?_; (on_goal 1 => dsimp -zeta only [x]; clear x); (on_goal 2 => (intro _; clear_value x; rename' x => y)))
    | (intro; try beta_reduce)
    | exact Keeps.upd (by assumption)
    | refine keeps_ite ?_ ?_
    | split
    | apply_assumption

theorem State.noteRaise_keeps {r : State} {a1} {a2} {a3} (h1 : Keeps r a1) : Keeps r (State.noteRaise a1 a2 a3) := by
  delta State.noteRaise
  with_reducible repeat' first
    | assumption
    | apply State.countSat_keeps
    | apply State.setMapBit_keeps
    | apply State.recordRaise_keeps
    | apply State.clearLive_keeps
    | (extract_lets +onlyGivenNames x; first | (refine keeps_have (x := x) ?_ ?_; (on_goal 1 => dsimp -zeta only [x]; clear x); (on_goal 2 => (intro _; clear_value x; rename' x => y))) | (clear_value x; rename' x => y))
    | (intro; try beta_reduce)
    | exact Keeps.upd (by assumption)
    | refine keeps_ite ?_ ?_
    | split
    | apply_assumption

theorem State.modeAbort_keeps {r : State} {a1} (h1 : Keeps r a1) : Keeps r (State.modeAbort a1) := by
  delta State.modeAbort
  with_reducible repeat' first
    | assumption
    | apply State.disarm_keeps
    | apply State.putF_keeps
    | apply State.irq_keeps
    | apply State.cmdFail_keeps
    | apply State.noteRaise_keeps
    | (extract_lets +onlyGivenNames x; first | (refine keeps_have (x := x) ?_ ?_; (on_goal 1 => dsimp -zeta only [x]; clear x); (on_goal 2 => (intro _; clear_value x; rename' x => y))) | (clear_value x; rename' x => y))
    | (intro; try beta_reduce)
    | refine keeps_ite ?_ ?_
    | split
    | apply_assumption

theorem State.parkSlices_keeps {r : State} {a1} {a2} (h1 : Keeps r a1) : Keeps r (State.parkSlices a1 a2) := by
  delta State.parkSlices
  with_reducible repeat' first
    | assumption
    | apply State.stopThreads_keeps
    | apply State.driveSlices_keeps
    | apply State.faultDac_keeps
    | apply State.putSlice_keeps
    | apply State.abortDiagOn_keeps
    | apply State.abandonOn_keeps
    | (extract_lets +onlyGivenNames x; first | (refine keeps_have (x := x) ?_ ?_; (on_goal 1 => dsimp -zeta only [x]; clear x); (on_goal 2 => (intro _; clear_value x; rename' x => y))) | (clear_value x; rename' x => y))
    | refine keeps_fold _ _ ?_ ?_
    | (intro; try beta_reduce)
    | apply_assumption

theorem State.cutAudit_keeps {r : State} {a1} {a2} (h1 : Keeps r a1) : Keeps r (State.cutAudit a1 a2) := by
  delta State.cutAudit
  with_reducible repeat' first
    | assumption
    | apply State.auditNotRun_keeps
    | apply State.stopNow_keeps
    | (extract_lets +onlyGivenNames x; first | (refine keeps_have (x := x) ?_ ?_; (on_goal 1 => dsimp -zeta only [x]; clear x); (on_goal 2 => (intro _; clear_value x; rename' x => y))) | (clear_value x; rename' x => y))
    | (intro; try beta_reduce)
    | exact Keeps.upd (by assumption)
    | refine keeps_ite ?_ ?_
    | split
    | apply_assumption

theorem State.safeEntry_keeps {r : State} {a1} {a2} (h1 : Keeps r a1) : Keeps r (State.safeEntry a1 a2) := by
  delta State.safeEntry
  with_reducible repeat' first
    | assumption
    | apply State.cutAudit_keeps
    | apply State.faultDacs_keeps
    | apply State.allLanes_keeps
    | apply State.modeAbort_keeps
    | apply State.abortDiag_keeps
    | apply State.abandonRoutine_keeps
    | apply State.enterMode_keeps
    | apply State.stopAll_keeps
    | (extract_lets +onlyGivenNames x; refine keeps_have (x := x) ?_ ?_; (on_goal 1 => dsimp -zeta only [x]; clear x); (on_goal 2 => (intro _; clear_value x; rename' x => y)))
    | (intro; try beta_reduce)
    | exact Keeps.upd (by assumption)
    | refine keeps_ite ?_ ?_
    | split
    | apply_assumption

theorem State.latch_keeps {r : State} {a1} {a2} (h1 : Keeps r a1) : Keeps r (State.latch a1 a2) := by
  delta State.latch
  with_reducible repeat' first
    | assumption
    | apply State.putF_keeps
    | (intro; try beta_reduce)
    | refine keeps_ite ?_ ?_
    | split
    | apply_assumption

theorem State.machineCheckEntry_keeps {r : State} {a1} (h1 : Keeps r a1) : Keeps r (State.machineCheckEntry a1) := by
  delta State.machineCheckEntry
  with_reducible repeat' first
    | assumption
    | apply State.faultDacs_keeps
    | apply State.allLanes_keeps
    | apply State.stopTrigouts_keeps
    | apply State.latch_keeps
    | apply State.safeEntry_keeps
    | (extract_lets +onlyGivenNames x; first | (refine keeps_have (x := x) ?_ ?_; (on_goal 1 => dsimp -zeta only [x]; clear x); (on_goal 2 => (intro _; clear_value x; rename' x => y))) | (clear_value x; rename' x => y))
    | (intro; try beta_reduce)
    | exact Keeps.upd (by assumption)
    | refine keeps_ite ?_ ?_
    | split
    | apply_assumption

theorem State.laneHit_keeps {r : State} {a1} {a2} (h1 : Keeps r a1) : Keeps r (State.laneHit a1 a2) := by
  delta State.laneHit
  with_reducible repeat' first
    | assumption
    | apply State.disableChannel_keeps
    | apply State.siteFails_keeps
    | apply State.putThread_keeps
    | (extract_lets +onlyGivenNames x; first | (refine keeps_have (x := x) ?_ ?_; (on_goal 1 => dsimp -zeta only [x]; clear x); (on_goal 2 => (intro _; clear_value x; rename' x => y))) | (clear_value x; rename' x => y))
    | (intro; try beta_reduce)
    | refine keeps_ite ?_ ?_
    | split
    | apply_assumption

theorem State.laneAction_keeps {r : State} {a1} {a2} (h1 : Keeps r a1) : Keeps r (State.laneAction a1 a2) := by
  delta State.laneAction
  with_reducible repeat' first
    | assumption
    | apply State.maskSite_keeps
    | apply State.stopThreads_keeps
    | (intro; try beta_reduce)
    | refine keeps_ite ?_ ?_
    | split
    | apply_assumption

theorem State.portStop_keeps {r : State} {a1} {a2} {a3} (h1 : Keeps r a1) : Keeps r (State.portStop a1 a2 a3) := by
  delta State.portStop
  with_reducible repeat' first
    | assumption
    | apply State.laneAction_keeps
    | apply State.stopThreads_keeps
    | (intro; try beta_reduce)
    | refine keeps_ite ?_ ?_
    | split
    | apply_assumption

theorem State.act_keeps {r : State} {a1} {a2} {a3} {a4} (h1 : Keeps r a1) : Keeps r (State.act a1 a2 a3 a4) := by
  delta State.act
  with_reducible repeat' first
    | assumption
    | apply State.portStop_keeps
    | apply State.parkSlices_keeps
    | apply State.machineCheckEntry_keeps
    | apply State.latch_keeps
    | apply State.safeEntry_keeps
    | (extract_lets +onlyGivenNames x; refine keeps_have (x := x) ?_ ?_; (on_goal 1 => dsimp -zeta only [x]; clear x); (on_goal 2 => (intro _; clear_value x; rename' x => y)))
    | (intro; try beta_reduce)
    | refine keeps_ite ?_ ?_
    | split
    | apply_assumption

theorem State.faultOnRoutine_keeps {r : State} {a1} {a2} (h1 : Keeps r a1) : Keeps r (State.faultOnRoutine a1 a2) := by
  delta State.faultOnRoutine
  with_reducible repeat' first
    | assumption
    | apply State.abandonOn_keeps
    | apply State.abortDiag_keeps
    | apply State.abortDiagOn_keeps
    | apply State.abandonRoutine_keeps
    | (extract_lets +onlyGivenNames x; refine keeps_have (x := x) ?_ ?_; (on_goal 1 => dsimp -zeta only [x]; clear x); (on_goal 2 => (intro _; clear_value x; rename' x => y)))
    | (intro; try beta_reduce)
    | refine keeps_ite ?_ ?_
    | split
    | apply_assumption

theorem State.faultRecord_keeps {r : State} {a1} {a2} {a3} (h1 : Keeps r a1) : Keeps r (State.faultRecord a1 a2 a3) := by
  delta State.faultRecord
  with_reducible repeat' first
    | assumption
    | apply State.bbWrite_keeps
    | apply State.bbBudget_keeps
    | (extract_lets +onlyGivenNames x; clear_value x; rename' x => y)
    | (intro; try beta_reduce)
    | refine keeps_ite ?_ ?_
    | split
    | apply_assumption

theorem State.noteFull_keeps {r : State} {a1} {a2} {a3} (h1 : Keeps r a1) : Keeps r (State.noteFull a1 a2 a3) := by
  delta State.noteFull
  with_reducible repeat' first
    | assumption
    | apply State.noteRaise_keeps
    | apply State.faultRecord_keeps
    | (extract_lets +onlyGivenNames x; first | (refine keeps_have (x := x) ?_ ?_; (on_goal 1 => dsimp -zeta only [x]; clear x); (on_goal 2 => (intro _; clear_value x; rename' x => y))) | (clear_value x; rename' x => y))
    | (intro; try beta_reduce)
    | refine keeps_ite ?_ ?_
    | split
    | apply_assumption

theorem State.sigChecked_keeps {r : State} {a1} {a2} (h1 : Keeps r a1) : Keeps r (State.sigChecked a1 a2) := by
  delta State.sigChecked
  with_reducible repeat' first
    | assumption
    | apply State.count_keeps
    | apply State.putF_keeps
    | apply State.putThread_keeps
    | (extract_lets +onlyGivenNames x; first | (refine keeps_have (x := x) ?_ ?_; (on_goal 1 => dsimp -zeta only [x]; clear x); (on_goal 2 => (intro _; clear_value x; rename' x => y))) | (clear_value x; rename' x => y))
    | (intro; try beta_reduce)
    | refine keeps_ite ?_ ?_
    | split
    | apply_assumption

theorem State.effects_keeps {r : State} {a1} {a2} {a3} {a4} (h1 : Keeps r a1) : Keeps r (State.effects a1 a2 a3 a4) := by
  delta State.effects
  with_reducible repeat' first
    | assumption
    | apply State.laneHit_keeps
    | apply State.sigChecked_keeps
    | apply State.flagRecord_keeps
    | apply State.dropStaged_keeps
    | apply State.act_keeps
    | apply State.faultOnRoutine_keeps
    | (extract_lets +onlyGivenNames x; refine keeps_have (x := x) ?_ ?_; (on_goal 1 => dsimp -zeta only [x]; clear x); (on_goal 2 => (intro _; clear_value x; rename' x => y)))
    | (intro; try beta_reduce)
    | refine keeps_ite ?_ ?_
    | split
    | apply_assumption

theorem State.raiseAt_keeps {r : State} {a1} {a2} {a3} {a4} (h1 : Keeps r a1) : Keeps r (State.raiseAt a1 a2 a3 a4) := by
  delta State.raiseAt
  with_reducible repeat' first
    | assumption
    | apply State.effects_keeps
    | apply State.noteFull_keeps
    | (intro; try beta_reduce)
    | apply_assumption

theorem State.raise_keeps {r : State} {a1} {a2} (h1 : Keeps r a1) : Keeps r (State.raise a1 a2) := by
  delta State.raise
  with_reducible repeat' first
    | assumption
    | apply State.raiseAt_keeps
    | (intro; try beta_reduce)
    | apply_assumption

theorem State.fault_keeps {r : State} {a1} {a2} {a3} {a4} (h1 : Keeps r a1) : Keeps r (State.fault a1 a2 a3 a4) := by
  delta State.fault
  with_reducible repeat' first
    | assumption
    | apply State.raise_keeps
    | (intro; try beta_reduce)
    | apply_assumption

theorem State.collectAt_keeps {r : State} {a1} {a2} (h1 : Keeps r a1) : Keeps r (State.collectAt a1 a2) := by
  delta State.collectAt
  with_reducible repeat' first
    | assumption
    | apply State.noteFull_keeps
    | apply State.effects_keeps
    | (extract_lets +onlyGivenNames x; refine keeps_have (x := x) ?_ ?_; (on_goal 1 => dsimp -zeta only [x]; clear x); (on_goal 2 => (intro _; clear_value x; rename' x => y)))
    | refine keeps_fold _ _ ?_ ?_
    | (intro; try beta_reduce)
    | apply_assumption

theorem State.collect_keeps {r : State} {a1} {a2} (h1 : Keeps r a1) : Keeps r (State.collect a1 a2) := by
  delta State.collect
  with_reducible repeat' first
    | assumption
    | apply State.collectAt_keeps
    | (intro; try beta_reduce)
    | apply_assumption

theorem State.guardRaise_keeps {r : State} {a1} (h1 : Keeps r a1) : Keeps r (State.guardRaise a1) := by
  delta State.guardRaise
  with_reducible repeat' first
    | assumption
    | apply State.collect_keeps
    | (intro; try beta_reduce)
    | exact Keeps.upd (by assumption)
    | refine keeps_ite ?_ ?_
    | split
    | apply_assumption

theorem State.authFailed_keeps {r : State} {a1} (h1 : Keeps r a1) : Keeps r (State.authFailed a1) := by
  delta State.authFailed
  with_reducible repeat' first
    | assumption
    | apply State.count_keeps
    | apply State.fault_keeps
    | (extract_lets +onlyGivenNames x; first | (refine keeps_have (x := x) ?_ ?_; (on_goal 1 => dsimp -zeta only [x]; clear x); (on_goal 2 => (intro _; clear_value x; rename' x => y))) | (clear_value x; rename' x => y))
    | (intro; try beta_reduce)
    | exact Keeps.upd (by assumption)
    | refine keeps_ite ?_ ?_
    | split
    | apply_assumption

theorem State.bbPass_keeps {r : State} {a1} (h1 : Keeps r a1) : Keeps r (State.bbPass a1) := by
  delta State.bbPass
  with_reducible repeat' first
    | assumption
    | apply State.fault_keeps
    | apply State.put_keeps
    | (intro; try beta_reduce)
    | refine keeps_ite ?_ ?_
    | split
    | apply_assumption

theorem State.examine_keeps {r : State} {a1} {a2} {a3} (h1 : Keeps r a1) : Keeps r (State.examine a1 a2 a3).1 := by
  delta State.examine
  with_reducible repeat' first
    | assumption
    | apply State.cmdDone_keeps
    | apply State.raiseAt_keeps
    | (extract_lets +onlyGivenNames x; refine keeps_have (x := x) ?_ ?_; (on_goal 1 => dsimp -zeta only [x]; clear x); (on_goal 2 => (intro _; clear_value x; rename' x => y)))
    | (intro; try beta_reduce)
    | exact Keeps.upd (by assumption)
    | refine keeps_ite ?_ ?_
    | refine keeps_ite1 ?_ ?_
    | split
    | apply_assumption

end Sys2Proof.Machine
end

