-- ==== Sys2Proof/Laws/KeepsLaneOps.lean ====
section
/-! SUPPORT. What the operations of Machine/LaneOps.lean keep. -/

set_option linter.all false

namespace Sys2Proof.Machine

theorem State.deskewChannel_keeps {r : State} {a1} {a2} (h1 : Keeps r a1) : Keeps r (State.deskewChannel a1 a2) := by
  delta State.deskewChannel
  with_reducible repeat' first
    | assumption
    | apply State.countSat_keeps
    | apply State.put_keeps
    | apply State.putF_keeps
    | apply State.driveLane_keeps
    | (extract_lets +onlyGivenNames x; first | (refine keeps_have (x := x) ?_ ?_; (on_goal 1 => dsimp -zeta only [x]; clear x); (on_goal 2 => (intro _; clear_value x; rename' x => y))) | (clear_value x; rename' x => y))
    | (intro; try beta_reduce)
    | refine keeps_ite ?_ ?_
    | split
    | apply_assumption

theorem State.deskew_keeps {r : State} {a1} {a2} {a3} (h1 : Keeps r a1) : Keeps r (State.deskew a1 a2 a3) := by
  delta State.deskew
  with_reducible repeat' first
    | assumption
    | apply State.refreshLanes_keeps
    | apply State.deskewChannel_keeps
    | apply State.collect_keeps
    | (extract_lets +onlyGivenNames x; first | (refine keeps_have (x := x) ?_ ?_; (on_goal 1 => dsimp -zeta only [x]; clear x); (on_goal 2 => (intro _; clear_value x; rename' x => y))) | (clear_value x; rename' x => y))
    | refine keeps_fold _ _ ?_ ?_
    | (intro; try beta_reduce)
    | apply_assumption

end Sys2Proof.Machine
end

