-- ==== Sys2Proof/Laws/KeepsSequencer.lean ====
section
/-! SUPPORT. What the operations of Machine/Sequencer.lean keep. -/

set_option linter.all false

namespace Sys2Proof.Machine

theorem State.holdThread_keeps {r : State} {a1} {a2} (h1 : Keeps r a1) : Keeps r (State.holdThread a1 a2) := by
  delta State.holdThread
  with_reducible repeat' first
    | assumption
    | apply State.count_keeps
    | apply State.setThreadSt_keeps
    | apply State.putThread_keeps
    | (extract_lets +onlyGivenNames x; clear_value x; rename' x => y)
    | (intro; try beta_reduce)
    | apply_assumption

theorem State.enterReady_keeps {r : State} {a1} {a2} (h1 : Keeps r a1) : Keeps r (State.enterReady a1 a2) := by
  delta State.enterReady
  with_reducible repeat' first
    | assumption
    | apply State.setThreadSt_keeps
    | apply State.putThread_keeps
    | apply State.holdThread_keeps
    | (extract_lets +onlyGivenNames x; clear_value x; rename' x => y)
    | (intro; try beta_reduce)
    | refine keeps_ite ?_ ?_
    | split
    | apply_assumption

theorem State.settleThread_keeps {r : State} {a1} {a2} (h1 : Keeps r a1) : Keeps r (State.settleThread a1 a2) := by
  delta State.settleThread
  with_reducible repeat' first
    | assumption
    | apply State.putThread_keeps
    | apply State.setThreadSt_keeps
    | apply State.holdThread_keeps
    | (extract_lets +onlyGivenNames x; clear_value x; rename' x => y)
    | (intro; try beta_reduce)
    | refine keeps_ite ?_ ?_
    | split
    | apply_assumption

theorem State.issue_keeps {r : State} {a1} {a2} {a3} {a4} {a5 : Span → Span} (h1 : Keeps r a1) : Keeps r (State.issue a1 a2 a3 a4 a5) := by
  delta State.issue
  with_reducible repeat' first
    | assumption
    | apply State.putThread_keeps
    | apply State.countIssued_keeps
    | apply State.takeCredits_keeps
    | (extract_lets +onlyGivenNames x; first | (refine keeps_have (x := x) ?_ ?_; (on_goal 1 => dsimp -zeta only [x]; clear x); (on_goal 2 => (intro _; clear_value x; rename' x => y))) | (clear_value x; rename' x => y))
    | (intro; try beta_reduce)
    | refine keeps_ite ?_ ?_
    | split
    | apply_assumption

theorem State.advance_keeps {r : State} {a1} {a2} {a3} {a4 : Span → Span} (h1 : Keeps r a1) : Keeps r (State.advance a1 a2 a3 a4) := by
  delta State.advance
  with_reducible repeat' first
    | assumption
    | apply State.issue_keeps
    | apply State.putThread_keeps
    | (extract_lets +onlyGivenNames x; first | (refine keeps_have (x := x) ?_ ?_; (on_goal 1 => dsimp -zeta only [x]; clear x); (on_goal 2 => (intro _; clear_value x; rename' x => y))) | (clear_value x; rename' x => y))
    | (intro; try beta_reduce)
    | apply_assumption

theorem State.goTo_keeps {r : State} {a1} {a2} {a3} (h1 : Keeps r a1) : Keeps r (State.goTo a1 a2 a3) := by
  delta State.goTo
  with_reducible repeat' first
    | assumption
    | apply State.putThread_keeps
    | (extract_lets +onlyGivenNames x; clear_value x; rename' x => y)
    | (intro; try beta_reduce)
    | refine keeps_ite ?_ ?_
    | split
    | apply_assumption

theorem State.needRows_keeps {r : State} {a1} {a2} (h1 : Keeps r a1) : Keeps r (State.needRows a1 a2) := by
  delta State.needRows
  with_reducible repeat' first
    | assumption
    | apply State.free_keeps
    | apply State.putThread_keeps
    | (extract_lets +onlyGivenNames x; first | (refine keeps_have (x := x.2) ?_ ?_; (on_goal 1 => dsimp -zeta only [x]; clear x); (on_goal 2 => (intro _; clear_value x; rename' x => y))) | (clear_value x; rename' x => y))
    | (intro; try beta_reduce)
    | refine keeps_ite ?_ ?_
    | refine keeps_ite2 ?_ ?_
    | split
    | apply_assumption

theorem State.noteWord_keeps {r : State} {a1} {a2} {a3} (h1 : Keeps r a1) : Keeps r (State.noteWord a1 a2 a3) := by
  delta State.noteWord
  with_reducible repeat' first
    | assumption
    | apply State.putThread_keeps
    | (extract_lets +onlyGivenNames x; clear_value x; rename' x => y)
    | (intro; try beta_reduce)
    | split
    | apply_assumption

theorem State.maskOrds_keeps {r : State} {a1} {a2} {a3} (h1 : Keeps r a1) : Keeps r (State.maskOrds a1 a2 a3) := by
  delta State.maskOrds
  with_reducible repeat' first
    | assumption
    | apply State.putThread_keeps
    | (extract_lets +onlyGivenNames x; clear_value x; rename' x => y)
    | (intro; try beta_reduce)
    | apply_assumption

theorem State.wordSegm_keeps {r : State} {a1} {a2} {a3} {a4} {a5} {a6} (h1 : Keeps r a1) : Keeps r (State.wordSegm a1 a2 a3 a4 a5 a6) := by
  delta State.wordSegm
  with_reducible repeat' first
    | assumption
    | apply State.putThread_keeps
    | apply State.advance_keeps
    | (extract_lets +onlyGivenNames x; first | (refine keeps_have (x := x) ?_ ?_; (on_goal 1 => dsimp -zeta only [x]; clear x); (on_goal 2 => (intro _; clear_value x; rename' x => y))) | (clear_value x; rename' x => y))
    | (intro; try beta_reduce)
    | refine keeps_ite ?_ ?_
    | split
    | apply_assumption

theorem State.capcFlags_keeps {r : State} {a1} {a2} {a3} {a4} {a5} (h1 : Keeps r a1) : Keeps r (State.capcFlags a1 a2 a3 a4 a5) := by
  delta State.capcFlags
  with_reducible repeat' first
    | assumption
    | apply State.putThread_keeps
    | (extract_lets +onlyGivenNames x; clear_value x; rename' x => y)
    | (intro; try beta_reduce)
    | refine keeps_ite ?_ ?_
    | split
    | apply_assumption

theorem State.wordFlag_keeps {r : State} {a1} {a2} {a3} {a4} {a5} {a6} {a7} {a8} (h1 : Keeps r a1) : Keeps r (State.wordFlag a1 a2 a3 a4 a5 a6 a7 a8) := by
  delta State.wordFlag
  with_reducible repeat' first
    | assumption
    | apply State.putThread_keeps
    | apply State.advance_keeps
    | (extract_lets +onlyGivenNames x; first | (refine keeps_have (x := x) ?_ ?_; (on_goal 1 => dsimp -zeta only [x]; clear x); (on_goal 2 => (intro _; clear_value x; rename' x => y))) | (clear_value x; rename' x => y))
    | (intro; try beta_reduce)
    | refine keeps_ite ?_ ?_
    | split
    | apply_assumption

theorem State.wordLoop_keeps {r : State} {a1} {a2} {a3} {a4} {a5} (h1 : Keeps r a1) : Keeps r (State.wordLoop a1 a2 a3 a4 a5) := by
  delta State.wordLoop
  with_reducible repeat' first
    | assumption
    | apply State.advance_keeps
    | apply State.putThread_keeps
    | (intro; try beta_reduce)
    | apply_assumption

theorem State.wordLend_keeps {r : State} {a1} {a2} {a3} {a4} (h1 : Keeps r a1) : Keeps r (State.wordLend a1 a2 a3 a4) := by
  delta State.wordLend
  with_reducible repeat' first
    | assumption
    | apply State.advance_keeps
    | apply State.putThread_keeps
    | apply State.goTo_keeps
    | (extract_lets +onlyGivenNames x; first | (refine keeps_have (x := x) ?_ ?_; (on_goal 1 => dsimp -zeta only [x]; clear x); (on_goal 2 => (intro _; clear_value x; rename' x => y))) | (clear_value x; rename' x => y))
    | (intro; try beta_reduce)
    | refine keeps_ite ?_ ?_
    | split
    | apply_assumption

theorem State.wordHalt_keeps {r : State} {a1} {a2} {a3} (h1 : Keeps r a1) : Keeps r (State.wordHalt a1 a2 a3) := by
  delta State.wordHalt
  with_reducible repeat' first
    | assumption
    | apply State.advance_keeps
    | apply State.putThread_keeps
    | (extract_lets +onlyGivenNames x; first | (refine keeps_have (x := x) ?_ ?_; (on_goal 1 => dsimp -zeta only [x]; clear x); (on_goal 2 => (intro _; clear_value x; rename' x => y))) | (clear_value x; rename' x => y))
    | (intro; try beta_reduce)
    | apply_assumption

theorem State.wordStop_keeps {r : State} {a1} {a2} {a3} (h1 : Keeps r a1) : Keeps r (State.wordStop a1 a2 a3) := by
  delta State.wordStop
  with_reducible repeat' first
    | assumption
    | apply State.issue_keeps
    | apply State.putThread_keeps
    | (extract_lets +onlyGivenNames x; first | (refine keeps_have (x := x) ?_ ?_; (on_goal 1 => dsimp -zeta only [x]; clear x); (on_goal 2 => (intro _; clear_value x; rename' x => y))) | (clear_value x; rename' x => y))
    | (intro; try beta_reduce)
    | apply_assumption

theorem State.wordJmp_keeps {r : State} {a1} {a2} {a3} {a4} {a5} (h1 : Keeps r a1) : Keeps r (State.wordJmp a1 a2 a3 a4 a5) := by
  delta State.wordJmp
  with_reducible repeat' first
    | assumption
    | apply State.advance_keeps
    | apply State.maskOrds_keeps
    | apply State.goTo_keeps
    | (extract_lets +onlyGivenNames x; first | (refine keeps_have (x := x) ?_ ?_; (on_goal 1 => dsimp -zeta only [x]; clear x); (on_goal 2 => (intro _; clear_value x; rename' x => y))) | (clear_value x; rename' x => y))
    | (intro; try beta_reduce)
    | refine keeps_ite ?_ ?_
    | split
    | apply_assumption

theorem State.wordCall_keeps {r : State} {a1} {a2} {a3} {a4} {a5} (h1 : Keeps r a1) : Keeps r (State.wordCall a1 a2 a3 a4 a5) := by
  delta State.wordCall
  with_reducible repeat' first
    | assumption
    | apply State.wordStop_keeps
    | apply State.advance_keeps
    | apply State.maskOrds_keeps
    | apply State.goTo_keeps
    | apply State.putThread_keeps
    | (extract_lets +onlyGivenNames x; first | (refine keeps_have (x := x) ?_ ?_; (on_goal 1 => dsimp -zeta only [x]; clear x); (on_goal 2 => (intro _; clear_value x; rename' x => y))) | (clear_value x; rename' x => y))
    | (intro; try beta_reduce)
    | refine keeps_ite ?_ ?_
    | split
    | apply_assumption

theorem State.wordRet_keeps {r : State} {a1} {a2} {a3} {a4} (h1 : Keeps r a1) : Keeps r (State.wordRet a1 a2 a3 a4) := by
  delta State.wordRet
  with_reducible repeat' first
    | assumption
    | apply State.wordStop_keeps
    | apply State.advance_keeps
    | apply State.maskOrds_keeps
    | apply State.goTo_keeps
    | apply State.putThread_keeps
    | (extract_lets +onlyGivenNames x; first | (refine keeps_have (x := x) ?_ ?_; (on_goal 1 => dsimp -zeta only [x]; clear x); (on_goal 2 => (intro _; clear_value x; rename' x => y))) | (clear_value x; rename' x => y))
    | (intro; try beta_reduce)
    | refine keeps_ite ?_ ?_
    | split
    | apply_assumption

theorem State.wordPref_keeps {r : State} {a1} {a2} {a3} (h1 : Keeps r a1) : Keeps r (State.wordPref a1 a2 a3) := by
  delta State.wordPref
  with_reducible repeat' first
    | assumption
    | apply State.advance_keeps
    | apply State.putThread_keeps
    | (extract_lets +onlyGivenNames x; first | (refine keeps_have (x := x) ?_ ?_; (on_goal 1 => dsimp -zeta only [x]; clear x); (on_goal 2 => (intro _; clear_value x; rename' x => y))) | (clear_value x; rename' x => y))
    | (intro; try beta_reduce)
    | apply_assumption

theorem State.beginWait_keeps {r : State} {a1} {a2} {a3} {a4} {a5} (h1 : Keeps r a1) : Keeps r (State.beginWait a1 a2 a3 a4 a5) := by
  delta State.beginWait
  with_reducible repeat' first
    | assumption
    | apply State.advance_keeps
    | apply State.putThread_keeps
    | (extract_lets +onlyGivenNames x; first | (refine keeps_have (x := x) ?_ ?_; (on_goal 1 => dsimp -zeta only [x]; clear x); (on_goal 2 => (intro _; clear_value x; rename' x => y))) | (clear_value x; rename' x => y))
    | (intro; try beta_reduce)
    | apply_assumption

theorem State.bankHeld_keeps {r : State} {a1} {a2} (h1 : Keeps r a1) : Keeps r (State.bankHeld a1 a2) := by
  delta State.bankHeld
  with_reducible repeat' first
    | assumption
    | apply State.putThread_keeps
    | apply State.enterReady_keeps
    | (extract_lets +onlyGivenNames x; first | (refine keeps_have (x := x) ?_ ?_; (on_goal 1 => dsimp -zeta only [x]; clear x); (on_goal 2 => (intro _; clear_value x; rename' x => y))) | (clear_value x; rename' x => y))
    | (intro; try beta_reduce)
    | refine keeps_ite ?_ ?_
    | split
    | apply_assumption

theorem State.wordSync_keeps {r : State} {a1} {a2} {a3} {a4} {a5} (h1 : Keeps r a1) : Keeps r (State.wordSync a1 a2 a3 a4 a5) := by
  delta State.wordSync
  with_reducible repeat' first
    | assumption
    | apply State.advance_keeps
    | apply State.bankHeld_keeps
    | apply State.putThread_keeps
    | apply State.beginWait_keeps
    | (extract_lets +onlyGivenNames x; first | (refine keeps_have (x := x) ?_ ?_; (on_goal 1 => dsimp -zeta only [x]; clear x); (on_goal 2 => (intro _; clear_value x; rename' x => y))) | (clear_value x; rename' x => y))
    | (intro; try beta_reduce)
    | refine keeps_ite ?_ ?_
    | split
    | apply_assumption

theorem State.wordWaittrig_keeps {r : State} {a1} {a2} {a3} {a4} (h1 : Keeps r a1) : Keeps r (State.wordWaittrig a1 a2 a3 a4) := by
  delta State.wordWaittrig
  with_reducible repeat' first
    | assumption
    | apply State.beginWait_keeps
    | apply State.putThread_keeps
    | (extract_lets +onlyGivenNames x; first | (refine keeps_have (x := x) ?_ ?_; (on_goal 1 => dsimp -zeta only [x]; clear x); (on_goal 2 => (intro _; clear_value x; rename' x => y))) | (clear_value x; rename' x => y))
    | (intro; try beta_reduce)
    | apply_assumption

theorem State.wordWaittime_keeps {r : State} {a1} {a2} {a3} (h1 : Keeps r a1) : Keeps r (State.wordWaittime a1 a2 a3) := by
  delta State.wordWaittime
  with_reducible repeat' first
    | assumption
    | apply State.advance_keeps
    | apply State.putThread_keeps
    | apply State.beginWait_keeps
    | (extract_lets +onlyGivenNames x; first | (refine keeps_have (x := x) ?_ ?_; (on_goal 1 => dsimp -zeta only [x]; clear x); (on_goal 2 => (intro _; clear_value x; rename' x => y))) | (clear_value x; rename' x => y))
    | (intro; try beta_reduce)
    | refine keeps_ite ?_ ?_
    | split
    | apply_assumption

theorem State.bodyRow_keeps {r : State} {a1} {a2} {a3} {a4} {a5} (h1 : Keeps r a1) : Keeps r (State.bodyRow a1 a2 a3 a4 a5) := by
  delta State.bodyRow
  with_reducible repeat' first
    | assumption
    | apply State.issue_keeps
    | apply State.capcFlags_keeps
    | (intro; try beta_reduce)
    | split
    | apply_assumption

theorem State.feedMatch_keeps {r : State} {a1} {a2} {a3} (h1 : Keeps r a1) : Keeps r (State.feedMatch a1 a2 a3) := by
  induction a3 generalizing a1 with
  | zero => exact h1
  | succ n ih =>
  unfold State.feedMatch
  with_reducible repeat' first
    | assumption
    | exact Keeps.refl _
    | apply ih
    | apply State.bodyRow_keeps
    | apply State.putThread_keeps
    | apply State.noteWord_keeps
    | (extract_lets +onlyGivenNames x; first | ((first | refine keeps_have (x := x) ?_ ?_ | refine keeps_have_out (x := x) ?_ ?_ | refine keeps_have (x := x.2) ?_ ?_ | refine keeps_have_out (x := x.2) ?_ ?_ | refine keeps_have (x := x.2.2) ?_ ?_ | refine keeps_have_out (x := x.2.2) ?_ ?_ | refine keeps_have (x := x.1) ?_ ?_ | refine keeps_have_out (x := x.1) ?_ ?_ | refine keeps_have_fun (x := x) ?_ ?_); (on_goal 1 => dsimp -zeta only [x]; clear x); (on_goal 2 => (intro _; clear_value x; rename' x => y))) | (clear_value x; rename' x => y))
    | refine keeps_fold _ _ ?_ ?_
    | refine keeps_fold1 _ _ ?_ ?_
    | refine keeps_fold2 _ _ ?_ ?_
    | (intro; try beta_reduce)
    | refine out_next ?_
    | refine out_within ?_
    | exact out_fault
    | exact Keeps.upd (by assumption)
    | refine keeps_ite ?_ ?_
    | refine keeps_ite1 ?_ ?_
    | refine keeps_ite2 ?_ ?_
    | split
    | apply_assumption

theorem State.wordMatch_keeps {r : State} {a1} {a2} {a3} {a4} {a5} (h1 : Keeps r a1) : Keeps r (State.wordMatch a1 a2 a3 a4 a5) := by
  delta State.wordMatch
  with_reducible repeat' first
    | assumption
    | apply State.feedMatch_keeps
    | apply State.putThread_keeps
    | (extract_lets +onlyGivenNames x; clear_value x; rename' x => y)
    | (intro; try beta_reduce)
    | refine keeps_ite ?_ ?_
    | split
    | apply_assumption

theorem State.word_keeps {r : State} {a1} {a2} {a3} (h1 : Keeps r a1) : Keeps r (State.word a1 a2 a3) := by
  delta State.word
  with_reducible repeat' first
    | assumption
    | apply State.advance_keeps
    | apply State.wordSegm_keeps
    | apply State.capcFlags_keeps
    | apply State.wordFlag_keeps
    | apply State.wordLoop_keeps
    | apply State.wordHalt_keeps
    | apply State.wordJmp_keeps
    | apply State.wordCall_keeps
    | apply State.wordRet_keeps
    | apply State.wordLend_keeps
    | apply State.wordPref_keeps
    | apply State.wordSync_keeps
    | apply State.wordMatch_keeps
    | apply State.wordWaittrig_keeps
    | apply State.wordWaittime_keeps
    | (intro; try beta_reduce)
    | split
    | apply_assumption

theorem State.noteWait_keeps {r : State} {a1} {a2} (h1 : Keeps r a1) : Keeps r (State.noteWait a1 a2) := by
  delta State.noteWait
  with_reducible repeat' first
    | assumption
    | apply State.put_keeps
    | apply State.putThread_keeps
    | (extract_lets +onlyGivenNames x; clear_value x; rename' x => y)
    | (intro; try beta_reduce)
    | refine keeps_ite ?_ ?_
    | split
    | apply_assumption

theorem State.runWord_keeps {r : State} {a1} {a2} {a3} (h1 : Keeps r a1) : Keeps r (State.runWord a1 a2 a3) := by
  delta State.runWord
  with_reducible repeat' first
    | assumption
    | apply State.holdThread_keeps
    | apply State.settleThread_keeps
    | apply State.needRows_keeps
    | apply State.word_keeps
    | apply State.noteWord_keeps
    | apply State.noteWait_keeps
    | (intro; try beta_reduce)
    | refine keeps_ite ?_ ?_
    | split
    | apply_assumption

theorem State.takeJump_keeps {r : State} {a1} {a2} {a3} {a4} (h1 : Keeps r a1) : Keeps r (State.takeJump a1 a2 a3 a4) := by
  delta State.takeJump
  with_reducible repeat' first
    | assumption
    | apply State.put_keeps
    | apply State.putThread_keeps
    | apply State.cmdDone_keeps
    | (extract_lets +onlyGivenNames x; first | (refine keeps_have (x := x) ?_ ?_; (on_goal 1 => dsimp -zeta only [x]; clear x); (on_goal 2 => (intro _; clear_value x; rename' x => y))) | (clear_value x; rename' x => y))
    | (intro; try beta_reduce)
    | refine keeps_ite ?_ ?_
    | split
    | apply_assumption

theorem State.jumpAtEnd_keeps {r : State} {a1} {a2} (h1 : Keeps r a1) : Keeps r (State.jumpAtEnd a1 a2) := by
  delta State.jumpAtEnd
  with_reducible repeat' first
    | assumption
    | apply State.takeJump_keeps
    | (intro; try beta_reduce)
    | refine keeps_ite ?_ ?_
    | split
    | apply_assumption

theorem State.endWait_keeps {r : State} {a1} {a2} {a3} (h1 : Keeps r a1) : Keeps r (State.endWait a1 a2 a3) := by
  delta State.endWait
  with_reducible repeat' first
    | assumption
    | apply State.jumpAtEnd_keeps
    | apply State.countIssued_keeps
    | apply State.putThread_keeps
    | apply State.oweCredit_keeps
    | apply State.enterReady_keeps
    | (extract_lets +onlyGivenNames x; first | (refine keeps_have (x := x) ?_ ?_; (on_goal 1 => dsimp -zeta only [x]; clear x); (on_goal 2 => (intro _; clear_value x; rename' x => y))) | (clear_value x; rename' x => y))
    | (intro; try beta_reduce)
    | refine keeps_ite ?_ ?_
    | split
    | apply_assumption

theorem State.wakeThread_keeps {r : State} {a1} {a2} {a3} (h1 : Keeps r a1) : Keeps r (State.wakeThread a1 a2 a3) := by
  delta State.wakeThread
  with_reducible repeat' first
    | assumption
    | apply State.endWait_keeps
    | (extract_lets +onlyGivenNames x; clear_value x; rename' x => y)
    | (intro; try beta_reduce)
    | split
    | apply_assumption

theorem State.trigThread_keeps {r : State} {a1} {a2} {a3} {a4} (h1 : Keeps r a1) : Keeps r (State.trigThread a1 a2 a3 a4) := by
  delta State.trigThread
  with_reducible repeat' first
    | assumption
    | apply State.endWait_keeps
    | apply State.putThread_keeps
    | (extract_lets +onlyGivenNames x; clear_value x; rename' x => y)
    | (intro; try beta_reduce)
    | refine keeps_ite ?_ ?_
    | split
    | apply_assumption

theorem State.trigArrive_keeps {r : State} {a1} {a2} {a3} (h1 : Keeps r a1) : Keeps r (State.trigArrive a1 a2 a3) := by
  delta State.trigArrive
  with_reducible repeat' first
    | assumption
    | apply State.trigThread_keeps
    | refine keeps_fold _ _ ?_ ?_
    | (intro; try beta_reduce)
    | apply_assumption

theorem State.takeToken_keeps {r : State} {a1} {a2} {a3} {a4} (h1 : Keeps r a1) : Keeps r (State.takeToken a1 a2 a3 a4) := by
  delta State.takeToken
  with_reducible repeat' first
    | assumption
    | apply State.wakeThread_keeps
    | apply State.putThread_keeps
    | apply State.holdThread_keeps
    | (extract_lets +onlyGivenNames x; first | (refine keeps_have (x := x) ?_ ?_; (on_goal 1 => dsimp -zeta only [x]; clear x); (on_goal 2 => (intro _; clear_value x; rename' x => y))) | (clear_value x; rename' x => y))
    | (intro; try beta_reduce)
    | refine keeps_ite ?_ ?_
    | split
    | apply_assumption

theorem State.setShares_keeps {r : State} {a1} (h1 : Keeps r a1) : Keeps r (State.setShares a1) := by
  delta State.setShares
  with_reducible repeat' first
    | assumption
    | apply State.putSlice_keeps
    | (extract_lets +onlyGivenNames x; clear_value x; rename' x => y)
    | refine keeps_fold _ _ ?_ ?_
    | (intro; try beta_reduce)
    | refine keeps_ite ?_ ?_
    | split
    | apply_assumption

theorem State.primeWords_keeps {r : State} {a1} {a2} {a3} (h1 : Keeps r a1) : Keeps r (State.primeWords a1 a2 a3) := by
  induction a3 generalizing a1 with
  | zero => exact h1
  | succ n ih =>
  unfold State.primeWords
  with_reducible repeat' first
    | assumption
    | exact Keeps.refl _
    | apply ih
    | apply State.noteWord_keeps
    | apply State.word_keeps
    | (extract_lets +onlyGivenNames x; first | ((first | refine keeps_have (x := x) ?_ ?_ | refine keeps_have_out (x := x) ?_ ?_ | refine keeps_have (x := x.2) ?_ ?_ | refine keeps_have_out (x := x.2) ?_ ?_ | refine keeps_have (x := x.2.2) ?_ ?_ | refine keeps_have_out (x := x.2.2) ?_ ?_ | refine keeps_have (x := x.1) ?_ ?_ | refine keeps_have_out (x := x.1) ?_ ?_ | refine keeps_have_fun (x := x) ?_ ?_); (on_goal 1 => dsimp -zeta only [x]; clear x); (on_goal 2 => (intro _; clear_value x; rename' x => y))) | (clear_value x; rename' x => y))
    | refine keeps_fold _ _ ?_ ?_
    | refine keeps_fold1 _ _ ?_ ?_
    | refine keeps_fold2 _ _ ?_ ?_
    | (intro; try beta_reduce)
    | refine out_next ?_
    | refine out_within ?_
    | exact out_fault
    | exact Keeps.upd (by assumption)
    | refine keeps_ite ?_ ?_
    | refine keeps_ite1 ?_ ?_
    | refine keeps_ite2 ?_ ?_
    | split
    | apply_assumption

theorem State.primeThread_keeps {r : State} {a1} {a2} (h1 : Keeps r a1) : Keeps r (State.primeThread a1 a2) := by
  delta State.primeThread
  with_reducible repeat' first
    | assumption
    | apply State.putThread_keeps
    | apply State.putSlice_keeps
    | apply State.put_keeps
    | apply State.primeWords_keeps
    | (extract_lets +onlyGivenNames x; first | (refine keeps_have (x := x) ?_ ?_; (on_goal 1 => dsimp -zeta only [x]; clear x); (on_goal 2 => (intro _; clear_value x; rename' x => y))) | (clear_value x; rename' x => y))
    | refine keeps_fold _ _ ?_ ?_
    | (intro; try beta_reduce)
    | apply_assumption

theorem State.primeAll_keeps {r : State} {a1} (h1 : Keeps r a1) : Keeps r (State.primeAll a1) := by
  delta State.primeAll
  with_reducible repeat' first
    | assumption
    | apply State.primeThread_keeps
    | refine keeps_fold _ _ ?_ ?_
    | (intro; try beta_reduce)
    | exact Keeps.upd (by assumption)
    | apply_assumption

end Sys2Proof.Machine
end

