-- ==== Sys2Proof/Laws/KeepsRingOps.lean ====
section
/-! SUPPORT. What the operations of Machine/RingOps.lean keep. -/

set_option linter.all false

namespace Sys2Proof.Machine

theorem State.queueFlit_keeps {r : State} {a1} {a2} {a3} {a4} (h1 : Keeps r a1) : Keeps r (State.queueFlit a1 a2 a3 a4) := by
  delta State.queueFlit
  with_reducible repeat' first
    | assumption
    | (extract_lets +onlyGivenNames x; clear_value x; rename' x => y)
    | (intro; try beta_reduce)
    | exact Keeps.upd (by assumption)
    | refine keeps_ite ?_ ?_
    | split
    | apply_assumption

theorem State.sendFlit_keeps {r : State} {a1} {a2} {a3} {a4} (h1 : Keeps r a1) : Keeps r (State.sendFlit a1 a2 a3 a4) := by
  delta State.sendFlit
  with_reducible repeat' first
    | assumption
    | apply State.emit_keeps
    | (extract_lets +onlyGivenNames x; clear_value x; rename' x => y)
    | (intro; try beta_reduce)
    | exact Keeps.upd (by assumption)
    | apply_assumption

theorem State.flitHome_keeps {r : State} {a1} {a2} (h1 : Keeps r a1) : Keeps r (State.flitHome a1 a2) := by
  delta State.flitHome
  with_reducible repeat' first
    | assumption
    | (extract_lets +onlyGivenNames x; clear_value x; rename' x => y)
    | (intro; try beta_reduce)
    | exact Keeps.upd (by assumption)
    | refine keeps_ite ?_ ?_
    | split
    | apply_assumption

theorem State.forward_keeps {r : State} {a1} {a2} {a3} (h1 : Keeps r a1) : Keeps r (State.forward a1 a2 a3) := by
  delta State.forward
  with_reducible repeat' first
    | assumption
    | apply State.emit_keeps
    | (intro; try beta_reduce)
    | apply_assumption

theorem State.badCrc_keeps {r : State} {a1} {a2} {a3} (h1 : Keeps r a1) : Keeps r (State.badCrc a1 a2 a3) := by
  delta State.badCrc
  with_reducible repeat' first
    | assumption
    | apply State.forward_keeps
    | apply State.count_keeps
    | (intro; try beta_reduce)
    | apply_assumption

theorem State.noteFlit_keeps {r : State} {a1} {a2} (h1 : Keeps r a1) : Keeps r (State.noteFlit a1 a2) := by
  delta State.noteFlit
  with_reducible repeat' first
    | assumption
    | (extract_lets +onlyGivenNames x; clear_value x; rename' x => y)
    | (intro; try beta_reduce)
    | exact Keeps.upd (by assumption)
    | apply_assumption

theorem State.ringFault_keeps {r : State} {a1} {a2} {a3} (h1 : Keeps r a1) : Keeps r (State.ringFault a1 a2 a3) := by
  delta State.ringFault
  with_reducible repeat' first
    | assumption
    | apply State.raiseAt_keeps
    | (intro; try beta_reduce)
    | apply_assumption

theorem State.setRingSt_keeps {r : State} {a1} {a2} (h1 : Keeps r a1) : Keeps r (State.setRingSt a1 a2) := by
  delta State.setRingSt
  with_reducible repeat' first
    | assumption
    | apply State.irq_keeps
    | apply State.putF_keeps
    | (intro; try beta_reduce)
    | refine keeps_ite ?_ ?_
    | split
    | apply_assumption

theorem State.setFernSt_keeps {r : State} {a1} {a2} (h1 : Keeps r a1) : Keeps r (State.setFernSt a1 a2) := by
  delta State.setFernSt
  with_reducible repeat' first
    | assumption
    | apply State.irq_keeps
    | apply State.putF_keeps
    | (intro; try beta_reduce)
    | refine keeps_ite ?_ ?_
    | split
    | apply_assumption

theorem State.ringDown_keeps {r : State} {a1} {a2} (h1 : Keeps r a1) : Keeps r (State.ringDown a1 a2) := by
  delta State.ringDown
  with_reducible repeat' first
    | assumption
    | apply State.put_keeps
    | apply State.setRingSt_keeps
    | (extract_lets +onlyGivenNames x; first | (refine keeps_have (x := x) ?_ ?_; (on_goal 1 => dsimp -zeta only [x]; clear x); (on_goal 2 => (intro _; clear_value x; rename' x => y))) | (clear_value x; rename' x => y))
    | (intro; try beta_reduce)
    | exact Keeps.upd (by assumption)
    | apply_assumption

theorem State.contribute_keeps {r : State} {a1} {a2} {a3} (h1 : Keeps r a1) : Keeps r (State.contribute a1 a2 a3) := by
  delta State.contribute
  with_reducible repeat' first
    | assumption
    | apply State.put_keeps
    | (extract_lets +onlyGivenNames x; clear_value x; rename' x => y)
    | (intro; try beta_reduce)
    | exact Keeps.upd (by assumption)
    | apply_assumption

theorem State.publish_keeps {r : State} {a1} {a2} {a3} {a4} {a5} (h1 : Keeps r a1) : Keeps r (State.publish a1 a2 a3 a4 a5) := by
  delta State.publish
  with_reducible repeat' first
    | assumption
    | apply State.putThread_keeps
    | apply State.queueFlit_keeps
    | (extract_lets +onlyGivenNames x; first | ((first | refine keeps_have (x := x) ?_ ?_ | refine keeps_have_fun (x := x) ?_ ?_); (on_goal 1 => dsimp -zeta only [x]; clear x); (on_goal 2 => (intro _; clear_value x; rename' x => y))) | (clear_value x; rename' x => y))
    | refine keeps_fold _ _ ?_ ?_
    | (intro; try beta_reduce)
    | exact Keeps.upd (by assumption)
    | refine keeps_ite ?_ ?_
    | split
    | apply_assumption

end Sys2Proof.Machine
end

