-- ==== Sys2Proof/Laws/KeepsUnits.lean ====
section
/-! SUPPORT. What the operations of Machine/Units.lean keep. -/

set_option linter.all false

namespace Sys2Proof.Machine

theorem State.pulse_keeps {r : State} {a1} {a2} (h1 : Keeps r a1) : Keeps r (State.pulse a1 a2) := by
  delta State.pulse
  with_reducible repeat' first
    | assumption
    | apply State.count_keeps
    | apply State.showTrigout_keeps
    | (intro; try beta_reduce)
    | exact Keeps.upd (by assumption)
    | refine keeps_ite ?_ ?_
    | split
    | apply_assumption

theorem State.putTiu_keeps {r : State} {a1} {a2} {a3} (h1 : Keeps r a1) : Keeps r (State.putTiu a1 a2 a3) := by
  delta State.putTiu
  with_reducible repeat' first
    | assumption
    | (intro; try beta_reduce)
    | exact Keeps.upd (by assumption)
    | apply_assumption

theorem State.armTiu_keeps {r : State} {a1} {a2} {a3} (h1 : Keeps r a1) : Keeps r (State.armTiu a1 a2 a3) := by
  delta State.armTiu
  with_reducible repeat' first
    | assumption
    | apply State.putF_keeps
    | apply State.putTiu_keeps
    | (extract_lets +onlyGivenNames x; clear_value x; rename' x => y)
    | (intro; try beta_reduce)
    | refine keeps_ite ?_ ?_
    | split
    | apply_assumption

theorem State.armTiuBy_keeps {r : State} {a1} {a2} {a3} {a4} (h1 : Keeps r a1) : Keeps r (State.armTiuBy a1 a2 a3 a4) := by
  delta State.armTiuBy
  with_reducible repeat' first
    | assumption
    | apply State.armTiu_keeps
    | apply State.countSat_keeps
    | (intro; try beta_reduce)
    | refine keeps_ite ?_ ?_
    | split
    | apply_assumption

theorem State.setAcq_keeps {r : State} {a1} {a2} {a3} (h1 : Keeps r a1) : Keeps r (State.setAcq a1 a2 a3) := by
  delta State.setAcq
  with_reducible repeat' first
    | assumption
    | apply State.put_keeps
    | (extract_lets +onlyGivenNames x; clear_value x; rename' x => y)
    | (intro; try beta_reduce)
    | refine keeps_ite ?_ ?_
    | split
    | apply_assumption

theorem State.offer_keeps {r : State} {a1} {a2} {a3} {a4} {a5} (h1 : Keeps r a1) : Keeps r (State.offer a1 a2 a3 a4 a5) := by
  delta State.offer
  with_reducible repeat' first
    | assumption
    | apply State.putAcq_keeps
    | (extract_lets +onlyGivenNames x; clear_value x; rename' x => y)
    | refine keeps_fold _ _ ?_ ?_
    | (intro; try beta_reduce)
    | refine keeps_ite ?_ ?_
    | split
    | apply_assumption

theorem State.tiuResultIn_keeps {r : State} {a1} {a2} {a3} {a4} {a5} {a6} (h1 : Keeps r a1) : Keeps r (State.tiuResultIn a1 a2 a3 a4 a5 a6) := by
  delta State.tiuResultIn
  with_reducible repeat' first
    | assumption
    | apply State.put_keeps
    | apply State.putTiu_keeps
    | apply State.offer_keeps
    | apply State.fault_keeps
    | apply State.irq_keeps
    | (extract_lets +onlyGivenNames x; first | (refine keeps_have (x := x) ?_ ?_; (on_goal 1 => dsimp -zeta only [x]; clear x); (on_goal 2 => (intro _; clear_value x; rename' x => y))) | (clear_value x; rename' x => y))
    | (intro; try beta_reduce)
    | refine keeps_ite ?_ ?_
    | split
    | apply_assumption

theorem State.tiuIdle_keeps {r : State} {a1} {a2} (h1 : Keeps r a1) : Keeps r (State.tiuIdle a1 a2) := by
  delta State.tiuIdle
  with_reducible repeat' first
    | assumption
    | apply State.putF_keeps
    | apply State.putTiu_keeps
    | (intro; try beta_reduce)
    | apply_assumption

theorem State.tiuCount_keeps {r : State} {a1} {a2} {a3} {a4} {a5} (h1 : Keeps r a1) : Keeps r (State.tiuCount a1 a2 a3 a4 a5) := by
  delta State.tiuCount
  with_reducible repeat' first
    | assumption
    | apply State.putF_keeps
    | apply State.putTiu_keeps
    | apply State.countSat_keeps
    | apply State.tiuResultIn_keeps
    | (extract_lets +onlyGivenNames x; clear_value x; rename' x => y)
    | (intro; try beta_reduce)
    | refine keeps_ite ?_ ?_
    | split
    | apply_assumption

theorem State.tiuLost_keeps {r : State} {a1} {a2} {a3} (h1 : Keeps r a1) : Keeps r (State.tiuLost a1 a2 a3) := by
  delta State.tiuLost
  with_reducible repeat' first
    | assumption
    | apply State.putF_keeps
    | apply State.putTiu_keeps
    | (extract_lets +onlyGivenNames x; clear_value x; rename' x => y)
    | (intro; try beta_reduce)
    | refine keeps_ite ?_ ?_
    | split
    | apply_assumption

theorem State.startAdc_keeps {r : State} {a1} {a2} (h1 : Keeps r a1) : Keeps r (State.startAdc a1 a2) := by
  delta State.startAdc
  with_reducible repeat' first
    | assumption
    | apply State.putF_keeps
    | (extract_lets +onlyGivenNames x; clear_value x; rename' x => y)
    | (intro; try beta_reduce)
    | exact Keeps.upd (by assumption)
    | refine keeps_ite ?_ ?_
    | split
    | apply_assumption

theorem State.startAdcBy_keeps {r : State} {a1} {a2} {a3} (h1 : Keeps r a1) : Keeps r (State.startAdcBy a1 a2 a3) := by
  delta State.startAdcBy
  with_reducible repeat' first
    | assumption
    | apply State.startAdc_keeps
    | apply State.count_keeps
    | (intro; try beta_reduce)
    | refine keeps_ite ?_ ?_
    | split
    | apply_assumption

theorem State.armUnit_keeps {r : State} {a1} {a2} {a3} (h1 : Keeps r a1) : Keeps r (State.armUnit a1 a2 a3) := by
  delta State.armUnit
  with_reducible repeat' first
    | assumption
    | apply State.putAcq_keeps
    | apply State.setAcq_keeps
    | apply State.fault_keeps
    | (extract_lets +onlyGivenNames x; first | (refine keeps_have (x := x) ?_ ?_; (on_goal 1 => dsimp -zeta only [x]; clear x); (on_goal 2 => (intro _; clear_value x; rename' x => y))) | (clear_value x; rename' x => y))
    | (intro; try beta_reduce)
    | refine keeps_ite ?_ ?_
    | split
    | apply_assumption

theorem State.armAcqBy_keeps {r : State} {a1} {a2} {a3} {a4} (h1 : Keeps r a1) : Keeps r (State.armAcqBy a1 a2 a3 a4) := by
  delta State.armAcqBy
  with_reducible repeat' first
    | assumption
    | apply State.countSat_keeps
    | apply State.armUnit_keeps
    | refine keeps_fold _ _ ?_ ?_
    | (intro; try beta_reduce)
    | refine keeps_ite ?_ ?_
    | split
    | apply_assumption

theorem State.fireUnit_keeps {r : State} {a1} {a2} {a3} {a4} {a5} {a6} (h1 : Keeps r a1) : Keeps r (State.fireUnit a1 a2 a3 a4 a5 a6) := by
  delta State.fireUnit
  with_reducible repeat' first
    | assumption
    | apply State.setAcq_keeps
    | apply State.putAcq_keeps
    | (extract_lets +onlyGivenNames x; clear_value x; rename' x => y)
    | (intro; try beta_reduce)
    | apply_assumption

theorem State.countTrigger_keeps {r : State} {a1} {a2} (h1 : Keeps r a1) : Keeps r (State.countTrigger a1 a2) := by
  delta State.countTrigger
  with_reducible repeat' first
    | assumption
    | apply State.countSat_keeps
    | (intro; try beta_reduce)
    | split
    | apply_assumption

theorem State.fireEffects_keeps {r : State} {a1} {a2} {a3} (h1 : Keeps r a1) : Keeps r (State.fireEffects a1 a2 a3) := by
  delta State.fireEffects
  extract_lets s1 s2 m
  have e1 : Keeps r s1 := by
    dsimp -zeta only [s1]
    split
    · refine keeps_fold _ _ h1 ?_
      intro u x hu
      split
      · split
        · exact State.putAcq_keeps hu
        · exact hu
      · split
        · exact hu
        · exact State.countTrigger_keeps hu
    · exact h1
  have e2 : Keeps r s2 := by
    refine keeps_fold _ _ e1 ?_
    intro u x hu
    split
    · exact State.pulse_keeps hu
    · exact hu
  refine keeps_fold _ _ e2 ?_
  intro u x hu
  split
  · split
    · exact State.count_keeps hu
    · exact Keeps.upd (State.queueFlit_keeps hu)
  · exact hu

theorem State.lineArms_keeps {r : State} {a1} {a2} {a3} (h1 : Keeps r a1) : Keeps r (State.lineArms a1 a2 a3) := by
  delta State.lineArms
  with_reducible repeat' first
    | assumption
    | apply State.armTiuBy_keeps
    | apply State.startAdcBy_keeps
    | apply State.armAcqBy_keeps
    | (extract_lets +onlyGivenNames x; refine keeps_have (x := x) ?_ ?_; (on_goal 1 => dsimp -zeta only [x]; clear x); (on_goal 2 => (intro _; clear_value x; rename' x => y)))
    | refine keeps_fold _ _ ?_ ?_
    | (intro; try beta_reduce)
    | refine keeps_ite ?_ ?_
    | split
    | apply_assumption

theorem State.lineArrive_keeps {r : State} {a1} {a2} {a3} {a4} (h1 : Keeps r a1) : Keeps r (State.lineArrive a1 a2 a3 a4) := by
  induction a4 generalizing a1 a2 a3 with
  | zero => exact h1
  | succ n ih =>
  unfold State.lineArrive
  with_reducible repeat' first
    | assumption
    | exact Keeps.refl _
    | apply ih
    | apply State.countTrigger_keeps
    | apply State.lineArms_keeps
    | apply State.trigArrive_keeps
    | apply State.fireUnit_keeps
    | apply State.fireEffects_keeps
    | (extract_lets +onlyGivenNames x; first | ((first | refine keeps_have (x := x) ?_ ?_ | refine keeps_have_out (x := x) ?_ ?_ | refine keeps_have (x := x.2) ?_ ?_ | refine keeps_have_out (x := x.2) ?_ ?_ | refine keeps_have (x := x.2.2) ?_ ?_ | refine keeps_have_out (x := x.2.2) ?_ ?_ | refine keeps_have (x := x.1) ?_ ?_ | refine keeps_have_out (x := x.1) ?_ ?_ | refine keeps_have_fun (x := x) ?_ ?_); (on_goal 1 => dsimp -zeta only [x]; clear x); (on_goal 2 => (intro _; clear_value x; rename' x => y))) | (clear_value x; rename' x => y))
    | refine keeps_fold _ _ ?_ ?_
    | refine keeps_fold1 _ _ ?_ ?_
    | refine keeps_fold2 _ _ ?_ ?_
    | (intro; try beta_reduce)
    | refine out_next ?_
    | refine out_within ?_
    | exact out_fault
    | exact Keeps.upd (by assumption)
    | refine keeps_ite ?_ ?_
    | refine keeps_ite1 ?_ ?_
    | refine keeps_ite2 ?_ ?_
    | split
    | apply_assumption

theorem State.line_keeps {r : State} {a1} {a2} {a3} (h1 : Keeps r a1) : Keeps r (State.line a1 a2 a3) := by
  delta State.line
  with_reducible repeat' first
    | assumption
    | apply State.lineArrive_keeps
    | (intro; try beta_reduce)
    | refine keeps_ite ?_ ?_
    | split
    | apply_assumption

theorem State.triginSeen_keeps {r : State} {a1} {a2} {a3} (h1 : Keeps r a1) : Keeps r (State.triginSeen a1 a2 a3) := by
  delta State.triginSeen
  with_reducible repeat' first
    | assumption
    | apply State.line_keeps
    | (intro; try beta_reduce)
    | refine keeps_ite ?_ ?_
    | split
    | apply_assumption

theorem State.fireSelf_keeps {r : State} {a1} {a2} {a3} {a4} (h1 : Keeps r a1) : Keeps r (State.fireSelf a1 a2 a3 a4) := by
  delta State.fireSelf
  with_reducible repeat' first
    | assumption
    | apply State.fireUnit_keeps
    | apply State.putAcq_keeps
    | apply State.line_keeps
    | apply State.fireEffects_keeps
    | (extract_lets +onlyGivenNames x; first | (refine keeps_have (x := x) ?_ ?_; (on_goal 1 => dsimp -zeta only [x]; clear x); (on_goal 2 => (intro _; clear_value x; rename' x => y))) | (clear_value x; rename' x => y))
    | refine keeps_fold _ _ ?_ ?_
    | refine keeps_fold1 _ _ ?_ ?_
    | refine keeps_fold2 _ _ ?_ ?_
    | (intro; try beta_reduce)
    | refine keeps_ite ?_ ?_
    | split
    | apply_assumption

theorem State.closeRecord_keeps {r : State} {a1} {a2} {a3} (h1 : Keeps r a1) : Keeps r (State.closeRecord a1 a2 a3) := by
  delta State.closeRecord
  with_reducible repeat' first
    | assumption
    | apply State.putAcq_keeps
    | apply State.irq_keeps
    | apply State.setAcq_keeps
    | (extract_lets +onlyGivenNames x; first | (refine keeps_have (x := x) ?_ ?_; (on_goal 1 => dsimp -zeta only [x]; clear x); (on_goal 2 => (intro _; clear_value x; rename' x => y))) | (clear_value x; rename' x => y))
    | (intro; try beta_reduce)
    | refine keeps_ite ?_ ?_
    | split
    | apply_assumption

theorem State.reduce_keeps {r : State} {a1} {a2} {a3} {a4} {a5} (h1 : Keeps r a1) : Keeps r (State.reduce a1 a2 a3 a4 a5) := by
  delta State.reduce
  with_reducible repeat' first
    | assumption
    | apply State.putAcq_keeps
    | (extract_lets +onlyGivenNames x; clear_value x; rename' x => y)
    | (intro; try beta_reduce)
    | refine keeps_ite ?_ ?_
    | split
    | apply_assumption

theorem State.markTrigger_keeps {r : State} {a1} {a2} (h1 : Keeps r a1) : Keeps r (State.markTrigger a1 a2) := by
  delta State.markTrigger
  with_reducible repeat' first
    | assumption
    | apply State.putAcq_keeps
    | (extract_lets +onlyGivenNames x; clear_value x; rename' x => y)
    | (intro; try beta_reduce)
    | apply_assumption

theorem State.maybeClose_keeps {r : State} {a1} {a2} (h1 : Keeps r a1) : Keeps r (State.maybeClose a1 a2) := by
  delta State.maybeClose
  with_reducible repeat' first
    | assumption
    | apply State.closeRecord_keeps
    | (extract_lets +onlyGivenNames x; clear_value x; rename' x => y)
    | (intro; try beta_reduce)
    | refine keeps_ite ?_ ?_
    | split
    | apply_assumption

theorem State.sample_keeps {r : State} {a1} {a2} {a3} {a4} {a5} {a6} (h1 : Keeps r a1) : Keeps r (State.sample a1 a2 a3 a4 a5 a6) := by
  delta State.sample
  with_reducible repeat' first
    | assumption
    | apply State.putAcq_keeps
    | apply State.maybeClose_keeps
    | apply State.fireSelf_keeps
    | apply State.reduce_keeps
    | apply State.markTrigger_keeps
    | apply State.countTrigger_keeps
    | (extract_lets +onlyGivenNames x; first | ((first | refine keeps_have (x := x) ?_ ?_ | refine keeps_have_fun (x := x) ?_ ?_); (on_goal 1 => dsimp -zeta only [x]; clear x); (on_goal 2 => (intro _; clear_value x; rename' x => y))) | (clear_value x; rename' x => y))
    | (intro; try beta_reduce)
    | refine keeps_ite ?_ ?_
    | split
    | apply_assumption

end Sys2Proof.Machine
end

