-- ==== Sys2Proof/Laws/KeepsDmaOps.lean ====
section
/-! SUPPORT. What the operations of Machine/DmaOps.lean keep. -/

set_option linter.all false

namespace Sys2Proof.Machine

theorem State.putChan_keeps {r : State} {a1} {a2} {a3} (h1 : Keeps r a1) : Keeps r (State.putChan a1 a2 a3) := by
  delta State.putChan
  exact Keeps.updDma h1

theorem State.clearDmaCounts_keeps {r : State} {a1} (h1 : Keeps r a1) : Keeps r (State.clearDmaCounts a1) := by
  delta State.clearDmaCounts
  with_reducible repeat' first
    | assumption
    | apply State.putChan_keeps
    | (extract_lets +onlyGivenNames x; clear_value x; rename' x => y)
    | refine keeps_fold _ _ ?_ ?_
    | (intro; try beta_reduce)
    | apply_assumption

theorem State.fetchDescs_keeps {r : State} {a1} {a2} (h1 : Keeps r a1) : Keeps r (State.fetchDescs a1 a2) := by
  delta State.fetchDescs
  with_reducible repeat' first
    | assumption
    | apply State.putChan_keeps
    | (intro; try beta_reduce)
    | refine keeps_ite ?_ ?_
    | split
    | apply_assumption

theorem State.dmaIrq_keeps {r : State} {a1} {a2} (h1 : Keeps r a1) : Keeps r (State.dmaIrq a1 a2) := by
  delta State.dmaIrq
  with_reducible repeat' first
    | assumption
    | apply State.irq_keeps
    | (intro; try beta_reduce)
    | apply_assumption

theorem State.closeOldest_keeps {r : State} {a1} {a2} {a3} {a4} {a5} (h1 : Keeps r a1) : Keeps r (State.closeOldest a1 a2 a3 a4 a5) := by
  delta State.closeOldest
  with_reducible repeat' first
    | assumption
    | apply State.emit_keeps
    | apply State.putChan_keeps
    | apply State.dmaIrq_keeps
    | apply State.fetchDescs_keeps
    | (extract_lets +onlyGivenNames x; first | (refine keeps_have (x := x) ?_ ?_; (on_goal 1 => dsimp -zeta only [x]; clear x); (on_goal 2 => (intro _; clear_value x; rename' x => y))) | (clear_value x; rename' x => y))
    | (intro; try beta_reduce)
    | refine keeps_ite ?_ ?_
    | split
    | apply_assumption

theorem State.abortOpen_keeps {r : State} {a1} {a2} {a3} {a4} {a5} (h1 : Keeps r a1) : Keeps r (State.abortOpen a1 a2 a3 a4 a5) := by
  induction a5 generalizing a1 with
  | zero => exact h1
  | succ n ih =>
  unfold State.abortOpen
  with_reducible repeat' first
    | assumption
    | exact Keeps.refl _
    | apply ih
    | apply State.closeOldest_keeps
    | (extract_lets +onlyGivenNames x; first | ((first | refine keeps_have (x := x) ?_ ?_ | refine keeps_have_out (x := x) ?_ ?_ | refine keeps_have (x := x.2) ?_ ?_ | refine keeps_have_out (x := x.2) ?_ ?_ | refine keeps_have (x := x.2.2) ?_ ?_ | refine keeps_have_out (x := x.2.2) ?_ ?_ | refine keeps_have (x := x.1) ?_ ?_ | refine keeps_have_out (x := x.1) ?_ ?_ | refine keeps_have_fun (x := x) ?_ ?_); (on_goal 1 => dsimp -zeta only [x]; clear x); (on_goal 2 => (intro _; clear_value x; rename' x => y))) | (clear_value x; rename' x => y))
    | refine keeps_fold _ _ ?_ ?_
    | refine keeps_fold1 _ _ ?_ ?_
    | refine keeps_fold2 _ _ ?_ ?_
    | (intro; try beta_reduce)
    | refine out_next ?_
    | refine out_within ?_
    | exact out_fault
    | exact Keeps.upd (by assumption)
    | refine keeps_ite ?_ ?_
    | refine keeps_ite1 ?_ ?_
    | refine keeps_ite2 ?_ ?_
    | split
    | apply_assumption

theorem State.closeLost_keeps {r : State} {a1} {a2} {a3} (h1 : Keeps r a1) : Keeps r (State.closeLost a1 a2 a3) := by
  induction a3 generalizing a1 with
  | zero => exact h1
  | succ n ih =>
  unfold State.closeLost
  with_reducible repeat' first
    | assumption
    | exact Keeps.refl _
    | apply ih
    | apply State.closeOldest_keeps
    | (extract_lets +onlyGivenNames x; first | ((first | refine keeps_have (x := x) ?_ ?_ | refine keeps_have_out (x := x) ?_ ?_ | refine keeps_have (x := x.2) ?_ ?_ | refine keeps_have_out (x := x.2) ?_ ?_ | refine keeps_have (x := x.2.2) ?_ ?_ | refine keeps_have_out (x := x.2.2) ?_ ?_ | refine keeps_have (x := x.1) ?_ ?_ | refine keeps_have_out (x := x.1) ?_ ?_ | refine keeps_have_fun (x := x) ?_ ?_); (on_goal 1 => dsimp -zeta only [x]; clear x); (on_goal 2 => (intro _; clear_value x; rename' x => y))) | (clear_value x; rename' x => y))
    | refine keeps_fold _ _ ?_ ?_
    | refine keeps_fold1 _ _ ?_ ?_
    | refine keeps_fold2 _ _ ?_ ?_
    | (intro; try beta_reduce)
    | refine out_next ?_
    | refine out_within ?_
    | exact out_fault
    | exact Keeps.upd (by assumption)
    | refine keeps_ite ?_ ?_
    | refine keeps_ite1 ?_ ?_
    | refine keeps_ite2 ?_ ?_
    | split
    | apply_assumption

theorem State.stopChannel_keeps {r : State} {a1} {a2} (h1 : Keeps r a1) : Keeps r (State.stopChannel a1 a2) := by
  delta State.stopChannel
  with_reducible repeat' first
    | assumption
    | apply State.putChan_keeps
    | apply State.abortOpen_keeps
    | apply State.dmaIrq_keeps
    | (extract_lets +onlyGivenNames x; first | (refine keeps_have (x := x) ?_ ?_; (on_goal 1 => dsimp -zeta only [x]; clear x); (on_goal 2 => (intro _; clear_value x; rename' x => y))) | (clear_value x; rename' x => y))
    | (intro; try beta_reduce)
    | refine keeps_ite ?_ ?_
    | split
    | apply_assumption

end Sys2Proof.Machine
end

