-- ==== Sys2Proof/Laws/KeepsDramOps.lean ====
section
/-! SUPPORT. What the operations of Machine/DramOps.lean keep. -/

set_option linter.all false

namespace Sys2Proof.Machine

theorem State.putSubch_keeps {r : State} {a1} {a2} {a3} (h1 : Keeps r a1) : Keeps r (State.putSubch a1 a2 a3) := by
  delta State.putSubch
  exact Keeps.updSubchs h1

theorem State.buildMap_keeps {r : State} {a1} (h1 : Keeps r a1) : Keeps r (State.buildMap a1) := by
  delta State.buildMap
  with_reducible repeat' first
    | assumption
    | apply State.put_keeps
    | apply State.countSat_keeps
    | apply State.putSubch_keeps
    | apply State.stale_keeps
    | (extract_lets +onlyGivenNames x; first | (refine keeps_have (x := x) ?_ ?_; (on_goal 1 => dsimp -zeta only [x]; clear x); (on_goal 2 => (intro _; clear_value x; rename' x => y))) | (clear_value x; rename' x => y))
    | refine keeps_fold _ _ ?_ ?_
    | (intro; try beta_reduce)
    | exact Keeps.upd (by assumption)
    | exact Keeps.updNoCells (by assumption)
    | apply_assumption

theorem State.trainStarts_keeps {r : State} {a1} (h1 : Keeps r a1) : Keeps r (State.trainStarts a1) := by
  delta State.trainStarts
  extract_lets s1 s2 s3
  have e1 : Keeps r s1 := keeps_fold _ _ h1 (fun u x hu => State.put_keeps hu)
  have e2 : Keeps r s2 := keeps_fold _ _ e1 (fun u x hu => keeps_fold _ _ hu (fun v y hv => State.put_keeps hv))
  have e3 : Keeps r s3 := keeps_fold _ _ e2 (fun u x hu => State.put_keeps hu)
  exact State.stale_keeps (Keeps.updTrain e3)

theorem State.dramUe_keeps {r : State} {a1} {a2} (h1 : Keeps r a1) : Keeps r (State.dramUe a1 a2) := by
  delta State.dramUe
  with_reducible repeat' first
    | assumption
    | apply State.put_keeps
    | apply State.countSat_keeps
    | apply State.fault_keeps
    | (extract_lets +onlyGivenNames x; first | (refine keeps_have (x := x) ?_ ?_; (on_goal 1 => dsimp -zeta only [x]; clear x); (on_goal 2 => (intro _; clear_value x; rename' x => y))) | (clear_value x; rename' x => y))
    | (intro; try beta_reduce)
    | apply_assumption

theorem State.dramCe_keeps {r : State} {a1} {a2} {a3} (h1 : Keeps r a1) : Keeps r (State.dramCe a1 a2 a3) := by
  delta State.dramCe
  with_reducible repeat' first
    | assumption
    | apply State.countSat_keeps
    | (extract_lets +onlyGivenNames x; clear_value x; rename' x => y)
    | (intro; try beta_reduce)
    | apply_assumption

theorem State.readBurst_keeps {r : State} {a1} {a2} {a3} (h1 : Keeps r a1) : Keeps r (State.readBurst a1 a2 a3).1 := by
  delta State.readBurst
  with_reducible repeat' first
    | assumption
    | apply State.examine_keeps
    | apply State.dramCe_keeps
    | apply State.dramUe_keeps
    | (extract_lets +onlyGivenNames x; (first | refine keeps_have (x := x) ?_ ?_ | refine keeps_have (x := x.1) ?_ ?_); (on_goal 1 => dsimp -zeta only [x]; clear x); (on_goal 2 => (intro _; clear_value x; rename' x => y)))
    | (intro; try beta_reduce)
    | refine keeps_ite ?_ ?_
    | refine keeps_ite1 ?_ ?_
    | split
    | apply_assumption

theorem State.enqueue_keeps {r : State} {a1} {a2} {a3} {a4} (h1 : Keeps r a1) : Keeps r (State.enqueue a1 a2 a3 a4) := by
  delta State.enqueue
  with_reducible repeat' first
    | assumption
    | apply State.putSubch_keeps
    | (extract_lets +onlyGivenNames x; clear_value x; rename' x => y)
    | (intro; try beta_reduce)
    | refine keeps_ite ?_ ?_
    | split
    | apply_assumption

theorem State.retire_keeps {r : State} {a1} {a2} {a3} (h1 : Keeps r a1) : Keeps r (State.retire a1 a2 a3) := by
  delta State.retire
  with_reducible repeat' first
    | assumption
    | apply State.putSubch_keeps
    | (extract_lets +onlyGivenNames x; clear_value x; rename' x => y)
    | (intro; try beta_reduce)
    | apply_assumption

theorem State.drainQueue_keeps {r : State} {a1} {a2} (h1 : Keeps r a1) : Keeps r (State.drainQueue a1 a2) := by
  delta State.drainQueue
  with_reducible repeat' first
    | assumption
    | apply State.putSubch_keeps
    | (extract_lets +onlyGivenNames x; clear_value x; rename' x => y)
    | (intro; try beta_reduce)
    | apply_assumption

theorem State.scrubBurst_keeps {r : State} {a1} (h1 : Keeps r a1) : Keeps r (State.scrubBurst a1) := by
  delta State.scrubBurst
  with_reducible repeat' first
    | assumption
    | apply State.free_keeps
    | apply State.readBurst_keeps
    | apply State.countSat_keeps
    | (extract_lets +onlyGivenNames x; first | ((first | refine keeps_have (x := x) ?_ ?_ | refine keeps_have (x := x.2) ?_ ?_); (on_goal 1 => dsimp -zeta only [x]; clear x); (on_goal 2 => (intro _; clear_value x; rename' x => y))) | (clear_value x; rename' x => y))
    | (intro; try beta_reduce)
    | exact Keeps.upd (by assumption)
    | refine keeps_ite ?_ ?_
    | refine keeps_ite2 ?_ ?_
    | split
    | apply_assumption

theorem State.scrub_keeps {r : State} {a1} (h1 : Keeps r a1) : Keeps r (State.scrub a1) := by
  delta State.scrub
  with_reducible repeat' first
    | assumption
    | apply State.scrubBurst_keeps
    | (extract_lets +onlyGivenNames x; clear_value x; rename' x => y)
    | (intro; try beta_reduce)
    | exact Keeps.upd (by assumption)
    | refine keeps_ite ?_ ?_
    | split
    | apply_assumption

theorem State.abortDram_keeps {r : State} {a1} {a2} (h1 : Keeps r a1) : Keeps r (State.abortDram a1 a2) := by
  delta State.abortDram
  with_reducible repeat' first
    | assumption
    | apply State.closeLost_keeps
    | apply State.putChan_keeps
    | (extract_lets +onlyGivenNames x; clear_value x; rename' x => y)
    | (intro; try beta_reduce)
    | refine keeps_ite ?_ ?_
    | split
    | apply_assumption

theorem State.disablePending_keeps {r : State} {a1} (h1 : Keeps r a1) : Keeps r (State.disablePending a1) := by
  delta State.disablePending
  with_reducible repeat' first
    | assumption
    | apply State.putF_keeps
    | apply State.abortDram_keeps
    | apply State.buildMap_keeps
    | apply State.collect_keeps
    | (extract_lets +onlyGivenNames x; first | (refine keeps_have (x := x) ?_ ?_; (on_goal 1 => dsimp -zeta only [x]; clear x); (on_goal 2 => (intro _; clear_value x; rename' x => y))) | (clear_value x; rename' x => y))
    | refine keeps_fold _ _ ?_ ?_
    | (intro; try beta_reduce)
    | exact Keeps.upd (by assumption)
    | refine keeps_ite ?_ ?_
    | split
    | apply_assumption

end Sys2Proof.Machine
end

