-- ==== Sys2Proof/Laws/KeepsFailLog.lean ====
section
/-! SUPPORT. What the operations of Machine/FailLog.lean keep. -/

set_option linter.all false

namespace Sys2Proof.Machine

theorem State.spillOne_keeps {r : State} {a1} (h1 : Keeps r a1) : Keeps r (State.spillOne a1) := by
  delta State.spillOne
  with_reducible repeat' first
    | assumption
    | apply State.examine_keeps
    | apply State.dropStaged_keeps
    | apply State.writeStaged_keeps
    | (extract_lets +onlyGivenNames x; refine keeps_have (x := x.1) ?_ ?_; (on_goal 1 => dsimp -zeta only [x]; clear x); (on_goal 2 => (intro _; clear_value x; rename' x => y)))
    | (intro; try beta_reduce)
    | refine keeps_ite ?_ ?_
    | refine keeps_ite1 ?_ ?_
    | split
    | apply_assumption

theorem State.spillMany_keeps {r : State} {a1} {a2} (h2 : Keeps r a2) : Keeps r (State.spillMany a1 a2) := by
  induction a1 generalizing a2 with
  | zero => exact h2
  | succ n ih => exact keeps_ite h2 (ih (State.spillOne_keeps h2))

theorem State.spill_keeps {r : State} {a1} {a2} (h1 : Keeps r a1) : Keeps r (State.spill a1 a2) := by
  delta State.spill
  with_reducible repeat' first
    | assumption
    | apply State.spillMany_keeps
    | (extract_lets +onlyGivenNames x; first | (refine keeps_have (x := x) ?_ ?_; (on_goal 1 => dsimp -zeta only [x]; clear x); (on_goal 2 => (intro _; clear_value x; rename' x => y))) | (clear_value x; rename' x => y))
    | (intro; try beta_reduce)
    | exact Keeps.upd (by assumption)
    | refine keeps_ite ?_ ?_
    | split
    | apply_assumption

theorem State.spillAll_keeps {r : State} {a1} (h1 : Keeps r a1) : Keeps r (State.spillAll a1) := by
  delta State.spillAll
  with_reducible repeat' first
    | assumption
    | apply State.spillMany_keeps
    | (extract_lets +onlyGivenNames x; first | (refine keeps_have (x := x) ?_ ?_; (on_goal 1 => dsimp -zeta only [x]; clear x); (on_goal 2 => (intro _; clear_value x; rename' x => y))) | (clear_value x; rename' x => y))
    | (intro; try beta_reduce)
    | exact Keeps.upd (by assumption)
    | apply_assumption

theorem State.logFail_keeps {r : State} {a1} {a2} {a3} {a4} {a5} {a6} {a7} {a8} (h1 : Keeps r a1) : Keeps r (State.logFail a1 a2 a3 a4 a5 a6 a7 a8) := by
  delta State.logFail
  with_reducible repeat' first
    | assumption
    | apply State.admitFail_keeps
    | apply State.putJudge_keeps
    | apply State.failOverflow_keeps
    | apply State.countBy_keeps
    | (extract_lets +onlyGivenNames x; clear_value x; rename' x => y)
    | (intro; try beta_reduce)
    | refine keeps_ite ?_ ?_
    | split
    | apply_assumption

end Sys2Proof.Machine
end

