-- ==== Sys2Proof/Laws/KeepsCycle.lean ====
section
/-! SUPPORT. What the operations of Machine/Cycle.lean keep. -/

set_option linter.all false

namespace Sys2Proof.Machine

theorem State.driveEvent_keeps {r : State} {a1} {a2} {a3} {a4} {a5} (h1 : Keeps r a1) : Keeps r (State.driveEvent a1 a2 a3 a4 a5).1 := by
  delta State.driveEvent
  with_reducible repeat' first
    | assumption
    | apply State.putThread_keeps
    | apply State.emit_keeps
    | apply State.setLane_keeps
    | (extract_lets +onlyGivenNames x; first | (refine keeps_have (x := x) ?_ ?_; (on_goal 1 => dsimp -zeta only [x]; clear x); (on_goal 2 => (intro _; clear_value x; rename' x => y))) | (clear_value x; rename' x => y))
    | (intro; try beta_reduce)
    | refine keeps_ite ?_ ?_
    | refine keeps_ite1 ?_ ?_
    | split
    | apply_assumption

theorem State.emitSamples_keeps {r : State} {a1} {a2} {a3} (h1 : Keeps r a1) : Keeps r (State.emitSamples a1 a2 a3) := by
  delta State.emitSamples
  with_reducible repeat' first
    | assumption
    | apply State.emit_keeps
    | refine keeps_fold _ _ ?_ ?_
    | (intro; try beta_reduce)
    | apply_assumption

theorem State.countStrobes_keeps {r : State} {a1} {a2} {a3} (h1 : Keeps r a1) : Keeps r (State.countStrobes a1 a2 a3) := by
  delta State.countStrobes
  with_reducible repeat' first
    | assumption
    | apply State.countBy_keeps
    | (extract_lets +onlyGivenNames x; clear_value x; rename' x => y)
    | (intro; try beta_reduce)
    | apply_assumption

theorem State.countFail_keeps {r : State} {a1} {a2} {a3} (h1 : Keeps r a1) : Keeps r (State.countFail a1 a2 a3) := by
  delta State.countFail
  with_reducible repeat' first
    | assumption
    | apply State.countBy_keeps
    | (extract_lets +onlyGivenNames x; clear_value x; rename' x => y)
    | (intro; try beta_reduce)
    | exact Keeps.upd (by assumption)
    | refine keeps_ite ?_ ?_
    | split
    | apply_assumption

theorem State.portFails_keeps {r : State} {a1} {a2} {a3} {a4} {a5} {a6} {a7} (h1 : Keeps r a1) : Keeps r (State.portFails a1 a2 a3 a4 a5 a6 a7) := by
  delta State.portFails
  refine keeps_ite h1 ?_
  extract_lets site s1 s2 b3 s3 s4 s5 s6 b7 s7 s8
  have e1 : Keeps r s1 := keeps_fold _ _ h1 (fun u x hu => State.countSat_keeps hu)
  have e2 : Keeps r s2 := keeps_fold _ _ e1 (fun u x hu => State.countFail_keeps hu)
  have e3 : Keeps r s3 := Keeps.upd e2
  have e4 : Keeps r s4 := State.siteFails_keeps e3
  have e7 : Keeps r s7 := keeps_ite (Keeps.upd (State.put_keeps (State.put_keeps e4))) e4
  have e8 : Keeps r s8 := keeps_fold _ _ e7 (fun u x hu => keeps_ite hu (State.logFail_keeps hu))
  exact State.putThread_keeps e8

theorem State.countFails_keeps {r : State} {a1} {a2} {a3} {a4} {a5} {a6} (h1 : Keeps r a1) : Keeps r (State.countFails a1 a2 a3 a4 a5 a6) := by
  delta State.countFails
  with_reducible repeat' first
    | assumption
    | apply State.portFails_keeps
    | refine keeps_fold _ _ ?_ ?_
    | (intro; try beta_reduce)
    | refine keeps_ite ?_ ?_
    | split
    | apply_assumption

theorem State.noteMatch_keeps {r : State} {a1} {a2} {a3} (h1 : Keeps r a1) : Keeps r (State.noteMatch a1 a2 a3) := by
  delta State.noteMatch
  with_reducible repeat' first
    | assumption
    | apply State.putThread_keeps
    | (extract_lets +onlyGivenNames x; first | (refine keeps_have_fun (x := x) ?_ ?_; (on_goal 1 => dsimp -zeta only [x]; clear x); (on_goal 2 => (intro _; clear_value x; rename' x => y))) | (clear_value x; rename' x => y))
    | (intro; try beta_reduce)
    | split
    | apply_assumption

theorem State.capturePort_keeps {r : State} {a1} {a2} {a3} {a4} {a5} {a6} {a7} (h1 : Keeps r a1) : Keeps r (State.capturePort a1 a2 a3 a4 a5 a6 a7) := by
  delta State.capturePort
  with_reducible repeat' first
    | assumption
    | apply State.capCycle_keeps
    | apply State.feedCapture_keeps
    | apply State.closeFrame_keeps
    | (extract_lets +onlyGivenNames x; clear_value x; rename' x => y)
    | (intro; try beta_reduce)
    | refine keeps_ite ?_ ?_
    | split
    | apply_assumption

theorem State.signCycle_keeps {r : State} {a1} {a2} {a3} {a4} {a5} (h1 : Keeps r a1) : Keeps r (State.signCycle a1 a2 a3 a4 a5) := by
  delta State.signCycle
  with_reducible repeat' first
    | assumption
    | apply State.sigReset_keeps
    | apply State.put_keeps
    | (extract_lets +onlyGivenNames x; first | (refine keeps_have (x := x) ?_ ?_; (on_goal 1 => dsimp -zeta only [x]; clear x); (on_goal 2 => (intro _; clear_value x; rename' x => y))) | (clear_value x; rename' x => y))
    | refine keeps_fold _ _ ?_ ?_
    | (intro; try beta_reduce)
    | refine keeps_ite ?_ ?_
    | split
    | apply_assumption

theorem State.fireEvent_keeps {r : State} {a1} {a2} {a3} {a4} (h1 : Keeps r a1) : Keeps r (State.fireEvent a1 a2 a3 a4).1 := by
  delta State.fireEvent
  with_reducible repeat' first
    | assumption
    | apply State.pulse_keeps
    | apply State.armTiuBy_keeps
    | apply State.startAdcBy_keeps
    | apply State.queueLoads_keeps
    | apply State.armAcqBy_keeps
    | apply State.queueFlit_keeps
    | apply State.publish_keeps
    | refine keeps_fold _ _ ?_ ?_
    | refine keeps_fold1 _ _ ?_ ?_
    | refine keeps_fold2 _ _ ?_ ?_
    | (intro; try beta_reduce)
    | exact Keeps.upd (by assumption)
    | refine keeps_ite ?_ ?_
    | refine keeps_ite1 ?_ ?_
    | split
    | apply_assumption

theorem State.driveCycle_keeps {r : State} {a1} {a2} {a3} {a4} (h1 : Keeps r a1) : Keeps r (State.driveCycle a1 a2 a3 a4).1 := by
  delta State.driveCycle
  with_reducible repeat' first
    | assumption
    | apply State.driveEvent_keeps
    | (extract_lets +onlyGivenNames x; first | (refine keeps_have (x := x.1) ?_ ?_; (on_goal 1 => dsimp -zeta only [x]; clear x); (on_goal 2 => (intro _; clear_value x; rename' x => y))) | (clear_value x; rename' x => y))
    | refine keeps_fold _ _ ?_ ?_
    | refine keeps_fold1 _ _ ?_ ?_
    | (intro; try beta_reduce)
    | refine keeps_ite ?_ ?_
    | refine keeps_ite1 ?_ ?_
    | split
    | apply_assumption

theorem State.underrun_keeps {r : State} {a1} {a2} {a3} (h1 : Keeps r a1) : Keeps r (State.underrun a1 a2 a3) := by
  delta State.underrun
  with_reducible repeat' first
    | assumption
    | apply State.count_keeps
    | apply State.stopThreads_keeps
    | apply State.fault_keeps
    | (extract_lets +onlyGivenNames x; refine keeps_have (x := x) ?_ ?_; (on_goal 1 => dsimp -zeta only [x]; clear x); (on_goal 2 => (intro _; clear_value x; rename' x => y)))
    | (intro; try beta_reduce)
    | refine keeps_ite ?_ ?_
    | split
    | apply_assumption

theorem State.repeatRow_keeps {r : State} {a1} {a2} (h1 : Keeps r a1) : Keeps r (State.repeatRow a1 a2) := by
  delta State.repeatRow
  with_reducible repeat' first
    | assumption
    | apply State.countIssued_keeps
    | apply State.putThread_keeps
    | (extract_lets +onlyGivenNames x; clear_value x; rename' x => y)
    | (intro; try beta_reduce)
    | refine keeps_ite ?_ ?_
    | split
    | apply_assumption

theorem State.stepCycle_keeps {r : State} {a1} {a2} {a3} (h1 : Keeps r a1) : Keeps r (State.stepCycle a1 a2 a3) := by
  delta State.stepCycle
  with_reducible repeat' first
    | assumption
    | apply State.countExecuted_keeps
    | apply State.putThread_keeps
    | apply State.setThreadSt_keeps
    | apply State.oweCredit_keeps
    | (extract_lets +onlyGivenNames x; first | (refine keeps_have (x := x) ?_ ?_; (on_goal 1 => dsimp -zeta only [x]; clear x); (on_goal 2 => (intro _; clear_value x; rename' x => y))) | (clear_value x; rename' x => y))
    | (intro; try beta_reduce)
    | refine keeps_ite ?_ ?_
    | split
    | apply_assumption

theorem State.endLate_keeps {r : State} {a1} {a2} (h1 : Keeps r a1) : Keeps r (State.endLate a1 a2) := by
  delta State.endLate
  with_reducible repeat' first
    | assumption
    | apply State.settleBurst_keeps
    | apply State.settleStop_keeps
    | apply State.endAll_keeps
    | (intro; try beta_reduce)
    | refine keeps_ite ?_ ?_
    | split
    | apply_assumption

theorem State.stepMatch_keeps {r : State} {a1} {a2} (h1 : Keeps r a1) : Keeps r (State.stepMatch a1 a2) := by
  delta State.stepMatch
  with_reducible repeat' first
    | assumption
    | apply State.feedMatch_keeps
    | apply State.putThread_keeps
    | (extract_lets +onlyGivenNames x; clear_value x; rename' x => y)
    | (intro; try beta_reduce)
    | refine keeps_ite ?_ ?_
    | split
    | apply_assumption

theorem State.takeMasks_keeps {r : State} {a1} {a2} {a3} {a4} {a5} (h1 : Keeps r a1) : Keeps r (State.takeMasks a1 a2 a3 a4 a5) := by
  delta State.takeMasks
  with_reducible repeat' first
    | assumption
    | apply State.maskSite_keeps
    | refine keeps_fold _ _ ?_ ?_
    | (intro; try beta_reduce)
    | refine keeps_ite ?_ ?_
    | split
    | apply_assumption

theorem State.runCycle_keeps {r : State} {a1} {a2} {a3} {a4} (h1 : Keeps r a1) : Keeps r (State.runCycle a1 a2 a3 a4) := by
  delta State.runCycle
  with_reducible repeat' first
    | assumption
    | apply State.takeMasks_keeps
    | apply State.spill_keeps
    | apply State.fireEvent_keeps
    | apply State.driveCycle_keeps
    | apply State.countStrobes_keeps
    | apply State.emitSamples_keeps
    | apply State.noteMatch_keeps
    | apply State.countFails_keeps
    | apply State.capturePort_keeps
    | apply State.signCycle_keeps
    | apply State.stepMatch_keeps
    | apply State.stepCycle_keeps
    | apply State.settleBurst_keeps
    | apply State.settleStop_keeps
    | apply State.endThread_keeps
    | apply State.collect_keeps
    | (extract_lets +onlyGivenNames x; first | ((first | refine keeps_have (x := x) ?_ ?_ | refine keeps_have (x := x.1) ?_ ?_); (on_goal 1 => dsimp -zeta only [x]; clear x); (on_goal 2 => (intro _; clear_value x; rename' x => y))) | (clear_value x; rename' x => y))
    | refine keeps_fold _ _ ?_ ?_
    | refine keeps_fold1 _ _ ?_ ?_
    | (intro; try beta_reduce)
    | refine keeps_ite ?_ ?_
    | refine keeps_ite1 ?_ ?_
    | split
    | apply_assumption

theorem State.checkWord_keeps {r : State} {a1} {a2} {a3} {a4} (h1 : Keeps r a1) : Keeps r (State.checkWord a1 a2 a3 a4).1 := by
  delta State.checkWord
  with_reducible repeat' first
    | assumption
    | apply State.count_keeps
    | (intro; try beta_reduce)
    | refine keeps_ite ?_ ?_
    | refine keeps_ite1 ?_ ?_
    | split
    | apply_assumption

theorem State.examineCycle_keeps {r : State} {a1} {a2} {a3} {a4} (h1 : Keeps r a1) : Keeps r (State.examineCycle a1 a2 a3 a4) := by
  delta State.examineCycle
  with_reducible repeat' first
    | assumption
    | apply State.examine_keeps
    | apply State.count_keeps
    | (extract_lets +onlyGivenNames x; first | ((first | refine keeps_have (x := x) ?_ ?_ | refine keeps_have (x := x.1) ?_ ?_); (on_goal 1 => dsimp -zeta only [x]; clear x); (on_goal 2 => (intro _; clear_value x; rename' x => y))) | (clear_value x; rename' x => y))
    | (intro; try beta_reduce)
    | refine keeps_ite ?_ ?_
    | refine keeps_ite1 ?_ ?_
    | split
    | apply_assumption

theorem State.fetchFault_keeps {r : State} {a1} {a2} {a3} (h1 : Keeps r a1) : Keeps r (State.fetchFault a1 a2 a3) := by
  delta State.fetchFault
  with_reducible repeat' first
    | assumption
    | apply State.dramUe_keeps
    | (extract_lets +onlyGivenNames x; clear_value x; rename' x => y)
    | (intro; try beta_reduce)
    | split
    | apply_assumption

theorem State.cycleOnce_keeps {r : State} {a1} {a2} {a3} {a4} {a5} (h1 : Keeps r a1) : Keeps r (State.cycleOnce a1 a2 a3 a4 a5) := by
  delta State.cycleOnce
  with_reducible repeat' first
    | assumption
    | apply State.underrun_keeps
    | apply State.fetchFault_keeps
    | apply State.stopThreads_keeps
    | apply State.checkWord_keeps
    | apply State.fault_keeps
    | apply State.examineCycle_keeps
    | apply State.runCycle_keeps
    | (extract_lets +onlyGivenNames x; (first | refine keeps_have (x := x) ?_ ?_ | refine keeps_have (x := x.1) ?_ ?_); (on_goal 1 => dsimp -zeta only [x]; clear x); (on_goal 2 => (intro _; clear_value x; rename' x => y)))
    | (intro; try beta_reduce)
    | refine keeps_ite ?_ ?_
    | refine keeps_ite1 ?_ ?_
    | split
    | apply_assumption

theorem State.cycleStart_keeps {r : State} {a1} {a2} {a3} {a4} {a5} (h1 : Keeps r a1) : Keeps r (State.cycleStart a1 a2 a3 a4 a5) := by
  delta State.cycleStart
  with_reducible repeat' first
    | assumption
    | apply State.endLate_keeps
    | apply State.cycleOnce_keeps
    | apply State.repeatRow_keeps
    | (intro; try beta_reduce)
    | refine keeps_ite ?_ ?_
    | split
    | apply_assumption

end Sys2Proof.Machine
end

