-- ==== Sys2Proof/Laws/KeepsTimeOps.lean ====
section
/-! SUPPORT. What the operations of Machine/TimeOps.lean keep. -/

set_option linter.all false

namespace Sys2Proof.Machine

theorem State.roundOpen_keeps {r : State} {a1} {a2} (h1 : Keeps r a1) : Keeps r (State.roundOpen a1 a2).2 := by
  delta State.roundOpen
  with_reducible repeat' first
    | assumption
    | apply State.freeChoice_keeps
    | (extract_lets +onlyGivenNames x; refine keeps_have (x := x.2) ?_ ?_; (on_goal 1 => dsimp -zeta only [x]; clear x); (on_goal 2 => (intro _; clear_value x; rename' x => y)))
    | (intro; try beta_reduce)
    | refine keeps_ite ?_ ?_
    | refine keeps_ite2 ?_ ?_
    | split
    | apply_assumption

theorem State.nearestOpen_keeps {r : State} {a1} {a2} (h1 : Keeps r a1) : Keeps r (State.nearestOpen a1 a2).2 := by
  delta State.nearestOpen
  with_reducible repeat' first
    | assumption
    | apply State.freeChoice_keeps
    | (extract_lets +onlyGivenNames x; first | (refine keeps_have (x := x.2) ?_ ?_; (on_goal 1 => dsimp -zeta only [x]; clear x); (on_goal 2 => (intro _; clear_value x; rename' x => y))) | (clear_value x; rename' x => y))
    | (intro; try beta_reduce)
    | refine keeps_ite ?_ ?_
    | refine keeps_ite2 ?_ ?_
    | split
    | apply_assumption

theorem State.putSlot_keeps {r : State} {a1} {a2} {a3} (h1 : Keeps r a1) : Keeps r (State.putSlot a1 a2 a3) := by
  delta State.putSlot
  with_reducible repeat' first
    | assumption
    | (intro; try beta_reduce)
    | exact Keeps.upd (by assumption)
    | apply_assumption

theorem State.convertSlot_keeps {r : State} {a1} {a2} (h1 : Keeps r a1) : Keeps r (State.convertSlot a1 a2) := by
  delta State.convertSlot
  with_reducible repeat' first
    | assumption
    | apply State.nearestOpen_keeps
    | apply State.putSlot_keeps
    | (extract_lets +onlyGivenNames x; first | (refine keeps_have (x := x.2) ?_ ?_; (on_goal 1 => dsimp -zeta only [x]; clear x); (on_goal 2 => (intro _; clear_value x; rename' x => y))) | (clear_value x; rename' x => y))
    | (intro; try beta_reduce)
    | apply_assumption

theorem State.runLate_keeps {r : State} {a1} {a2} {a3} (h1 : Keeps r a1) : Keeps r (State.runLate a1 a2 a3) := by
  delta State.runLate
  with_reducible repeat' first
    | assumption
    | apply State.put_keeps
    | apply State.putSlot_keeps
    | (extract_lets +onlyGivenNames x; clear_value x; rename' x => y)
    | (intro; try beta_reduce)
    | apply_assumption

theorem State.slotDecided_keeps {r : State} {a1} {a2} {a3} (h1 : Keeps r a1) : Keeps r (State.slotDecided a1 a2 a3) := by
  delta State.slotDecided
  with_reducible repeat' first
    | assumption
    | apply State.put_keeps
    | apply State.fault_keeps
    | apply State.convertSlot_keeps
    | apply State.irq_keeps
    | (extract_lets +onlyGivenNames x; first | (refine keeps_have (x := x) ?_ ?_; (on_goal 1 => dsimp -zeta only [x]; clear x); (on_goal 2 => (intro _; clear_value x; rename' x => y))) | (clear_value x; rename' x => y))
    | (intro; try beta_reduce)
    | refine keeps_ite ?_ ?_
    | split
    | apply_assumption

theorem State.slotTooLate_keeps {r : State} {a1} {a2} (h1 : Keeps r a1) : Keeps r (State.slotTooLate a1 a2) := by
  delta State.slotTooLate
  with_reducible repeat' first
    | assumption
    | apply State.countSat_keeps
    | apply State.irq_keeps
    | apply State.put_keeps
    | apply State.fault_keeps
    | (extract_lets +onlyGivenNames x; refine keeps_have (x := x) ?_ ?_; (on_goal 1 => dsimp -zeta only [x]; clear x); (on_goal 2 => (intro _; clear_value x; rename' x => y)))
    | (intro; try beta_reduce)
    | refine keeps_ite ?_ ?_
    | split
    | apply_assumption

theorem State.slotsFollow_keeps {r : State} {a1} {a2} (h1 : Keeps r a1) : Keeps r (State.slotsFollow a1 a2) := by
  delta State.slotsFollow
  with_reducible repeat' first
    | assumption
    | apply State.convertSlot_keeps
    | apply State.runLate_keeps
    | apply State.slotTooLate_keeps
    | refine keeps_fold _ _ ?_ ?_
    | (intro; try beta_reduce)
    | refine keeps_ite ?_ ?_
    | split
    | apply_assumption

theorem State.setTRef_keeps {r : State} {a1} {a2} (h1 : Keeps r a1) : Keeps r (State.setTRef a1 a2) := by
  delta State.setTRef
  with_reducible repeat' first
    | assumption
    | apply State.put_keeps
    | (intro; try beta_reduce)
    | apply_assumption

theorem State.setRate_keeps {r : State} {a1} {a2} (h1 : Keeps r a1) : Keeps r (State.setRate a1 a2) := by
  delta State.setRate
  with_reducible repeat' first
    | assumption
    | apply State.put_keeps
    | apply State.setTRef_keeps
    | apply State.slotsFollow_keeps
    | apply State.countSat_keeps
    | (extract_lets +onlyGivenNames x; refine keeps_have (x := x) ?_ ?_; (on_goal 1 => dsimp -zeta only [x]; clear x); (on_goal 2 => (intro _; clear_value x; rename' x => y)))
    | (intro; try beta_reduce)
    | refine keeps_ite ?_ ?_
    | split
    | apply_assumption

theorem State.applyStep_keeps {r : State} {a1} {a2} {a3} (h1 : Keeps r a1) : Keeps r (State.applyStep a1 a2 a3) := by
  delta State.applyStep
  with_reducible repeat' first
    | assumption
    | apply State.setTRef_keeps
    | apply State.countSat_keeps
    | apply State.put_keeps
    | apply State.slotsFollow_keeps
    | apply State.putF_keeps
    | (extract_lets +onlyGivenNames x; refine keeps_have (x := x) ?_ ?_; (on_goal 1 => dsimp -zeta only [x]; clear x); (on_goal 2 => (intro _; clear_value x; rename' x => y)))
    | (intro; try beta_reduce)
    | apply_assumption

theorem State.setClock_keeps {r : State} {a1} {a2} (h1 : Keeps r a1) : Keeps r (State.setClock a1 a2) := by
  delta State.setClock
  with_reducible repeat' first
    | assumption
    | apply State.putF_keeps
    | apply State.clearLive_keeps
    | (extract_lets +onlyGivenNames x; first | (refine keeps_have (x := x) ?_ ?_; (on_goal 1 => dsimp -zeta only [x]; clear x); (on_goal 2 => (intro _; clear_value x; rename' x => y))) | (clear_value x; rename' x => y))
    | (intro; try beta_reduce)
    | refine keeps_ite ?_ ?_
    | split
    | apply_assumption

theorem State.sourceWritten_keeps {r : State} {a1} (h1 : Keeps r a1) : Keeps r (State.sourceWritten a1) := by
  delta State.sourceWritten
  with_reducible repeat' first
    | assumption
    | apply State.putF_keeps
    | apply State.setClock_keeps
    | (extract_lets +onlyGivenNames x; refine keeps_have (x := x) ?_ ?_; (on_goal 1 => dsimp -zeta only [x]; clear x); (on_goal 2 => (intro _; clear_value x; rename' x => y)))
    | (intro; try beta_reduce)
    | exact Keeps.upd (by assumption)
    | refine keeps_ite ?_ ?_
    | split
    | apply_assumption

theorem State.steer_keeps {r : State} {a1} {a2} (h1 : Keeps r a1) : Keeps r (State.steer a1 a2) := by
  delta State.steer
  with_reducible repeat' first
    | assumption
    | apply State.roundOpen_keeps
    | apply State.setRate_keeps
    | (extract_lets +onlyGivenNames x; refine keeps_have (x := x.2) ?_ ?_; (on_goal 1 => dsimp -zeta only [x]; clear x); (on_goal 2 => (intro _; clear_value x; rename' x => y)))
    | (intro; try beta_reduce)
    | apply_assumption

theorem State.holdover_keeps {r : State} {a1} (h1 : Keeps r a1) : Keeps r (State.holdover a1) := by
  delta State.holdover
  with_reducible repeat' first
    | assumption
    | apply State.fault_keeps
    | apply State.steer_keeps
    | apply State.setClock_keeps
    | (extract_lets +onlyGivenNames x; refine keeps_have (x := x) ?_ ?_; (on_goal 1 => dsimp -zeta only [x]; clear x); (on_goal 2 => (intro _; clear_value x; rename' x => y)))
    | (intro; try beta_reduce)
    | exact Keeps.upd (by assumption)
    | refine keeps_ite ?_ ?_
    | split
    | apply_assumption

theorem State.clockUpdate_keeps {r : State} {a1} {a2} (h1 : Keeps r a1) : Keeps r (State.clockUpdate a1 a2) := by
  delta State.clockUpdate
  with_reducible repeat' first
    | assumption
    | apply State.putF_keeps
    | apply State.setClock_keeps
    | (extract_lets +onlyGivenNames x; first | (refine keeps_have (x := x) ?_ ?_; (on_goal 1 => dsimp -zeta only [x]; clear x); (on_goal 2 => (intro _; clear_value x; rename' x => y))) | (clear_value x; rename' x => y))
    | (intro; try beta_reduce)
    | exact Keeps.upd (by assumption)
    | refine keeps_ite ?_ ?_
    | split
    | apply_assumption

theorem State.servo_keeps {r : State} {a1} {a2} {a3} (h1 : Keeps r a1) : Keeps r (State.servo a1 a2 a3) := by
  delta State.servo
  with_reducible repeat' first
    | assumption
    | apply State.steer_keeps
    | apply State.clockUpdate_keeps
    | apply State.applyStep_keeps
    | apply State.put_keeps
    | apply State.fault_keeps
    | apply State.countSat_keeps
    | apply State.putF_keeps
    | (extract_lets +onlyGivenNames x; first | (refine keeps_have (x := x) ?_ ?_; (on_goal 1 => dsimp -zeta only [x]; clear x); (on_goal 2 => (intro _; clear_value x; rename' x => y))) | (clear_value x; rename' x => y))
    | (intro; try beta_reduce)
    | exact Keeps.upd (by assumption)
    | refine keeps_ite ?_ ?_
    | split
    | apply_assumption

end Sys2Proof.Machine
end

