-- ==== Sys2Proof/Laws/KeepsReading.lean ====
section
/-! SUPPORT. What the operations of Machine/Reading.lean keep. -/

set_option linter.all false

namespace Sys2Proof.Machine

theorem State.readRecord_keeps {r : State} {a1} {a2} {a3} (h1 : Keeps r a1) : Keeps r (State.readRecord a1 a2 a3).2 := by
  delta State.readRecord
  with_reducible repeat' first
    | assumption
    | (extract_lets +onlyGivenNames x; first | (refine keeps_have_fun (x := x) ?_ ?_; (on_goal 1 => dsimp -zeta only [x]; clear x); (on_goal 2 => (intro _; clear_value x; rename' x => y))) | (clear_value x; rename' x => y))
    | (intro; try beta_reduce)
    | exact Keeps.upd (by assumption)
    | refine keeps_ite ?_ ?_
    | refine keeps_ite2 ?_ ?_
    | split
    | apply_assumption

theorem State.noteRead_keeps {r : State} {a1} {a2} (h1 : Keeps r a1) : Keeps r (State.noteRead a1 a2) := by
  delta State.noteRead
  with_reducible repeat' first
    | assumption
    | (extract_lets +onlyGivenNames x; first | (refine keeps_have (x := x) ?_ ?_; (on_goal 1 => dsimp -zeta only [x]; clear x); (on_goal 2 => (intro _; clear_value x; rename' x => y))) | (clear_value x; rename' x => y))
    | (intro; try beta_reduce)
    | exact Keeps.upd (by assumption)
    | refine keeps_ite ?_ ?_
    | split
    | apply_assumption

theorem State.readValue_keeps {r : State} {a1} {a2} {a3} {a4} {a5} (h1 : Keeps r a1) : Keeps r (State.readValue a1 a2 a3 a4 a5).2 := by
  delta State.readValue
  with_reducible repeat' first
    | assumption
    | apply State.noteRead_keeps
    | apply State.readRecord_keeps
    | (extract_lets +onlyGivenNames x; refine keeps_have (x := x) ?_ ?_; (on_goal 1 => dsimp -zeta only [x]; clear x); (on_goal 2 => (intro _; clear_value x; rename' x => y)))
    | (intro; try beta_reduce)
    | refine keeps_ite ?_ ?_
    | refine keeps_ite2 ?_ ?_
    | split
    | apply_assumption

theorem State.doRead_keeps {r : State} {a1} {a2} {a3} {a4} {a5} (h1 : Keeps r a1) : Keeps r (State.doRead a1 a2 a3 a4 a5).2.2 := by
  delta State.doRead
  with_reducible repeat' first
    | assumption
    | apply State.readValue_keeps
    | apply State.free_keeps
    | (extract_lets +onlyGivenNames x; first | (refine keeps_have (x := x.2) ?_ ?_; (on_goal 1 => dsimp -zeta only [x]; clear x); (on_goal 2 => (intro _; clear_value x; rename' x => y))) | (clear_value x; rename' x => y))
    | (intro; try beta_reduce)
    | refine keeps_ite ?_ ?_
    | refine keeps_ite2 ?_ ?_
    | split
    | apply_assumption

theorem State.hotRead_keeps {r : State} {a1} {a2} (h1 : Keeps r a1) : Keeps r (State.hotRead a1 a2).2 := by
  delta State.hotRead
  with_reducible repeat' first
    | assumption
    | apply State.readValue_keeps
    | (intro; try beta_reduce)
    | refine keeps_ite ?_ ?_
    | refine keeps_ite2 ?_ ?_
    | split
    | apply_assumption

end Sys2Proof.Machine
end

