-- ==== Sys2Proof/Laws/KeepsWriting.lean ====
section
/-! SUPPORT. What the operations of Machine/Writing.lean keep. -/

set_option linter.all false

namespace Sys2Proof.Machine

theorem State.refreshPort_keeps {r : State} {a1} {a2} (h1 : Keeps r a1) : Keeps r (State.refreshPort a1 a2) := by
  delta State.refreshPort
  with_reducible repeat' first
    | assumption
    | apply State.put_keeps
    | (extract_lets +onlyGivenNames x; first | (refine keeps_have (x := x) ?_ ?_; (on_goal 1 => dsimp -zeta only [x]; clear x); (on_goal 2 => (intro _; clear_value x; rename' x => y))) | (clear_value x; rename' x => y))
    | (intro; try beta_reduce)
    | refine keeps_ite ?_ ?_
    | split
    | apply_assumption

theorem State.refreshGroup_keeps {r : State} {a1} {a2} (h1 : Keeps r a1) : Keeps r (State.refreshGroup a1 a2) := by
  delta State.refreshGroup
  with_reducible repeat' first
    | assumption
    | apply State.put_keeps
    | (intro; try beta_reduce)
    | refine keeps_ite ?_ ?_
    | split
    | apply_assumption

theorem State.refreshSessions_keeps {r : State} {a1} (h1 : Keeps r a1) : Keeps r (State.refreshSessions a1) := by
  delta State.refreshSessions
  with_reducible repeat' first
    | assumption
    | apply State.put_keeps
    | (intro; try beta_reduce)
    | apply_assumption

theorem State.closeSessions_keeps {r : State} {a1} {a2 : Session → Bool} (h1 : Keeps r a1) : Keeps r (State.closeSessions a1 a2) := by
  delta State.closeSessions
  with_reducible repeat' first
    | assumption
    | apply State.refreshSessions_keeps
    | (extract_lets +onlyGivenNames x; first | (refine keeps_have_fun (x := x) ?_ ?_; (on_goal 1 => dsimp -zeta only [x]; clear x); (on_goal 2 => (intro _; clear_value x; rename' x => y))) | (clear_value x; rename' x => y))
    | (intro; try beta_reduce)
    | exact Keeps.upd (by assumption)
    | split
    | apply_assumption

theorem State.stage_keeps {r : State} {a1} {a2} {a3} (h1 : Keeps r a1) : Keeps r (State.stage a1 a2 a3) := by
  delta State.stage
  with_reducible repeat' first
    | assumption
    | apply State.putF_keeps
    | (extract_lets +onlyGivenNames x; first | (refine keeps_have (x := x) ?_ ?_; (on_goal 1 => dsimp -zeta only [x]; clear x); (on_goal 2 => (intro _; clear_value x; rename' x => y))) | (clear_value x; rename' x => y))
    | (intro; try beta_reduce)
    | exact Keeps.upd (by assumption)
    | apply_assumption

theorem State.releaseRecord_keeps {r : State} {a1} {a2} {a3} (h1 : Keeps r a1) : Keeps r (State.releaseRecord a1 a2 a3) := by
  delta State.releaseRecord
  with_reducible repeat' first
    | assumption
    | apply State.putAcq_keeps
    | apply State.armUnit_keeps
    | apply State.setAcq_keeps
    | (extract_lets +onlyGivenNames x; first | (refine keeps_have (x := x) ?_ ?_; (on_goal 1 => dsimp -zeta only [x]; clear x); (on_goal 2 => (intro _; clear_value x; rename' x => y))) | (clear_value x; rename' x => y))
    | (intro; try beta_reduce)
    | refine keeps_ite ?_ ?_
    | split
    | apply_assumption

theorem State.clearOnes_keeps {r : State} {a1} {a2} {a3} (h1 : Keeps r a1) : Keeps r (State.clearOnes a1 a2 a3) := by
  delta State.clearOnes
  with_reducible repeat' first
    | assumption
    | apply State.put_keeps
    | (extract_lets +onlyGivenNames x; first | (refine keeps_have (x := x) ?_ ?_; (on_goal 1 => dsimp -zeta only [x]; clear x); (on_goal 2 => (intro _; clear_value x; rename' x => y))) | (clear_value x; rename' x => y))
    | (intro; try beta_reduce)
    | refine keeps_ite ?_ ?_
    | split
    | apply_assumption

theorem State.parkWritten_keeps {r : State} {a1} {a2} (h1 : Keeps r a1) : Keeps r (State.parkWritten a1 a2) := by
  delta State.parkWritten
  with_reducible repeat' first
    | assumption
    | apply State.parkDac_keeps
    | (intro; try beta_reduce)
    | refine keeps_ite ?_ ?_
    | split
    | apply_assumption

theorem State.keepFlags_keeps {r : State} {a1} (h1 : Keeps r a1) : Keeps r (State.keepFlags a1) := by
  delta State.keepFlags
  with_reducible repeat' first
    | assumption
    | (intro; try beta_reduce)
    | exact Keeps.upd (by assumption)
    | apply_assumption

theorem State.cfgInverted_keeps {r : State} {a1} {a2} {a3} {a4} (h1 : Keeps r a1) : Keeps r (State.cfgInverted a1 a2 a3 a4) := by
  delta State.cfgInverted
  with_reducible repeat' first
    | assumption
    | apply State.triginSeen_keeps
    | apply State.showTrigout_keeps
    | (intro; try beta_reduce)
    | refine keeps_ite ?_ ?_
    | split
    | apply_assumption

theorem State.applyWrite_keeps {r : State} {a1} {a2} {a3} (h1 : Keeps r a1) : Keeps r (State.applyWrite a1 a2 a3) := by
  delta State.applyWrite
  with_reducible repeat' first
    | assumption
    | apply State.put_keeps
    | apply State.clearOnes_keeps
    | apply State.stage_keeps
    | apply State.line_keeps
    | apply State.releaseRecord_keeps
    | apply State.keepFlags_keeps
    | apply State.stale_keeps
    | apply State.sourceWritten_keeps
    | apply State.closeSessions_keeps
    | apply State.refreshPort_keeps
    | apply State.refreshGroup_keeps
    | apply State.parkWritten_keeps
    | apply State.setAcq_keeps
    | apply State.cfgInverted_keeps
    | (extract_lets +onlyGivenNames x; first | (refine keeps_have (x := x) ?_ ?_; (on_goal 1 => dsimp -zeta only [x]; clear x); (on_goal 2 => (intro _; clear_value x; rename' x => y))) | (clear_value x; rename' x => y))
    | refine keeps_fold _ _ ?_ ?_
    | refine keeps_fold1 _ _ ?_ ?_
    | refine keeps_fold2 _ _ ?_ ?_
    | (intro; try beta_reduce)
    | refine keeps_ite ?_ ?_
    | split
    | apply_assumption

theorem State.overlay_keeps {r : State} {a1} {a2} {a3} (h1 : Keeps r a1) : Keeps r (State.overlay a1 a2 a3) := by
  delta State.overlay
  with_reducible repeat' first
    | assumption
    | (intro; try beta_reduce)
    | exact Keeps.upd (by assumption)
    | exact Keeps.updObjs (by assumption)
    | refine keeps_ite ?_ ?_
    | split
    | apply_assumption

theorem State.writePlain_keeps {r : State} {a1} {a2} {a3} {a4} (h1 : Keeps r a1) : Keeps r (State.writePlain a1 a2 a3 a4).2 := by
  delta State.writePlain
  with_reducible repeat' first
    | assumption
    | apply State.overlay_keeps
    | apply State.applyWrite_keeps
    | apply State.collect_keeps
    | (extract_lets +onlyGivenNames x; clear_value x; rename' x => y)
    | (intro; try beta_reduce)
    | split
    | apply_assumption

end Sys2Proof.Machine
end

