-- ==== Sys2Proof/Laws/KeepsAccess.lean ====
section
/-! SUPPORT. What the operations of Machine/Access.lean keep. -/

set_option linter.all false

namespace Sys2Proof.Machine

theorem State.hotRefused_keeps {r : State} {a1} {a2} {a3} (h1 : Keeps r a1) : Keeps r (State.hotRefused a1 a2 a3) := by
  delta State.hotRefused
  with_reducible repeat' first
    | assumption
    | apply State.put_keeps
    | apply State.fault_keeps
    | (extract_lets +onlyGivenNames x; first | (refine keeps_have (x := x) ?_ ?_; (on_goal 1 => dsimp -zeta only [x]; clear x); (on_goal 2 => (intro _; clear_value x; rename' x => y))) | (clear_value x; rename' x => y))
    | (intro; try beta_reduce)
    | refine keeps_ite ?_ ?_
    | split
    | apply_assumption

theorem State.gate_keeps {r : State} {a1} {a2} {a3} (h1 : Keeps r a1) (h3 : Keeps r a3.2) : Keeps r (State.gate a1 a2 a3).2 := by
  delta State.gate
  with_reducible repeat' first
    | assumption
    | (intro; try beta_reduce)
    | refine keeps_ite ?_ ?_
    | refine keeps_ite2 ?_ ?_
    | split
    | apply_assumption

theorem State.valueAfter_keeps {r : State} {a1} {a2} (h1 : Keeps r a1) : Keeps r (State.valueAfter a1 a2).2 := by
  delta State.valueAfter
  with_reducible repeat' first
    | assumption
    | apply State.free_keeps
    | (intro; try beta_reduce)
    | refine keeps_ite ?_ ?_
    | refine keeps_ite2 ?_ ?_
    | split
    | apply_assumption

theorem State.respond_keeps {r : State} {a1} {a2} {a3} {a4} {a5} (h1 : Keeps r a1) : Keeps r (State.respond a1 a2 a3 a4 a5) := by
  delta State.respond
  with_reducible repeat' first
    | assumption
    | apply State.valueAfter_keeps
    | apply State.answer_keeps
    | (extract_lets +onlyGivenNames x; refine keeps_have (x := x.2) ?_ ?_; (on_goal 1 => dsimp -zeta only [x]; clear x); (on_goal 2 => (intro _; clear_value x; rename' x => y)))
    | (intro; try beta_reduce)
    | apply_assumption

theorem State.access_keeps {r : State} {a1} {a2} {a3} {a4} {a5 : State → Code × State} (h1 : Keeps r a1) (hf5_0 : ∀ u1, Keeps r u1 → Keeps r (a5 u1).2) : Keeps r (State.access a1 a2 a3 a4 a5) := by
  delta State.access
  with_reducible repeat' first
    | assumption
    | apply State.hotRefused_keeps
    | apply State.gate_keeps
    | apply State.respond_keeps
    | (extract_lets +onlyGivenNames x; refine keeps_have (x := x.2) ?_ ?_; (on_goal 1 => dsimp -zeta only [x]; clear x); (on_goal 2 => (intro _; clear_value x; rename' x => y)))
    | (intro; try beta_reduce)
    | refine keeps_ite ?_ ?_
    | refine keeps_ite2 ?_ ?_
    | split
    | apply_assumption

theorem State.showDetail_keeps {r : State} {a1} {a2} (h1 : Keeps r a1) : Keeps r (State.showDetail a1 a2) := by
  delta State.showDetail
  with_reducible repeat' first
    | assumption
    | (intro; try beta_reduce)
    | exact Keeps.upd (by assumption)
    | refine keeps_ite ?_ ?_
    | split
    | apply_assumption

theorem State.accessDetail_keeps {r : State} {a1} {a2} {a3} {a4} {a5 : State → Code × State} {a6 : Code → Nat} (h1 : Keeps r a1) (hf5_0 : ∀ u1, Keeps r u1 → Keeps r (a5 u1).2) : Keeps r (State.accessDetail a1 a2 a3 a4 a5 a6) := by
  delta State.accessDetail
  with_reducible repeat' first
    | assumption
    | apply State.access_keeps
    | apply State.gate_keeps
    | apply State.showDetail_keeps
    | (extract_lets +onlyGivenNames x; first | (refine keeps_have (x := x) ?_ ?_; (on_goal 1 => dsimp -zeta only [x]; clear x); (on_goal 2 => (intro _; clear_value x; rename' x => y))) | (clear_value x; rename' x => y))
    | (intro; try beta_reduce)
    | refine keeps_ite ?_ ?_
    | split
    | apply_assumption

theorem State.accessPlain_keeps {r : State} {a1} {a2} {a3} {a4} {a5} (h1 : Keeps r a1) : Keeps r (State.accessPlain a1 a2 a3 a4 a5) := by
  delta State.accessPlain
  with_reducible repeat' first
    | assumption
    | apply State.access_keeps
    | apply State.writePlain_keeps
    | (intro; try beta_reduce)
    | apply_assumption

theorem State.readAt_keeps {r : State} {a1} {a2} {a3} {a4} {a5} (h1 : Keeps r a1) : Keeps r (State.readAt a1 a2 a3 a4 a5) := by
  delta State.readAt
  with_reducible repeat' first
    | assumption
    | apply State.emit_keeps
    | apply State.hotRead_keeps
    | apply State.doRead_keeps
    | apply State.answer_keeps
    | (extract_lets +onlyGivenNames x; (first | refine keeps_have (x := x.2) ?_ ?_ | refine keeps_have (x := x.2.2) ?_ ?_); (on_goal 1 => dsimp -zeta only [x]; clear x); (on_goal 2 => (intro _; clear_value x; rename' x => y)))
    | (intro; try beta_reduce)
    | refine keeps_ite ?_ ?_
    | refine keeps_ite2 ?_ ?_
    | split
    | apply_assumption

end Sys2Proof.Machine
end

