-- ==== Sys2Proof/Laws/KeepsInstrument.lean ====
section
/-! SUPPORT. What the operations of Machine/Instrument.lean keep. -/

set_option linter.all false

namespace Sys2Proof.Machine

theorem State.triginTakes_keeps {r : State} {a1} {a2} {a3} (h1 : Keeps r a1) : Keeps r (State.triginTakes a1 a2 a3) := by
  delta State.triginTakes
  with_reducible repeat' first
    | assumption
    | apply State.triginSeen_keeps
    | (extract_lets +onlyGivenNames x; first | (refine keeps_have (x := x) ?_ ?_; (on_goal 1 => dsimp -zeta only [x]; clear x); (on_goal 2 => (intro _; clear_value x; rename' x => y))) | (clear_value x; rename' x => y))
    | (intro; try beta_reduce)
    | exact Keeps.upd (by assumption)
    | refine keeps_ite ?_ ?_
    | split
    | apply_assumption

theorem execTriginEdge_keeps {r : State} {a1} {a2} {a3} (h3 : Keeps r a3) : OutKeeps r (execTriginEdge a1 a2 a3) := by
  delta execTriginEdge
  with_reducible repeat' first
    | assumption
    | apply within_keeps
    | apply State.triginTakes_keeps
    | (intro; try beta_reduce)
    | refine out_next ?_
    | refine out_within ?_
    | apply_assumption

theorem State.cmdTrigoutPulse_keeps {r : State} {a1} {a2} (h1 : Keeps r a1) : Keeps r (State.cmdTrigoutPulse a1 a2).2 := by
  delta State.cmdTrigoutPulse
  with_reducible repeat' first
    | assumption
    | apply State.cmdDone_keeps
    | apply State.pulse_keeps
    | (extract_lets +onlyGivenNames x; clear_value x; rename' x => y)
    | refine keeps_fold _ _ ?_ ?_
    | (intro; try beta_reduce)
    | refine keeps_ite ?_ ?_
    | refine keeps_ite2 ?_ ?_
    | split
    | apply_assumption

theorem execTrigoutPulse_keeps {r : State} {a1} {a2} {a3} (h3 : Keeps r a3) : OutKeeps r (execTrigoutPulse a1 a2 a3) := by
  delta execTrigoutPulse
  with_reducible repeat' first
    | assumption
    | apply State.access_keeps
    | apply State.cmdTrigoutPulse_keeps
    | (intro; try beta_reduce)
    | refine out_next ?_
    | apply_assumption

theorem execTrigoutEnd_keeps {r : State} {a1} {a2} (h2 : Keeps r a2) : OutKeeps r (execTrigoutEnd a1 a2) := by
  delta execTrigoutEnd
  with_reducible repeat' first
    | assumption
    | apply within_keeps
    | apply State.showTrigout_keeps
    | (intro; try beta_reduce)
    | refine out_next ?_
    | refine out_within ?_
    | exact Keeps.upd (by assumption)
    | refine out_ite ?_ ?_
    | refine keeps_ite ?_ ?_
    | split
    | apply_assumption

theorem State.tiuDisarmed_keeps {r : State} {a1} {a2} (h1 : Keeps r a1) : Keeps r (State.tiuDisarmed a1 a2) := by
  delta State.tiuDisarmed
  with_reducible repeat' first
    | assumption
    | apply State.tiuResultIn_keeps
    | apply State.putF_keeps
    | apply State.tiuIdle_keeps
    | (extract_lets +onlyGivenNames x; refine keeps_have (x := x) ?_ ?_; (on_goal 1 => dsimp -zeta only [x]; clear x); (on_goal 2 => (intro _; clear_value x; rename' x => y)))
    | (intro; try beta_reduce)
    | refine keeps_ite ?_ ?_
    | split
    | apply_assumption

theorem State.cmdTiuArm_keeps {r : State} {a1} {a2} {a3} (h1 : Keeps r a1) : Keeps r (State.cmdTiuArm a1 a2 a3).2 := by
  delta State.cmdTiuArm
  with_reducible repeat' first
    | assumption
    | apply State.cmdDone_keeps
    | apply State.armTiu_keeps
    | apply State.tiuDisarmed_keeps
    | (extract_lets +onlyGivenNames x; clear_value x; rename' x => y)
    | (intro; try beta_reduce)
    | refine keeps_ite ?_ ?_
    | refine keeps_ite2 ?_ ?_
    | split
    | apply_assumption

theorem execTiuArm_keeps {r : State} {a1} {a2} {a3} (h3 : Keeps r a3) : OutKeeps r (execTiuArm a1 a2 a3) := by
  delta execTiuArm
  with_reducible repeat' first
    | assumption
    | apply within_keeps
    | apply State.access_keeps
    | apply State.cmdTiuArm_keeps
    | (intro; try beta_reduce)
    | refine out_next ?_
    | refine out_within ?_
    | apply_assumption

theorem execTiuDisarm_keeps {r : State} {a1} {a2} {a3} (h3 : Keeps r a3) : OutKeeps r (execTiuDisarm a1 a2 a3) := by
  delta execTiuDisarm
  with_reducible repeat' first
    | assumption
    | apply within_keeps
    | apply State.access_keeps
    | apply State.cmdTiuArm_keeps
    | (intro; try beta_reduce)
    | refine out_next ?_
    | refine out_within ?_
    | apply_assumption

theorem State.tiuStamp_keeps {r : State} {a1} {a2} {a3} {a4} (h1 : Keeps r a1) : Keeps r (State.tiuStamp a1 a2 a3 a4).2 := by
  delta State.tiuStamp
  with_reducible repeat' first
    | assumption
    | apply State.nearestOpen_keeps
    | (extract_lets +onlyGivenNames x; first | (refine keeps_have (x := x.2) ?_ ?_; (on_goal 1 => dsimp -zeta only [x]; clear x); (on_goal 2 => (intro _; clear_value x; rename' x => y))) | (clear_value x; rename' x => y))
    | (intro; try beta_reduce)
    | refine keeps_ite ?_ ?_
    | refine keeps_ite2 ?_ ?_
    | split
    | apply_assumption

theorem State.tiuTakes_keeps {r : State} {a1} {a2} {a3} {a4} {a5} {a6} (h1 : Keeps r a1) : Keeps r (State.tiuTakes a1 a2 a3 a4 a5 a6) := by
  delta State.tiuTakes
  with_reducible repeat' first
    | assumption
    | apply State.tiuResultIn_keeps
    | apply State.countSat_keeps
    | apply State.tiuLost_keeps
    | apply State.tiuCount_keeps
    | (extract_lets +onlyGivenNames x; refine keeps_have (x := x) ?_ ?_; (on_goal 1 => dsimp -zeta only [x]; clear x); (on_goal 2 => (intro _; clear_value x; rename' x => y)))
    | (intro; try beta_reduce)
    | refine keeps_ite ?_ ?_
    | split
    | apply_assumption

theorem execTiuEdge_keeps {r : State} {a1} {a2} {a3} {a4} {a5} {a6} (h6 : Keeps r a6) : OutKeeps r (execTiuEdge a1 a2 a3 a4 a5 a6) := by
  delta execTiuEdge
  with_reducible repeat' first
    | assumption
    | apply within_keeps
    | apply State.tiuStamp_keeps
    | apply State.tiuTakes_keeps
    | (extract_lets +onlyGivenNames x; (first | refine keeps_have (x := x.2) ?_ ?_ | refine keeps_have_out (x := x.2) ?_ ?_); (on_goal 1 => dsimp -zeta only [x]; clear x); (on_goal 2 => (intro _; clear_value x; rename' x => y)))
    | (intro; try beta_reduce)
    | refine out_next ?_
    | refine out_within ?_
    | refine out_ite ?_ ?_
    | refine keeps_ite ?_ ?_
    | refine keeps_ite2 ?_ ?_
    | split
    | apply_assumption

theorem execTiuGateEnd_keeps {r : State} {a1} {a2} (h2 : Keeps r a2) : OutKeeps r (execTiuGateEnd a1 a2) := by
  delta execTiuGateEnd
  with_reducible repeat' first
    | assumption
    | apply within_keeps
    | apply State.tiuResultIn_keeps
    | (intro; try beta_reduce)
    | refine out_next ?_
    | refine out_within ?_
    | refine out_ite ?_ ?_
    | refine keeps_ite ?_ ?_
    | split
    | apply_assumption

theorem execTiuTimeout_keeps {r : State} {a1} {a2} (h2 : Keeps r a2) : OutKeeps r (execTiuTimeout a1 a2) := by
  delta execTiuTimeout
  with_reducible repeat' first
    | assumption
    | apply within_keeps
    | apply State.tiuResultIn_keeps
    | apply State.free_keeps
    | (extract_lets +onlyGivenNames x; first | ((first | refine keeps_have (x := x.2) ?_ ?_ | refine keeps_have_out (x := x.2) ?_ ?_); (on_goal 1 => dsimp -zeta only [x]; clear x); (on_goal 2 => (intro _; clear_value x; rename' x => y))) | (clear_value x; rename' x => y))
    | (intro; try beta_reduce)
    | refine out_next ?_
    | refine out_within ?_
    | exact out_fault
    | refine out_ite ?_ ?_
    | refine keeps_ite ?_ ?_
    | refine keeps_ite2 ?_ ?_
    | split
    | apply_assumption

theorem execTiuHoldoffEnd_keeps {r : State} {a1} {a2} (h2 : Keeps r a2) : OutKeeps r (execTiuHoldoffEnd a1 a2) := by
  delta execTiuHoldoffEnd
  with_reducible repeat' first
    | assumption
    | apply within_keeps
    | apply State.armTiu_keeps
    | (intro; try beta_reduce)
    | refine out_next ?_
    | refine out_within ?_
    | refine out_ite ?_ ?_
    | refine keeps_ite ?_ ?_
    | split
    | apply_assumption

theorem State.cmdAdcStart_keeps {r : State} {a1} {a2} {a3} (h1 : Keeps r a1) : Keeps r (State.cmdAdcStart a1 a2 a3).2 := by
  delta State.cmdAdcStart
  with_reducible repeat' first
    | assumption
    | apply State.cmdDone_keeps
    | apply State.startAdc_keeps
    | apply State.putF_keeps
    | (extract_lets +onlyGivenNames x; clear_value x; rename' x => y)
    | (intro; try beta_reduce)
    | refine keeps_ite ?_ ?_
    | refine keeps_ite2 ?_ ?_
    | split
    | apply_assumption

theorem execAdcStart_keeps {r : State} {a1} {a2} {a3} (h3 : Keeps r a3) : OutKeeps r (execAdcStart a1 a2 a3) := by
  delta execAdcStart
  with_reducible repeat' first
    | assumption
    | apply within_keeps
    | apply State.access_keeps
    | apply State.cmdAdcStart_keeps
    | (intro; try beta_reduce)
    | refine out_next ?_
    | refine out_within ?_
    | apply_assumption

theorem execAdcStop_keeps {r : State} {a1} {a2} {a3} (h3 : Keeps r a3) : OutKeeps r (execAdcStop a1 a2 a3) := by
  delta execAdcStop
  with_reducible repeat' first
    | assumption
    | apply within_keeps
    | apply State.access_keeps
    | apply State.cmdAdcStart_keeps
    | (intro; try beta_reduce)
    | refine out_next ?_
    | refine out_within ?_
    | apply_assumption

theorem State.convert_keeps {r : State} {a1} {a2} {a3} (h1 : Keeps r a1) : Keeps r (State.convert a1 a2 a3) := by
  delta State.convert
  with_reducible repeat' first
    | assumption
    | apply State.offer_keeps
    | apply State.put_keeps
    | apply State.putF_keeps
    | apply State.fault_keeps
    | (extract_lets +onlyGivenNames x; first | (refine keeps_have (x := x) ?_ ?_; (on_goal 1 => dsimp -zeta only [x]; clear x); (on_goal 2 => (intro _; clear_value x; rename' x => y))) | (clear_value x; rename' x => y))
    | (intro; try beta_reduce)
    | exact Keeps.upd (by assumption)
    | refine keeps_ite ?_ ?_
    | split
    | apply_assumption

theorem execAdcConversion_keeps {r : State} {a1} {a2} {a3} (h3 : Keeps r a3) : OutKeeps r (execAdcConversion a1 a2 a3) := by
  delta execAdcConversion
  with_reducible repeat' first
    | assumption
    | apply within_keeps
    | apply State.convert_keeps
    | (intro; try beta_reduce)
    | refine out_next ?_
    | refine out_within ?_
    | refine out_ite ?_ ?_
    | refine keeps_ite ?_ ?_
    | split
    | apply_assumption

theorem State.disarmAcq_keeps {r : State} {a1} {a2} (h1 : Keeps r a1) : Keeps r (State.disarmAcq a1 a2) := by
  delta State.disarmAcq
  with_reducible repeat' first
    | assumption
    | apply State.setAcq_keeps
    | apply State.putAcq_keeps
    | apply State.closeRecord_keeps
    | (extract_lets +onlyGivenNames x; clear_value x; rename' x => y)
    | (intro; try beta_reduce)
    | split
    | apply_assumption

theorem State.cmdAcqArm_keeps {r : State} {a1} {a2} {a3} (h1 : Keeps r a1) : Keeps r (State.cmdAcqArm a1 a2 a3).2 := by
  delta State.cmdAcqArm
  with_reducible repeat' first
    | assumption
    | apply State.cmdDone_keeps
    | apply State.armUnit_keeps
    | apply State.disarmAcq_keeps
    | (extract_lets +onlyGivenNames x; clear_value x; rename' x => y)
    | refine keeps_fold _ _ ?_ ?_
    | (intro; try beta_reduce)
    | refine keeps_ite ?_ ?_
    | refine keeps_ite2 ?_ ?_
    | split
    | apply_assumption

theorem execAcqArm_keeps {r : State} {a1} {a2} {a3} (h3 : Keeps r a3) : OutKeeps r (execAcqArm a1 a2 a3) := by
  delta execAcqArm
  with_reducible repeat' first
    | assumption
    | apply within_keeps
    | apply State.access_keeps
    | apply State.cmdAcqArm_keeps
    | (intro; try beta_reduce)
    | refine out_next ?_
    | refine out_within ?_
    | apply_assumption

theorem execAcqDisarm_keeps {r : State} {a1} {a2} {a3} (h3 : Keeps r a3) : OutKeeps r (execAcqDisarm a1 a2 a3) := by
  delta execAcqDisarm
  with_reducible repeat' first
    | assumption
    | apply within_keeps
    | apply State.access_keeps
    | apply State.cmdAcqArm_keeps
    | (intro; try beta_reduce)
    | refine out_next ?_
    | refine out_within ?_
    | apply_assumption

theorem State.cmdAcqForce_keeps {r : State} {a1} {a2} {a3} (h1 : Keeps r a1) : Keeps r (State.cmdAcqForce a1 a2 a3).2 := by
  delta State.cmdAcqForce
  with_reducible repeat' first
    | assumption
    | apply State.countTrigger_keeps
    | apply State.cmdDone_keeps
    | apply State.fireSelf_keeps
    | (extract_lets +onlyGivenNames x; clear_value x; rename' x => y)
    | (intro; try beta_reduce)
    | refine keeps_ite ?_ ?_
    | refine keeps_ite2 ?_ ?_
    | split
    | apply_assumption

theorem execAcqForce_keeps {r : State} {a1} {a2} {a3} (h3 : Keeps r a3) : OutKeeps r (execAcqForce a1 a2 a3) := by
  delta execAcqForce
  with_reducible repeat' first
    | assumption
    | apply within_keeps
    | apply State.access_keeps
    | apply State.cmdAcqForce_keeps
    | (intro; try beta_reduce)
    | refine out_next ?_
    | refine out_within ?_
    | apply_assumption

theorem execAcqSample_keeps {r : State} {a1} {a2} {a3} (h3 : Keeps r a3) : OutKeeps r (execAcqSample a1 a2 a3) := by
  delta execAcqSample
  with_reducible repeat' first
    | assumption
    | apply within_keeps
    | apply State.putAcq_keeps
    | apply State.sample_keeps
    | (extract_lets +onlyGivenNames x; first | ((first | refine keeps_have (x := x) ?_ ?_ | refine keeps_have_out (x := x) ?_ ?_); (on_goal 1 => dsimp -zeta only [x]; clear x); (on_goal 2 => (intro _; clear_value x; rename' x => y))) | (clear_value x; rename' x => y))
    | (intro; try beta_reduce)
    | refine out_next ?_
    | refine out_within ?_
    | exact out_fault
    | refine out_ite ?_ ?_
    | refine keeps_ite ?_ ?_
    | split
    | apply_assumption

theorem execAcqGroupFire_keeps {r : State} {a1} {a2} (h2 : Keeps r a2) : OutKeeps r (execAcqGroupFire a1 a2) := by
  delta execAcqGroupFire
  with_reducible repeat' first
    | assumption
    | apply within_keeps
    | apply State.fireUnit_keeps
    | apply State.putAcq_keeps
    | (extract_lets +onlyGivenNames x; clear_value x; rename' x => y)
    | (intro; try beta_reduce)
    | refine out_next ?_
    | refine out_within ?_
    | exact out_fault
    | refine out_ite ?_ ?_
    | refine keeps_ite ?_ ?_
    | split
    | apply_assumption

theorem execAcqRearmEnd_keeps {r : State} {a1} {a2} (h2 : Keeps r a2) : OutKeeps r (execAcqRearmEnd a1 a2) := by
  delta execAcqRearmEnd
  with_reducible repeat' first
    | assumption
    | apply within_keeps
    | apply State.armUnit_keeps
    | apply State.setAcq_keeps
    | apply State.putAcq_keeps
    | (extract_lets +onlyGivenNames x; clear_value x; rename' x => y)
    | (intro; try beta_reduce)
    | refine out_next ?_
    | refine out_within ?_
    | refine out_ite ?_ ?_
    | refine keeps_ite ?_ ?_
    | split
    | apply_assumption

theorem execAcqRelease_keeps {r : State} {a1} {a2} {a3} {a4} (h4 : Keeps r a4) : OutKeeps r (execAcqRelease a1 a2 a3 a4) := by
  delta execAcqRelease
  with_reducible repeat' first
    | assumption
    | apply within_keeps
    | apply State.accessPlain_keeps
    | (intro; try beta_reduce)
    | refine out_next ?_
    | refine out_within ?_
    | apply_assumption

theorem State.failRate_keeps {r : State} {a1} {a2} (h1 : Keeps r a1) : Keeps r (State.failRate a1 a2) := by
  delta State.failRate
  with_reducible repeat' first
    | assumption
    | apply State.putAcq_keeps
    | (extract_lets +onlyGivenNames x; first | (refine keeps_have (x := x) ?_ ?_; (on_goal 1 => dsimp -zeta only [x]; clear x); (on_goal 2 => (intro _; clear_value x; rename' x => y))) | (clear_value x; rename' x => y))
    | refine keeps_fold _ _ ?_ ?_
    | (intro; try beta_reduce)
    | exact Keeps.upd (by assumption)
    | refine keeps_ite ?_ ?_
    | split
    | apply_assumption

theorem execFailRateInterval_keeps {r : State} {a1} {a2} (h2 : Keeps r a2) : OutKeeps r (execFailRateInterval a1 a2) := by
  delta execFailRateInterval
  with_reducible repeat' first
    | assumption
    | apply within_keeps
    | apply State.failRate_keeps
    | (intro; try beta_reduce)
    | refine out_next ?_
    | refine out_within ?_
    | refine out_ite ?_ ?_
    | refine keeps_ite ?_ ?_
    | split
    | apply_assumption

end Sys2Proof.Machine
end

