-- ==== Sys2Proof/Laws/KeepsBadger.lean ====
section
/-! SUPPORT. What the operations of Machine/Badger.lean keep. -/

set_option linter.all false

namespace Sys2Proof.Machine

theorem State.enqueueReq_keeps {r : State} {a1} {a2} (h1 : Keeps r a1) : Keeps r (State.enqueueReq a1 a2) := by
  delta State.enqueueReq
  with_reducible repeat' first
    | assumption
    | (extract_lets +onlyGivenNames x; clear_value x; rename' x => y)
    | (intro; try beta_reduce)
    | exact Keeps.upd (by assumption)
    | refine keeps_ite ?_ ?_
    | split
    | apply_assumption

theorem State.cmdReq_keeps {r : State} {a1} {a2} {a3} (h1 : Keeps r a1) : Keeps r (State.cmdReq a1 a2 a3).2 := by
  delta State.cmdReq
  with_reducible repeat' first
    | assumption
    | apply State.cmdPend_keeps
    | apply State.putF_keeps
    | apply State.enqueueReq_keeps
    | (extract_lets +onlyGivenNames x; clear_value x; rename' x => y)
    | (intro; try beta_reduce)
    | refine keeps_ite ?_ ?_
    | refine keeps_ite2 ?_ ?_
    | split
    | apply_assumption

theorem execReqCmd_keeps {r : State} {a1} {a2} {a3} {a4} (h4 : Keeps r a4) : OutKeeps r (execReqCmd a1 a2 a3 a4) := by
  delta execReqCmd
  with_reducible repeat' first
    | assumption
    | apply within_keeps
    | apply State.accessDetail_keeps
    | apply State.cmdReq_keeps
    | (intro; try beta_reduce)
    | refine out_next ?_
    | refine out_within ?_
    | apply_assumption

theorem State.leaveQueue_keeps {r : State} {a1} {a2} (h1 : Keeps r a1) : Keeps r (State.leaveQueue a1 a2) := by
  delta State.leaveQueue
  with_reducible repeat' first
    | assumption
    | (intro; try beta_reduce)
    | exact Keeps.upd (by assumption)
    | apply_assumption

theorem State.failReq_keeps {r : State} {a1} {a2} {a3} (h1 : Keeps r a1) : Keeps r (State.failReq a1 a2 a3) := by
  delta State.failReq
  with_reducible repeat' first
    | assumption
    | apply State.cmdFail_keeps
    | apply State.leaveQueue_keeps
    | (intro; try beta_reduce)
    | apply_assumption

theorem State.dropRoutine_keeps {r : State} {a1} {a2} (h1 : Keeps r a1) : Keeps r (State.dropRoutine a1 a2) := by
  delta State.dropRoutine
  with_reducible repeat' first
    | assumption
    | apply State.endStimulus_keeps
    | (intro; try beta_reduce)
    | split
    | apply_assumption

theorem State.cmdCalCancel_keeps {r : State} {a1} {a2} (h1 : Keeps r a1) : Keeps r (State.cmdCalCancel a1 a2).2 := by
  delta State.cmdCalCancel
  with_reducible repeat' first
    | assumption
    | apply State.cmdDone_keeps
    | apply State.failReq_keeps
    | apply State.dropRoutine_keeps
    | (extract_lets +onlyGivenNames x; clear_value x; rename' x => y)
    | (intro; try beta_reduce)
    | refine keeps_ite ?_ ?_
    | refine keeps_ite2 ?_ ?_
    | split
    | apply_assumption

theorem execCalCancel_keeps {r : State} {a1} {a2} {a3} (h3 : Keeps r a3) : OutKeeps r (execCalCancel a1 a2 a3) := by
  delta execCalCancel
  with_reducible repeat' first
    | assumption
    | apply State.access_keeps
    | apply State.cmdCalCancel_keeps
    | (intro; try beta_reduce)
    | refine out_next ?_
    | apply_assumption

theorem execReqDeadline_keeps {r : State} {a1} {a2} (h2 : Keeps r a2) : OutKeeps r (execReqDeadline a1 a2) := by
  delta execReqDeadline
  with_reducible repeat' first
    | assumption
    | apply within_keeps
    | apply State.failReq_keeps
    | (intro; try beta_reduce)
    | refine out_next ?_
    | refine out_within ?_
    | refine out_ite ?_ ?_
    | refine keeps_ite ?_ ?_
    | split
    | apply_assumption

theorem State.loadTest_keeps {r : State} {a1} {a2} (h1 : Keeps r a1) : Keeps r (State.loadTest a1 a2) := by
  delta State.loadTest
  with_reducible repeat' first
    | assumption
    | apply State.setDac_keeps
    | refine keeps_fold _ _ ?_ ?_
    | refine keeps_fold1 _ _ ?_ ?_
    | refine keeps_fold2 _ _ ?_ ?_
    | (intro; try beta_reduce)
    | refine keeps_ite ?_ ?_
    | split
    | apply_assumption

theorem State.startRoutine_keeps {r : State} {a1} {a2} (h1 : Keeps r a1) : Keeps r (State.startRoutine a1 a2) := by
  delta State.startRoutine
  extract_lets sls code dacs s1 q s2 s3 s4
  have e1 : Keeps r s1 := keeps_ite (State.stopThreads_keeps h1) h1
  have e2 : Keeps r s2 := State.loadTest_keeps (Keeps.upd e1)
  have e3 : Keeps r s3 := keeps_fold _ _ e2 (fun u x hu => State.put_keeps (State.putSlice_keeps hu))
  have e4 : Keeps r s4 := keeps_ite (State.stimulate_keeps (State.setLbk_keeps e3)) (State.driveSlices_keeps e3)
  exact keeps_ite e1 (State.cmdRun_keeps (State.put_keeps e4))

theorem execRoutineStart_keeps {r : State} {a1} (h1 : Keeps r a1) : OutKeeps r (execRoutineStart a1) := by
  delta execRoutineStart
  with_reducible repeat' first
    | assumption
    | apply State.startRoutine_keeps
    | (intro; try beta_reduce)
    | refine out_next ?_
    | exact out_fault
    | refine out_ite ?_ ?_
    | refine keeps_ite ?_ ?_
    | split
    | apply_assumption

theorem State.waitEnds_keeps {r : State} {a1} {a2} (h1 : Keeps r a1) : Keeps r (State.waitEnds a1 a2) := by
  delta State.waitEnds
  with_reducible repeat' first
    | assumption
    | apply State.loadTest_keeps
    | (extract_lets +onlyGivenNames x; clear_value x; rename' x => y)
    | (intro; try beta_reduce)
    | exact Keeps.upd (by assumption)
    | refine keeps_ite ?_ ?_
    | split
    | apply_assumption

theorem execConditionalWaitEnd_keeps {r : State} {a1} {a2} (h2 : Keeps r a2) : OutKeeps r (execConditionalWaitEnd a1 a2) := by
  delta execConditionalWaitEnd
  with_reducible repeat' first
    | assumption
    | apply State.waitEnds_keeps
    | (intro; try beta_reduce)
    | refine out_next ?_
    | apply_assumption

theorem State.unitResult_keeps {r : State} {a1} {a2} {a3} (h1 : Keeps r a1) : Keeps r (State.unitResult a1 a2 a3) := by
  delta State.unitResult
  with_reducible repeat' first
    | assumption
    | apply State.put_keeps
    | (intro; try beta_reduce)
    | refine keeps_ite ?_ ?_
    | split
    | apply_assumption

theorem State.commitCounts_keeps {r : State} {a1} {a2} {a3} {a4} (h1 : Keeps r a1) : Keeps r (State.commitCounts a1 a2 a3 a4) := by
  delta State.commitCounts
  with_reducible repeat' first
    | assumption
    | apply State.putF_keeps
    | apply State.put_keeps
    | (extract_lets +onlyGivenNames x; refine keeps_have (x := x) ?_ ?_; (on_goal 1 => dsimp -zeta only [x]; clear x); (on_goal 2 => (intro _; clear_value x; rename' x => y)))
    | (intro; try beta_reduce)
    | apply_assumption

theorem State.untested_keeps {r : State} {a1} {a2} (h1 : Keeps r a1) : Keeps r (State.untested a1 a2) := by
  delta State.untested
  with_reducible repeat' first
    | assumption
    | apply State.put_keeps
    | refine keeps_fold _ _ ?_ ?_
    | (intro; try beta_reduce)
    | refine keeps_ite ?_ ?_
    | split
    | apply_assumption

theorem State.commitRoutine_keeps {r : State} {a1} {a2} {a3} {a4} (h1 : Keeps r a1) : Keeps r (State.commitRoutine a1 a2 a3 a4) := by
  delta State.commitRoutine
  extract_lets t1 s1 n mine failed s5 s6 s7
  have q1 : Keeps r t1 := State.putF_keeps (Keeps.upd h1)
  have e1 : Keeps r s1 := keeps_ite (Keeps.upd q1) q1
  have e5 : Keeps r s5 := keeps_fold _ _ (State.untested_keeps e1) (fun u x hu => State.unitResult_keeps hu)
  have e6 : Keeps r s6 := keeps_ite (keeps_fold _ _ e5 (fun u x hu => State.put_keeps hu)) e5
  have e7 : Keeps r s7 := keeps_ite (State.deskew_keeps (State.commitCounts_keeps e1)) (State.collect_keeps (State.commitCounts_keeps e6))
  exact State.stopStimulus_keeps (keeps_fold _ _ e7 (fun u x hu => State.putSlice_keeps hu))

theorem execRoutineCommit_keeps {r : State} {a1} {a2} {a3} (h3 : Keeps r a3) : OutKeeps r (execRoutineCommit a1 a2 a3) := by
  delta execRoutineCommit
  with_reducible repeat' first
    | assumption
    | apply State.commitRoutine_keeps
    | (intro; try beta_reduce)
    | refine out_next ?_
    | exact out_fault
    | refine out_ite ?_ ?_
    | refine keeps_ite ?_ ?_
    | split
    | apply_assumption

theorem execPostCommitEnd_keeps {r : State} {a1} (h1 : Keeps r a1) : OutKeeps r (execPostCommitEnd a1) := by
  delta execPostCommitEnd
  with_reducible repeat' first
    | assumption
    | apply State.cmdDone_keeps
    | apply State.leaveQueue_keeps
    | apply State.endStimulus_keeps
    | (intro; try beta_reduce)
    | refine out_next ?_
    | exact out_fault
    | refine out_ite ?_ ?_
    | refine keeps_ite ?_ ?_
    | split
    | apply_assumption

theorem execRoutineOverrun_keeps {r : State} {a1} (h1 : Keeps r a1) : OutKeeps r (execRoutineOverrun a1) := by
  delta execRoutineOverrun
  with_reducible repeat' first
    | assumption
    | apply State.fault_keeps
    | apply State.failReq_keeps
    | apply State.endStimulus_keeps
    | (intro; try beta_reduce)
    | refine out_next ?_
    | exact out_fault
    | refine out_ite ?_ ?_
    | refine keeps_ite ?_ ?_
    | split
    | apply_assumption

theorem State.noteLag_keeps {r : State} {a1} {a2} {a3} (h1 : Keeps r a1) : Keeps r (State.noteLag a1 a2 a3) := by
  delta State.noteLag
  with_reducible repeat' first
    | assumption
    | apply State.put_keeps
    | (extract_lets +onlyGivenNames x; refine keeps_have (x := x) ?_ ?_; (on_goal 1 => dsimp -zeta only [x]; clear x); (on_goal 2 => (intro _; clear_value x; rename' x => y)))
    | (intro; try beta_reduce)
    | refine keeps_ite ?_ ?_
    | split
    | apply_assumption

theorem State.applyDrift_keeps {r : State} {a1} {a2} (h1 : Keeps r a1) : Keeps r (State.applyDrift a1 a2) := by
  delta State.applyDrift
  with_reducible repeat' first
    | assumption
    | apply State.putSlice_keeps
    | apply State.count_keeps
    | apply State.put_keeps
    | (extract_lets +onlyGivenNames x; first | (refine keeps_have (x := x) ?_ ?_; (on_goal 1 => dsimp -zeta only [x]; clear x); (on_goal 2 => (intro _; clear_value x; rename' x => y))) | (clear_value x; rename' x => y))
    | (intro; try beta_reduce)
    | split
    | apply_assumption

theorem execDriftTracking_keeps {r : State} {a1} {a2} {a3} (h3 : Keeps r a3) : OutKeeps r (execDriftTracking a1 a2 a3) := by
  delta execDriftTracking
  with_reducible repeat' first
    | assumption
    | apply within_keeps
    | apply State.noteLag_keeps
    | apply State.putSlice_keeps
    | apply State.applyDrift_keeps
    | (extract_lets +onlyGivenNames x; first | ((first | refine keeps_have (x := x) ?_ ?_ | refine keeps_have_out (x := x) ?_ ?_); (on_goal 1 => dsimp -zeta only [x]; clear x); (on_goal 2 => (intro _; clear_value x; rename' x => y))) | (clear_value x; rename' x => y))
    | (intro; try beta_reduce)
    | refine out_next ?_
    | refine out_within ?_
    | refine out_ite ?_ ?_
    | refine keeps_ite ?_ ?_
    | split
    | apply_assumption

theorem execDriftCorrectionApply_keeps {r : State} {a1} {a2} (h2 : Keeps r a2) : OutKeeps r (execDriftCorrectionApply a1 a2) := by
  delta execDriftCorrectionApply
  with_reducible repeat' first
    | assumption
    | apply within_keeps
    | apply State.applyDrift_keeps
    | (intro; try beta_reduce)
    | refine out_next ?_
    | refine out_within ?_
    | refine out_ite ?_ ?_
    | refine keeps_ite ?_ ?_
    | split
    | apply_assumption

theorem execDriftLimit_keeps {r : State} {a1} {a2} (h2 : Keeps r a2) : OutKeeps r (execDriftLimit a1 a2) := by
  delta execDriftLimit
  with_reducible repeat' first
    | assumption
    | apply within_keeps
    | apply State.fault_keeps
    | apply State.putSlice_keeps
    | (extract_lets +onlyGivenNames x; clear_value x; rename' x => y)
    | (intro; try beta_reduce)
    | refine out_next ?_
    | refine out_within ?_
    | refine out_ite ?_ ?_
    | refine keeps_ite ?_ ?_
    | split
    | apply_assumption

theorem execEyeAggregation_keeps {r : State} {a1} {a2} (h2 : Keeps r a2) : OutKeeps r (execEyeAggregation a1 a2) := by
  delta execEyeAggregation
  with_reducible repeat' first
    | assumption
    | apply within_keeps
    | apply State.putSlice_keeps
    | apply State.putF_keeps
    | apply State.collect_keeps
    | (extract_lets +onlyGivenNames x; first | ((first | refine keeps_have (x := x) ?_ ?_ | refine keeps_have_out (x := x) ?_ ?_); (on_goal 1 => dsimp -zeta only [x]; clear x); (on_goal 2 => (intro _; clear_value x; rename' x => y))) | (clear_value x; rename' x => y))
    | refine keeps_fold _ _ ?_ ?_
    | (intro; try beta_reduce)
    | refine out_next ?_
    | refine out_within ?_
    | refine out_ite ?_ ?_
    | refine keeps_ite ?_ ?_
    | split
    | apply_assumption

theorem execMarginError_keeps {r : State} {a1} {a2} (h2 : Keeps r a2) : OutKeeps r (execMarginError a1 a2) := by
  delta execMarginError
  with_reducible repeat' first
    | assumption
    | apply within_keeps
    | apply State.countSat_keeps
    | apply State.putSlice_keeps
    | (extract_lets +onlyGivenNames x; clear_value x; rename' x => y)
    | (intro; try beta_reduce)
    | refine out_next ?_
    | refine out_within ?_
    | refine out_ite ?_ ?_
    | refine keeps_ite ?_ ?_
    | split
    | apply_assumption

theorem execLaneTxFault_keeps {r : State} {a1} {a2} (h2 : Keeps r a2) : OutKeeps r (execLaneTxFault a1 a2) := by
  delta execLaneTxFault
  with_reducible repeat' first
    | assumption
    | apply within_keeps
    | apply State.fault_keeps
    | (intro; try beta_reduce)
    | refine out_next ?_
    | refine out_within ?_
    | refine out_ite ?_ ?_
    | refine keeps_ite ?_ ?_
    | split
    | apply_assumption

theorem execLaneRxOpen_keeps {r : State} {a1} {a2} (h2 : Keeps r a2) : OutKeeps r (execLaneRxOpen a1 a2) := by
  delta execLaneRxOpen
  with_reducible repeat' first
    | assumption
    | apply within_keeps
    | apply State.fault_keeps
    | (intro; try beta_reduce)
    | refine out_next ?_
    | refine out_within ?_
    | refine out_ite ?_ ?_
    | refine keeps_ite ?_ ?_
    | split
    | apply_assumption

theorem execSlicePllUnlock_keeps {r : State} {a1} {a2} (h2 : Keeps r a2) : OutKeeps r (execSlicePllUnlock a1 a2) := by
  delta execSlicePllUnlock
  with_reducible repeat' first
    | assumption
    | apply within_keeps
    | apply State.refreshSlice_keeps
    | apply State.fault_keeps
    | apply State.putSlice_keeps
    | (extract_lets +onlyGivenNames x; clear_value x; rename' x => y)
    | (intro; try beta_reduce)
    | refine out_next ?_
    | refine out_within ?_
    | refine out_ite ?_ ?_
    | refine keeps_ite ?_ ?_
    | split
    | apply_assumption

theorem execSlicePllLock_keeps {r : State} {a1} {a2} (h2 : Keeps r a2) : OutKeeps r (execSlicePllLock a1 a2) := by
  delta execSlicePllLock
  with_reducible repeat' first
    | assumption
    | apply within_keeps
    | apply State.refreshSlice_keeps
    | apply State.clearLive_keeps
    | apply State.putSlice_keeps
    | (extract_lets +onlyGivenNames x; clear_value x; rename' x => y)
    | (intro; try beta_reduce)
    | refine out_next ?_
    | refine out_within ?_
    | refine out_ite ?_ ?_
    | refine keeps_ite ?_ ?_
    | split
    | apply_assumption

theorem execAdcReferenceCheck_keeps {r : State} {a1} {a2} (h2 : Keeps r a2) : OutKeeps r (execAdcReferenceCheck a1 a2) := by
  delta execAdcReferenceCheck
  with_reducible repeat' first
    | assumption
    | apply State.clearLive_keeps
    | apply State.fault_keeps
    | (intro; try beta_reduce)
    | refine out_next ?_
    | refine out_ite ?_ ?_
    | refine keeps_ite ?_ ?_
    | split
    | apply_assumption

theorem execNvmVerify_keeps {r : State} {a1} {a2} {a3} (h3 : Keeps r a3) : OutKeeps r (execNvmVerify a1 a2 a3) := by
  delta execNvmVerify
  with_reducible repeat' first
    | assumption
    | apply within_keeps
    | apply State.fault_keeps
    | apply State.putF_keeps
    | (intro; try beta_reduce)
    | refine out_next ?_
    | refine out_within ?_
    | exact out_fault
    | exact Keeps.upd (by assumption)
    | refine out_ite ?_ ?_
    | refine keeps_ite ?_ ?_
    | split
    | apply_assumption

end Sys2Proof.Machine
end

