-- ==== Sys2Proof/Laws/KeepsScheduler.lean ====
section
/-! SUPPORT. What the operations of Machine/Scheduler.lean keep. -/

set_option linter.all false

namespace Sys2Proof.Machine

theorem State.dispatchTo_keeps {r : State} {a1} {a2} {a3} (h1 : Keeps r a1) : Keeps r (State.dispatchTo a1 a2 a3) := by
  delta State.dispatchTo
  exact Keeps.upd (State.setThreadSt_keeps (State.putThread_keeps h1))

theorem execDispatch_keeps {r : State} {a1} {a2} (h2 : Keeps r a2) : OutKeeps r (execDispatch a1 a2) := by
  delta execDispatch
  with_reducible repeat' first
    | assumption
    | apply within_keeps
    | apply State.examine_keeps
    | apply State.dispatchTo_keeps
    | (intro; try beta_reduce)
    | refine out_next ?_
    | refine out_within ?_
    | exact out_fault
    | refine out_ite ?_ ?_
    | refine keeps_ite ?_ ?_
    | split
    | apply_assumption

theorem execPreempt_keeps {r : State} {a1} {a2} (h2 : Keeps r a2) : OutKeeps r (execPreempt a1 a2) := by
  delta execPreempt
  with_reducible repeat' first
    | assumption
    | apply within_keeps
    | apply State.setThreadSt_keeps
    | apply State.putThread_keeps
    | (extract_lets +onlyGivenNames x; clear_value x; rename' x => y)
    | (intro; try beta_reduce)
    | refine out_next ?_
    | refine out_within ?_
    | exact out_fault
    | refine out_ite ?_ ?_
    | refine keeps_ite ?_ ?_
    | split
    | apply_assumption

theorem State.release_keeps {r : State} {a1} {a2} {a3} {a4} (h1 : Keeps r a1) : Keeps r (State.release a1 a2 a3 a4) := by
  induction a4 generalizing a1 with
  | zero => exact h1
  | succ n ih =>
  unfold State.release
  with_reducible repeat' first
    | assumption
    | exact Keeps.refl _
    | apply ih
    | apply State.putSlice_keeps
    | (extract_lets +onlyGivenNames x; first | ((first | refine keeps_have (x := x) ?_ ?_ | refine keeps_have_out (x := x) ?_ ?_ | refine keeps_have (x := x.2) ?_ ?_ | refine keeps_have_out (x := x.2) ?_ ?_ | refine keeps_have (x := x.2.2) ?_ ?_ | refine keeps_have_out (x := x.2.2) ?_ ?_ | refine keeps_have (x := x.1) ?_ ?_ | refine keeps_have_out (x := x.1) ?_ ?_ | refine keeps_have_fun (x := x) ?_ ?_); (on_goal 1 => dsimp -zeta only [x]; clear x); (on_goal 2 => (intro _; clear_value x; rename' x => y))) | (clear_value x; rename' x => y))
    | refine keeps_fold _ _ ?_ ?_
    | refine keeps_fold1 _ _ ?_ ?_
    | refine keeps_fold2 _ _ ?_ ?_
    | (intro; try beta_reduce)
    | refine out_next ?_
    | refine out_within ?_
    | exact out_fault
    | exact Keeps.upd (by assumption)
    | refine keeps_ite ?_ ?_
    | refine keeps_ite1 ?_ ?_
    | refine keeps_ite2 ?_ ?_
    | split
    | apply_assumption

theorem State.arrive_keeps {r : State} {a1} {a2} {a3} {a4} (h1 : Keeps r a1) : Keeps r (State.arrive a1 a2 a3 a4) := by
  delta State.arrive
  with_reducible repeat' first
    | assumption
    | apply State.fault_keeps
    | apply State.putSlice_keeps
    | apply State.release_keeps
    | (extract_lets +onlyGivenNames x; first | (refine keeps_have (x := x) ?_ ?_; (on_goal 1 => dsimp -zeta only [x]; clear x); (on_goal 2 => (intro _; clear_value x; rename' x => y))) | (clear_value x; rename' x => y))
    | (intro; try beta_reduce)
    | refine keeps_ite ?_ ?_
    | split
    | apply_assumption

theorem execSpanArrival_keeps {r : State} {a1} {a2} {a3} {a4} (h4 : Keeps r a4) : OutKeeps r (execSpanArrival a1 a2 a3 a4) := by
  delta execSpanArrival
  with_reducible repeat' first
    | assumption
    | apply within_keeps
    | apply State.arrive_keeps
    | (intro; try beta_reduce)
    | refine out_next ?_
    | refine out_within ?_
    | refine out_ite ?_ ?_
    | refine keeps_ite ?_ ?_
    | split
    | apply_assumption

theorem State.creditBack_keeps {r : State} {a1} {a2} (h1 : Keeps r a1) : Keeps r (State.creditBack a1 a2) := by
  delta State.creditBack
  with_reducible repeat' first
    | assumption
    | apply State.enterReady_keeps
    | apply State.feedMatch_keeps
    | (extract_lets +onlyGivenNames x; refine keeps_have (x := x) ?_ ?_; (on_goal 1 => dsimp -zeta only [x]; clear x); (on_goal 2 => (intro _; clear_value x; rename' x => y)))
    | (intro; try beta_reduce)
    | refine keeps_ite ?_ ?_
    | split
    | apply_assumption

theorem execSpanCreditReturn_keeps {r : State} {a1} {a2} {a3} (h3 : Keeps r a3) : OutKeeps r (execSpanCreditReturn a1 a2 a3) := by
  delta execSpanCreditReturn
  with_reducible repeat' first
    | assumption
    | apply within_keeps
    | apply State.putSlice_keeps
    | apply State.creditBack_keeps
    | (extract_lets +onlyGivenNames x; first | ((first | refine keeps_have (x := x) ?_ ?_ | refine keeps_have_out (x := x) ?_ ?_); (on_goal 1 => dsimp -zeta only [x]; clear x); (on_goal 2 => (intro _; clear_value x; rename' x => y))) | (clear_value x; rename' x => y))
    | (intro; try beta_reduce)
    | refine out_next ?_
    | refine out_within ?_
    | refine out_ite ?_ ?_
    | refine keeps_ite ?_ ?_
    | split
    | apply_assumption

theorem execFetchComplete_keeps {r : State} {a1} {a2} (h2 : Keeps r a2) : OutKeeps r (execFetchComplete a1 a2) := by
  delta execFetchComplete
  with_reducible repeat' first
    | assumption
    | apply within_keeps
    | apply State.putThread_keeps
    | apply State.enterReady_keeps
    | (extract_lets +onlyGivenNames x; first | ((first | refine keeps_have (x := x) ?_ ?_ | refine keeps_have_out (x := x) ?_ ?_); (on_goal 1 => dsimp -zeta only [x]; clear x); (on_goal 2 => (intro _; clear_value x; rename' x => y))) | (clear_value x; rename' x => y))
    | (intro; try beta_reduce)
    | refine out_next ?_
    | refine out_within ?_
    | refine out_ite ?_ ?_
    | refine keeps_ite ?_ ?_
    | split
    | apply_assumption

theorem execCycleStart_keeps {r : State} {a1} {a2} {a3} {a4} {a5} (h5 : Keeps r a5) : OutKeeps r (execCycleStart a1 a2 a3 a4 a5) := by
  delta execCycleStart
  with_reducible repeat' first
    | assumption
    | apply within_keeps
    | apply State.cycleStart_keeps
    | (intro; try beta_reduce)
    | refine out_next ?_
    | refine out_within ?_
    | apply_assumption

theorem State.leaveMatch_keeps {r : State} {a1} {a2} {a3} {a4} (h1 : Keeps r a1) : Keeps r (State.leaveMatch a1 a2 a3 a4) := by
  delta State.leaveMatch
  with_reducible repeat' first
    | assumption
    | apply State.putThread_keeps
    | apply State.siteFails_keeps
    | apply State.jumpAtEnd_keeps
    | apply State.maskOrds_keeps
    | apply State.setThreadSt_keeps
    | apply State.enterReady_keeps
    | (extract_lets +onlyGivenNames x; first | (refine keeps_have (x := x) ?_ ?_; (on_goal 1 => dsimp -zeta only [x]; clear x); (on_goal 2 => (intro _; clear_value x; rename' x => y))) | (clear_value x; rename' x => y))
    | refine keeps_fold _ _ ?_ ?_
    | (intro; try beta_reduce)
    | refine keeps_ite ?_ ?_
    | split
    | apply_assumption

theorem execMatchExit_keeps {r : State} {a1} {a2} (h2 : Keeps r a2) : OutKeeps r (execMatchExit a1 a2) := by
  delta execMatchExit
  with_reducible repeat' first
    | assumption
    | apply within_keeps
    | apply State.settleThread_keeps
    | apply State.leaveMatch_keeps
    | (extract_lets +onlyGivenNames x; clear_value x; rename' x => y)
    | (intro; try beta_reduce)
    | refine out_next ?_
    | refine out_within ?_
    | exact out_fault
    | refine out_ite ?_ ?_
    | refine keeps_ite ?_ ?_
    | split
    | apply_assumption

theorem execWaittrigTimeout_keeps {r : State} {a1} {a2} (h2 : Keeps r a2) : OutKeeps r (execWaittrigTimeout a1 a2) := by
  delta execWaittrigTimeout
  with_reducible repeat' first
    | assumption
    | apply within_keeps
    | apply State.endWait_keeps
    | apply State.putThread_keeps
    | (extract_lets +onlyGivenNames x; clear_value x; rename' x => y)
    | (intro; try beta_reduce)
    | refine out_next ?_
    | refine out_within ?_
    | exact out_fault
    | refine out_ite ?_ ?_
    | refine keeps_ite ?_ ?_
    | split
    | apply_assumption

theorem execWaittimeWake_keeps {r : State} {a1} {a2} (h2 : Keeps r a2) : OutKeeps r (execWaittimeWake a1 a2) := by
  delta execWaittimeWake
  with_reducible repeat' first
    | assumption
    | apply within_keeps
    | apply State.wakeThread_keeps
    | apply State.putThread_keeps
    | (extract_lets +onlyGivenNames x; clear_value x; rename' x => y)
    | (intro; try beta_reduce)
    | refine out_next ?_
    | refine out_within ?_
    | exact out_fault
    | refine out_ite ?_ ?_
    | refine keeps_ite ?_ ?_
    | split
    | apply_assumption

theorem execSyncToken_keeps {r : State} {a1} {a2} {a3} {a4} (h4 : Keeps r a4) : OutKeeps r (execSyncToken a1 a2 a3 a4) := by
  delta execSyncToken
  with_reducible repeat' first
    | assumption
    | apply within_keeps
    | apply State.takeToken_keeps
    | (extract_lets +onlyGivenNames x; (first | refine keeps_have (x := x) ?_ ?_ | refine keeps_have_out (x := x) ?_ ?_); (on_goal 1 => dsimp -zeta only [x]; clear x); (on_goal 2 => (intro _; clear_value x; rename' x => y)))
    | (intro; try beta_reduce)
    | refine out_next ?_
    | refine out_within ?_
    | exact Keeps.upd (by assumption)
    | refine out_ite ?_ ?_
    | refine keeps_ite ?_ ?_
    | split
    | apply_assumption

theorem State.cmdHostJump_keeps {r : State} {a1} {a2} {a3} (h1 : Keeps r a1) : Keeps r (State.cmdHostJump a1 a2 a3).2 := by
  delta State.cmdHostJump
  with_reducible repeat' first
    | assumption
    | apply State.cmdFail_keeps
    | apply State.putThread_keeps
    | apply State.cmdPend_keeps
    | (extract_lets +onlyGivenNames x; clear_value x; rename' x => y)
    | refine keeps_fold _ _ ?_ ?_
    | (intro; try beta_reduce)
    | refine keeps_ite ?_ ?_
    | refine keeps_ite2 ?_ ?_
    | split
    | apply_assumption

theorem execHostJump_keeps {r : State} {a1} {a2} {a3} {a4} (h4 : Keeps r a4) : OutKeeps r (execHostJump a1 a2 a3 a4) := by
  delta execHostJump
  with_reducible repeat' first
    | assumption
    | apply State.hotRefused_keeps
    | apply State.access_keeps
    | apply State.cmdHostJump_keeps
    | (extract_lets +onlyGivenNames x; (first | refine keeps_have (x := x) ?_ ?_ | refine keeps_have_out (x := x) ?_ ?_); (on_goal 1 => dsimp -zeta only [x]; clear x); (on_goal 2 => (intro _; clear_value x; rename' x => y)))
    | (intro; try beta_reduce)
    | refine out_next ?_
    | exact Keeps.upd (by assumption)
    | refine out_ite ?_ ?_
    | refine keeps_ite ?_ ?_
    | split
    | apply_assumption

theorem State.discardFrom_keeps {r : State} {a1} {a2} {a3} {a4} (h1 : Keeps r a1) : Keeps r (State.discardFrom a1 a2 a3 a4) := by
  delta State.discardFrom
  with_reducible repeat' first
    | assumption
    | apply State.putThread_keeps
    | apply State.countBack_keeps
    | apply State.returnCredits_keeps
    | apply State.putSlice_keeps
    | (extract_lets +onlyGivenNames x; first | (refine keeps_have (x := x) ?_ ?_; (on_goal 1 => dsimp -zeta only [x]; clear x); (on_goal 2 => (intro _; clear_value x; rename' x => y))) | (clear_value x; rename' x => y))
    | refine keeps_fold _ _ ?_ ?_
    | (intro; try beta_reduce)
    | refine keeps_ite ?_ ?_
    | split
    | apply_assumption

theorem State.jumpOn_keeps {r : State} {a1} {a2} (h1 : Keeps r a1) : Keeps r (State.jumpOn a1 a2) := by
  delta State.jumpOn
  with_reducible repeat' first
    | assumption
    | apply State.enterReady_keeps
    | (intro; try beta_reduce)
    | refine keeps_ite ?_ ?_
    | split
    | apply_assumption

theorem execHostJumpTaken_keeps {r : State} {a1} {a2} (h2 : Keeps r a2) : OutKeeps r (execHostJumpTaken a1 a2) := by
  delta execHostJumpTaken
  with_reducible repeat' first
    | assumption
    | apply within_keeps
    | apply State.jumpOn_keeps
    | apply State.takeJump_keeps
    | apply State.discardFrom_keeps
    | apply State.putThread_keeps
    | (extract_lets +onlyGivenNames x; clear_value x; rename' x => y)
    | (intro; try beta_reduce)
    | refine out_next ?_
    | refine out_within ?_
    | exact out_fault
    | refine out_ite ?_ ?_
    | refine keeps_ite ?_ ?_
    | split
    | apply_assumption

theorem execHostTrig_keeps {r : State} {a1} {a2} {a3} (h3 : Keeps r a3) : OutKeeps r (execHostTrig a1 a2 a3) := by
  delta execHostTrig
  with_reducible repeat' first
    | assumption
    | apply State.accessPlain_keeps
    | (intro; try beta_reduce)
    | refine out_next ?_
    | apply_assumption

end Sys2Proof.Machine
end

