-- ==== Sys2Proof/Laws/KeepsBursts.lean ====
section
/-! SUPPORT. What the operations of Machine/Bursts.lean keep. -/

set_option linter.all false

namespace Sys2Proof.Machine

theorem State.finishRequest_keeps {r : State} {a1} (h1 : Keeps r a1) : Keeps r (State.finishRequest a1) := by
  delta State.finishRequest
  with_reducible repeat' first
    | assumption
    | apply State.irq_keeps
    | apply State.cmdDone_keeps
    | (intro; try beta_reduce)
    | refine keeps_ite ?_ ?_
    | split
    | apply_assumption

theorem State.enterQuiesce_keeps {r : State} {a1} (h1 : Keeps r a1) : Keeps r (State.enterQuiesce a1) := by
  delta State.enterQuiesce
  with_reducible repeat' first
    | assumption
    | apply State.closeRecord_keeps
    | apply State.putF_keeps
    | apply State.enterMode_keeps
    | (extract_lets +onlyGivenNames x; refine keeps_have (x := x) ?_ ?_; (on_goal 1 => dsimp -zeta only [x]; clear x); (on_goal 2 => (intro _; clear_value x; rename' x => y)))
    | refine keeps_fold _ _ ?_ ?_
    | (intro; try beta_reduce)
    | refine keeps_ite ?_ ?_
    | split
    | apply_assumption

theorem State.goMode_keeps {r : State} {a1} {a2} (h1 : Keeps r a1) : Keeps r (State.goMode a1 a2) := by
  delta State.goMode
  with_reducible repeat' first
    | assumption
    | apply State.enterQuiesce_keeps
    | apply State.enterMode_keeps
    | (intro; try beta_reduce)
    | refine keeps_ite ?_ ?_
    | split
    | apply_assumption

theorem State.settleEntering_keeps {r : State} {a1} (h1 : Keeps r a1) : Keeps r (State.settleEntering a1) := by
  delta State.settleEntering
  with_reducible repeat' first
    | assumption
    | apply State.finishRequest_keeps
    | apply State.goMode_keeps
    | (intro; try beta_reduce)
    | split
    | apply_assumption

theorem State.settleCut_keeps {r : State} {a1} (h1 : Keeps r a1) : Keeps r (State.settleCut a1) := by
  delta State.settleCut
  with_reducible repeat' first
    | assumption
    | apply State.settleEntering_keeps
    | (intro; try beta_reduce)
    | refine keeps_ite ?_ ?_
    | split
    | apply_assumption

theorem State.dropObjs_keeps {r : State} {a1} {a2 : Nat → Bool} (h1 : Keeps r a1) : Keeps r (State.dropObjs a1 a2) := by
  delta State.dropObjs
  with_reducible repeat' first
    | assumption
    | apply State.put_keeps
    | refine keeps_fold _ _ ?_ ?_
    | (intro; try beta_reduce)
    | apply_assumption

theorem State.freshCounts_keeps {r : State} {a1} {a2} (h1 : Keeps r a1) : Keeps r (State.freshCounts a1 a2) := by
  delta State.freshCounts
  with_reducible repeat' first
    | assumption
    | apply State.put_keeps
    | apply State.putCounts_keeps
    | (extract_lets +onlyGivenNames x; clear_value x; rename' x => y)
    | (intro; try beta_reduce)
    | apply_assumption

theorem State.acceptBurst_keeps {r : State} {a1} {a2} (h1 : Keeps r a1) : Keeps r (State.acceptBurst a1 a2) := by
  delta State.acceptBurst
  with_reducible repeat' first
    | assumption
    | apply State.clearDmaCounts_keeps
    | apply State.dropObjs_keeps
    | apply State.count_keeps
    | apply State.freshCounts_keeps
    | apply State.putF_keeps
    | apply State.put_keeps
    | apply State.enterMode_keeps
    | (extract_lets +onlyGivenNames x; first | (refine keeps_have (x := x) ?_ ?_; (on_goal 1 => dsimp -zeta only [x]; clear x); (on_goal 2 => (intro _; clear_value x; rename' x => y))) | (clear_value x; rename' x => y))
    | refine keeps_fold _ _ ?_ ?_
    | (intro; try beta_reduce)
    | exact Keeps.upd (by assumption)
    | apply_assumption

theorem State.startJoint_keeps {r : State} {a1} {a2} (h1 : Keeps r a1) : Keeps r (State.startJoint a1 a2) := by
  delta State.startJoint
  with_reducible repeat' first
    | assumption
    | apply State.queueFlit_keeps
    | (extract_lets +onlyGivenNames x; first | (refine keeps_have (x := x) ?_ ?_; (on_goal 1 => dsimp -zeta only [x]; clear x); (on_goal 2 => (intro _; clear_value x; rename' x => y))) | (clear_value x; rename' x => y))
    | (intro; try beta_reduce)
    | exact Keeps.upd (by assumption)
    | apply_assumption

theorem State.cmdBurstStart_keeps {r : State} {a1} {a2} (h1 : Keeps r a1) : Keeps r (State.cmdBurstStart a1 a2).2 := by
  delta State.cmdBurstStart
  with_reducible repeat' first
    | assumption
    | apply State.cmdRun_keeps
    | apply State.startJoint_keeps
    | apply State.cmdDone_keeps
    | apply State.acceptBurst_keeps
    | (extract_lets +onlyGivenNames x; clear_value x; rename' x => y)
    | (intro; try beta_reduce)
    | refine keeps_ite ?_ ?_
    | refine keeps_ite2 ?_ ?_
    | split
    | apply_assumption

theorem execBurstStart_keeps {r : State} {a1} {a2} {a3} (h3 : Keeps r a3) : OutKeeps r (execBurstStart a1 a2 a3) := by
  delta execBurstStart
  with_reducible repeat' first
    | assumption
    | apply State.access_keeps
    | apply State.cmdBurstStart_keeps
    | (intro; try beta_reduce)
    | refine out_next ?_
    | apply_assumption

theorem State.clearStop_keeps {r : State} {a1} {a2} (h1 : Keeps r a1) : Keeps r (State.clearStop a1 a2) := by
  delta State.clearStop
  with_reducible repeat' first
    | assumption
    | apply State.put_keeps
    | (intro; try beta_reduce)
    | apply_assumption

theorem State.launchThread_keeps {r : State} {a1} {a2} (h1 : Keeps r a1) : Keeps r (State.launchThread a1 a2) := by
  delta State.launchThread
  with_reducible repeat' first
    | assumption
    | apply State.clearStop_keeps
    | apply State.sigReset_keeps
    | apply State.setThreadSt_keeps
    | apply State.enterReady_keeps
    | (extract_lets +onlyGivenNames x; first | (refine keeps_have (x := x) ?_ ?_; (on_goal 1 => dsimp -zeta only [x]; clear x); (on_goal 2 => (intro _; clear_value x; rename' x => y))) | (clear_value x; rename' x => y))
    | refine keeps_fold _ _ ?_ ?_
    | (intro; try beta_reduce)
    | refine keeps_ite ?_ ?_
    | split
    | apply_assumption

theorem State.clearConditions_keeps {r : State} {a1} (h1 : Keeps r a1) : Keeps r (State.clearConditions a1) := by
  delta State.clearConditions
  with_reducible repeat' first
    | assumption
    | apply State.put_keeps
    | (extract_lets +onlyGivenNames x; clear_value x; rename' x => y)
    | (intro; try beta_reduce)
    | exact Keeps.upd (by assumption)
    | apply_assumption

theorem State.launchThreadLate_keeps {r : State} {a1} {a2} {a3} (h1 : Keeps r a1) : Keeps r (State.launchThreadLate a1 a2 a3) := by
  delta State.launchThreadLate
  with_reducible repeat' first
    | assumption
    | apply State.putThread_keeps
    | apply State.endAll_keeps
    | (extract_lets +onlyGivenNames x; first | (refine keeps_have (x := x) ?_ ?_; (on_goal 1 => dsimp -zeta only [x]; clear x); (on_goal 2 => (intro _; clear_value x; rename' x => y))) | (clear_value x; rename' x => y))
    | (intro; try beta_reduce)
    | refine keeps_ite ?_ ?_
    | split
    | apply_assumption

theorem State.launchLate_keeps {r : State} {a1} {a2} (h1 : Keeps r a1) : Keeps r (State.launchLate a1 a2) := by
  delta State.launchLate
  with_reducible repeat' first
    | assumption
    | apply State.settleStop_keeps
    | apply State.launchThreadLate_keeps
    | apply State.collect_keeps
    | (extract_lets +onlyGivenNames x; refine keeps_have (x := x) ?_ ?_; (on_goal 1 => dsimp -zeta only [x]; clear x); (on_goal 2 => (intro _; clear_value x; rename' x => y)))
    | refine keeps_fold _ _ ?_ ?_
    | (intro; try beta_reduce)
    | refine keeps_ite ?_ ?_
    | split
    | apply_assumption

theorem State.takeEarly_keeps {r : State} {a1} (h1 : Keeps r a1) : Keeps r (State.takeEarly a1) := by
  delta State.takeEarly
  with_reducible repeat' first
    | assumption
    | apply State.settleStop_keeps
    | apply State.endAll_keeps
    | (extract_lets +onlyGivenNames x; clear_value x; rename' x => y)
    | (intro; try beta_reduce)
    | exact Keeps.upd (by assumption)
    | apply_assumption

theorem State.launch_keeps {r : State} {a1} {a2} (h1 : Keeps r a1) : Keeps r (State.launch a1 a2) := by
  delta State.launch
  with_reducible repeat' first
    | assumption
    | apply State.put_keeps
    | apply State.clearStop_keeps
    | apply State.clearConditions_keeps
    | apply State.launchThread_keeps
    | apply State.settleBurst_keeps
    | apply State.launchLate_keeps
    | apply State.takeEarly_keeps
    | (extract_lets +onlyGivenNames x; first | (refine keeps_have (x := x) ?_ ?_; (on_goal 1 => dsimp -zeta only [x]; clear x); (on_goal 2 => (intro _; clear_value x; rename' x => y))) | (clear_value x; rename' x => y))
    | refine keeps_fold _ _ ?_ ?_
    | (intro; try beta_reduce)
    | exact Keeps.upd (by assumption)
    | apply_assumption

theorem State.endJoint_keeps {r : State} {a1} {a2} (h1 : Keeps r a1) : Keeps r (State.endJoint a1 a2) := by
  delta State.endJoint
  with_reducible repeat' first
    | assumption
    | apply State.cmdDone_keeps
    | apply State.cmdFail_keeps
    | apply State.slotDecided_keeps
    | (extract_lets +onlyGivenNames x; first | (refine keeps_have (x := x) ?_ ?_; (on_goal 1 => dsimp -zeta only [x]; clear x); (on_goal 2 => (intro _; clear_value x; rename' x => y))) | (clear_value x; rename' x => y))
    | (intro; try beta_reduce)
    | exact Keeps.upd (by assumption)
    | refine keeps_ite ?_ ?_
    | split
    | apply_assumption

theorem State.jointLaunch_keeps {r : State} {a1} (h1 : Keeps r a1) : Keeps r (State.jointLaunch a1) := by
  delta State.jointLaunch
  with_reducible repeat' first
    | assumption
    | apply State.endJoint_keeps
    | apply State.acceptBurst_keeps
    | (extract_lets +onlyGivenNames x; first | (refine keeps_have (x := x) ?_ ?_; (on_goal 1 => dsimp -zeta only [x]; clear x); (on_goal 2 => (intro _; clear_value x; rename' x => y))) | (clear_value x; rename' x => y))
    | (intro; try beta_reduce)
    | exact Keeps.upd (by assumption)
    | refine keeps_ite ?_ ?_
    | split
    | apply_assumption

theorem execBurstLaunch_keeps {r : State} {a1} {a2} (h2 : Keeps r a2) : OutKeeps r (execBurstLaunch a1 a2) := by
  delta execBurstLaunch
  with_reducible repeat' first
    | assumption
    | apply State.jointLaunch_keeps
    | apply State.launch_keeps
    | (extract_lets +onlyGivenNames x; (first | refine keeps_have (x := x) ?_ ?_ | refine keeps_have_out (x := x) ?_ ?_); (on_goal 1 => dsimp -zeta only [x]; clear x); (on_goal 2 => (intro _; clear_value x; rename' x => y)))
    | (intro; try beta_reduce)
    | refine out_next ?_
    | refine out_ite ?_ ?_
    | refine keeps_ite ?_ ?_
    | split
    | apply_assumption

theorem State.cmdBurstStop_keeps {r : State} {a1} {a2} (h1 : Keeps r a1) : Keeps r (State.cmdBurstStop a1 a2).2 := by
  delta State.cmdBurstStop
  with_reducible repeat' first
    | assumption
    | apply State.cmdRun_keeps
    | apply State.stopThreads_keeps
    | (extract_lets +onlyGivenNames x; first | (refine keeps_have (x := x) ?_ ?_; (on_goal 1 => dsimp -zeta only [x]; clear x); (on_goal 2 => (intro _; clear_value x; rename' x => y))) | (clear_value x; rename' x => y))
    | (intro; try beta_reduce)
    | exact Keeps.upd (by assumption)
    | refine keeps_ite ?_ ?_
    | refine keeps_ite2 ?_ ?_
    | split
    | apply_assumption

theorem execBurstStop_keeps {r : State} {a1} {a2} {a3} (h3 : Keeps r a3) : OutKeeps r (execBurstStop a1 a2 a3) := by
  delta execBurstStop
  with_reducible repeat' first
    | assumption
    | apply State.access_keeps
    | apply State.cmdBurstStop_keeps
    | (intro; try beta_reduce)
    | refine out_next ?_
    | apply_assumption

theorem State.examineAudit_keeps {r : State} {a1} (h1 : Keeps r a1) : Keeps r (State.examineAudit a1).1 := by
  delta State.examineAudit
  with_reducible repeat' first
    | assumption
    | apply State.cmdDone_keeps
    | (intro; try beta_reduce)
    | exact Keeps.upd (by assumption)
    | refine keeps_ite ?_ ?_
    | refine keeps_ite1 ?_ ?_
    | split
    | apply_assumption

theorem State.raiseAudit_keeps {r : State} {a1} {a2} {a3} (h1 : Keeps r a1) : Keeps r (State.raiseAudit a1 a2 a3) := by
  delta State.raiseAudit
  with_reducible repeat' first
    | assumption
    | apply State.collect_keeps
    | apply State.collectAt_keeps
    | (intro; try beta_reduce)
    | refine keeps_ite ?_ ?_
    | split
    | apply_assumption

theorem State.report_keeps {r : State} {a1} {a2} {a3} (h1 : Keeps r a1) : Keeps r (State.report a1 a2 a3) := by
  delta State.report
  extract_lets x s1 a flags failed word s2 s3 s4 s5 s6
  have e1 : Keeps r s1 := State.examineAudit_keeps (State.spillAll_keeps h1)
  have e4 : Keeps r s4 := State.put_keeps (State.put_keeps (State.put_keeps e1))
  have e5 : Keeps r s5 := keeps_ite (State.putF_keeps (State.putF_keeps e4)) e4
  exact State.settleEntering_keeps (State.disablePending_keeps (State.raiseAudit_keeps (State.irq_keeps (Keeps.upd e5))))

theorem execAuditDrainEnd_keeps {r : State} {a1} {a2} (h2 : Keeps r a2) : OutKeeps r (execAuditDrainEnd a1 a2) := by
  delta execAuditDrainEnd
  with_reducible repeat' first
    | assumption
    | apply State.report_keeps
    | apply State.settleCut_keeps
    | (intro; try beta_reduce)
    | refine out_next ?_
    | refine out_ite ?_ ?_
    | refine keeps_ite ?_ ?_
    | split
    | apply_assumption

theorem execAuditDrainTimeout_keeps {r : State} {a1} (h1 : Keeps r a1) : OutKeeps r (execAuditDrainTimeout a1) := by
  delta execAuditDrainTimeout
  with_reducible repeat' first
    | assumption
    | apply State.report_keeps
    | (intro; try beta_reduce)
    | refine out_next ?_
    | refine out_ite ?_ ?_
    | refine keeps_ite ?_ ?_
    | split
    | apply_assumption

end Sys2Proof.Machine
end

