-- ==== Sys2Proof/Laws/KeepsLoadChecks.lean ====
section
/-! SUPPORT. What the operations of Machine/LoadChecks.lean keep. -/

set_option linter.all false

namespace Sys2Proof.Machine

theorem State.deriveOne_keeps {r : State} {a1} {a2} {a3} {a4} (h1 : Keeps r a1) : Keeps r (State.deriveOne a1 a2 a3 a4) := by
  delta State.deriveOne
  with_reducible repeat' first
    | assumption
    | apply State.putThread_keeps
    | apply State.put_keeps
    | (extract_lets +onlyGivenNames x; clear_value x; rename' x => y)
    | (intro; try beta_reduce)
    | apply_assumption

theorem State.derive_keeps {r : State} {a1} {a2} {a3} {a4} (h1 : Keeps r a1) : Keeps r (State.derive a1 a2 a3 a4).1 := by
  induction a3 generalizing a1 a4 with
  | nil => exact h1
  | cons i is ih =>
    cases a4 with
    | nil => exact h1
    | cons t free => exact ih (State.deriveOne_keeps h1)

theorem State.allocate_keeps {r : State} {a1} (h1 : Keeps r a1) : Keeps r (State.allocate a1) := by
  delta State.allocate
  with_reducible repeat' first
    | assumption
    | exact Keeps.refl _
    | apply State.putThread_keeps
    | apply State.derive_keeps
    | (extract_lets +onlyGivenNames x; first | ((first | refine keeps_have (x := x) ?_ ?_ | refine keeps_have_out (x := x) ?_ ?_ | refine keeps_have (x := x.2) ?_ ?_ | refine keeps_have_out (x := x.2) ?_ ?_ | refine keeps_have (x := x.2.2) ?_ ?_ | refine keeps_have_out (x := x.2.2) ?_ ?_ | refine keeps_have (x := x.1) ?_ ?_ | refine keeps_have_out (x := x.1) ?_ ?_ | refine keeps_have_fun (x := x) ?_ ?_); (on_goal 1 => dsimp -zeta only [x]; clear x); (on_goal 2 => (intro _; clear_value x; rename' x => y))) | (clear_value x; rename' x => y))
    | refine keeps_fold _ _ ?_ ?_
    | refine keeps_fold1 _ _ ?_ ?_
    | refine keeps_fold2 _ _ ?_ ?_
    | (intro; try beta_reduce)
    | refine out_next ?_
    | refine out_within ?_
    | exact out_fault
    | exact Keeps.upd (by assumption)
    | refine keeps_ite ?_ ?_
    | refine keeps_ite1 ?_ ?_
    | refine keeps_ite2 ?_ ?_
    | split
    | apply_assumption

theorem State.loadResult_keeps {r : State} {a1} {a2} (h1 : Keeps r a1) : Keeps r (State.loadResult a1 a2) := by
  delta State.loadResult
  with_reducible repeat' first
    | assumption
    | apply State.put_keeps
    | (extract_lets +onlyGivenNames x; first | (refine keeps_have (x := x) ?_ ?_; (on_goal 1 => dsimp -zeta only [x]; clear x); (on_goal 2 => (intro _; clear_value x; rename' x => y))) | (clear_value x; rename' x => y))
    | (intro; try beta_reduce)
    | apply_assumption

theorem State.charges_keeps {r : State} {a1} {a2} (h1 : Keeps r a1) : Keeps r (State.charges a1 a2) := by
  delta State.charges
  exact State.put_keeps (State.put_keeps (State.put_keeps (State.put_keeps (State.put_keeps (keeps_fold _ _ (State.dropObjs_keeps h1)
    (fun u x hu => State.put_keeps (State.put_keeps (State.put_keeps (State.put_keeps hu)))))))))

theorem State.poisonReads_keeps {r : State} {a1} {a2} (h1 : Keeps r a1) : Keeps r (State.poisonReads a1 a2) := by
  delta State.poisonReads
  with_reducible repeat' first
    | assumption
    | apply State.dramUe_keeps
    | (extract_lets +onlyGivenNames x; clear_value x; rename' x => y)
    | refine keeps_fold _ _ ?_ ?_
    | (intro; try beta_reduce)
    | apply_assumption

theorem State.notePages_keeps {r : State} {a1} {a2} (h1 : Keeps r a1) : Keeps r (State.notePages a1 a2) := by
  delta State.notePages
  with_reducible repeat' first
    | assumption
    | (intro; try beta_reduce)
    | exact Keeps.upd (by assumption)
    | apply_assumption

theorem State.notePassed_keeps {r : State} {a1} {a2} (h1 : Keeps r a1) : Keeps r (State.notePassed a1 a2) := by
  delta State.notePassed
  exact keeps_fold _ _ (keeps_fold _ _ h1 (fun u x hu => State.putF_keeps hu)) (fun u x hu => State.putF_keeps (State.putThread_keeps hu))

theorem State.runChecks_keeps {r : State} {a1} (h1 : Keeps r a1) : Keeps r (State.runChecks a1).1 := by
  delta State.runChecks
  with_reducible repeat' first
    | assumption
    | apply State.poisonReads_keeps
    | apply State.loadResult_keeps
    | apply State.charges_keeps
    | apply State.notePassed_keeps
    | apply State.notePages_keeps
    | (extract_lets +onlyGivenNames x; first | (refine keeps_have (x := x) ?_ ?_; (on_goal 1 => dsimp -zeta only [x]; clear x); (on_goal 2 => (intro _; clear_value x; rename' x => y))) | (clear_value x; rename' x => y))
    | (intro; try beta_reduce)
    | refine keeps_ite ?_ ?_
    | refine keeps_ite1 ?_ ?_
    | split
    | apply_assumption

theorem State.checksRunning_keeps {r : State} {a1} (h1 : Keeps r a1) : Keeps r (State.checksRunning a1) := by
  delta State.checksRunning
  with_reducible repeat' first
    | assumption
    | apply State.put_keeps
    | (intro; try beta_reduce)
    | apply_assumption

end Sys2Proof.Machine
end

