-- ==== Sys2Proof/Laws/KeepsModes.lean ====
section
/-! SUPPORT. What the operations of Machine/Modes.lean keep. -/

set_option linter.all false

namespace Sys2Proof.Machine

theorem State.lockRegions_keeps {r : State} {a1} (h1 : Keeps r a1) : Keeps r (State.lockRegions a1) := by
  delta State.lockRegions
  with_reducible repeat' first
    | assumption
    | apply State.put_keeps
    | (extract_lets +onlyGivenNames x; clear_value x; rename' x => y)
    | refine keeps_fold _ _ ?_ ?_
    | (intro; try beta_reduce)
    | refine keeps_ite ?_ ?_
    | split
    | apply_assumption

theorem State.abortLocked_keeps {r : State} {a1} {a2} (h1 : Keeps r a1) : Keeps r (State.abortLocked a1 a2) := by
  delta State.abortLocked
  with_reducible repeat' first
    | assumption
    | apply State.closeLost_keeps
    | apply State.putChan_keeps
    | (extract_lets +onlyGivenNames x; first | (refine keeps_have_fun (x := x) ?_ ?_; (on_goal 1 => dsimp -zeta only [x]; clear x); (on_goal 2 => (intro _; clear_value x; rename' x => y))) | (clear_value x; rename' x => y))
    | (intro; try beta_reduce)
    | refine keeps_ite ?_ ?_
    | split
    | apply_assumption

theorem State.dropLocked_keeps {r : State} {a1} (h1 : Keeps r a1) : Keeps r (State.dropLocked a1) := by
  delta State.dropLocked
  with_reducible repeat' first
    | assumption
    | (intro; try beta_reduce)
    | exact Keeps.upd (by assumption)
    | apply_assumption

theorem State.beginArm_keeps {r : State} {a1} (h1 : Keeps r a1) : Keeps r (State.beginArm a1) := by
  delta State.beginArm
  with_reducible repeat' first
    | assumption
    | apply State.allocate_keeps
    | apply State.lockRegions_keeps
    | apply State.abandonOn_keeps
    | apply State.checksRunning_keeps
    | apply State.dropLocked_keeps
    | apply State.abortLocked_keeps
    | (extract_lets +onlyGivenNames x; refine keeps_have (x := x) ?_ ?_; (on_goal 1 => dsimp -zeta only [x]; clear x); (on_goal 2 => (intro _; clear_value x; rename' x => y)))
    | refine keeps_fold _ _ ?_ ?_
    | (intro; try beta_reduce)
    | apply_assumption

theorem State.initDerived_keeps {r : State} {a1} (h1 : Keeps r a1) : Keeps r (State.initDerived a1) := by
  delta State.initDerived
  with_reducible repeat' first
    | assumption
    | apply State.sigReset_keeps
    | refine keeps_fold _ _ ?_ ?_
    | (intro; try beta_reduce)
    | apply_assumption

theorem State.enterArmed_keeps {r : State} {a1} (h1 : Keeps r a1) : Keeps r (State.enterArmed a1) := by
  delta State.enterArmed
  with_reducible repeat' first
    | assumption
    | apply State.putSlice_keeps
    | apply State.initDerived_keeps
    | apply State.enterMode_keeps
    | apply State.primeAll_keeps
    | apply State.setShares_keeps
    | apply State.armStrobe_keeps
    | apply State.guardRaise_keeps
    | apply State.collect_keeps
    | apply State.finishRequest_keeps
    | (extract_lets +onlyGivenNames x; first | ((first | refine keeps_have (x := x) ?_ ?_ | refine keeps_have (x := x.1) ?_ ?_); (on_goal 1 => dsimp -zeta only [x]; clear x); (on_goal 2 => (intro _; clear_value x; rename' x => y))) | (clear_value x; rename' x => y))
    | refine keeps_fold _ _ ?_ ?_
    | refine keeps_fold1 _ _ ?_ ?_
    | (intro; try beta_reduce)
    | exact Keeps.upd (by assumption)
    | refine keeps_ite ?_ ?_
    | refine keeps_ite1 ?_ ?_
    | split
    | apply_assumption

theorem State.armChecked_keeps {r : State} {a1} (h1 : Keeps r a1) : Keeps r (State.armChecked a1) := by
  delta State.armChecked
  with_reducible repeat' first
    | assumption
    | apply State.runChecks_keeps
    | apply State.enterArmed_keeps
    | apply State.irq_keeps
    | apply State.cmdFail_keeps
    | apply State.disarm_keeps
    | (extract_lets +onlyGivenNames x; first | (refine keeps_have (x := x.1) ?_ ?_; (on_goal 1 => dsimp -zeta only [x]; clear x); (on_goal 2 => (intro _; clear_value x; rename' x => y))) | (clear_value x; rename' x => y))
    | (intro; try beta_reduce)
    | refine keeps_ite ?_ ?_
    | refine keeps_ite1 ?_ ?_
    | split
    | apply_assumption

theorem State.beginQuiesce_keeps {r : State} {a1} (h1 : Keeps r a1) : Keeps r (State.beginQuiesce a1) := by
  delta State.beginQuiesce
  with_reducible repeat' first
    | assumption
    | apply State.parkDacs_keeps
    | apply State.allLanes_keeps
    | apply State.stopAll_keeps
    | (extract_lets +onlyGivenNames x; refine keeps_have (x := x) ?_ ?_; (on_goal 1 => dsimp -zeta only [x]; clear x); (on_goal 2 => (intro _; clear_value x; rename' x => y)))
    | (intro; try beta_reduce)
    | exact Keeps.upd (by assumption)
    | refine keeps_ite ?_ ?_
    | split
    | apply_assumption

theorem State.cmdModeRequest_keeps {r : State} {a1} {a2} (h1 : Keeps r a1) : Keeps r (State.cmdModeRequest a1 a2).2 := by
  delta State.cmdModeRequest
  with_reducible repeat' first
    | assumption
    | apply State.cmdDone_keeps
    | apply State.cmdRun_keeps
    | apply State.beginArm_keeps
    | apply State.beginQuiesce_keeps
    | (extract_lets +onlyGivenNames x; first | (refine keeps_have (x := x) ?_ ?_; (on_goal 1 => dsimp -zeta only [x]; clear x); (on_goal 2 => (intro _; clear_value x; rename' x => y))) | (clear_value x; rename' x => y))
    | (intro; try beta_reduce)
    | refine keeps_ite ?_ ?_
    | refine keeps_ite2 ?_ ?_
    | split
    | apply_assumption

theorem State.requestMode_keeps {r : State} {a1} {a2} {a3} (h1 : Keeps r a1) : Keeps r (State.requestMode a1 a2 a3) := by
  delta State.requestMode
  with_reducible repeat' first
    | assumption
    | apply State.access_keeps
    | apply State.cmdModeRequest_keeps
    | (intro; try beta_reduce)
    | apply_assumption

theorem execRequestTrain_keeps {r : State} {a1} {a2} (h2 : Keeps r a2) : OutKeeps r (execRequestTrain a1 a2) := by
  delta execRequestTrain
  with_reducible repeat' first
    | assumption
    | apply State.requestMode_keeps
    | (intro; try beta_reduce)
    | refine out_next ?_
    | apply_assumption

theorem execRequestIdle_keeps {r : State} {a1} {a2} (h2 : Keeps r a2) : OutKeeps r (execRequestIdle a1 a2) := by
  delta execRequestIdle
  with_reducible repeat' first
    | assumption
    | apply State.requestMode_keeps
    | (intro; try beta_reduce)
    | refine out_next ?_
    | apply_assumption

theorem execRequestLoad_keeps {r : State} {a1} {a2} (h2 : Keeps r a2) : OutKeeps r (execRequestLoad a1 a2) := by
  delta execRequestLoad
  with_reducible repeat' first
    | assumption
    | apply State.requestMode_keeps
    | (intro; try beta_reduce)
    | refine out_next ?_
    | apply_assumption

theorem execRequestArmed_keeps {r : State} {a1} {a2} (h2 : Keeps r a2) : OutKeeps r (execRequestArmed a1 a2) := by
  delta execRequestArmed
  with_reducible repeat' first
    | assumption
    | apply State.requestMode_keeps
    | (intro; try beta_reduce)
    | refine out_next ?_
    | apply_assumption

theorem execRequestDiagnose_keeps {r : State} {a1} {a2} (h2 : Keeps r a2) : OutKeeps r (execRequestDiagnose a1 a2) := by
  delta execRequestDiagnose
  with_reducible repeat' first
    | assumption
    | apply State.requestMode_keeps
    | (intro; try beta_reduce)
    | refine out_next ?_
    | apply_assumption

theorem execRequestCalibrate_keeps {r : State} {a1} {a2} (h2 : Keeps r a2) : OutKeeps r (execRequestCalibrate a1 a2) := by
  delta execRequestCalibrate
  with_reducible repeat' first
    | assumption
    | apply State.requestMode_keeps
    | (intro; try beta_reduce)
    | refine out_next ?_
    | apply_assumption

theorem execRequestService_keeps {r : State} {a1} {a2} (h2 : Keeps r a2) : OutKeeps r (execRequestService a1 a2) := by
  delta execRequestService
  with_reducible repeat' first
    | assumption
    | apply State.requestMode_keeps
    | (intro; try beta_reduce)
    | refine out_next ?_
    | apply_assumption

theorem execRequestQuiesce_keeps {r : State} {a1} {a2} (h2 : Keeps r a2) : OutKeeps r (execRequestQuiesce a1 a2) := by
  delta execRequestQuiesce
  with_reducible repeat' first
    | assumption
    | apply State.requestMode_keeps
    | (intro; try beta_reduce)
    | refine out_next ?_
    | apply_assumption

theorem State.changeMode_keeps {r : State} {a1} (h1 : Keeps r a1) : Keeps r (State.changeMode a1) := by
  delta State.changeMode
  with_reducible repeat' first
    | assumption
    | apply State.finishRequest_keeps
    | apply State.goMode_keeps
    | apply State.trainStarts_keeps
    | apply State.clearLive_keeps
    | apply State.fault_keeps
    | apply State.guardRaise_keeps
    | apply State.armStrobe_keeps
    | apply State.collect_keeps
    | (extract_lets +onlyGivenNames x; first | ((first | refine keeps_have (x := x) ?_ ?_ | refine keeps_have (x := x.1) ?_ ?_); (on_goal 1 => dsimp -zeta only [x]; clear x); (on_goal 2 => (intro _; clear_value x; rename' x => y))) | (clear_value x; rename' x => y))
    | (intro; try beta_reduce)
    | refine keeps_ite ?_ ?_
    | refine keeps_ite1 ?_ ?_
    | split
    | apply_assumption

theorem execModeChangeDone_keeps {r : State} {a1} (h1 : Keeps r a1) : OutKeeps r (execModeChangeDone a1) := by
  delta execModeChangeDone
  with_reducible repeat' first
    | assumption
    | apply State.changeMode_keeps
    | (intro; try beta_reduce)
    | refine out_next ?_
    | refine out_ite ?_ ?_
    | refine keeps_ite ?_ ?_
    | split
    | apply_assumption

theorem execCalibrateAutoExit_keeps {r : State} {a1} (h1 : Keeps r a1) : OutKeeps r (execCalibrateAutoExit a1) := by
  delta execCalibrateAutoExit
  with_reducible repeat' first
    | assumption
    | apply State.enterMode_keeps
    | (intro; try beta_reduce)
    | refine out_next ?_
    | refine out_ite ?_ ?_
    | refine keeps_ite ?_ ?_
    | split
    | apply_assumption

theorem execReturnToArmed_keeps {r : State} {a1} (h1 : Keeps r a1) : OutKeeps r (execReturnToArmed a1) := by
  delta execReturnToArmed
  with_reducible repeat' first
    | assumption
    | apply State.guardRaise_keeps
    | apply State.primeAll_keeps
    | apply State.enterMode_keeps
    | (intro; try beta_reduce)
    | refine out_next ?_
    | refine out_ite ?_ ?_
    | refine keeps_ite ?_ ?_
    | split
    | apply_assumption

theorem State.cmdLoadCheck_keeps {r : State} {a1} {a2} (h1 : Keeps r a1) : Keeps r (State.cmdLoadCheck a1 a2).2 := by
  delta State.cmdLoadCheck
  with_reducible repeat' first
    | assumption
    | apply State.cmdRun_keeps
    | apply State.checksRunning_keeps
    | (extract_lets +onlyGivenNames x; clear_value x; rename' x => y)
    | (intro; try beta_reduce)
    | refine keeps_ite ?_ ?_
    | refine keeps_ite2 ?_ ?_
    | split
    | apply_assumption

theorem execLoadCheck_keeps {r : State} {a1} {a2} {a3} (h3 : Keeps r a3) : OutKeeps r (execLoadCheck a1 a2 a3) := by
  delta execLoadCheck
  with_reducible repeat' first
    | assumption
    | apply State.access_keeps
    | apply State.cmdLoadCheck_keeps
    | (intro; try beta_reduce)
    | refine out_next ?_
    | apply_assumption

theorem State.loadChecked_keeps {r : State} {a1} (h1 : Keeps r a1) : Keeps r (State.loadChecked a1) := by
  delta State.loadChecked
  with_reducible repeat' first
    | assumption
    | apply State.runChecks_keeps
    | apply State.allocate_keeps
    | apply State.disarm_keeps
    | apply State.cmdDone_keeps
    | apply State.cmdFail_keeps
    | (extract_lets +onlyGivenNames x; (first | refine keeps_have (x := x) ?_ ?_ | refine keeps_have (x := x.1) ?_ ?_); (on_goal 1 => dsimp -zeta only [x]; clear x); (on_goal 2 => (intro _; clear_value x; rename' x => y)))
    | (intro; try beta_reduce)
    | refine keeps_ite ?_ ?_
    | refine keeps_ite1 ?_ ?_
    | split
    | apply_assumption

theorem execLoadChecksDone_keeps {r : State} {a1} (h1 : Keeps r a1) : OutKeeps r (execLoadChecksDone a1) := by
  delta execLoadChecksDone
  with_reducible repeat' first
    | assumption
    | apply State.loadChecked_keeps
    | apply State.armChecked_keeps
    | (intro; try beta_reduce)
    | refine out_next ?_
    | refine out_ite ?_ ?_
    | refine keeps_ite ?_ ?_
    | split
    | apply_assumption

end Sys2Proof.Machine
end

