-- ==== Sys2Proof/Laws/KeepsPowerOps.lean ====
section
/-! SUPPORT. What the operations of Machine/PowerOps.lean keep. -/

set_option linter.all false

namespace Sys2Proof.Machine

theorem State.putNvm_keeps {r : State} {a1} {a2} (h1 : Keeps r a1) : Keeps r (State.putNvm a1 a2) := by
  delta State.putNvm
  with_reducible repeat' first
    | assumption
    | (intro; try beta_reduce)
    | exact Keeps.upd (by assumption)
    | apply_assumption

theorem State.cutWrites_keeps {r : State} {a1} (h1 : Keeps r a1) : Keeps r (State.cutWrites a1) := by
  delta State.cutWrites
  with_reducible repeat' first
    | assumption
    | apply State.freeChoice_keeps
    | apply State.putNvm_keeps
    | (extract_lets +onlyGivenNames x; first | ((first | refine keeps_have (x := x) ?_ ?_ | refine keeps_have (x := x.2) ?_ ?_); (on_goal 1 => dsimp -zeta only [x]; clear x); (on_goal 2 => (intro _; clear_value x; rename' x => y))) | (clear_value x; rename' x => y))
    | (intro; try beta_reduce)
    | refine keeps_ite ?_ ?_
    | refine keeps_ite2 ?_ ?_
    | split
    | apply_assumption

theorem State.nvmFailed_keeps {r : State} {a1} (h1 : Keeps r a1) : Keeps r (State.nvmFailed a1) := by
  delta State.nvmFailed
  with_reducible repeat' first
    | assumption
    | apply State.fault_keeps
    | (intro; try beta_reduce)
    | apply_assumption

theorem State.refillBucket_keeps {r : State} {a1} {a2} (h1 : Keeps r a1) : Keeps r (State.refillBucket a1 a2) := by
  delta State.refillBucket
  with_reducible repeat' first
    | assumption
    | apply State.put_keeps
    | (intro; try beta_reduce)
    | refine keeps_ite ?_ ?_
    | split
    | apply_assumption

theorem State.refillBuckets_keeps {r : State} {a1} (h1 : Keeps r a1) : Keeps r (State.refillBuckets a1) := by
  delta State.refillBuckets
  with_reducible repeat' first
    | assumption
    | apply State.refillBucket_keeps
    | refine keeps_fold _ _ ?_ ?_
    | (intro; try beta_reduce)
    | exact Keeps.upd (by assumption)
    | apply_assumption

theorem State.minutesToToken_keeps {r : State} {a1} {a2} (h1 : Keeps r a1) : Keeps r (State.minutesToToken a1 a2).2 := by
  delta State.minutesToToken
  with_reducible repeat' first
    | assumption
    | apply State.freeChoice_keeps
    | (extract_lets +onlyGivenNames x; first | (refine keeps_have (x := x.2) ?_ ?_; (on_goal 1 => dsimp -zeta only [x]; clear x); (on_goal 2 => (intro _; clear_value x; rename' x => y))) | (clear_value x; rename' x => y))
    | (intro; try beta_reduce)
    | refine keeps_ite ?_ ?_
    | refine keeps_ite2 ?_ ?_
    | split
    | apply_assumption

theorem State.noToken_keeps {r : State} {a1} {a2} {a3} (h1 : Keeps r a1) : Keeps r (State.noToken a1 a2 a3) := by
  delta State.noToken
  with_reducible repeat' first
    | assumption
    | apply State.minutesToToken_keeps
    | apply State.fault_keeps
    | apply State.cmdFail_keeps
    | (extract_lets +onlyGivenNames x; refine keeps_have (x := x.2) ?_ ?_; (on_goal 1 => dsimp -zeta only [x]; clear x); (on_goal 2 => (intro _; clear_value x; rename' x => y)))
    | (intro; try beta_reduce)
    | apply_assumption

theorem State.snapshot_keeps {r : State} {a1} (h1 : Keeps r a1) : Keeps r (State.snapshot a1) := by
  delta State.snapshot
  with_reducible repeat' first
    | assumption
    | apply State.putNvm_keeps
    | (extract_lets +onlyGivenNames x; clear_value x; rename' x => y)
    | (intro; try beta_reduce)
    | refine keeps_ite ?_ ?_
    | split
    | apply_assumption

theorem State.lichenEnds_keeps {r : State} {a1} (h1 : Keeps r a1) : Keeps r (State.lichenEnds a1) := by
  delta State.lichenEnds
  with_reducible repeat' first
    | assumption
    | apply State.snapshot_keeps
    | apply State.beginQuiesce_keeps
    | (extract_lets +onlyGivenNames x; refine keeps_have (x := x) ?_ ?_; (on_goal 1 => dsimp -zeta only [x]; clear x); (on_goal 2 => (intro _; clear_value x; rename' x => y)))
    | (intro; try beta_reduce)
    | refine keeps_ite ?_ ?_
    | split
    | apply_assumption

theorem State.flushRecord_keeps {r : State} {a1} {a2} (h1 : Keeps r a1) : Keeps r (State.flushRecord a1 a2) := by
  delta State.flushRecord
  with_reducible repeat' first
    | assumption
    | apply State.bbWrite_keeps
    | apply State.putNvm_keeps
    | (extract_lets +onlyGivenNames x; first | (refine keeps_have (x := x) ?_ ?_; (on_goal 1 => dsimp -zeta only [x]; clear x); (on_goal 2 => (intro _; clear_value x; rename' x => y))) | (clear_value x; rename' x => y))
    | (intro; try beta_reduce)
    | refine keeps_ite ?_ ?_
    | split
    | apply_assumption

theorem State.releaseOutputs_keeps {r : State} {a1} (h1 : Keeps r a1) : Keeps r (State.releaseOutputs a1) := by
  delta State.releaseOutputs
  with_reducible repeat' first
    | assumption
    | apply State.floatTrigouts_keeps
    | apply State.putF_keeps
    | apply State.releaseDacs_keeps
    | apply State.setLbk_keeps
    | (extract_lets +onlyGivenNames x; refine keeps_have (x := x) ?_ ?_; (on_goal 1 => dsimp -zeta only [x]; clear x); (on_goal 2 => (intro _; clear_value x; rename' x => y)))
    | (intro; try beta_reduce)
    | exact Keeps.upd (by assumption)
    | exact Keeps.updAllLanes (by assumption)
    | apply_assumption

theorem State.abandonWrites_keeps {r : State} {a1} (h1 : Keeps r a1) : Keeps r (State.abandonWrites a1) := by
  delta State.abandonWrites
  with_reducible repeat' first
    | assumption
    | apply State.cmdFail_keeps
    | apply State.putNvm_keeps
    | (extract_lets +onlyGivenNames x; first | ((first | refine keeps_have (x := x) ?_ ?_ | refine keeps_have_fun (x := x) ?_ ?_); (on_goal 1 => dsimp -zeta only [x]; clear x); (on_goal 2 => (intro _; clear_value x; rename' x => y))) | (clear_value x; rename' x => y))
    | refine keeps_fold _ _ ?_ ?_
    | (intro; try beta_reduce)
    | refine keeps_ite ?_ ?_
    | split
    | apply_assumption

theorem State.quiesceForPower_keeps {r : State} {a1} (h1 : Keeps r a1) : Keeps r (State.quiesceForPower a1) := by
  delta State.quiesceForPower
  with_reducible repeat' first
    | assumption
    | apply State.parkDacs_keeps
    | apply State.allLanes_keeps
    | apply State.stopAll_keeps
    | apply State.enterQuiesce_keeps
    | (extract_lets +onlyGivenNames x; refine keeps_have (x := x) ?_ ?_; (on_goal 1 => dsimp -zeta only [x]; clear x); (on_goal 2 => (intro _; clear_value x; rename' x => y)))
    | (intro; try beta_reduce)
    | exact Keeps.upd (by assumption)
    | refine keeps_ite ?_ ?_
    | split
    | apply_assumption

theorem State.powerFalls_keeps {r : State} {a1} (h1 : Keeps r a1) : Keeps r (State.powerFalls a1) := by
  delta State.powerFalls
  with_reducible repeat' first
    | assumption
    | apply State.quiesceForPower_keeps
    | apply State.abandonWrites_keeps
    | apply State.modeAbort_keeps
    | apply State.putF_keeps
    | (extract_lets +onlyGivenNames x; first | (refine keeps_have (x := x) ?_ ?_; (on_goal 1 => dsimp -zeta only [x]; clear x); (on_goal 2 => (intro _; clear_value x; rename' x => y))) | (clear_value x; rename' x => y))
    | (intro; try beta_reduce)
    | exact Keeps.upd (by assumption)
    | refine keeps_ite ?_ ?_
    | split
    | apply_assumption

end Sys2Proof.Machine
end

