-- ==== Sys2Proof/Laws/KeepsLevels.lean ====
section
/-! SUPPORT. What the operations of Machine/Levels.lean keep. -/

set_option linter.all false

namespace Sys2Proof.Machine

theorem State.loadEdge_keeps {r : State} {a1} (h1 : Keeps r a1) : Keeps r (State.loadEdge a1) := by
  delta State.loadEdge
  with_reducible repeat' first
    | assumption
    | apply State.loadDue_keeps
    | apply State.collect_keeps
    | (extract_lets +onlyGivenNames x; first | ((first | refine keeps_have (x := x) ?_ ?_ | refine keeps_have (x := x.1) ?_ ?_); (on_goal 1 => dsimp -zeta only [x]; clear x); (on_goal 2 => (intro _; clear_value x; rename' x => y))) | (clear_value x; rename' x => y))
    | refine keeps_fold _ _ ?_ ?_
    | refine keeps_fold1 _ _ ?_ ?_
    | (intro; try beta_reduce)
    | exact Keeps.upd (by assumption)
    | refine keeps_ite ?_ ?_
    | refine keeps_ite1 ?_ ?_
    | split
    | apply_assumption

theorem State.cmdDacLoad_keeps {r : State} {a1} {a2} (h1 : Keeps r a1) : Keeps r (State.cmdDacLoad a1 a2).2 := by
  delta State.cmdDacLoad
  with_reducible repeat' first
    | assumption
    | apply State.queueLoads_keeps
    | apply State.cmdRun_keeps
    | (extract_lets +onlyGivenNames x; first | (refine keeps_have (x := x) ?_ ?_; (on_goal 1 => dsimp -zeta only [x]; clear x); (on_goal 2 => (intro _; clear_value x; rename' x => y))) | (clear_value x; rename' x => y))
    | (intro; try beta_reduce)
    | exact Keeps.upd (by assumption)
    | refine keeps_ite ?_ ?_
    | refine keeps_ite2 ?_ ?_
    | split
    | apply_assumption

theorem execDacLoad_keeps {r : State} {a1} {a2} {a3} (h3 : Keeps r a3) : OutKeeps r (execDacLoad a1 a2 a3) := by
  delta execDacLoad
  with_reducible repeat' first
    | assumption
    | apply State.access_keeps
    | apply State.cmdDacLoad_keeps
    | (intro; try beta_reduce)
    | refine out_next ?_
    | apply_assumption

theorem execDacParkWrite_keeps {r : State} {a1} {a2} {a3} {a4} (h4 : Keeps r a4) : OutKeeps r (execDacParkWrite a1 a2 a3 a4) := by
  delta execDacParkWrite
  with_reducible repeat' first
    | assumption
    | apply within_keeps
    | apply State.accessPlain_keeps
    | (intro; try beta_reduce)
    | refine out_next ?_
    | refine out_within ?_
    | apply_assumption

theorem execDacCompliance_keeps {r : State} {a1} {a2} {a3} (h3 : Keeps r a3) : OutKeeps r (execDacCompliance a1 a2 a3) := by
  delta execDacCompliance
  with_reducible repeat' first
    | assumption
    | apply within_keeps
    | apply State.putF_keeps
    | apply State.fault_keeps
    | apply State.faultDac_keeps
    | (extract_lets +onlyGivenNames x; (first | refine keeps_have (x := x) ?_ ?_ | refine keeps_have_out (x := x) ?_ ?_); (on_goal 1 => dsimp -zeta only [x]; clear x); (on_goal 2 => (intro _; clear_value x; rename' x => y)))
    | (intro; try beta_reduce)
    | refine out_next ?_
    | refine out_within ?_
    | refine out_ite ?_ ?_
    | refine keeps_ite ?_ ?_
    | split
    | apply_assumption

theorem execDacModulator_keeps {r : State} {a1} {a2} (h2 : Keeps r a2) : OutKeeps r (execDacModulator a1 a2) := by
  delta execDacModulator
  with_reducible repeat' first
    | assumption
    | apply within_keeps
    | apply State.fault_keeps
    | apply State.putF_keeps
    | (intro; try beta_reduce)
    | refine out_next ?_
    | refine out_within ?_
    | refine out_ite ?_ ?_
    | refine keeps_ite ?_ ?_
    | split
    | apply_assumption

end Sys2Proof.Machine
end

