-- ==== Sys2Proof/Laws/KeepsFernRing.lean ====
section
/-! SUPPORT. What the operations of Machine/FernRing.lean keep. -/

set_option linter.all false

namespace Sys2Proof.Machine

theorem State.newEpoch_keeps {r : State} {a1} {a2} (h1 : Keeps r a1) : Keeps r (State.newEpoch a1 a2) := by
  delta State.newEpoch
  with_reducible repeat' first
    | assumption
    | apply State.slotsFollow_keeps
    | apply State.put_keeps
    | (extract_lets +onlyGivenNames x; refine keeps_have (x := x) ?_ ?_; (on_goal 1 => dsimp -zeta only [x]; clear x); (on_goal 2 => (intro _; clear_value x; rename' x => y)))
    | (intro; try beta_reduce)
    | exact Keeps.upd (by assumption)
    | apply_assumption

theorem State.cmdFernAlign_keeps {r : State} {a1} {a2} {a3} {a4} (h1 : Keeps r a1) : Keeps r (State.cmdFernAlign a1 a2 a3 a4).2 := by
  delta State.cmdFernAlign
  with_reducible repeat' first
    | assumption
    | apply State.ringDown_keeps
    | apply State.cmdDone_keeps
    | apply State.setFernSt_keeps
    | apply State.newEpoch_keeps
    | apply State.put_keeps
    | apply State.emit_keeps
    | apply State.cmdRun_keeps
    | apply State.putF_keeps
    | apply State.cmdFail_keeps
    | (extract_lets +onlyGivenNames x; first | (refine keeps_have (x := x) ?_ ?_; (on_goal 1 => dsimp -zeta only [x]; clear x); (on_goal 2 => (intro _; clear_value x; rename' x => y))) | (clear_value x; rename' x => y))
    | (intro; try beta_reduce)
    | exact Keeps.upd (by assumption)
    | refine keeps_ite ?_ ?_
    | refine keeps_ite2 ?_ ?_
    | split
    | apply_assumption

theorem execFernAlign_keeps {r : State} {a1} {a2} {a3} {a4} {a5} (h5 : Keeps r a5) : OutKeeps r (execFernAlign a1 a2 a3 a4 a5) := by
  delta execFernAlign
  with_reducible repeat' first
    | assumption
    | apply State.access_keeps
    | apply State.cmdFernAlign_keeps
    | (intro; try beta_reduce)
    | refine out_next ?_
    | apply_assumption

theorem execFernAlignLocal_keeps {r : State} {a1} {a2} (h2 : Keeps r a2) : OutKeeps r (execFernAlignLocal a1 a2) := by
  delta execFernAlignLocal
  with_reducible repeat' first
    | assumption
    | apply State.access_keeps
    | apply State.cmdFernAlign_keeps
    | (intro; try beta_reduce)
    | refine out_next ?_
    | apply_assumption

theorem execFernAlignTimeout_keeps {r : State} {a1} {a2} (h2 : Keeps r a2) : OutKeeps r (execFernAlignTimeout a1 a2) := by
  delta execFernAlignTimeout
  with_reducible repeat' first
    | assumption
    | apply State.cmdFail_keeps
    | apply State.putF_keeps
    | apply State.setFernSt_keeps
    | (intro; try beta_reduce)
    | refine out_next ?_
    | exact Keeps.upd (by assumption)
    | refine out_ite ?_ ?_
    | refine keeps_ite ?_ ?_
    | split
    | apply_assumption

theorem execFsyncPulse_keeps {r : State} {a1} (h1 : Keeps r a1) : OutKeeps r (execFsyncPulse a1) := by
  delta execFsyncPulse
  with_reducible repeat' first
    | assumption
    | apply State.setFernSt_keeps
    | apply State.newEpoch_keeps
    | apply State.cmdDone_keeps
    | apply State.ringFault_keeps
    | apply State.count_keeps
    | (extract_lets +onlyGivenNames x; first | ((first | refine keeps_have (x := x) ?_ ?_ | refine keeps_have_out (x := x) ?_ ?_); (on_goal 1 => dsimp -zeta only [x]; clear x); (on_goal 2 => (intro _; clear_value x; rename' x => y))) | (clear_value x; rename' x => y))
    | (intro; try beta_reduce)
    | refine out_next ?_
    | exact Keeps.upd (by assumption)
    | refine out_ite ?_ ?_
    | refine keeps_ite ?_ ?_
    | split
    | apply_assumption

theorem State.fernReturn_keeps {r : State} {a1} {a2} {a3} (h1 : Keeps r a1) : Keeps r (State.fernReturn a1 a2 a3) := by
  delta State.fernReturn
  with_reducible repeat' first
    | assumption
    | apply State.emit_keeps
    | apply State.putF_keeps
    | apply State.put_keeps
    | apply State.fault_keeps
    | apply State.clearLive_keeps
    | (extract_lets +onlyGivenNames x; first | (refine keeps_have (x := x) ?_ ?_; (on_goal 1 => dsimp -zeta only [x]; clear x); (on_goal 2 => (intro _; clear_value x; rename' x => y))) | (clear_value x; rename' x => y))
    | (intro; try beta_reduce)
    | refine keeps_ite ?_ ?_
    | split
    | apply_assumption

theorem execFernReturn_keeps {r : State} {a1} {a2} (h2 : Keeps r a2) : OutKeeps r (execFernReturn a1 a2) := by
  delta execFernReturn
  with_reducible repeat' first
    | assumption
    | apply State.fernReturn_keeps
    | (intro; try beta_reduce)
    | refine out_next ?_
    | exact out_fault
    | refine out_ite ?_ ?_
    | refine keeps_ite ?_ ?_
    | split
    | apply_assumption

theorem execFrefLoss_keeps {r : State} {a1} (h1 : Keeps r a1) : OutKeeps r (execFrefLoss a1) := by
  delta execFrefLoss
  with_reducible repeat' first
    | assumption
    | apply State.fault_keeps
    | apply State.ringDown_keeps
    | apply State.setFernSt_keeps
    | (intro; try beta_reduce)
    | refine out_next ?_
    | exact Keeps.upd (by assumption)
    | refine out_ite ?_ ?_
    | refine keeps_ite ?_ ?_
    | split
    | apply_assumption

theorem State.cmdRingForm_keeps {r : State} {a1} {a2} (h1 : Keeps r a1) : Keeps r (State.cmdRingForm a1 a2).2 := by
  delta State.cmdRingForm
  with_reducible repeat' first
    | assumption
    | apply State.cmdRun_keeps
    | apply State.ringDown_keeps
    | apply State.putF_keeps
    | apply State.setRingSt_keeps
    | apply State.queueFlit_keeps
    | (extract_lets +onlyGivenNames x; first | (refine keeps_have (x := x) ?_ ?_; (on_goal 1 => dsimp -zeta only [x]; clear x); (on_goal 2 => (intro _; clear_value x; rename' x => y))) | (clear_value x; rename' x => y))
    | (intro; try beta_reduce)
    | exact Keeps.upd (by assumption)
    | refine keeps_ite ?_ ?_
    | refine keeps_ite2 ?_ ?_
    | split
    | apply_assumption

theorem execRingForm_keeps {r : State} {a1} {a2} (h2 : Keeps r a2) : OutKeeps r (execRingForm a1 a2) := by
  delta execRingForm
  with_reducible repeat' first
    | assumption
    | apply State.access_keeps
    | apply State.cmdRingForm_keeps
    | (intro; try beta_reduce)
    | refine out_next ?_
    | apply_assumption

theorem State.formFails_keeps {r : State} {a1} {a2} {a3} (h1 : Keeps r a1) : Keeps r (State.formFails a1 a2 a3) := by
  delta State.formFails
  with_reducible repeat' first
    | assumption
    | apply State.cmdFail_keeps
    | apply State.setRingSt_keeps
    | apply State.ringDown_keeps
    | (extract_lets +onlyGivenNames x; clear_value x; rename' x => y)
    | (intro; try beta_reduce)
    | refine keeps_ite ?_ ?_
    | split
    | apply_assumption

theorem execRingFormTimeout_keeps {r : State} {a1} {a2} {a3} (h3 : Keeps r a3) : OutKeeps r (execRingFormTimeout a1 a2 a3) := by
  delta execRingFormTimeout
  with_reducible repeat' first
    | assumption
    | apply State.formFails_keeps
    | (intro; try beta_reduce)
    | refine out_next ?_
    | refine out_ite ?_ ?_
    | refine keeps_ite ?_ ?_
    | split
    | apply_assumption

theorem State.formed_keeps {r : State} {a1} (h1 : Keeps r a1) : Keeps r (State.formed a1) := by
  delta State.formed
  with_reducible repeat' first
    | assumption
    | apply State.put_keeps
    | apply State.setRingSt_keeps
    | (intro; try beta_reduce)
    | refine keeps_ite ?_ ?_
    | split
    | apply_assumption

theorem State.sendMeasures_keeps {r : State} {a1} {a2} (h1 : Keeps r a1) : Keeps r (State.sendMeasures a1 a2) := by
  delta State.sendMeasures
  with_reducible repeat' first
    | assumption
    | apply State.queueFlit_keeps
    | refine keeps_fold _ _ ?_ ?_
    | (intro; try beta_reduce)
    | apply_assumption

theorem State.formBack_keeps {r : State} {a1} {a2} (h1 : Keeps r a1) : Keeps r (State.formBack a1 a2) := by
  delta State.formBack
  with_reducible repeat' first
    | assumption
    | apply State.formFails_keeps
    | apply State.cmdDone_keeps
    | apply State.formed_keeps
    | apply State.sendMeasures_keeps
    | apply State.putF_keeps
    | (extract_lets +onlyGivenNames x; clear_value x; rename' x => y)
    | (intro; try beta_reduce)
    | refine keeps_ite ?_ ?_
    | split
    | apply_assumption

theorem State.formPass_keeps {r : State} {a1} {a2} {a3} (h1 : Keeps r a1) : Keeps r (State.formPass a1 a2 a3) := by
  delta State.formPass
  extract_lets w n p1 b1 p2 pos ready b2 b3 s1 s2 s3 w2
  have q1 : Keeps r p1 := State.putF_keeps h1
  have q2 : Keeps r p2 := Keeps.upd q1
  have e1 : Keeps r s1 := Keeps.upd (State.ringDown_keeps h1)
  have e2 : Keeps r s2 := State.putF_keeps (State.setRingSt_keeps e1)
  have e3 : Keeps r s3 := State.sendMeasures_keeps e2
  exact keeps_ite (State.forward_keeps (keeps_ite (State.formed_keeps q2) q2))
    (keeps_ite (State.forward_keeps h1) (keeps_ite (State.forward_keeps e3) (State.forward_keeps e3)))

theorem State.passBack_keeps {r : State} {a1} {a2} (h1 : Keeps r a1) : Keeps r (State.passBack a1 a2) := by
  delta State.passBack
  with_reducible repeat' first
    | assumption
    | apply State.sendMeasures_keeps
    | apply State.forward_keeps
    | (extract_lets +onlyGivenNames x; first | (refine keeps_have (x := x) ?_ ?_; (on_goal 1 => dsimp -zeta only [x]; clear x); (on_goal 2 => (intro _; clear_value x; rename' x => y))) | (clear_value x; rename' x => y))
    | (intro; try beta_reduce)
    | exact Keeps.upd (by assumption)
    | refine keeps_ite ?_ ?_
    | split
    | apply_assumption

theorem State.arrives_keeps {r : State} {a1} {a2} {a3} {a4 : State → Flit → State} (h1 : Keeps r a1) (hf4_0 : ∀ u1 u2, Keeps r u1 → Keeps r (a4 u1 u2)) : OutKeeps r (State.arrives a1 a2 a3 a4) := by
  delta State.arrives
  with_reducible repeat' first
    | assumption
    | apply State.badCrc_keeps
    | apply State.passBack_keeps
    | (extract_lets +onlyGivenNames x; clear_value x; rename' x => y)
    | (intro; try beta_reduce)
    | refine out_next ?_
    | refine out_ite ?_ ?_
    | refine keeps_ite ?_ ?_
    | split
    | apply_assumption

theorem State.passes_keeps {r : State} {a1} {a2} {a3} {a4 : State → State} (h1 : Keeps r a1) (hf4_0 : ∀ u1, Keeps r u1 → Keeps r (a4 u1)) : Keeps r (State.passes a1 a2 a3 a4) := by
  delta State.passes
  with_reducible repeat' first
    | assumption
    | apply State.forward_keeps
    | apply State.noteFlit_keeps
    | (intro; try beta_reduce)
    | refine keeps_ite ?_ ?_
    | split
    | apply_assumption

theorem execFlitForm_keeps {r : State} {a1} {a2} {a3} (h3 : Keeps r a3) : OutKeeps r (execFlitForm a1 a2 a3) := by
  delta execFlitForm
  with_reducible repeat' first
    | assumption
    | apply State.arrives_keeps
    | apply State.formBack_keeps
    | apply State.flitHome_keeps
    | apply State.passes_keeps
    | apply State.formPass_keeps
    | (intro; try beta_reduce)
    | refine out_next ?_
    | refine out_ite ?_ ?_
    | refine keeps_ite ?_ ?_
    | split
    | apply_assumption

theorem State.secondLap_keeps {r : State} {a1} {a2} (h1 : Keeps r a1) : Keeps r (State.secondLap a1 a2) := by
  delta State.secondLap
  with_reducible repeat' first
    | assumption
    | apply State.put_keeps
    | apply State.queueFlit_keeps
    | (extract_lets +onlyGivenNames x; first | (refine keeps_have (x := x) ?_ ?_; (on_goal 1 => dsimp -zeta only [x]; clear x); (on_goal 2 => (intro _; clear_value x; rename' x => y))) | (clear_value x; rename' x => y))
    | (intro; try beta_reduce)
    | exact Keeps.upd (by assumption)
    | apply_assumption

theorem State.measured_keeps {r : State} {a1} {a2} {a3} (h1 : Keeps r a1) : Keeps r (State.measured a1 a2 a3) := by
  delta State.measured
  with_reducible repeat' first
    | assumption
    | apply State.nearestOpen_keeps
    | apply State.roundOpen_keeps
    | apply State.put_keeps
    | apply State.formFails_keeps
    | apply State.secondLap_keeps
    | (extract_lets +onlyGivenNames x; first | ((first | refine keeps_have (x := x) ?_ ?_ | refine keeps_have (x := x.2) ?_ ?_); (on_goal 1 => dsimp -zeta only [x]; clear x); (on_goal 2 => (intro _; clear_value x; rename' x => y))) | (clear_value x; rename' x => y))
    | (intro; try beta_reduce)
    | exact Keeps.upd (by assumption)
    | refine keeps_ite ?_ ?_
    | refine keeps_ite2 ?_ ?_
    | split
    | apply_assumption

theorem execFlitMeasure_keeps {r : State} {a1} {a2} {a3} {a4} {a5} (h5 : Keeps r a5) : OutKeeps r (execFlitMeasure a1 a2 a3 a4 a5) := by
  delta execFlitMeasure
  with_reducible repeat' first
    | assumption
    | apply State.badCrc_keeps
    | apply State.measured_keeps
    | (intro; try beta_reduce)
    | refine out_next ?_
    | refine out_ite ?_ ?_
    | refine keeps_ite ?_ ?_
    | split
    | apply_assumption

theorem State.startBack_keeps {r : State} {a1} {a2} (h1 : Keeps r a1) : Keeps r (State.startBack a1 a2) := by
  delta State.startBack
  extract_lets asked s1 cmd fails
  have e1 : Keeps r s1 := State.flitHome_keeps h1
  have ef : ∀ t c n, Keeps r t → Keeps r (fails t c n) := by
    intro t c n ht
    dsimp -zeta only [fails]
    extract_lets t1
    have e2 : Keeps r t1 := State.endJoint_keeps ht
    split
    · exact State.cmdFail_keeps e2
    · exact e2
  clear_value fails s1
  split
  · exact e1
  · split
    · split
      · exact ef _ _ _ e1
      · exact ef _ _ _ (State.free_keeps e1)
    · split
      · exact ef _ _ _ e1
      · exact Keeps.upd (State.queueFlit_keeps e1)

theorem State.startPass_keeps {r : State} {a1} {a2} {a3} (h1 : Keeps r a1) : Keeps r (State.startPass a1 a2 a3) := by
  delta State.startPass
  with_reducible repeat' first
    | assumption
    | apply State.forward_keeps
    | (extract_lets +onlyGivenNames x; first | (refine keeps_have (x := x) ?_ ?_; (on_goal 1 => dsimp -zeta only [x]; clear x); (on_goal 2 => (intro _; clear_value x; rename' x => y))) | (clear_value x; rename' x => y))
    | (intro; try beta_reduce)
    | exact Keeps.upd (by assumption)
    | refine keeps_ite ?_ ?_
    | split
    | apply_assumption

theorem execFlitStartReq_keeps {r : State} {a1} {a2} {a3} (h3 : Keeps r a3) : OutKeeps r (execFlitStartReq a1 a2 a3) := by
  delta execFlitStartReq
  with_reducible repeat' first
    | assumption
    | apply State.arrives_keeps
    | apply State.startBack_keeps
    | apply State.passes_keeps
    | apply State.startPass_keeps
    | (intro; try beta_reduce)
    | refine out_next ?_
    | refine out_ite ?_ ?_
    | refine keeps_ite ?_ ?_
    | split
    | apply_assumption

theorem State.launchPass_keeps {r : State} {a1} {a2} {a3} (h1 : Keeps r a1) : Keeps r (State.launchPass a1 a2 a3) := by
  delta State.launchPass
  extract_lets b1 s1 b2
  have e1 : Keeps r s1 := Keeps.upd h1
  exact State.forward_keeps (keeps_ite (Keeps.upd e1) e1)

theorem execFlitLaunch_keeps {r : State} {a1} {a2} {a3} (h3 : Keeps r a3) : OutKeeps r (execFlitLaunch a1 a2 a3) := by
  delta execFlitLaunch
  with_reducible repeat' first
    | assumption
    | apply State.arrives_keeps
    | apply State.flitHome_keeps
    | apply State.passes_keeps
    | apply State.launchPass_keeps
    | (intro; try beta_reduce)
    | refine out_next ?_
    | refine out_ite ?_ ?_
    | refine keeps_ite ?_ ?_
    | split
    | apply_assumption

theorem State.holdFlit_keeps {r : State} {a1} {a2} (h1 : Keeps r a1) : Keeps r (State.holdFlit a1 a2) := by
  delta State.holdFlit
  with_reducible repeat' first
    | assumption
    | (extract_lets +onlyGivenNames x; clear_value x; rename' x => y)
    | (intro; try beta_reduce)
    | exact Keeps.upd (by assumption)
    | apply_assumption

theorem State.holdPass_keeps {r : State} {a1} {a2} {a3} (h1 : Keeps r a1) : Keeps r (State.holdPass a1 a2 a3) := by
  delta State.holdPass
  with_reducible repeat' first
    | assumption
    | apply State.forward_keeps
    | apply State.ringFault_keeps
    | apply State.holdFlit_keeps
    | (intro; try beta_reduce)
    | refine keeps_ite ?_ ?_
    | split
    | apply_assumption

theorem execFlitCond_keeps {r : State} {a1} {a2} {a3} (h3 : Keeps r a3) : OutKeeps r (execFlitCond a1 a2 a3) := by
  delta execFlitCond
  with_reducible repeat' first
    | assumption
    | apply State.arrives_keeps
    | apply State.flitHome_keeps
    | apply State.passes_keeps
    | apply State.holdPass_keeps
    | (intro; try beta_reduce)
    | refine out_next ?_
    | refine out_ite ?_ ?_
    | refine keeps_ite ?_ ?_
    | split
    | apply_assumption

theorem State.tokenPass_keeps {r : State} {a1} {a2} {a3} (h1 : Keeps r a1) : Keeps r (State.tokenPass a1 a2 a3) := by
  delta State.tokenPass
  with_reducible repeat' first
    | assumption
    | apply State.forward_keeps
    | apply State.ringFault_keeps
    | apply State.holdFlit_keeps
    | (intro; try beta_reduce)
    | refine keeps_ite ?_ ?_
    | split
    | apply_assumption

theorem execFlitToken_keeps {r : State} {a1} {a2} {a3} (h3 : Keeps r a3) : OutKeeps r (execFlitToken a1 a2 a3) := by
  delta execFlitToken
  with_reducible repeat' first
    | assumption
    | apply State.arrives_keeps
    | apply State.flitHome_keeps
    | apply State.count_keeps
    | apply State.passes_keeps
    | apply State.tokenPass_keeps
    | (intro; try beta_reduce)
    | refine out_next ?_
    | refine out_ite ?_ ?_
    | refine keeps_ite ?_ ?_
    | split
    | apply_assumption

theorem execFlitTrig_keeps {r : State} {a1} {a2} {a3} (h3 : Keeps r a3) : OutKeeps r (execFlitTrig a1 a2 a3) := by
  delta execFlitTrig
  with_reducible repeat' first
    | assumption
    | apply State.arrives_keeps
    | apply State.flitHome_keeps
    | apply State.passes_keeps
    | apply State.holdPass_keeps
    | (intro; try beta_reduce)
    | refine out_next ?_
    | refine out_ite ?_ ?_
    | refine keeps_ite ?_ ?_
    | split
    | apply_assumption

theorem State.flitActs_keeps {r : State} {a1} {a2} (h1 : Keeps r a1) : Keeps r (State.flitActs a1 a2) := by
  delta State.flitActs
  with_reducible repeat' first
    | assumption
    | apply State.contribute_keeps
    | apply State.takeToken_keeps
    | apply State.line_keeps
    | (intro; try beta_reduce)
    | refine keeps_ite ?_ ?_
    | split
    | apply_assumption

theorem execRingDue_keeps {r : State} {a1} (h1 : Keeps r a1) : OutKeeps r (execRingDue a1) := by
  delta execRingDue
  with_reducible repeat' first
    | assumption
    | apply State.flitActs_keeps
    | (extract_lets +onlyGivenNames x; clear_value x; rename' x => y)
    | (intro; try beta_reduce)
    | refine out_next ?_
    | exact out_fault
    | exact Keeps.upd (by assumption)
    | split
    | apply_assumption

theorem State.ringBreaks_keeps {r : State} {a1} (h1 : Keeps r a1) : Keeps r (State.ringBreaks a1) := by
  delta State.ringBreaks
  with_reducible repeat' first
    | assumption
    | apply State.ringDown_keeps
    | apply State.endJoint_keeps
    | apply State.ringFault_keeps
    | (extract_lets +onlyGivenNames x; refine keeps_have (x := x) ?_ ?_; (on_goal 1 => dsimp -zeta only [x]; clear x); (on_goal 2 => (intro _; clear_value x; rename' x => y)))
    | (intro; try beta_reduce)
    | refine keeps_ite ?_ ?_
    | split
    | apply_assumption

theorem State.formBroken_keeps {r : State} {a1} {a2} (h1 : Keeps r a1) : Keeps r (State.formBroken a1 a2) := by
  delta State.formBroken
  with_reducible repeat' first
    | assumption
    | apply State.formFails_keeps
    | (intro; try beta_reduce)
    | refine keeps_ite ?_ ?_
    | split
    | apply_assumption

theorem execFlitBreak_keeps {r : State} {a1} {a2} {a3} (h3 : Keeps r a3) : OutKeeps r (execFlitBreak a1 a2 a3) := by
  delta execFlitBreak
  refine State.arrives_keeps h3 ?_
  intro u f hu
  exact keeps_ite (State.flitHome_keeps hu) (State.ringBreaks_keeps (State.formBroken_keeps (State.forward_keeps hu)))

theorem execFlitErrored_keeps {r : State} {a1} {a2} {a3} (h3 : Keeps r a3) : OutKeeps r (execFlitErrored a1 a2 a3) := by
  delta execFlitErrored
  with_reducible repeat' first
    | assumption
    | apply State.arrives_keeps
    | apply State.forward_keeps
    | apply State.flitHome_keeps
    | apply State.ringFault_keeps
    | (extract_lets +onlyGivenNames x; first | ((first | refine keeps_have (x := x) ?_ ?_ | refine keeps_have_out (x := x) ?_ ?_); (on_goal 1 => dsimp -zeta only [x]; clear x); (on_goal 2 => (intro _; clear_value x; rename' x => y))) | (clear_value x; rename' x => y))
    | (intro; try beta_reduce)
    | refine out_next ?_
    | exact out_fault
    | exact Keeps.upd (by assumption)
    | refine out_ite ?_ ?_
    | refine keeps_ite ?_ ?_
    | split
    | apply_assumption

theorem execRingLinkDown_keeps {r : State} {a1} {a2} (h2 : Keeps r a2) : OutKeeps r (execRingLinkDown a1 a2) := by
  delta execRingLinkDown
  with_reducible repeat' first
    | assumption
    | apply State.putF_keeps
    | apply State.ringBreaks_keeps
    | apply State.formBroken_keeps
    | (extract_lets +onlyGivenNames x; first | ((first | refine keeps_have (x := x) ?_ ?_ | refine keeps_have_out (x := x) ?_ ?_); (on_goal 1 => dsimp -zeta only [x]; clear x); (on_goal 2 => (intro _; clear_value x; rename' x => y))) | (clear_value x; rename' x => y))
    | (intro; try beta_reduce)
    | refine out_next ?_
    | exact Keeps.upd (by assumption)
    | refine out_ite ?_ ?_
    | refine keeps_ite ?_ ?_
    | split
    | apply_assumption

theorem execRingLinkLock_keeps {r : State} {a1} {a2} (h2 : Keeps r a2) : OutKeeps r (execRingLinkLock a1 a2) := by
  delta execRingLinkLock
  with_reducible repeat' first
    | assumption
    | apply State.putF_keeps
    | apply State.clearLive_keeps
    | (extract_lets +onlyGivenNames x; (first | refine keeps_have (x := x) ?_ ?_ | refine keeps_have_out (x := x) ?_ ?_); (on_goal 1 => dsimp -zeta only [x]; clear x); (on_goal 2 => (intro _; clear_value x; rename' x => y)))
    | (intro; try beta_reduce)
    | refine out_next ?_
    | refine out_ite ?_ ?_
    | refine keeps_ite ?_ ?_
    | split
    | apply_assumption

theorem State.measureHome_keeps {r : State} {a1} (h1 : Keeps r a1) : Keeps r (State.measureHome a1) := by
  delta State.measureHome
  with_reducible repeat' first
    | assumption
    | apply State.flitHome_keeps
    | (intro; try beta_reduce)
    | split
    | apply_assumption

theorem execRingSlot_keeps {r : State} {a1} {a2} {a3} (h3 : Keeps r a3) : OutKeeps r (execRingSlot a1 a2 a3) := by
  delta execRingSlot
  with_reducible repeat' first
    | assumption
    | apply State.measureHome_keeps
    | apply State.sendFlit_keeps
    | (extract_lets +onlyGivenNames x; first | ((first | refine keeps_have (x := x) ?_ ?_ | refine keeps_have_out (x := x) ?_ ?_); (on_goal 1 => dsimp -zeta only [x]; clear x); (on_goal 2 => (intro _; clear_value x; rename' x => y))) | (clear_value x; rename' x => y))
    | (intro; try beta_reduce)
    | refine out_next ?_
    | exact out_fault
    | exact Keeps.upd (by assumption)
    | refine out_ite ?_ ?_
    | refine keeps_ite ?_ ?_
    | split
    | apply_assumption

end Sys2Proof.Machine
end

