-- ==== Sys2Proof/Laws/KeepsDram.lean ====
section
/-! SUPPORT. What the operations of Machine/Dram.lean keep. -/

set_option linter.all false

namespace Sys2Proof.Machine

theorem State.dramReadAt_keeps {r : State} {a1} {a2} {a3} (h1 : Keeps r a1) : Keeps r (State.dramReadAt a1 a2 a3) := by
  delta State.dramReadAt
  with_reducible repeat' first
    | assumption
    | apply State.emit_keeps
    | apply State.readBurst_keeps
    | apply State.retire_keeps
    | (extract_lets +onlyGivenNames x; first | (refine keeps_have (x := x.1) ?_ ?_; (on_goal 1 => dsimp -zeta only [x]; clear x); (on_goal 2 => (intro _; clear_value x; rename' x => y))) | (clear_value x; rename' x => y))
    | (intro; try beta_reduce)
    | refine keeps_ite ?_ ?_
    | refine keeps_ite1 ?_ ?_
    | split
    | apply_assumption

theorem execDramRead_keeps {r : State} {a1} {a2} {a3} (h3 : Keeps r a3) : OutKeeps r (execDramRead a1 a2 a3) := by
  delta execDramRead
  with_reducible repeat' first
    | assumption
    | apply State.dramReadAt_keeps
    | (intro; try beta_reduce)
    | refine out_next ?_
    | refine out_ite ?_ ?_
    | refine keeps_ite ?_ ?_
    | split
    | apply_assumption

theorem State.dramWriteAt_keeps {r : State} {a1} {a2} {a3} {a4} (h1 : Keeps r a1) : Keeps r (State.dramWriteAt a1 a2 a3 a4) := by
  delta State.dramWriteAt
  with_reducible repeat' first
    | assumption
    | apply State.writeBytes_keeps
    | apply State.enqueue_keeps
    | apply State.readBurst_keeps
    | (extract_lets +onlyGivenNames x; first | ((first | refine keeps_have (x := x) ?_ ?_ | refine keeps_have (x := x.1) ?_ ?_); (on_goal 1 => dsimp -zeta only [x]; clear x); (on_goal 2 => (intro _; clear_value x; rename' x => y))) | (clear_value x; rename' x => y))
    | (intro; try beta_reduce)
    | exact Keeps.upd (by assumption)
    | refine keeps_ite ?_ ?_
    | refine keeps_ite1 ?_ ?_
    | split
    | apply_assumption

theorem execDramWrite_keeps {r : State} {a1} {a2} {a3} {a4} (h4 : Keeps r a4) : OutKeeps r (execDramWrite a1 a2 a3 a4) := by
  delta execDramWrite
  with_reducible repeat' first
    | assumption
    | apply State.dramWriteAt_keeps
    | (intro; try beta_reduce)
    | refine out_next ?_
    | refine out_ite ?_ ?_
    | refine keeps_ite ?_ ?_
    | split
    | apply_assumption

theorem execWriteDrain_keeps {r : State} {a1} {a2} (h2 : Keeps r a2) : OutKeeps r (execWriteDrain a1 a2) := by
  delta execWriteDrain
  with_reducible repeat' first
    | assumption
    | apply within_keeps
    | apply State.drainQueue_keeps
    | (intro; try beta_reduce)
    | refine out_next ?_
    | refine out_within ?_
    | apply_assumption

theorem State.setOwes_keeps {r : State} {a1} {a2} {a3} {a4} (h1 : Keeps r a1) : Keeps r (State.setOwes a1 a2 a3 a4) := by
  delta State.setOwes
  with_reducible repeat' first
    | assumption
    | apply State.putSubch_keeps
    | apply State.putF_keeps
    | (extract_lets +onlyGivenNames x; first | (refine keeps_have (x := x) ?_ ?_; (on_goal 1 => dsimp -zeta only [x]; clear x); (on_goal 2 => (intro _; clear_value x; rename' x => y))) | (clear_value x; rename' x => y))
    | refine keeps_fold _ _ ?_ ?_
    | (intro; try beta_reduce)
    | apply_assumption

theorem execRefreshDue_keeps {r : State} {a1} {a2} {a3} {a4} (h4 : Keeps r a4) : OutKeeps r (execRefreshDue a1 a2 a3 a4) := by
  delta execRefreshDue
  with_reducible repeat' first
    | assumption
    | apply within_keeps
    | apply State.emit_keeps
    | apply State.countSat_keeps
    | apply State.setOwes_keeps
    | (extract_lets +onlyGivenNames x; clear_value x; rename' x => y)
    | (intro; try beta_reduce)
    | refine out_next ?_
    | refine out_within ?_
    | refine out_ite ?_ ?_
    | refine keeps_ite ?_ ?_
    | split
    | apply_assumption

theorem State.dramQuiet_keeps {r : State} {a1} {a2} {a3 : Nat → Bool} (h1 : Keeps r a1) : Keeps r (State.dramQuiet a1 a2 a3) := by
  delta State.dramQuiet
  with_reducible repeat' first
    | assumption
    | apply State.clearLive_keeps
    | (intro; try beta_reduce)
    | refine keeps_ite ?_ ?_
    | split
    | apply_assumption

theorem execRefreshRatePoll_keeps {r : State} {a1} {a2} {a3} {a4} (h4 : Keeps r a4) : OutKeeps r (execRefreshRatePoll a1 a2 a3 a4) := by
  delta execRefreshRatePoll
  with_reducible repeat' first
    | assumption
    | apply within_keeps
    | apply State.putF_keeps
    | apply State.putSubch_keeps
    | apply State.fault_keeps
    | apply State.dramQuiet_keeps
    | (extract_lets +onlyGivenNames x; first | ((first | refine keeps_have (x := x) ?_ ?_ | refine keeps_have_out (x := x) ?_ ?_); (on_goal 1 => dsimp -zeta only [x]; clear x); (on_goal 2 => (intro _; clear_value x; rename' x => y))) | (clear_value x; rename' x => y))
    | (intro; try beta_reduce)
    | refine out_next ?_
    | refine out_within ?_
    | refine out_ite ?_ ?_
    | refine keeps_ite ?_ ?_
    | split
    | apply_assumption

theorem execAct_keeps {r : State} {a1} {a2} {a3} {a4} {a5} (h5 : Keeps r a5) : OutKeeps r (execAct a1 a2 a3 a4 a5) := by
  delta execAct
  with_reducible repeat' first
    | assumption
    | apply within_keeps
    | apply State.putSubch_keeps
    | apply State.emit_keeps
    | apply State.countSat_keeps
    | (extract_lets +onlyGivenNames x; first | ((first | refine keeps_have (x := x) ?_ ?_ | refine keeps_have_out (x := x) ?_ ?_); (on_goal 1 => dsimp -zeta only [x]; clear x); (on_goal 2 => (intro _; clear_value x; rename' x => y))) | (clear_value x; rename' x => y))
    | refine keeps_fold _ _ ?_ ?_
    | (intro; try beta_reduce)
    | refine out_next ?_
    | refine out_within ?_
    | refine out_ite ?_ ?_
    | refine keeps_ite ?_ ?_
    | split
    | apply_assumption

theorem execActWindowReset_keeps {r : State} {a1} {a2} {a3} (h3 : Keeps r a3) : OutKeeps r (execActWindowReset a1 a2 a3) := by
  delta execActWindowReset
  with_reducible repeat' first
    | assumption
    | apply within_keeps
    | apply State.putSubch_keeps
    | (extract_lets +onlyGivenNames x; clear_value x; rename' x => y)
    | (intro; try beta_reduce)
    | refine out_next ?_
    | refine out_within ?_
    | apply_assumption

theorem execRetrainPause_keeps {r : State} {a1} {a2} {a3} {a4} {a5} {a6} (h6 : Keeps r a6) : OutKeeps r (execRetrainPause a1 a2 a3 a4 a5 a6) := by
  delta execRetrainPause
  with_reducible repeat' first
    | assumption
    | apply within_keeps
    | apply State.putSubch_keeps
    | (extract_lets +onlyGivenNames x; clear_value x; rename' x => y)
    | (intro; try beta_reduce)
    | refine out_next ?_
    | refine out_within ?_
    | refine out_ite ?_ ?_
    | refine keeps_ite ?_ ?_
    | split
    | apply_assumption

theorem State.endLane_keeps {r : State} {a1} {a2} {a3} (h1 : Keeps r a1) : Keeps r (State.endLane a1 a2 a3).1 := by
  delta State.endLane
  with_reducible repeat' first
    | assumption
    | apply State.putF_keeps
    | (extract_lets +onlyGivenNames x; first | (refine keeps_have (x := x) ?_ ?_; (on_goal 1 => dsimp -zeta only [x]; clear x); (on_goal 2 => (intro _; clear_value x; rename' x => y))) | (clear_value x; rename' x => y))
    | (intro; try beta_reduce)
    | refine keeps_ite ?_ ?_
    | refine keeps_ite1 ?_ ?_
    | split
    | apply_assumption

theorem State.endRetrain_keeps {r : State} {a1} {a2} (h1 : Keeps r a1) : Keeps r (State.endRetrain a1 a2) := by
  delta State.endRetrain
  with_reducible repeat' first
    | assumption
    | apply State.endLane_keeps
    | apply State.countSat_keeps
    | apply State.putSubch_keeps
    | apply State.putF_keeps
    | apply State.dramQuiet_keeps
    | apply State.collect_keeps
    | apply State.disablePending_keeps
    | (extract_lets +onlyGivenNames x; first | ((first | refine keeps_have (x := x) ?_ ?_ | refine keeps_have (x := x.1) ?_ ?_); (on_goal 1 => dsimp -zeta only [x]; clear x); (on_goal 2 => (intro _; clear_value x; rename' x => y))) | (clear_value x; rename' x => y))
    | refine keeps_fold _ _ ?_ ?_
    | refine keeps_fold1 _ _ ?_ ?_
    | (intro; try beta_reduce)
    | refine keeps_ite ?_ ?_
    | refine keeps_ite1 ?_ ?_
    | split
    | apply_assumption

theorem execRetrainEnd_keeps {r : State} {a1} {a2} (h2 : Keeps r a2) : OutKeeps r (execRetrainEnd a1 a2) := by
  delta execRetrainEnd
  with_reducible repeat' first
    | assumption
    | apply within_keeps
    | apply State.endRetrain_keeps
    | (intro; try beta_reduce)
    | refine out_next ?_
    | refine out_within ?_
    | refine out_ite ?_ ?_
    | refine keeps_ite ?_ ?_
    | split
    | apply_assumption

theorem execCeRateCheck_keeps {r : State} {a1} {a2} {a3} {a4} (h4 : Keeps r a4) : OutKeeps r (execCeRateCheck a1 a2 a3 a4) := by
  delta execCeRateCheck
  with_reducible repeat' first
    | assumption
    | apply within_keeps
    | apply State.fault_keeps
    | (intro; try beta_reduce)
    | refine out_next ?_
    | refine out_within ?_
    | refine out_ite ?_ ?_
    | refine keeps_ite ?_ ?_
    | split
    | apply_assumption

theorem execDramFillDone_keeps {r : State} {a1} (h1 : Keeps r a1) : OutKeeps r (execDramFillDone a1) := by
  delta execDramFillDone
  with_reducible repeat' first
    | assumption
    | apply State.writeBytes_keeps
    | apply State.put_keeps
    | (extract_lets +onlyGivenNames x; (first | refine keeps_have (x := x) ?_ ?_ | refine keeps_have_out (x := x) ?_ ?_); (on_goal 1 => dsimp -zeta only [x]; clear x); (on_goal 2 => (intro _; clear_value x; rename' x => y)))
    | refine keeps_fold _ _ ?_ ?_
    | (intro; try beta_reduce)
    | refine out_next ?_
    | exact Keeps.upd (by assumption)
    | apply_assumption

end Sys2Proof.Machine
end

