-- ==== Sys2Proof/Laws/KeepsTime.lean ====
section
/-! SUPPORT. What the operations of Machine/Time.lean keep. -/

set_option linter.all false

namespace Sys2Proof.Machine

theorem State.armSlot_keeps {r : State} {a1} {a2} (h1 : Keeps r a1) : Keeps r (State.armSlot a1 a2).2 := by
  delta State.armSlot
  with_reducible repeat' first
    | assumption
    | apply State.slotTooLate_keeps
    | apply State.putF_keeps
    | apply State.putSlot_keeps
    | apply State.runLate_keeps
    | apply State.convertSlot_keeps
    | apply State.put_keeps
    | (extract_lets +onlyGivenNames x; first | (refine keeps_have (x := x) ?_ ?_; (on_goal 1 => dsimp -zeta only [x]; clear x); (on_goal 2 => (intro _; clear_value x; rename' x => y))) | (clear_value x; rename' x => y))
    | (intro; try beta_reduce)
    | refine keeps_ite ?_ ?_
    | refine keeps_ite2 ?_ ?_
    | split
    | apply_assumption

theorem State.cmdSlotArm_keeps {r : State} {a1} {a2} {a3} (h1 : Keeps r a1) : Keeps r (State.cmdSlotArm a1 a2 a3).2 := by
  delta State.cmdSlotArm
  with_reducible repeat' first
    | assumption
    | apply State.armSlot_keeps
    | apply State.cmdDone_keeps
    | apply State.putF_keeps
    | (extract_lets +onlyGivenNames x; first | (refine keeps_have (x := x.2) ?_ ?_; (on_goal 1 => dsimp -zeta only [x]; clear x); (on_goal 2 => (intro _; clear_value x; rename' x => y))) | (clear_value x; rename' x => y))
    | (intro; try beta_reduce)
    | refine keeps_ite ?_ ?_
    | refine keeps_ite2 ?_ ?_
    | split
    | apply_assumption

theorem execSlotArm_keeps {r : State} {a1} {a2} {a3} (h3 : Keeps r a3) : OutKeeps r (execSlotArm a1 a2 a3) := by
  delta execSlotArm
  with_reducible repeat' first
    | assumption
    | apply within_keeps
    | apply State.access_keeps
    | apply State.cmdSlotArm_keeps
    | (intro; try beta_reduce)
    | refine out_next ?_
    | refine out_within ?_
    | apply_assumption

theorem execSlotCancel_keeps {r : State} {a1} {a2} {a3} (h3 : Keeps r a3) : OutKeeps r (execSlotCancel a1 a2 a3) := by
  delta execSlotCancel
  with_reducible repeat' first
    | assumption
    | apply within_keeps
    | apply State.access_keeps
    | apply State.cmdSlotArm_keeps
    | (intro; try beta_reduce)
    | refine out_next ?_
    | refine out_within ?_
    | apply_assumption

theorem execSlotLaunch_keeps {r : State} {a1} {a2} (h2 : Keeps r a2) : OutKeeps r (execSlotLaunch a1 a2) := by
  delta execSlotLaunch
  with_reducible repeat' first
    | assumption
    | apply within_keeps
    | apply State.putSlot_keeps
    | apply State.countSat_keeps
    | apply State.putF_keeps
    | (extract_lets +onlyGivenNames x; first | ((first | refine keeps_have (x := x) ?_ ?_ | refine keeps_have_out (x := x) ?_ ?_); (on_goal 1 => dsimp -zeta only [x]; clear x); (on_goal 2 => (intro _; clear_value x; rename' x => y))) | (clear_value x; rename' x => y))
    | (intro; try beta_reduce)
    | refine out_next ?_
    | refine out_within ?_
    | refine out_ite ?_ ?_
    | refine keeps_ite ?_ ?_
    | split
    | apply_assumption

theorem State.slotBurst_keeps {r : State} {a1} {a2} {a3} (h1 : Keeps r a1) : Keeps r (State.slotBurst a1 a2 a3).2 := by
  delta State.slotBurst
  with_reducible repeat' first
    | assumption
    | apply State.startJoint_keeps
    | apply State.acceptBurst_keeps
    | (extract_lets +onlyGivenNames x; clear_value x; rename' x => y)
    | (intro; try beta_reduce)
    | refine keeps_ite ?_ ?_
    | refine keeps_ite2 ?_ ?_
    | split
    | apply_assumption

theorem State.slotRun_keeps {r : State} {a1} {a2} (h1 : Keeps r a1) : Keeps r (State.slotRun a1 a2).2 := by
  delta State.slotRun
  with_reducible repeat' first
    | assumption
    | apply State.slotBurst_keeps
    | apply State.queueLoads_keeps
    | apply State.pulse_keeps
    | apply State.armAcqBy_keeps
    | apply State.startAdcBy_keeps
    | apply State.armTiuBy_keeps
    | (extract_lets +onlyGivenNames x; clear_value x; rename' x => y)
    | refine keeps_fold _ _ ?_ ?_
    | refine keeps_fold1 _ _ ?_ ?_
    | refine keeps_fold2 _ _ ?_ ?_
    | (intro; try beta_reduce)
    | refine keeps_ite ?_ ?_
    | refine keeps_ite2 ?_ ?_
    | split
    | apply_assumption

theorem execSlotAction_keeps {r : State} {a1} {a2} (h2 : Keeps r a2) : OutKeeps r (execSlotAction a1 a2) := by
  delta execSlotAction
  with_reducible repeat' first
    | assumption
    | apply within_keeps
    | apply State.slotRun_keeps
    | apply State.slotDecided_keeps
    | (extract_lets +onlyGivenNames x; (first | refine keeps_have (x := x.2) ?_ ?_ | refine keeps_have_out (x := x.2) ?_ ?_); (on_goal 1 => dsimp -zeta only [x]; clear x); (on_goal 2 => (intro _; clear_value x; rename' x => y)))
    | (intro; try beta_reduce)
    | refine out_next ?_
    | refine out_within ?_
    | exact out_fault
    | refine out_ite ?_ ?_
    | refine keeps_ite ?_ ?_
    | refine keeps_ite2 ?_ ?_
    | split
    | apply_assumption

theorem State.cmdTimeLatch_keeps {r : State} {a1} {a2} (h1 : Keeps r a1) : Keeps r (State.cmdTimeLatch a1 a2).2 := by
  delta State.cmdTimeLatch
  with_reducible repeat' first
    | assumption
    | apply State.put_keeps
    | apply State.cmdDone_keeps
    | (extract_lets +onlyGivenNames x; first | (refine keeps_have (x := x) ?_ ?_; (on_goal 1 => dsimp -zeta only [x]; clear x); (on_goal 2 => (intro _; clear_value x; rename' x => y))) | (clear_value x; rename' x => y))
    | (intro; try beta_reduce)
    | refine keeps_ite ?_ ?_
    | refine keeps_ite2 ?_ ?_
    | split
    | apply_assumption

theorem execTimeLatch_keeps {r : State} {a1} {a2} {a3} (h3 : Keeps r a3) : OutKeeps r (execTimeLatch a1 a2 a3) := by
  delta execTimeLatch
  with_reducible repeat' first
    | assumption
    | apply State.access_keeps
    | apply State.cmdTimeLatch_keeps
    | (intro; try beta_reduce)
    | refine out_next ?_
    | apply_assumption

theorem State.cmdTimeStep_keeps {r : State} {a1} {a2} (h1 : Keeps r a1) : Keeps r (State.cmdTimeStep a1 a2).2 := by
  delta State.cmdTimeStep
  with_reducible repeat' first
    | assumption
    | apply State.cmdDone_keeps
    | apply State.applyStep_keeps
    | (extract_lets +onlyGivenNames x; clear_value x; rename' x => y)
    | (intro; try beta_reduce)
    | refine keeps_ite ?_ ?_
    | refine keeps_ite2 ?_ ?_
    | split
    | apply_assumption

theorem execTimeStepPending_keeps {r : State} {a1} {a2} (h2 : Keeps r a2) : OutKeeps r (execTimeStepPending a1 a2) := by
  delta execTimeStepPending
  with_reducible repeat' first
    | assumption
    | apply State.access_keeps
    | apply State.cmdTimeStep_keeps
    | (intro; try beta_reduce)
    | refine out_next ?_
    | apply_assumption

theorem execTimeStepSet_keeps {r : State} {a1} {a2} (h2 : Keeps r a2) : OutKeeps r (execTimeStepSet a1 a2) := by
  delta execTimeStepSet
  with_reducible repeat' first
    | assumption
    | apply State.access_keeps
    | apply State.cmdTimeStep_keeps
    | (intro; try beta_reduce)
    | refine out_next ?_
    | apply_assumption

theorem execPtpSync_keeps {r : State} {a1} {a2} {a3} (h3 : Keeps r a3) : OutKeeps r (execPtpSync a1 a2 a3) := by
  delta execPtpSync
  with_reducible repeat' first
    | assumption
    | apply State.roundOpen_keeps
    | apply State.put_keeps
    | apply State.servo_keeps
    | (extract_lets +onlyGivenNames x; first | ((first | refine keeps_have (x := x) ?_ ?_ | refine keeps_have_out (x := x) ?_ ?_ | refine keeps_have (x := x.2) ?_ ?_ | refine keeps_have_out (x := x.2) ?_ ?_); (on_goal 1 => dsimp -zeta only [x]; clear x); (on_goal 2 => (intro _; clear_value x; rename' x => y))) | (clear_value x; rename' x => y))
    | (intro; try beta_reduce)
    | refine out_next ?_
    | exact Keeps.upd (by assumption)
    | refine out_ite ?_ ?_
    | refine keeps_ite ?_ ?_
    | refine keeps_ite2 ?_ ?_
    | split
    | apply_assumption

theorem State.delayIs_keeps {r : State} {a1} {a2} (h1 : Keeps r a1) : Keeps r (State.delayIs a1 a2) := by
  delta State.delayIs
  with_reducible repeat' first
    | assumption
    | apply State.roundOpen_keeps
    | apply State.put_keeps
    | (extract_lets +onlyGivenNames x; first | ((first | refine keeps_have (x := x) ?_ ?_ | refine keeps_have (x := x.2) ?_ ?_); (on_goal 1 => dsimp -zeta only [x]; clear x); (on_goal 2 => (intro _; clear_value x; rename' x => y))) | (clear_value x; rename' x => y))
    | (intro; try beta_reduce)
    | exact Keeps.upd (by assumption)
    | apply_assumption

theorem State.ptpTakes_keeps {r : State} {a1} {a2} (h1 : Keeps r a1) : Keeps r (State.ptpTakes a1 a2) := by
  delta State.ptpTakes
  with_reducible repeat' first
    | assumption
    | apply State.delayIs_keeps
    | (extract_lets +onlyGivenNames x; clear_value x; rename' x => y)
    | (intro; try beta_reduce)
    | exact Keeps.upd (by assumption)
    | split
    | apply_assumption

theorem execPtpMessage_keeps {r : State} {a1} {a2} {a3} (h3 : Keeps r a3) : OutKeeps r (execPtpMessage a1 a2 a3) := by
  delta execPtpMessage
  with_reducible repeat' first
    | assumption
    | apply State.ptpTakes_keeps
    | apply State.put_keeps
    | apply State.holdover_keeps
    | (extract_lets +onlyGivenNames x; first | ((first | refine keeps_have (x := x) ?_ ?_ | refine keeps_have_out (x := x) ?_ ?_); (on_goal 1 => dsimp -zeta only [x]; clear x); (on_goal 2 => (intro _; clear_value x; rename' x => y))) | (clear_value x; rename' x => y))
    | (intro; try beta_reduce)
    | refine out_next ?_
    | refine out_ite ?_ ?_
    | refine keeps_ite ?_ ?_
    | split
    | apply_assumption

theorem execHoldoverTimeout_keeps {r : State} {a1} (h1 : Keeps r a1) : OutKeeps r (execHoldoverTimeout a1) := by
  delta execHoldoverTimeout
  with_reducible repeat' first
    | assumption
    | apply State.holdover_keeps
    | (intro; try beta_reduce)
    | refine out_next ?_
    | refine out_ite ?_ ?_
    | refine keeps_ite ?_ ?_
    | split
    | apply_assumption

theorem execPtpEventFrameSend_keeps {r : State} {a1} {a2} {a3} {a4} (h4 : Keeps r a4) : OutKeeps r (execPtpEventFrameSend a1 a2 a3 a4) := by
  delta execPtpEventFrameSend
  with_reducible repeat' first
    | assumption
    | apply State.countSat_keeps
    | apply State.emit_keeps
    | (extract_lets +onlyGivenNames x; first | ((first | refine keeps_have (x := x) ?_ ?_ | refine keeps_have_out (x := x) ?_ ?_); (on_goal 1 => dsimp -zeta only [x]; clear x); (on_goal 2 => (intro _; clear_value x; rename' x => y))) | (clear_value x; rename' x => y))
    | (intro; try beta_reduce)
    | refine out_next ?_
    | exact Keeps.upd (by assumption)
    | refine out_ite ?_ ?_
    | refine keeps_ite ?_ ?_
    | split
    | apply_assumption

theorem State.ptmSend_keeps {r : State} {a1} (h1 : Keeps r a1) : Keeps r (State.ptmSend a1) := by
  delta State.ptmSend
  with_reducible repeat' first
    | assumption
    | apply State.emit_keeps
    | (intro; try beta_reduce)
    | refine keeps_ite ?_ ?_
    | split
    | apply_assumption

theorem State.cmdPtmCorr_keeps {r : State} {a1} {a2} {a3} (h1 : Keeps r a1) : Keeps r (State.cmdPtmCorr a1 a2 a3).2 := by
  delta State.cmdPtmCorr
  with_reducible repeat' first
    | assumption
    | apply State.ptmSend_keeps
    | apply State.cmdRun_keeps
    | (extract_lets +onlyGivenNames x; clear_value x; rename' x => y)
    | (intro; try beta_reduce)
    | refine keeps_ite ?_ ?_
    | refine keeps_ite2 ?_ ?_
    | split
    | apply_assumption

theorem execPtmCorr_keeps {r : State} {a1} {a2} {a3} {a4} (h4 : Keeps r a4) : OutKeeps r (execPtmCorr a1 a2 a3 a4) := by
  delta execPtmCorr
  with_reducible repeat' first
    | assumption
    | apply State.access_keeps
    | apply State.cmdPtmCorr_keeps
    | apply State.ptmSend_keeps
    | (extract_lets +onlyGivenNames x; (first | refine keeps_have (x := x) ?_ ?_ | refine keeps_have_out (x := x) ?_ ?_); (on_goal 1 => dsimp -zeta only [x]; clear x); (on_goal 2 => (intro _; clear_value x; rename' x => y)))
    | (intro; try beta_reduce)
    | refine out_next ?_
    | exact out_fault
    | exact Keeps.upd (by assumption)
    | refine out_ite ?_ ?_
    | refine keeps_ite ?_ ?_
    | split
    | apply_assumption

theorem State.correlate_keeps {r : State} {a1} {a2} {a3} {a4} {a5} (h1 : Keeps r a1) : Keeps r (State.correlate a1 a2 a3 a4 a5) := by
  delta State.correlate
  with_reducible repeat' first
    | assumption
    | apply State.roundOpen_keeps
    | apply State.put_keeps
    | apply State.cmdDone_keeps
    | apply State.servo_keeps
    | (extract_lets +onlyGivenNames x; first | ((first | refine keeps_have (x := x) ?_ ?_ | refine keeps_have (x := x.2) ?_ ?_); (on_goal 1 => dsimp -zeta only [x]; clear x); (on_goal 2 => (intro _; clear_value x; rename' x => y))) | (clear_value x; rename' x => y))
    | (intro; try beta_reduce)
    | exact Keeps.upd (by assumption)
    | refine keeps_ite ?_ ?_
    | refine keeps_ite2 ?_ ?_
    | split
    | apply_assumption

theorem execPtmResponse_keeps {r : State} {a1} {a2} {a3} {a4} {a5} (h5 : Keeps r a5) : OutKeeps r (execPtmResponse a1 a2 a3 a4 a5) := by
  delta execPtmResponse
  with_reducible repeat' first
    | assumption
    | apply State.correlate_keeps
    | (intro; try beta_reduce)
    | refine out_next ?_
    | refine out_ite ?_ ?_
    | refine keeps_ite ?_ ?_
    | split
    | apply_assumption

theorem execPtmTimeout_keeps {r : State} {a1} (h1 : Keeps r a1) : OutKeeps r (execPtmTimeout a1) := by
  delta execPtmTimeout
  with_reducible repeat' first
    | assumption
    | apply State.cmdFail_keeps
    | (extract_lets +onlyGivenNames x; (first | refine keeps_have (x := x) ?_ ?_ | refine keeps_have_out (x := x) ?_ ?_); (on_goal 1 => dsimp -zeta only [x]; clear x); (on_goal 2 => (intro _; clear_value x; rename' x => y)))
    | (intro; try beta_reduce)
    | refine out_next ?_
    | exact Keeps.upd (by assumption)
    | refine out_ite ?_ ?_
    | refine keeps_ite ?_ ?_
    | split
    | apply_assumption

theorem execEthFrame_keeps {r : State} {a1} {a2} {a3} {a4} {a5} (h5 : Keeps r a5) : OutKeeps r (execEthFrame a1 a2 a3 a4 a5) := by
  delta execEthFrame
  with_reducible repeat' first
    | assumption
    | apply State.emit_keeps
    | apply State.countSat_keeps
    | (intro; try beta_reduce)
    | refine out_next ?_
    | refine out_ite ?_ ?_
    | refine keeps_ite ?_ ?_
    | split
    | apply_assumption

theorem execEthLinkDown_keeps {r : State} {a1} (h1 : Keeps r a1) : OutKeeps r (execEthLinkDown a1) := by
  delta execEthLinkDown
  with_reducible repeat' first
    | assumption
    | apply State.fault_keeps
    | apply State.put_keeps
    | (intro; try beta_reduce)
    | refine out_next ?_
    | refine out_ite ?_ ?_
    | refine keeps_ite ?_ ?_
    | split
    | apply_assumption

theorem execEthLinkUp_keeps {r : State} {a1} {a2} (h2 : Keeps r a2) : OutKeeps r (execEthLinkUp a1 a2) := by
  delta execEthLinkUp
  with_reducible repeat' first
    | assumption
    | apply State.put_keeps
    | apply State.clearLive_keeps
    | (extract_lets +onlyGivenNames x; (first | refine keeps_have (x := x) ?_ ?_ | refine keeps_have_out (x := x) ?_ ?_); (on_goal 1 => dsimp -zeta only [x]; clear x); (on_goal 2 => (intro _; clear_value x; rename' x => y)))
    | (intro; try beta_reduce)
    | refine out_next ?_
    | refine out_ite ?_ ?_
    | refine keeps_ite ?_ ?_
    | split
    | apply_assumption

end Sys2Proof.Machine
end

