-- ==== Sys2Proof/Laws/KeepsFaults.lean ====
section
/-! SUPPORT. What the operations of Machine/Faults.lean keep. -/

set_option linter.all false

namespace Sys2Proof.Machine

theorem State.arriving_keeps {r : State} {a1} {a2} (h1 : Keeps r a1) : Keeps r (State.arriving a1 a2) := by
  delta State.arriving
  with_reducible repeat' first
    | assumption
    | apply State.noteFull_keeps
    | apply State.effects_keeps
    | apply State.settleCut_keeps
    | apply State.powerFalls_keeps
    | (extract_lets +onlyGivenNames x; first | (refine keeps_have (x := x) ?_ ?_; (on_goal 1 => dsimp -zeta only [x]; clear x); (on_goal 2 => (intro _; clear_value x; rename' x => y))) | (clear_value x; rename' x => y))
    | refine keeps_fold _ _ ?_ ?_
    | (intro; try beta_reduce)
    | refine keeps_ite ?_ ?_
    | split
    | apply_assumption

theorem execFaultRaise_keeps {r : State} {a1} {a2} (h2 : Keeps r a2) : OutKeeps r (execFaultRaise a1 a2) := by
  delta execFaultRaise
  with_reducible repeat' first
    | assumption
    | apply State.arriving_keeps
    | (intro; try beta_reduce)
    | refine out_next ?_
    | refine out_ite ?_ ?_
    | refine keeps_ite ?_ ?_
    | split
    | apply_assumption

theorem State.conditionEnds_keeps {r : State} {a1} {a2} (h1 : Keeps r a1) : Keeps r (State.conditionEnds a1 a2) := by
  delta State.conditionEnds
  with_reducible repeat' first
    | assumption
    | apply State.putF_keeps
    | refine keeps_fold _ _ ?_ ?_
    | refine keeps_fold1 _ _ ?_ ?_
    | refine keeps_fold2 _ _ ?_ ?_
    | (intro; try beta_reduce)
    | exact Keeps.upd (by assumption)
    | split
    | apply_assumption

theorem execLiveBitClear_keeps {r : State} {a1} {a2} (h2 : Keeps r a2) : OutKeeps r (execLiveBitClear a1 a2) := by
  delta execLiveBitClear
  with_reducible repeat' first
    | assumption
    | apply within_keeps
    | apply State.conditionEnds_keeps
    | apply State.clearLive_keeps
    | (extract_lets +onlyGivenNames x; (first | refine keeps_have (x := x) ?_ ?_ | refine keeps_have_out (x := x) ?_ ?_); (on_goal 1 => dsimp -zeta only [x]; clear x); (on_goal 2 => (intro _; clear_value x; rename' x => y)))
    | (intro; try beta_reduce)
    | refine out_next ?_
    | refine out_within ?_
    | refine out_ite ?_ ?_
    | refine keeps_ite ?_ ?_
    | split
    | apply_assumption

theorem execFaultCauseClear_keeps {r : State} {a1} {a2} {a3} {a4} (h4 : Keeps r a4) : OutKeeps r (execFaultCauseClear a1 a2 a3 a4) := by
  delta execFaultCauseClear
  with_reducible repeat' first
    | assumption
    | apply State.accessPlain_keeps
    | (intro; try beta_reduce)
    | refine out_next ?_
    | refine out_ite ?_ ?_
    | refine keeps_ite ?_ ?_
    | split
    | apply_assumption

theorem execFaultCauseRead_keeps {r : State} {a1} {a2} {a3} (h3 : Keeps r a3) : OutKeeps r (execFaultCauseRead a1 a2 a3) := by
  delta execFaultCauseRead
  with_reducible repeat' first
    | assumption
    | apply State.readAt_keeps
    | (intro; try beta_reduce)
    | refine out_next ?_
    | refine out_ite ?_ ?_
    | refine keeps_ite ?_ ?_
    | split
    | apply_assumption

theorem execFirstFaultRead_keeps {r : State} {a1} {a2} {a3} {a4} (h4 : Keeps r a4) : OutKeeps r (execFirstFaultRead a1 a2 a3 a4) := by
  delta execFirstFaultRead
  with_reducible repeat' first
    | assumption
    | apply State.readAt_keeps
    | (intro; try beta_reduce)
    | refine out_next ?_
    | exact out_fault
    | refine out_ite ?_ ?_
    | refine keeps_ite ?_ ?_
    | split
    | apply_assumption

theorem State.cmdFfClear_keeps {r : State} {a1} {a2} (h1 : Keeps r a1) : Keeps r (State.cmdFfClear a1 a2).2 := by
  delta State.cmdFfClear
  with_reducible repeat' first
    | assumption
    | apply State.cmdDone_keeps
    | apply State.put_keeps
    | (extract_lets +onlyGivenNames x; first | (refine keeps_have (x := x) ?_ ?_; (on_goal 1 => dsimp -zeta only [x]; clear x); (on_goal 2 => (intro _; clear_value x; rename' x => y))) | (clear_value x; rename' x => y))
    | (intro; try beta_reduce)
    | exact Keeps.upd (by assumption)
    | refine keeps_ite ?_ ?_
    | refine keeps_ite2 ?_ ?_
    | split
    | apply_assumption

theorem execFfClear_keeps {r : State} {a1} {a2} {a3} (h3 : Keeps r a3) : OutKeeps r (execFfClear a1 a2 a3) := by
  delta execFfClear
  with_reducible repeat' first
    | assumption
    | apply State.access_keeps
    | apply State.cmdFfClear_keeps
    | (intro; try beta_reduce)
    | refine out_next ?_
    | apply_assumption

theorem State.cmdFaultInject_keeps {r : State} {a1} {a2} (h1 : Keeps r a1) : Keeps r (State.cmdFaultInject a1 a2).2 := by
  delta State.cmdFaultInject
  with_reducible repeat' first
    | assumption
    | apply State.cmdRun_keeps
    | apply State.examine_keeps
    | (extract_lets +onlyGivenNames x; first | (refine keeps_have (x := x) ?_ ?_; (on_goal 1 => dsimp -zeta only [x]; clear x); (on_goal 2 => (intro _; clear_value x; rename' x => y))) | (clear_value x; rename' x => y))
    | (intro; try beta_reduce)
    | exact Keeps.upd (by assumption)
    | refine keeps_ite ?_ ?_
    | refine keeps_ite2 ?_ ?_
    | split
    | apply_assumption

theorem execFaultInject_keeps {r : State} {a1} {a2} {a3} (h3 : Keeps r a3) : OutKeeps r (execFaultInject a1 a2 a3) := by
  delta execFaultInject
  with_reducible repeat' first
    | assumption
    | apply State.access_keeps
    | apply State.cmdFaultInject_keeps
    | (intro; try beta_reduce)
    | refine out_next ?_
    | apply_assumption

theorem execFaultInjectTimeout_keeps {r : State} {a1} (h1 : Keeps r a1) : OutKeeps r (execFaultInjectTimeout a1) := by
  delta execFaultInjectTimeout
  with_reducible repeat' first
    | assumption
    | apply State.cmdFail_keeps
    | (intro; try beta_reduce)
    | refine out_next ?_
    | exact Keeps.upd (by assumption)
    | refine out_ite ?_ ?_
    | refine keeps_ite ?_ ?_
    | split
    | apply_assumption

theorem State.quietEnds_keeps {r : State} {a1} (h1 : Keeps r a1) : Keeps r (State.quietEnds a1) := by
  delta State.quietEnds
  with_reducible repeat' first
    | assumption
    | apply State.enterMode_keeps
    | apply State.count_keeps
    | apply State.fault_keeps
    | apply State.latch_keeps
    | (intro; try beta_reduce)
    | exact Keeps.upd (by assumption)
    | refine keeps_ite ?_ ?_
    | split
    | apply_assumption

theorem execQuietPeriod_keeps {r : State} {a1} (h1 : Keeps r a1) : OutKeeps r (execQuietPeriod a1) := by
  delta execQuietPeriod
  with_reducible repeat' first
    | assumption
    | apply State.quietEnds_keeps
    | (intro; try beta_reduce)
    | refine out_next ?_
    | refine out_ite ?_ ?_
    | refine keeps_ite ?_ ?_
    | split
    | apply_assumption

theorem State.cmdSafeUnlatch_keeps {r : State} {a1} {a2} (h1 : Keeps r a1) : Keeps r (State.cmdSafeUnlatch a1 a2).2 := by
  delta State.cmdSafeUnlatch
  with_reducible repeat' first
    | assumption
    | apply State.cmdDone_keeps
    | apply State.putF_keeps
    | (extract_lets +onlyGivenNames x; clear_value x; rename' x => y)
    | (intro; try beta_reduce)
    | exact Keeps.upd (by assumption)
    | refine keeps_ite ?_ ?_
    | refine keeps_ite2 ?_ ?_
    | split
    | apply_assumption

theorem execSafeUnlatch_keeps {r : State} {a1} {a2} {a3} (h3 : Keeps r a3) : OutKeeps r (execSafeUnlatch a1 a2 a3) := by
  delta execSafeUnlatch
  with_reducible repeat' first
    | assumption
    | apply State.access_keeps
    | apply State.cmdSafeUnlatch_keeps
    | (intro; try beta_reduce)
    | refine out_next ?_
    | apply_assumption

theorem State.beginGuard_keeps {r : State} {a1} (h1 : Keeps r a1) : Keeps r (State.beginGuard a1) := by
  delta State.beginGuard
  with_reducible repeat' first
    | assumption
    | apply State.putNvm_keeps
    | (extract_lets +onlyGivenNames x; clear_value x; rename' x => y)
    | refine keeps_fold _ _ ?_ ?_
    | (intro; try beta_reduce)
    | apply_assumption

theorem State.cmdGuardCommit_keeps {r : State} {a1} {a2} (h1 : Keeps r a1) : Keeps r (State.cmdGuardCommit a1 a2).2 := by
  delta State.cmdGuardCommit
  extract_lets c b1 s1
  have e1 : Keeps r s1 := Keeps.upd h1
  clear_value s1
  split
  · exact h1
  · split
    · exact State.cmdFail_keeps e1
    · split
      · exact State.noToken_keeps e1
      · exact State.cmdRun_keeps (State.beginGuard_keeps (State.drawToken_some e1 ‹_›))

theorem execGuardCommit_keeps {r : State} {a1} {a2} {a3} (h3 : Keeps r a3) : OutKeeps r (execGuardCommit a1 a2 a3) := by
  delta execGuardCommit
  with_reducible repeat' first
    | assumption
    | apply State.access_keeps
    | apply State.cmdGuardCommit_keeps
    | (intro; try beta_reduce)
    | refine out_next ?_
    | apply_assumption

theorem State.envelopeIn_keeps {r : State} {a1} {a2} (h1 : Keeps r a1) : Keeps r (State.envelopeIn a1 a2) := by
  delta State.envelopeIn
  with_reducible repeat' first
    | assumption
    | apply State.putNvm_keeps
    | apply State.putF_keeps
    | apply State.put_keeps
    | (extract_lets +onlyGivenNames x; first | (refine keeps_have (x := x) ?_ ?_; (on_goal 1 => dsimp -zeta only [x]; clear x); (on_goal 2 => (intro _; clear_value x; rename' x => y))) | (clear_value x; rename' x => y))
    | refine keeps_fold _ _ ?_ ?_
    | (intro; try beta_reduce)
    | apply_assumption

theorem execGuardCommitDone_keeps {r : State} {a1} {a2} (h2 : Keeps r a2) : OutKeeps r (execGuardCommitDone a1 a2) := by
  delta execGuardCommitDone
  with_reducible repeat' first
    | assumption
    | apply State.lichenEnds_keeps
    | apply State.cmdDone_keeps
    | apply State.fault_keeps
    | apply State.envelopeIn_keeps
    | apply State.nvmFailed_keeps
    | apply State.cmdFail_keeps
    | apply State.putNvm_keeps
    | (extract_lets +onlyGivenNames x; clear_value x; rename' x => y)
    | (intro; try beta_reduce)
    | refine out_next ?_
    | exact out_fault
    | refine out_ite ?_ ?_
    | refine keeps_ite ?_ ?_
    | split
    | apply_assumption

theorem execGuardUnlocked_keeps {r : State} {a1} (h1 : Keeps r a1) : OutKeeps r (execGuardUnlocked a1) := by
  delta execGuardUnlocked
  with_reducible repeat' first
    | assumption
    | apply State.putF_keeps
    | apply State.fault_keeps
    | (extract_lets +onlyGivenNames x; (first | refine keeps_have (x := x) ?_ ?_ | refine keeps_have_out (x := x) ?_ ?_); (on_goal 1 => dsimp -zeta only [x]; clear x); (on_goal 2 => (intro _; clear_value x; rename' x => y)))
    | (intro; try beta_reduce)
    | refine out_next ?_
    | refine out_ite ?_ ?_
    | refine keeps_ite ?_ ?_
    | split
    | apply_assumption

theorem execWatchdogKick_keeps {r : State} {a1} (h1 : Keeps r a1) : OutKeeps r (execWatchdogKick a1) := by
  delta execWatchdogKick
  with_reducible repeat' first
    | assumption
    | apply State.putF_keeps
    | apply State.clearLive_keeps
    | (extract_lets +onlyGivenNames x; (first | refine keeps_have (x := x) ?_ ?_ | refine keeps_have_out (x := x) ?_ ?_); (on_goal 1 => dsimp -zeta only [x]; clear x); (on_goal 2 => (intro _; clear_value x; rename' x => y)))
    | (intro; try beta_reduce)
    | refine out_next ?_
    | exact Keeps.upd (by assumption)
    | refine out_ite ?_ ?_
    | refine keeps_ite ?_ ?_
    | split
    | apply_assumption

theorem execWatchdogExpiry_keeps {r : State} {a1} (h1 : Keeps r a1) : OutKeeps r (execWatchdogExpiry a1) := by
  delta execWatchdogExpiry
  with_reducible repeat' first
    | assumption
    | apply State.faultDacs_keeps
    | apply State.allLanes_keeps
    | apply State.putF_keeps
    | apply State.fault_keeps
    | (extract_lets +onlyGivenNames x; (first | refine keeps_have (x := x) ?_ ?_ | refine keeps_have_out (x := x) ?_ ?_); (on_goal 1 => dsimp -zeta only [x]; clear x); (on_goal 2 => (intro _; clear_value x; rename' x => y)))
    | (intro; try beta_reduce)
    | refine out_next ?_
    | refine out_ite ?_ ?_
    | refine keeps_ite ?_ ?_
    | split
    | apply_assumption

theorem State.tempEnds_keeps {r : State} {a1} {a2} (h1 : Keeps r a1) : Keeps r (State.tempEnds a1 a2) := by
  delta State.tempEnds
  with_reducible repeat' first
    | assumption
    | apply State.clearLive_keeps
    | refine keeps_fold _ _ ?_ ?_
    | (intro; try beta_reduce)
    | refine keeps_ite ?_ ?_
    | split
    | apply_assumption

theorem execDieTempSample_keeps {r : State} {a1} {a2} (h2 : Keeps r a2) : OutKeeps r (execDieTempSample a1 a2) := by
  delta execDieTempSample
  with_reducible repeat' first
    | assumption
    | apply State.offer_keeps
    | apply State.collect_keeps
    | apply State.tempEnds_keeps
    | (extract_lets +onlyGivenNames x; (first | refine keeps_have (x := x) ?_ ?_ | refine keeps_have_out (x := x) ?_ ?_); (on_goal 1 => dsimp -zeta only [x]; clear x); (on_goal 2 => (intro _; clear_value x; rename' x => y)))
    | (intro; try beta_reduce)
    | refine out_next ?_
    | exact Keeps.upd (by assumption)
    | refine out_ite ?_ ?_
    | refine keeps_ite ?_ ?_
    | split
    | apply_assumption

end Sys2Proof.Machine
end

