-- ==== Sys2Proof/Laws/KeepsLichen.lean ====
section
/-! SUPPORT. What the operations of Machine/Lichen.lean keep. -/

set_option linter.all false

namespace Sys2Proof.Machine

theorem State.loadView_keeps {r : State} {a1} {a2} (h1 : Keeps r a1) : Keeps r (State.loadView a1 a2) := by
  delta State.loadView
  have e : (0 : Word) = shipped Key.dramCapacity := by decide +kernel
  refine keeps_fold _ _ ?_ (fun u x hu => Keeps.updObjs hu)
  rw [e]
  exact Keeps.updObjs h1

theorem State.beginPersist_keeps {r : State} {a1} (h1 : Keeps r a1) : Keeps r (State.beginPersist a1) := by
  delta State.beginPersist
  with_reducible repeat' first
    | assumption
    | apply State.cmdRun_keeps
    | apply State.putNvm_keeps
    | (extract_lets +onlyGivenNames x; clear_value x; rename' x => y)
    | (intro; try beta_reduce)
    | apply_assumption

theorem State.cmdDictPersist_keeps {r : State} {a1} {a2} (h1 : Keeps r a1) : Keeps r (State.cmdDictPersist a1 a2).2 := by
  delta State.cmdDictPersist
  extract_lets c n
  split
  · exact h1
  · split
    · exact State.cmdFail_keeps h1
    · split
      · exact State.noToken_keeps h1
      · exact State.beginPersist_keeps (State.drawToken_some h1 ‹_›)

theorem execDictPersist_keeps {r : State} {a1} {a2} {a3} (h3 : Keeps r a3) : OutKeeps r (execDictPersist a1 a2 a3) := by
  delta execDictPersist
  with_reducible repeat' first
    | assumption
    | apply State.access_keeps
    | apply State.cmdDictPersist_keeps
    | (intro; try beta_reduce)
    | refine out_next ?_
    | apply_assumption

theorem State.bankValid_keeps {r : State} {a1} {a2} (h1 : Keeps r a1) : Keeps r (State.bankValid a1 a2) := by
  delta State.bankValid
  exact State.cmdDone_keeps (State.put_keeps (State.put_keeps (Keeps.upd (State.putNvm_keeps h1))))

theorem execDictPersistDone_keeps {r : State} {a1} {a2} (h2 : Keeps r a2) : OutKeeps r (execDictPersistDone a1 a2) := by
  delta execDictPersistDone
  with_reducible repeat' first
    | assumption
    | apply State.lichenEnds_keeps
    | apply State.bankValid_keeps
    | apply State.nvmFailed_keeps
    | apply State.cmdFail_keeps
    | apply State.putNvm_keeps
    | (extract_lets +onlyGivenNames x; clear_value x; rename' x => y)
    | (intro; try beta_reduce)
    | refine out_next ?_
    | exact out_fault
    | refine out_ite ?_ ?_
    | refine keeps_ite ?_ ?_
    | split
    | apply_assumption

theorem State.revert_keeps {r : State} {a1} (h1 : Keeps r a1) : Keeps r (State.revert a1) := by
  delta State.revert
  with_reducible repeat' first
    | assumption
    | apply State.applyWrite_keeps
    | (extract_lets +onlyGivenNames x; clear_value x; rename' x => y)
    | refine keeps_fold _ _ ?_ ?_
    | (intro; try beta_reduce)
    | refine keeps_ite ?_ ?_
    | split
    | apply_assumption

theorem State.cmdDictRevert_keeps {r : State} {a1} {a2} (h1 : Keeps r a1) : Keeps r (State.cmdDictRevert a1 a2).2 := by
  delta State.cmdDictRevert
  with_reducible repeat' first
    | assumption
    | apply State.cmdDone_keeps
    | apply State.revert_keeps
    | (extract_lets +onlyGivenNames x; clear_value x; rename' x => y)
    | (intro; try beta_reduce)
    | refine keeps_ite ?_ ?_
    | refine keeps_ite2 ?_ ?_
    | split
    | apply_assumption

theorem execDictRevert_keeps {r : State} {a1} {a2} {a3} (h3 : Keeps r a3) : OutKeeps r (execDictRevert a1 a2 a3) := by
  delta execDictRevert
  with_reducible repeat' first
    | assumption
    | apply State.access_keeps
    | apply State.cmdDictRevert_keeps
    | (intro; try beta_reduce)
    | refine out_next ?_
    | apply_assumption

theorem State.cmdBbNote_keeps {r : State} {a1} {a2} (h1 : Keeps r a1) : Keeps r (State.cmdBbNote a1 a2).2 := by
  delta State.cmdBbNote
  extract_lets c
  split
  · exact h1
  · split
    · exact State.noToken_keeps h1
    · exact State.cmdDone_keeps (State.bbWrite_keeps (State.drawToken_some h1 ‹_›))

theorem execBbNote_keeps {r : State} {a1} {a2} {a3} (h3 : Keeps r a3) : OutKeeps r (execBbNote a1 a2 a3) := by
  delta execBbNote
  with_reducible repeat' first
    | assumption
    | apply State.access_keeps
    | apply State.cmdBbNote_keeps
    | (intro; try beta_reduce)
    | refine out_next ?_
    | apply_assumption

theorem State.ledgerTick_keeps {r : State} {a1} {a2} (h1 : Keeps r a1) : Keeps r (State.ledgerTick a1 a2) := by
  delta State.ledgerTick
  with_reducible repeat' first
    | assumption
    | apply State.countBy_keeps
    | apply State.refillBuckets_keeps
    | (extract_lets +onlyGivenNames x; first | (refine keeps_have (x := x) ?_ ?_; (on_goal 1 => dsimp -zeta only [x]; clear x); (on_goal 2 => (intro _; clear_value x; rename' x => y))) | (clear_value x; rename' x => y))
    | (intro; try beta_reduce)
    | exact Keeps.upd (by assumption)
    | apply_assumption

theorem State.sensorsChecked_keeps {r : State} {a1} {a2} (h1 : Keeps r a1) : Keeps r (State.sensorsChecked a1 a2) := by
  delta State.sensorsChecked
  with_reducible repeat' first
    | assumption
    | apply State.fault_keeps
    | apply State.clearLive_keeps
    | (extract_lets +onlyGivenNames x; clear_value x; rename' x => y)
    | (intro; try beta_reduce)
    | refine keeps_ite ?_ ?_
    | split
    | apply_assumption

theorem execLedgerSecond_keeps {r : State} {a1} {a2} (h2 : Keeps r a2) : OutKeeps r (execLedgerSecond a1 a2) := by
  delta execLedgerSecond
  with_reducible repeat' first
    | assumption
    | apply State.sensorsChecked_keeps
    | apply State.ledgerTick_keeps
    | (intro; try beta_reduce)
    | refine out_next ?_
    | refine out_ite ?_ ?_
    | refine keeps_ite ?_ ?_
    | split
    | apply_assumption

theorem execLedgerSnapshot_keeps {r : State} {a1} (h1 : Keeps r a1) : OutKeeps r (execLedgerSnapshot a1) := by
  delta execLedgerSnapshot
  with_reducible repeat' first
    | assumption
    | apply State.putNvm_keeps
    | apply State.snapshot_keeps
    | (extract_lets +onlyGivenNames x; clear_value x; rename' x => y)
    | (intro; try beta_reduce)
    | refine out_next ?_
    | refine out_ite ?_ ?_
    | refine keeps_ite ?_ ?_
    | split
    | apply_assumption

theorem State.cmdFwActivate_keeps {r : State} {a1} {a2} (h1 : Keeps r a1) : Keeps r (State.cmdFwActivate a1 a2).2 := by
  delta State.cmdFwActivate
  with_reducible repeat' first
    | assumption
    | apply State.cmdRun_keeps
    | (extract_lets +onlyGivenNames x; clear_value x; rename' x => y)
    | (intro; try beta_reduce)
    | refine keeps_ite ?_ ?_
    | refine keeps_ite2 ?_ ?_
    | split
    | apply_assumption

theorem execFwActivate_keeps {r : State} {a1} {a2} {a3} (h3 : Keeps r a3) : OutKeeps r (execFwActivate a1 a2 a3) := by
  delta execFwActivate
  with_reducible repeat' first
    | assumption
    | apply State.access_keeps
    | apply State.cmdFwActivate_keeps
    | (intro; try beta_reduce)
    | refine out_next ?_
    | apply_assumption

theorem State.writeSelector_keeps {r : State} {a1} {a2} (h1 : Keeps r a1) : Keeps r (State.writeSelector a1 a2) := by
  delta State.writeSelector
  with_reducible repeat' first
    | assumption
    | apply State.cmdDone_keeps
    | apply State.putNvm_keeps
    | apply State.nvmFailed_keeps
    | apply State.cmdFail_keeps
    | (extract_lets +onlyGivenNames x; first | (refine keeps_have (x := x) ?_ ?_; (on_goal 1 => dsimp -zeta only [x]; clear x); (on_goal 2 => (intro _; clear_value x; rename' x => y))) | (clear_value x; rename' x => y))
    | (intro; try beta_reduce)
    | exact Keeps.upd (by assumption)
    | refine keeps_ite ?_ ?_
    | split
    | apply_assumption

theorem State.activateEnds_keeps {r : State} {a1} {a2} (h1 : Keeps r a1) : Keeps r (State.activateEnds a1 a2) := by
  delta State.activateEnds
  split
  · exact State.cmdFail_keeps h1
  · split
    · exact State.noToken_keeps h1
    · exact State.writeSelector_keeps (State.drawToken_some h1 ‹_›)

theorem execFwActivateDone_keeps {r : State} {a1} {a2} (h2 : Keeps r a2) : OutKeeps r (execFwActivateDone a1 a2) := by
  delta execFwActivateDone
  with_reducible repeat' first
    | assumption
    | apply State.lichenEnds_keeps
    | apply State.activateEnds_keeps
    | (intro; try beta_reduce)
    | refine out_next ?_
    | refine out_ite ?_ ?_
    | refine keeps_ite ?_ ?_
    | split
    | apply_assumption

end Sys2Proof.Machine
end

