-- ==== Sys2Proof/Laws/KeepsPinOps.lean ====
section
/-! SUPPORT. What the operations of Machine/PinOps.lean keep. -/

set_option linter.all false

namespace Sys2Proof.Machine

theorem State.tapReset_keeps {r : State} {a1} (h1 : Keeps r a1) : Keeps r (State.tapReset a1) := by
  delta State.tapReset
  with_reducible repeat' first
    | assumption
    | (intro; try beta_reduce)
    | exact Keeps.upd (by assumption)
    | apply_assumption

end Sys2Proof.Machine
end

