-- ==== Sys2Proof/Laws/KeepsBoot.lean ====
section
/-! SUPPORT. What the operations of Machine/Boot.lean keep. -/

set_option linter.all false

namespace Sys2Proof.Machine

theorem State.enterReset_keeps {r : State} {a1} (h1 : Keeps r a1) : Keeps r (State.enterReset a1) := by
  delta State.enterReset
  extract_lets s1
  have e1 : Keeps r s1 := State.cutWrites_keeps h1
  have hc := (canonical_iff State.reset).1 (by decide +kernel)
  exact State.putF_keeps (State.floatTrigouts_keeps ⟨⟨e1.ext.1, e1.ext.2.1, e1.ext.2.2⟩, fun _ => (canonical_iff _).2 hc⟩)

theorem State.resetBy_keeps {r : State} {a1} {a2} (h1 : Keeps r a1) : Keeps r (State.resetBy a1 a2) := by
  delta State.resetBy
  with_reducible repeat' first
    | assumption
    | apply State.enterReset_keeps
    | (extract_lets +onlyGivenNames x; refine keeps_have (x := x) ?_ ?_; (on_goal 1 => dsimp -zeta only [x]; clear x); (on_goal 2 => (intro _; clear_value x; rename' x => y)))
    | (intro; try beta_reduce)
    | exact Keeps.upd (by assumption)
    | refine keeps_ite ?_ ?_
    | split
    | apply_assumption

theorem State.tearRecord_keeps {r : State} {a1} (h1 : Keeps r a1) : Keeps r (State.tearRecord a1) := by
  delta State.tearRecord
  with_reducible repeat' first
    | assumption
    | apply State.freeChoice_keeps
    | apply State.putNvm_keeps
    | (extract_lets +onlyGivenNames x; first | (refine keeps_have (x := x.2) ?_ ?_; (on_goal 1 => dsimp -zeta only [x]; clear x); (on_goal 2 => (intro _; clear_value x; rename' x => y))) | (clear_value x; rename' x => y))
    | (intro; try beta_reduce)
    | refine keeps_ite ?_ ?_
    | refine keeps_ite2 ?_ ?_
    | split
    | apply_assumption

theorem execPowerOnReset_keeps {r : State} {a1} {a2} (h2 : Keeps r a2) : OutKeeps r (execPowerOnReset a1 a2) := by
  delta execPowerOnReset
  with_reducible repeat' first
    | assumption
    | apply State.resetBy_keeps
    | apply State.tearRecord_keeps
    | (extract_lets +onlyGivenNames x; (first | refine keeps_have (x := x) ?_ ?_ | refine keeps_have_out (x := x) ?_ ?_); (on_goal 1 => dsimp -zeta only [x]; clear x); (on_goal 2 => (intro _; clear_value x; rename' x => y)))
    | (intro; try beta_reduce)
    | refine out_next ?_
    | exact Keeps.upd (by assumption)
    | refine out_ite ?_ ?_
    | refine keeps_ite ?_ ?_
    | split
    | apply_assumption

theorem execResetNLow_keeps {r : State} {a1} (h1 : Keeps r a1) : OutKeeps r (execResetNLow a1) := by
  delta execResetNLow
  with_reducible repeat' first
    | assumption
    | apply State.resetBy_keeps
    | (intro; try beta_reduce)
    | refine out_next ?_
    | apply_assumption

theorem State.cmdDeviceReset_keeps {r : State} {a1} {a2} (h1 : Keeps r a1) : Keeps r (State.cmdDeviceReset a1 a2).2 := by
  delta State.cmdDeviceReset
  with_reducible repeat' first
    | assumption
    | apply State.cmdRun_keeps
    | (extract_lets +onlyGivenNames x; clear_value x; rename' x => y)
    | (intro; try beta_reduce)
    | exact Keeps.upd (by assumption)
    | refine keeps_ite ?_ ?_
    | refine keeps_ite2 ?_ ?_
    | split
    | apply_assumption

theorem execDeviceReset_keeps {r : State} {a1} {a2} {a3} (h3 : Keeps r a3) : OutKeeps r (execDeviceReset a1 a2 a3) := by
  delta execDeviceReset
  with_reducible repeat' first
    | assumption
    | apply State.access_keeps
    | apply State.cmdDeviceReset_keeps
    | (intro; try beta_reduce)
    | refine out_next ?_
    | apply_assumption

theorem execDeviceResetTaken_keeps {r : State} {a1} (h1 : Keeps r a1) : OutKeeps r (execDeviceResetTaken a1) := by
  delta execDeviceResetTaken
  with_reducible repeat' first
    | assumption
    | apply State.resetBy_keeps
    | (intro; try beta_reduce)
    | refine out_next ?_
    | refine out_ite ?_ ?_
    | refine keeps_ite ?_ ?_
    | split
    | apply_assumption

theorem execTapReset_keeps {r : State} {a1} (h1 : Keeps r a1) : OutKeeps r (execTapReset a1) := by
  delta execTapReset
  with_reducible repeat' first
    | assumption
    | apply State.tapReset_keeps
    | (intro; try beta_reduce)
    | refine out_next ?_
    | apply_assumption

theorem State.readGuard_keeps {r : State} {a1} (h1 : Keeps r a1) : Keeps r (State.readGuard a1) := by
  delta State.readGuard
  with_reducible repeat' first
    | assumption
    | apply State.put_keeps
    | apply State.putF_keeps
    | (extract_lets +onlyGivenNames x; refine keeps_have (x := x) ?_ ?_; (on_goal 1 => dsimp -zeta only [x]; clear x); (on_goal 2 => (intro _; clear_value x; rename' x => y)))
    | refine keeps_fold _ _ ?_ ?_
    | refine keeps_fold1 _ _ ?_ ?_
    | refine keeps_fold2 _ _ ?_ ?_
    | (intro; try beta_reduce)
    | split
    | apply_assumption

theorem State.readLedger_keeps {r : State} {a1} (h1 : Keeps r a1) : Keeps r (State.readLedger a1) := by
  delta State.readLedger
  with_reducible repeat' first
    | assumption
    | apply State.put_keeps
    | (extract_lets +onlyGivenNames x; refine keeps_have (x := x) ?_ ?_; (on_goal 1 => dsimp -zeta only [x]; clear x); (on_goal 2 => (intro _; clear_value x; rename' x => y)))
    | refine keeps_fold _ _ ?_ ?_
    | refine keeps_fold1 _ _ ?_ ?_
    | refine keeps_fold2 _ _ ?_ ?_
    | (intro; try beta_reduce)
    | exact Keeps.upd (by assumption)
    | split
    | apply_assumption

theorem State.readArray_keeps {r : State} {a1} (h1 : Keeps r a1) : Keeps r (State.readArray a1) := by
  delta State.readArray
  with_reducible repeat' first
    | assumption
    | apply State.putF_keeps
    | apply State.put_keeps
    | (extract_lets +onlyGivenNames x; first | (refine keeps_have (x := x) ?_ ?_; (on_goal 1 => dsimp -zeta only [x]; clear x); (on_goal 2 => (intro _; clear_value x; rename' x => y))) | (clear_value x; rename' x => y))
    | refine keeps_fold _ _ ?_ ?_
    | refine keeps_fold1 _ _ ?_ ?_
    | refine keeps_fold2 _ _ ?_ ?_
    | (intro; try beta_reduce)
    | refine keeps_ite ?_ ?_
    | split
    | apply_assumption

theorem State.readFactory_keeps {r : State} {a1} (h1 : Keeps r a1) : Keeps r (State.readFactory a1) := by
  delta State.readFactory
  with_reducible repeat' first
    | assumption
    | apply State.fault_keeps
    | apply State.putF_keeps
    | (intro; try beta_reduce)
    | refine keeps_ite ?_ ?_
    | split
    | apply_assumption

theorem State.tryImages_keeps {r : State} {a1} {a2} {a3} {a4} (h1 : Keeps r a1) : Keeps r (State.tryImages a1 a2 a3 a4) := by
  delta State.tryImages
  with_reducible repeat' first
    | assumption
    | apply State.put_keeps
    | apply State.fault_keeps
    | (extract_lets +onlyGivenNames x; first | ((first | refine keeps_have (x := x) ?_ ?_ | refine keeps_have_fun (x := x) ?_ ?_); (on_goal 1 => dsimp -zeta only [x]; clear x); (on_goal 2 => (intro _; clear_value x; rename' x => y))) | (clear_value x; rename' x => y))
    | (intro; try beta_reduce)
    | exact Keeps.upd (by assumption)
    | refine keeps_ite ?_ ?_
    | split
    | apply_assumption

theorem State.startBoot_keeps {r : State} {a1} {a2} {a3} {a4} (h1 : Keeps r a1) : Keeps r (State.startBoot a1 a2 a3 a4) := by
  delta State.startBoot
  with_reducible repeat' first
    | assumption
    | apply State.free_keeps
    | apply State.put_keeps
    | apply State.tryImages_keeps
    | apply State.bbPass_keeps
    | apply State.readFactory_keeps
    | apply State.readArray_keeps
    | apply State.readLedger_keeps
    | apply State.readGuard_keeps
    | (extract_lets +onlyGivenNames x; first | ((first | refine keeps_have (x := x) ?_ ?_ | refine keeps_have (x := x.2) ?_ ?_); (on_goal 1 => dsimp -zeta only [x]; clear x); (on_goal 2 => (intro _; clear_value x; rename' x => y))) | (clear_value x; rename' x => y))
    | (intro; try beta_reduce)
    | exact Keeps.upd (by assumption)
    | apply_assumption

theorem execResetRelease_keeps {r : State} {a1} {a2} {a3} {a4} {a5} {a6} (h6 : Keeps r a6) : OutKeeps r (execResetRelease a1 a2 a3 a4 a5 a6) := by
  delta execResetRelease
  with_reducible repeat' first
    | assumption
    | apply State.startBoot_keeps
    | (intro; try beta_reduce)
    | refine out_next ?_
    | refine out_ite ?_ ?_
    | refine keeps_ite ?_ ?_
    | split
    | apply_assumption

theorem State.recoverBank_keeps {r : State} {a1} (h1 : Keeps r a1) : Keeps r (State.recoverBank a1) := by
  delta State.recoverBank
  with_reducible repeat' first
    | assumption
    | apply State.fault_keeps
    | apply State.count_keeps
    | apply State.bbWrite_keeps
    | (extract_lets +onlyGivenNames x; clear_value x; rename' x => y)
    | (intro; try beta_reduce)
    | refine keeps_ite ?_ ?_
    | split
    | apply_assumption

theorem State.loadBank_keeps {r : State} {a1} (h1 : Keeps r a1) : Keeps r (State.loadBank a1) := by
  delta State.loadBank
  with_reducible repeat' first
    | assumption
    | apply State.put_keeps
    | apply State.recoverBank_keeps
    | (extract_lets +onlyGivenNames x; first | (refine keeps_have (x := x) ?_ ?_; (on_goal 1 => dsimp -zeta only [x]; clear x); (on_goal 2 => (intro _; clear_value x; rename' x => y))) | (clear_value x; rename' x => y))
    | refine keeps_fold _ _ ?_ ?_
    | refine keeps_fold1 _ _ ?_ ?_
    | refine keeps_fold2 _ _ ?_ ?_
    | (intro; try beta_reduce)
    | split
    | apply_assumption

theorem State.refreshLoaded_keeps {r : State} {a1} (h1 : Keeps r a1) : Keeps r (State.refreshLoaded a1) := by
  delta State.refreshLoaded
  with_reducible repeat' first
    | assumption
    | apply State.refreshPort_keeps
    | apply State.refreshGroup_keeps
    | apply State.setAcq_keeps
    | (extract_lets +onlyGivenNames x; first | (refine keeps_have (x := x) ?_ ?_; (on_goal 1 => dsimp -zeta only [x]; clear x); (on_goal 2 => (intro _; clear_value x; rename' x => y))) | (clear_value x; rename' x => y))
    | refine keeps_fold _ _ ?_ ?_
    | (intro; try beta_reduce)
    | refine keeps_ite ?_ ?_
    | split
    | apply_assumption

theorem State.endBoot_keeps {r : State} {a1} {a2} (h1 : Keeps r a1) : Keeps r (State.endBoot a1 a2) := by
  delta State.endBoot
  with_reducible repeat' first
    | assumption
    | apply State.refreshLoaded_keeps
    | apply State.loadBank_keeps
    | apply State.parkDacs_keeps
    | apply State.put_keeps
    | apply State.putF_keeps
    | apply State.bbWrite_keeps
    | apply State.trainStarts_keeps
    | apply State.enterMode_keeps
    | apply State.fault_keeps
    | (extract_lets +onlyGivenNames x; first | (refine keeps_have (x := x) ?_ ?_; (on_goal 1 => dsimp -zeta only [x]; clear x); (on_goal 2 => (intro _; clear_value x; rename' x => y))) | (clear_value x; rename' x => y))
    | (intro; try beta_reduce)
    | exact Keeps.upd (by assumption)
    | refine keeps_ite ?_ ?_
    | split
    | apply_assumption

theorem execBootDone_keeps {r : State} {a1} {a2} (h2 : Keeps r a2) : OutKeeps r (execBootDone a1 a2) := by
  delta execBootDone
  with_reducible repeat' first
    | assumption
    | apply State.endBoot_keeps
    | (intro; try beta_reduce)
    | refine out_next ?_
    | refine out_ite ?_ ?_
    | refine keeps_ite ?_ ?_
    | split
    | apply_assumption

theorem State.trainLanes_keeps {r : State} {a1} {a2} (h1 : Keeps r a1) : Keeps r (State.trainLanes a1 a2) := by
  delta State.trainLanes
  with_reducible repeat' first
    | assumption
    | apply State.put_keeps
    | (extract_lets +onlyGivenNames x; first | (refine keeps_have (x := x.2.2) ?_ ?_; (on_goal 1 => dsimp -zeta only [x]; clear x); (on_goal 2 => (intro _; clear_value x; rename' x => y))) | (clear_value x; rename' x => y))
    | refine keeps_fold _ _ ?_ ?_
    | (intro; try beta_reduce)
    | refine keeps_ite ?_ ?_
    | split
    | apply_assumption

theorem State.trainSubch_keeps {r : State} {a1} {a2} (h1 : Keeps r a1) : Keeps r (State.trainSubch a1 a2) := by
  delta State.trainSubch
  with_reducible repeat' first
    | assumption
    | apply State.put_keeps
    | apply State.trainLanes_keeps
    | (extract_lets +onlyGivenNames x; clear_value x; rename' x => y)
    | (intro; try beta_reduce)
    | refine keeps_ite ?_ ?_
    | split
    | apply_assumption

theorem State.trainDram_keeps {r : State} {a1} {a2} (h1 : Keeps r a1) : Keeps r (State.trainDram a1 a2) := by
  delta State.trainDram
  with_reducible repeat' first
    | assumption
    | apply State.buildMap_keeps
    | apply State.trainSubch_keeps
    | apply State.clearLive_keeps
    | apply State.collect_keeps
    | (extract_lets +onlyGivenNames x; first | (refine keeps_have (x := x) ?_ ?_; (on_goal 1 => dsimp -zeta only [x]; clear x); (on_goal 2 => (intro _; clear_value x; rename' x => y))) | (clear_value x; rename' x => y))
    | refine keeps_fold _ _ ?_ ?_
    | (intro; try beta_reduce)
    | refine keeps_ite ?_ ?_
    | split
    | apply_assumption

theorem State.endTrain_keeps {r : State} {a1} {a2} {a3} {a4} (h1 : Keeps r a1) : Keeps r (State.endTrain a1 a2 a3 a4) := by
  delta State.endTrain
  with_reducible repeat' first
    | assumption
    | apply State.put_keeps
    | apply State.deskew_keeps
    | apply State.trainDram_keeps
    | apply State.refreshSlice_keeps
    | apply State.enterMode_keeps
    | (extract_lets +onlyGivenNames x; refine keeps_have (x := x) ?_ ?_; (on_goal 1 => dsimp -zeta only [x]; clear x); (on_goal 2 => (intro _; clear_value x; rename' x => y)))
    | refine keeps_fold _ _ ?_ ?_
    | (intro; try beta_reduce)
    | refine keeps_ite ?_ ?_
    | split
    | apply_assumption

theorem execTrainDone_keeps {r : State} {a1} {a2} {a3} {a4} (h4 : Keeps r a4) : OutKeeps r (execTrainDone a1 a2 a3 a4) := by
  delta execTrainDone
  with_reducible repeat' first
    | assumption
    | apply State.endTrain_keeps
    | (intro; try beta_reduce)
    | refine out_next ?_
    | refine out_ite ?_ ?_
    | refine keeps_ite ?_ ?_
    | split
    | apply_assumption

theorem execPwrfail_keeps {r : State} {a1} (h1 : Keeps r a1) : OutKeeps r (execPwrfail a1) := by
  delta execPwrfail
  with_reducible repeat' first
    | assumption
    | apply State.powerFalls_keeps
    | apply State.fault_keeps
    | (intro; try beta_reduce)
    | refine out_next ?_
    | refine out_ite ?_ ?_
    | refine keeps_ite ?_ ?_
    | split
    | apply_assumption

theorem execPowerFailRecord_keeps {r : State} {a1} (h1 : Keeps r a1) : OutKeeps r (execPowerFailRecord a1) := by
  delta execPowerFailRecord
  with_reducible repeat' first
    | assumption
    | apply State.flushRecord_keeps
    | apply State.releaseOutputs_keeps
    | apply State.putNvm_keeps
    | (extract_lets +onlyGivenNames x; first | ((first | refine keeps_have (x := x) ?_ ?_ | refine keeps_have_out (x := x) ?_ ?_); (on_goal 1 => dsimp -zeta only [x]; clear x); (on_goal 2 => (intro _; clear_value x; rename' x => y))) | (clear_value x; rename' x => y))
    | (intro; try beta_reduce)
    | refine out_next ?_
    | refine out_ite ?_ ?_
    | refine keeps_ite ?_ ?_
    | split
    | apply_assumption

theorem execQuiesceFlushed_keeps {r : State} {a1} (h1 : Keeps r a1) : OutKeeps r (execQuiesceFlushed a1) := by
  delta execQuiesceFlushed
  with_reducible repeat' first
    | assumption
    | apply State.stopChannel_keeps
    | apply State.releaseOutputs_keeps
    | apply State.flushRecord_keeps
    | (extract_lets +onlyGivenNames x; (first | refine keeps_have (x := x) ?_ ?_ | refine keeps_have_out (x := x) ?_ ?_); (on_goal 1 => dsimp -zeta only [x]; clear x); (on_goal 2 => (intro _; clear_value x; rename' x => y)))
    | refine keeps_fold _ _ ?_ ?_
    | (intro; try beta_reduce)
    | refine out_next ?_
    | refine out_ite ?_ ?_
    | refine keeps_ite ?_ ?_
    | split
    | apply_assumption

end Sys2Proof.Machine
end

