-- ==== Sys2Proof/Laws/KeepsDiagnose.lean ====
section
/-! SUPPORT. What the operations of Machine/Diagnose.lean keep. -/

set_option linter.all false

namespace Sys2Proof.Machine

theorem State.applySliceDiag_keeps {r : State} {a1} {a2} (h1 : Keeps r a1) : Keeps r (State.applySliceDiag a1 a2) := by
  delta State.applySliceDiag
  with_reducible repeat' first
    | assumption
    | apply State.sliceFollow_keeps
    | apply State.abortDiagOn_keeps
    | apply State.abandonOn_keeps
    | apply State.guardRaise_keeps
    | apply State.restSlices_keeps
    | apply State.put_keeps
    | (extract_lets +onlyGivenNames x; first | (refine keeps_have (x := x) ?_ ?_; (on_goal 1 => dsimp -zeta only [x]; clear x); (on_goal 2 => (intro _; clear_value x; rename' x => y))) | (clear_value x; rename' x => y))
    | refine keeps_fold _ _ ?_ ?_
    | (intro; try beta_reduce)
    | apply_assumption

theorem State.cmdSliceDiag_keeps {r : State} {a1} {a2} (h1 : Keeps r a1) : Keeps r (State.cmdSliceDiag a1 a2).2 := by
  delta State.cmdSliceDiag
  with_reducible repeat' first
    | assumption
    | apply State.cmdDone_keeps
    | apply State.applySliceDiag_keeps
    | (extract_lets +onlyGivenNames x; clear_value x; rename' x => y)
    | (intro; try beta_reduce)
    | refine keeps_ite ?_ ?_
    | refine keeps_ite2 ?_ ?_
    | split
    | apply_assumption

theorem execSliceDiagRequest_keeps {r : State} {a1} {a2} {a3} (h3 : Keeps r a3) : OutKeeps r (execSliceDiagRequest a1 a2 a3) := by
  delta execSliceDiagRequest
  with_reducible repeat' first
    | assumption
    | apply State.access_keeps
    | apply State.cmdSliceDiag_keeps
    | (intro; try beta_reduce)
    | refine out_next ?_
    | apply_assumption

theorem State.diagRefused_keeps {r : State} {a1} (h1 : Keeps r a1) : Keeps r (State.diagRefused a1) := by
  delta State.diagRefused
  with_reducible repeat' first
    | assumption
    | apply State.put_keeps
    | (extract_lets +onlyGivenNames x; refine keeps_have (x := x) ?_ ?_; (on_goal 1 => dsimp -zeta only [x]; clear x); (on_goal 2 => (intro _; clear_value x; rename' x => y)))
    | (intro; try beta_reduce)
    | split
    | apply_assumption

theorem State.loopEvent_keeps {r : State} {a1} {a2} {a3} {a4} (h1 : Keeps r a1) : Keeps r (State.loopEvent a1 a2 a3 a4).1 := by
  delta State.loopEvent
  with_reducible repeat' first
    | assumption
    | apply State.emit_keeps
    | (intro; try beta_reduce)
    | refine keeps_ite ?_ ?_
    | refine keeps_ite1 ?_ ?_
    | split
    | apply_assumption

theorem State.replayLoop_keeps {r : State} {a1} {a2} {a3} (h1 : Keeps r a1) : Keeps r (State.replayLoop a1 a2 a3).1 := by
  induction a2 generalizing a1 a3 with
  | nil => exact h1
  | cons row l ih =>
    refine ih ?_
    exact keeps_fold1 _ _ h1 (fun u x hu => State.loopEvent_keeps hu)

theorem State.driveDiag_keeps {r : State} {a1} {a2} (h1 : Keeps r a1) : Keeps r (State.driveDiag a1 a2).1 := by
  delta State.driveDiag
  refine keeps_ite1 (State.stimulate_keeps h1) ?_
  extract_lets l
  have e : Keeps r l.1 := State.replayLoop_keeps (State.driveSlices_keeps h1)
  clear_value l
  exact keeps_fold _ _ e (fun u x hu => Keeps.updLanes hu)

theorem State.startDiag_keeps {r : State} {a1} (h1 : Keeps r a1) : Keeps r (State.startDiag a1) := by
  delta State.startDiag
  extract_lets dacs q code d b s1 l s2 s3 s4
  have e1 : Keeps r s1 := Keeps.upd (State.put_keeps h1)
  have e2 : Keeps r s2 := State.loadDacs_keeps e1
  have e3 : Keeps r s3 := keeps_ite (State.put_keeps (Keeps.upd e2)) (Keeps.upd e2)
  have e4 : Keeps r s4.1 := State.driveDiag_keeps (keeps_ite (State.setLbk_keeps e3) e3)
  clear_value s4
  exact State.collect_keeps (State.cmdRun_keeps e4)

theorem State.diagStep_keeps {r : State} {a1} (h1 : Keeps r a1) : Keeps r (State.diagStep a1) := by
  delta State.diagStep
  with_reducible repeat' first
    | assumption
    | apply State.put_keeps
    | (extract_lets +onlyGivenNames x; clear_value x; rename' x => y)
    | (intro; try beta_reduce)
    | exact Keeps.upd (by assumption)
    | refine keeps_ite ?_ ?_
    | split
    | apply_assumption

theorem State.elapse_keeps {r : State} {a1} (h1 : Keeps r a1) : Keeps r (State.elapse a1) := by
  delta State.elapse
  with_reducible repeat' first
    | assumption
    | apply State.guardRaise_keeps
    | apply State.diagStep_keeps
    | apply State.scrub_keeps
    | apply State.loadEdge_keeps
    | apply State.tick_keeps
    | (intro; try beta_reduce)
    | apply_assumption

theorem State.cmdDiag_keeps {r : State} {a1} {a2} (h1 : Keeps r a1) : Keeps r (State.cmdDiag a1 a2).2 := by
  delta State.cmdDiag
  with_reducible repeat' first
    | assumption
    | apply State.startDiag_keeps
    | apply State.diagRefused_keeps
    | apply State.abortDiag_keeps
    | apply State.cmdDone_keeps
    | (extract_lets +onlyGivenNames x; clear_value x; rename' x => y)
    | (intro; try beta_reduce)
    | refine keeps_ite ?_ ?_
    | refine keeps_ite2 ?_ ?_
    | split
    | apply_assumption

theorem execDiagStart_keeps {r : State} {a1} {a2} (h2 : Keeps r a2) : OutKeeps r (execDiagStart a1 a2) := by
  delta execDiagStart
  with_reducible repeat' first
    | assumption
    | apply State.accessDetail_keeps
    | apply State.cmdDiag_keeps
    | (intro; try beta_reduce)
    | refine out_next ?_
    | apply_assumption

theorem execDiagStop_keeps {r : State} {a1} {a2} (h2 : Keeps r a2) : OutKeeps r (execDiagStop a1 a2) := by
  delta execDiagStop
  with_reducible repeat' first
    | assumption
    | apply State.access_keeps
    | apply State.cmdDiag_keeps
    | (intro; try beta_reduce)
    | refine out_next ?_
    | apply_assumption

theorem execDiagRunDone_keeps {r : State} {a1} {a2} (h2 : Keeps r a2) : OutKeeps r (execDiagRunDone a1 a2) := by
  delta execDiagRunDone
  with_reducible repeat' first
    | assumption
    | apply State.cmdDone_keeps
    | apply State.endDiag_keeps
    | (intro; try beta_reduce)
    | refine out_next ?_
    | exact out_fault
    | split
    | apply_assumption

end Sys2Proof.Machine
end

