-- ==== Sys2Proof/Laws/KeepsBlobs.lean ====
section
/-! SUPPORT. What the operations of Machine/Blobs.lean keep. -/

set_option linter.all false

namespace Sys2Proof.Machine

theorem State.blobBytes_keeps {r : State} {a1} {a2} {a3} {a4} (h1 : Keeps r a1) : Keeps r (State.blobBytes a1 a2 a3 a4).2 := by
  delta State.blobBytes
  with_reducible repeat' first
    | assumption
    | (extract_lets +onlyGivenNames x; clear_value x; rename' x => y)
    | (intro; try beta_reduce)
    | exact Keeps.upd (by assumption)
    | exact Keeps.updFree (by assumption)
    | refine keeps_ite ?_ ?_
    | refine keeps_ite2 ?_ ?_
    | split
    | apply_assumption

theorem State.writeTiming_keeps {r : State} {a1} {a2} {a3} (h1 : Keeps r a1) : Keeps r (State.writeTiming a1 a2 a3) := by
  delta State.writeTiming
  with_reducible repeat' first
    | assumption
    | apply State.put_keeps
    | apply State.stale_keeps
    | (extract_lets +onlyGivenNames x; refine keeps_have (x := x) ?_ ?_; (on_goal 1 => dsimp -zeta only [x]; clear x); (on_goal 2 => (intro _; clear_value x; rename' x => y)))
    | refine keeps_fold _ _ ?_ ?_
    | (intro; try beta_reduce)
    | refine keeps_ite ?_ ?_
    | split
    | apply_assumption

end Sys2Proof.Machine
end

