-- ==== Sys2Proof/Laws/KeepsHostIf.lean ====
section
/-! SUPPORT. What the operations of Machine/HostIf.lean keep. -/

set_option linter.all false

namespace Sys2Proof.Machine

theorem State.doorbell_keeps {r : State} {a1} {a2} {a3} {a4} (h1 : Keeps r a1) : Keeps r (State.doorbell a1 a2 a3 a4) := by
  delta State.doorbell
  with_reducible repeat' first
    | assumption
    | apply State.putChan_keeps
    | apply State.fault_keeps
    | apply State.fetchDescs_keeps
    | (extract_lets +onlyGivenNames x; first | (refine keeps_have (x := x) ?_ ?_; (on_goal 1 => dsimp -zeta only [x]; clear x); (on_goal 2 => (intro _; clear_value x; rename' x => y))) | (clear_value x; rename' x => y))
    | (intro; try beta_reduce)
    | refine keeps_ite ?_ ?_
    | split
    | apply_assumption

theorem execDmaDoorbell_keeps {r : State} {a1} {a2} {a3} {a4} (h4 : Keeps r a4) : OutKeeps r (execDmaDoorbell a1 a2 a3 a4) := by
  delta execDmaDoorbell
  with_reducible repeat' first
    | assumption
    | apply within_keeps
    | apply State.doorbell_keeps
    | (intro; try beta_reduce)
    | refine out_next ?_
    | refine out_within ?_
    | refine out_ite ?_ ?_
    | refine keeps_ite ?_ ?_
    | split
    | apply_assumption

theorem execDmaRun_keeps {r : State} {a1} {a2} {a3} (h3 : Keeps r a3) : OutKeeps r (execDmaRun a1 a2 a3) := by
  delta execDmaRun
  with_reducible repeat' first
    | assumption
    | apply within_keeps
    | apply State.fetchDescs_keeps
    | apply State.putChan_keeps
    | (extract_lets +onlyGivenNames x; clear_value x; rename' x => y)
    | (intro; try beta_reduce)
    | refine out_next ?_
    | refine out_within ?_
    | refine out_ite ?_ ?_
    | refine keeps_ite ?_ ?_
    | split
    | apply_assumption

theorem execDmaStop_keeps {r : State} {a1} {a2} (h2 : Keeps r a2) : OutKeeps r (execDmaStop a1 a2) := by
  delta execDmaStop
  with_reducible repeat' first
    | assumption
    | apply within_keeps
    | apply State.stopChannel_keeps
    | (intro; try beta_reduce)
    | refine out_next ?_
    | refine out_within ?_
    | refine out_ite ?_ ?_
    | refine keeps_ite ?_ ?_
    | split
    | apply_assumption

theorem State.writeChannel_keeps {r : State} {a1} {a2} {a3} {a4} (h1 : Keeps r a1) : Keeps r (State.writeChannel a1 a2 a3 a4) := by
  delta State.writeChannel
  with_reducible repeat' first
    | assumption
    | apply State.putChan_keeps
    | apply State.fault_keeps
    | (extract_lets +onlyGivenNames x; first | (refine keeps_have (x := x) ?_ ?_; (on_goal 1 => dsimp -zeta only [x]; clear x); (on_goal 2 => (intro _; clear_value x; rename' x => y))) | (clear_value x; rename' x => y))
    | (intro; try beta_reduce)
    | refine keeps_ite ?_ ?_
    | split
    | apply_assumption

theorem execDescBaseWrite_keeps {r : State} {a1} {a2} {a3} {a4} (h4 : Keeps r a4) : OutKeeps r (execDescBaseWrite a1 a2 a3 a4) := by
  delta execDescBaseWrite
  with_reducible repeat' first
    | assumption
    | apply within_keeps
    | apply State.writeChannel_keeps
    | (intro; try beta_reduce)
    | refine out_next ?_
    | refine out_within ?_
    | refine out_ite ?_ ?_
    | refine keeps_ite ?_ ?_
    | split
    | apply_assumption

theorem State.scanBursts_keeps {r : State} {a1} {a2} {a3} {a4} (h1 : Keeps r a1) : Keeps r (State.scanBursts a1 a2 a3 a4).1 := by
  induction a4 generalizing a1 a2 a3 with
  | zero => exact h1
  | succ n ih =>
  unfold State.scanBursts
  with_reducible repeat' first
    | assumption
    | exact Keeps.refl _
    | apply ih
    | apply State.readBurst_keeps
    | (extract_lets +onlyGivenNames x; first | ((first | refine keeps_have (x := x) ?_ ?_ | refine keeps_have_out (x := x) ?_ ?_ | refine keeps_have (x := x.2) ?_ ?_ | refine keeps_have_out (x := x.2) ?_ ?_ | refine keeps_have (x := x.2.2) ?_ ?_ | refine keeps_have_out (x := x.2.2) ?_ ?_ | refine keeps_have (x := x.1) ?_ ?_ | refine keeps_have_out (x := x.1) ?_ ?_ | refine keeps_have_fun (x := x) ?_ ?_); (on_goal 1 => dsimp -zeta only [x]; clear x); (on_goal 2 => (intro _; clear_value x; rename' x => y))) | (clear_value x; rename' x => y))
    | refine keeps_fold _ _ ?_ ?_
    | refine keeps_fold1 _ _ ?_ ?_
    | refine keeps_fold2 _ _ ?_ ?_
    | (intro; try beta_reduce)
    | refine out_next ?_
    | refine out_within ?_
    | exact out_fault
    | exact Keeps.upd (by assumption)
    | refine keeps_ite ?_ ?_
    | refine keeps_ite1 ?_ ?_
    | refine keeps_ite2 ?_ ?_
    | split
    | apply_assumption

theorem State.dramWriteAll_keeps {r : State} {a1} {a2} {a3} {a4} (h1 : Keeps r a1) : Keeps r (State.dramWriteAll a1 a2 a3 a4) := by
  induction a4 generalizing a1 a2 a3 with
  | zero => exact h1
  | succ n ih =>
  unfold State.dramWriteAll
  with_reducible repeat' first
    | assumption
    | exact Keeps.refl _
    | apply ih
    | apply State.dramWriteAt_keeps
    | (extract_lets +onlyGivenNames x; first | ((first | refine keeps_have (x := x) ?_ ?_ | refine keeps_have_out (x := x) ?_ ?_ | refine keeps_have (x := x.2) ?_ ?_ | refine keeps_have_out (x := x.2) ?_ ?_ | refine keeps_have (x := x.2.2) ?_ ?_ | refine keeps_have_out (x := x.2.2) ?_ ?_ | refine keeps_have (x := x.1) ?_ ?_ | refine keeps_have_out (x := x.1) ?_ ?_ | refine keeps_have_fun (x := x) ?_ ?_); (on_goal 1 => dsimp -zeta only [x]; clear x); (on_goal 2 => (intro _; clear_value x; rename' x => y))) | (clear_value x; rename' x => y))
    | refine keeps_fold _ _ ?_ ?_
    | refine keeps_fold1 _ _ ?_ ?_
    | refine keeps_fold2 _ _ ?_ ?_
    | (intro; try beta_reduce)
    | refine out_next ?_
    | refine out_within ?_
    | exact out_fault
    | exact Keeps.upd (by assumption)
    | refine keeps_ite ?_ ?_
    | refine keeps_ite1 ?_ ?_
    | refine keeps_ite2 ?_ ?_
    | split
    | apply_assumption

theorem State.dramToHost_keeps {r : State} {a1} {a2} {a3} {a4} (h1 : Keeps r a1) : Keeps r (State.dramToHost a1 a2 a3 a4) := by
  delta State.dramToHost
  with_reducible repeat' first
    | assumption
    | apply State.scanBursts_keeps
    | apply State.dramUe_keeps
    | apply State.closeOldest_keeps
    | apply State.emit_keeps
    | (extract_lets +onlyGivenNames x; first | ((first | refine keeps_have (x := x) ?_ ?_ | refine keeps_have (x := x.1) ?_ ?_); (on_goal 1 => dsimp -zeta only [x]; clear x); (on_goal 2 => (intro _; clear_value x; rename' x => y))) | (clear_value x; rename' x => y))
    | (intro; try beta_reduce)
    | refine keeps_ite ?_ ?_
    | refine keeps_ite1 ?_ ?_
    | split
    | apply_assumption

theorem State.checkRecord_keeps {r : State} {a1} {a2} {a3} (h1 : Keeps r a1) : Keeps r (State.checkRecord a1 a2 a3) := by
  delta State.checkRecord
  with_reducible repeat' first
    | assumption
    | apply State.examine_keeps
    | apply State.flagRecord_keeps
    | apply State.fault_keeps
    | (extract_lets +onlyGivenNames x; refine keeps_have (x := x.1) ?_ ?_; (on_goal 1 => dsimp -zeta only [x]; clear x); (on_goal 2 => (intro _; clear_value x; rename' x => y)))
    | (intro; try beta_reduce)
    | refine keeps_ite ?_ ?_
    | refine keeps_ite1 ?_ ?_
    | split
    | apply_assumption

theorem State.blobTransfer_keeps {r : State} {a1} {a2} {a3} {a4} {a5} (h1 : Keeps r a1) : Keeps r (State.blobTransfer a1 a2 a3 a4 a5) := by
  delta State.blobTransfer
  with_reducible repeat' first
    | assumption
    | apply State.checkRecord_keeps
    | apply State.bbPass_keeps
    | apply State.blobBytes_keeps
    | apply State.emit_keeps
    | apply State.writeTiming_keeps
    | apply State.closeOldest_keeps
    | (extract_lets +onlyGivenNames x; first | ((first | refine keeps_have (x := x) ?_ ?_ | refine keeps_have (x := x.2) ?_ ?_); (on_goal 1 => dsimp -zeta only [x]; clear x); (on_goal 2 => (intro _; clear_value x; rename' x => y))) | (clear_value x; rename' x => y))
    | (intro; try beta_reduce)
    | exact Keeps.upd (by assumption)
    | refine keeps_ite ?_ ?_
    | refine keeps_ite2 ?_ ?_
    | split
    | apply_assumption

theorem State.moveIn_keeps {r : State} {a1} {a2} {a3} {a4} (h1 : Keeps r a1) : Keeps r (State.moveIn a1 a2 a3 a4) := by
  delta State.moveIn
  with_reducible repeat' first
    | assumption
    | apply State.dramWriteAll_keeps
    | apply State.putChan_keeps
    | (extract_lets +onlyGivenNames x; first | (refine keeps_have (x := x) ?_ ?_; (on_goal 1 => dsimp -zeta only [x]; clear x); (on_goal 2 => (intro _; clear_value x; rename' x => y))) | (clear_value x; rename' x => y))
    | (intro; try beta_reduce)
    | apply_assumption

theorem State.closeDesc_keeps {r : State} {a1} {a2} {a3} {a4} (h1 : Keeps r a1) : Keeps r (State.closeDesc a1 a2 a3 a4) := by
  delta State.closeDesc
  with_reducible repeat' first
    | assumption
    | apply State.closeLost_keeps
    | apply State.closeOldest_keeps
    | apply State.moveIn_keeps
    | apply State.blobTransfer_keeps
    | apply State.dramToHost_keeps
    | (extract_lets +onlyGivenNames x; first | (refine keeps_have (x := x) ?_ ?_; (on_goal 1 => dsimp -zeta only [x]; clear x); (on_goal 2 => (intro _; clear_value x; rename' x => y))) | (clear_value x; rename' x => y))
    | (intro; try beta_reduce)
    | refine keeps_ite ?_ ?_
    | split
    | apply_assumption

theorem execDescriptorClose_keeps {r : State} {a1} {a2} {a3} {a4} (h4 : Keeps r a4) : OutKeeps r (execDescriptorClose a1 a2 a3 a4) := by
  delta execDescriptorClose
  with_reducible repeat' first
    | assumption
    | apply within_keeps
    | apply State.closeDesc_keeps
    | (intro; try beta_reduce)
    | refine out_next ?_
    | refine out_within ?_
    | refine out_ite ?_ ?_
    | refine keeps_ite ?_ ?_
    | split
    | apply_assumption

theorem State.hostError_keeps {r : State} {a1} {a2} {a3} {a4} (h1 : Keeps r a1) : Keeps r (State.hostError a1 a2 a3 a4) := by
  delta State.hostError
  with_reducible repeat' first
    | assumption
    | apply State.moveIn_keeps
    | apply State.fault_keeps
    | apply State.closeOldest_keeps
    | (extract_lets +onlyGivenNames x; first | (refine keeps_have (x := x) ?_ ?_; (on_goal 1 => dsimp -zeta only [x]; clear x); (on_goal 2 => (intro _; clear_value x; rename' x => y))) | (clear_value x; rename' x => y))
    | (intro; try beta_reduce)
    | exact Keeps.upd (by assumption)
    | refine keeps_ite ?_ ?_
    | split
    | apply_assumption

theorem execDmaHostError_keeps {r : State} {a1} {a2} {a3} {a4} (h4 : Keeps r a4) : OutKeeps r (execDmaHostError a1 a2 a3 a4) := by
  delta execDmaHostError
  with_reducible repeat' first
    | assumption
    | apply within_keeps
    | apply State.hostError_keeps
    | (intro; try beta_reduce)
    | refine out_next ?_
    | refine out_within ?_
    | refine out_ite ?_ ?_
    | refine keeps_ite ?_ ?_
    | split
    | apply_assumption

theorem execBar0StrayWrite_keeps {r : State} {a1} (h1 : Keeps r a1) : OutKeeps r (execBar0StrayWrite a1) := by
  delta execBar0StrayWrite
  with_reducible repeat' first
    | assumption
    | apply State.count_keeps
    | (intro; try beta_reduce)
    | refine out_next ?_
    | refine out_ite ?_ ?_
    | refine keeps_ite ?_ ?_
    | split
    | apply_assumption

theorem State.bar2Refused_keeps {r : State} {a1} {a2} {a3} (h1 : Keeps r a1) : Keeps r (State.bar2Refused a1 a2 a3) := by
  delta State.bar2Refused
  with_reducible repeat' first
    | assumption
    | apply State.put_keeps
    | (extract_lets +onlyGivenNames x; refine keeps_have (x := x) ?_ ?_; (on_goal 1 => dsimp -zeta only [x]; clear x); (on_goal 2 => (intro _; clear_value x; rename' x => y)))
    | (intro; try beta_reduce)
    | refine keeps_ite ?_ ?_
    | split
    | apply_assumption

theorem State.bar2Write_keeps {r : State} {a1} {a2} {a3} (h1 : Keeps r a1) : Keeps r (State.bar2Write a1 a2 a3) := by
  delta State.bar2Write
  with_reducible repeat' first
    | assumption
    | apply State.dramWriteAll_keeps
    | apply State.bar2Refused_keeps
    | (intro; try beta_reduce)
    | split
    | apply_assumption

theorem execBar2Write_keeps {r : State} {a1} {a2} {a3} (h3 : Keeps r a3) : OutKeeps r (execBar2Write a1 a2 a3) := by
  delta execBar2Write
  with_reducible repeat' first
    | assumption
    | apply State.bar2Write_keeps
    | (intro; try beta_reduce)
    | refine out_next ?_
    | refine out_ite ?_ ?_
    | refine keeps_ite ?_ ?_
    | split
    | apply_assumption

theorem State.bar2Read_keeps {r : State} {a1} {a2} {a3} {a4} (h1 : Keeps r a1) : Keeps r (State.bar2Read a1 a2 a3 a4) := by
  delta State.bar2Read
  with_reducible repeat' first
    | assumption
    | apply State.scanBursts_keeps
    | apply State.emit_keeps
    | apply State.bar2Refused_keeps
    | (extract_lets +onlyGivenNames x; refine keeps_have (x := x.1) ?_ ?_; (on_goal 1 => dsimp -zeta only [x]; clear x); (on_goal 2 => (intro _; clear_value x; rename' x => y)))
    | (intro; try beta_reduce)
    | split
    | apply_assumption

theorem execBar2Read_keeps {r : State} {a1} {a2} {a3} {a4} (h4 : Keeps r a4) : OutKeeps r (execBar2Read a1 a2 a3 a4) := by
  delta execBar2Read
  with_reducible repeat' first
    | assumption
    | apply State.bar2Read_keeps
    | (intro; try beta_reduce)
    | refine out_next ?_
    | refine out_ite ?_ ?_
    | refine keeps_ite ?_ ?_
    | split
    | apply_assumption

theorem State.abortAllDma_keeps {r : State} {a1} (h1 : Keeps r a1) : Keeps r (State.abortAllDma a1) := by
  delta State.abortAllDma
  with_reducible repeat' first
    | assumption
    | apply State.abortOpen_keeps
    | refine keeps_fold _ _ ?_ ?_
    | (intro; try beta_reduce)
    | apply_assumption

theorem State.hostReset_keeps {r : State} {a1} (h1 : Keeps r a1) : Keeps r (State.hostReset a1) := by
  delta State.hostReset
  with_reducible repeat' first
    | assumption
    | apply State.abortAllDma_keeps
    | apply State.closeSessions_keeps
    | apply State.put_keeps
    | (extract_lets +onlyGivenNames x; refine keeps_have (x := x) ?_ ?_; (on_goal 1 => dsimp -zeta only [x]; clear x); (on_goal 2 => (intro _; clear_value x; rename' x => y)))
    | (intro; try beta_reduce)
    | exact Keeps.upd (by assumption)
    | exact Keeps.updNoDma (by assumption)
    | apply_assumption

theorem execHostIslandReset_keeps {r : State} {a1} (h1 : Keeps r a1) : OutKeeps r (execHostIslandReset a1) := by
  delta execHostIslandReset
  with_reducible repeat' first
    | assumption
    | apply State.hostReset_keeps
    | (intro; try beta_reduce)
    | refine out_next ?_
    | refine out_ite ?_ ?_
    | refine keeps_ite ?_ ?_
    | split
    | apply_assumption

theorem execPcieLinkDown_keeps {r : State} {a1} {a2} (h2 : Keeps r a2) : OutKeeps r (execPcieLinkDown a1 a2) := by
  delta execPcieLinkDown
  with_reducible repeat' first
    | assumption
    | apply State.abortAllDma_keeps
    | apply State.fault_keeps
    | (extract_lets +onlyGivenNames x; (first | refine keeps_have (x := x) ?_ ?_ | refine keeps_have_out (x := x) ?_ ?_); (on_goal 1 => dsimp -zeta only [x]; clear x); (on_goal 2 => (intro _; clear_value x; rename' x => y)))
    | (intro; try beta_reduce)
    | refine out_next ?_
    | exact Keeps.upd (by assumption)
    | refine out_ite ?_ ?_
    | refine keeps_ite ?_ ?_
    | split
    | apply_assumption

theorem execPcieLinkUp_keeps {r : State} {a1} (h1 : Keeps r a1) : OutKeeps r (execPcieLinkUp a1) := by
  delta execPcieLinkUp
  with_reducible repeat' first
    | assumption
    | apply State.fetchDescs_keeps
    | apply State.clearLive_keeps
    | (extract_lets +onlyGivenNames x; (first | refine keeps_have (x := x) ?_ ?_ | refine keeps_have_out (x := x) ?_ ?_); (on_goal 1 => dsimp -zeta only [x]; clear x); (on_goal 2 => (intro _; clear_value x; rename' x => y)))
    | refine keeps_fold _ _ ?_ ?_
    | (intro; try beta_reduce)
    | refine out_next ?_
    | exact Keeps.upd (by assumption)
    | refine out_ite ?_ ?_
    | refine keeps_ite ?_ ?_
    | split
    | apply_assumption

end Sys2Proof.Machine
end

