-- ==== Sys2Proof/Laws/KeepsDictionary.lean ====
section
/-! SUPPORT. What the operations of Machine/Dictionary.lean keep. -/

set_option linter.all false

namespace Sys2Proof.Machine

theorem State.writeFernAlign_keeps {r : State} {a1} {a2} (h1 : Keeps r a1) : Keeps r (State.writeFernAlign a1 a2).2 := by
  delta State.writeFernAlign
  with_reducible repeat' first
    | assumption
    | apply State.freeChoice_keeps
    | apply State.free_keeps
    | apply State.cmdFernAlign_keeps
    | (extract_lets +onlyGivenNames x; refine keeps_have (x := x.2) ?_ ?_; (on_goal 1 => dsimp -zeta only [x]; clear x); (on_goal 2 => (intro _; clear_value x; rename' x => y)))
    | (intro; try beta_reduce)
    | refine keeps_ite ?_ ?_
    | refine keeps_ite2 ?_ ?_
    | split
    | apply_assumption

theorem State.writeCmdOne_keeps {r : State} {a1} {a2} {a3} (h1 : Keeps r a1) : Keeps r (State.writeCmdOne a1 a2 a3).2 := by
  delta State.writeCmdOne
  refine keeps_ite2 (State.cmdDictPersist_keeps h1) ?_
  refine keeps_ite2 (State.cmdDictRevert_keeps h1) ?_
  refine keeps_ite2 (State.cmdModeRequest_keeps h1) ?_
  refine keeps_ite2 (State.cmdSliceDiag_keeps h1) ?_
  refine keeps_ite2 (State.cmdLoadCheck_keeps h1) ?_
  refine keeps_ite2 (State.cmdDeviceReset_keeps h1) ?_
  refine keeps_ite2 (State.cmdFwActivate_keeps h1) ?_
  refine keeps_ite2 (State.cmdBurstStart_keeps h1) ?_
  refine keeps_ite2 (State.cmdBurstStop_keeps h1) ?_
  refine keeps_ite2 (State.cmdGuardCommit_keeps h1) ?_
  refine keeps_ite2 (State.cmdTimeLatch_keeps h1) ?_
  refine keeps_ite2 (State.cmdTimeStep_keeps h1) ?_
  refine keeps_ite2 (State.cmdPtmCorr_keeps (State.freeChoice_keeps h1)) ?_
  refine keeps_ite2 (State.cmdDacLoad_keeps h1) ?_
  refine keeps_ite2 (State.cmdTrigoutPulse_keeps h1) ?_
  refine keeps_ite2 (State.cmdFfClear_keeps h1) ?_
  refine keeps_ite2 (State.cmdFaultInject_keeps h1) ?_
  refine keeps_ite2 (State.cmdSafeUnlatch_keeps h1) ?_
  refine keeps_ite2 (State.cmdBbNote_keeps h1) ?_
  refine keeps_ite2 (State.cmdCalCancel_keeps h1) ?_
  refine keeps_ite2 (State.cmdDiag_keeps h1) ?_
  refine keeps_ite2 (State.writeFernAlign_keeps h1) ?_
  refine keeps_ite2 (State.cmdRingForm_keeps h1) ?_
  exact h1

theorem State.writeCmd_keeps {r : State} {a1} {a2} {a3} (h1 : Keeps r a1) : Keeps r (State.writeCmd a1 a2 a3).2 := by
  delta State.writeCmd
  with_reducible repeat' first
    | assumption
    | apply State.cmdSlotArm_keeps
    | apply State.writeCmdOne_keeps
    | apply State.cmdHostJump_keeps
    | apply State.cmdAcqArm_keeps
    | apply State.cmdAcqForce_keeps
    | apply State.cmdTiuArm_keeps
    | apply State.cmdAdcStart_keeps
    | apply State.cmdReq_keeps
    | (extract_lets +onlyGivenNames x; clear_value x; rename' x => y)
    | (intro; try beta_reduce)
    | refine keeps_ite ?_ ?_
    | refine keeps_ite2 ?_ ?_
    | split
    | apply_assumption

theorem State.writeKey_keeps {r : State} {a1} {a2} {a3} {a4} (h1 : Keeps r a1) : Keeps r (State.writeKey a1 a2 a3 a4).2 := by
  delta State.writeKey
  with_reducible repeat' first
    | assumption
    | apply State.writeCmd_keeps
    | apply State.writePlain_keeps
    | (intro; try beta_reduce)
    | refine keeps_ite ?_ ?_
    | refine keeps_ite2 ?_ ?_
    | split
    | apply_assumption

theorem State.writeAt_keeps {r : State} {a1} {a2} {a3} {a4} {a5} (h1 : Keeps r a1) : Keeps r (State.writeAt a1 a2 a3 a4 a5) := by
  delta State.writeAt
  with_reducible repeat' first
    | assumption
    | apply State.accessDetail_keeps
    | apply State.writeKey_keeps
    | (intro; try beta_reduce)
    | apply_assumption

theorem execWrite_keeps {r : State} {a1} {a2} {a3} {a4} {a5} {a6} (h6 : Keeps r a6) : OutKeeps r (execWrite a1 a2 a3 a4 a5 a6) := by
  delta execWrite
  with_reducible repeat' first
    | assumption
    | apply State.writeAt_keeps
    | (intro; try beta_reduce)
    | refine out_next ?_
    | apply_assumption

theorem execRead_keeps {r : State} {a1} {a2} {a3} {a4} {a5} (h5 : Keeps r a5) : OutKeeps r (execRead a1 a2 a3 a4 a5) := by
  delta execRead
  with_reducible repeat' first
    | assumption
    | apply State.readAt_keeps
    | (intro; try beta_reduce)
    | refine out_next ?_
    | apply_assumption

theorem State.answerWith_keeps {r : State} {a1} {a2} {a3} {a4} {a5} (h1 : Keeps r a1) : Keeps r (State.answerWith a1 a2 a3 a4 a5) := by
  delta State.answerWith
  with_reducible repeat' first
    | assumption
    | apply State.answer_keeps
    | (intro; try beta_reduce)
    | apply_assumption

theorem State.refusedValue_keeps {r : State} {a1} {a2} {a3} (h1 : Keeps r a1) : Keeps r (State.refusedValue a1 a2 a3).2 := by
  delta State.refusedValue
  with_reducible repeat' first
    | assumption
    | apply State.valueAfter_keeps
    | apply State.free_keeps
    | (intro; try beta_reduce)
    | refine keeps_ite ?_ ?_
    | refine keeps_ite2 ?_ ?_
    | split
    | apply_assumption

theorem State.refuseMessage_keeps {r : State} {a1} {a2} {a3} {a4} {a5} (h1 : Keeps r a1) : Keeps r (State.refuseMessage a1 a2 a3 a4 a5) := by
  delta State.refuseMessage
  with_reducible repeat' first
    | assumption
    | apply State.refusedValue_keeps
    | apply State.answer_keeps
    | (extract_lets +onlyGivenNames x; refine keeps_have (x := x.2) ?_ ?_; (on_goal 1 => dsimp -zeta only [x]; clear x); (on_goal 2 => (intro _; clear_value x; rename' x => y)))
    | (intro; try beta_reduce)
    | apply_assumption

theorem State.subscribeAt_keeps {r : State} {a1} {a2} {a3} {a4} (h1 : Keeps r a1) : Keeps r (State.subscribeAt a1 a2 a3 a4) := by
  delta State.subscribeAt
  with_reducible repeat' first
    | assumption
    | apply State.refuseMessage_keeps
    | apply State.refreshSessions_keeps
    | apply State.answerWith_keeps
    | (extract_lets +onlyGivenNames x; first | ((first | refine keeps_have (x := x) ?_ ?_ | refine keeps_have_fun (x := x) ?_ ?_); (on_goal 1 => dsimp -zeta only [x]; clear x); (on_goal 2 => (intro _; clear_value x; rename' x => y))) | (clear_value x; rename' x => y))
    | (intro; try beta_reduce)
    | exact Keeps.upd (by assumption)
    | refine keeps_ite ?_ ?_
    | split
    | apply_assumption

theorem execSubscribe_keeps {r : State} {a1} {a2} {a3} {a4} (h4 : Keeps r a4) : OutKeeps r (execSubscribe a1 a2 a3 a4) := by
  delta execSubscribe
  with_reducible repeat' first
    | assumption
    | apply State.subscribeAt_keeps
    | (intro; try beta_reduce)
    | refine out_next ?_
    | apply_assumption

theorem State.unsubscribeAt_keeps {r : State} {a1} {a2} {a3} (h1 : Keeps r a1) : Keeps r (State.unsubscribeAt a1 a2 a3) := by
  delta State.unsubscribeAt
  with_reducible repeat' first
    | assumption
    | apply State.refuseMessage_keeps
    | apply State.answerWith_keeps
    | apply State.refreshSessions_keeps
    | (extract_lets +onlyGivenNames x; clear_value x; rename' x => y)
    | (intro; try beta_reduce)
    | exact Keeps.upd (by assumption)
    | refine keeps_ite ?_ ?_
    | split
    | apply_assumption

theorem execUnsubscribe_keeps {r : State} {a1} {a2} {a3} (h3 : Keeps r a3) : OutKeeps r (execUnsubscribe a1 a2 a3) := by
  delta execUnsubscribe
  with_reducible repeat' first
    | assumption
    | apply State.unsubscribeAt_keeps
    | (intro; try beta_reduce)
    | refine out_next ?_
    | apply_assumption

theorem State.groupView_keeps {r : State} {a1} {a2} (h1 : Keeps r a1) : Keeps r (State.groupView a1 a2) := by
  delta State.groupView
  with_reducible repeat' first
    | assumption
    | apply State.overlay_keeps
    | refine keeps_fold _ _ ?_ ?_
    | (intro; try beta_reduce)
    | refine keeps_ite ?_ ?_
    | split
    | apply_assumption

theorem State.applyPlain_keeps {r : State} {a1} {a2} (h1 : Keeps r a1) : Keeps r (State.applyPlain a1 a2) := by
  delta State.applyPlain
  with_reducible repeat' first
    | assumption
    | apply State.applyWrite_keeps
    | refine keeps_fold _ _ ?_ ?_
    | (intro; try beta_reduce)
    | refine keeps_ite ?_ ?_
    | split
    | apply_assumption

theorem State.answerGroup_keeps {r : State} {a1} {a2} (h1 : Keeps r a1) : Keeps r (State.answerGroup a1 a2) := by
  delta State.answerGroup
  with_reducible repeat' first
    | assumption
    | apply State.respond_keeps
    | refine keeps_fold _ _ ?_ ?_
    | (intro; try beta_reduce)
    | apply_assumption

theorem State.group_keeps {r : State} {a1} {a2} {a3} (h1 : Keeps r a1) : Keeps r (State.group a1 a2 a3) := by
  delta State.group
  with_reducible repeat' first
    | assumption
    | apply State.refuseMessage_keeps
    | apply State.answerGroup_keeps
    | apply State.groupView_keeps
    | apply State.applyPlain_keeps
    | apply State.collect_keeps
    | apply State.writeCmd_keeps
    | (extract_lets +onlyGivenNames x; first | (refine keeps_have (x := x) ?_ ?_; (on_goal 1 => dsimp -zeta only [x]; clear x); (on_goal 2 => (intro _; clear_value x; rename' x => y))) | (clear_value x; rename' x => y))
    | refine keeps_fold _ _ ?_ ?_
    | (intro; try beta_reduce)
    | refine keeps_ite ?_ ?_
    | split
    | apply_assumption

theorem State.romMessage_keeps {r : State} {a1} {a2} {a3} (h1 : Keeps r a1) : Keeps r (State.romMessage a1 a2 a3) := by
  delta State.romMessage
  with_reducible repeat' first
    | assumption
    | apply State.refuseMessage_keeps
    | apply State.readAt_keeps
    | apply State.writeAt_keeps
    | (intro; try beta_reduce)
    | refine keeps_ite ?_ ?_
    | split
    | apply_assumption

theorem State.groupAt_keeps {r : State} {a1} {a2} {a3} (h1 : Keeps r a1) : Keeps r (State.groupAt a1 a2 a3) := by
  delta State.groupAt
  with_reducible repeat' first
    | assumption
    | apply State.romMessage_keeps
    | apply State.group_keeps
    | refine keeps_fold _ _ ?_ ?_
    | (intro; try beta_reduce)
    | refine keeps_ite ?_ ?_
    | split
    | apply_assumption

theorem execAtomicGroup_keeps {r : State} {a1} {a2} {a3} (h3 : Keeps r a3) : OutKeeps r (execAtomicGroup a1 a2 a3) := by
  delta execAtomicGroup
  with_reducible repeat' first
    | assumption
    | apply State.groupAt_keeps
    | (intro; try beta_reduce)
    | refine out_next ?_
    | apply_assumption

theorem State.hotJumpWrite_keeps {r : State} {a1} {a2} (h1 : Keeps r a1) : Keeps r (State.hotJumpWrite a1 a2) := by
  delta State.hotJumpWrite
  with_reducible repeat' first
    | assumption
    | apply State.hotRefused_keeps
    | apply State.access_keeps
    | apply State.cmdHostJump_keeps
    | (extract_lets +onlyGivenNames x; clear_value x; rename' x => y)
    | (intro; try beta_reduce)
    | exact Keeps.upd (by assumption)
    | refine keeps_ite ?_ ?_
    | split
    | apply_assumption

theorem State.hotWrite_keeps {r : State} {a1} {a2} {a3} {a4} {a5} (h1 : Keeps r a1) : Keeps r (State.hotWrite a1 a2 a3 a4 a5) := by
  delta State.hotWrite
  with_reducible repeat' first
    | assumption
    | apply State.hotJumpWrite_keeps
    | apply State.hotRefused_keeps
    | apply State.access_keeps
    | apply State.writeKey_keeps
    | (extract_lets +onlyGivenNames x; clear_value x; rename' x => y)
    | (intro; try beta_reduce)
    | refine keeps_ite ?_ ?_
    | split
    | apply_assumption

theorem execHotWindowWrite_keeps {r : State} {a1} {a2} {a3} {a4} {a5} (h5 : Keeps r a5) : OutKeeps r (execHotWindowWrite a1 a2 a3 a4 a5) := by
  delta execHotWindowWrite
  with_reducible repeat' first
    | assumption
    | apply within_keeps
    | apply State.hotWrite_keeps
    | (intro; try beta_reduce)
    | refine out_next ?_
    | refine out_within ?_
    | refine out_ite ?_ ?_
    | refine keeps_ite ?_ ?_
    | split
    | apply_assumption

end Sys2Proof.Machine
end

