-- ==== Sys2Proof/Laws/KeepsMicrowords.lean ====
section
/-! SUPPORT. What the operations of Machine/Microwords.lean keep. -/

set_option linter.all false

namespace Sys2Proof.Machine

theorem State.micro_keeps {r : State} {a1} {a2} {a3} (h1 : Keeps r a1) : OutKeeps r (State.micro a1 a2 a3) := by
  delta State.micro
  with_reducible repeat' first
    | assumption
    | apply within_keeps
    | apply State.runWord_keeps
    | (intro; try beta_reduce)
    | refine out_next ?_
    | refine out_within ?_
    | apply_assumption

theorem execAdv_keeps {r : State} {a1} {a2} {a3} (h3 : Keeps r a3) : OutKeeps r (execAdv a1 a2 a3) := by
  delta execAdv
  with_reducible repeat' first
    | assumption
    | apply State.micro_keeps
    | (intro; try beta_reduce)
    | refine out_next ?_
    | apply_assumption

theorem execSegm_keeps {r : State} {a1} {a2} {a3} {a4} {a5} {a6} (h6 : Keeps r a6) : OutKeeps r (execSegm a1 a2 a3 a4 a5 a6) := by
  delta execSegm
  with_reducible repeat' first
    | assumption
    | apply State.micro_keeps
    | (intro; try beta_reduce)
    | refine out_next ?_
    | apply_assumption

theorem execTrigTrigout_keeps {r : State} {a1} {a2} {a3} {a4} (h4 : Keeps r a4) : OutKeeps r (execTrigTrigout a1 a2 a3 a4) := by
  delta execTrigTrigout
  with_reducible repeat' first
    | assumption
    | apply State.micro_keeps
    | (intro; try beta_reduce)
    | refine out_next ?_
    | apply_assumption

theorem execTrigTiuArm_keeps {r : State} {a1} {a2} {a3} {a4} (h4 : Keeps r a4) : OutKeeps r (execTrigTiuArm a1 a2 a3 a4) := by
  delta execTrigTiuArm
  with_reducible repeat' first
    | assumption
    | apply State.micro_keeps
    | (intro; try beta_reduce)
    | refine out_next ?_
    | apply_assumption

theorem execTrigAdcStart_keeps {r : State} {a1} {a2} {a3} {a4} (h4 : Keeps r a4) : OutKeeps r (execTrigAdcStart a1 a2 a3 a4) := by
  delta execTrigAdcStart
  with_reducible repeat' first
    | assumption
    | apply State.micro_keeps
    | (intro; try beta_reduce)
    | refine out_next ?_
    | apply_assumption

theorem execTrigDacLoad_keeps {r : State} {a1} {a2} {a3} {a4} (h4 : Keeps r a4) : OutKeeps r (execTrigDacLoad a1 a2 a3 a4) := by
  delta execTrigDacLoad
  with_reducible repeat' first
    | assumption
    | apply State.micro_keeps
    | (intro; try beta_reduce)
    | refine out_next ?_
    | apply_assumption

theorem execTrigAcqArm_keeps {r : State} {a1} {a2} {a3} {a4} (h4 : Keeps r a4) : OutKeeps r (execTrigAcqArm a1 a2 a3 a4) := by
  delta execTrigAcqArm
  with_reducible repeat' first
    | assumption
    | apply State.micro_keeps
    | (intro; try beta_reduce)
    | refine out_next ?_
    | apply_assumption

theorem execTrigRing_keeps {r : State} {a1} {a2} {a3} {a4} (h4 : Keeps r a4) : OutKeeps r (execTrigRing a1 a2 a3 a4) := by
  delta execTrigRing
  with_reducible repeat' first
    | assumption
    | apply State.micro_keeps
    | (intro; try beta_reduce)
    | refine out_next ?_
    | apply_assumption

theorem execCapcFullcap_keeps {r : State} {a1} {a2} {a3} {a4} {a5} {a6} (h6 : Keeps r a6) : OutKeeps r (execCapcFullcap a1 a2 a3 a4 a5 a6) := by
  delta execCapcFullcap
  with_reducible repeat' first
    | assumption
    | apply State.micro_keeps
    | (intro; try beta_reduce)
    | refine out_next ?_
    | apply_assumption

theorem execCapcJudge_keeps {r : State} {a1} {a2} {a3} {a4} {a5} {a6} (h6 : Keeps r a6) : OutKeeps r (execCapcJudge a1 a2 a3 a4 a5 a6) := by
  delta execCapcJudge
  with_reducible repeat' first
    | assumption
    | apply State.micro_keeps
    | (intro; try beta_reduce)
    | refine out_next ?_
    | apply_assumption

theorem execCapcSig_keeps {r : State} {a1} {a2} {a3} {a4} {a5} {a6} (h6 : Keeps r a6) : OutKeeps r (execCapcSig a1 a2 a3 a4 a5 a6) := by
  delta execCapcSig
  with_reducible repeat' first
    | assumption
    | apply State.micro_keeps
    | (intro; try beta_reduce)
    | refine out_next ?_
    | apply_assumption

theorem execFlag_keeps {r : State} {a1} {a2} {a3} {a4} {a5} {a6} {a7} {a8} (h8 : Keeps r a8) : OutKeeps r (execFlag a1 a2 a3 a4 a5 a6 a7 a8) := by
  delta execFlag
  with_reducible repeat' first
    | assumption
    | apply State.micro_keeps
    | (intro; try beta_reduce)
    | refine out_next ?_
    | apply_assumption

theorem execLoop_keeps {r : State} {a1} {a2} {a3} {a4} {a5} (h5 : Keeps r a5) : OutKeeps r (execLoop a1 a2 a3 a4 a5) := by
  delta execLoop
  with_reducible repeat' first
    | assumption
    | apply State.micro_keeps
    | (intro; try beta_reduce)
    | refine out_next ?_
    | apply_assumption

theorem execHalt_keeps {r : State} {a1} {a2} {a3} (h3 : Keeps r a3) : OutKeeps r (execHalt a1 a2 a3) := by
  delta execHalt
  with_reducible repeat' first
    | assumption
    | apply State.micro_keeps
    | (intro; try beta_reduce)
    | refine out_next ?_
    | apply_assumption

theorem execJmp_keeps {r : State} {a1} {a2} {a3} {a4} {a5} (h5 : Keeps r a5) : OutKeeps r (execJmp a1 a2 a3 a4 a5) := by
  delta execJmp
  with_reducible repeat' first
    | assumption
    | apply State.micro_keeps
    | (intro; try beta_reduce)
    | refine out_next ?_
    | apply_assumption

theorem execCall_keeps {r : State} {a1} {a2} {a3} {a4} {a5} (h5 : Keeps r a5) : OutKeeps r (execCall a1 a2 a3 a4 a5) := by
  delta execCall
  with_reducible repeat' first
    | assumption
    | apply State.micro_keeps
    | (intro; try beta_reduce)
    | refine out_next ?_
    | apply_assumption

theorem execRet_keeps {r : State} {a1} {a2} {a3} {a4} (h4 : Keeps r a4) : OutKeeps r (execRet a1 a2 a3 a4) := by
  delta execRet
  with_reducible repeat' first
    | assumption
    | apply State.micro_keeps
    | (intro; try beta_reduce)
    | refine out_next ?_
    | apply_assumption

theorem execLend_keeps {r : State} {a1} {a2} {a3} {a4} (h4 : Keeps r a4) : OutKeeps r (execLend a1 a2 a3 a4) := by
  delta execLend
  with_reducible repeat' first
    | assumption
    | apply State.micro_keeps
    | (intro; try beta_reduce)
    | refine out_next ?_
    | apply_assumption

theorem execPref_keeps {r : State} {a1} {a2} {a3} (h3 : Keeps r a3) : OutKeeps r (execPref a1 a2 a3) := by
  delta execPref
  with_reducible repeat' first
    | assumption
    | apply State.micro_keeps
    | (intro; try beta_reduce)
    | refine out_next ?_
    | apply_assumption

theorem execSync_keeps {r : State} {a1} {a2} {a3} {a4} {a5} (h5 : Keeps r a5) : OutKeeps r (execSync a1 a2 a3 a4 a5) := by
  delta execSync
  with_reducible repeat' first
    | assumption
    | apply State.micro_keeps
    | (intro; try beta_reduce)
    | refine out_next ?_
    | apply_assumption

theorem execMatchStart_keeps {r : State} {a1} {a2} {a3} {a4} {a5} (h5 : Keeps r a5) : OutKeeps r (execMatchStart a1 a2 a3 a4 a5) := by
  delta execMatchStart
  with_reducible repeat' first
    | assumption
    | apply State.micro_keeps
    | (intro; try beta_reduce)
    | refine out_next ?_
    | apply_assumption

theorem execWaittrig_keeps {r : State} {a1} {a2} {a3} {a4} (h4 : Keeps r a4) : OutKeeps r (execWaittrig a1 a2 a3 a4) := by
  delta execWaittrig
  with_reducible repeat' first
    | assumption
    | apply State.micro_keeps
    | (intro; try beta_reduce)
    | refine out_next ?_
    | apply_assumption

theorem execWaittime_keeps {r : State} {a1} {a2} {a3} (h3 : Keeps r a3) : OutKeeps r (execWaittime a1 a2 a3) := by
  delta execWaittime
  with_reducible repeat' first
    | assumption
    | apply State.micro_keeps
    | (intro; try beta_reduce)
    | refine out_next ?_
    | apply_assumption

end Sys2Proof.Machine
end

