-- ==== Sys2Proof/Laws/KeepsResults.lean ====
section
/-! SUPPORT. What the operations of Machine/Results.lean keep. -/

set_option linter.all false

namespace Sys2Proof.Machine

theorem State.writeRecord_keeps {r : State} {a1} {a2} (h1 : Keeps r a1) : Keeps r (State.writeRecord a1 a2) := by
  delta State.writeRecord
  with_reducible repeat' first
    | assumption
    | apply State.emit_keeps
    | apply State.count_keeps
    | (extract_lets +onlyGivenNames x; first | (refine keeps_have (x := x) ?_ ?_; (on_goal 1 => dsimp -zeta only [x]; clear x); (on_goal 2 => (intro _; clear_value x; rename' x => y))) | (clear_value x; rename' x => y))
    | (intro; try beta_reduce)
    | exact Keeps.upd (by assumption)
    | apply_assumption

theorem execResultRecord_keeps {r : State} {a1} (h1 : Keeps r a1) : OutKeeps r (execResultRecord a1) := by
  delta execResultRecord
  with_reducible repeat' first
    | assumption
    | apply State.count_keeps
    | apply State.fault_keeps
    | apply State.writeRecord_keeps
    | (extract_lets +onlyGivenNames x; first | ((first | refine keeps_have (x := x) ?_ ?_ | refine keeps_have_out (x := x) ?_ ?_); (on_goal 1 => dsimp -zeta only [x]; clear x); (on_goal 2 => (intro _; clear_value x; rename' x => y))) | (clear_value x; rename' x => y))
    | (intro; try beta_reduce)
    | refine out_next ?_
    | exact out_fault
    | exact Keeps.upd (by assumption)
    | refine out_ite ?_ ?_
    | refine keeps_ite ?_ ?_
    | split
    | apply_assumption

theorem execRingConsumerWrite_keeps {r : State} {a1} {a2} {a3} (h3 : Keeps r a3) : OutKeeps r (execRingConsumerWrite a1 a2 a3) := by
  delta execRingConsumerWrite
  with_reducible repeat' first
    | assumption
    | apply State.accessPlain_keeps
    | (intro; try beta_reduce)
    | refine out_next ?_
    | apply_assumption

theorem execRingBaseWrite_keeps {r : State} {a1} {a2} {a3} (h3 : Keeps r a3) : OutKeeps r (execRingBaseWrite a1 a2 a3) := by
  delta execRingBaseWrite
  with_reducible repeat' first
    | assumption
    | apply State.accessPlain_keeps
    | (intro; try beta_reduce)
    | refine out_next ?_
    | apply_assumption

theorem State.noticeTaken_keeps {r : State} {a1} {a2} (h1 : Keeps r a1) : Keeps r (State.noticeTaken a1 a2) := by
  delta State.noticeTaken
  with_reducible repeat' first
    | assumption
    | (intro; try beta_reduce)
    | exact Keeps.upd (by assumption)
    | refine keeps_ite ?_ ?_
    | split
    | apply_assumption

theorem State.noticeLost_keeps {r : State} {a1} (h1 : Keeps r a1) : Keeps r (State.noticeLost a1) := by
  delta State.noticeLost
  with_reducible repeat' first
    | assumption
    | apply State.fault_keeps
    | apply State.count_keeps
    | (intro; try beta_reduce)
    | apply_assumption

theorem State.toEventRing_keeps {r : State} {a1} {a2} {a3} (h1 : Keeps r a1) : Keeps r (State.toEventRing a1 a2 a3) := by
  delta State.toEventRing
  with_reducible repeat' first
    | assumption
    | apply State.noticeLost_keeps
    | apply State.irq_keeps
    | apply State.count_keeps
    | apply State.emit_keeps
    | (extract_lets +onlyGivenNames x; clear_value x; rename' x => y)
    | (intro; try beta_reduce)
    | refine keeps_ite ?_ ?_
    | split
    | apply_assumption

theorem State.toSession_keeps {r : State} {a1} {a2} {a3} (h1 : Keeps r a1) : Keeps r (State.toSession a1 a2 a3) := by
  delta State.toSession
  with_reducible repeat' first
    | assumption
    | apply State.noticeLost_keeps
    | apply State.emit_keeps
    | (extract_lets +onlyGivenNames x; first | (refine keeps_have_fun (x := x) ?_ ?_; (on_goal 1 => dsimp -zeta only [x]; clear x); (on_goal 2 => (intro _; clear_value x; rename' x => y))) | (clear_value x; rename' x => y))
    | (intro; try beta_reduce)
    | exact Keeps.upd (by assumption)
    | refine keeps_ite ?_ ?_
    | split
    | apply_assumption

theorem execNotify_keeps {r : State} {a1} {a2} {a3} (h3 : Keeps r a3) : OutKeeps r (execNotify a1 a2 a3) := by
  delta execNotify
  with_reducible repeat' first
    | assumption
    | apply State.noticeTaken_keeps
    | apply State.toEventRing_keeps
    | apply State.toSession_keeps
    | apply State.noticeLost_keeps
    | (extract_lets +onlyGivenNames x; first | ((first | refine keeps_have (x := x) ?_ ?_ | refine keeps_have_out (x := x) ?_ ?_); (on_goal 1 => dsimp -zeta only [x]; clear x); (on_goal 2 => (intro _; clear_value x; rename' x => y))) | (clear_value x; rename' x => y))
    | (intro; try beta_reduce)
    | refine out_next ?_
    | exact out_fault
    | refine out_ite ?_ ?_
    | refine keeps_ite ?_ ?_
    | split
    | apply_assumption

theorem execEventConsumerWrite_keeps {r : State} {a1} {a2} {a3} (h3 : Keeps r a3) : OutKeeps r (execEventConsumerWrite a1 a2 a3) := by
  delta execEventConsumerWrite
  with_reducible repeat' first
    | assumption
    | apply State.accessPlain_keeps
    | (intro; try beta_reduce)
    | refine out_next ?_
    | apply_assumption

theorem execInterruptCoalescing_keeps {r : State} {a1} {a2} (h2 : Keeps r a2) : OutKeeps r (execInterruptCoalescing a1 a2) := by
  delta execInterruptCoalescing
  with_reducible repeat' first
    | assumption
    | apply State.irq_keeps
    | (intro; try beta_reduce)
    | refine out_next ?_
    | exact Keeps.upd (by assumption)
    | refine out_ite ?_ ?_
    | refine keeps_ite ?_ ?_
    | split
    | apply_assumption

end Sys2Proof.Machine
end

