-- ==== Sys2Proof/Laws/KeepsSessions.lean ====
section
/-! SUPPORT. What the operations of Machine/Sessions.lean keep. -/

set_option linter.all false

namespace Sys2Proof.Machine

theorem State.openSession_keeps {r : State} {a1} {a2} {a3} {a4} (h1 : Keeps r a1) : Keeps r (State.openSession a1 a2 a3 a4).2 := by
  delta State.openSession
  with_reducible repeat' first
    | assumption
    | apply State.refuseMessage_keeps
    | apply State.free_keeps
    | apply State.answerWith_keeps
    | apply State.refreshSessions_keeps
    | (extract_lets +onlyGivenNames x; first | ((first | refine keeps_have (x := x) ?_ ?_ | refine keeps_have (x := x.2) ?_ ?_); (on_goal 1 => dsimp -zeta only [x]; clear x); (on_goal 2 => (intro _; clear_value x; rename' x => y))) | (clear_value x; rename' x => y))
    | (intro; try beta_reduce)
    | exact Keeps.upd (by assumption)
    | refine keeps_ite ?_ ?_
    | refine keeps_ite2 ?_ ?_
    | split
    | apply_assumption

theorem execSessionOpen_keeps {r : State} {a1} {a2} {a3} {a4} (h4 : Keeps r a4) : OutKeeps r (execSessionOpen a1 a2 a3 a4) := by
  delta execSessionOpen
  with_reducible repeat' first
    | assumption
    | apply State.openSession_keeps
    | (intro; try beta_reduce)
    | refine out_next ?_
    | refine out_ite ?_ ?_
    | refine keeps_ite ?_ ?_
    | split
    | apply_assumption

theorem State.putSession_keeps {r : State} {a1} {a2} (h1 : Keeps r a1) : Keeps r (State.putSession a1 a2) := by
  delta State.putSession
  with_reducible repeat' first
    | assumption
    | (intro; try beta_reduce)
    | exact Keeps.upd (by assumption)
    | refine keeps_ite ?_ ?_
    | split
    | apply_assumption

theorem State.confirm_keeps {r : State} {a1} {a2} {a3} (h1 : Keeps r a1) : Keeps r (State.confirm a1 a2 a3) := by
  delta State.confirm
  with_reducible repeat' first
    | assumption
    | apply State.refuseMessage_keeps
    | apply State.answerWith_keeps
    | apply State.putSession_keeps
    | (intro; try beta_reduce)
    | refine keeps_ite ?_ ?_
    | split
    | apply_assumption

theorem execSessionConfirm_keeps {r : State} {a1} {a2} {a3} (h3 : Keeps r a3) : OutKeeps r (execSessionConfirm a1 a2 a3) := by
  delta execSessionConfirm
  with_reducible repeat' first
    | assumption
    | apply State.confirm_keeps
    | (intro; try beta_reduce)
    | refine out_next ?_
    | refine out_ite ?_ ?_
    | refine keeps_ite ?_ ?_
    | split
    | apply_assumption

theorem State.closeOne_keeps {r : State} {a1} {a2} (h1 : Keeps r a1) : Keeps r (State.closeOne a1 a2) := by
  delta State.closeOne
  with_reducible repeat' first
    | assumption
    | apply State.refuseMessage_keeps
    | apply State.answerWith_keeps
    | apply State.closeSessions_keeps
    | (intro; try beta_reduce)
    | split
    | apply_assumption

theorem execSessionClose_keeps {r : State} {a1} {a2} (h2 : Keeps r a2) : OutKeeps r (execSessionClose a1 a2) := by
  delta execSessionClose
  with_reducible repeat' first
    | assumption
    | apply State.closeOne_keeps
    | (intro; try beta_reduce)
    | refine out_next ?_
    | refine out_ite ?_ ?_
    | refine keeps_ite ?_ ?_
    | split
    | apply_assumption

theorem execSessionIdleTimeout_keeps {r : State} {a1} {a2} (h2 : Keeps r a2) : OutKeeps r (execSessionIdleTimeout a1 a2) := by
  delta execSessionIdleTimeout
  with_reducible repeat' first
    | assumption
    | apply State.closeSessions_keeps
    | (intro; try beta_reduce)
    | refine out_next ?_
    | refine out_ite ?_ ?_
    | refine keeps_ite ?_ ?_
    | split
    | apply_assumption

theorem State.message_keeps {r : State} {a1} {a2} {a3} {a4} {a5} (h1 : Keeps r a1) : Keeps r (State.message a1 a2 a3 a4 a5) := by
  delta State.message
  extract_lets key bad
  have eb : ∀ c, Keeps r (bad c) := fun c => State.refuseMessage_keeps h1
  clear_value bad
  split
  · exact eb _
  split
  · exact State.romMessage_keeps h1
  split
  · exact State.readAt_keeps h1
  · exact State.writeAt_keeps h1
  · exact State.subscribeAt_keeps h1
  · exact State.unsubscribeAt_keeps h1
  · split
    · exact State.openSession_keeps h1
    · exact eb _
  · split
    · exact State.confirm_keeps h1
    · exact eb _
    · exact eb _
  · split
    · exact State.closeOne_keeps h1
    · exact eb _
    · exact eb _

theorem State.runBatch_keeps {r : State} {a1} {a2} {a3} {a4} (h1 : Keeps r a1) : Keeps r (State.runBatch a1 a2 a3 a4) := by
  delta State.runBatch
  with_reducible repeat' first
    | assumption
    | apply State.groupAt_keeps
    | apply State.message_keeps
    | (extract_lets +onlyGivenNames x; refine keeps_have (x := x) ?_ ?_; (on_goal 1 => dsimp -zeta only [x]; clear x); (on_goal 2 => (intro _; clear_value x; rename' x => y)))
    | refine keeps_fold _ _ ?_ ?_
    | (intro; try beta_reduce)
    | exact Keeps.upd (by assumption)
    | refine keeps_ite ?_ ?_
    | split
    | apply_assumption

theorem State.refuseBatch_keeps {r : State} {a1} {a2} {a3} (h1 : Keeps r a1) : Keeps r (State.refuseBatch a1 a2 a3) := by
  delta State.refuseBatch
  with_reducible repeat' first
    | assumption
    | apply State.refuseMessage_keeps
    | refine keeps_fold _ _ ?_ ?_
    | (intro; try beta_reduce)
    | exact Keeps.upd (by assumption)
    | apply_assumption

theorem State.reply_keeps {r : State} {a1} {a2} {a3} {a4} {a5} {a6} (h1 : Keeps r a1) : Keeps r (State.reply a1 a2 a3 a4 a5 a6) := by
  delta State.reply
  with_reducible repeat' first
    | assumption
    | apply State.irq_keeps
    | apply State.emit_keeps
    | (intro; try beta_reduce)
    | exact Keeps.upd (by assumption)
    | refine keeps_ite ?_ ?_
    | split
    | apply_assumption

theorem State.replyPlain_keeps {r : State} {a1} {a2} {a3} (h1 : Keeps r a1) : Keeps r (State.replyPlain a1 a2 a3) := by
  delta State.replyPlain
  with_reducible repeat' first
    | assumption
    | apply State.reply_keeps
    | (intro; try beta_reduce)
    | apply_assumption

theorem State.replySession_keeps {r : State} {a1} {a2} {a3} {a4} (h1 : Keeps r a1) (h2 : Keeps r a2) : Keeps r (State.replySession a1 a2 a3 a4) := by
  delta State.replySession
  with_reducible repeat' first
    | assumption
    | apply State.reply_keeps
    | (extract_lets +onlyGivenNames x; clear_value x; rename' x => y)
    | (intro; try beta_reduce)
    | apply_assumption

theorem State.rejectBatch_keeps {r : State} {a1} {a2} {a3} {a4} {a5} (h1 : Keeps r a1) : Keeps r (State.rejectBatch a1 a2 a3 a4 a5) := by
  delta State.rejectBatch
  with_reducible repeat' first
    | assumption
    | apply State.authFailed_keeps
    | apply State.count_keeps
    | apply State.replyPlain_keeps
    | apply State.refuseBatch_keeps
    | (extract_lets +onlyGivenNames x; refine keeps_have (x := x) ?_ ?_; (on_goal 1 => dsimp -zeta only [x]; clear x); (on_goal 2 => (intro _; clear_value x; rename' x => y)))
    | (intro; try beta_reduce)
    | refine keeps_ite ?_ ?_
    | split
    | apply_assumption

theorem State.acceptBatch_keeps {r : State} {a1} {a2} {a3} (h1 : Keeps r a1) : Keeps r (State.acceptBatch a1 a2 a3) := by
  delta State.acceptBatch
  with_reducible repeat' first
    | assumption
    | apply State.runBatch_keeps
    | apply State.putSession_keeps
    | apply State.replySession_keeps
    | (extract_lets +onlyGivenNames x; first | (refine keeps_have (x := x) ?_ ?_; (on_goal 1 => dsimp -zeta only [x]; clear x); (on_goal 2 => (intro _; clear_value x; rename' x => y))) | (clear_value x; rename' x => y))
    | (intro; try beta_reduce)
    | split
    | apply_assumption

theorem State.sessionBatch_keeps {r : State} {a1} {a2} {a3} (h1 : Keeps r a1) : Keeps r (State.sessionBatch a1 a2 a3) := by
  delta State.sessionBatch
  with_reducible repeat' first
    | assumption
    | apply State.rejectBatch_keeps
    | apply State.replySession_keeps
    | apply State.replyPlain_keeps
    | apply State.refuseBatch_keeps
    | apply State.acceptBatch_keeps
    | (intro; try beta_reduce)
    | exact Keeps.upd (by assumption)
    | refine keeps_ite ?_ ?_
    | split
    | apply_assumption

theorem State.framed_keeps {r : State} {a1} {a2} {a3} (h1 : Keeps r a1) : Keeps r (State.framed a1 a2 a3) := by
  delta State.framed
  with_reducible repeat' first
    | assumption
    | apply State.replyPlain_keeps
    | apply State.refuseBatch_keeps
    | apply State.runBatch_keeps
    | apply State.sessionBatch_keeps
    | (extract_lets +onlyGivenNames x; first | (refine keeps_have (x := x) ?_ ?_; (on_goal 1 => dsimp -zeta only [x]; clear x); (on_goal 2 => (intro _; clear_value x; rename' x => y))) | (clear_value x; rename' x => y))
    | (intro; try beta_reduce)
    | refine keeps_ite ?_ ?_
    | split
    | apply_assumption

theorem execDictBatch_keeps {r : State} {a1} {a2} (h2 : Keeps r a2) : OutKeeps r (execDictBatch a1 a2) := by
  delta execDictBatch
  with_reducible repeat' first
    | assumption
    | apply State.framed_keeps
    | (intro; try beta_reduce)
    | refine out_next ?_
    | refine out_ite ?_ ?_
    | refine keeps_ite ?_ ?_
    | split
    | apply_assumption

theorem State.overrun_keeps {r : State} {a1} (h1 : Keeps r a1) : Keeps r (State.overrun a1) := by
  delta State.overrun
  with_reducible repeat' first
    | assumption
    | apply State.fault_keeps
    | apply State.count_keeps
    | (intro; try beta_reduce)
    | apply_assumption

theorem State.ringDoorbell_keeps {r : State} {a1} {a2} {a3} {a4} (h1 : Keeps r a1) : Keeps r (State.ringDoorbell a1 a2 a3 a4) := by
  delta State.ringDoorbell
  with_reducible repeat' first
    | assumption
    | apply State.overrun_keeps
    | apply State.framed_keeps
    | apply State.runBatch_keeps
    | apply State.reply_keeps
    | (extract_lets +onlyGivenNames x; refine keeps_have (x := x) ?_ ?_; (on_goal 1 => dsimp -zeta only [x]; clear x); (on_goal 2 => (intro _; clear_value x; rename' x => y)))
    | (intro; try beta_reduce)
    | refine keeps_ite ?_ ?_
    | split
    | apply_assumption

theorem execMailboxDoorbell_keeps {r : State} {a1} {a2} {a3} {a4} (h4 : Keeps r a4) : OutKeeps r (execMailboxDoorbell a1 a2 a3 a4) := by
  delta execMailboxDoorbell
  with_reducible repeat' first
    | assumption
    | apply State.ringDoorbell_keeps
    | (intro; try beta_reduce)
    | refine out_next ?_
    | refine out_ite ?_ ?_
    | refine keeps_ite ?_ ?_
    | split
    | apply_assumption

end Sys2Proof.Machine
end

