-- ==== Sys2Proof/Laws/KeepsDispatch.lean ====
section
/-! SUPPORT. What the operations of Machine/Dispatch.lean keep. -/

set_option linter.all false

namespace Sys2Proof.Machine

theorem exec_keeps {r : State} {a1} {a2} (h2 : Keeps r a2) : OutKeeps r (exec a1 a2) := by
  delta exec
  with_reducible repeat' first
    | assumption
    | apply execDictBatch_keeps
    | apply execMailboxDoorbell_keeps
    | apply execAtomicGroup_keeps
    | apply execRead_keeps
    | apply execWrite_keeps
    | apply execSubscribe_keeps
    | apply execUnsubscribe_keeps
    | apply execSessionOpen_keeps
    | apply execSessionConfirm_keeps
    | apply execSessionClose_keeps
    | apply execSessionIdleTimeout_keeps
    | apply execNotify_keeps
    | apply execHotWindowWrite_keeps
    | apply execBar0StrayWrite_keeps
    | apply execBar2Write_keeps
    | apply execBar2Read_keeps
    | apply execDictPersist_keeps
    | apply execDictPersistDone_keeps
    | apply execDictRevert_keeps
    | apply execRequestTrain_keeps
    | apply execRequestIdle_keeps
    | apply execRequestLoad_keeps
    | apply execRequestArmed_keeps
    | apply execRequestDiagnose_keeps
    | apply execRequestCalibrate_keeps
    | apply execRequestService_keeps
    | apply execRequestQuiesce_keeps
    | apply execModeChangeDone_keeps
    | apply execLoadCheck_keeps
    | apply execLoadChecksDone_keeps
    | apply execCalibrateAutoExit_keeps
    | apply execReturnToArmed_keeps
    | apply execSliceDiagRequest_keeps
    | apply execDiagStart_keeps
    | apply execDiagStop_keeps
    | apply execDiagRunDone_keeps
    | apply execBurstStart_keeps
    | apply execBurstLaunch_keeps
    | apply execBurstStop_keeps
    | apply execAuditDrainEnd_keeps
    | apply execAuditDrainTimeout_keeps
    | apply execDispatch_keeps
    | apply execPreempt_keeps
    | apply execSpanArrival_keeps
    | apply execSpanCreditReturn_keeps
    | apply execFetchComplete_keeps
    | apply execCycleStart_keeps
    | apply execAdv_keeps
    | apply execSegm_keeps
    | apply execTrigTrigout_keeps
    | apply execTrigTiuArm_keeps
    | apply execTrigAdcStart_keeps
    | apply execTrigDacLoad_keeps
    | apply execTrigAcqArm_keeps
    | apply execTrigRing_keeps
    | apply execCapcFullcap_keeps
    | apply execCapcJudge_keeps
    | apply execCapcSig_keeps
    | apply execFlag_keeps
    | apply execLoop_keeps
    | apply execHalt_keeps
    | apply execJmp_keeps
    | apply execCall_keeps
    | apply execRet_keeps
    | apply execLend_keeps
    | apply execPref_keeps
    | apply execSync_keeps
    | apply execMatchStart_keeps
    | apply execMatchExit_keeps
    | apply execWaittrig_keeps
    | apply execWaittrigTimeout_keeps
    | apply execWaittime_keeps
    | apply execWaittimeWake_keeps
    | apply execSyncToken_keeps
    | apply execHostJump_keeps
    | apply execHostJumpTaken_keeps
    | apply execHostTrig_keeps
    | apply execResultRecord_keeps
    | apply execRingConsumerWrite_keeps
    | apply execRingBaseWrite_keeps
    | apply execEventConsumerWrite_keeps
    | apply execDmaDoorbell_keeps
    | apply execDmaRun_keeps
    | apply execDmaStop_keeps
    | apply execDescBaseWrite_keeps
    | apply execDescriptorClose_keeps
    | apply execDmaHostError_keeps
    | apply execHostIslandReset_keeps
    | apply execPcieLinkDown_keeps
    | apply execFernAlign_keeps
    | apply execFernAlignLocal_keeps
    | apply execFernAlignTimeout_keeps
    | apply execFsyncPulse_keeps
    | apply execFernReturn_keeps
    | apply execFrefLoss_keeps
    | apply execRingForm_keeps
    | apply execRingFormTimeout_keeps
    | apply execFlitForm_keeps
    | apply execFlitMeasure_keeps
    | apply execFlitStartReq_keeps
    | apply execFlitLaunch_keeps
    | apply execFlitCond_keeps
    | apply execFlitToken_keeps
    | apply execFlitTrig_keeps
    | apply execFlitBreak_keeps
    | apply execFlitErrored_keeps
    | apply execRingDue_keeps
    | apply execRingLinkDown_keeps
    | apply execTriginEdge_keeps
    | apply execTrigoutPulse_keeps
    | apply execTrigoutEnd_keeps
    | apply execTiuArm_keeps
    | apply execTiuDisarm_keeps
    | apply execTiuEdge_keeps
    | apply execTiuGateEnd_keeps
    | apply execTiuTimeout_keeps
    | apply execTiuHoldoffEnd_keeps
    | apply execAdcStart_keeps
    | apply execAdcStop_keeps
    | apply execAdcConversion_keeps
    | apply execAcqArm_keeps
    | apply execAcqDisarm_keeps
    | apply execAcqForce_keeps
    | apply execAcqSample_keeps
    | apply execAcqGroupFire_keeps
    | apply execAcqRearmEnd_keeps
    | apply execAcqRelease_keeps
    | apply execFailRateInterval_keeps
    | apply execDieTempSample_keeps
    | apply execDacLoad_keeps
    | apply execDacParkWrite_keeps
    | apply execDacCompliance_keeps
    | apply execDacModulator_keeps
    | apply execSlotArm_keeps
    | apply execSlotCancel_keeps
    | apply execSlotLaunch_keeps
    | apply execSlotAction_keeps
    | apply execTimeLatch_keeps
    | apply execTimeStepPending_keeps
    | apply execTimeStepSet_keeps
    | apply execPtpSync_keeps
    | apply execPtpMessage_keeps
    | apply execHoldoverTimeout_keeps
    | apply execPtmCorr_keeps
    | apply execPtmResponse_keeps
    | apply execPtmTimeout_keeps
    | apply execEthFrame_keeps
    | apply execEthLinkDown_keeps
    | apply execReqCmd_keeps
    | apply execCalCancel_keeps
    | apply execRoutineStart_keeps
    | apply execConditionalWaitEnd_keeps
    | apply execRoutineCommit_keeps
    | apply execPostCommitEnd_keeps
    | apply execRoutineOverrun_keeps
    | apply execReqDeadline_keeps
    | apply execDriftTracking_keeps
    | apply execDriftCorrectionApply_keeps
    | apply execDriftLimit_keeps
    | apply execEyeAggregation_keeps
    | apply execMarginError_keeps
    | apply execLaneTxFault_keeps
    | apply execLaneRxOpen_keeps
    | apply execSlicePllUnlock_keeps
    | apply execSlicePllLock_keeps
    | apply execAdcReferenceCheck_keeps
    | apply execNvmVerify_keeps
    | apply execFaultRaise_keeps
    | apply execFaultCauseClear_keeps
    | apply execFaultCauseRead_keeps
    | apply execFirstFaultRead_keeps
    | apply execFfClear_keeps
    | apply execFaultInject_keeps
    | apply execFaultInjectTimeout_keeps
    | apply execQuietPeriod_keeps
    | apply execSafeUnlatch_keeps
    | apply execGuardCommit_keeps
    | apply execGuardCommitDone_keeps
    | apply execGuardUnlocked_keeps
    | apply execWatchdogKick_keeps
    | apply execWatchdogExpiry_keeps
    | apply execBbNote_keeps
    | apply execLedgerSecond_keeps
    | apply execLedgerSnapshot_keeps
    | apply execFwActivate_keeps
    | apply execPowerOnReset_keeps
    | apply execResetNLow_keeps
    | apply execDeviceReset_keeps
    | apply execDeviceResetTaken_keeps
    | apply execTapReset_keeps
    | apply execResetRelease_keeps
    | apply execBootDone_keeps
    | apply execTrainDone_keeps
    | apply execPwrfail_keeps
    | apply execPowerFailRecord_keeps
    | apply execQuiesceFlushed_keeps
    | apply execDramRead_keeps
    | apply execDramWrite_keeps
    | apply execWriteDrain_keeps
    | apply execRefreshDue_keeps
    | apply execRefreshRatePoll_keeps
    | apply execAct_keeps
    | apply execActWindowReset_keeps
    | apply execRetrainPause_keeps
    | apply execRetrainEnd_keeps
    | apply execCeRateCheck_keeps
    | apply execDramFillDone_keeps
    | apply execLiveBitClear_keeps
    | apply execPcieLinkUp_keeps
    | apply execEthLinkUp_keeps
    | apply execRingLinkLock_keeps
    | apply execRingSlot_keeps
    | apply execFwActivateDone_keeps
    | apply execPtpEventFrameSend_keeps
    | apply execInterruptCoalescing_keeps
    | (intro; try beta_reduce)
    | refine out_next ?_
    | exact out_fault
    | split
    | apply_assumption

end Sys2Proof.Machine
end

