-- ==== Sys2Proof/Tests/Slice0.lean ====
section
/-! SUPPORT. The model's own tests: an ill-formed command for each check of well-formedness, examples that the spec works out in numbers, and for every statement of
Obligations.lean that has hypotheses a concrete state and operands that meet them together. -/

namespace Sys2Proof.Tests

open Sys2Proof Sys2Proof.Machine

-- The tests are checked one after another: side by side, their threads alone take gigabytes of address space.
set_option Elab.async false

/-- The block in mode `m` with some objects set. -/
def inMode (m : Nat) (objs : List (Nat × Word)) : State := objs.foldl (fun s e => s.put e.1 e.2) (State.reset.put Key.deviceMode (toWord m))

/-- A write message. -/
def wr (key : Nat) (w : Word) : Message := { opcode := 2, last := false, dflt := false, status := 0, index := 0, key := BitVec.ofNat 32 key, value := w }

/-- A read message. -/
def rd (key : Nat) : Message := { opcode := 1, last := false, dflt := false, status := 0, index := 0, key := BitVec.ofNat 32 key, value := 0 }

/-- A batch without a session. -/
def batchOf (ms : List Message) : Batch :=
  { version := 1, atomic := false, auth := false, count := BitVec.ofNat 8 ms.length, session := 0, counter := 0, messages := ms, tag := [] }

/-- An open session, unconfirmed. -/
def sessionOne : Session :=
  { id := 7, overMailbox := false, slot := 0, clientNonce := 1, deviceNonce := 2, confirmed := false, lastCounter := 0, lastBatch := none, cached := [], cachedCounter := 0, sendCounter := 0 }

/-- LOAD, IDLE with Ethernet and PCI Express up, SERVICE with the guard unlocked, TRAIN. -/
def sLoad : State := inMode Mode.load []
def sIdle : State := { inMode Mode.idle [(Key.ethStatus, 1)] with pcieUp := true, trigoutHighZ := false }
def sService : State := inMode Mode.service [(Key.guardStatus, 5)]
def sTrain : State := inMode Mode.train []

/-- IDLE with two bursts in the map, a scrub due to come to burst `n`, the fill before it. -/
def sScrub (n : Nat) : State :=
  let s := inMode Mode.idle [(Key.dramCapacity, 128), (Key.dramFill, toWord (64 * n)), (Key.scrubPeriod, 1)]
  { s with scrubNext := n, scrubGain := s.scrubTicks }

/-! ## The block as a whole -/

theorem test_AStepRunsTheFrontCommand : ({ State.reset with pending := [.fsyncPulse, .frefLoss] } : State).pending = .fsyncPulse :: [.frefLoss] := by decide

theorem test_AnEmptyQueueTicks :
    (State.reset.pending = [] ∧ State.reset.mode = Mode.reset ∧ State.reset.loadsDue = [] ∧ State.reset.diag = none ∧ State.reset.guardHits = []) ∧
    (sLoad.pending = [] ∧ sLoad.mode ≠ Mode.reset ∧ sLoad.loadsDue = [] ∧ sLoad.diag = none ∧ sLoad.guardHits = [] ∧ sLoad.capacity = 0 ∧
      (0 < 8 ∧ (8 + 2 ^ 64 - 0) % 8 = 0 ∧ (sLoad.put Key.rawCount 7).get Key.rawCount = 7)) ∧
    ((sScrub 0).capacity ≠ 0 ∧ (sScrub 0).scrubGain = (sScrub 0).scrubTicks ∧
      ({ sScrub 0 with scrubGain := 0 } : State).scrubGain + (sScrub 0).capacity / 64 < (sScrub 0).scrubTicks) := by decide

theorem test_ResetIsAsStated : Key.rawCount ≠ Key.deviceMode := by decide

theorem test_EveryStepKeepsTheStoresCanonical : sLoad.canonical = true ∧ step sLoad = .next (sLoad.put Key.rawCount 1) := ⟨by decide, rfl⟩

theorem test_TheScrubGoesOn :
    ((sScrub 0).pending = [] ∧ Mode.idle ≤ (sScrub 0).mode ∧ (sScrub 0).mode ≤ Mode.safe ∧ (sScrub 0).loadsDue = [] ∧ (sScrub 0).diag = none ∧ (sScrub 0).guardHits = [] ∧
      (sScrub 0).capacity ≠ 0 ∧ (sScrub 0).scrubTicks ≤ (sScrub 0).scrubGain + (sScrub 0).capacity / 64 ∧ ((sScrub 0).get Key.dramFill).toNat ≤ 64 * (sScrub 0).scrubNext ∧
      ((sScrub 0).scrubNext + 1) * 64 < (sScrub 0).capacity) ∧
    ((sScrub 1).scrubTicks ≤ (sScrub 1).scrubGain + (sScrub 1).capacity / 64 ∧ ((sScrub 1).get Key.dramFill).toNat ≤ 64 * (sScrub 1).scrubNext ∧
      (sScrub 1).capacity ≤ ((sScrub 1).scrubNext + 1) * 64) := by decide

theorem test_NoCommandTakesBack : exec .tapReset { sLoad with tap := ⟨true, false, [(3, .low)]⟩ } = .next sLoad := rfl

theorem test_EveryWellFormedCommandCompletes : Instr.tapReset.wf = true ∧ exec (.dispatch 64) sLoad = .fault .noSuchUnit := ⟨by decide, rfl⟩

theorem test_MicrowordsRoundTrip : (Uop.jmp 0 false (-3)).wf = true ∧ decodeWord (encodeWord (.jmp 0 false (-3))) = some (.jmp 0 false (-3)) := by decide

/-! ## The dictionary -/

theorem test_ReadsAnswerTheValue :
    sLoad.serves .mailbox ∧ sLoad.machineCheck = false ∧ (∃ r, rowOf Key.burstNumber = some r ∧ r.acc ≠ .wo ∧ r.ty ≠ .str) ∧ isRecord Key.burstNumber = false :=
  ⟨by unfold State.serves; decide, by decide, ⟨_, rfl, by decide, by decide⟩, by decide⟩

theorem test_WritesAreServed :
    (sLoad.serves .mailbox ∧ (∃ r, rowOf Key.faillogSiteLimit = some r ∧ r.acc = .rwi) ∧ quietArea Key.faillogSiteLimit = true ∧
      sLoad.writeCode (sLoad.overlay Key.faillogSiteLimit 9) .mailbox Key.faillogSiteLimit 9 = .ok) ∧
    (sLoad.busyKey Key.faillogSiteLimit = false ∧ (∃ r, rowOf Key.faillogSiteLimit = some r ∧ r.ty ≠ .blob ∧ typeBad r.ty 9 = false ∧ (9 : Word) &&& ~~~ (toWord r.mask) = 0 ∧
      plainBad r.vr 9 = false ∧ r.vr ≠ .special) ∧ extraBad sLoad Key.faillogSiteLimit 9 = false) ∧
    ((∃ r, rowOf Key.eyeLimit = some r ∧ r.acc = .rw) ∧ (inMode Mode.quiesce []).serves .mailbox ∧ (inMode Mode.quiesce []).mode = Mode.quiesce) ∧
    ((inMode Mode.idle [(Key.minCode 63, 500001), (Key.maxCode 63, 500001)]).serves .mailbox ∧ isCmd (Key.dacCode 63) = false ∧
      (inMode Mode.idle [(Key.minCode 63, 500001), (Key.maxCode 63, 500001)]).writeCode ((inMode Mode.idle [(Key.minCode 63, 500001), (Key.maxCode 63, 500001)]).overlay (Key.dacCode 63) 500000) .mailbox (Key.dacCode 63) 500000
        = .envelope) ∧
    (isCmd Key.faillogSiteLimit = false ∧ sLoad.writeCode (sLoad.overlay Key.faillogSiteLimit 0x1000000000) .mailbox Key.faillogSiteLimit 0x1000000000 = .typeMismatch) ∧
    ((∃ r, rowOf Key.burstNumber = some r ∧ r.acc = .ro) ∧ (sService.serves .mailbox ∧ sService.mode ≠ Mode.idle ∧ sService.mode ≠ Mode.load)) ∧
    ((∃ r, rowOf Key.pretrainLimit = some r ∧ r.acc = .rwg) ∧ sLoad.mode ≠ Mode.service) ∧
    ((inMode Mode.service []).serves .mailbox ∧ (inMode Mode.service []).mode = Mode.service ∧ (inMode Mode.service []).unlocked = false) :=
  ⟨⟨by unfold State.serves; decide, ⟨_, rfl, by decide⟩, by decide, by decide⟩, ⟨by decide, ⟨_, rfl, by decide, by decide, by decide, by decide, by decide⟩, by decide⟩,
    ⟨⟨_, rfl, by decide⟩, by unfold State.serves; decide⟩, by unfold State.serves; decide, by decide,
    ⟨⟨_, rfl, by decide⟩, by unfold State.serves; decide⟩, ⟨⟨_, rfl, by decide⟩, by decide⟩, by unfold State.serves; decide⟩

theorem test_SubscriptionsAreHeld :
    sLoad.serves .mailbox ∧ (∃ r, rowOf Key.auditStatus = some r ∧ r.ty ≠ .blob ∧ r.acc ≠ .wo) ∧ (10 ≤ (10 : Word).toNat ∧ (1000000 : Word).toNat ≤ 1000000 ∧ sLoad.subs.length < 256) ∧
      sLoad.subscribeCode .mailbox Key.auditStatus 9 ≠ .ok ∧ implemented Key.auditStatus = true :=
  ⟨by unfold State.serves; decide, ⟨_, rfl, by decide, by decide⟩, by decide, by decide, by decide⟩

theorem test_SessionsOpenAndClose :
    ((inMode Mode.load [(Key.sessionKey 7 3, 1)]).mode ≠ Mode.reset ∧ (inMode Mode.load [(Key.sessionKey 7 3, 1)]).mode ≠ Mode.boot ∧
      (inMode Mode.load [(Key.sessionKey 7 3, 1)]).slotEmpty 7 = false ∧ (inMode Mode.load [(Key.sessionKey 7 3, 1)]).sessions.length < 8) ∧
    (({ sLoad with sessions := [sessionOne] } : State).sessionOf 7 = some sessionOne ∧ sessionOne.confirmed = false) := by decide

theorem test_MessagesAreAnswered :
    (sIdle.machineCheck = false ∧ Mode.train ≤ sIdle.mode ∧ sIdle.ethUp = true ∧ frameCode (batchOf [rd Key.deviceName]) = .ok ∧ (batchOf [rd Key.bootMs]).session = 0 ∧
      (batchOf [rd Key.bootMs]).atomic = false ∧ frameCode (batchOf [rd Key.bootMs]) = .ok) ∧
    (∃ r, rowOf Key.bootMs = some r ∧ keyArea Key.bootMs = 0 ∧ r.acc ≠ .wo ∧ r.ty ≠ .str) ∧
    (sIdle.hostOn = true ∧ sIdle.mode ≠ Mode.boot ∧ sIdle.mailboxDone = true ∧
      (∀ m ∈ (batchOf [rd Key.burstNumber, rd Key.bootMs]).messages.take 64, m.opcode = 0x01 ∧ m.dflt = false ∧ isRecord m.key.toNat = false ∧
        ∃ r, rowOf m.key.toNat = some r ∧ r.acc ≠ .wo ∧ r.ty ≠ .str)) ∧
    (sIdle.hostOn = true ∧ 64 < 65 ∧ ({ sIdle with mailboxDone := false } : State).mailboxDone = false) := by
  refine ⟨by decide, ⟨_, rfl, by decide, by decide, by decide⟩, ⟨by decide, by decide, by decide, ?_⟩, by decide⟩
  intro m hm
  rcases List.mem_cons.1 hm with h | h
  · subst h; exact ⟨by decide, by decide, by decide, _, rfl, by decide, by decide⟩
  · rcases List.mem_cons.1 h with h | h
    · subst h; exact ⟨by decide, by decide, by decide, _, rfl, by decide, by decide⟩
    · cases h

theorem test_GroupsAndTheHotWindowWrite :
    (sLoad.serves .mailbox ∧ (∀ m ∈ [wr Key.faillogSiteLimit 9], m.opcode = 0x02 ∧ isCmd m.key.toNat = false ∧ inHotWindow m.key.toNat = false) ∧
      (∀ m ∈ [wr Key.faillogSiteLimit 9], sLoad.writeCode (sLoad.groupView [wr Key.faillogSiteLimit 9]) .mailbox m.key.toNat m.value = .ok)) ∧
    ((∀ m ∈ [wr Key.faillogSiteLimit 9, wr Key.burstNumber 1], m.opcode = 0x02 ∧ isCmd m.key.toNat = false ∧
        sLoad.writeCode (sLoad.groupView [wr Key.faillogSiteLimit 9, wr Key.burstNumber 1]) .mailbox m.key.toNat m.value ≠ .envelope) ∧
      (∃ m ∈ [wr Key.faillogSiteLimit 9, wr Key.burstNumber 1], sLoad.writeCode (sLoad.groupView [wr Key.faillogSiteLimit 9, wr Key.burstNumber 1]) .mailbox m.key.toNat m.value ≠ .ok)) ∧
    (sIdle.hostOn = true ∧ sIdle.mode ≠ Mode.boot ∧ hotKey 8 = some Key.hostFlags ∧ isCmd Key.hostFlags = false ∧ hotAligned Key.hostFlags 0 8 = true ∧
      sIdle.writeCode (sIdle.overlay Key.hostFlags 3) .hot Key.hostFlags 3 = .ok) ∧
    (bit ((sIdle.put Key.hotErr 0x40).get Key.hotErr) 6 = true ∧ hotKey 2 = some Key.burstNumber ∧ hotAligned Key.burstNumber 0 8 = true ∧
      (sIdle.put Key.hotErr 0x40).writeCode ((sIdle.put Key.hotErr 0x40).overlay Key.burstNumber 3) .hot Key.burstNumber 3 = .readOnly) := by
  refine ⟨⟨by unfold State.serves; decide, by decide +kernel, by decide⟩, by decide, by decide, by decide⟩
/-! ## The host interface and the result stream -/

/-- A descriptor that reads DDR5, and one that writes it. -/
def descRead (n : Nat) : Descriptor := { hostAddr := 4096, devAddr := 64, length := n, toHost := true, blob := false, irq := false, fence := false, tag := 0 }
def descWrite (n : Nat) : Descriptor := { descRead n with toHost := false }

/-- A descriptor that reads the first image of the timing store. -/
def descBlob : Descriptor := { descRead 65536 with devAddr := mkKey 0x21 0x100 0, blob := true }

/-- IDLE with 8 KiB of DDR5, filled, and DMA channel 7 as given. -/
def sDma (d : DmaChan) : State := { inMode Mode.idle [(Key.dramCapacity, 8192), (Key.dramFill, 8192)] with pcieUp := true, dma := [(7, d)] }

theorem test_DmaChannelsRunAndStop :
    ((sDma { DmaChan.rest with state := 1 }).dmaOn = true ∧ ((sDma { DmaChan.rest with state := 1 }).chan 7).badDoorbell 256 = false ∧
      ((sDma { DmaChan.rest with state := 1 }).chan 7).badDoorbell 257 = true ∧ ((sDma { DmaChan.rest with state := 1 }).chan 7).doorbellErr = false) ∧
    (((sDma { DmaChan.rest with doorbellErr := true }).chan 7).badDoorbell 257 = true ∧ ((sDma { DmaChan.rest with doorbellErr := true }).chan 7).doorbellErr = true) ∧
    ((sDma DmaChan.rest).dmaOn = true ∧ ((sDma { DmaChan.rest with done := 5 }).chan 7).state = 0 ∧ (0x1000 : Word).toNat % 4096 = 0) ∧
    (((sDma { DmaChan.rest with state := 1, opens := List.replicate 4 ⟨descRead 8, 0, 0, 0⟩ }).chan 7).state ≠ 0 ∧
      ((sDma { DmaChan.rest with state := 1, opens := List.replicate 4 ⟨descRead 8, 0, 0, 0⟩ }).chan 7).opens.length ≤ 4) ∧
    (4 ≤ (4 : Word).toNat ∧ (16 : Word).toNat ≤ 16 ∧ ChanReg.ringLog2 ≠ .status ∧ ((sDma { DmaChan.rest with state := 1 }).chan 7).cfgErr = false ∧
      ((sDma { DmaChan.rest with state := 1, cfgErr := true }).chan 7).cfgErr = true) := by decide

theorem test_DescriptorsClose :
    ((sDma { DmaChan.rest with state := 1, opens := [⟨descRead 8128, 0, 0, 0⟩] }).dmaOn = true ∧
      ((sDma { DmaChan.rest with state := 1, opens := [⟨descRead 8128, 0, 0, 0⟩] }).chan 7).opens = ⟨descRead 8128, 0, 0, 0⟩ :: [] ∧
      (sDma DmaChan.rest).dramCode (descRead 8128) = .ok ∧ (sDma DmaChan.rest).poison = [] ∧ (sDma DmaChan.rest).injection = none) ∧
    ((sDma DmaChan.rest).dramCode (descRead 8129) ≠ .ok) ∧
    (((sDma { DmaChan.rest with state := 1, opens := [⟨descWrite 8, 0, 0, 0⟩] }).chan 7).opens = ⟨descWrite 8, 0, 0, 0⟩ :: [] ∧ (sDma DmaChan.rest).dramCode (descWrite 8) = .ok ∧
      (sDma DmaChan.rest).capacity ≤ ((sDma DmaChan.rest).get Key.dramFill).toNat ∧ (descWrite 8).length ≤ [(1 : Byte), 2, 3, 4, 5, 6, 7, 8].length ∧ [(1 : Byte)].length < (descWrite 8).length) ∧
    (descBlob.blob = true ∧ descBlob.toHost = true ∧ (sDma DmaChan.rest).blobCode descBlob [] = .ok ∧ keyArea (descBlob.devAddr % 2 ^ 32) ≠ 0x40 ∧
      keyArea (descBlob.devAddr % 2 ^ 32) ≠ 0x51) ∧ (1 ≤ 1 ∧ 3 ≤ 3) := by decide

theorem test_BarAccessesAct :
    ((sDma DmaChan.rest).hostOn = true ∧ (sDma DmaChan.rest).mode ≠ Mode.boot ∧ (sDma DmaChan.rest).mode ≠ Mode.train ∧ 8128 + 64 ≤ (sDma DmaChan.rest).capacity) ∧
    ((sDma DmaChan.rest).dramWritable = true ∧ 8190 + [(1 : Byte), 2].length ≤ (sDma DmaChan.rest).capacity ∧
      (sDma DmaChan.rest).capacity ≤ ((sDma DmaChan.rest).get Key.dramFill).toNat ∧ (sDma DmaChan.rest).touchesLock 8190 2 = false) ∧
    ((sDma DmaChan.rest).capacity < 8191 + 2 ∧ (sDma DmaChan.rest).capacity < 8191 + [(1 : Byte), 2].length) := by decide

theorem test_HostLinkActs :
    (sLoad.mode ≠ Mode.reset ∧ (inMode Mode.load [(Key.faultLive 1, 0x800)]).liveBit 75 = true) ∧ (sIdle.hostOn = true ∧ sIdle.burst.records = []) ∧
    (∀ c, (sIdle.chan c).opens.length ≤ 4) :=
  ⟨by decide, by decide, fun _ => Nat.zero_le 4⟩

/-- IDLE with a result record waiting, RING_BASE and the ring's indices. -/
def sRecord (base prod cons : Word) : State :=
  { inMode Mode.idle [(Key.ringBase, base), (Key.ringProducer, prod), (Key.ringConsumer, cons)] with pcieUp := true, burst := { Burst.none with records := [5] } }

theorem test_TheResultStreamIsWritten :
    ((sRecord 0x1000 9 9).burst.records = 5 :: [] ∧ (sRecord 0x1000 9 9).machineCheck = false ∧ (sRecord 0x1000 9 9).get Key.ringBase ≠ 0 ∧ (sRecord 0x1000 9 9).ringFree = 4096 ∧
      (sRecord 0x1000 4095 0).ringFree = 1) ∧
    ((sRecord 0 0 0).get Key.ringBase = 0) ∧ ((sRecord 0x1000 4096 0).pcieUp = true ∧ (sRecord 0x1000 4096 0).ringFree = 0) ∧
    (sIdle.writeCode (sIdle.overlay Key.ringBase 0x1000) .mailbox Key.ringBase 0x1000 = .ok ∧
      (sRecord 0x1000 9 7).writeCode ((sRecord 0x1000 9 7).overlay Key.ringConsumer 9) .mailbox Key.ringConsumer 9 = .ok ∧
      (sIdle.put Key.eventProducer 4).writeCode ((sIdle.put Key.eventProducer 4).overlay Key.eventConsumer 4) .mailbox Key.eventConsumer 4 = .ok) := by decide

/-- IDLE with an event ring and a changed object. -/
def sNotice : State :=
  { inMode Mode.idle [(Key.eventRingBase, 0x1000), (Key.eventRingEntries, 64), (Key.eventProducer, 63), (Key.rawCount, 8000)] with pcieUp := true, subs := [⟨.mailbox, Key.auditStatus, 10, 1, 0, some 0⟩] }

theorem test_NotificationsGoOut :
    (sNotice.subs.find? (fun y => decide (y.dest = .mailbox) && y.key == Key.auditStatus) = some ⟨.mailbox, Key.auditStatus, 10, 1, 0, some 0⟩ ∧ 0 + 800 * 10 ≤ sNotice.raw ∧ Mode.train ≤ sNotice.mode ∧
      sNotice.pcieUp = true ∧ sNotice.get Key.eventRingBase ≠ 0 ∧
      ((sNotice.get Key.eventProducer).toNat + 2 ^ 32 - (sNotice.get Key.eventConsumer).toNat) % 2 ^ 32 < (sNotice.get Key.eventRingEntries).toNat) ∧
    (({ sIdle with recordIrqHeld := true } : State).recordIrqHeld = true ∧ ({ sIdle with faultIrqHeld := true } : State).faultIrqHeld = true ∧ sIdle.faultIrqHeld = false ∧
      ((sIdle.put (mkKey 0x12 0x0100 Irq.record) 5).get (mkKey 0x12 0x0100 Irq.record)).toNat = 5 ∧ ((sIdle.put (mkKey 0x12 0x0100 Irq.fault) 5).get (mkKey 0x12 0x0100 Irq.fault)).toNat = 5 ∧
      sIdle.msixMasked.contains 5 = false) := by decide

/-! ## DDR5 -/

theorem test_DramReadsAndWrites :
    ((sDma DmaChan.rest).injection = none ∧ (sDma DmaChan.rest).poison = [] ∧ 8191 < (sDma DmaChan.rest).capacity ∧ 8191 < ((sDma DmaChan.rest).get Key.dramFill).toNat ∧
      (sDma DmaChan.rest).queued ((sDma DmaChan.rest).localOf 8191).1 127 = none) ∧
    (8191 + ([(1 : Byte), 2].take (64 - 8191 % 64)).length ≤ ((sDma DmaChan.rest).get Key.dramFill).toNat) ∧
    (63 < ((sDma DmaChan.rest).put Key.dramFill 63).capacity ∧ (((sDma DmaChan.rest).put Key.dramFill 63).get Key.dramFill).toNat < 63 + ([(1 : Byte), 2].take (64 - 63 % 64)).length) ∧
    (({ (sDma DmaChan.rest).put Key.dramFill 63 with waitingWrites := [(8190, [1, 2])] } : State).waitingWrites = [(8190, [1, 2])] ∧
      8190 + [(1 : Byte), 2].length ≤ (sDma DmaChan.rest).capacity) := by decide

/-- IDLE with sub-channel 11 of one rank in the map. -/
def sSub (x : SubchSt) : State := { inMode Mode.idle [(Key.dramEnabled, 0x800), (Key.dramConfig, 0x800), (Key.actThreshold, 2)] with subchs := [(11, x)] }

/-- Sub-channel 11 with an activation counted, and with a full table. -/
def actsOne : SubchSt := { SubchSt.rest with acts := [⟨0, 3, 40, 1⟩] }
def actsFull : SubchSt := { SubchSt.rest with acts := (List.range 256).map (fun i => ⟨0, 3, i + 100, 1⟩) }

theorem test_SubchannelsAreKept :
    ((sSub SubchSt.rest).retrains 11 = true ∧ (sSub SubchSt.rest).hasRank 11 0 = true) ∧
    (max (-4) ((sSub SubchSt.rest).owes 11 0 - (0 : Nat)) + 1 < 5 ∧ max (-4) ((sSub SubchSt.rest).owes 11 0 - (9 : Nat)) + 1 < 5) ∧
    (5 ≤ max (-4) ((sSub { SubchSt.rest with postponed := [(0, 8)] }).owes 11 0 - (0 : Nat)) + 1) ∧
    ((sSub SubchSt.rest).liveBit 71 = false ∧ ((sSub { SubchSt.rest with hotRanks := [0] }).subch 11).hotRanks.contains 0 = true) ∧
    ((countAct ((sSub SubchSt.rest).subch 11).acts 0 3 40).2 < ((sSub SubchSt.rest).get Key.actThreshold).toNat) ∧
    (((sSub actsOne).get Key.actThreshold).toNat ≤ (countAct ((sSub actsOne).subch 11).acts 0 3 40).2 ∧ bit ((sSub actsOne).get Key.dramConfig) 7 = false) ∧
    (bit (((sSub actsOne).put Key.dramConfig 0x880).get Key.dramConfig) 7 = true ∧
      bit (((sSub actsOne).put (Key.subchStatus 11) 0x800).get (Key.subchStatus 11)) 11 = true) := by decide

/-- A retraining round of every lane of sub-channel 11 with eyes of 20. -/
def swept : SubchSt := { SubchSt.rest with sweeps := (List.range 5).flatMap (fun l => [(l, false, 20, 40), (l, true, 20, 60)]) }

theorem test_RetrainingEnds :
    ((sSub swept).retrains 11 = true ∧ ((sSub swept).subch 11).sweeps.length = 10 ∧ (sSub swept).liveBit 68 = false) ∧
    (∀ lane w, lane < 5 → 20 ≤ (sweepOf ((sSub swept).subch 11).sweeps lane w).1) ∧ (((sSub swept).put Key.ceLimit 3).get Key.ceLimit).toNat < 4 := by
  refine ⟨by decide, ?_, by decide⟩
  intro lane w h
  have h2 : ∀ l, l < 5 → 20 ≤ (sweepOf ((sSub swept).subch 11).sweeps l false).1 ∧ 20 ≤ (sweepOf ((sSub swept).subch 11).sweeps l true).1 := by decide
  cases w
  · exact (h2 lane h).1
  · exact (h2 lane h).2

/-! ## Faults, the guard envelope and the watchdog -/

/-- A raise of FS072. -/
def raise72 : Raise := { source := 72, loc := .none, detail := 9, injected := false }

theorem test_RaisesAreRecorded :
    (raise72.wf = true ∧ raise72.injected = false ∧ sLoad.mode ≠ Mode.reset ∧ sLoad.severityOf raise72.source ≤ Sev.degrade ∧ raise72.source ≠ 7 ∧ raise72.source ≠ 49 ∧
      raise72.source ≠ 50 ∧ raise72.source ≠ 53 ∧ raise72.source ≠ 54 ∧ raise72.source ≠ 61 ∧ sLoad.entering = none) ∧
    (sLoad.causeBit 72 = false ∧ (sLoad.get Key.histCount).toNat + 1 < 2 ^ 32 ∧ bit (sLoad.get (Key.firstFault 0)) 7 = false) ∧
    (bit ((sLoad.put (Key.firstFault 0) 0x80).get (Key.firstFault 0)) 7 = true) ∧ (sLoad.put (Key.faultCause 1) 0x100).causeBit 72 = true := by decide

theorem test_FaultRegistersAreServed :
    (sLoad.serves .mailbox ∧ sLoad.machineCheck = false ∧ sLoad.mode ≠ Mode.quiesce) ∧
    (({ sLoad with latches := [⟨.mailbox, 3, 5⟩] } : State).latches.find? (fun l => decide (l.path = .mailbox) && l.obj == 3) = some ⟨.mailbox, 3, 5⟩) ∧
    (sLoad.cmdMode = false ∧ sLoad.cmdBusy Key.ffClear = false) := by
  unfold State.serves; decide

/-- SAFE with a quiet period running and a limit of one recovery. -/
def sSafe (n : Word) (l : List Nat) : State := { inMode Mode.safe [(Key.recoveryLimit, n), (Key.recoveryWindow, 1)] with recoveries := l }

theorem test_InjectionsAndSafeEnd :
    (sService.serves .mailbox ∧ sService.injectCode 0x235 = .ok ∧ alwaysChecks (injSource 0x235) = false) ∧
    (({ sService with injection := some (53, false, true) } : State).injection.isSome = true) ∧
    ((sSafe 1 []).serves .mailbox ∧ (sSafe 1 []).cmdMode = false ∧ (sSafe 1 []).cmdBusy Key.safeUnlatch = false ∧ (sSafe 1 []).getF Key.safeStatus 1 2 ≠ 3 ∧
      ((sSafe 1 []).put Key.safeStatus 7).getF Key.safeStatus 1 2 = 3) ∧
    ((sSafe 1 []).quietRunning = true ∧ (sSafe 1 []).modeChanging = false ∧ (sSafe 1 []).recentRecoveries < ((sSafe 1 []).get Key.recoveryLimit).toNat) ∧
    ((sSafe 1 [0]).quietRunning = true ∧ ((sSafe 1 [0]).get Key.recoveryLimit).toNat ≤ (sSafe 1 [0]).recentRecoveries ∧
      (sSafe 1 [0]).getF Key.safeStatus 1 2 ≠ 3) := by
  unfold State.serves; decide +kernel

theorem test_GuardCommits :
    (sService.serves .mailbox ∧ sService.mode = Mode.service ∧ sService.quiesceAsked = false ∧ sService.unlocked = true ∧ sService.cmdBusy Key.guardCommit = false ∧
      sService.lichenBusy = false) ∧
    (sService.stagedFault = none ∧ (sService.put (Key.nvmTokens 1) 1).get (Key.nvmTokens 1) ≠ 0) ∧
    (({ sService with guardStaged := [(Key.minCode 63, 9), (Key.maxCode 63, 8)] } : State).stagedFault = some (.range, 63)) ∧
    (({ (sService.put Key.guardCommit 2) with nvm := { Nvm.shipped with guardImage := some [(Key.maxCode 0, 8)] } } : State).nvm.guardImage = some [(Key.maxCode 0, 8)] ∧
      (sService.put Key.guardCommit 2).cmdBusy Key.guardCommit = true ∧ (sService.put Key.guardCommit 2).quiesceAsked = false ∧ sService.nvm.snapshotDue = false ∧
      (sService.put (Key.faultSeverity 95) 1).severityOf 95 ≤ Sev.degrade ∧ (sService.put (Key.faultSeverity 25) 1).severityOf 25 ≤ Sev.degrade) := by
  unfold State.serves; decide +kernel

theorem test_MonitorsReport :
    ((inMode Mode.service []).unlocked = false ∧ (inMode Mode.service []).mode = Mode.service) ∧ (sLoad.unlocked = false ∧ Mode.train ≤ sLoad.mode ∧ sLoad.mode ≠ Mode.service) ∧
    (sLoad.liveBit 11 = false) ∧ (bit ((sLoad.put Key.wdogStatus 1).get Key.wdogStatus) 0 = true ∧ bit ((sLoad.put Key.wdogStatus 1).get Key.wdogStatus) 1 = false) ∧
    (({ sIdle with pcieUp := false } : State).persists 75 = true ∧ (∀ u, u < 8 → sTrain.acqSource u ≠ 0x21) ∧ (sIdle.setDac 63 1 9).dacSource 63 ≠ 0) ∧
    (sLoad.persists 127 = false ∧ (sLoad.put (Key.faultLive 1) 0x8000000000000000).liveBit 127 = true) ∧
    (Mode.train ≤ sTrain.mode ∧ sTrain.liveBit 8 = false ∧ sTrain.liveBit 9 = false ∧ sTrain.liveBit 10 = false ∧ (((sTrain.get Key.tempWarn).toNat * 128 : Nat) : Int) < 105 * 128) := by
  decide
/-! ## Modes, checks and diagnostics -/

theorem test_ModeRequestsAreTaken :
    ((Instr.requestIdle .mailbox, Mode.idle) ∈ modeRequests .mailbox ∧ sIdle.serves .mailbox ∧ sIdle.mode < 16 ∧ sIdle.requestCode (toWord Mode.idle) = .ok ∧ Mode.idle = sIdle.mode) ∧
    ((Instr.requestService .mailbox, Mode.service) ∈ modeRequests .mailbox ∧ sIdle.requestCode (toWord Mode.service) = .ok ∧ Mode.service ≠ sIdle.mode ∧ Mode.service ≠ Mode.armed) ∧
    ((Instr.requestQuiesce .mailbox, Mode.quiesce) ∈ modeRequests .mailbox ∧ sIdle.requestCode (toWord Mode.quiesce) = .ok ∧ sIdle.mode ≠ Mode.burst ∧ sIdle.mode ≠ Mode.quiesce) ∧
    ((inMode Mode.burst []).requestCode (toWord Mode.quiesce) = .ok ∧ (inMode Mode.burst []).mode = Mode.burst ∧ (inMode Mode.burst []).lichenBusy = false ∧
      ({ inMode Mode.burst [] with burst := { Burst.none with running := true } } : State).burst.running = true) ∧
    ((Instr.requestArmed .mailbox, Mode.armed) ∈ modeRequests .mailbox ∧ (inMode Mode.diagnose [(Key.modeOrigin, 5)]).requestCode (toWord Mode.armed) = .ok ∧
      (inMode Mode.diagnose [(Key.modeOrigin, 5)]).mode = Mode.diagnose) ∧
    (sIdle.requestCode (toWord Mode.armed) = .ok ∧ sLoad.requestCode (toWord Mode.armed) = .ok ∧ sIdle.mode = Mode.idle ∧ sLoad.mode = Mode.load) ∧
    ((Instr.requestTrain .mailbox, Mode.train) ∈ modeRequests .mailbox ∧ sLoad.serves .mailbox ∧ sLoad.machineCheck = false ∧ Mode.train ≠ sLoad.mode ∧ sLoad.listed Mode.train = false) := by
  unfold State.serves; decide +kernel

/-- Asked for SERVICE and for DIAGNOSE in IDLE, for IDLE in SERVICE with the guard unlocked, for QUIESCE in SAFE. -/
def sAsked (m : Nat) (request : Word) : State := inMode m [(Key.modeRequest, request), (Key.pretrainLimit, 0xFFFF), (Key.guardStatus, 5)]

theorem test_ModeChangesComplete :
    (∀ s ∈ [sAsked Mode.idle 0x930002, sAsked Mode.idle 0x730002, sAsked Mode.service 0x390002, sAsked Mode.safe 0xBA0002],
      s.cmdBusy Key.modeRequest = true ∧ s.entering = none ∧ s.modeTarget < 12 ∧ s.mode < 12 ∧ ¬ (s.modeTarget = Mode.armed ∧ (s.mode = Mode.idle ∨ s.mode = Mode.load)) ∧
        ¬ (s.mode = Mode.calibrate ∧ s.modeTarget = Mode.idle ∧ s.routine ≠ none) ∧ s.lichenBusy = false ∧ (∀ u, u < 8 → s.acqSt u ≠ 2) ∧ s.guardHits = [] ∧
        (s.get Key.pretrainLimit).toNat = 0xFFFF) ∧
    ((sAsked Mode.idle 0x930002).modeTarget = Mode.service ∧ (sAsked Mode.idle 0x730002).modeTarget = Mode.diagnose ∧ (sAsked Mode.service 0x390002).modeTarget = Mode.idle ∧
      (sAsked Mode.service 0x390002).unlocked = true ∧ (sAsked Mode.safe 0xBA0002).modeTarget = Mode.quiesce) ∧
    (({ inMode Mode.calibrate [] with calRan := true } : State).modeChanging = false ∧ (inMode Mode.calibrate []).mode = Mode.calibrate ∧
      ({ inMode Mode.calibrate [] with calRan := true } : State).calRan = true ∧ (inMode Mode.calibrate []).badgerQueue = [] ∧ (inMode Mode.calibrate []).routine = none) ∧
    ((inMode Mode.burst []).modeChanging = false ∧ (inMode Mode.burst []).mode = Mode.burst ∧ (inMode Mode.burst []).burst.running = false ∧
      (inMode Mode.burst []).routineInBurst = false) := by decide

/-- LOAD with LOAD_CHECK running, or a request for ARMED on its way, and nothing to arm; and with a thread to arm whose port is on an untrained channel. -/
def sChecks : State := inMode Mode.load [(Key.streamBudget, 1000), (Key.loadCheck, 2)]
def sArming : State := inMode Mode.load [(Key.streamBudget, 1000), (Key.modeRequest, 0x540002)]
def sBadPort (extra : List (Nat × Word)) : State :=
  inMode Mode.load ([(Key.siteEnable 0, 1), (Key.portCtrl 0, 0x1000), (Key.groupSize 0, 1), (Key.channelMap 0 0, 1), (Key.portChannels 0, 1), (Key.portSlices 0, 1),
    (Key.threadCtrl 0, 1)] ++ extra)

theorem test_LoadChecksDecide :
    (sLoad.serves .mailbox ∧ sLoad.mode = Mode.load ∧ sLoad.cmdBusy Key.loadCheck = false) ∧
    (sChecks.poison = [] ∧ sArming.poison = [] ∧ (sBadPort []).poison = []) ∧ (sChecks.cmdState Key.loadCheck = Cmd.running ∧ sChecks.arming = false ∧ sChecks.allocate.allFails sChecks.allocate.plans sChecks.allocate.shortGroup = []) ∧
    ((sBadPort [(Key.loadCheck, 2)]).cmdState Key.loadCheck = Cmd.running ∧ (sBadPort [(Key.loadCheck, 2)]).arming = false ∧
      (sBadPort [(Key.loadCheck, 2)]).allocate.allFails (sBadPort [(Key.loadCheck, 2)]).allocate.plans (sBadPort [(Key.loadCheck, 2)]).allocate.shortGroup ≠ []) ∧
    (sArming.cmdState Key.loadCheck ≠ Cmd.running ∧ sArming.arming = true ∧
      sArming.allFails sArming.plans sArming.shortGroup = []) ∧
    ((sBadPort [(Key.modeRequest, 0x540002)]).allocate.arming = true ∧
      (sBadPort [(Key.modeRequest, 0x540002)]).allocate.allFails (sBadPort [(Key.modeRequest, 0x540002)]).allocate.plans (sBadPort [(Key.modeRequest, 0x540002)]).allocate.shortGroup ≠ []) := by
  unfold State.serves; decide +kernel

/-- A signature diagnostic under way on slice 31. -/
def diagOne : DiagRun := { kind := 0, slices := [31], channels := [1023], lbk := true, dacs := [], shmooDac := none, points := 2, loopTu := 0, startRaw := 0, cycles := [], code := 0 }

/-- IDLE with that run under way; DIAGNOSE with slice 31 as the target and its channels passed. -/
def sDiagRun : State := { sIdle with diag := some diagOne }
def sDiagnose : State := inMode Mode.diagnose ([(Key.sliceMode 31, 2), (Key.diagSlices, 0x80000000), (Key.drivePermit 15, 0xFFFFFFFF00000000), (Key.pretrainLimit, 0xFFFF)] ++ (List.range 32).map (fun i => (Key.laneStatus (992 + i), 1)))

theorem test_DiagnosticsRun :
    (sIdle.serves .mailbox ∧ sIdle.mode = Mode.idle ∧ sIdle.cmdBusy Key.sliceDiagRequest = false ∧ (0xFFFFFFFF : Word).toNat < 2 ^ 32 ∧
      (∀ sl ∈ bitsOf 32 (0xFFFFFFFF : Word).toNat, sIdle.sliceModeOf sl ≠ 3) ∧ sIdle.routine = none ∧ sIdle.diag = none ∧ sIdle.guardHits = [] ∧
      ((sIdle.put Key.pretrainLimit 0xFFFF).get Key.pretrainLimit).toNat = 0xFFFF) ∧
    (sDiagnose.serves .mailbox ∧
      sDiagnose.mode ≠ Mode.idle ∧
      sDiagnose.diagRefusal = .ok ∧ (∀ g ∈ sDiagnose.diagChannels, sDiagnose.permits g = true)) ∧
    (sDiagRun.serves .mailbox ∧ sDiagRun.mode ≠ Mode.quiesce ∧ sDiagRun.diag.isSome = true ∧ sDiagRun.diag = some diagOne) := by
  unfold State.serves; decide +kernel

/-! ## Bursts and the audit -/

/-- BURST with thread 3071 on port 8191, which has channel 1023 alone: THREAD_STATE and the thread as given, one span credit free on slice 31. -/
def sBurst (st : Word) (x : Thread) : State :=
  { inMode Mode.burst [(Key.siteEnable 7, 0x8000000000000000), (Key.portCtrl 8191, 0x1BFF), (Key.channelMap 8191 15, 0x8000000000000000), (Key.portChannels 8191, 1),
      (Key.portSlices 8191, 0x80000000), (Key.groupSize 3071, 1), (Key.threadState 3071, st)] with
    threads := [(3071, { x with armed := true })]
    slices := [(31, { SliceSt.rest with spanFree := [(3071, 1)], share := [(3071, 4)] })]
    burst := { Burst.none with running := true, launched := true, threads := [3071] } }

/-- The same before its launch. -/
def sReady : State := { sBurst 1 { Thread.idle with lastRow := true } with burst := { Burst.none with running := true, threads := [3071] } }

theorem test_BurstsStart :
    ((inMode Mode.armed []).serves .mailbox ∧ (inMode Mode.armed []).startCode = .ok ∧ (inMode Mode.armed []).cmdBusy Key.burstStart = false ∧ (inMode Mode.armed []).joint = false) ∧
    ((inMode Mode.armed [(Key.ringCtrl, 5), (Key.ringStatus, 2)]).startCode = .ok ∧ (inMode Mode.armed [(Key.ringCtrl, 5), (Key.ringStatus, 2)]).joint = true) ∧
    (keyArea (Key.fails 3071) = 0x01 ∧ 0x1000 ≤ keyObj (Key.fails 3071) ∧ 2 ≤ keyEl (Key.fails 3071)) ∧
    (sReady.ring.launchDue = none ∧ sReady.mode = Mode.burst ∧ sReady.burst.running = true ∧ sReady.burst.launched = false ∧ sReady.machineCheck = false ∧ sReady.burst.threads = [3071] ∧
      sReady.burst.early = [] ∧ sReady.ended 3071 = false ∧ (sReady.thread 3071).lastRow = true ∧ sReady.threadSlices 3071 = [31]) := by
  unfold State.serves; decide

/-- BURST with the audit draining. -/
def sAudit : State := inMode Mode.burst [(Key.auditStatus, 1)]

theorem test_BurstsEnd :
    ((sBurst 2 Thread.idle).serves .mailbox ∧ (sBurst 2 Thread.idle).mode = Mode.burst ∧ (sBurst 2 Thread.idle).cmdBusy Key.burstStop = false ∧
      (sBurst 2 Thread.idle).burst.threads = [3071] ∧ (sBurst 2 Thread.idle).burst.running = true ∧ (sBurst 2 Thread.idle).burst.launched = true ∧
      (sBurst 2 Thread.idle).ended 3071 = false ∧ ((sBurst 2 Thread.idle).thread 3071).jump = none ∧
      ((sBurst 2 Thread.idle).thread 3071).late = []) ∧
    (sAudit.auditSt = 1 ∧ sAudit.drained = true ∧ sAudit.injection = none ∧ sAudit.burst.staging = [] ∧ sAudit.burst.judge = []) ∧
    ({ sAudit with burst := { Burst.none with records := [5] } } : State).drained = false := by
  unfold State.serves; decide
/-! ## Microwords -/

theorem test_PlainWordsIssueTheirRow :
    (sBurst 2 Thread.idle).ready 3071 ∧ ((sBurst 2 Thread.idle).executes 3071 = true ∧ ((sBurst 2 Thread.idle).putSlice 31 SliceSt.rest).executes 3071 = true ∧
      ((sBurst 2 Thread.idle).putSlice 31 SliceSt.rest).hasCredit 3071 = false) ∧
    (wordOf (.jmp 3071 0x20 false 5) = some (3071, .jmp 0x20 false 5) ∧ (sBurst 2 { Thread.idle with issueTu := 5000000 }).hasCredit 3071 = true ∧
      (sBurst 2 { Thread.idle with issueTu := 5000000 }).executes 3071 = true ∧ (sBurst 2 { Thread.idle with issueTu := 5000000 }).horizonOpen 3071 (.jmp 0x20 false 5) = true) := by
  unfold State.ready; decide

theorem test_ContextWordsWrite : (sBurst 2 Thread.idle).ready 3071 ∧ 3 < ((sBurst 2 Thread.idle).thread 3071).loops.length := by
  unfold State.ready; decide

theorem test_BranchesAreFollowed :
    ((sBurst 2 Thread.idle).ready 3071 ∧ (sBurst 2 Thread.idle).horizonOpen 3071 (.jmp 0 false 5) = false ∧ ((sBurst 2 Thread.idle).branch 3071 0 false).1 = true ∧
      ((sBurst 2 Thread.idle).thread 3071).resident 5 = false) ∧
    ((sBurst 2 Thread.idle).horizonOpen 3071 (.call 0 false 5) = false ∧ ((sBurst 2 Thread.idle).thread 3071).stack.length < 8 ∧
      (sBurst 2 { Thread.idle with stack := [1, 2, 3, 4, 5, 6, 7, 8] }).ready 3071 ∧ 8 ≤ ((sBurst 2 { Thread.idle with stack := [1, 2, 3, 4, 5, 6, 7, 8] }).thread 3071).stack.length) ∧
    ((sBurst 2 Thread.idle).horizonOpen 3071 (.ret 0 false) = false ∧ ((sBurst 2 { Thread.idle with stack := [6, 9] }).thread 3071).stack = [6] ++ [9] ∧
      ((sBurst 2 Thread.idle).thread 3071).stack = []) ∧
    (((sBurst 2 Thread.idle).branch 3071 0 true).1 = false) ∧
    (3 < ((sBurst 2 Thread.idle).thread 3071).loops.length ∧ ((sBurst 2 { Thread.idle with loops := [⟨0, false⟩, ⟨0, true⟩, ⟨0, false⟩, ⟨2, true⟩] }).thread 3071).loop 3 = ⟨1 + 1, true⟩ ∧
      ((sBurst 2 { Thread.idle with loops := [⟨0, false⟩, ⟨0, true⟩, ⟨0, false⟩, ⟨2, true⟩] }).thread 3071).loop 1 = ⟨0, true⟩ ∧
      (((sBurst 2 Thread.idle).thread 3071).loop 0).active = false) := by
  unfold State.ready; decide

theorem test_WaitingWordsWait :
    ((sBurst 2 Thread.idle).ready 3071 ∧ ((sBurst 2 { Thread.idle with banked := [7, 9] }).thread 3071).banked = 7 :: [9] ∧
      ((sBurst 2 { Thread.idle with banked := [7, 9] }).thread 3071).heldTokens = [] ∧ ((sBurst 2 Thread.idle).thread 3071).banked = [] ∧
      ((sBurst 2 Thread.idle).thread 3071).depSync = 0) ∧
    (((sBurst 2 { Thread.idle with issueTu := 40000 }).thread 3071).issueTu ≤ 1 * 40000 ∧ 0 * 40000 < ((sBurst 2 { Thread.idle with issueTu := 40000 }).thread 3071).issueTu) := by
  unfold State.ready; decide

/-! ## The scheduler, spans and cycles -/

/-- A thread that core 63 runs, and a second one that waits for a core with less slack. -/
def sCores : State :=
  let s := (sBurst 2 { Thread.idle with core := some 63, issueTu := 90000 }).put (Key.threadState 5) 1
  let s := { s with threads := (5, { Thread.idle with armed := true }) :: s.threads, burst := { s.burst with threads := [5, 3071] } }
  s.put Key.rawCount 8

/-- Every core taken. -/
def sFull : State :=
  let s := (sBurst 2 { Thread.idle with core := some 63, issueTu := 90000, startTu := 90000 }).put (Key.threadState 100) 1
  { s.put Key.rawCount 8 with
    threads := (List.range 63).map (fun i => (i, { Thread.idle with core := some i })) ++ (100, Thread.idle) :: s.threads
    burst := { s.burst with threads := List.range 63 ++ [100, 3071] } }

theorem test_CoresRunThreads :
    (sCores.machineCheck = false ∧ sCores.mode = Mode.burst ∧ sCores.onCore 0 = none ∧ sCores.nextReady 0 = some 5 ∧ sCores.injection = none) ∧
    (sFull.machineCheck = false ∧ sFull.onCore 63 = some 3071 ∧ (sFull.thread 3071).runSince + 8 ≤ sFull.raw ∧ sFull.threadSt 3071 = Th.running ∧
      (∀ c, c < 64 → (sFull.onCore c).isSome = true) ∧ (sFull.thread 3071).matchRun = none ∧ (∃ x ∈ sFull.readyThreads, sFull.effSlack x < sFull.slack 3071)) := by
  decide +kernel

/-- Slice 31 owes a HELD thread a credit. -/
def sHeld : State := (sBurst 5 Thread.idle).putSlice 31 { SliceSt.rest with owed := [(3071, 1)], share := [(3071, 4)] }

theorem test_SpansAndCreditsMove :
    ((sBurst 2 Thread.idle).live 3071 = true ∧ ((sBurst 2 Thread.idle).threadSlices 3071).contains 31 = true ∧ mget 0 ((sBurst 2 Thread.idle).slice 31).expect 3071 = 0 ∧
      0 < (sBurst 2 Thread.idle).spanShare 31 3071 ∧ ((sBurst 2 Thread.idle).slice 31).held.contains (3071, 1) = false) ∧
    (3 < (sBurst 2 Thread.idle).spanShare 31 3071 ∧ ((sBurst 2 Thread.idle).slice 31).held.contains (3071, 0) = false) ∧ ((sBurst 2 Thread.idle).spanShare 31 3071 ≤ 4) ∧
    (mget 0 (((sBurst 2 Thread.idle).putSlice 31 { SliceSt.rest with owed := [(3071, 1)] }).slice 31).owed 3071 ≠ 0 ∧ (sBurst 2 Thread.idle).threadSt 3071 ≠ Th.held ∧
      ((sBurst 2 Thread.idle).thread 3071).matchRun = none) ∧
    (mget 0 (sHeld.slice 31).owed 3071 ≠ 0 ∧ sHeld.threadSt 3071 = Th.held ∧ 0 < sHeld.spanShare 31 3071 ∧ sHeld.threadSlices 3071 = [31] ∧ (sHeld.thread 3071).depends = false ∧
      sHeld.heldByToken 3071 = false) ∧
    (1 < ((sBurst 3 { Thread.idle with depFetch := 2 }).thread 3071).depFetch) ∧
    (((sBurst 3 { Thread.idle with depFetch := 1 }).thread 3071).depFetch = 1 ∧ (sBurst 3 { Thread.idle with depFetch := 1 }).threadSt 3071 = Th.waiting ∧
      ((sBurst 3 { Thread.idle with depFetch := 1 }).thread 3071).depSync ≤ 0 ∧ ((sBurst 3 { Thread.idle with depFetch := 1 }).thread 3071).depTrig = false ∧
      ((sBurst 3 { Thread.idle with depFetch := 1 }).thread 3071).depTime = false ∧
      (sBurst 3 { Thread.idle with depFetch := 1 }).hasCredit 3071 = true ∧ (sBurst 3 { Thread.idle with depFetch := 1 }).heldByToken 3071 = false) := by decide

/-- A thread that waits, and one that matches. -/
def waiting (k : WaitKind) : Thread := { Thread.idle with waitRun := some ⟨k, 0, 0, none⟩, started := 4 }
def matchOne : MatchRun :=
  { row := 2, body := 1, timeout := 9, inv := false, first := 3, firstTu := 120, len := 1, dur := 40, served := [0], met := [], placed := [], failed := [], pass := 0, nextRow := 0,
    issuing := 0, exit := some 1, timedOut := false }

/-- A thread with `n` banked tokens and one on its way from thread 4. -/
def sToken (n : Nat) : State := { sBurst 2 { Thread.idle with banked := List.replicate n 0 } with tokens := [(3071, 4, 80)] }

theorem test_WaitsEnd :
    ((sBurst 3 (waiting (.trig 0 4))).live 3071 = true ∧ ((sBurst 3 (waiting (.trig 0 4))).thread 3071).jump = none ∧ ((sBurst 3 (waiting (.trig 0 4))).thread 3071).depFetch = 0 ∧
      ((sBurst 3 (waiting (.trig 0 4))).thread 3071).depSync ≤ 0 ∧ ((sBurst 3 (waiting (.trig 0 4))).thread 3071).depTime = false ∧ (sBurst 3 (waiting (.trig 0 4))).hasCredit 3071 = true ∧
      (sBurst 3 (waiting (.trig 0 4))).heldByToken 3071 = false ∧ (sBurst 3 (waiting (.trig 0 4))).threadSt 3071 = Th.waiting ∧ ((sBurst 3 (waiting (.trig 0 4))).thread 3071).waitRun = some ⟨.trig 0 4, 0, 0, none⟩ ∧
      0 + 4 ≤ ((sBurst 3 (waiting (.trig 0 4))).thread 3071).started) ∧
    (((sBurst 3 (waiting (.time 512000))).thread 3071).waitRun = some ⟨.time 512000, 0, 0, none⟩ ∧ 512000 ≤ ((sBurst 3 (waiting (.time 512000))).thread 3071).startTu + 512000) ∧
    ((sToken 14).live 3071 = true ∧ ((sToken 14).thread 3071).jump = none ∧ (sToken 14).tokens.contains (3071, 4, 80) = true ∧ ((sToken 14).thread 3071).waitRun = none ∧
      (sToken 14).placesTaken 3071 < 15) ∧
    ((sToken 15).live 3071 = true ∧ ((sToken 15).thread 3071).jump = none ∧ (sToken 15).tokens.contains (3071, 4, 80) = true ∧ ((sToken 15).thread 3071).waitRun = none ∧
      15 ≤ (sToken 15).placesTaken 3071 ∧ (sToken 15).ended 4 = false) ∧
    (({ sBurst 3 (waiting .sync) with tokens := [(3071, 4, 80)] } : State).thread 3071).waitRun = some ⟨.sync, 0, 0, none⟩ ∧
    ((sBurst 4 { Thread.idle with matchRun := some matchOne, started := 5 }).live 3071 = true ∧
      ((sBurst 4 { Thread.idle with matchRun := some matchOne, started := 5 }).thread 3071).matchRun = some matchOne ∧ matchOne.exit = some 1 ∧
      matchOne.first + (1 + 1) * matchOne.len ≤ ((sBurst 4 { Thread.idle with matchRun := some matchOne, started := 5 }).thread 3071).started) := by decide

/-- A span of `left` cycles of row 0. -/
def spanOf (left : Nat) : Span :=
  { seq := 0, row := 0, first := 0, left := left, judgeMasked := false, capture := none, sigHeld := false, sigReset := false, inMatch := false, maskedOrds := [], waiting := false,
    halts := false, stops := none, staged := false, took := none, event := .none, snap := none }

/-- The thread's image lies at address 0 of the DDR5 and row 0 has a SEGM word. -/
def sJump : State :=
  ({ sBurst 2 { Thread.idle with jump := some ⟨3, 3071, -1, false⟩, spans := [spanOf 1] } with
    cells := setBytes (setBytes [] 0 [1]) 64 (leBytes 8 (encodeWord (.segm 7 false 0 0)).toNat) }).put (Key.hjEntry 3071 3) 9

/-- The same row with a second one issued behind it that begins a segment; a thread that waits for line 17. -/
def snapZero : Snap :=
  { stack := [], loops := [], siteMask := [], seen := ⟨0, 0, []⟩, mto := false, wto := false, wlate := false, uf := 0, segLabel := 0, segCount := 0, segStart := 0, issueTu := 0,
    judgeMasked := false, capture := none, sigHeld := false }
def spanSeg : Span := { spanOf 1 with seq := 1, first := 1, snap := some snapZero }
def sBack : State := sBurst 2 { Thread.idle with jump := some ⟨3, 3071, -1, false⟩, spans := [spanOf 1, spanSeg] }
def sLine : State := (sBurst 3 { Thread.idle with waitRun := some ⟨.trig 17 0, 0, 0, none⟩ }).put Key.epochCount 1000

theorem test_HostJumpsAreTaken :
    (sJump.serves .mailbox ∧ sJump.mode = Mode.burst ∧ sJump.cmdBusy (Key.hostJump 3071) = false ∧ (3 : Word).toNat ≤ 3 ∧ sJump.get (Key.hjEntry 3071 (3 : Word).toNat) ≠ 0xFFFFFFFFFFFFFFFF ∧
      sJump.burst.threads.contains 3071 = true ∧ (sJump.groupThreads 3071).filter (fun t => sJump.live t) ≠ []) ∧
    ((sJump.thread 3071).jump = some ⟨3, 3071, -1, false⟩ ∧ sJump.live 3071 = true ∧ sJump.machineCheck = false ∧ (sJump.thread 3071).spans = [spanOf 1] ∧
      (sJump.thread 3071).started ≤ (spanOf 1).first ∧ -1 < (sJump.lastStart 3071 : Int) ∧ sJump.segmNext 3071 (sJump.thread 3071).pc = true ∧ (sJump.thread 3071).matchRun = none ∧
      (sJump.thread 3071).waitRun = none ∧ (sJump.thread 3071).lastRow = false ∧ (∀ x ∈ sJump.threads, x.1 ≠ 3071 → x.2.jump = none) ∧ sJump.canonical = true) ∧
    (sBack.live 3071 = true ∧ sBack.machineCheck = false ∧ (sBack.thread 3071).spans = [spanOf 1, spanSeg] ∧ spanSeg.snap = some snapZero ∧
      (spanOf 1).first < spanSeg.first ∧ (sBack.thread 3071).started ≤ (spanOf 1).first ∧ -1 < ((sBack.thread 3071).startTu : Int)) ∧
    (sJump.writeCode (sJump.overlay Key.hostTrig 1) .mailbox Key.hostTrig 1 = .ok ∧ sJump.unitsRun = true) ∧
    (sLine.burst.threads = [3071] ∧ sLine.lineFires 17 = [] ∧ (sLine.thread 3071).waitRun = some ⟨.trig 17 0, 0, 0, none⟩ ∧ (0 : Int) ≤ sLine.portTime sLine.nowTick ∧
      (sLine.thread 3071).jump = none ∧ sLine.unitsRun = true ∧ sLine.serves .mailbox ∧ sLine.writeCode (sLine.overlay Key.hostTrig 1) .mailbox Key.hostTrig 1 = .ok) := by
  unfold State.serves; decide +kernel

/-- A released span of one cycle on a permitted and trained channel. -/
def sCycle : State :=
  let s := (((sBurst 2 { Thread.idle with spans := [spanOf 1] }).put (Key.drivePermit 15) 0x8000000000000000).put (Key.laneStatus 1023) 1)
  s.putSlice 31 { SliceSt.rest with share := [(3071, 4)], expect := [(3071, 1)] }

theorem test_CyclesExecute :
    (sCycle.machineCheck = false ∧ sCycle.burst.launched = true ∧ sCycle.live 3071 = true ∧ sCycle.injection = none ∧ (sCycle.thread 3071).spans = spanOf 1 :: [] ∧
      (sCycle.thread 3071).late = [] ∧ (spanOf 1).stops = none ∧ (spanOf 1).event = .none ∧ (spanOf 1).maskedOrds = [] ∧ (spanOf 1).waiting = false ∧ (spanOf 1).halts = false ∧
      sCycle.burst.staging = [] ∧ (spanOf 1).left = 1 ∧ 2 ≤ (spanOf 2).left ∧ sCycle.rowLost 3071 (spanOf 1).row = false ∧ sCycle.spanReady 3071 (spanOf 1) = true ∧ (sCycle.thread 3071).matchRun = none ∧
      (∀ x ∈ sCycle.served 3071, ∀ g ∈ sCycle.channels x.2, sCycle.permits g = true ∧ sCycle.laneState g = 1) ∧ sCycle.served 3071 = [(0, 8191)]) ∧
    (((sBurst 2 Thread.idle).thread 3071).spans = [] ∧ (sBurst 2 Thread.idle).burst.threads = [3071] ∧ ((sBurst 2 Thread.idle).thread 3071).jump = none) := by decide +kernel
/-! ## Rules stated whole -/

/-- Thread 3071's row 0 has symbol 5 (H) on channel 1023, judged at the EDGE strobe CA of a trained channel. -/
def sStrobe : State :=
  let s := (sBurst 2 Thread.idle).put (Key.map 8191 0) 0x5
  (s.put (Key.tseWord 1023 0 2) 4000).put (Key.tseWord 1023 0 3) 8

/-- The same as a WIN strobe. -/
def sWin : State := sStrobe.put (Key.tseWord 1023 0 3) 0x10

theorem test_StrobesAreJudgedByTheTable :
    sStrobe.cmpFmt 1023 (sStrobe.rowTs 3071 (spanOf 1).row) = 1 ∧ sWin.cmpFmt 1023 (sWin.rowTs 3071 (spanOf 1).row) = 2 ∧ (sWin.edge 1023 (sWin.rowTs 3071 (spanOf 1).row) 4).isSome = true ∧
      (obsOf [] 1023).later = [] ∧ (sStrobe.edge 1023 (sStrobe.rowTs 3071 (spanOf 1).row) 4).isSome = true ∧ sStrobe.laneState 1023 ≠ 2 ∧
      sStrobe.symbol 3071 8191 (spanOf 1).row 0 = 5 ∧ (sStrobe.put (Key.map 8191 0) 8).symbol 3071 8191 (spanOf 1).row 0 ∉ [4, 5, 6, 7] := by decide +kernel

/-- Deskew results at and one step beyond the largest D_T. -/
def deskewAt (rt : Nat) : DeskewResult := 
  { channel := 1023, present := true, levels := true, coarse := 76, rise := rt, fall := rt, dip := rt, lift := rt, eye := 150 }

theorem test_TheRoundTripIsSplit :
    (earlyCause (deskewAt 30720) = 0 ∧ rtOf (deskewAt 30720) = 30720 ∧ rtOf (deskewAt 30721) = 30721 ∧ earlyCause (deskewAt 30721) = 0 ∧ 150 ≤ (deskewAt 30720).eye ∧ 0 ≤ splitT 30720 0 ∧ splitT 30720 0 ≤ 15360 ∧ 0 ≤ 30720 - splitT 30720 0 ∧ 30720 - splitT 30720 0 ≤ 15360) ∧
    (15360 < splitT 30721 0) ∧ (splitT 5 (-1000000) < 0) ∧ (30721 - splitT 30721 0 ≤ 15360) := by decide

theorem test_TheActivateTableCounts :
    ((sSub SubchSt.rest).hasRank 11 0 = true ∧ (countAct ((sSub SubchSt.rest).subch 11).acts 0 3 40).2 < ((sSub SubchSt.rest).get Key.actThreshold).toNat) ∧
    (((sSub actsOne).put Key.actThreshold 3).hasRank 11 0 = true ∧ (countAct (((sSub actsOne).put Key.actThreshold 3).subch 11).acts 0 3 40).2 < (((sSub actsOne).put Key.actThreshold 3).get Key.actThreshold).toNat ∧
      (((sSub actsOne).put Key.actThreshold 3).subch 11).acts.find? (fun x => x.rank == 0 && x.bank == 3 && x.row == 40) = some ⟨0, 3, 40, 1⟩) ∧
    ((countAct (((sSub actsFull).put Key.actThreshold 3).subch 11).acts 0 3 40).2 < (((sSub actsFull).put Key.actThreshold 3).get Key.actThreshold).toNat ∧
      (∀ x ∈ (((sSub actsFull).put Key.actThreshold 3).subch 11).acts, (x.rank, x.bank, x.row) ≠ (0, 3, 40)) ∧ 256 ≤ (((sSub actsFull).put Key.actThreshold 3).subch 11).acts.length) := by
  decide +kernel

/-- A slice self-test of slice 31 and a deskew of it, in slot 15. -/
def routineOf (code : Nat) (post : Bool) : Routine := { slot := 15, code := code, slices := [31], dacs := [], tested := [], postCommit := post, failPath := false, held := [], point := 0 }
def sRoutine (r : Routine) : State := { inMode Mode.idle [(Key.sliceMode 31, 1), (Key.reqCmd 15, 2)] with routine := some r, badgerQueue := [15] }

theorem test_OverrunsAbandonTheRoutine :
    ((sRoutine (routineOf 0x20 false)).routine = some (routineOf 0x20 false) ∧ (sRoutine (routineOf 0x20 false)).machineCheck = false ∧ (routineOf 0x20 false).slot < 16 ∧
      (∀ sl ∈ (routineOf 0x20 false).slices, sl < 32) ∧ (routineOf 0x20 false).postCommit = false) ∧ (routineOf 0x20 true).postCommit = true := by decide

/-! ## Lichen -/

/-- IDLE with tokens, one N object changed, and that value in a valid bank. -/
def sBank : State :=
  { inMode Mode.idle [(Key.nvmTokens 0, 1), (Key.dictBankSeq, 1), (Key.eyeLimit, 9)] with nvm := { Nvm.shipped with bankA := ⟨.valid, 1, [(Key.eyeLimit, 8)]⟩ } }

theorem test_TheDictionaryPersists :
    (sBank.serves .mailbox ∧ sBank.mode = Mode.idle ∧ sBank.quiesceAsked = false ∧ sBank.lichenBusy = false ∧ sBank.bankImage = [(Key.eyeLimit, 9)] ∧ sBank.bankImage.length ≤ 98296 ∧
      sBank.get (Key.nvmTokens 0) ≠ 0) ∧
    (({ sBank with nvm := { sBank.nvm with persistImage := some [] } } : State).nvm.persistImage = some [] ∧ (sBank.put Key.dictPersist 2).cmdBusy Key.dictPersist = true ∧
      sBank.nvm.snapshotDue = false) ∧
    (sBank.cmdBusy Key.dictPersist = false ∧ sBank.cmdBusy Key.dictRevert = false ∧ sBank.bankEntries = [(Key.eyeLimit, 8)] ∧
      (∀ e ∈ sBank.bankImage ++ sBank.bankEntries, quietArea e.1 = true)) ∧
    (isBankKey Key.eyeLimit = true ∧ Key.eyeLimit ≠ Key.loadStatus ∧ Key.eyeLimit ≠ Key.dictRevert ∧ isBankKey Key.burstNumber = false ∧ Key.burstNumber ≠ Key.loadStatus ∧
      Key.burstNumber ≠ Key.dictRevert) := by
  unfold State.serves; decide +kernel

theorem test_LichenKeepsItsRecords :
    (sIdle.serves .mailbox ∧ sIdle.cmdMode = false ∧ sIdle.quiesceAsked = false ∧ sIdle.cmdBusy Key.bbNote = false ∧ (sIdle.put (Key.nvmTokens 3) 1).get (Key.nvmTokens 3) ≠ 0 ∧
      sIdle.nvm.closed = false) ∧
    (sIdle.mode ≠ Mode.reset ∧ ([3200, 3840] : List Int) ≠ [] ∧ hottest [3200, 3840] - coolest [3200, 3840] ≤ 640 ∧ sIdle.liveBit 93 = false) ∧
    (Mode.train ≤ sIdle.mode ∧ sIdle.powerFailing = false ∧ sIdle.lichenBusy = false ∧ (sIdle.put Key.dictPersist 2).lichenBusy = true) ∧
    (sService.serves .mailbox ∧ sService.mode = Mode.service ∧ sService.quiesceAsked = false ∧ sService.lichenBusy = false) ∧
    ((inMode Mode.service [(Key.fwActivate, 2), (Key.nvmTokens 2, 1)]).cmdBusy Key.fwActivate = true ∧ (inMode Mode.service [(Key.fwActivate, 2)]).nvm.snapshotDue = false ∧
      (inMode Mode.service [(Key.fwActivate, 2)]).quiesceAsked = false ∧ (inMode Mode.service [(Key.fwActivate, 2), (Key.nvmTokens 2, 1)]).get (Key.nvmTokens 2) ≠ 0) := by
  unfold State.serves; decide

/-! ## The instrument and the level DACs -/

theorem test_TriggersAct :
    (sIdle.unitsRun = true ∧ sIdle.burst.threads = [] ∧
      (∀ u, u < 8 → (bit (sIdle.get (Key.acqCtrl u)) 21 = false ∨ sIdle.getF (Key.acqCtrl u) 22 5 ≠ 7) ∧ (bit (sIdle.get (Key.acqCtrl u)) 15 = false ∨ sIdle.getF (Key.acqCtrl u) 16 5 ≠ 7)) ∧
      sIdle.triginOn 7 = false ∧ true = !bit (sIdle.get (Key.triginCfg 7)) 0 ∧ bit ((sIdle.put (Key.tiuCtrl 15) 0x1C40).get (Key.tiuCtrl 15)) 6 = true ∧ (sIdle.put (Key.tiuCtrl 15) 0x1C40).getF (Key.tiuCtrl 15) 10 5 = 7 ∧ sIdle.tiuSt 15 = 0 ∧
      bit ((sIdle.put (Key.adcCfg 15) 0x390).get (Key.adcCfg 15)) 4 = true ∧ (sIdle.put (Key.adcCfg 15) 0x390).getF (Key.adcCfg 15) 7 5 = 7 ∧ sIdle.adcRunning 15 = false) ∧
    (sTrain.unitsRun = false ∧ ({ sIdle with triginHigh := [7] } : State).triginOn 7 = true ∧ false = bit (sIdle.get (Key.triginCfg 7)) 0) ∧
    (sIdle.serves .mailbox ∧ sIdle.cmdIdle = false ∧ sIdle.mode ≠ Mode.safe ∧ sIdle.machineCheck = false ∧ sIdle.cmdBusy Key.trigoutPulse = false ∧ (0xFFFF : Word).toNat < 2 ^ 16 ∧
      (sIdle.get Key.trigoutMerged).toNat < 2 ^ 32 ∧ sIdle.trigoutHighZ = false) ∧
    ({ sIdle with trigoutActive := [15] } : State).trigoutActive.contains 15 = true := by
  unfold State.serves; decide

/-- IDLE with time-interval unit 15 as given: control word, state, run; both inputs on AUXIN 0. -/
def sTiu (ctrl st : Word) (r : TiuRun) : State :=
  { inMode Mode.idle [(Key.tiuCtrl 15, ctrl), (Key.tiuStatus 15, st), (Key.tiuInA 15, 2), (Key.tiuInB 15, 2), (Key.tiuGate 15, 100), (Key.tiuTimeout 15, 9)] with tius := [(15, r)] }

theorem test_MeasurementsAreMade :
    ((sTiu 0 0 ⟨0, none, 0⟩).serves .mailbox ∧ (sTiu 0 0 ⟨0, none, 0⟩).cmdMode = false ∧ (sTiu 0 0 ⟨0, none, 0⟩).mode ≠ Mode.train ∧ (sTiu 0 0 ⟨0, none, 0⟩).tiuSt 15 = 0 ∧
      selKind ((sTiu 0 0 ⟨0, none, 0⟩).get (Key.tiuInA 15)) ≠ 0 ∧ selKind ((sTiu 0 0 ⟨0, none, 0⟩).get (Key.tiuInB 15)) ≠ 0 ∧
      (sTiu 0 0 ⟨0, none, 0⟩).selDisabled ((sTiu 0 0 ⟨0, none, 0⟩).get (Key.tiuInA 15)) = false ∧ (sTiu 0 0 ⟨0, none, 0⟩).selDisabled ((sTiu 0 0 ⟨0, none, 0⟩).get (Key.tiuInB 15)) = false) ∧
    ((sTiu 0 1 ⟨5, none, 0⟩).countsEdge 15 false (.aux false) 5 1250 ∧ (sTiu 0 1 ⟨5, none, 0⟩).tiuMode 15 = 0 ∧ (sTiu 0 1 ⟨5, none, 0⟩).tiuSt 15 = 1 ∧
      ((sTiu 0 1 ⟨5, none, 0⟩).tiuRun 15).start = none) ∧
    ((sTiu 0 2 ⟨5, some 6, 0⟩).countsEdge 15 true (.aux false) 6 1250 ∧ (sTiu 0 2 ⟨5, some 6, 0⟩).tiuSt 15 = 2 ∧ ((sTiu 0 2 ⟨5, some 6, 0⟩).tiuRun 15).start = some 6 ∧ 6 - 6 < tiuMax) ∧
    ((sTiu 0 2 ⟨5, some 6, 0⟩).unitsRun = true ∧ (sTiu 0 2 ⟨5, some 6, 0⟩).qualifies 15 true (.aux false) = true ∧ (sTiu 0 2 ⟨5, some 6, 0⟩).tiuInside 15 6 = true ∧ 1249 < 1250) ∧
    ((sTiu 2 2 ⟨5, some 6, 3⟩).tiuSt 15 = 2 ∧ (sTiu 2 2 ⟨5, some 6, 3⟩).tiuMode 15 = 2 ∧ ((sTiu 2 2 ⟨5, some 6, 3⟩).tiuRun 15).count < tiuMax) ∧
    ((sTiu 0 2 ⟨5, some 6, 0⟩).get (Key.tiuTimeout 15) ≠ 0 ∧ (sTiu 0 2 ⟨5, some 6, 0⟩).tiuOpenCount 15 = false) ∧ ((sTiu 8 3 ⟨5, none, 0⟩).tiuSt 15 = 3) ∧
    (sIdle.adcRunning 15 = false ∧ (sIdle.put (Key.adcStatus 15) 3).adcRunning 15 = true ∧ bit ((sIdle.put (Key.adcStatus 15) 3).get (Key.adcStatus 15)) 1 = true) ∧
    ((sIdle.put (Key.adcCfg 15) 2).getF (Key.adcCfg 15) 0 2 = 2 ∧ sIdle.getF (Key.adcCfg 15) 0 2 ≠ 2 ∧ mget 0 ({ sIdle with adcLeft := [(15, 1)] } : State).adcLeft 15 = 1 ∧
      2 ≤ mget 0 ({ sIdle with adcLeft := [(15, 2)] } : State).adcLeft 15) := by
  unfold State.serves State.countsEdge; decide

/-- IDLE with acquisition unit 7 as given: control word, state, reduction. -/
def sAcq (ctrl st : Word) (a : AcqSt) : State := { inMode Mode.idle [(Key.acqCtrl 7, ctrl), (Key.acqState 7, st), (Key.acqLength 7, 16)] with acqs := [(7, a)] }

/-- An empty acquisition record with number 0. -/
def recordZero : AcqRecord :=
  { seq := 0, firedBy := 7, source := 0x21, preShort := false, forced := false, line := false, sat := false, trunc := false, ecc := false, intervalM1 := 0, prePairs := 0, trigOffset := 0,
    fireTime := 0, firstTime := 0, sampleNs := 0, pairs := [] }

theorem test_UnitsAcquire :
    ((sAcq 0x21 0 AcqSt.rest).serves .mailbox ∧ (sAcq 0x21 0 AcqSt.rest).cmdMode = false ∧ (sAcq 0x21 0 AcqSt.rest).mode ≠ Mode.train ∧ (sAcq 0x21 0 AcqSt.rest).acqSt 7 = 0 ∧
      (sAcq 0x21 0 AcqSt.rest).acqGroup 7 = false ∧ ((sAcq 0x21 0 AcqSt.rest).acq 7).records.length < (sAcq 0x21 0 AcqSt.rest).acqSlots 7) ∧
    ((sAcq 0x321 0 AcqSt.rest).acqGroup 7 = true ∧ (sAcq 0x321 0 AcqSt.rest).acqMaster 7 = true ∧ (sAcq 0x321 0 AcqSt.rest).armSet 7 = [7]) ∧
    ((sAcq 0x21 2 AcqSt.rest).acqSt 7 = 2 ∧ ((sAcq 0x21 2 AcqSt.rest).get (Key.trigAfterFire 7)).toNat < 2 ^ 32 ∧ (sAcq 0x21 3 AcqSt.rest).acqSt 7 = 3 ∧ (sAcq 0x21 1 AcqSt.rest).acqSt 7 = 1 ∧ (sAcq 0x21 1 AcqSt.rest).lineFree 16) ∧
    (((sAcq 0x421 1 { AcqSt.rest with offers := [(5, 0, false)] }).acq 7).offers = (5, 0, false) :: [] ∧ (sAcq 0x421 1 { AcqSt.rest with offers := [(5, 0, false)] }).unitsRun = true ∧
      (((sAcq 0x421 1 AcqSt.rest).acq 7).primed && (sAcq 0x421 1 AcqSt.rest).atLevel 7 5) = false ∧ notBefore 0 ((sAcq 0x421 1 AcqSt.rest).acq 7).armTick = true ∧
      notBefore 0 ((sAcq 0x421 1 { AcqSt.rest with armTick := 1 }).acq 7).armTick = false) ∧
    ((((sAcq 0x421 1 { AcqSt.rest with primed := true, offers := [(5, 0, false)] }).acq 7).primed && (sAcq 0x421 1 AcqSt.rest).atLevel 7 5) = true ∧
      ((sAcq 0x421 1 AcqSt.rest).get (Key.acqPre 7)).toNat + 2 ≤ ((sAcq 0x421 1 AcqSt.rest).get (Key.acqLength 7)).toNat) ∧
    ((sAcq 0x221 1 { AcqSt.rest with groupFire := some (8, 3) }).acq 7).groupFire = some (8, 3) ∧
    (bit ((sAcq 0x1021 3 AcqSt.rest).get (Key.acqCtrl 7)) 12 = true ∧ ((sAcq 0x1021 3 AcqSt.rest).acq 7).cancelRearm = false ∧
      ((sAcq 0x1021 3 AcqSt.rest).acq 7).records.length < (sAcq 0x1021 3 AcqSt.rest).acqSlots 7 ∧ bit ((sAcq 0x21 3 AcqSt.rest).get (Key.acqCtrl 7)) 12 = false) ∧
    ((sAcq 0x21 1 { AcqSt.rest with records := [recordZero] }).writeCode ((sAcq 0x21 1 { AcqSt.rest with records := [recordZero] }).overlay (Key.acqRelease 7) 0) .mailbox (Key.acqRelease 7) 0 = .ok ∧ (sAcq 0x21 1 AcqSt.rest).acqSt 7 ≠ 4) ∧
    ((inMode Mode.burst [(Key.acqCtrl 7, 0x20), (Key.acqPort 7, 8191)]).unitsRun = true ∧ (inMode Mode.burst [(Key.acqCtrl 7, 0x20), (Key.acqPort 7, 8191)]).acqSource 7 = 0x20 ∧
      ((inMode Mode.burst [(Key.acqCtrl 7, 0x20), (Key.acqPort 7, 8191)]).get (Key.acqPort 7)).toNat = 8191) := by
  unfold State.serves State.lineFree; decide

/-- ARMED with DAC 63 alone in group 7, its code within the envelope. -/
def sDac (st : Word) : State :=
  { inMode Mode.armed [(Key.dacGroup 63, 7), (Key.dacStatus 63, st), (Key.dacCode 63, 50), (Key.minCode 63, 40), (Key.maxCode 63, 60), (Key.compHigh 63, 1000)] with
    loadsDue := [(0, some 7), (0, none)] }

theorem test_LevelsMove :
    ((sDac 1).serves .mailbox ∧ (sDac 1).strobeCode = .ok ∧ (sDac 1).cmdBusy Key.dacLoad = false ∧ (0x80 : Word).toNat < 2 ^ 8 ∧ (sDac 1).groupDacs 7 ≠ [] ∧
      (sDac 1).loadsDue = [(0, some 7), (0, none)] ∧ 0 ≤ (sDac 1).nowTick ∧ mget 0 (sDac 1).loadEdges 7 ≠ 0 + 1 ∧
      (∀ d, d < 64 → ((sDac 1).get (Key.dacGroup d)).toNat = 7 → (sDac 1).dacSource d = 1 ∨ (sDac 1).dacSource d = 2 → (sDac 1).inEnvelope d ((sDac 1).get (Key.dacCode d)).toNat = true)) ∧
    ((sDac 1).dacSource 63 = 1 ∧ (sDac 3).dacSource 63 = 3 ∧ (sDac 0).dacSource 63 = 0) ∧
    (sService.serves .mailbox ∧ sService.writeCode (sService.overlay (Key.dacPark 63) 600000) .mailbox (Key.dacPark 63) 600000 = .ok) ∧
    ((sDac 1).unitsRun = true ∧ (sDac 1).dacSource 63 ≠ 0 ∧ (199 : Int) < (sDac 1).complianceLow 63 ∧ (sDac 1).complianceHigh 63 < (1001 : Int)) ∧
    ((sDac 1).complianceLow 63 ≤ 200 ∧ 200 ≤ (sDac 1).complianceHigh 63 ∧ Mode.train ≤ (sDac 1).mode) := by
  unfold State.serves; decide +kernel
/-! ## Device time, scheduled slots and the network -/

/-- A mode with scheduled slot 63 as given: control, state, time. -/
def sSlotIn (m : Nat) (ctrl st time : Word) : State :=
  { inMode m [(Key.slotCtrl 63, ctrl), (Key.slotStatus 63, st), (Key.slotTime 63, time)] with trigoutHighZ := false }
def sSlot (ctrl st time : Word) : State := sSlotIn Mode.idle ctrl st time

theorem test_SlotsFire :
    ((sSlot 0x102 0 131072000).serves .mailbox ∧ (sSlot 0x102 0 131072000).cmdMode = false ∧ (sSlot 0x102 0 131072000).slotRest 63 = true ∧
      targetBad ((sSlot 0x102 0 131072000).slotKind 63) ((sSlot 0x102 0 131072000).slotTarget 63) = false) ∧
    ((sSlot 0x102 0 131072000).now + twoMicros ≤ resolveTime ((sSlot 0x102 0 131072000).get (Key.slotTime 63)).toNat (sSlot 0x102 0 131072000).now ∧
      0 ≤ (sSlot 0x102 0 131072000).ticksOf (resolveTime ((sSlot 0x102 0 131072000).get (Key.slotTime 63)).toNat (sSlot 0x102 0 131072000).now)) ∧
    (resolveTime ((sSlot 0x102 0 131071999).get (Key.slotTime 63)).toNat (sSlot 0x102 0 131071999).now < (sSlot 0x102 0 131071999).now + twoMicros ∧
      bit ((sSlot 0x102 0 131071999).get (Key.slotCtrl 63)) 3 = false) ∧
    ((sSlot 0x102 1 0).slotState 63 = 1 ∧ (sSlot 0x102 0 0).slotState 63 ≠ 1) ∧
    ((sSlot 0x102 2 0).slotState 63 = 2 ∧ (sSlot 0x102 2 0).ring.startSlot ≠ some 63 ∧ (sSlot 0x102 2 0).get (Key.slotPeriod 63) = 0 ∧ (sSlot 0x102 2 0).get (Key.slotLateness 63) = 0 ∧
      (sSlot 0x102 2 0).trigoutHighZ = false ∧ (sSlot 0x102 2 0).slotKind 63 = 2 ∧ (sSlot 0x102 2 0).machineCheck = false ∧ (sSlot 0x102 2 0).unitsRun = true ∧ (sSlot 0x102 2 0).mode ≠ Mode.safe ∧
      (sSlotIn Mode.safe 0x102 2 0).slotState 63 = 2 ∧ (sSlotIn Mode.safe 0x102 2 0).slotKind 63 = 2 ∧ (sSlotIn Mode.safe 0x102 2 0).ring.startSlot ≠ some 63 ∧
      (sSlotIn Mode.safe 0x102 2 0).get (Key.slotPeriod 63) = 0 ∧ (sSlotIn Mode.safe 0x102 2 0).get (Key.slotLateness 63) = 0 ∧ (sSlotIn Mode.safe 0x102 2 0).machineCheck = false ∧
      (sSlotIn Mode.safe 0x102 2 0).trigoutHighZ = false ∧ (sSlotIn Mode.safe 0x102 2 0).mode = Mode.safe) ∧
    ((sSlotIn Mode.armed 0x101 2 0).slotState 63 = 2 ∧ (sSlotIn Mode.armed 0x101 2 0).ring.startSlot ≠ some 63 ∧ (sSlotIn Mode.armed 0x101 2 0).get (Key.slotPeriod 63) = 0 ∧
      (sSlotIn Mode.armed 0x101 2 0).get (Key.slotLateness 63) = 0 ∧ (sSlotIn Mode.armed 0x101 2 0).slotKind 63 = 1 ∧ (sSlotIn Mode.armed 0x101 2 0).strobeCode = .ok) := by
  unfold State.serves; decide +kernel

/-- IDLE with PTP on, by a control word and a time source, Ethernet up at 10 Gb/s, and times of earlier messages. -/
def sPtpBy (ctrl src : Word) : State :=
  { inMode Mode.idle [(Key.ethStatus, 1), (Key.ptpCtrl, ctrl), (Key.timeSource, src)] with ptp := { sync := some (0, 7), sent := some 3, asked := some 5 } }
def sPtp : State := sPtpBy 0x11 1

/-- A Sync whose offset lies within 100 ns, at the arrival as corrected for 10 Gb/s. -/
theorem test_PtpOffsetIsSmall :
    -(100 * 65536) ≤ ((0 : Int) + (-968) * 65536 / 10 : Rat) - (0 : Int) - (0 : Int) - (0 : Int) * 65536 / 1000 ∧
      ((0 : Int) + (-968) * 65536 / 10 : Rat) - (0 : Int) - (0 : Int) - (0 : Int) * 65536 / 1000 ≤ 100 * 65536 := by
  decide +kernel

theorem test_TimeAndTheNetworkAreServed :
    (sIdle.serves .mailbox ∧ sIdle.cmdMode = false ∧ sIdle.cmdBusy Key.timeLatch = false ∧ sIdle.cmdBusy Key.timeStep = false ∧ sIdle.slotsIdle) ∧
    ((sIdle.put Key.pendingStepNs 5).pendingStep ≠ 0 ∧ -(2 ^ 63) ≤ ((sIdle.put Key.pendingStepNs 5).tRef + (sIdle.put Key.pendingStepNs 5).pendingStep).fdiv secUnits ∧
      ((sIdle.put Key.pendingStepNs 5).tRef + (sIdle.put Key.pendingStepNs 5).pendingStep).fdiv secUnits < 2 ^ 63) ∧
    (-(2 ^ 63) ≤ (sIdle.tRef + (sIdle.timeSet - sIdle.timeAt (sIdle.raw + 1))).fdiv secUnits ∧ (sIdle.tRef + (sIdle.timeSet - sIdle.timeAt (sIdle.raw + 1))).fdiv secUnits < 2 ^ 63) ∧
    (sIdle.cmdBusy Key.ptmCorr = false ∧ (sIdle.put Key.ptmCorr 2).cmdBusy Key.ptmCorr = true ∧ sIdle.get Key.timeSource ≠ 2) ∧
    ((sPtpBy 0x11 0).ptpOn = true ∧ (sPtpBy 0x11 0).get Key.timeSource ≠ 1 ∧ sPtp.ptpOn = true ∧ sPtp.get Key.timeSource = 1 ∧ sPtp.slotsIdle ∧ sPtp.clockSt ≠ 3 ∧ sPtp.getF Key.ethStatus 1 2 = 0 ∧
      (sPtp.get Key.ptpPathDelay).toInt = 0 ∧ (sPtp.get Key.ptpAsym).toInt = 0) ∧
    ((sPtpBy 0x11 0).ptp.sync = some (0, 7) ∧ (sPtpBy 0x11 0).ptp.sent = some 3 ∧ (sPtpBy 0x11 0).ptp.asked = some 5 ∧ bit ((sPtpBy 0x11 0).get Key.ptpCtrl) 3 = false ∧
      bit ((sPtpBy 0x11 0).get Key.ptpCtrl) 5 = false) ∧ (sPtpBy 0x21 1).ptpOn = true ∧
    (bit (sPtp.get Key.ptpCtrl) 5 = false ∧ bit ((sPtp.put Key.ptpCtrl 0x21).get Key.ptpCtrl) 5 = true ∧ bit (sPtp.get Key.ptpCtrl) 4 = true) ∧
    (Mode.train ≤ sPtp.mode ∧ (sPtp.put Key.clockStatus 1).clockSt = 1 ∧ (sPtp.put Key.clockStatus 1).slotsIdle ∧ sPtp.clockSt = 0) ∧ sPtp.ethUp = true := by
  unfold State.serves State.slotsIdle; decide +kernel

/-! ## Fern and the Creder ring -/

/-- IDLE with an alignment awaiting its pulse, and aligned with a measured return. -/
def sFern (st : Word) : State := { inMode Mode.idle [(Key.fernStatus, st), (Key.fernAlign, 2), (Key.epochCount, if st = 2 then 0 else 1)] with
  fernAligned := some 8000, frefPresent := true, fernAwait := st == 1 }

theorem test_FernAligns :
    (sIdle.serves .mailbox ∧ sIdle.mode = Mode.idle ∧ sIdle.cmdBusy Key.fernAlign = false ∧ (∀ n, n < 64 → sIdle.slotState n ≠ 2) ∧ sIdle.slotsIdle) ∧
    (250 * 400 ≤ 250 * ((sIdle.put Key.fernTarget 400).get Key.fernTarget).toNat ∧ 250 * ((sIdle.put Key.fernTarget 400).get Key.fernTarget).toNat < 100001) ∧
    ((sFern 0).cmdBusy Key.fernAlign = true ∧ (sFern 0).fernAwait = false ∧ (sFern 1).cmdBusy Key.fernAlign = true ∧ (sFern 1).fernAwait = true ∧ (sFern 1).fernSt = 1) ∧
    (((sFern 2).put Key.epochCount 1).fernSt = 2 ∧ ((sFern 2).put Key.epochCount 1).frefPresent = true ∧ ((sFern 2).put Key.epochCount 1).mode ≠ Mode.reset ∧
      ((sFern 2).put Key.epochCount 1).get Key.fsyncPeriod ≠ 0 ∧
      (((sFern 2).put Key.epochCount 1).get Key.epochCount).toNat % (((sFern 2).put Key.epochCount 1).get Key.fsyncPeriod).toNat ≠ 0) ∧
    ((sFern 1).mode ≠ Mode.reset ∧ (sFern 1).frefPresent = true ∧ (sFern 1).slotsIdle ∧ (sFern 2).fernSt = 2 ∧
      ((sFern 2).get Key.epochCount).toNat % ((sFern 2).get Key.fsyncPeriod).toNat = 0) ∧
    ((sFern 2).fernAligned = some 8000 ∧ ((16000 : Nat) - (8000 : Int)).natAbs ≤ 8000 ∧ (sFern 2).liveBit 58 = false) := by
  unfold State.serves State.slotsIdle; decide

/-- A sound flit. -/
def flitOf (src : Nat) (typ cls : Nat) (payload : BitVec 32) : Flit :=
  wire { typ := typ, cls := cls, src := src, resent := false, seq := 3, mark := false, due := 900, payload := payload, crc := 0 }

/-- A device of a ring with a control word, ring status and ring. -/
def sRing (ctrl st : Word) (r : Ring) : State := { inMode Mode.idle [(Key.ringCtrl, ctrl), (Key.ringStatus, st), (Key.fernStatus, 2)] with ring := r }

/-- The master with FORM under way, a FORM that position 5 has marked, and a device with a flit to send. -/
def sMaster (f : Flit) : State := (sRing 3 0x19 { Ring.rest with inFlight := [f] }).put Key.ringForm 2
def flitMarked : Flit := let f := { flitOf 0 1 0 0x05000003 with mark := true }; { f with crc := flitCrc f }
def sSends : State := sRing 1 2 { Ring.rest with pendingFlits := [flitOf 0 5 1 1] }

theorem test_TheRingForms :
    ((sRing 3 0 Ring.rest).serves .mailbox ∧ (sRing 3 0 Ring.rest).mode = Mode.idle ∧ (sRing 3 0 Ring.rest).cmdBusy Key.ringForm = false ∧ (sRing 3 0 Ring.rest).ringMaster = true) ∧
    (((sRing 3 1 Ring.rest).put Key.ringForm 2).cmdBusy Key.ringForm = true ∧ 1 ≤ 5) ∧
    ((sRing 1 0x18 Ring.rest).ringEnabled = true ∧ (sRing 1 0x18 Ring.rest).mode ≠ Mode.reset ∧ flitOk (flitOf 2 1 0 30) = true ∧ (sRing 1 0x18 Ring.rest).ringMaster = false ∧
      (sRing 1 0x18 Ring.rest).seenFlit { flitOf 2 1 0 30 with due := (sRing 1 0x18 Ring.rest).resolveDue (flitOf 2 1 0 30).due } = false ∧
      (flitOf 2 1 0 30).payload.toNat / 32 % 2 = 0 ∧ (flitOf 2 1 0 30).payload.toNat % 32 < 31 ∧ ((sRing 1 0x18 Ring.rest).fernSt = 2 ∧ (sRing 1 0x18 Ring.rest).mode = Mode.idle) ∧
      flitOk (flitOf 2 1 0 0x23) = true ∧ (flitOf 2 1 0 0x23).payload.toNat / 32 % 2 = 1 ∧ (sRing 1 0x18 Ring.rest).linkA = true ∧ (sRing 1 0x18 Ring.rest).linkB = true ∧
      (false && (sRing 1 0x18 Ring.rest).linkB) = false) ∧
    (∀ f ∈ [flitOf 0 1 0 0x23, flitOf 0 1 0 3, flitMarked], (sMaster f).ringEnabled = true ∧ (sMaster f).mode ≠ Mode.reset ∧ flitOk f = true ∧ (sMaster f).ringMaster = true ∧
      (sMaster f).cmdBusy Key.ringForm = true ∧ (sMaster f).ownFlit f = true ∧ (sMaster f).linkA = true ∧ (sMaster f).linkB = true) ∧
    ((flitOf 0 1 0 0x23).payload.toNat / 32 % 2 = 1 ∧ (flitOf 0 1 0 3).payload.toNat / 32 % 2 = 0 ∧ (flitOf 0 1 0 3).mark = false ∧ (sMaster (flitOf 0 1 0 3)).fernSt = 2 ∧
      flitMarked.payload.toNat / 32 % 2 = 0 ∧ flitMarked.mark = true ∧ flitMarked.payload.toNat / 2 ^ 24 % 32 ≠ 0) ∧
    ((sRing 1 1 Ring.rest).ringEnabled = true ∧ (sRing 1 1 Ring.rest).mode ≠ Mode.reset ∧ flitOk (flitOf 31 2 0 0) = true ∧ (sRing 1 1 Ring.rest).ringSt = 1 ∧ (flitOf 31 2 0 0).src < 32 ∧
      (mget (0, 0) (sRing 1 1 Ring.rest).ring.hops 31).1 + 1 ≠ 256) ∧
    (sSends.ringEnabled = true ∧ (∀ f ∈ sSends.ring.inFlight, f.typ ≠ 2) ∧ sSends.ring.breaking = none ∧ sSends.ringSt ≠ 0 ∧
      firstFlit (sSends.ring.pendingFlits.filter (fun f => decide (0 < sSends.ring.credit f.cls))) = some (flitOf 0 5 1 1) ∧ (flitOf 0 5 1 1).typ ≠ 7) ∧
    ((sRing 1 0 { Ring.rest with breaking := some 3 }).ringEnabled = true ∧ (∀ f ∈ (sRing 1 0 { Ring.rest with breaking := some 3 }).ring.inFlight, f.typ ≠ 2) ∧
      (sRing 1 0 { Ring.rest with breaking := some 3 }).ring.breaking = some 3) ∧
    (Mode.train ≤ (sRing 1 2 Ring.rest).mode ∧ (sRing 1 2 Ring.rest).liveBit 59 = false) := by
  unfold State.serves; decide +kernel

/-- A member in position 1 of a ring in use, and thread 3071 on port 8191 in such a ring, with `n` tokens banked and an epoch count. -/
def sMember : State := sRing 5 0x83A Ring.rest
def sTokens (n : Nat) (epoch : Word) : State := (((sBurst 2 { Thread.idle with banked := List.replicate n 0 }).put Key.ringCtrl 1).put Key.ringStatus 0x83A).put Key.epochCount epoch

/-- A flit with a bad CRC; the device of position 0 with a flit of its own under way, a joint start of its own, and a start asked for by position 1. -/
def flitBad : Flit := { flitOf 2 3 0 0 with crc := (flitOf 2 3 0 0).crc + 1 }
def sOwn (f : Flit) : State := sRing 5 0x1A { Ring.rest with inFlight := [f] }
def sStarts (f : Flit) (m : Nat) : State :=
  { (inMode m [(Key.ringCtrl, 5), (Key.ringStatus, 0x83A), (Key.fernStatus, 2), (Key.burstStart, 2)]) with
    ring := { Ring.rest with inFlight := [f], startFlight := true, starters := [0] } }

/-- A claimed token held for its DUE by a device whose thread 3071 has 14 banked. -/
def flitClaimed : Flit := { flitOf 2 6 2 0x1FFF with mark := true }
def sDue : State := { sTokens 14 0 with ring := { Ring.rest with due := [flitClaimed] } }

theorem test_FlitsAct_members :
    (sMember.ringEnabled = true ∧ sMember.mode ≠ Mode.reset ∧ flitOk flitBad = false ∧ (false && sMember.linkB) = false) ∧
    (sMember.reached (flitOf 2 3 0 0) ∧ sMember.reached (flitOf 2 4 0 0) ∧ sMember.reached (flitOf 2 5 1 1) ∧
      sMember.flitLate { flitOf 2 5 1 1 with due := sMember.resolveDue (flitOf 2 5 1 1).due } = false ∧
      (sMember.put Key.epochCount 28).reached (flitOf 2 5 1 1) ∧
      (sMember.put Key.epochCount 28).flitLate { flitOf 2 5 1 1 with due := (sMember.put Key.epochCount 28).resolveDue (flitOf 2 5 1 1).due } = true) ∧
    (sMember.reached (flitOf 2 6 2 0) ∧ sMember.tokenThread (flitOf 2 6 2 0) = none) ∧
    (∀ n ∈ [14, 15], (sTokens n 0).reached (flitOf 2 6 2 0x1FFF) ∧ (sTokens n 0).tokenThread (flitOf 2 6 2 0x1FFF) = some 3071 ∧
      (sTokens n 0).flitLate { flitOf 2 6 2 0x1FFF with due := (sTokens n 0).resolveDue (flitOf 2 6 2 0x1FFF).due } = false ∧ (sTokens n 0).placesTaken 3071 = n) := by
  unfold State.reached; decide +kernel

theorem test_FlitsAct_own :
    (∀ f ∈ [flitOf 0 4 0 0, flitOf 0 5 1 0, flitOf 0 7 3 0, flitOf 0 8 0 0, { flitOf 0 6 2 0 with mark := true, crc := flitCrc { flitOf 0 6 2 0 with mark := true } }, flitOf 0 6 2 0],
      (sOwn f).ringEnabled = true ∧ (sOwn f).mode ≠ Mode.reset ∧ flitOk f = true ∧ (sOwn f).ownFlit f = true) ∧
    (∀ f ∈ [flitOf 1 3 0 0, flitOf 1 3 0 4, { flitOf 1 3 0 0 with mark := true, crc := flitCrc { flitOf 1 3 0 0 with mark := true } }],
      (sStarts f Mode.armed).ringEnabled = true ∧ (sStarts f Mode.armed).mode ≠ Mode.reset ∧ flitOk f = true ∧ (sStarts f Mode.armed).ownFlit f = true ∧ f.typ = 3 ∧
        (sStarts f Mode.armed).ring.startFlight = true ∧ (sStarts f Mode.armed).cmdBusy Key.burstStart = true ∧ (sStarts f Mode.armed).marker = some 0 ∧
        (sStarts f Mode.armed).ring.inFlight.find? (fun x => x.typ == 3 && x.seq == f.seq) = some f) ∧
    (flitOk (flitOf 0 9 0 0) = true ∧ (sOwn (flitOf 0 3 0 0)).ring.inFlight.find? (fun x => (flitOf 0 9 0 0).src == (sOwn (flitOf 0 3 0 0)).ringPos && x.seq == (flitOf 0 9 0 0).seq) = some (flitOf 0 3 0 0) ∧
      (flitOf 0 3 0 0).resent = false ∧ flitOk (flitOf 2 9 0 0) = true ∧ (flitOf 2 9 0 0).src ≠ (sOwn (flitOf 0 3 0 0)).ringPos) := by
  decide +kernel

theorem test_FlitsAct_due :
    (flitOk (flitOf 2 8 0 5) = true ∧ sMember.ownFlit (flitOf 2 8 0 5) = false ∧ (sMember.put Key.ringForm 2).cmdBusy Key.ringForm = true) ∧
    (earliestDue (sRing 5 3 { Ring.rest with due := [flitOf 2 5 1 1] }).ring.due = some (flitOf 2 5 1 1)) ∧
    (earliestDue sDue.ring.due = some flitClaimed ∧ flitClaimed.typ = 6 ∧ flitClaimed.mark = true ∧ sDue.tokenThread flitClaimed = some 3071 ∧ (sDue.thread 3071).waitRun = none ∧
      State.placesTaken { sDue with ring := { sDue.ring with due := sDue.ring.due.erase flitClaimed } } 3071 < 15) ∧
    ((sRing 0 0x1A Ring.rest).mode ≠ Mode.reset ∧ bit ((sRing 0 0x1A Ring.rest).get Key.ringStatus) 4 = true ∧ bit ((sRing 0 0x1A Ring.rest).get Key.ringStatus) 3 = true ∧
      (sRing 0 0x1A Ring.rest).ringEnabled = false ∧ (sRing 0 0x1A Ring.rest).ringSt ≠ 0) ∧
    ((sRing 1 0x1A Ring.rest).mode ≠ Mode.reset ∧ bit ((sRing 1 0x1A Ring.rest).get Key.ringStatus) 4 = true ∧ bit ((sRing 1 0x1A Ring.rest).get Key.ringStatus) 3 = true ∧
      (sRing 1 0x1A Ring.rest).ringEnabled = true ∧ (sRing 1 0x1A Ring.rest).ringSt ≠ 0) := by
  decide +kernel

/-! ## Badger -/

/-- A slice self-test of slice 31 asked for in slot 15. -/
def sRequest (st : Word) (q : List Nat) : State := { inMode Mode.idle [(Key.reqCtrl 15, 0x10020), (Key.reqTarget 15, 0x80000000), (Key.reqCmd 15, st)] with badgerQueue := q }

/-- What deskew found on a channel that passes, on every channel of the device, and what the self-test found on slice 31. -/
def deskewPass (g : Nat) : DeskewResult := { channel := g, present := true, levels := true, coarse := 7, rise := 3000, fall := 3000, dip := 3000, lift := 3000, eye := 200 }
def deskewAll : List DeskewResult := (List.range 1024).map deskewPass
/-- A self-test of DAC 63 at its first code. -/
def dacRoutine : Routine := { routineOf 0x21 false with tested := [63], held := [(63, 1, 0)] }
def unitOne : UnitResult := { unit := 31, passed := true, block := 0, chan := 0, error := 0 }

theorem test_RequestsRun :
    ((sRequest 0 []).serves .mailbox ∧ (sRequest 0 []).cmdMode = false ∧ (sRequest 0 []).mode ≠ Mode.safe ∧ (sRequest 0 []).cmdBusy (Key.reqCmd 15) = false ∧
      (sRequest 0 []).reqBad 15 = false ∧ (sRequest 0 []).reqUnlocked 15 = [] ∧ (sRequest 0 []).reqNow 15 = false) ∧
    ((sRequest 1 [15]).cmdBusy (Key.reqCmd (15 : Word).toNat) = true ∧ (sRequest 1 [15]).routine = none ∧ (sRequest 1 [15]).cmdState (Key.reqCmd 15) = Cmd.pending) ∧
    ((sRequest 1 [15]).machineCheck = false ∧ (sRequest 1 [15]).nextRequest [] (sRequest 1 [15]).badgerQueue = some 15 ∧ (sRequest 1 [15]).mode ≠ Mode.burst ∧ (sRequest 1 [15]).burst.running = false ∧
      (sRequest 0 []).nextRequest [] (sRequest 0 []).badgerQueue = none) ∧
    ((sRoutine (routineOf 0x20 true)).routine = some (routineOf 0x20 true) ∧ (sRoutine (routineOf 0x20 true)).machineCheck = false ∧ (routineOf 0x20 true).slot < 16 ∧
      (∀ sl ∈ (routineOf 0x20 true).slices, sl < 32)) ∧
    ((sRoutine (routineOf 0x20 false)).routine = some (routineOf 0x20 false) ∧ (∀ x ∈ unitsOf (routineOf 0x20 false).slices [unitOne], x.passed = true) ∧
      unitsOf (routineOf 0x20 false).slices [unitOne] = [unitOne]) ∧
    ((∀ b : Bool, (sRoutine (routineOf 0x20 b)).routine = some (routineOf 0x20 b)) ∧ (routineOf 0x20 false).held = [] ∧
      (sRoutine dacRoutine).routine = some dacRoutine ∧ dacRoutine.postCommit = false ∧ (sRoutine dacRoutine).machineCheck = false ∧ dacRoutine.held = [(63, 1, 0)] ∧
      ((sRoutine dacRoutine).testCodes 63)[min 2 (dacRoutine.point + 1)]?.isSome = true ∧ (sRoutine dacRoutine).dacSource 63 ≠ 3) := by
  unfold State.serves; decide

/-- The channels of a deskew of every channel all pass, in whatever state their asymmetry lets them. -/
theorem deskewAll_passes (s : State) (sls : List Nat) (h : ∀ sl ∈ sls, sl < 32) (hs : ∀ g, g < 1024 → s.deskewCause (deskewPass g) = 0) :
    ∀ r ∈ deskewOf sls deskewAll, s.deskewCause r = 0 := by
  intro r hr
  simp only [deskewOf, List.mem_flatMap, List.mem_map, List.mem_range] at hr
  obtain ⟨sl, hsl, c, hc, rfl⟩ := hr
  have hlt : 32 * sl + c < 1024 := by have := h sl hsl; omega
  cases hf : deskewAll.find? (fun r => r.channel == 32 * sl + c) with
  | none => exact absurd (List.find?_eq_none.mp hf (deskewPass (32 * sl + c)) (List.mem_map.mpr ⟨_, List.mem_range.mpr hlt, rfl⟩)) (by simp only [deskewPass]; simp)
  | some x =>
    obtain ⟨g, hg, rfl⟩ := List.mem_map.mp (List.mem_of_find?_eq_some hf)
    exact hs g (List.mem_range.mp hg)

theorem test_RoutinesCommit :
    ((sRoutine (routineOf 1 false)).routine = some (routineOf 1 false) ∧ (routineOf 1 false).postCommit = false ∧ (sRoutine (routineOf 1 false)).machineCheck = false ∧
      (∀ sl ∈ (routineOf 1 false).slices, sl < 32) ∧ (routineOf 1 false).code = 1) ∧
    (∀ d ∈ deskewOf (routineOf 1 false).slices deskewAll, (sRoutine (routineOf 1 false)).deskewCause d = 0) :=
  ⟨by decide, deskewAll_passes _ _ (by decide) (by decide +kernel)⟩

theorem test_HousekeepingActs :
    (sIdle.housekeeping = true ∧ sIdle.sliceModeOf 31 ≠ 1 ∧ (-4294967295 : Int).natAbs < 2 ^ 32 ∧ sIdle.portRuns 31 = false ∧ (sBurst 2 Thread.idle).housekeeping = true ∧
      (sBurst 2 Thread.idle).portRuns 31 = true ∧ (sBurst 2 Thread.idle).sliceModeOf 31 ≠ 1) ∧
    (Mode.train ≤ sIdle.mode ∧ sIdle.mode ≤ Mode.safe ∧ (sIdle.slice 31).drift = none ∧ ((sIdle.putSlice 31 { SliceSt.rest with drift := some (-900) }).slice 31).drift = some (-900)) ∧
    ((sIdle.get (Key.driftLag 31)).toInt.natAbs ≤ 4000 ∧ 4000 < ((sIdle.put (Key.driftLag 31) (intWord (-4001))).get (Key.driftLag 31)).toInt.natAbs ∧ (sIdle.slice 31).lagHigh = false ∧
      (∀ x ∈ (sIdle.slice 31).margins, x.2 ≤ (sIdle.get Key.eyeLimit).toNat)) ∧
    (sIdle.monitored 1023 = true ∧ (sIdle.put (Key.laneStatus 1023) 1).laneState 1023 = 1 ∧ (sIdle.put (Key.laneStatus 1023) 1).monitored 1023 = true ∧
      (sIdle.put (Key.laneStatus 1023) 2).monitored 1023 = false) ∧
    ((sIdle.slice 31).pllLocked = true ∧ (sFern 2).frefPresent = true ∧ ((sFern 2).putSlice 31 { SliceSt.rest with pllLocked := false }).diag = none ∧
      (((sFern 2).putSlice 31 { SliceSt.rest with pllLocked := false }).slice 31).pllLocked = false) ∧
    (sIdle.liveBit 62 = false ∧ (sIdle.put (Key.faultLive 0) 0x4000000000000000).liveBit 62 = true) ∧ (regionOfPage 1023 = some 6) := by decide

/-! ## Reset, boot and power -/

/-- BOOT with the accepted image running; RESET with the selector at slot 1; what training finds on a sub-channel that passes. -/
def sBoot : State := inMode Mode.boot [(Key.bootStatus, 4), (Key.guardStatus, 4)]
def sSelects : State := { State.reset with nvm := { State.reset.nvm with sel0 := ⟨.valid, 1, 1⟩ } }
def trainAll : List SubchTrain := (List.range 12).map (fun i => ⟨i, 0, List.replicate 5 (1, 1, 32, 32), false⟩)

theorem test_ResetsAreTaken :
    (sIdle.mode ≠ Mode.reset ∧ State.reset.mode = Mode.reset ∧ State.reset.resetSeen.contains 1 = false ∧ (0x40 : BitVec 7) ≠ 0 ∧ (0x40 : BitVec 7).getLsbD 6 = true ∧
      (0x01 : BitVec 7).getLsbD 6 = false) ∧
    (sIdle.serves .mailbox ∧ sIdle.resetPending = false ∧ (1 : Word) ≠ 0xA5A5 ∧ ({ sIdle with resetPending := true } : State).resetPending = true) := by
  unfold State.serves; decide

theorem test_TheDeviceBoots :
    (State.reset.mode = Mode.reset ∧ (∀ i c, inUse State.reset.nvm.guard0 State.reset.nvm.guard1 = some (i, c) → ∀ e ∈ c.entries, isGuardKey e.1 = true) ∧
      (∀ c, State.reset.nvm.bestLedger = some c → c.bins.length = 16) ∧ (∀ p, p < 32 → p ∈ State.reset.nvm.factoryBad → p + 32 ∉ State.reset.nvm.factoryBad) ∧ State.reset.nvm.tornSlots = []) ∧
    (sSelects.mode = Mode.reset ∧ sSelects.nvm.guard0 = State.reset.nvm.guard0 ∧ sSelects.nvm.guard1 = State.reset.nvm.guard1 ∧ sSelects.nvm.bestLedger = none ∧ sSelects.nvm.factoryBad = [] ∧
      sSelects.nvm.tornSlots = []) ∧
    ((if State.reset.nvm.bootSlot = 0 then 1 else 4) = 1 ∧ (if State.reset.nvm.bootSlot = 0 then 4 else 1) ≠ 1 ∧ State.reset.nvm.bootSlot < 2 ∧ (if sSelects.nvm.bootSlot = 0 then 4 else 1) = 1 ∧
      (if sSelects.nvm.bootSlot = 0 then 1 else 4) ≠ 1 ∧ sSelects.nvm.bootSlot < 2 ∧ (4 : Nat) ≠ 1) ∧
    (sBoot.mode = Mode.boot ∧ sBoot.getF Key.bootStatus 0 3 = 4 ∧ inUse sBoot.nvm.bankA sBoot.nvm.bankB = none ∧ sBoot.nvm.closed = false ∧ bit (sBoot.get Key.guardStatus) 2 = true ∧
      sBoot.unlocked = false ∧ sBoot.routine = none ∧ sBoot.diag = none) ∧
    (sTrain.mode = Mode.train ∧ sTrain.modeChanging = false ∧ sTrain.diag = none ∧ sTrain.routine = none ∧ (∀ i ∈ sTrain.populated, trainCause (trainOf trainAll i) = 0)) ∧
    (∀ r ∈ deskewOf (List.range 32) deskewAll, sTrain.deskewCause r = 0) := by
  refine ⟨⟨by decide, ?_, ?_, by decide, by decide⟩, by decide, by decide, by decide, by decide, deskewAll_passes _ _ (fun sl h => List.mem_range.mp h) (by decide +kernel)⟩
  · intro i c h e he
    have h2 : inUse State.reset.nvm.guard0 State.reset.nvm.guard1 = some (0, ⟨.valid, 1, []⟩) := by decide
    rw [h2] at h; cases h; cases he
  · intro c h
    have h2 : State.reset.nvm.bestLedger = none := by decide
    rw [h2] at h; cases h

theorem test_PowerFails :
    (State.reset.mode = Mode.reset ∧ sIdle.mode = Mode.idle ∧ (sIdle.put (Key.faultSeverity 7) 1).severityOf 7 ≤ Sev.degrade ∧ sIdle.powerFailing = false ∧ sIdle.modeChanging = false ∧
      sIdle.routine = none ∧ sIdle.diag = none) ∧
    ((sIdle.put Key.quiesceStatus 2).powerFailing = true ∧ sIdle.nvm.closed = false) ∧
    ((inMode Mode.quiesce []).mode = Mode.quiesce ∧ (inMode Mode.quiesce []).powerFailing = false ∧ bit ((inMode Mode.quiesce []).get Key.quiesceStatus) 0 = false ∧
      (inMode Mode.quiesce []).lichenBusy = false ∧ (inMode Mode.quiesce []).nvm.closed = false ∧ (∀ c, c < 8 → ((inMode Mode.quiesce []).chan c).state = 0)) := by decide
/-! ## Well-formedness: a command that each check refuses, and the last unit that it takes -/

theorem test_illFormed_threads :
    [Instr.spanArrival 0 3072 0, .spanCreditReturn 0 3072, .fetchComplete 3072, .cycleStart 3072 [] false .clean, .adv 3072 0, .segm 3072 0 false 0 0, .trigTrigout 3072 0 0,
      .trigTiuArm 3072 0 0, .trigAdcStart 3072 0 0, .trigDacLoad 3072 0 0, .trigAcqArm 3072 0 0, .trigRing 3072 0 0, .capcFullcap 3072 0 0 0 0, .capcJudge 3072 0 0 0 0,
      .capcSig 3072 0 0 0 0, .flag 3072 0 0 0 false false 0, .loop 3072 0 0 0, .halt 3072 0, .jmp 3072 0 false 0, .call 3072 0 false 0, .ret 3072 0 false, .lend 3072 0 0,
      .pref 3072 0, .sync 3072 0 false false, .matchStart 3072 0 1 false, .matchExit 3072, .waittrig 3072 0 0, .waittrigTimeout 3072, .waittime 3072 0, .waittimeWake 3072,
      .syncToken 3072 0 0, .hostJump .mailbox 3072 0, .hostJumpTaken 3072].all (fun c => !c.wf) = true ∧ (Instr.adv 3071 0).wf = true := by decide

theorem test_illFormed_slices_and_lanes :
    [Instr.dispatch 64, .preempt 64, .spanArrival 32 0 0, .spanCreditReturn 32 0, .driftTracking 32 0, .driftCorrectionApply 32, .driftLimit 32, .eyeAggregation 32, .slicePllUnlock 32,
      .slicePllLock 32, .marginError 1024, .laneTxFault 1024, .laneRxOpen 1024].all (fun c => !c.wf) = true ∧ (Instr.dispatch 63).wf = true ∧ (Instr.marginError 1023).wf = true := by decide

theorem test_illFormed_units :
    [Instr.triginEdge 8 true, .trigoutEnd 16, .tiuArm .mailbox 16, .tiuDisarm .mailbox 16, .tiuEdge 16 false (.aux false) 0 0, .tiuGateEnd 16, .tiuTimeout 16, .tiuHoldoffEnd 16,
      .adcStart .mailbox 16, .adcStop .mailbox 16, .adcConversion 16 0, .acqArm .mailbox 8, .acqDisarm .mailbox 8, .acqForce .mailbox 8, .acqSample 8 0, .acqGroupFire 8, .acqRearmEnd 8,
      .acqRelease .mailbox 8 0, .failRateInterval 8192, .dacParkWrite .mailbox 64 0, .dacCompliance 64 0, .dacModulator 64, .slotArm .mailbox 64, .slotCancel .mailbox 64, .slotLaunch 64,
      .slotAction 64, .reqCmd .mailbox 16 0, .reqDeadline 16].all (fun c => !c.wf) = true ∧ (Instr.slotAction 63).wf = true := by decide

theorem test_illFormed_host_and_memory :
    [Instr.hotWindowWrite 256 0 8 0, .hotWindowWrite 0 8 1 0, .hotWindowWrite 0 0 0 0, .hotWindowWrite 0 1 8 0, .bar2Write 68719476735 [0, 0], .bar2Read 68719476735 2 .clean, .dmaDoorbell 8 0 [], .dmaRun 8 false, .dmaStop 8, .descBaseWrite 8 .descBase 0,
      .descriptorClose 8 [] none, .dmaHostError 8 1 [], .dmaHostError 0 0 [], .dmaHostError 0 4 [], .writeDrain 12, .refreshDue 12 0 0, .refreshRatePoll 12 0 0, .act 12 0 0 0,
      .actWindowReset 12 0, .retrainPause 12 0 false 0 0, .retrainEnd 12, .ceRateCheck 12 0 0, .nvmVerify 1024 true].all (fun c => !c.wf) = true ∧
    (Instr.hotWindowWrite 255 4 4 0).wf = true := by decide

/-- A flit of a source that no ring has. -/
def noSource (typ cls : Nat) (payload : BitVec 32) : Flit := { flitOf 0 typ cls payload with src := 32 }

theorem test_illFormed_faults_flits_reset :
    [Instr.faultRaise [raise72, { raise72 with source := 128 }], .faultRaise [{ raise72 with loc := .thread 3072 }], .faultRaise [{ raise72 with loc := .channel 1024 }],
      .faultRaise [{ raise72 with loc := .slice 32 }], .faultRaise [{ raise72 with loc := .dac 64 }], .faultRaise [{ raise72 with loc := .subch 12 }],
      .faultRaise [{ raise72 with loc := .unit 4096 }], .faultRaise [{ raise72 with detail := 4294967296 }], .faultCauseClear .mailbox 3 0, .faultCauseRead .mailbox 0,
      .firstFaultRead .mailbox none 3, .firstFaultRead .mailbox (some 32) 1, .liveBitClear 128, .flitForm true (noSource 1 0 0), .flitMeasure true { flitOf 0 2 0 0 with typ := 16 } 0 0, .flitMeasure true (flitOf 0 2 0 0) 0 400, .flitCond true { flitOf 0 5 1 0 with seq := 256 }, .flitCond true { flitOf 0 5 1 0 with due := 281474976710656 }, .ringSlot 0 400, .ptpEventFrameSend 4 true 0, .flitStartReq true { flitOf 0 3 0 0 with cls := 4 },
      .flitLaunch true (noSource 4 0 0), .flitCond true (noSource 5 1 0), .flitToken true (noSource 6 2 0), .flitTrig true (noSource 7 3 0), .flitBreak true (noSource 8 0 0), .flitErrored true (noSource 9 0 0),
      .ledgerSecond [1], .resetRelease true true 5 0 0, .resetRelease true true 0 5 0, .fwActivateDone 4].all (fun c => !c.wf) = true ∧ (Instr.liveBitClear 127).wf = true := by decide

/-! ## Examples the spec works out -/

/-- The words of R106-R108, field by field: OPCODE 5:0, MOD 7:6, then the operand fields named. -/
theorem test_microwords_by_the_table :
    decodeWord 0x0000001E00000000 = some (.adv 30) ∧                       -- ADV, REPEAT 30
    decodeWord 0x0000000000130701 = some (.segm 7 true 9 0) ∧              -- SEGM, LABEL 7, TRIGEN, TRIGOUT 9
    decodeWord 0x0000000180010202 = some (.trig 2 0 0x8001 1) ∧            -- TRIG, KIND 2, MASK 0x8001, REPEAT 1
    decodeWord 0x0000000000003A03 = some (.capc 2 2 3 0) ∧                 -- CAPC, FULLCAP 2, JUDGE 2, SIG 3
    decodeWord 0x000000003F028104 = some (.flag 0x81 2 15 true true 0) ∧   -- FLAG, SETUF 0x81, CLRUF 2, RCN 15, RCPUB, RCVAL
    decodeWord 0x00000002000007C5 = some (.loop 3 7 2) ∧                   -- LOOP, counter 3, COUNT 7, REPEAT 2
    decodeWord 0x0000000000000006 = some (.halt 0) ∧
    decodeWord 0xFFFFFFFD00000050 = some (.jmp 0 true (-3)) ∧              -- JMP, INV, COND 0, TARGET -3
    decodeWord 0x0000000500001811 = some (.call 0x18 false 5) ∧            -- CALL, COND 0x18 (UF0), TARGET 5
    decodeWord 0x0000000000001012 = some (.ret 0x10 false) ∧
    decodeWord 0xFFFFFFFE00000053 = some (.lend 1 (-2)) ∧
    decodeWord 0x0000000900000014 = some (.pref 9) ∧
    decodeWord 0x0000000000350018 = some (.sync 5 true true) ∧
    decodeWord 0x000003E800030060 = some (.matchW 3 1000 true) ∧           -- MATCH, INV, BODY 3, TIMEOUT 1000
    decodeWord 0x0000000500110021 = some (.waittrig 17 5) ∧
    decodeWord 0x0000000700000022 = some (.waittime 7) := by decide

/-- R109: a reserved opcode, a MOD that must be 0, TIMEOUT 0, a reserved KIND, a SOURCE above 17, a positive LEND target, a reserved COND. -/
theorem test_microwords_refused :
    [(0x07 : Word), 0x40, 0x20, 0x602, 0x120021, 0x0000000100000013, 0x310].all (fun w => (decodeWord w).isNone) = true := by decide

/-- The example under R82: LOAD_STATUS 0x0B102A33 and LOAD_DETAIL 0x1E000102. -/
theorem test_load_status_example :
    loadWord (some (eventFail 42 2 177 0 1 9001 1 (psUp 120))) = 0x0B102A33 ∧ (eventFail 42 2 177 0 1 9001 1 (psUp 120)).detail = 0x1E000102 := by decide

/-- The example of R189's section: RT 9,400 steps, LANE_ASYM 1,000 tu. -/
theorem test_deskew_example :
    splitT 9400 1000 = 4860 ∧ gridFs 9400 = 7343750 ∧ gridFs 4860 = 3796875 ∧ gridFs 4540 = 3546875 := by decide

/-- The example under R215: one stream, two orientations. -/
theorem test_signature_example :
    sigFinal ⟨8, 7, 0, 0, false, false⟩ ([true, false, false, false, false, false, false, false].foldl (sigStep ⟨8, 7, 0, 0, false, false⟩) 0) = 0x89 ∧
    sigFinal ⟨8, 7, 0, 0, true, true⟩ ([true, false, false, false, false, false, false, false].foldl (sigStep ⟨8, 7, 0, 0, true, true⟩) 0) = 0x91 := by decide

/-- The example under R241: four hops of 124.0 ns in all give LAP 127.5 ns and RING_LAT 550 ns. -/
theorem test_ring_latency_example : lapOf 4 124000 = 127500 ∧ latOf 4 127500 = 550 := by decide

/-- The example under R280: device address 0x100001A40 with all twelve sub-channels of the default configuration. -/
theorem test_address_example :
    (inMode Mode.idle [(Key.dramEnabled, 0xFFF)]).localOf 0x100001A40 = (6, 0x15555740) ∧
      (inMode Mode.idle [(Key.dramEnabled, 0xFFF)]).cellOf 0x15555740 = (0, 7 + 8 * 2, 2730, 41) := by decide

/-- The example under R379: the first half of the first-fault record of FS049 on CH0177. -/
theorem test_fault_record_example :
    recordLow 49 2 5 (.channel 177) false = 0x0000000500B142B1 ∧ setField (recordLow 49 2 5 (.channel 177) false) 11 1 1 = 0x0000000500B14AB1 := by decide

/-- The example under R325: slot 3, armed at 1,700,000,001 s for 1,700,000,012 s, launches at raw 13,399,906,001, quarter 0. -/
theorem test_slot_example :
    (match exec (.slotArm .mailbox 3) (inMode Mode.idle [(Key.modelRRef, 4000000000), (Key.modelTRefSec, 1700000000), (Key.modelTRefSub, 16384000000000), (Key.modelRate, 10995116),
        (Key.rawAtEpoch0, 4000000003), (Key.rawCount, 4600000000), (Key.slotTime 3, 4044095488000000000)]) with
      | .next t => ((t.slotSt 3).fullTime, (t.slotSt 3).instant)
      | _ => ((0 : Int), (0 : Nat))) = (((1700000012 * secUnits : Nat) : Int), 4 * 13399906001) := by decide +kernel

/-- R158: DA at 1,000 tu is index 320 of the placement grid (the example of 400 Mvps); R7: the key of `24.0031.02`. -/
theorem test_grid_and_key : gridIndex 1000 = 320 ∧ mkKey 0x24 0x31 2 = 0x24003102 := by decide

/-- R406: a token of the persist bucket comes every 90 minutes, and the full black-box bucket stays full. -/
theorem test_buckets_refill :
    (match exec (.ledgerSecond (List.replicate 8 1000)) { inMode Mode.idle [(Key.nvmTokens 3, 256)] with bootSeconds := 5399 } with
      | .next t => [t.get (Key.nvmTokens 0), t.get (Key.nvmTokens 1), t.get (Key.nvmTokens 3)]
      | _ => []) = [1, 0, 256] := by
  decide +kernel

/-- R428: the data register that a reset of the TAP selects reads IDCODE. -/
theorem test_idcode : State.reset.tapData = 0x110243E7 := by decide

/-! ## The table of the block has no bits -/

theorem test_no_word_spells_a_command : decodeTableWord 64 5 = none ∧ State.reset.withFetchWord 64 5 = State.reset := by decide

end Sys2Proof.Tests
end

section
/-! The block as a whole: the front command runs (O1), and only a unit that does not exist stops it (O6). -/

namespace Sys2Proof.Machine

/-- The outcome is a next state; or the command, whose well-formedness is `wf`, is ill-formed and the model stops on a unit that does not exist. -/
def CompletesUnlessIllFormed (wf : Bool) (o : Out) : Prop := Completes o ∨ (wf = false ∧ o = .fault .noSuchUnit)

section
variable {wf : Bool}

theorem completesUnlessIllFormed_next (t : State) : CompletesUnlessIllFormed wf (.next t) := .inl ⟨t, rfl⟩

/-- A guard that holds for every well-formed command stops ill-formed ones only. -/
theorem completesUnlessIllFormed_guard {c : Prop} [Decidable c] (hc : wf = true → c) (t : State) :
    CompletesUnlessIllFormed wf (if c then .next t else .fault .noSuchUnit) := by
  split
  case isTrue => exact completesUnlessIllFormed_next t
  case isFalse h => exact .inr ⟨Bool.eq_false_iff.mpr (mt hc h), rfl⟩

theorem completesUnlessIllFormed_within {n count : Nat} (hn : wf = true → n < count) (t : State) : CompletesUnlessIllFormed wf (within n count t) :=
  completesUnlessIllFormed_guard hn t

/-- A microword completes where its thread exists. -/
theorem completesUnlessIllFormed_micro {thread : Nat} (hth : wf = true → thread < 3072) (s : State) (u : Uop) : CompletesUnlessIllFormed wf (s.micro thread u) :=
  completesUnlessIllFormed_within hth _

end

/-- The four shapes a command can have: a microword of a thread; a command on one numbered unit; an access to a numbered record of the collector, or its raises; and
one that completes whatever it names (the arrival of a flit among them, R228). -/
theorem exec_completesUnlessIllFormed (c : Instr) (s : State) : CompletesUnlessIllFormed c.wf (exec c s) := by
  cases c
  case adv | segm | trigTrigout | trigTiuArm | trigAdcStart | trigDacLoad | trigAcqArm | trigRing | capcFullcap | capcJudge | capcSig | flag | loop | halt | jmp |
      call | ret | lend | pref | sync | matchStart | waittrig | waittime =>
    exact completesUnlessIllFormed_micro of_decide_eq_true s _
  case dispatch | preempt | fetchComplete | cycleStart | matchExit | waittrigTimeout | waittimeWake | syncToken | hostJumpTaken | dmaDoorbell | dmaRun | dmaStop |
      descBaseWrite | descriptorClose | triginEdge | trigoutEnd | tiuArm | tiuDisarm | tiuEdge | tiuGateEnd | tiuTimeout | tiuHoldoffEnd | adcStart | adcStop |
      adcConversion | acqArm | acqDisarm | acqForce | acqSample | acqGroupFire | acqRearmEnd | acqRelease | failRateInterval | dacParkWrite | dacCompliance |
      dacModulator | slotArm | slotCancel | slotLaunch | slotAction | reqCmd | reqDeadline | driftTracking | driftCorrectionApply | driftLimit | eyeAggregation |
      marginError | laneTxFault | laneRxOpen | slicePllUnlock | slicePllLock | nvmVerify | writeDrain | refreshDue | refreshRatePoll | act | actWindowReset |
      retrainPause | retrainEnd | ceRateCheck | liveBitClear =>
    exact completesUnlessIllFormed_within of_decide_eq_true _
  case hotWindowWrite | spanArrival | spanCreditReturn | dmaHostError =>
    refine completesUnlessIllFormed_within (fun h => ?_) _
    simp only [Instr.wf, Bool.and_eq_true, decide_eq_true_eq] at h
    omega
  case faultRaise | firstFaultRead => exact completesUnlessIllFormed_guard id _
  case faultCauseClear | faultCauseRead => exact completesUnlessIllFormed_guard (by simp [Instr.wf]) _
  all_goals exact completesUnlessIllFormed_next _

end Sys2Proof.Machine

open Sys2Proof Sys2Proof.Machine

/-- Settles O1: the step of a non-empty queue is `exec` of its front. -/
theorem aStepRunsTheFrontCommand : Obligations.AStepRunsTheFrontCommand := by
  unfold Obligations.AStepRunsTheFrontCommand
  intro s c rest hpending
  simp only [step, hpending, State.withPending]

/-- Settles O6, by the two outcomes a command can have. -/
theorem everyWellFormedCommandCompletes : Obligations.EveryWellFormedCommandCompletes := by
  unfold Obligations.EveryWellFormedCommandCompletes
  intro c s
  obtain ⟨t, hnext⟩ | ⟨hill, hstop⟩ := exec_completesUnlessIllFormed c s
  · exact ⟨fun _ => ⟨t, hnext⟩, by simp [hnext], by simp [hnext]⟩
  · exact ⟨by simp [hill], by simp [hstop, hill], by simp [hstop]⟩

end

section
/-! What no command takes back (O5). -/

open Sys2Proof Sys2Proof.Machine

/-- Settles O5, from what every command keeps (`exec_keeps`). -/
theorem noCommandTakesBack : Obligations.NoCommandTakesBack := by
  unfold Obligations.NoCommandTakesBack
  intro c s t hnext
  have hkeeps : OutKeeps s (exec c s) := exec_keeps (Keeps.refl s)
  rw [hnext] at hkeeps
  exact hkeeps.ext

end

section
/-! What a running burst leaves alone: the fail log, full capture, the signatures, the lanes and the flags of the sites change neither the command and thread words nor what
a thread has issued and what the burst is about to stop. -/

namespace Sys2Proof.Machine

/-! ## Keys and units in range -/

theorem keyEl_mkKey {el : Nat} (area obj : Nat) (h : el < 0x100) : keyEl (mkKey area obj el) = el := by
  simp only [keyEl, mkKey]; omega

/-- The channels of a port are those of the device (R83). -/
theorem lt_of_mem_channels {s : State} {o g : Nat} (h : g ∈ s.channels o) : g < 1024 := by
  simp only [State.channels, bitsOf, List.mem_flatMap, List.mem_range, List.mem_map, List.mem_filter] at h
  omega

/-- The ports that a thread serves are ports of numbered sites: their objects lie in the port area (R83). -/
theorem siteOf_lt_of_mem_served {s : State} {th : Nat} {x : Nat × Nat} (h : x ∈ s.served th) : siteOf x.2 < 0x800 := by
  have hbound : ∀ o ∈ s.members (s.groupOf th), siteOf o < 0x800 := by
    intro o ho
    simp only [State.members, State.boundPorts, List.mem_filter, List.mem_filterMap] at ho
    obtain ⟨⟨kv, _, hkv⟩, _⟩ := ho
    split at hkv
    · have ho : keyObj kv.1 - 0x8000 = o := Option.some.inj hkv
      have hobj : keyObj kv.1 < 0x10000 := Nat.mod_lt _ (by decide)
      simp only [siteOf]; omega
    · cases hkv
  have hall : x ∈ (s.members (s.groupOf th)).mapIdx (fun i o => (i, o)) := by
    simp only [State.served] at h
    split at h
    · exact (List.mem_filter.1 h).1
    · exact h
  obtain ⟨i, hi, rfl⟩ := List.mem_mapIdx.1 hall
  exact hbound _ (List.getElem_mem hi)

/-! ## The frame -/

/-- The keys that capture, signatures, lanes and site flags leave alone: all below area 0x24 but LOAD_STATUS and, of the audit counts of area 0x01, the first and third
elements (FAIL_TOTAL and FAIL_OVERFLOW of the sites); and UNDERRUNS. -/
def runKey (k : Nat) : Prop :=
  (k < 0x24000000 ∧ k ≠ Key.loadStatus ∧ ¬ (keyArea k = 0x01 ∧ (keyEl k = 1 ∨ keyEl k = 3))) ∨ k = Key.underruns

/-- Of area 0x24 and above only UNDERRUNS is left alone. -/
theorem not_runKey {k : Nat} (h : 0x24000000 ≤ k) (he : k ≠ 0x31001600) : ¬ runKey k := by
  rintro (⟨hlt, _⟩ | hu)
  · omega
  · exact he hu

/-- What of a thread neither the capture engine nor the lanes change: all but its fails, its lane events and the marks for its record. -/
def Thread.schedule (t : Thread) : Thread :=
  { t with fails := [], lastEv := [], changes := [], logOverflow := false, capGap := false, capTrunc := false }

/-- What of a burst the capture engine does not change: whether it runs and was launched, its threads, those that BURST_STOP stops. -/
def Burst.control (b : Burst) : Bool × Bool × List Nat × List Nat := (b.running, b.launched, b.threads, b.stopping)

/-- `t` is `s` but for capture, signatures, lanes and site flags. -/
structure SameRun (s t : State) : Prop where
  get : ∀ k, runKey k → t.get k = s.get k
  thread : ∀ i, (t.thread i).schedule = (s.thread i).schedule
  control : t.burst.control = s.burst.control

namespace SameRun

theorem refl (s : State) : SameRun s s := ⟨fun _ _ => rfl, fun _ => rfl, rfl⟩

theorem trans {r s t : State} (h : SameRun r s) (k : SameRun s t) : SameRun r t :=
  ⟨fun j hj => (k.get j hj).trans (h.get j hj), fun i => (k.thread i).trans (h.thread i), k.control.trans h.control⟩

theorem ite {r s t : State} {c : Prop} [Decidable c] (h : SameRun r s) (k : SameRun r t) : SameRun r (if c then s else t) := by split <;> assumption

variable {r s : State} (h : SameRun r s)
include h

/-- Whatever else changes, objects, threads and the control of the burst do not. -/
theorem of_eq {t : State} (hobjs : t.objs = s.objs := by rfl) (hthreads : t.threads = s.threads := by rfl) (hburst : t.burst.control = s.burst.control := by rfl) :
    SameRun r t :=
  h.trans ⟨fun k _ => by simp only [State.get, hobjs], fun i => by simp only [State.thread, hthreads], hburst⟩

theorem put {k : Nat} (hk : ¬ runKey k) (v : Word) : SameRun r (s.put k v) :=
  h.trans ⟨fun _ hj => s.get_put_other v (fun e => hk (e ▸ hj)), fun _ => rfl, rfl⟩

theorem putF {k : Nat} (hk : ¬ runKey k) (lo len v : Nat) : SameRun r (s.putF k lo len v) := h.put hk _
theorem countBy {k : Nat} (hk : ¬ runKey k) (bits n : Nat) : SameRun r (s.countBy k bits n) := h.put hk _
theorem count {k : Nat} (hk : ¬ runKey k) (bits : Nat) : SameRun r (s.count k bits) := h.put hk _
theorem countSat {k : Nat} (hk : ¬ runKey k) (bits n : Nat) : SameRun r (s.countSat k bits n) := h.put hk _

theorem putThread {i : Nat} {x : Thread} (hx : x.schedule = (s.thread i).schedule) : SameRun r (s.putThread i x) := by
  refine h.trans ⟨fun _ _ => rfl, fun j => ?_, rfl⟩
  rw [State.thread_putThread]
  split
  · next hij => rw [hx, hij]
  · rfl

theorem foldl {α : Type} {f : State → α → State} {l : List α} (hf : ∀ t, ∀ x ∈ l, SameRun r t → SameRun r (f t x)) : SameRun r (l.foldl f s) :=
  List.foldlRecOn l f h (fun t ht x hx => hf t x hx ht)

theorem spans (i : Nat) : (s.thread i).spans = (r.thread i).spans := (congrArg Thread.spans (h.thread i) :)
theorem started (i : Nat) : (s.thread i).started = (r.thread i).started := (congrArg Thread.started (h.thread i) :)
theorem late (i : Nat) : (s.thread i).late = (r.thread i).late := (congrArg Thread.late (h.thread i) :)
theorem matchRun (i : Nat) : (s.thread i).matchRun = (r.thread i).matchRun := (congrArg Thread.matchRun (h.thread i) :)

/-! ### Outputs, slices and lanes -/

theorem emit (o : Output) : SameRun r (s.emit o) := h.of_eq

theorem putSlice (n : Nat) (x : SliceSt) : SameRun r (s.putSlice n x) := h.of_eq

theorem putCounts (sls : List Nat) (th : Nat) (f : CycleCounts → CycleCounts) : SameRun r (s.putCounts sls th f) := h.foldl (fun _ _ _ ht => ht.putSlice _ _)

theorem returnCredits (th n : Nat) : SameRun r (s.returnCredits th n) := h.foldl (fun _ _ _ ht => ht.putSlice _ _)

theorem oweCredit (th : Nat) : SameRun r (s.oweCredit th) := h.foldl (fun _ _ _ ht => ht.putSlice _ _)

theorem setLane (g : Nat) (l : LaneLevel) : SameRun r (s.setLane g l) := h.of_eq

theorem driveLane (g : Nat) (l : LaneLevel) : SameRun r (s.driveLane g l) := by
  simp only [State.driveLane]
  exact ite (h.setLane g l) (ite h.of_eq h.of_eq)

theorem stopLane (th g : Nat) (l : LaneLevel) : SameRun r (s.stopLane th g l) := by
  simp only [State.stopLane]
  exact ite (h.driveLane g l) ((h.driveLane g l).emit _)

theorem stopLanes (th reason : Nat) : SameRun r (s.stopLanes th reason) := by
  refine h.foldl (fun t x _ ht => ite ?_ (ite ?_ ht))
  · exact ht.foldl (fun u g _ hu => hu.stopLane th g _)
  · exact ht.foldl (fun u g _ hu => hu.stopLane th g _)

theorem emitSamples (x : Strobe) (tu : Nat) : SameRun r (s.emitSamples x tu) := h.foldl (fun _ _ _ ht => ht.emit _)

/-! ### Full capture (R211-R213) -/

theorem stale : SameRun r s.stale := ite (h.putF (by unfold runKey; decide) _ _ _) h

theorem writeBytes (a : Nat) (bs : List Byte) : SameRun r (s.writeBytes a bs) := by
  have hstale : SameRun r (if s.checkedPages.any (fun p => (pagesOf a bs.length).contains p) then s.stale else s) := ite h.stale h
  simp only [State.writeBytes]
  exact ite hstale.of_eq hstale.of_eq

theorem frameLost : SameRun r s.frameLost.2 := by
  simp only [State.frameLost]
  split
  · exact h.of_eq
  · exact h

end SameRun

/-- CAPTURE_STATUS, the counters of full capture and JUDGE_DROPPED are written by the capture engine. -/
theorem not_runKey_capture :
    ¬ runKey Key.captureStatus ∧ ¬ runKey Key.fullcapLost ∧ ¬ runKey Key.fullcapBytes ∧ ¬ runKey Key.fullcapFrames ∧ ¬ runKey Key.judgeDropped := by
  unfold runKey; decide

/-- The objects of a site that its fails write (R205, R206, R209). -/
theorem not_runKey_site {site : Nat} (h : site < 0x800) :
    ¬ runKey (Key.siteStatus site) ∧ ¬ runKey (Key.siteFailMap (site / 64)) ∧ ¬ runKey (Key.failOverflow site) ∧ ¬ runKey (Key.failTotal site) ∧
      ¬ runKey (Key.firstFail site) ∧ ¬ runKey (Key.firstFailChannel site) := by
  refine ⟨not_runKey ?_ ?_, not_runKey ?_ ?_, ?_, ?_, not_runKey ?_ ?_, not_runKey ?_ ?_⟩
  all_goals
    simp only [runKey, keyArea, keyEl, Key.underruns, Key.siteStatus, Key.siteFailMap, Key.failOverflow, Key.failTotal, Key.firstFail, Key.firstFailChannel, mkKey]
    omega

/-- The count of a channel's fails (R205). -/
theorem not_runKey_failCount {g : Nat} (h : g < 1024) : ¬ runKey (Key.failCount g) := by
  refine not_runKey ?_ ?_ <;> simp only [Key.failCount, mkKey] <;> omega

/-- The registers of the check values (R215). -/
theorem not_runKey_sigValue (o : Nat) : ¬ runKey (Key.sigValue o) := by
  refine not_runKey ?_ ?_ <;> simp only [Key.sigValue, mkKey] <;> omega

namespace SameRun

variable {r s : State} (h : SameRun r s)
include h

theorem writeFrame (f : CapFrame) (a : Nat) (bs : List Byte) : SameRun r (s.writeFrame f a bs) := by
  obtain ⟨hstatus, hlost, hbytes, hframes, _⟩ := not_runKey_capture
  delta State.writeFrame
  extract_lets x
  have hx : SameRun r x.2 := h.frameLost
  clear_value x
  exact ite (((hx.count hlost 32).putF hstatus 4 1 1).putThread rfl) (((hx.writeBytes a bs).countBy hbytes 64 _).count hframes 32)

theorem closeFrame (f : CapFrame) : SameRun r (s.closeFrame f) := by
  delta State.closeFrame
  extract_lets bs region off b₁ s₁ b₂ s₂ x₃ s₃
  have hcount : SameRun r s₁ := h.of_eq
  have hfull : SameRun r s₂ := hcount.of_eq
  have hmark : SameRun r s₃ := hfull.putThread rfl
  exact ite (hcount.writeFrame _ _ _) (hmark.putF not_runKey_capture.1 3 1 1)

theorem endCapture (th : Nat) : SameRun r (s.endCapture th) := h.foldl (fun _ f _ ht => ht.closeFrame f)

theorem putJudge (sl : Nat) (b : JudgeBuf) : SameRun r (s.putJudge sl b) := h.of_eq

theorem feedCapture (o tu : Nat) : SameRun r (s.feedCapture o tu) := h.foldl (fun _ _ _ ht => ite ht (ht.putJudge _ _))

theorem capCycle (o th cycle : Nat) (codes : List Nat) (masked : Bool) : SameRun r (s.capCycle o th cycle codes masked) := by
  simp only [State.capCycle]
  exact ite (closeFrame h.of_eq _) h.of_eq

theorem capturePort (th : Nat) (sp : Span) (cycle ord o : Nat) (st : List Strobe) : SameRun r (s.capturePort th sp cycle ord o st) := by
  simp only [State.capturePort]
  refine ite ((h.feedCapture _ _).capCycle _ _ _ _ _) ?_
  split
  · exact h.closeFrame _
  · exact h

/-! ### Sites and the fail log (R205-R209) -/

section
variable {site : Nat} (hsite : site < 0x800)
include hsite

theorem siteFails (b : Nat) : SameRun r (s.siteFails site b) := by
  obtain ⟨hstatus, hmap, _⟩ := not_runKey_site hsite
  exact ((h.putF hstatus b 1 1).putF hstatus 1 1 1).put hmap _

theorem failOverflow (th bits : Nat) : SameRun r (s.failOverflow site th bits) := by
  obtain ⟨hstatus, _, hover, _⟩ := not_runKey_site hsite
  exact ((h.countBy hover 64 bits).putF hstatus 7 1 1).putThread rfl

theorem admitFail (cycle port slice th bitmap : Nat) : SameRun r (s.admitFail cycle site port slice th bitmap) := by
  simp only [State.admitFail]
  exact ite h.of_eq (ite ((h.failOverflow hsite th _).putF not_runKey_capture.1 2 1 1) (h.failOverflow hsite th _))

theorem logFail (cycle tu port slice th bitmap : Nat) : SameRun r (s.logFail cycle tu site port slice th bitmap) := by
  obtain ⟨_, _, _, _, hdropped⟩ := not_runKey_capture
  simp only [State.logFail]
  exact ite ((h.putJudge _ _).admitFail hsite _ _ _ _ _) (((h.putJudge _ _).countBy hdropped 64 _).failOverflow hsite _ _)

theorem countFail (g : Nat) : SameRun r (s.countFail site g) := by
  obtain ⟨_, _, _, htotal, _⟩ := not_runKey_site hsite
  simp only [State.countFail]
  exact ite (countBy h.of_eq htotal 64 1) h

end

theorem portFails (th cycle tu ord : Nat) {o : Nat} {gs : List Nat} (hsite : siteOf o < 0x800) (hgs : ∀ g ∈ gs, g < 1024) :
    SameRun r (s.portFails th cycle tu ord o gs) := by
  obtain ⟨_, _, _, _, hfirst, hchannel⟩ := not_runKey_site hsite
  delta State.portFails
  refine ite h ?_
  extract_lets site s₁ s₂ b₃ s₃ s₄ s₅ s₆ b₇ s₇ s₈
  have hcounts : SameRun r s₁ := h.foldl (fun _ g hg ht => ht.countSat (not_runKey_failCount (hgs g hg)) 32 1)
  have htotals : SameRun r s₂ := hcounts.foldl (fun _ g _ ht => ht.countFail hsite g)
  have hports : SameRun r s₃ := htotals.of_eq
  have hflags : SameRun r s₄ := hports.siteFails hsite 2
  have hnoted : SameRun r s₆ := (hflags.put hfirst _).put hchannel _
  clear_value s₆
  have hfirst : SameRun r s₇ := ite hnoted.of_eq hflags
  have hlog : SameRun r s₈ := hfirst.foldl (fun _ _ _ ht => ite ht (ht.logFail hsite _ _ _ _ _ _))
  exact hlog.putThread rfl

theorem sigReset (th i : Nat) : SameRun r (s.sigReset th i) := h.put (not_runKey_sigValue _) _

theorem signCycle (th : Nat) (sp : Span) (first : Bool) (st : List Strobe) : SameRun r (s.signCycle th sp first st) := by
  have hreset : SameRun r (if first && sp.sigReset then (s.sigSlots th).foldl (fun u i => u.sigReset th i) s else s) :=
    ite (h.foldl (fun _ i _ ht => ht.sigReset th i)) h
  simp only [State.signCycle]
  exact ite hreset (hreset.foldl (fun _ _ _ ht => ht.put (not_runKey_sigValue _) _))

end SameRun

end Sys2Proof.Machine
end

section
/-! How a thread ends (R75, R76, R92): what its words read after it, and what the end leaves alone. -/

namespace Sys2Proof.Machine

/-! ## The thread word (R75) -/

theorem endWord_state (w : Word) (reason : Nat) :
    field (endWord w reason) 0 4 = if reason = Stop.halt ∨ reason = Stop.hostStop then Th.done else Th.faulted := by
  rw [endWord, field_setField_other _ _ _ _ _ _ (by decide), field_setField_other _ _ _ _ _ _ (by decide), field_setField_same _ _ _ _ (by decide)]
  split <;> rfl

theorem endWord_reason (w : Word) (reason : Nat) : field (endWord w reason) 8 8 = reason % 2 ^ 8 := by
  rw [endWord, field_setField_other _ _ _ _ _ _ (by decide), field_setField_same _ _ _ _ (by decide)]

theorem endWord_incomplete (w : Word) (reason : Nat) : field (endWord w reason) 16 1 = if reason = Stop.halt then 0 else 1 := by
  rw [endWord, field_setField_same _ _ _ _ (by decide)]
  split <;> rfl

/-! ## A host jump that is given up (R122) -/

/-- A given-up host jump writes no object but a command's status, leaves the burst alone, and of a thread at most the jump it awaits. -/
theorem failJump_spec (s : State) (who : Nat) :
    (∀ k, keyEl k ≠ 0 → (s.failJump who).get k = s.get k) ∧ (s.failJump who).burst = s.burst ∧ ∀ i, ∃ j, (s.failJump who).thread i = { s.thread i with jump := j } := by
  delta State.failJump
  extract_lets v
  have hv : v.objs = s.objs ∧ v.burst = s.burst ∧ ∀ i, ∃ j, v.thread i = { s.thread i with jump := j } := by
    refine List.foldlRecOn s.burst.threads _ (motive := fun v : State => v.objs = s.objs ∧ v.burst = s.burst ∧ ∀ i, ∃ j, v.thread i = { s.thread i with jump := j }) ⟨rfl, rfl, fun i => ⟨_, rfl⟩⟩ ?_
    rintro u ⟨hobjs, hburst, hthread⟩ x _
    split
    · refine ⟨hobjs, hburst, fun i => ?_⟩
      rw [State.thread_putThread]
      split
      · next hx =>
        obtain ⟨j, hj⟩ := hthread x
        exact ⟨none, by rw [← hx, hj]⟩
      · exact hthread i
    · exact ⟨hobjs, hburst, hthread⟩
  clear_value v
  obtain ⟨hobjs, hburst, hthread⟩ := hv
  have hget : ∀ k, v.get k = s.get k := fun k => by simp only [State.get, hobjs]
  split
  · refine ⟨fun k hk => ?_, hburst, hthread⟩
    rw [State.cmdFail, State.get_put_other _ _ (fun e => hk ?_), hget]
    rw [← e, Key.hostJump, keyEl_mkKey _ _ (by decide)]
  · exact ⟨fun k _ => hget k, hburst, hthread⟩

/-! ## One thread ends -/

/-- `t` is `s` after thread `th` has ended with a reason: its words, its cycle count, its spans dropped; what capture, lanes and sites leave alone is as it was, but for the
command of a host jump that the thread awaited (a key of element 0). -/
structure Ended (s t : State) (th reason : Nat) : Prop where
  word : t.get (Key.threadState th) = endWord (s.get (Key.threadState th)) reason
  stop : t.get (Key.stopCycle th) = toWord (s.thread th).started
  spans : (t.thread th).spans = []
  late : (t.thread th).late = []
  other : ∀ k, runKey k → k ≠ Key.threadState th → k ≠ Key.stopCycle th → (s.thread th).jump = none ∨ keyEl k ≠ 0 → t.get k = s.get k
  control : t.burst.control = s.burst.control

/-- The words of a thread are not written by capture, lanes and sites. -/
theorem runKey_thread {th : Nat} (hth : th < 3072) : runKey (Key.threadState th) ∧ runKey (Key.stopCycle th) ∧ ¬ runKey (Key.cyclesFlushed th) := by
  simp only [runKey, Key.loadStatus, Key.underruns, keyArea, keyEl, Key.threadState, Key.stopCycle, Key.cyclesFlushed, mkKey]
  omega

theorem keyEl_threadState (th : Nat) : keyEl (Key.threadState th) = 1 := keyEl_mkKey _ _ (by decide)

theorem keyEl_stopCycle (th : Nat) : keyEl (Key.stopCycle th) = 2 := keyEl_mkKey _ _ (by decide)

theorem threadState_ne_stopCycle (th th' : Nat) : Key.threadState th ≠ Key.stopCycle th' := fun e => by
  have h := congrArg keyEl e
  rw [keyEl_threadState, keyEl_stopCycle] at h
  exact absurd h (by decide)

theorem countFlushed_sameRun {s : State} {th : Nat} (hth : th < 3072) (n : Nat) : SameRun s (s.countFlushed th n) :=
  (((SameRun.refl s).putCounts _ _ _).putCounts _ _ _).countBy (runKey_thread hth).2.2 64 _

theorem endThread_ended {s : State} {th : Nat} (hth : th < 3072) (hlive : s.ended th = false) (reason : Nat) : Ended s (s.endThread th reason) th reason := by
  delta State.endThread
  rw [if_neg (by simp [hlive])]
  extract_lets t s₁ s₂ s₃ s₄ s₅ x₆ s₇ s₈ s₉ s₁₀ s₁₁ b
  obtain ⟨hstate, hstop, _⟩ := runKey_thread hth
  have hcounts : SameRun s s₂ := (countFlushed_sameRun hth _).returnCredits th 256
  have hcapture : SameRun s₄ s₅ := (SameRun.refl s₄).endCapture th
  have hlanes : SameRun s₇ s₉ := ((SameRun.refl s₇).foldl (fun _ _ _ hu => hu.putSlice _ _)).stopLanes th reason
  have hjump : (∀ k, t.jump = none ∨ keyEl k ≠ 0 → s₁₀.get k = s₉.get k) ∧ s₁₀.burst = s₉.burst ∧ ∀ i, ∃ j, s₁₀.thread i = { s₉.thread i with jump := j } := by
    simp only [s₁₀]
    split
    · next j hj =>
      obtain ⟨hget, hburst, hthread⟩ := failJump_spec s₉ j.who
      exact ⟨fun k hk => hget k (hk.resolve_left (by rw [hj]; exact nofun)), hburst, hthread⟩
    · exact ⟨fun _ _ => rfl, rfl, fun i => ⟨_, rfl⟩⟩
  have hsites : SameRun s₁₀ s₁₁ := SameRun.ite (SameRun.refl _) ((SameRun.refl _).foldl (fun _ x hx hu => hu.siteFails (siteOf_lt_of_mem_served hx) 5))
  have hthread : (s₇.thread th).spans = [] ∧ (s₇.thread th).late = [] := by
    simp only [s₇, State.thread_putThread, if_true, and_self]
  clear_value s₁₁ s₁₀ s₉ s₈
  obtain ⟨hjumpGet, hjumpBurst, hjumpThread⟩ := hjump
  obtain ⟨j, hj⟩ := hjumpThread th
  have hget : ∀ k, runKey k → t.jump = none ∨ keyEl k ≠ 0 → s₁₁.get k = s₄.get k := fun k hk he =>
    calc s₁₁.get k = s₁₀.get k := hsites.get k hk
      _ = s₉.get k := hjumpGet k he
      _ = s₇.get k := hlanes.get k hk
      _ = s₄.get k := hcapture.get k hk
  refine ⟨?_, ?_, ?_, ?_, ?_, ?_⟩
  · refine (hget _ hstate (.inr ?_)).trans ?_
    · rw [keyEl_threadState]; decide
    · rw [State.get_put_other _ _ (threadState_ne_stopCycle _ _).symm, State.get_put_same, hcounts.get _ hstate]
  · refine (hget _ hstop (.inr ?_)).trans (State.get_put_same _ _ _)
    rw [keyEl_stopCycle]; decide
  · exact (hsites.spans th).trans ((congrArg Thread.spans hj).trans ((hlanes.spans th).trans hthread.1))
  · exact (hsites.late th).trans ((congrArg Thread.late hj).trans ((hlanes.late th).trans hthread.2))
  · intro k hk hne hne' he
    refine (hget k hk he).trans ?_
    rw [State.get_put_other _ _ hne'.symm, State.get_put_other _ _ hne.symm, hcounts.get k hk]
  · calc s₁₁.burst.control = s₁₀.burst.control := hsites.control
      _ = s₉.burst.control := congrArg Burst.control hjumpBurst
      _ = s₇.burst.control := hlanes.control
      _ = s₄.burst.control := hcapture.control
      _ = s.burst.control := hcounts.control

end Sys2Proof.Machine
end

section
/-! Stops of one thread (R75, R76, R155), and BURST_STOP (O33). -/

namespace Sys2Proof.Machine

/-! ## Status words (R39) -/

theorem statusWord_state (st : Nat) (c : Code) (detail : Nat) : field (statusWord st c detail) 0 3 = st % 2 ^ 3 := by
  rw [statusWord, field_setField_other _ _ _ _ _ _ (by decide), field_setField_other _ _ _ _ _ _ (by decide), field_setField_same _ _ _ _ (by decide)]

theorem cmdState_cmdDone (s : State) (k detail : Nat) : (s.cmdDone k detail).cmdState k = Cmd.done := by
  rw [State.cmdState, State.cmdDone, State.getF_eq, State.get_put_same, statusWord_state]; rfl

theorem cmdState_cmdRun (s : State) (k detail : Nat) : (s.cmdRun k detail).cmdState k = Cmd.running := by
  rw [State.cmdState, State.cmdRun, State.getF_eq, State.get_put_same, statusWord_state]; rfl

/-! ## What follows an end (R26, R76) -/

theorem settleStop_get (s : State) {k : Nat} (hk : k ≠ Key.burstStop) : s.settleStop.get k = s.get k := by
  simp only [State.settleStop]
  split
  · exact State.get_put_other _ _ hk.symm
  · rfl

theorem settleStop_thread (s : State) (i : Nat) : s.settleStop.thread i = s.thread i := by
  simp only [State.settleStop]
  split <;> rfl

theorem settleStop_done {s : State} (hended : ∀ x ∈ s.burst.stopping, s.ended x = true) (hrun : s.cmdState Key.burstStop = Cmd.running) :
    s.settleStop.cmdState Key.burstStop = Cmd.done := by
  have hleft : s.burst.stopping.filter (fun t => !s.ended t) = [] := List.filter_eq_nil_iff.2 (fun x hx => by simp [hended x hx])
  simp only [State.settleStop, hleft]
  rw [if_pos ⟨hrun, trivial⟩, cmdState_cmdDone]

theorem settleBurst_get (s : State) {k : Nat} (hk : k ≠ Key.auditStatus) : s.settleBurst.get k = s.get k := by
  simp only [State.settleBurst]
  split
  · exact State.get_put_other _ _ hk.symm
  · rfl

theorem settleBurst_thread (s : State) (i : Nat) : s.settleBurst.thread i = s.thread i := by
  simp only [State.settleBurst]
  split <;> rfl

/-! ## One thread stops -/

/-- The only thread of a launched burst stops: it ends, and what follows an end follows. -/
theorem stopThreads_one {s : State} {th : Nat} (hthreads : s.burst.threads = [th]) (hlive : s.live th = true) (hlaunched : s.burst.launched = true)
    (hlate : (s.thread th).late = []) (reason : Nat) : s.stopThreads [th] reason = ((s.endThread th reason).settleStop).settleBurst := by
  have hlist : s.stopList [th] reason = [(th, reason)] := by simp [State.stopList, hthreads, hlive]
  simp [State.stopThreads, hlist, State.stoppingLate, hlate, hlaunched, State.endAll]

/-- The words of a thread are neither the command of BURST_STOP nor the audit's. -/
theorem threadWords_ne {th : Nat} (k : Nat) (hk : k < 0x23000000) : Key.threadState th ≠ k ∧ Key.stopCycle th ≠ k := by
  constructor <;> simp only [Key.threadState, Key.stopCycle, mkKey] <;> omega

/-- What a stop of the only thread, which awaits no host jump, leaves. -/
theorem stopThreads_one_spec {s : State} {th : Nat} (hth : th < 3072) (hthreads : s.burst.threads = [th]) (hlive : s.live th = true)
    (hlaunched : s.burst.launched = true) (hlate : (s.thread th).late = []) (hjump : (s.thread th).jump = none) (reason : Nat) :
    (s.stopThreads [th] reason).get (Key.threadState th) = endWord (s.get (Key.threadState th)) reason ∧
    (s.stopThreads [th] reason).get (Key.stopCycle th) = toWord (s.thread th).started ∧ ((s.stopThreads [th] reason).thread th).spans = [] ∧
    ((s.stopThreads [th] reason).thread th).late = [] ∧
    (∀ k, runKey k → k ≠ Key.threadState th → k ≠ Key.stopCycle th → k ≠ Key.burstStop → k ≠ Key.auditStatus → (s.stopThreads [th] reason).get k = s.get k) ∧
    (s.burst.stopping = [th] → s.cmdState Key.burstStop = Cmd.running → (s.stopThreads [th] reason).cmdState Key.burstStop = Cmd.done) := by
  have hnot : s.ended th = false := by simp only [State.live, Bool.and_eq_true, Bool.not_eq_true'] at hlive; exact hlive.2
  have h := endThread_ended hth hnot reason
  rw [stopThreads_one hthreads hlive hlaunched hlate]
  generalize s.endThread th reason = u at h ⊢
  obtain ⟨hstateStop, hcycleStop⟩ := threadWords_ne (th := th) Key.burstStop (by decide)
  obtain ⟨hstateAudit, hcycleAudit⟩ := threadWords_ne (th := th) Key.auditStatus (by decide)
  refine ⟨?_, ?_, ?_, ?_, ?_, ?_⟩
  · rw [settleBurst_get _ hstateAudit, settleStop_get _ hstateStop, h.word]
  · rw [settleBurst_get _ hcycleAudit, settleStop_get _ hcycleStop, h.stop]
  · rw [settleBurst_thread, settleStop_thread, h.spans]
  · rw [settleBurst_thread, settleStop_thread, h.late]
  · intro k hk hstate hstop hcmd haudit
    rw [settleBurst_get _ haudit, settleStop_get _ hcmd, h.other k hk hstate hstop (.inl hjump)]
  · intro hstopping hrun
    have hended : u.ended th = true := by
      simp only [State.ended, State.threadSt, State.getF_eq, h.word, endWord_state]
      split <;> rfl
    have hstop : u.burst.stopping = [th] := (congrArg (fun x => x.2.2.2) h.control).trans hstopping
    have hcmd : u.get Key.burstStop = s.get Key.burstStop :=
      h.other _ (by unfold runKey; decide) hstateStop.symm hcycleStop.symm (.inl hjump)
    have hrunning : u.cmdState Key.burstStop = Cmd.running := by
      rw [← hrun]; simp only [State.cmdState, State.getF_eq, hcmd]
    have hsettle := settleStop_done (s := u) (by simpa [hstop] using hended) hrunning
    rw [← hsettle]
    simp only [State.cmdState, State.getF_eq]
    rw [settleBurst_get _ (by decide)]

/-! ## BURST_STOP (R76) -/

/-- BURST_STOP of every thread where the burst has one. -/
theorem cmdBurstStop_one {s : State} {th : Nat} (hmode : s.mode = Mode.burst) (hbusy : s.cmdBusy Key.burstStop = false) (hthreads : s.burst.threads = [th]) :
    s.cmdBurstStop 0xFFFF = (.ok, ({ s.cmdRun Key.burstStop 0 with burst := { s.burst with stopping := [th] } } : State).stopThreads [th] Stop.hostStop) := by
  have hcode : refuse [(s.mode != Mode.burst, .wrongMode), (s.cmdBusy Key.burstStop, .busy), ((0xFFFF : Word).toNat != 0xFFFF && !s.burst.threads.contains (0xFFFF : Word).toNat, .range)]
      = .ok := by
    simp [refuse, hmode, hbusy]
  simp only [State.cmdBurstStop, hcode]
  simp [hthreads, State.cmdRun]

end Sys2Proof.Machine
end

section
/-! The audit's report (R26, R27, R31), and the end of a burst (O33). -/

namespace Sys2Proof.Machine

/-! ## The word of AUDIT_STATUS (R31) -/

theorem b2n_le (b : Bool) : b2n b ≤ 1 := by cases b <;> decide

/-- AUDIT_STATUS with a state, FIRST_THREAD and the five mismatch flags. -/
def auditWord (state first : Nat) (flags : List Bool) : Word := toWord (packFields ([(0, 3, state), (16, 12, first)] ++ flags.mapIdx (fun i b => (8 + i, 1, b2n b))))

/-- The fields of AUDIT_STATUS read what the report wrote: the state, each flag, and the flags together. -/
theorem auditWord_fields {state : Nat} (first : Nat) (a b c d e : Bool) (hstate : state < 8) :
    field (auditWord state first [a, b, c, d, e]) 0 3 = state ∧
    field (auditWord state first [a, b, c, d, e]) 8 1 = b2n a ∧ field (auditWord state first [a, b, c, d, e]) 9 1 = b2n b ∧
    field (auditWord state first [a, b, c, d, e]) 10 1 = b2n c ∧ field (auditWord state first [a, b, c, d, e]) 11 1 = b2n d ∧
    field (auditWord state first [a, b, c, d, e]) 12 1 = b2n e ∧
    field (auditWord state first [a, b, c, d, e]) 8 5 = b2n a + 2 * b2n b + 4 * b2n c + 8 * b2n d + 16 * b2n e := by
  have ha := b2n_le a
  have hb := b2n_le b
  have hc := b2n_le c
  have hd := b2n_le d
  have he := b2n_le e
  simp [auditWord, field, packFields, List.mapIdx_cons, Nat.shiftRight_eq_div_pow]
  omega

/-! ## The report -/

theorem irq_get (s : State) (e k : Nat) : (s.irq e).get k = s.get k := by
  simp only [State.irq, State.signal]
  split_ifs <;> rfl

theorem irq_burst (s : State) (e : Nat) : (s.irq e).burst = s.burst := by
  simp only [State.irq, State.signal]
  split_ifs <;> rfl

/-- The results read as invalid after a failed audit (R206): no other object differs. -/
theorem invalidResults_get (s : State) (failed : Bool) {k : Nat} (hk : k ≠ Key.captureStatus) :
    (if failed then (s.putF Key.captureStatus 0 1 0).putF Key.captureStatus 1 1 0 else s).get k = s.get k := by
  split
  · rw [State.get_putF, if_neg hk.symm, State.get_putF, if_neg hk.symm]
  · rfl

/-- With nothing staged and no inversion waiting, the drain and the comparators leave the state as it is. -/
theorem examineAudit_spillAll {s : State} (hinjection : s.injection = none) (hstaging : s.burst.staging = []) (hjudge : s.burst.judge = []) :
    s.spillAll.examineAudit = (s, none) := by
  have hspill : s.spillAll = s := by
    have hburst : ({ s.burst with judge := [] } : Burst) = s.burst := by rw [← hjudge]
    have hnone : State.spillMany s.burst.staging.length s = s := by rw [hstaging]; rfl
    simp only [State.spillAll, hnone]
    exact congrArg (fun b => { s with burst := b }) hburst
  simp [hspill, State.examineAudit, hinjection]

/-- The report of an audit whose comparators no inversion touches: AUDIT_DRAIN_NS and AUDIT_STATUS as compared, the burst over, and then the raises of the failed
guarantees. -/
theorem report_spec {s : State} (hinjection : s.injection = none) (hstaging : s.burst.staging = []) (hjudge : s.burst.judge = []) (ns : Nat) (timeout : Bool) :
    ∃ u : State, s.report ns timeout = (u.collect (auditRaises (s.compareAudit timeout).1 (s.compareAudit timeout).2.1 (s.compareAudit timeout).2.2)).disablePending.settleEntering ∧
      u.burst.running = false ∧ u.mode = s.mode ∧ u.get Key.auditDrainNs = toWord ns ∧
      u.get Key.auditStatus = auditWord (if (s.compareAudit timeout).1.any id then 4 else 3) (s.compareAudit timeout).2.1 (s.compareAudit timeout).1 := by
  have hflags : (s.compareAudit timeout).1.mapIdx (fun i b => b || ((none : Option (Nat × Bool)).map Prod.fst == some (40 + i))) = (s.compareAudit timeout).1 := by
    simp [State.compareAudit, List.mapIdx_cons]
  delta State.report
  rw [examineAudit_spillAll hinjection hstaging hjudge]
  simp only [hflags]
  refine ⟨_, rfl, by rw [irq_burst], congrArg BitVec.toNat ?_, ?_, ?_⟩
  all_goals refine (irq_get _ _ _).trans ((invalidResults_get _ _ (by decide)).trans ?_)
  · rw [State.get_put_other _ _ (by decide), State.get_put_other _ _ (by decide), State.get_put_other _ _ (by decide)]
  · rw [State.get_put_other _ _ (by decide), State.get_put_other _ _ (by decide), State.get_put_same]
  · exact State.get_put_same _ _ _

/-! ## What the comparison finds (R27, R31) -/

/-- The five mismatch flags: of the cycle, strobe, fail, credit and DMA guarantees. -/
theorem compareAudit_flags (s : State) (timeout : Bool) : (s.compareAudit timeout).1 =
    [s.burst.threads.any (fun th => !s.cycleOk th), s.burst.threads.any (fun th => !s.strobeOk th), s.burstSites.any (fun x => !s.failOk x), timeout || !s.creditOk,
      (List.range 8).any (fun c => !s.dmaOk c)] := by
  have hsites : (!(s.burstSites.filter (fun x => !s.failOk x)).isEmpty) = s.burstSites.any (fun x => !s.failOk x) := by
    rw [Bool.eq_iff_iff]; simp [List.filter_eq_nil_iff]
  simp only [State.compareAudit, hsites]

/-- A raised flag raises its source. -/
theorem auditRaises_source {flags : List Bool} {i : Nat} (hi : flags[i]? = some true) (thread site : Nat) : ∃ r ∈ auditRaises flags thread site, r.source = 40 + i := by
  refine ⟨{ source := 40 + i, loc := .none, detail := if i = 2 then site else thread, injected := false }, ?_, rfl⟩
  obtain ⟨hlt, hval⟩ := List.getElem?_eq_some_iff.1 hi
  exact List.mem_filterMap.2 ⟨(i, true), List.mem_mapIdx.2 ⟨i, hlt, by rw [hval]⟩, rfl⟩

/-- Without a raised flag nothing is raised. -/
theorem auditRaises_nil {flags : List Bool} (h : flags.any id = false) (thread site : Nat) : auditRaises flags thread site = [] := by
  refine List.filterMap_eq_nil_iff.2 (fun x hx => ?_)
  obtain ⟨i, hlt, rfl⟩ := List.mem_mapIdx.1 hx
  have hfalse : flags[i] = false := by simpa using List.any_eq_false.1 h _ (List.getElem_mem hlt)
  simp [hfalse]

/-- The report, read back: each mismatch flag, the verdict, and the raises. -/
theorem report_reads {s : State} (hinjection : s.injection = none) (hstaging : s.burst.staging = []) (hjudge : s.burst.judge = []) (ns : Nat) (timeout : Bool) :
    ∃ (u : State) (rs : List Raise), s.report ns timeout = (u.collect rs).disablePending.settleEntering ∧ u.burst.running = false ∧ u.mode = s.mode ∧
      u.get Key.auditDrainNs = toWord ns ∧ u.getF Key.auditStatus 8 1 = b2n (s.burst.threads.any (fun th => !s.cycleOk th)) ∧
      u.getF Key.auditStatus 9 1 = b2n (s.burst.threads.any (fun th => !s.strobeOk th)) ∧ u.getF Key.auditStatus 10 1 = b2n (s.burstSites.any (fun x => !s.failOk x)) ∧
      u.getF Key.auditStatus 11 1 = b2n (timeout || !s.creditOk) ∧ u.getF Key.auditStatus 12 1 = b2n ((List.range 8).any (fun c => !s.dmaOk c)) ∧
      (u.auditSt = 3 ∨ u.auditSt = 4) ∧ (u.auditSt = 3 ↔ u.getF Key.auditStatus 8 5 = 0) ∧ (u.auditSt = 3 → rs = []) ∧
      ∀ i, i < 5 → u.getF Key.auditStatus (8 + i) 1 = 1 → ∃ r ∈ rs, r.source = 40 + i := by
  obtain ⟨u, hreport, hrunning, hmode, hns, hword⟩ := report_spec hinjection hstaging hjudge ns timeout
  refine ⟨u, _, hreport, hrunning, hmode, hns, ?_⟩
  simp only [State.auditSt, State.getF_eq, hword, compareAudit_flags]
  generalize s.burst.threads.any (fun th => !s.cycleOk th) = a
  generalize s.burst.threads.any (fun th => !s.strobeOk th) = b
  generalize s.burstSites.any (fun x => !s.failOk x) = c
  generalize (timeout || !s.creditOk) = d
  generalize (List.range 8).any (fun c => !s.dmaOk c) = e
  have hstate : (if [a, b, c, d, e].any id then 4 else 3) < 8 := by split <;> decide
  obtain ⟨h0, h8, h9, h10, h11, h12, hall⟩ := auditWord_fields (s.compareAudit timeout).2.1 a b c d e hstate
  have hpassed : [a, b, c, d, e].any id = false ↔ b2n a + 2 * b2n b + 4 * b2n c + 8 * b2n d + 16 * b2n e = 0 := by
    cases a <;> cases b <;> cases c <;> cases d <;> cases e <;> decide
  have hthree : (if [a, b, c, d, e].any id then 4 else 3) = 3 ↔ [a, b, c, d, e].any id = false := by
    cases [a, b, c, d, e].any id <;> decide
  rw [h0, hall]
  refine ⟨h8, h9, h10, h11, h12, ?_, hthree.trans hpassed, fun h => auditRaises_nil (hthree.1 h) _ _, fun i hi hflag => auditRaises_source ?_ _ _⟩
  · split
    · exact .inr rfl
    · exact .inl rfl
  · have hb2n : ∀ x : Bool, b2n x = 1 → x = true := by decide
    match i, hi with
    | 0, _ => rw [hb2n a (h8.symm.trans hflag)]; rfl
    | 1, _ => rw [hb2n b (h9.symm.trans hflag)]; rfl
    | 2, _ => rw [hb2n c (h10.symm.trans hflag)]; rfl
    | 3, _ => rw [hb2n d (h11.symm.trans hflag)]; rfl
    | 4, _ => rw [hb2n e (h12.symm.trans hflag)]; rfl

/-! ## The three commands -/

/-- What the response of BURST_STOP leaves of its effect, on a serving path. -/
theorem burstStop_stops {s : State} {p : Path} {th : Nat} (hserves : s.serves p) (hmode : s.mode = Mode.burst) (hbusy : s.cmdBusy Key.burstStop = false) (hth : th < 3072)
    (hthreads : s.burst.threads = [th]) (hrunning : s.burst.running = true) (hlaunched : s.burst.launched = true) (hlive : s.ended th = false)
    (hjump : (s.thread th).jump = none) (hlate : (s.thread th).late = []) :
    ∃ t, exec (.burstStop p 0xFFFF) s = .next t ∧ t.answered Key.burstStop .ok ∧ t.cmdState Key.burstStop = Cmd.done ∧ t.threadSt th = Th.done ∧
      t.getF (Key.threadState th) 8 8 = Stop.hostStop ∧ t.getF (Key.threadState th) 16 1 = 1 ∧ t.get (Key.stopCycle th) = toWord (s.thread th).started ∧
      (t.thread th).spans = [] ∧ t.mode = s.mode := by
  obtain ⟨hstateStop, hcycleStop⟩ := threadWords_ne (th := th) Key.burstStop (by decide)
  obtain ⟨hstateMode, hcycleMode⟩ := threadWords_ne (th := th) Key.deviceMode (by decide)
  have hget : ∀ k, k ≠ Key.burstStop → (s.cmdRun Key.burstStop 0).get k = s.get k := fun k hk => State.get_put_other _ _ hk.symm
  have hrunningStop := cmdState_cmdRun s Key.burstStop 0
  have hended : (s.cmdRun Key.burstStop 0).ended th = false := by
    simp only [State.ended, State.threadSt, State.getF_eq, hget _ hstateStop] at hlive ⊢
    exact hlive
  generalize hr : ({ s.cmdRun Key.burstStop 0 with burst := { s.burst with stopping := [th] } } : State) = r
  have hrun : s.cmdBurstStop 0xFFFF = (.ok, r.stopThreads [th] Stop.hostStop) := hr ▸ cmdBurstStop_one hmode hbusy hthreads
  have hrget : ∀ k, k ≠ Key.burstStop → r.get k = s.get k := fun k hk => by rw [← hr]; exact hget k hk
  have hrthread : r.thread th = s.thread th := by rw [← hr]; rfl
  have hrlive : r.live th = true := by
    rw [← hr]
    simp only [State.live, hrunning, hthreads, Bool.true_and, Bool.and_eq_true, Bool.not_eq_true']
    exact ⟨by simp, hended⟩
  obtain ⟨hword, hstop, hspans, -, hother, hcmd⟩ := stopThreads_one_spec (s := r) hth (by rw [← hr]; exact hthreads) hrlive (by rw [← hr]; exact hlaunched)
    (by rw [hrthread]; exact hlate) (by rw [hrthread]; exact hjump) Stop.hostStop
  have hdone := hcmd (by rw [← hr]) (by rw [← hr]; exact hrunningStop)
  generalize r.stopThreads [th] Stop.hostStop = u at *
  obtain ⟨v, n, hrespond⟩ := respond_spec u 0x02 0 Key.burstStop .ok
  have hrespGet : ∀ k, (u.respond 0x02 0 Key.burstStop .ok).get k = u.get k := respond_get u 0x02 0 Key.burstStop .ok
  refine ⟨u.respond 0x02 0 Key.burstStop .ok, congrArg Host.Outcome.next (access_ok hserves 0 Key.burstStop hrun), respond_answered _ _ _ _, ?_, ?_, ?_, ?_, ?_, ?_, ?_⟩
  · rw [State.cmdState, State.getF_eq, hrespGet]; exact hdone
  · rw [State.threadSt, State.getF_eq, hrespGet, hword, endWord_state]; rfl
  · rw [State.getF_eq, hrespGet, hword, endWord_reason]; rfl
  · rw [State.getF_eq, hrespGet, hword, endWord_incomplete]; rfl
  · rw [hrespGet, hstop, hrthread]
  · rw [hrespond]; exact hspans
  · simp only [State.mode, hrespGet]
    rw [hother _ (by unfold runKey; decide) hstateMode.symm hcycleMode.symm (by decide) (by decide), hrget _ (by decide)]

end Sys2Proof.Machine

open Sys2Proof Sys2Proof.Machine

/-- Settles O33: a stop is one thread's end with what follows it; a report is read back from the word that it writes. -/
theorem burstsEnd : Obligations.BurstsEnd := by
  unfold Obligations.BurstsEnd
  refine ⟨fun s p th hserves hmode hbusy hth hthreads hrunning hlaunched hlive hjump hlate =>
    burstStop_stops hserves hmode hbusy hth hthreads hrunning hlaunched hlive hjump hlate, fun s haudit hinjection hstaging hjudge => ⟨fun ns hdrained => ?_, fun hdrained => ?_⟩⟩
  · obtain ⟨u, rs, hreport, hrunning, hmode, hns, h8, h9, h10, h11, h12, hverdict, hpassed, hnil, hraise⟩ :=
      report_reads hinjection hstaging hjudge (min ns (if s.burst.quick then 100 else 10000)) false
    have hexec : exec (.auditDrainEnd ns) s = .next (s.report (min ns (if s.burst.quick then 100 else 10000)) false) := by
      simp only [exec, execAuditDrainEnd]; rw [if_pos ⟨haudit, hdrained⟩]
    refine ⟨u, rs, hexec.trans (congrArg _ hreport), hrunning, hmode, ?_, h8, h9, h10, h11, h12, hverdict, hpassed, hnil, hraise⟩
    rw [hns, toWord_toNat_of_lt]
    split <;> omega
  · obtain ⟨u, rs, hreport, hrunning, -, hns, -, -, -, h11, -, hverdict, hpassed, -, hraise⟩ := report_reads hinjection hstaging hjudge 10000 true
    have hexec : exec .auditDrainTimeout s = .next (s.report 10000 true) := by
      simp only [exec, execAuditDrainTimeout]; rw [if_pos ⟨haudit, by simp [hdrained]⟩]
    have hcredit : u.getF Key.auditStatus 11 1 = 1 := h11
    refine ⟨u, rs, hexec.trans (congrArg _ hreport), hrunning, hverdict.resolve_left ?_, ?_, hcredit, hraise 3 (by decide) hcredit⟩
    · rw [hpassed]
      intro hzero
      have hbit : (field (u.get Key.auditStatus) 8 5).testBit 3 = (field (u.get Key.auditStatus) 11 1).testBit 0 := by rw [field_testBit, field_testBit]; rfl
      rw [State.getF_eq] at hzero hcredit
      rw [hzero, hcredit] at hbit
      exact absurd hbit (by decide)
    · rw [hns]; rfl

end

section
/-! One cycle of a running port (R24, R155, R161, R203; O42). -/

namespace Sys2Proof.Machine

/-! ## Before the row's event -/

/-- With nothing staged the spill moves its own marks alone (R209). -/
theorem spill_quiet {s : State} (hstaging : s.burst.staging = []) (tu : Nat) : ∃ b : Burst, s.spill tu = { s with burst := b } ∧ b.control = s.burst.control := by
  simp only [State.spill, hstaging, List.length_nil, Nat.min_zero, State.spillMany]
  exact ⟨_, rfl, rfl⟩

/-- A span that masks no member reports no mask (R134). -/
theorem takeMasks_none (s : State) (th : Nat) {sp : Span} (hords : sp.maskedOrds = []) (cycle tu : Nat) : s.takeMasks th sp cycle tu = s := by
  simp [State.takeMasks, hords]

/-! ## Drive events (R166, R170) -/

/-- On a permitted and trained channel a drive event raises nothing and writes no object. -/
theorem driveEvent_quiet {r s : State} (h : SameRun r s) {g : Nat} (hpermits : s.permits g = true) (hlane : s.laneState g = 1) (th tu : Nat) (l : LaneLevel) :
    (s.driveEvent th g tu l).2 = [] ∧ (s.driveEvent th g tu l).1.objs = s.objs ∧ SameRun r (s.driveEvent th g tu l).1 := by
  delta State.driveEvent
  rw [if_neg (by rw [hlane]; decide), if_neg (by simp [hpermits])]
  extract_lets t limit recent untrained excess l' late t' s₁ s₂
  have hexcess : excess = false := by simp [excess, untrained, hlane]
  have hthread : SameRun r s₁ := h.putThread rfl
  have hobjs : s₂.objs = s.objs := by simp only [s₂]; split <;> rfl
  refine ⟨if_neg (by simp [hexcess]), hobjs, SameRun.emit (SameRun.ite (hthread.setLane _ _) hthread) _⟩

/-- Drive events so far have raised nothing, written no object and left alone what capture and lanes leave alone. -/
structure Undisturbed (s : State) (acc : State × List Raise) : Prop where
  raises : acc.2 = []
  objs : acc.1.objs = s.objs
  run : SameRun s acc.1

theorem Undisturbed.driveEvent {s : State} {acc : State × List Raise} (h : Undisturbed s acc) {g : Nat} (hpermits : s.permits g = true) (hlane : s.laneState g = 1)
    (th tu : Nat) (l : LaneLevel) : Undisturbed s ((acc.1.driveEvent th g tu l).1, acc.2 ++ (acc.1.driveEvent th g tu l).2) := by
  have hget : ∀ k, acc.1.get k = s.get k := fun k => by simp only [State.get, h.objs]
  obtain ⟨hraises, hobjs, hrun⟩ := driveEvent_quiet h.run (g := g) (by simpa only [State.permits, State.mapBit, hget] using hpermits)
    (by simpa only [State.laneState, State.getF_eq, hget] using hlane) th tu l
  exact ⟨by rw [h.raises, hraises]; rfl, hobjs.trans h.objs, hrun⟩

/-- The channels that a cycle drives are permitted and trained: it raises nothing. -/
theorem driveCycle_quiet {s : State} {th : Nat} (hquiet : ∀ x ∈ s.served th, ∀ g ∈ s.channels x.2, s.permits g = true ∧ s.laneState g = 1) (sp : Span) (tu : Nat) :
    (s.driveCycle th sp tu).2 = [] ∧ SameRun s (s.driveCycle th sp tu).1 := by
  have hall : Undisturbed s (s.driveCycle th sp tu) := by
    refine List.foldlRecOn (s.served th) _ ⟨rfl, rfl, SameRun.refl s⟩ (fun acc hacc x hx => ?_)
    refine List.foldlRecOn _ _ hacc (fun acc hacc kg hkg => ?_)
    obtain ⟨k, hk, rfl⟩ := List.mem_mapIdx.1 hkg
    obtain ⟨hpermits, hlane⟩ := hquiet x hx _ (List.getElem_mem hk)
    exact List.foldlRecOn _ _ hacc (fun acc hacc e _ => hacc.driveEvent hpermits hlane _ _ _)
  exact ⟨hall.raises, hall.run⟩

/-! ## Strobes (R200-R203) -/

theorem chan_of_mem_strobes {s : State} {th : Nat} {sp : Span} {obs : List ChanObs} {x : Strobe} (h : x ∈ s.strobes th sp obs) : x.chan < 1024 := by
  simp only [State.strobes, State.portStrobes, List.mem_filter, List.mem_flatMap, List.mem_filterMap, List.mem_mapIdx] at h
  obtain ⟨⟨y, _, z, ⟨k, hk, hz⟩, hx⟩, _⟩ := h
  have hchan : x.chan = (s.channels y.2)[k] := by
    subst hz
    simp only [id_eq, State.strobeOf] at hx
    split at hx
    · cases hx
    · split at hx
      · cases hx
      · rw [← Option.some.inj hx]
  rw [hchan]
  exact lt_of_mem_channels (List.getElem_mem hk)

theorem countFails_sameRun {r s : State} (h : SameRun r s) {st : List Strobe} (hst : ∀ x ∈ st, x.chan < 1024) (th cycle tu : Nat) (inMatch : Bool) :
    SameRun r (s.countFails th cycle tu inMatch st) := by
  refine SameRun.ite h (h.foldl (fun u x hx hu => hu.portFails _ _ _ _ (siteOf_lt_of_mem_served hx) (fun g hg => ?_)))
  obtain ⟨y, hy, rfl⟩ := List.mem_map.1 hg
  exact hst y (List.mem_filter.1 hy).1

theorem countBy_get_other (s : State) {k k' : Nat} (h : k ≠ k') (bits n : Nat) : (s.countBy k bits n).get k' = s.get k' := State.get_put_other _ _ h

/-- The audit counts of a cycle (R24): of a thread's own words, PLACED, JUDGED and FAILS advance; other objects but PASSES and MASKED do not. -/
theorem countStrobes_get (s : State) (th : Nat) (st : List Strobe) :
    (s.countStrobes th st).get (Key.strobesPlaced th) = toWord (((s.get (Key.strobesPlaced th)).toNat + st.length) % 2 ^ 64) ∧
    (s.countStrobes th st).get (Key.strobesJudged th) = toWord (((s.get (Key.strobesJudged th)).toNat + st.length) % 2 ^ 64) ∧
    (s.countStrobes th st).get (Key.fails th) = toWord (((s.get (Key.fails th)).toNat + (st.filter (fun x => x.fail && !x.masked)).length) % 2 ^ 64) ∧
    (s.countStrobes th st).get (Key.cyclesExecuted th) = s.get (Key.cyclesExecuted th) ∧ (s.countStrobes th st).get Key.deviceMode = s.get Key.deviceMode := by
  refine ⟨?_, ?_, ?_, ?_, ?_⟩
  case' refine_5 => rw [State.countStrobes, countBy_get_other, countBy_get_other, countBy_get_other, countBy_get_other, countBy_get_other]
  case refine_1 | refine_2 | refine_3 | refine_4 =>
    simp [State.countStrobes, State.countBy, State.get_put, Key.strobesPlaced, Key.strobesJudged, Key.passes, Key.fails, Key.masked, Key.cyclesExecuted, mkKey]
  all_goals
    simp only [Key.strobesPlaced, Key.strobesJudged, Key.passes, Key.fails, Key.masked, Key.deviceMode, mkKey]
    omega

theorem countStrobes_thread (s : State) (th : Nat) (st : List Strobe) (i : Nat) : (s.countStrobes th st).thread i = s.thread i := by
  simp only [State.countStrobes, State.countBy, State.put_thread]

/-! ## The end of the cycle -/

theorem runKey_counts {th : Nat} (hth : th < 3072) :
    runKey (Key.cyclesExecuted th) ∧ runKey (Key.strobesPlaced th) ∧ runKey (Key.strobesJudged th) ∧ runKey (Key.fails th) ∧ runKey (Key.passes th) ∧
      runKey (Key.masked th) ∧ runKey Key.deviceMode := by
  simp only [runKey, Key.loadStatus, Key.underruns, Key.deviceMode, keyArea, keyEl, Key.cyclesExecuted, Key.strobesPlaced, Key.strobesJudged, Key.fails, Key.passes, Key.masked, mkKey]
  omega

/-- States alike stay alike where both count one object. -/
theorem SameRun.countBy_congr {s t : State} (h : SameRun s t) {k : Nat} (hk : runKey k) (bits n : Nat) : SameRun (s.countBy k bits n) (t.countBy k bits n) := by
  refine ⟨fun j hj => ?_, h.thread, h.control⟩
  rw [State.countBy, State.countBy, State.get_put, State.get_put, h.get k hk, h.get j hj]

/-- States alike stay alike where both count the strobes of a cycle. -/
theorem SameRun.countStrobes_congr {s t : State} (h : SameRun s t) {th : Nat} (hth : th < 3072) (st : List Strobe) : SameRun (s.countStrobes th st) (t.countStrobes th st) := by
  obtain ⟨-, hplaced, hjudged, hfails, hpasses, hmasked, -⟩ := runKey_counts hth
  exact ((((h.countBy_congr hplaced _ _).countBy_congr hjudged _ _).countBy_congr hpasses _ _).countBy_congr hfails _ _).countBy_congr hmasked _ _

/-- On slices that all started, a cycle that starts counts in CYCLES_EXECUTED (R30). -/
theorem countExecuted_sameRun {s : State} {th : Nat} (hth : th < 3072) (hlate : (s.thread th).late = []) :
    SameRun (s.countBy (Key.cyclesExecuted th) 64 1) (s.countExecuted th) := by
  have hcounts : SameRun s (s.putCounts (s.startedSlices th) th (fun c => { c with executed := c.executed + 1 })) := (SameRun.refl s).putCounts _ _ _
  simp only [State.countExecuted, hlate, List.isEmpty_nil, if_true]
  exact hcounts.countBy_congr (runKey_counts hth).1 64 1

/-- The bookkeeping of a cycle outside MATCH on slices that all started: one more cycle executed, the span with one cycle less. -/
theorem stepCycle_spec {s : State} {th : Nat} (hth : th < 3072) {sp : Span} {rest : List Span} (hspans : (s.thread th).spans = sp :: rest) (hmatch : (s.thread th).matchRun = none)
    (hlate : (s.thread th).late = []) (hwaiting : sp.waiting = false) :
    (∀ k, runKey k → (s.stepCycle th sp).get k = (s.countBy (Key.cyclesExecuted th) 64 1).get k) ∧
    ((s.stepCycle th sp).thread th).started = (s.thread th).started + 1 ∧
    ((s.stepCycle th sp).thread th).spans = (if sp.left - 1 = 0 then rest else { sp with left := sp.left - 1 } :: rest) ∧
    ((s.stepCycle th sp).thread th).matchRun = none ∧ ((s.stepCycle th sp).thread th).late = [] := by
  delta State.stepCycle
  extract_lets t p left sp' rest' spans matching t' s₁ s₂
  have hnot : matching = false := by simp only [matching, t, hmatch]
  have hs₂ : s₂ = s₁ := by simp only [s₂, hnot]; rfl
  have hthread : (s.putThread th t').thread th = t' := by rw [State.thread_putThread, if_pos rfl]
  have hs₁ : SameRun ((s.putThread th t').countBy (Key.cyclesExecuted th) 64 1) s₂ := by
    rw [hs₂]
    exact countExecuted_sameRun hth (by rw [hthread]; exact hlate)
  have hrun := SameRun.ite (c := (sp'.left = 0 && !sp.waiting && !sp.staged) = true) (hs₁.oweCredit th) hs₁
  refine ⟨hrun.get, (hrun.started th).trans ?_, (hrun.spans th).trans ?_, (hrun.matchRun th).trans ?_, (hrun.late th).trans ?_⟩
  · exact congrArg Thread.started hthread
  · refine (congrArg Thread.spans hthread).trans ?_
    simp [t', spans, rest', t, sp', hspans, hwaiting]
  · exact (congrArg Thread.matchRun hthread).trans hmatch
  · exact (congrArg Thread.late hthread).trans hlate

/-! ## One cycle -/

/-- The channels that a thread serves are permitted and trained (R166, R170). -/
def State.drivable (s : State) (th : Nat) : Prop := ∀ x ∈ s.served th, ∀ g ∈ s.channels x.2, s.permits g = true ∧ s.laneState g = 1

/-- Up to the audit counts a quiet cycle raises nothing and leaves alone what a running burst leaves alone. -/
theorem runCycle_quiet {s : State} {th : Nat} {sp : Span} {obs : List ChanObs} (hevent : sp.event = .none) (hords : sp.maskedOrds = []) (hhalts : sp.halts = false)
    (hmatch : (s.thread th).matchRun = none) (hlate : (s.thread th).late = []) (hspans : ∃ rest, (s.thread th).spans = sp :: rest) (hwaiting : sp.waiting = false)
    (hstaging : s.burst.staging = []) (hth : th < 3072) (hquiet : s.drivable th) :
    ∃ w, SameRun (s.countStrobes th (s.strobes th sp obs)) w ∧ s.runCycle th sp obs = w.stepCycle th sp := by
  obtain ⟨rest, hspans⟩ := hspans
  obtain ⟨b, hspill, hcontrol⟩ := spill_quiet hstaging (s.thread th).startTu
  generalize hs₀ : ({ s with burst := b } : State) = s₀ at hspill
  have hsame : SameRun s s₀ := hs₀ ▸ (SameRun.refl s).of_eq rfl rfl hcontrol
  have hstrobes : s₀.strobes th sp obs = s.strobes th sp obs := by rw [← hs₀]; rfl
  have hdrivable : s₀.drivable th := by rw [← hs₀]; exact hquiet
  delta State.runCycle
  extract_lets t cycle tu first s₁ ev st dr s₂ s₃ s₄ s₅ s₆ s₇
  have hs₁ : s₁ = s₀ := by simp only [s₁, tu, t, hspill, takeMasks_none _ _ hords]
  have hev : ev = (s₀, []) := by simp only [ev, hevent, State.fireEvent, hs₁, ite_self]
  have hst : st = s.strobes th sp obs := by simp only [st, hev, hstrobes]
  have hs₁' : SameRun s s₁ := hs₁ ▸ hsame
  obtain ⟨hraises, hdrive⟩ := driveCycle_quiet hdrivable sp tu
  have hdr : dr.2 = [] ∧ SameRun s dr.1 := by
    simp only [dr, hev]
    exact ⟨hraises, hsame.trans hdrive⟩
  obtain ⟨u, hu⟩ : ∃ u, st.foldl (fun u x => u.emitSamples x tu) dr.1 = u := ⟨_, rfl⟩
  have hrun : SameRun s u := hu ▸ hdr.2.foldl (fun _ x _ ht => ht.emitSamples x tu)
  have hchans : ∀ x ∈ st, x.chan < 1024 := fun x hx => chan_of_mem_strobes (hst ▸ hx)
  have hs₂ : SameRun (s.countStrobes th (s.strobes th sp obs)) s₂ := by
    rw [← hst]
    exact (show s₂ = u.countStrobes th st by rw [← hu]) ▸ hrun.countStrobes_congr hth st
  have hnote : s₂.noteMatch th st = s₂ := by
    simp only [State.noteMatch, hs₂.matchRun, countStrobes_thread, hmatch]
  have hs₃ : SameRun (s.countStrobes th (s.strobes th sp obs)) s₃ := .ite (hnote.symm ▸ hs₂) (countFails_sameRun hs₂ hchans _ _ _ _)
  have hs₄ : SameRun (s.countStrobes th (s.strobes th sp obs)) s₄ := hs₃.foldl (fun _ _ _ ht => ht.capturePort _ _ _ _ _ _)
  have hs₅ : SameRun (s.countStrobes th (s.strobes th sp obs)) s₅ := hs₄.signCycle _ _ _ _
  refine ⟨s₅, hs₅, ?_⟩
  obtain ⟨-, -, -, hnone, -⟩ := stepCycle_spec hth (rest := rest) (by rw [hs₅.spans, countStrobes_thread, hspans])
    (by rw [hs₅.matchRun, countStrobes_thread, hmatch]) (by rw [hs₅.late, countStrobes_thread, hlate]) hwaiting
  have hs₆ : s₆ = s₅.stepCycle th sp := by simp only [s₆, State.stepMatch, hnone]
  have hs₇ : s₇ = s₆ := by simp only [s₇, hhalts]; rfl
  have hcollect : ev.2 ++ dr.2 = [] := by rw [hdr.1, hev]; rfl
  rw [hcollect, hs₇, hs₆]
  rfl

/-- The cycle of a thread that waits for nothing is one try of its row's cycle (R124, R161). -/
theorem cycleStart_once {s : State} {th : Nat} (hhalt : s.machineCheck = false) (hlaunched : s.burst.launched = true) (hlive : s.live th = true)
    (hwaiting : ∀ sp ∈ (s.thread th).spans.head?, sp.waiting = false) (obs : List ChanObs) :
    s.cycleStart th obs false .clean = (s.cycleOnce th obs false .clean).endLate th := by
  have hrepeat : s.repeatRow th = s := by
    simp only [State.repeatRow]
    split
    · next sp rest hspans =>
      have hsp : sp.waiting = false := hwaiting sp (by simp [hspans])
      simp [State.repeats, hsp]
    · rfl
  simp [State.cycleStart, hhalt, hlaunched, hlive, hrepeat]

/-- A row that is there, with its span, its word and its checkers clean, executes its cycle (R135, R155). -/
theorem cycleOnce_runs {s : State} {th : Nat} {sp : Span} {rest : List Span} (hlive : s.live th = true) (hinjection : s.injection = none)
    (hspans : (s.thread th).spans = sp :: rest) (hrow : s.rowLost th sp.row = false) (hready : s.spanReady th sp = true) (hstops : sp.stops = none) (obs : List ChanObs) :
    s.cycleOnce th obs false .clean = s.runCycle th sp obs := by
  have hcheck : s.checkWord th sp .clean = (s, false) := by simp only [State.checkWord, ite_self]
  simp [State.cycleOnce, hspans, hrow, hready, hstops, hcheck, State.examineCycle, hinjection, hlive]

/-- A thread whose slices all started is not ended by a late one (R20). -/
theorem endLate_of_none {s : State} {th : Nat} (hlate : (s.thread th).late = []) : s.endLate th = s := by
  simp [State.endLate, State.stoppingLate, hlate]

/-- The audit counts and the span of a thread after one quiet cycle (R24). -/
theorem runCycle_spec {s : State} {th : Nat} {sp : Span} {rest : List Span} (obs : List ChanObs) (hevent : sp.event = .none) (hords : sp.maskedOrds = [])
    (hhalts : sp.halts = false) (hmatch : (s.thread th).matchRun = none) (hlate : (s.thread th).late = []) (hspans : (s.thread th).spans = sp :: rest)
    (hwaiting : sp.waiting = false) (hstaging : s.burst.staging = []) (hth : th < 3072) (hquiet : s.drivable th) :
    (∀ k, runKey k → (s.runCycle th sp obs).get k = ((s.countStrobes th (s.strobes th sp obs)).countBy (Key.cyclesExecuted th) 64 1).get k) ∧
    ((s.runCycle th sp obs).thread th).started = (s.thread th).started + 1 ∧
    ((s.runCycle th sp obs).thread th).spans = (if sp.left - 1 = 0 then rest else { sp with left := sp.left - 1 } :: rest) ∧
    ((s.runCycle th sp obs).thread th).late = [] := by
  obtain ⟨w, hw, hrun⟩ := runCycle_quiet (obs := obs) hevent hords hhalts hmatch hlate ⟨rest, hspans⟩ hwaiting hstaging hth hquiet
  obtain ⟨hget, hstarted, hleft, -, hnone⟩ := stepCycle_spec hth (rest := rest) (by rw [hw.spans, countStrobes_thread, hspans])
    (by rw [hw.matchRun, countStrobes_thread, hmatch]) (by rw [hw.late, countStrobes_thread, hlate]) hwaiting
  rw [hrun]
  exact ⟨fun k hk => (hget k hk).trans ((hw.countBy_congr (runKey_counts hth).1 64 1).get k hk), by rw [hstarted, hw.started, countStrobes_thread], hleft, hnone⟩

/-! ## CYCLE_START (R161) -/

/-- CYCLES_EXECUTED is none of the other words that a cycle's counts speak of. -/
theorem cyclesExecuted_ne (th : Nat) :
    Key.cyclesExecuted th ≠ Key.strobesPlaced th ∧ Key.cyclesExecuted th ≠ Key.strobesJudged th ∧ Key.cyclesExecuted th ≠ Key.fails th ∧
      Key.cyclesExecuted th ≠ Key.deviceMode := by
  simp only [Key.cyclesExecuted, Key.strobesPlaced, Key.strobesJudged, Key.fails, Key.deviceMode, mkKey]
  omega

/-- A cycle whose row and span are there executes (R24, R203). -/
theorem cycleStart_executes {s : State} {th : Nat} {obs : List ChanObs} (hth : th < 3072) (hhalt : s.machineCheck = false) (hlaunched : s.burst.launched = true)
    (hlive : s.live th = true) (hinjection : s.injection = none) (hlate : (s.thread th).late = []) {sp : Span} {rest : List Span} (hspans : (s.thread th).spans = sp :: rest)
    (hrow : s.rowLost th sp.row = false) (hready : s.spanReady th sp = true) (hstops : sp.stops = none) (hevent : sp.event = .none) (hords : sp.maskedOrds = [])
    (hwaiting : sp.waiting = false) (hhalts : sp.halts = false) (hmatch : (s.thread th).matchRun = none) (hstaging : s.burst.staging = []) (hquiet : s.drivable th) :
    ∃ t, exec (.cycleStart th obs false .clean) s = .next t ∧
      (∀ k, runKey k → t.get k = ((s.countStrobes th (s.strobes th sp obs)).countBy (Key.cyclesExecuted th) 64 1).get k) ∧
      (t.thread th).started = (s.thread th).started + 1 ∧ (t.thread th).spans = (if sp.left - 1 = 0 then rest else { sp with left := sp.left - 1 } :: rest) := by
  obtain ⟨hget, hstarted, hleft, hnone⟩ := runCycle_spec obs hevent hords hhalts hmatch hlate hspans hwaiting hstaging hth hquiet
  refine ⟨s.runCycle th sp obs, ?_, hget, hstarted, hleft⟩
  simp only [exec, execCycleStart, within, if_pos hth]
  rw [cycleStart_once hhalt hlaunched hlive (by simpa [hspans] using hwaiting), cycleOnce_runs hlive hinjection hspans hrow hready hstops, endLate_of_none hnone]

/-- A stop of the only thread leaves UNDERRUNS, SPAN_STARVE and the mode (R30, R100). -/
theorem stopThreads_one_counters {s : State} {th : Nat} (hth : th < 3072) (hthreads : s.burst.threads = [th]) (hlive : s.live th = true)
    (hlaunched : s.burst.launched = true) (hlate : (s.thread th).late = []) (hjump : (s.thread th).jump = none) (reason : Nat) {k : Nat}
    (hk : k = Key.underruns ∨ k = Key.spanStarve ∨ k = Key.deviceMode) : (s.stopThreads [th] reason).get k = s.get k := by
  obtain ⟨-, -, -, -, hother, -⟩ := stopThreads_one_spec hth hthreads hlive hlaunched hlate hjump reason
  have hrun : runKey k := by rcases hk with rfl | rfl | rfl <;> (unfold runKey; decide)
  have hword : k ≠ Key.threadState th ∧ k ≠ Key.stopCycle th := by
    rcases hk with rfl | rfl | rfl
    all_goals
      simp only [Key.threadState, Key.stopCycle, Key.underruns, Key.spanStarve, Key.deviceMode, mkKey]
      omega
  have hcommand : k ≠ Key.burstStop ∧ k ≠ Key.auditStatus := by rcases hk with rfl | rfl | rfl <;> decide
  exact hother k hrun hword.1 hword.2 hcommand.1 hcommand.2

/-- A cycle without its span is an underrun (R100, R155): the thread ends FAULTED and both counters advance. -/
theorem cycleStart_underruns {s : State} {th : Nat} {obs : List ChanObs} (hth : th < 3072) (hhalt : s.machineCheck = false) (hlaunched : s.burst.launched = true)
    (hlive : s.live th = true) (hlate : (s.thread th).late = []) (hspans : (s.thread th).spans = []) (hthreads : s.burst.threads = [th])
    (hjump : (s.thread th).jump = none) :
    ∃ u : State, exec (.cycleStart th obs false .clean) s = .next ((u.fault 47 (.thread th) 0).endLate th) ∧ u.threadSt th = Th.faulted ∧
      u.getF (Key.threadState th) 8 8 = Stop.refillUnderrun ∧ (u.get Key.underruns).toNat = ((s.get Key.underruns).toNat + 1) % 2 ^ 32 ∧
      (u.get Key.spanStarve).toNat = ((s.get Key.spanStarve).toNat + 1) % 2 ^ 32 ∧ u.mode = s.mode := by
  obtain ⟨hword, -, -, -, hother, -⟩ := stopThreads_one_spec hth hthreads hlive hlaunched hlate hjump Stop.refillUnderrun
  have hkept : ∀ {k}, _ → (s.stopThreads [th] Stop.refillUnderrun).get k = s.get k :=
    stopThreads_one_counters hth hthreads hlive hlaunched hlate hjump Stop.refillUnderrun
  have hunder : Key.threadState th ≠ Key.underruns := by simp only [Key.threadState, Key.underruns, mkKey]; omega
  have hstarve : Key.threadState th ≠ Key.spanStarve := by simp only [Key.threadState, Key.spanStarve, mkKey]; omega
  have hcycle : s.cycleOnce th obs false .clean = s.underrun th false := by simp [State.cycleOnce, hspans]
  refine ⟨((s.stopThreads [th] Stop.refillUnderrun).count Key.underruns 32).count Key.spanStarve 32, ?_, ?_, ?_, ?_, ?_, ?_⟩
  · simp only [exec, execCycleStart, within, if_pos hth]
    rw [cycleStart_once hhalt hlaunched hlive (by simp [hspans]), hcycle]
    rfl
  case refine_2 | refine_3 =>
    simp only [State.threadSt, State.getF_eq, State.count]
    rw [State.get_put_other _ _ hstarve.symm, State.get_put_other _ _ hunder.symm, hword]
    simp only [endWord_state, endWord_reason]
    decide
  · rw [State.count, State.get_put_other _ _ (by decide), State.count, State.get_put_same, hkept (.inl rfl), toWord_toNat_of_lt (by omega)]
  · rw [State.count, State.get_put_same, State.count, State.get_put_other _ _ (by decide), hkept (.inr (.inl rfl)), toWord_toNat_of_lt (by omega)]
  · simp only [State.mode]
    rw [State.count, State.get_put_other _ _ (by decide), State.count, State.get_put_other _ _ (by decide), hkept (.inr (.inr rfl))]

end Sys2Proof.Machine

open Sys2Proof Sys2Proof.Machine

/-- Settles O42: the cycle's steps move the audit counts and the thread's span alone, and an underrun is the thread's end with its two counters. -/
theorem cyclesExecute : Obligations.CyclesExecute := by
  unfold Obligations.CyclesExecute
  refine fun s th obs hth hhalt hlaunched hlive hinjection hlate =>
    ⟨fun sp rest hspans hrow hready hstops hevent hords hwaiting hhalts hmatch hstaging hquiet => ?_, fun hspans hthreads hjump =>
      cycleStart_underruns hth hhalt hlaunched hlive hlate hspans hthreads hjump⟩
  obtain ⟨t, hexec, hget, hstarted, hleft⟩ :=
    cycleStart_executes (obs := obs) hth hhalt hlaunched hlive hinjection hlate hspans hrow hready hstops hevent hords hwaiting hhalts hmatch hstaging hquiet
  obtain ⟨hrunExecuted, hrunPlaced, hrunJudged, hrunFails, -, -, hrunMode⟩ := runKey_counts hth
  obtain ⟨hplaced, hjudged, hfails, hexecuted, hmode⟩ := countStrobes_get s th (s.strobes th sp obs)
  obtain ⟨hnePlaced, hneJudged, hneFails, hneMode⟩ := cyclesExecuted_ne th
  refine ⟨t, hexec, ?_, ?_, ?_, ?_, hstarted, fun hone => ?_, fun hmore => ?_, ?_⟩
  · rw [hget _ hrunExecuted, State.countBy, State.get_put_same, hexecuted, toWord_toNat, Nat.mod_mod]
  · rw [hget _ hrunPlaced, State.countBy, State.get_put_other _ _ hnePlaced, hplaced, toWord_toNat, Nat.mod_mod]
  · rw [hget _ hrunJudged, State.countBy, State.get_put_other _ _ hneJudged, hjudged, toWord_toNat, Nat.mod_mod]
  · rw [hget _ hrunFails, State.countBy, State.get_put_other _ _ hneFails, hfails, toWord_toNat, Nat.mod_mod]
  · rw [hleft, if_pos (by omega)]
  · rw [hleft, if_neg (by omega)]
  · simp only [State.mode]
    rw [hget _ hrunMode, State.countBy, State.get_put_other _ _ hneMode, hmode]

end

section
/-! The launch of a burst whose only slice starts late (R20; O32). -/

namespace Sys2Proof.Machine

/-! ## What a raise leaves alone -/

/-- The objects other than LAUNCH_EPOCH and DEVICE_MODE. -/
abbrev away (k : Nat) : Prop := k ≠ Key.launchEpoch ∧ k ≠ Key.deviceMode

theorem away_of_keyEl {k : Nat} (h : keyEl k ≠ 0) : away k := ⟨fun e => h (e ▸ rfl), fun e => h (e ▸ rfl)⟩

theorem away_dacActive (d : Nat) : away (Key.dacActive d) := away_of_keyEl (by rw [Key.dacActive, keyEl_mkKey _ _ (by decide)]; decide)

/-- The words of the fault history (R375). -/
theorem away_histEntry (slot : Nat) {e : Nat} (he : e < 2) : away (Key.histEntry slot e) := by
  simp only [away, Key.histEntry, Key.launchEpoch, Key.deviceMode, mkKey]; omega

/-- `t` is `s` but for what the record of a raise, a parked output, an abandoned routine and an ended diagnostic run change. A slice that follows again puts its mode
where that reads 1 alone, so a word that reads 1 is not spoken of. -/
structure Steady (s t : State) : Prop where
  get : ∀ k, ¬ away k → s.get k ≠ 1 → t.get k = s.get k
  threads : t.burst.threads = s.burst.threads
  launched : t.burst.launched = s.burst.launched
  parked : ∀ sl, (t.slice sl).parked = (s.slice sl).parked

namespace Steady

theorem refl (s : State) : Steady s s := ⟨fun _ _ _ => rfl, rfl, rfl, fun _ => rfl⟩

theorem trans {r s t : State} (h : Steady r s) (k : Steady s t) : Steady r t :=
  ⟨fun j hj hne => (k.get j hj (by rw [h.get j hj hne]; exact hne)).trans (h.get j hj hne), k.threads.trans h.threads, k.launched.trans h.launched,
    fun sl => (k.parked sl).trans (h.parked sl)⟩

theorem ite {r s t : State} {c : Prop} [Decidable c] (h : Steady r s) (k : Steady r t) : Steady r (if c then s else t) := by split <;> assumption

variable {r s : State} (h : Steady r s)
include h

/-- Whatever else changes, objects, slices and the burst's threads and launch do not. -/
theorem of_eq {t : State} (hobjs : t.objs = s.objs := by rfl) (hthreads : t.burst.threads = s.burst.threads := by rfl)
    (hlaunched : t.burst.launched = s.burst.launched := by rfl) (hslices : t.slices = s.slices := by rfl) : Steady r t :=
  h.trans ⟨fun k _ _ => by simp only [State.get, hobjs], hthreads, hlaunched, fun sl => by simp only [State.slice, hslices]⟩

theorem put {k : Nat} (hk : away k) (v : Word) : Steady r (s.put k v) :=
  h.trans ⟨fun _ hj _ => s.get_put_other v (fun e => hj (e ▸ hk)), rfl, rfl, fun _ => rfl⟩

theorem putF {k : Nat} (hk : away k) (lo len v : Nat) : Steady r (s.putF k lo len v) := h.put hk _
theorem count {k : Nat} (hk : away k) (bits : Nat) : Steady r (s.count k bits) := h.put hk _

theorem putSlice {n : Nat} {x : SliceSt} (hx : x.parked = (s.slice n).parked) : Steady r (s.putSlice n x) := by
  refine h.trans ⟨fun _ _ _ => rfl, rfl, rfl, fun sl => ?_⟩
  rw [State.slice_putSlice]
  split
  · next hn => rw [hx, hn]
  · rfl

theorem foldl {α : Type} {f : State → α → State} {l : List α} (hf : ∀ t, ∀ x ∈ l, Steady r t → Steady r (f t x)) : Steady r (l.foldl f s) :=
  List.foldlRecOn l f h (fun t ht x hx => hf t x hx ht)

/-! ### Lanes and DACs -/

theorem setLane (g : Nat) (l : LaneLevel) : Steady r (s.setLane g l) := h.of_eq

theorem driveLane (g : Nat) (l : LaneLevel) : Steady r (s.driveLane g l) := by
  simp only [State.driveLane]
  exact ite (h.setLane g l) (ite h.of_eq h.of_eq)

theorem driveFrom (before : State) (l : List (Nat × LaneLevel)) : Steady r (s.driveFrom before l) :=
  h.foldl (fun _ _ _ ht => ite (ht.setLane _ _) (ht.driveLane _ _))

theorem allLanes (l : LaneLevel) : Steady r (s.allLanes l) := foldl h.of_eq (fun _ _ _ ht => ht.of_eq)

theorem restLanes : Steady r s.restLanes := (h.allLanes .mid).driveFrom _ _

theorem restSlices (sls : List Nat) : Steady r (s.restSlices sls) :=
  (h.foldl (fun _ _ _ ht => ht.foldl (fun _ _ _ hu => hu.setLane _ _))).driveFrom _ _

theorem setLbk (sls : List Nat) (l : LaneLevel) : Steady r (s.setLbk sls l) := h.foldl (fun _ _ _ ht => ht.putSlice rfl)

theorem setDac (d src code : Nat) : Steady r (s.setDac d src code) :=
  (h.put (away_dacActive d) _).putF (away_of_keyEl (by rw [Key.dacStatus, keyEl_mkKey _ _ (by decide)]; decide)) 0 2 src

theorem parkDac (d : Nat) : Steady r (s.parkDac d) := ite h (h.setDac _ _ _)

theorem faultDacs : Steady r s.faultDacs := h.foldl (fun _ _ _ ht => ite ht (ht.setDac _ _ _))

/-! ### Routines and diagnostic runs -/

theorem sliceFollow {sl : Nat} (hmode : s.get (Key.sliceMode sl) = 1) : Steady r (s.sliceFollow sl) := by
  have hplaced : Steady r (s.putSlice sl { s.slice sl with diagPlaced := false }) := h.putSlice rfl
  refine hplaced.trans ⟨fun k _ hne => ?_, rfl, rfl, fun _ => rfl⟩
  exact State.get_put_other _ _ (fun e => hne (e ▸ hmode))

theorem stopStimulus (x : Routine) : Steady r (s.stopStimulus x) := by
  have hdacs : Steady r ((s.setLbk x.slices .low).returnDacs x) :=
    (h.setLbk _ _).foldl (fun _ _ _ ht => ite ht (ite (ht.parkDac _) (ht.setDac _ _ _)))
  refine (hdacs.foldl (fun t sl _ ht => ?_)).restSlices _
  split
  · next hone => exact ht.sliceFollow (BitVec.eq_of_toNat_eq hone)
  · exact ht

theorem abandonRoutine : Steady r s.abandonRoutine := by
  simp only [State.abandonRoutine]
  split
  · exact h
  · next x _ =>
    refine ite h ?_
    have hstop : Steady r (if x.postCommit then s else s.stopStimulus x) := ite h (h.stopStimulus x)
    have hend : Steady r (s.endStimulus x) := (hstop.put (k := Key.badgerStatus) (by decide) badgerIdle).of_eq
    have hcount : Steady r ((s.endStimulus x).countAbandon x.slot) :=
      (hend.count (by decide) 32).putF (away_of_keyEl (by rw [Key.reqResult, keyEl_mkKey _ _ (by decide)]; decide)) _ _ _
    exact hcount.put (away_of_keyEl (by rw [Key.reqCmd, keyEl_mkKey _ _ (by decide)]; decide)) _

theorem abandonOn (sls : List Nat) : Steady r (s.abandonOn sls) := by
  simp only [State.abandonOn]
  split
  · exact h
  · exact ite h.abandonRoutine h

theorem endDiag (x : DiagRun) (bytes : List Byte) : Steady r (s.endDiag x bytes) := by
  delta State.endDiag
  extract_lets s₁ s₂ s₃ s₄
  have hrun : Steady r s₁ := h.of_eq
  have hlanes : Steady r s₂ := (hrun.setLbk _ _).restSlices _
  have hdac : Steady r s₃ := by
    simp only [s₃]
    split
    · exact hlanes.put (away_dacActive _) _
    · exact hlanes
  have hdacs : Steady r s₄ := hdac.foldl (fun _ _ _ ht => ite (ht.parkDac _) ht)
  exact hdacs.put (by decide) _

theorem abortDiag : Steady r s.abortDiag := by
  simp only [State.abortDiag]
  split
  · exact h
  · exact (endDiag h.of_eq _ _).put (by decide) _

theorem abortDiagOn (sls : List Nat) : Steady r (s.abortDiagOn sls) := by
  simp only [State.abortDiagOn]
  split
  · exact h
  · exact ite h.abortDiag h

/-! ### Records -/

theorem irq (e : Nat) : Steady r (s.irq e) := by
  simp only [State.irq, State.signal]
  exact ite h (ite (ite h h.of_eq) h.of_eq)

theorem faultIrq : Steady r s.faultIrq := ite h.of_eq (h.irq _).of_eq

theorem stopTrigouts : Steady r s.stopTrigouts := foldl h.of_eq (fun _ _ _ ht => ht.of_eq)

theorem latch (cause : Nat) : Steady r (s.latch cause) :=
  ite h ((h.putF (by decide) 0 1 1).putF (by decide) 1 2 cause)

theorem bbWrite (typ : Nat) (payload : List Word) : Steady r (s.bbWrite typ payload) := by
  delta State.bbWrite
  refine ite h ?_
  extract_lets x kept bb nvm ledger s₁
  have hbox : Steady r s₁ := h.of_eq
  exact (hbox.count (by decide) 32).put (by decide) _

theorem bbBudget (typ : Nat) (payload : List Word) : Steady r (s.bbBudget typ payload) := by
  simp only [State.bbBudget, State.drawToken]
  split
  · next t ht =>
    split at ht
    · cases ht
    · rw [← Option.some.inj ht]
      exact (h.put (by decide) _).bbWrite _ _
  · exact h.count (by decide) 32

theorem faultRecord (x : Raise) (sev : Nat) : Steady r (s.faultRecord x sev) := ite (h.bbWrite _ _) (ite (h.bbBudget _ _) h)

theorem recordRaise (x : Raise) (sev : Nat) : Steady r (s.recordRaise x sev) := by
  have hfirst : away (Key.firstFault 0) ∧ away (Key.firstFault 1) := by decide
  delta State.recordRaise
  extract_lets lo q slot s₁ s₂ s₃ s₄ first s₅ s₆
  have hlost : Steady r s₁ := ite (h.count (by decide) 32) h
  have hhist : Steady r s₂ := (hlost.put (away_histEntry _ (by decide)) lo).put (away_histEntry _ (by decide)) _
  have hread : Steady r s₃ := hhist.of_eq
  have hcount : Steady r s₄ := hread.count (by decide) 32
  have hnoted : Steady r s₅ := ite ((hcount.put hfirst.1 _).put hfirst.2 _) hcount
  have hwatch : Steady r s₆ := hnoted.of_eq
  exact ite hwatch.faultIrq hwatch

theorem clearLive {src : Nat} (hsrc : src < 128) : Steady r (s.clearLive src) := by
  have hlive : away (Key.faultLive (src / 64)) := by simp only [away, Key.faultLive, Key.launchEpoch, Key.deviceMode, mkKey]; omega
  delta State.clearLive
  extract_lets s₁ s₂ s₃
  have hbit : Steady r s₂ := (h.put hlive _).of_eq
  have hwatch : Steady r s₃ := hbit.of_eq
  split
  · exact hbit
  · next w _ =>
    extract_lets s₄
    have hmark : Steady r s₄ := ite (hwatch.putF (away_histEntry _ (by decide)) 11 1 1) hwatch
    exact ite hwatch (ite (hmark.putF (by decide) 11 1 1) hmark)

theorem noteRaise {x : Raise} (hsrc : x.source < 128) (sev : Nat) : Steady r (s.noteRaise x sev) := by
  have hbits : away (Key.raises x.source) ∧ away (Key.faultCause (x.source / 64)) ∧ away (Key.faultLive (x.source / 64)) := by
    simp only [away, Key.raises, Key.faultCause, Key.faultLive, Key.launchEpoch, Key.deviceMode, mkKey]; omega
  obtain ⟨hraises, hcause, hlive⟩ := hbits
  delta State.noteRaise
  extract_lets fresh s₁ s₂ s₃ s₄
  have hset : Steady r s₂ := ((h.put hraises _).put hcause _).put hlive _
  clear_value s₂
  have hlocs : Steady r s₃ := hset.of_eq
  have hrecord : Steady r s₄ := ite (hlocs.recordRaise _ _) hlocs
  exact ite hrecord (hrecord.clearLive hsrc)

theorem noteFull {x : Raise} (hsrc : x.source < 128) (sev : Nat) : Steady r (s.noteFull x sev) :=
  ite ((h.noteRaise hsrc sev).faultRecord x sev) (h.noteRaise hsrc sev)

/-! ### What follows an end -/

theorem settleStop : Steady r s.settleStop := by
  delta State.settleStop
  extract_lets left b s₁
  have hleft : Steady r s₁ := h.of_eq
  exact ite (hleft.put (by decide) _) hleft

theorem settleBurst : Steady r s.settleBurst := ite (put h.of_eq (by decide) _) h

end Steady

/-! ## A stop leaves the burst its threads -/

theorem SameRun.threads {s t : State} (h : SameRun s t) : t.burst.threads = s.burst.threads := congrArg (fun x => x.2.2.1) h.control

theorem endThread_threads (s : State) (th reason : Nat) : (s.endThread th reason).burst.threads = s.burst.threads := by
  delta State.endThread
  split
  · rfl
  extract_lets t s₁ s₂ s₃ s₄ s₅ x₆ s₇ s₈ s₉ s₁₀ s₁₁ b
  have hcounts : s₁.burst.threads = s.burst.threads := (((SameRun.refl s).putCounts _ _ _).putCounts _ _ _).threads
  have hcredits : SameRun s₁ s₂ := (SameRun.refl s₁).returnCredits th 256
  have hcapture : SameRun s₄ s₅ := (SameRun.refl s₄).endCapture th
  have hlanes : SameRun s₇ s₉ := ((SameRun.refl s₇).foldl (fun _ _ _ hu => hu.putSlice _ _)).stopLanes th reason
  have hjump : s₁₀.burst.threads = s₉.burst.threads := by
    simp only [s₁₀]
    split
    · next j hj => rw [(failJump_spec s₉ j.who).2.1]
    · rfl
  have hsites : SameRun s₁₀ s₁₁ := SameRun.ite (SameRun.refl _) ((SameRun.refl _).foldl (fun _ x hx hu => hu.siteFails (siteOf_lt_of_mem_served hx) 5))
  calc s₁₁.burst.threads = s₁₀.burst.threads := hsites.threads
    _ = s₉.burst.threads := hjump
    _ = s₇.burst.threads := hlanes.threads
    _ = s₄.burst.threads := hcapture.threads
    _ = s₁.burst.threads := hcredits.threads
    _ = s.burst.threads := hcounts

theorem stopThreads_threads (s : State) (ths : List Nat) (reason : Nat) : (s.stopThreads ths reason).burst.threads = s.burst.threads := by
  have hall : ∀ l : List (Nat × Nat), (s.endAll l).burst.threads = s.burst.threads := fun l =>
    List.foldlRecOn (motive := fun t => t.burst.threads = s.burst.threads) l _ rfl (fun t ht x _ => (endThread_threads t x.1 x.2).trans ht)
  simp only [State.stopThreads]
  split
  · exact (Steady.refl _).settleStop.threads
  · exact ((Steady.refl _).settleStop.settleBurst.threads).trans (hall _)

/-! ## The marks of an action (R368) -/

/-- What the action on a late slice leaves to be seen: LAUNCH_EPOCH as the launch wrote it, the thread stopped by the fault, the slice parked, SAFE entered or to be
entered, or no burst that runs. -/
def Marked (s : State) : Prop :=
  s.get Key.launchEpoch = 2 ∨ s.getF (Key.threadState 3071) 8 8 = Stop.faultStop ∨ (s.slice 31).parked = true ∨ s.entering = some Mode.safe ∨
    s.get Key.deviceMode = toWord Mode.safe ∨ s.burst.running = false

theorem Marked.settleBurst {s : State} (h : Marked s) : Marked s.settleBurst := by
  have hget : ∀ k, k ≠ Key.auditStatus → s.settleBurst.get k = s.get k := fun k hk => settleBurst_get s hk
  have hrest : s.settleBurst.slices = s.slices ∧ s.settleBurst.entering = s.entering ∧ s.settleBurst.burst.running = s.burst.running := by
    simp only [State.settleBurst]
    split <;> exact ⟨rfl, rfl, rfl⟩
  obtain ⟨hslices, hentering, hrunning⟩ := hrest
  simp only [Marked, State.getF_eq, State.slice, hslices, hentering, hrunning, hget _ (show Key.launchEpoch ≠ Key.auditStatus by decide),
    hget _ (show Key.deviceMode ≠ Key.auditStatus by decide), hget _ (show Key.threadState 3071 ≠ Key.auditStatus by decide)] at h ⊢
  exact h

/-- LAUNCH_EPOCH of a launch at the FREF edge 2. -/
theorem Steady.marked {s t : State} (h : Steady s t) (hepoch : s.get Key.launchEpoch = 2) : Marked t :=
  .inl ((h.get _ (fun k => k.1 rfl) (by rw [hepoch]; decide)).trans hepoch)

/-- A slice that SLICE-SAFE parks reads so (R370). -/
theorem parkSlices_marked (s : State) : Marked (s.parkSlices [31]) := by
  delta State.parkSlices
  extract_lets s₁ s₂ s₃ s₄
  have hparked : (s₄.slice 31).parked = true := by
    simp only [s₄, List.foldl_cons, List.foldl_nil, State.slice_putSlice, if_true]
  exact .inr (.inr (.inl ((((Steady.refl s₄).abandonOn [31]).abortDiagOn [31]).parked 31 ▸ hparked)))

/-- The mode that an entry into SAFE takes (R62). -/
theorem enterMode_safe (s : State) : (s.enterMode Mode.safe).get Key.deviceMode = toWord Mode.safe := by
  delta State.enterMode
  extract_lets old s₁ s₂ s₃ s₄ s₅ s₆ s₇ s₈ s₉ s₁₀ ledger s₁₁
  have hset : s₅.get Key.deviceMode = toWord Mode.safe := (State.get_put_other _ _ (by decide)).trans (State.get_put_same _ _ _)
  clear_value s₅
  have hentered : Steady s₅ s₆ := (Steady.refl s₅).of_eq
  have hlines : Steady s₅ s₈ := .ite (.putF (.ite hentered.stopTrigouts hentered) (by decide) 0 1 0) (.ite hentered.stopTrigouts hentered)
  have houtputs : Steady s₅ s₉ := hlines.restLanes.faultDacs
  clear_value s₉
  have hdiagnose : s₁₀ = s₉ := if_neg (by decide)
  have hplaced : Steady s₅ s₁₀ := by rw [hdiagnose]; exact houtputs
  clear_value s₁₀
  have hcounted : Steady s₅ s₁₁ := .ite hplaced.of_eq hplaced
  exact ((Steady.ite hcounted.faultIrq hcounted).get _ (fun k => k.2 rfl) (by rw [hset]; decide)).trans hset

/-- An entry into SAFE leaves its mark (R63, R419). -/
theorem safeEntry_marked {s : State} (hepoch : s.get Key.launchEpoch = 2) (hmode : s.get Key.deviceMode = toWord Mode.burst) (noAudit : Option Nat) :
    Marked (s.safeEntry noAudit) := by
  have hstays : Marked s := .inl hepoch
  have hsafe : ∀ t : State, Marked (t.enterMode Mode.safe) := fun t => .inr (.inr (.inr (.inr (.inl (enterMode_safe t)))))
  have hcut : ∀ c, Marked (s.cutAudit c) := fun c => by
    simp only [State.cutAudit]
    rw [if_neg (by simp only [State.mode, hmode]; decide)]
    split
    · exact .inr (.inr (.inr (.inr (.inr rfl))))
    · exact hstays
  delta State.safeEntry
  split
  · exact hstays
  split
  · split
    · exact hcut _
    · exact hstays
  extract_lets s₁ s₂ s₃
  split
  · exact hsafe _
  · split
    · exact .inr (.inr (.inr (.inl rfl)))
    · exact hsafe _

/-- A machine check leaves its mark (R371). -/
theorem machineCheckEntry_marked {s : State} (hepoch : s.get Key.launchEpoch = 2) (hmode : s.get Key.deviceMode = toWord Mode.burst) : Marked s.machineCheckEntry := by
  delta State.machineCheckEntry
  extract_lets s₁ s₂ ledger s₃ s₄
  have hparked : Steady s s₁ := .ite (.refl s) ((Steady.refl s).allLanes .mid).faultDacs
  clear_value s₁
  have hstopped : Steady s s₂ := hparked.stopTrigouts
  clear_value s₂
  have hhalted : Steady s s₃ := hstopped.of_eq
  have hlatched : Steady s s₄ := hhalted.latch 3
  refine safeEntry_marked ?_ ?_ _
  · rw [hlatched.get _ (fun k => k.1 rfl) (by rw [hepoch]; decide), hepoch]
  · rw [hlatched.get _ (fun k => k.2 rfl) (by rw [hmode]; decide), hmode]

/-- A stop of the only thread, or of none, lists it or nothing. -/
theorem stopList_one {s : State} {th : Nat} (hthreads : s.burst.threads = [th]) {ths : List Nat} (hths : ∀ x ∈ ths, x = th) (reason : Nat) :
    s.stopList ths reason = [] ∨ s.stopList ths reason = [(th, reason)] ∧ s.live th = true := by
  simp only [State.stopList, hthreads, List.filterMap_cons, List.filterMap_nil]
  by_cases hnamed : (ths.filter (fun t => s.live t)).contains th = true
  · refine .inr ⟨by rw [if_pos hnamed], ?_⟩
    exact (List.mem_filter.1 (List.contains_iff_mem.1 hnamed)).2
  · have hnil : ths.filter (fun t => s.live t) = [] := by
      refine List.eq_nil_iff_forall_not_mem.2 (fun x hx => hnamed (List.contains_iff_mem.2 ?_))
      rw [← hths x (List.mem_filter.1 hx).1]
      exact hx
    exact .inl (by simp [hnil])

/-- A stop of the only thread, or of none, leaves its mark. -/
theorem stopThreads_marked {s : State} (hthreads : s.burst.threads = [3071]) (hlaunched : s.burst.launched = true) (hepoch : s.get Key.launchEpoch = 2) {ths : List Nat}
    (hths : ∀ th ∈ ths, th = 3071) : Marked (s.stopThreads ths Stop.faultStop) := by
  have hnone : Marked ((s.endAll []).settleStop.settleBurst) := (Steady.refl s).settleStop.settleBurst.marked hepoch
  have hstopped : s.live 3071 = true → Marked ((s.endAll [(3071, Stop.faultStop)]).settleStop.settleBurst) := fun hlive => by
    have hended : Ended s (s.endThread 3071 Stop.faultStop) 3071 Stop.faultStop := endThread_ended (by decide) (by
      simp only [State.live, Bool.and_eq_true, Bool.not_eq_true'] at hlive; exact hlive.2) _
    refine Marked.settleBurst (.inr (.inl ?_))
    rw [State.getF_eq, settleStop_get _ (by decide)]
    exact (congrArg (fun w => field w 8 8) hended.word).trans (endWord_reason _ _)
  simp only [State.stopThreads, hlaunched, Bool.not_true, Bool.and_false, Bool.false_eq_true, if_false]
  obtain hlist | ⟨hlist, hlive⟩ := stopList_one hthreads hths Stop.faultStop
  · rw [hlist]; exact hnone
  · rw [hlist, List.filter_cons]
    split
    · exact hstopped hlive
    · exact hnone

/-! ## FS045 of slice 31 (R20) -/

/-- The raise of slice 31 starting late. -/
def lateRaise : Raise := { source := 45, loc := .slice 31, detail := 0, injected := false }

theorem effects_lateRaise (s : State) (sev : Nat) :
    s.effects lateRaise sev [] = (if Sev.portStop ≤ sev then (s.abandonOn [31]).abortDiagOn [31] else s).act lateRaise sev [] := rfl

theorem act_marked {s : State} (hepoch : s.get Key.launchEpoch = 2) (hmode : s.get Key.deviceMode = toWord Mode.burst) (hlaunched : s.burst.launched = true) {sev : Nat}
    (hthreads : (s.act lateRaise sev []).burst.threads = [3071]) : Marked (s.act lateRaise sev []) := by
  delta State.act at hthreads ⊢
  by_cases hnote : sev ≤ Sev.degrade
  · rw [if_pos hnote]
    exact .inl hepoch
  rw [if_neg hnote] at hthreads ⊢
  by_cases hport : sev = Sev.portStop
  · rw [if_pos hport] at hthreads ⊢
    have hburst : s.burst.threads = [3071] := (stopThreads_threads s _ _).symm.trans hthreads
    refine stopThreads_marked hburst hlaunched hepoch (fun th hth => ?_)
    have hmem : th ∈ s.burst.threads := (List.mem_filter.1 hth).1
    rw [hburst] at hmem
    exact List.mem_singleton.1 hmem
  rw [if_neg hport]
  split
  · exact parkSlices_marked s
  split
  · exact machineCheckEntry_marked hepoch hmode
  extract_lets s₁
  have hlatched : Steady s s₁ := .ite ((Steady.refl s).latch 2) (.refl s)
  refine safeEntry_marked ?_ ?_ _
  · rw [hlatched.get _ (fun k => k.1 rfl) (by rw [hepoch]; decide), hepoch]
  · rw [hlatched.get _ (fun k => k.2 rfl) (by rw [hmode]; decide), hmode]

/-- At every severity the raise leaves a mark. -/
theorem collect_marked {s : State} (hepoch : s.get Key.launchEpoch = 2) (hmode : s.get Key.deviceMode = toWord Mode.burst) (hlaunched : s.burst.launched = true)
    (hthreads : (s.collect [lateRaise]).burst.threads = [3071]) : Marked (s.collect [lateRaise]) := by
  have hcollect : s.collect [lateRaise] = (s.noteFull lateRaise (s.severityOf 45)).effects lateRaise (s.severityOf 45) [] := rfl
  rw [hcollect, effects_lateRaise] at hthreads ⊢
  have hnoted : Steady s (s.noteFull lateRaise (s.severityOf 45)) := (Steady.refl s).noteFull (by decide) _
  have hsteady := Steady.ite (c := Sev.portStop ≤ s.severityOf 45) ((hnoted.abandonOn [31]).abortDiagOn [31]) hnoted
  refine act_marked ?_ ?_ (hsteady.launched.trans hlaunched) hthreads
  · rw [hsteady.get _ (fun k => k.1 rfl) (by rw [hepoch]; decide), hepoch]
  · rw [hsteady.get _ (fun k => k.2 rfl) (by rw [hmode]; decide), hmode]

/-! ## A launch whose thread awaits a host jump -/

/-- The objects of thread 3071, dormant in BURST on port 8191 of slice 31, which has channel 1023 alone. -/
def strayObjs : List (Nat × Word) :=
  [(Key.deviceMode, toWord Mode.burst), (Key.siteEnable 7, 0x8000000000000000), (Key.portCtrl 8191, 0x1BFF), (Key.channelMap 8191 15, 0x8000000000000000),
    (Key.portChannels 8191, 1), (Key.portSlices 8191, 0x80000000), (Key.groupSize 3071, 1), (Key.threadState 3071, 1)]

/-- That thread before a launch at the FREF edge 2, its rows all issued, with a host jump whose status word would be LAUNCH_EPOCH. -/
def sStray : State :=
  { strayObjs.foldl (fun s e => s.put e.1 e.2) State.reset with
    burst := { Burst.none with running := true, threads := [3071], launchTick := 64 }
    threads := [(3071, { Thread.idle with lastRow := true, armed := true, jump := some ⟨0, 0x700107 - 0x233000, 0, false⟩ })] }

/-- It stands where BURST_LAUNCH launches (R19). -/
theorem sStray_hypotheses :
    sStray.ring.launchDue = none ∧ sStray.mode = Mode.burst ∧ sStray.burst.running = true ∧ sStray.burst.launched = false ∧ sStray.machineCheck = false ∧
      sStray.burst.early = [] ∧ sStray.ended 3071 = false ∧ sStray.threadSlices 3071 = [31] := by
  decide +kernel

/-- BURST_LAUNCH of an accepted burst that no joint start concerns is its launch (R19). -/
theorem burstLaunch_launches {s : State} (hdue : s.ring.launchDue = none) (hmode : s.mode = Mode.burst) (hrunning : s.burst.running = true)
    (hlaunched : s.burst.launched = false) (hmachine : s.machineCheck = false) : exec (.burstLaunch [31]) s = .next (s.launch [31]) := by
  have hlist : [31].eraseDups = [31] := by decide
  simp [exec, execBurstLaunch, State.jointLaunch, hdue, hmode, hrunning, hlaunched, hmachine, hlist]

/-- Its launch with slice 31 late ends the thread, whose jump is given up: the command's status stands in LAUNCH_EPOCH. -/
theorem sStray_launch : ¬ Marked (sStray.launch [31]) ∧ (sStray.launch [31]).burst.threads = [3071] := by
  unfold Marked
  decide +kernel

end Sys2Proof.Machine

open Sys2Proof Sys2Proof.Machine

/-- Refutes O32, in its last clause: nothing bounds the number by which a thread's host jump names its command (`JumpReq.who`), so the thread that a late slice ends may
hold one whose status word (R122) is LAUNCH_EPOCH. The end writes that status there, and no action of FS045 hides it. The counterexample rests on a number beyond the
device's 3,072 threads. -/
theorem not_burstsStart : ¬ Obligations.BurstsStart := by
  unfold Obligations.BurstsStart
  rintro ⟨-, hlaunch⟩
  obtain ⟨hdue, hmode, hrunning, hlaunched, hmachine, hearly, hended, hslices⟩ := sStray_hypotheses
  obtain ⟨-, -, hlate⟩ := hlaunch sStray hdue hmode hrunning hlaunched hmachine hearly
  obtain ⟨u, hexec, hstarted, hepoch, -, hkept⟩ := hlate 31 3071 (by decide) (by decide) rfl hended hslices
  obtain ⟨hunmarked, hthreads⟩ := sStray_launch
  have hresult : sStray.launch [31] = (u.collect [lateRaise]).settleBurst := by
    rw [burstLaunch_launches hdue hmode hrunning hlaunched hmachine] at hexec
    exact Host.Outcome.next.inj hexec
  have hburst : (u.collect [lateRaise]).burst.threads = [3071] := by
    rw [← (Steady.refl (u.collect [lateRaise])).settleBurst.threads, ← hresult, hthreads]
  have hbits : u.get Key.deviceMode = toWord Mode.burst := BitVec.eq_of_toNat_eq (hkept.trans hmode)
  exact hunmarked (hresult ▸ (collect_marked hepoch hbits hstarted hburst).settleBurst)

end

section
/-! The block right after reset (O3). -/

open Sys2Proof Sys2Proof.Machine

/-- Settles O3: the one object that State.reset lists is DEVICE_MODE; every store is empty. -/
theorem resetIsAsStated : Obligations.ResetIsAsStated := by
  unfold Obligations.ResetIsAsStated
  refine ⟨by decide, rfl, fun k hk => ?_, fun _ => rfl, rfl, rfl, rfl, by decide⟩
  simp [State.get, State.reset, mget, hk.symm]

end

section
/-! Reads (R44, R45; O8). -/

namespace Sys2Proof.Machine

/-! ## The value of a read -/

/-- The rows of the three string objects (R9). -/
theorem rowOf_string {key : Nat} (h : key = Key.vendorName ∨ key = Key.deviceName ∨ key = Key.orderingCode) :
    stringOf key ≠ [] ∧ ∃ r, rowOf key = some r ∧ r.ty = .str ∧ r.acc = .ro := by
  rcases h with rfl | rfl | rfl <;> exact ⟨by decide, _, rfl, rfl, rfl⟩

/-- An object of another type has no string. -/
theorem stringOf_eq_nil {key : Nat} {r : ObjRow} (hrow : rowOf key = some r) (hty : r.ty ≠ .str) : stringOf key = [] := by
  have hkey : ¬ (key = Key.vendorName ∨ key = Key.deviceName ∨ key = Key.orderingCode) := fun h => by
    obtain ⟨-, r', hrow', hstr, -⟩ := rowOf_string h
    exact hty (Option.some.inj (hrow.symm.trans hrow') ▸ hstr)
  obtain ⟨hv, hd, ho⟩ := not_or.1 hkey |>.imp_right not_or.1
  simp [stringOf, hv, hd, ho]

/-- `s` after reads: its answers, and the raises marked as read (R379). -/
def State.afterReads (s : State) (answers : List Message) (watch : List Watch) (histRead : List Nat) : State :=
  { s with answers := answers, watch := watch, histRead := histRead }

/-- No value shows the answers or the marks of a read. -/
@[simp] theorem State.afterReads_value (s : State) (a : List Message) (w : List Watch) (h : List Nat) (key : Nat) : (s.afterReads a w h).value key = s.value key := rfl

@[simp] theorem State.afterReads_answers (s : State) (a : List Message) (w : List Watch) (h : List Nat) : (s.afterReads a w h).answers = a := rfl

/-- Later reads answer and mark in place of earlier ones. -/
@[simp] theorem State.afterReads_afterReads (s : State) (a b : List Message) (w x : List Watch) (h y : List Nat) :
    (s.afterReads a w h).afterReads b x y = s.afterReads b x y := rfl

/-- A read marks the raises that it shows, and nothing else (R379). -/
theorem noteRead_marks (s : State) (key : Nat) : ∃ w h, s.noteRead key = s.afterReads s.answers w h := by
  unfold State.noteRead
  split
  · exact ⟨_, _, rfl⟩
  · split
    · dsimp only
      split <;> exact ⟨_, _, rfl⟩
    · exact ⟨_, _, rfl⟩

/-! ## The checks of a read -/

/-- A readable object is read: at a string's index within its eight pieces, and without a session in area 00 alone (R36, R45, R51). -/
theorem readCode_ok {s : State} {p : Path} {index key : Nat} {r : ObjRow} (hcore : s.machineCheck = false) (hboot : s.mode ≠ Mode.boot)
    (hsession : s.hasSession p = true ∨ keyArea key = 0) (hrow : rowOf key = some r) (hacc : r.acc ≠ .wo) (hindex : r.ty ≠ .str ∨ index < 8) :
    s.readCode p index key = .ok := by
  have hpath : (!s.hasSession p && keyArea key != 0) = false := by
    rcases hsession with h | h <;> simp [h]
  have hpiece : (decide (r.ty = .str) && decide (7 < index)) = false := by
    rcases hindex with h | h <;> simp [h]
    omega
  simp [State.readCode, implemented, hcore, hboot, hpath, hrow, hacc, hpiece, refuse]

/-- On a path other than the hot window a read answers its code and its value. -/
theorem readAt_eq {s : State} {p : Path} (hpath : p ≠ .hot) (hreset : s.mode ≠ Mode.reset) (dflt : Bool) (index key : Nat) :
    s.readAt p dflt index key = (s.doRead p dflt index key).2.2.answer (response 0x01 (s.doRead p dflt index key).1 index key (s.doRead p dflt index key).2.1) := by
  simp [State.readAt, hpath, hreset]

/-- A read that no check refuses, of an object that is neither a string nor a latched record, answers the value or the default (R44, R47), and marks the raises it shows. -/
theorem readAt_plain {s : State} {p : Path} {index key : Nat} (hpath : p ≠ .hot) (hreset : s.mode ≠ Mode.reset) (hcode : s.readCode p index key = .ok)
    (hstring : stringOf key = []) (hrecord : isRecord key = false) (dflt : Bool) :
    ∃ w h, s.readAt p dflt index key =
      s.afterReads (s.answers ++ [response 0x01 .ok index key (if dflt then (if isSecret key then 0 else s.defaultOf key) else s.value key)]) w h := by
  rw [readAt_eq hpath hreset]
  simp only [State.doRead, hcode, State.readValue, hstring, hrecord]
  cases dflt
  case true => exact ⟨s.watch, s.histRead, rfl⟩
  case false =>
    obtain ⟨w, h, hnote⟩ := noteRead_marks s key
    refine ⟨w, h, ?_⟩
    simp only [hnote]
    rfl

end Sys2Proof.Machine

open Sys2Proof Sys2Proof.Machine

/-- Settles O8, by the three outcomes a read can have on a serving path. -/
theorem readsAnswerTheValue : Obligations.ReadsAnswerTheValue := by
  unfold Obligations.ReadsAnswerTheValue
  intro s p dflt index key ⟨hpath, hreset, hboot, hsession⟩ hcore
  refine ⟨fun r hrow hacc hty hrecord => ?_, fun hkey hindex => ?_, fun hkey hindex => ?_⟩
  · obtain ⟨w, h, hread⟩ := readAt_plain hpath hreset (readCode_ok hcore hboot (.inl hsession) hrow hacc (.inl hty)) (stringOf_eq_nil hrow hty) hrecord dflt
    exact ⟨_, congrArg Host.Outcome.next hread, rfl, rfl⟩
  · obtain ⟨hstring, r, hrow, -, hacc⟩ := rowOf_string hkey
    have hcode : s.readCode p index key = .ok := readCode_ok hcore hboot (.inl hsession) hrow (by simp [hacc]) (.inr hindex)
    simp only [exec, execRead, readAt_eq hpath hreset]
    simp [State.doRead, hcode, State.readValue, hstring]
  · obtain ⟨-, r, hrow, hty, hacc⟩ := rowOf_string hkey
    have hcode : s.readCode p index key = .range := by
      simp [State.readCode, implemented, hcore, hrow, hboot, hsession, hacc, hty, refuse, Nat.lt_of_lt_of_le (by decide : 7 < 8) hindex]
    simp only [exec, execRead, readAt_eq hpath hreset]
    exact ⟨s.free.1, by simp [State.doRead, hcode]⟩

end

section
/-! Batches and submissions of reads (R46, R53; O12). -/

namespace Sys2Proof.Machine

/-- From the end of BOOT on the device is in neither RESET nor BOOT. -/
theorem mode_of_train_le {s : State} (h : Mode.train ≤ s.mode) : s.mode ≠ Mode.reset ∧ s.mode ≠ Mode.boot :=
  ⟨ne_of_gt (lt_of_lt_of_le (by decide) h), ne_of_gt (lt_of_lt_of_le (by decide) h)⟩

/-- Host traffic reaches the device out of RESET alone. -/
theorem mode_of_hostOn {s : State} (h : s.hostOn = true) : s.mode ≠ Mode.reset := by
  simp only [State.hostOn, Bool.and_eq_true, bne_iff_ne] at h
  exact h.1

/-- The answer to a message that reads a plain object. -/
def State.readAnswer (s : State) (m : Message) : Message := response 0x01 .ok m.index.toNat m.key.toNat (s.value m.key.toNat)

/-- A message that reads a plain object, which is neither a string nor a latched record. -/
def readsPlain (m : Message) : Prop :=
  m.opcode = 0x01 ∧ m.dflt = false ∧ isRecord m.key.toNat = false ∧ ∃ r, rowOf m.key.toNat = some r ∧ r.acc ≠ .wo ∧ r.ty ≠ .str

/-- Such a message is answered with the value, and marks the raises it shows. -/
theorem message_reads {s : State} {p : Path} {m : Message} (hpath : p ≠ .hot) (hcore : s.machineCheck = false) (hreset : s.mode ≠ Mode.reset)
    (hboot : s.mode ≠ Mode.boot) (hsession : s.hasSession p = true ∨ keyArea m.key.toNat = 0) (hm : readsPlain m) (overMailbox : Bool) (counter : Nat) :
    ∃ w h, s.message p overMailbox counter m = s.afterReads (s.answers ++ [s.readAnswer m]) w h := by
  obtain ⟨hop, hdflt, hrecord, r, hrow, hacc, hty⟩ := hm
  have hmessage : s.message p overMailbox counter m = s.readAt p m.dflt m.index.toNat m.key.toNat := by
    simp [State.message, hop, hboot, hostOpcode]
  rw [hmessage, hdflt]
  exact readAt_plain hpath hreset (readCode_ok hcore hboot hsession hrow hacc (.inl hty)) (stringOf_eq_nil hrow hty) hrecord false

/-- Messages that read plain objects through the mailbox are answered one by one; no read changes what another answers. -/
theorem foldl_message_reads {s : State} (hcore : s.machineCheck = false) (hreset : s.mode ≠ Mode.reset) (hboot : s.mode ≠ Mode.boot) {ms : List Message}
    (hms : ∀ m ∈ ms, readsPlain m) (counter : Nat) :
    ∃ w h, ms.foldl (fun t m => t.message .mailbox true counter m) s = s.afterReads (s.answers ++ ms.map s.readAnswer) w h := by
  induction ms generalizing s with
  | nil => exact ⟨s.watch, s.histRead, by rw [List.map_nil, List.append_nil]; rfl⟩
  | cons m ms ih =>
    obtain ⟨w, h, hfirst⟩ := message_reads (p := .mailbox) nofun hcore hreset hboot (.inl rfl) (hms m List.mem_cons_self) true counter
    obtain ⟨w', h', hrest⟩ := ih (s := s.afterReads (s.answers ++ [s.readAnswer m]) w h) hcore hreset hboot
      (fun x hx => hms x (List.mem_cons_of_mem m hx))
    refine ⟨w', h', ?_⟩
    have hanswer : (s.afterReads (s.answers ++ [s.readAnswer m]) w h).readAnswer = s.readAnswer := rfl
    rw [List.foldl_cons, hfirst, hrest, hanswer, State.afterReads_afterReads, State.afterReads_answers, List.append_assoc]
    rfl

/-- A batch that is no atomic group runs message by message, its answers afresh (R45). -/
theorem runBatch_eq {b : Batch} (hatomic : b.atomic = false) (s : State) (p : Path) (overMailbox : Bool) :
    s.runBatch p overMailbox b = b.messages.foldl (fun t m => t.message p overMailbox b.counter.toNat m) (s.afterReads [] s.watch s.histRead) := by
  simp only [State.runBatch, hatomic, Bool.false_and, Bool.false_eq_true, if_false]
  rfl

/-- A batch that opens no session answers under session 0 (R44). -/
theorem newSession_of_eq {s t : State} (h : t.sessions = s.sessions) : newSession s t = 0 := by
  unfold newSession
  rw [h]
  split
  · next x hx =>
    have hany : s.sessions.any (fun y => y.id == x.id) = true := List.any_eq_true.2 ⟨x, List.mem_of_getLast? hx, by simp⟩
    simp [hany]
  · rfl

/-- A signalled interrupt changes outputs or pending bits alone (R343). -/
theorem irq_spec (s : State) (e : Nat) : ∃ o m, s.irq e = { s with out := s.out ++ o, msixPending := m } := by
  simp only [State.irq, State.signal]
  split_ifs
  · exact ⟨[], s.msixPending, by rw [List.append_nil]⟩
  · exact ⟨[], s.msixPending, by rw [List.append_nil]⟩
  · exact ⟨[], _, by rw [List.append_nil]⟩
  · exact ⟨_, s.msixPending, rfl⟩

end Sys2Proof.Machine

open Sys2Proof Sys2Proof.Machine

/-- Settles O12: the messages of a batch read one after another, and an ignored doorbell is an overrun by definition. -/
theorem messagesAreAnswered : Obligations.MessagesAreAnswered := by
  unfold Obligations.MessagesAreAnswered
  refine ⟨fun s b hcore => ⟨fun m r htrain heth hframe hsession hatomic hms hop hdflt hrow harea hacc hty => ?_, fun count hhost hboot hdone hlo hhi hms => ?_⟩,
    fun s count framed b hhost hbad => ?_⟩
  · obtain ⟨hreset, hboot⟩ := mode_of_train_le htrain
    have hrecord : isRecord m.key.toNat = false := by simp [isRecord, harea]
    obtain ⟨w, h, hread⟩ := message_reads (s := s.afterReads [] s.watch s.histRead) (p := .noSession) nofun hcore hreset hboot (.inr harea)
      ⟨hop, hdflt, hrecord, r, hrow, hacc, hty⟩ false b.counter.toNat
    have hrun : s.runBatch .noSession false b = s.afterReads [s.readAnswer m] w h := by
      rw [runBatch_eq hatomic, hms]
      exact hread
    have hexec : exec (.dictBatch b) s = .next ((s.runBatch .noSession false b).replyPlain false (newSession s (s.runBatch .noSession false b))) := by
      simp [exec, execDictBatch, State.framed, Nat.not_lt.2 htrain, heth, hframe, hsession]
    rw [hexec, hrun, newSession_of_eq (s := s) (t := s.afterReads [s.readAnswer m] w h) rfl]
    exact ⟨_, rfl, rfl, rfl⟩
  · obtain ⟨w, h, hread⟩ := foldl_message_reads (s := s.afterReads [] s.watch s.histRead) hcore (mode_of_hostOn hhost) hboot hms b.counter.toNat
    have hexec : exec (.mailboxDoorbell count false b) s =
        .next ((s.runBatch .mailbox true { b with messages := b.messages.take count, atomic := false }).reply true [] 0 0 []) := by
      simp [exec, execMailboxDoorbell, State.ringDoorbell, hhost, hdone, Nat.not_lt.2 hhi, Nat.pos_iff_ne_zero.1 hlo]
    have hrun : s.runBatch .mailbox true { b with messages := b.messages.take count, atomic := false } =
        s.afterReads ((b.messages.take count).map s.readAnswer) w h := by
      rw [runBatch_eq rfl]
      exact hread
    rw [hexec, hrun]
    obtain ⟨o, x, hirq⟩ := irq_spec { s.afterReads ((b.messages.take count).map s.readAnswer) w h with
      mailbox := ((b.messages.take count).map s.readAnswer).flatMap messageBytes, mailboxDone := true } Irq.mailbox
    refine ⟨_, congrArg Host.Outcome.next (?_ : _ = { s.afterReads ((b.messages.take count).map s.readAnswer) w h with
      mailbox := ((b.messages.take count).map s.readAnswer).flatMap messageBytes, mailboxDone := true, out := s.out ++ o, msixPending := x }), rfl, ?_, rfl⟩
    · rw [State.reply, if_pos rfl, List.nil_append, List.append_nil]
      exact hirq
    · rw [List.flatMap_map]
      rfl
  · have hexec : exec (.mailboxDoorbell count framed b) s = .next (s.ringDoorbell count framed b) := by simp [exec, execMailboxDoorbell, hhost]
    rw [hexec]
    rcases hbad with h | h | h <;> simp [State.ringDoorbell, State.overrun, h]

end

section
/-! Writes of plain objects (R35-R38; O9). -/

namespace Sys2Proof.Machine

/-! ## The answer to a write -/

/-- The last answer keeps its code where a DETAIL is shown in it. -/
theorem showDetail_append (s : State) (l : List Message) (c : Code) (index key : Nat) (v : Word) (d : Nat) :
    ∃ v', ({ s with answers := l ++ [response 0x02 c index key v] } : State).showDetail d = { s with answers := l ++ [response 0x02 c index key v'] } := by
  simp only [State.showDetail, List.getLast?_concat, List.dropLast_concat]
  split
  · exact ⟨v, rfl⟩
  · exact ⟨_, rfl⟩

/-- On a serving path a write takes effect and is answered with its code, in which a refused command may show a DETAIL. -/
theorem writeAt_serves {s : State} {p : Path} (h : s.serves p) (index key : Nat) (w : Word) :
    ∃ v n, s.writeAt p index key w =
      { (s.writeKey p key w).2 with answers := (s.writeKey p key w).2.answers ++ [response 0x02 (s.writeKey p key w).1 index key v], freeCount := n } := by
  obtain ⟨v, n, hrespond⟩ := respond_spec (s.writeKey p key w).2 0x02 index key (s.writeKey p key w).1
  simp only [State.writeAt, State.accessDetail, access_serves h, hrespond]
  split
  · exact ⟨v, n, rfl⟩
  · obtain ⟨v', hshow⟩ := showDetail_append { (s.writeKey p key w).2 with freeCount := n } (s.writeKey p key w).2.answers (s.writeKey p key w).1 index key v
      (s.refusalDetail key (s.gate p (s.writeKey p key w)).1)
    exact ⟨v', n, hshow⟩

/-- Where the refusal shows no DETAIL the write is answered plainly. -/
theorem writeAt_of_no_detail {s : State} {p : Path} (h : s.serves p) {key : Nat} (hdetail : ∀ c, s.refusalDetail key c = 0) (index : Nat) (w : Word) :
    s.writeAt p index key w = (s.writeKey p key w).2.respond 0x02 index key (s.writeKey p key w).1 := by
  simp [State.writeAt, State.accessDetail, hdetail, access_serves h]

theorem writeKey_plain {key : Nat} (hcmd : isCmd key = false) (s : State) (p : Path) (w : Word) : s.writeKey p key w = s.writePlain p key w := by
  simp [State.writeKey, hcmd]

/-- The code of a write of a plain object is the one of its check. -/
theorem writePlain_code (s : State) (p : Path) (key : Nat) (w : Word) : (s.writePlain p key w).1 = s.writeCode (s.overlay key w) p key w := by
  unfold State.writePlain
  dsimp only
  split <;> rfl

theorem writePlain_ok {s : State} {p : Path} {key : Nat} {w : Word} (h : s.writeCode (s.overlay key w) p key w = .ok) :
    s.writePlain p key w = (.ok, s.applyWrite key w) := by
  simp [State.writePlain, h]

theorem writePlain_envelope {s : State} {p : Path} {key : Nat} {w : Word} (h : s.writeCode (s.overlay key w) p key w = .envelope) :
    s.writePlain p key w = (.envelope, s.collect [envelopeRaise (keyObj key - 0x1000)]) := by
  simp [State.writePlain, h]

/-- Refused for any other reason the write has no effect. -/
theorem writePlain_refused {s : State} {p : Path} {key : Nat} {w : Word} (hok : s.writeCode (s.overlay key w) p key w ≠ .ok)
    (henvelope : s.writeCode (s.overlay key w) p key w ≠ .envelope) : s.writePlain p key w = (s.writeCode (s.overlay key w) p key w, s) := by
  unfold State.writePlain
  dsimp only
  split
  · contradiction
  · contradiction
  · rfl

/-- WRITE of a plain object on a serving path answers the code of its check, and changes what the object's write does. -/
theorem exec_write_plain {s : State} {p : Path} (h : s.serves p) {key : Nat} (hcmd : isCmd key = false) (last : Bool) (index : Nat) (w : Word) :
    ∃ t, exec (.write p last index key w) s = .next t ∧ t.answered key (s.writeCode (s.overlay key w) p key w) ∧
      ∃ a n, t = { (s.writePlain p key w).2 with answers := a, freeCount := n } := by
  obtain ⟨v, n, hwrite⟩ := writeAt_serves h index key w
  rw [writeKey_plain hcmd, writePlain_code] at hwrite
  exact ⟨_, congrArg Host.Outcome.next hwrite, ⟨index, v, by simp⟩, _, n, rfl⟩

/-- WRITE of a plain object that is refused, but not for the envelope, leaves every object. -/
theorem exec_write_refused {s : State} {p : Path} (h : s.serves p) {key : Nat} (hcmd : isCmd key = false) (last : Bool) (index : Nat) {w : Word} {c : Code}
    (hcode : s.writeCode (s.overlay key w) p key w = c) (hok : c ≠ .ok) (henvelope : c ≠ .envelope) :
    ∃ t, exec (.write p last index key w) s = .next t ∧ t.answered key c ∧ s.onlyObjects t [] := by
  subst hcode
  obtain ⟨t, hexec, hanswered, a, n, rfl⟩ := exec_write_plain h hcmd last index w
  refine ⟨_, hexec, hanswered, ?_⟩
  rw [writePlain_refused hok henvelope]
  exact ⟨fun _ _ => rfl, rfl, rfl⟩

theorem isCmd_of_row {key : Nat} {r : ObjRow} (hrow : rowOf key = some r) : isCmd key = decide (r.acc = .cmd) := by simp [isCmd, hrow]

/-! ## The check (R37) -/

/-- A refusal is that of a condition which holds (R37). -/
theorem mem_of_refuse {l : List (Bool × Code)} {c : Code} (h : refuse l = c) (hc : c ≠ .ok) : (true, c) ∈ l := by
  induction l with
  | nil => exact absurd h.symm hc
  | cons e l ih =>
    obtain ⟨b, c'⟩ := e
    cases b
    case true => exact (show c' = c from h) ▸ List.mem_cons_self
    case false => exact List.mem_cons_of_mem _ (ih h)

/-- ENVELOPE is the refusal of a DAC object alone (R271). -/
theorem keyArea_of_envelope {s v : State} {p : Path} {key : Nat} {w : Word} (h : s.writeCode v p key w = .envelope) : keyArea key = 0x22 := by
  unfold State.writeCode at h
  split at h
  case h_1 =>
    have hvendor : s.vendorCode p ≠ .envelope := fun h => by simpa using mem_of_refuse h (by simp)
    simpa [hvendor.symm] using mem_of_refuse h (by simp)
  case h_2 =>
    have hrefused := mem_of_refuse h (by simp)
    simp only [List.mem_cons, Prod.mk.injEq, reduceCtorEq, and_false, false_or, List.not_mem_nil, or_false, and_true] at hrefused
    simp only [eq_comm (a := true), Bool.and_eq_true, beq_iff_eq] at hrefused
    obtain ⟨⟨⟨harea, -⟩, -⟩, -⟩ := hrefused
    exact harea

section
variable {s v : State} {p : Path} {key : Nat} {w : Word} {r : ObjRow} (h : s.serves p) (hrow : rowOf key = some r)
include h hrow

/-! The refusals of an access code on a serving path, in the order of R37. -/

theorem writeCode_readOnly (hacc : r.acc = .ro) : s.writeCode v p key w = .readOnly := by
  simp [State.writeCode, hrow, refuse, accessMode_of_serves h, hacc]

theorem writeCode_wrongMode (hacc : r.acc ≠ .ro) (hmode : s.accessMode r.acc = true) : s.writeCode v p key w = .wrongMode := by
  simp [State.writeCode, hrow, refuse, accessMode_of_serves h, hacc, hmode]

theorem writeCode_guardLocked (hacc : r.acc = .rwg) (hmode : s.accessMode r.acc = false) (hlock : s.unlocked = false) : s.writeCode v p key w = .guardLocked := by
  rw [hacc] at hmode
  simp [State.writeCode, hrow, refuse, accessMode_of_serves h, hacc, hmode, hlock]

end

/-- A write of an RW or RWI object passes where the object is not busy, the mode writes it, and the value is of its type, bits and range; ports and DACs aside (R36, R37). -/
theorem writeCode_ok {s v : State} {p : Path} (h : s.serves p) {key : Nat} {w : Word} {r : ObjRow} (hrow : rowOf key = some r) (hports : keyArea key ≠ 0x20) (hdacs : keyArea key ≠ 0x22)
    (hmode : r.acc = .rw ∧ s.mode ≠ Mode.quiesce ∨ r.acc = .rwi ∧ (s.mode = Mode.idle ∨ s.mode = Mode.load)) (hbusy : s.busyKey key = false) (hblob : r.ty ≠ .blob)
    (htype : typeBad r.ty w = false) (hmask : w &&& ~~~ (toWord r.mask) = 0) (hrange : plainBad r.vr w = false) (hextra : extraBad s key w = false)
    (hspecial : r.vr ≠ .special ∨ specialBad s v key w = false) : s.writeCode v p key w = .ok := by
  obtain ⟨-, -, hboot, hsession⟩ := h
  have haccess : s.accessMode r.acc = false ∧ r.acc ≠ .ro ∧ r.acc ≠ .rwg ∧ r.acc ≠ .rws := by
    rcases hmode with ⟨hacc, hquiesce⟩ | ⟨hacc, hidle⟩
    · simp [hacc, State.accessMode, hboot, hquiesce]
    · rcases hidle with hidle | hidle <;> simp [hacc, State.accessMode, hidle]
  obtain ⟨haccess, hro, hrwg, hrws⟩ := haccess
  have hspecial' : (decide (r.vr = .special) && specialBad s v key w) = false := by
    rcases hspecial with h | h <;> simp [h]
  simp [State.writeCode, hrow, refuse, hboot, hro, haccess, hrwg, hrws, hsession, hbusy, hblob, htype, hmask, hrange, hextra, hspecial', hports, hdacs]

/-! ## What an accepted write does in a quiet area -/

/-- A write in a quiet area sets the object, and of an RWI object that it changes makes LOAD_STATUS stale (R82). -/
theorem applyWrite_quiet {s : State} {key : Nat} {w : Word} {r : ObjRow} (hrow : rowOf key = some r) (hacc : r.acc ≠ .w1c) (hquiet : quietArea key = true) :
    s.applyWrite key w = if r.acc = .rwi ∧ s.get key ≠ w then (s.put key w).stale else s.put key w := by
  have hguard : isGuardKey key = false := by
    have harea : keyArea key ≠ 0x02 := fun e => by simp [quietArea, e] at hquiet
    simp [isGuardKey, harea]
  have htrig : key ≠ Key.hostTrig := by rintro rfl; exact absurd hquiet (by decide)
  have hflags : key ≠ Key.hostFlags := by rintro rfl; exact absurd hquiet (by decide)
  simp only [quietArea, List.contains_eq_mem, List.mem_cons, List.not_mem_nil, or_false, decide_eq_true_eq] at hquiet
  simp only [State.applyWrite, hrow, hacc, hguard, htrig, hflags]
  rcases hquiet with h | h | h | h | h | h | h | h | h <;> simp [h]

/-- A quiet area does not hold LOAD_STATUS. -/
theorem ne_loadStatus_of_quiet {key : Nat} (hquiet : quietArea key = true) : key ≠ Key.loadStatus := by
  rintro rfl
  exact absurd hquiet (by decide)

theorem stale_get (s : State) {k : Nat} (hk : k ≠ Key.loadStatus) : s.stale.get k = s.get k := by
  unfold State.stale
  split
  · rw [State.get_putF, if_neg hk.symm]
  · rfl

/-- An accepted write in a quiet area: the object reads as written, and of the others at most LOAD_STATUS changes. -/
theorem applyWrite_quiet_spec {s : State} {key : Nat} {r : ObjRow} (hrow : rowOf key = some r) (hacc : r.acc ≠ .w1c) (hquiet : quietArea key = true) (w : Word) :
    (s.applyWrite key w).get key = w ∧ s.onlyObjects (s.applyWrite key w) [key, Key.loadStatus] := by
  have hput : s.onlyObjects (s.put key w) [key, Key.loadStatus] := onlyObjects_put (onlyObjects_refl s _) (by simp) w
  rw [applyWrite_quiet hrow hacc hquiet]
  split
  · exact ⟨by rw [stale_get _ (ne_loadStatus_of_quiet hquiet), State.get_put_same], onlyObjects_stale hput (by simp)⟩
  · exact ⟨State.get_put_same s key w, hput⟩

/-- Answers and free values drawn add nothing to what differs. -/
theorem onlyObjects_answers {s t : State} {ks : List Nat} (h : s.onlyObjects t ks) (a : List Message) (n : Nat) :
    s.onlyObjects { t with answers := a, freeCount := n } ks := h

end Sys2Proof.Machine

open Sys2Proof Sys2Proof.Machine

/-- Settles O9, from the check (R37) and what an accepted or a refused write of a plain object does. -/
theorem writesAreServed : Obligations.WritesAreServed := by
  unfold Obligations.WritesAreServed
  refine ⟨fun s p last index key w r h hrow => ⟨fun hacc hcode => ?_, fun hquiet hmode hbusy hblob htype hmask hrange hextra hspecial => ?_⟩,
    fun s p last index key w h hcmd hok henvelope => exec_write_refused h hcmd last index rfl hok henvelope,
    fun s p last index key w h hcmd hcode => ?_, fun s p last index key w r h hrow => ⟨fun hacc => ?_, fun hacc hidle hload => ?_, fun hacc hmode => ?_,
      fun hacc hmode => ?_, fun hacc hmode hlock => ?_⟩⟩
  · obtain ⟨t, hexec, hanswered, -⟩ := exec_write_plain h ((isCmd_of_row hrow).trans (by simpa using hacc)) last index w
    exact ⟨t, hexec, hcode ▸ hanswered⟩
  · have hcode : s.writeCode (s.overlay key w) p key w = .ok :=
      writeCode_ok h hrow (fun e => by simp [quietArea, e] at hquiet) (fun e => by simp [quietArea, e] at hquiet) hmode hbusy hblob htype hmask hrange hextra hspecial
    have hplain : r.acc ≠ .cmd ∧ r.acc ≠ .w1c := by rcases hmode with ⟨hacc, -⟩ | ⟨hacc, -⟩ <;> simp [hacc]
    obtain ⟨t, hexec, hanswered, a, n, ht⟩ := exec_write_plain h ((isCmd_of_row hrow).trans (by simpa using hplain.1)) last index w
    obtain ⟨hget, honly⟩ := applyWrite_quiet_spec (s := s) hrow hplain.2 hquiet w
    rw [writePlain_ok hcode] at ht
    subst ht
    exact ⟨_, hexec, hcode ▸ hanswered, hget, onlyObjects_answers honly a n⟩
  · have harea : keyArea key = 0x22 := keyArea_of_envelope hcode
    have hdetail : ∀ c, s.refusalDetail key c = 0 := fun c => by
      have hdiag : key ≠ Key.diagStart := by rintro rfl; exact absurd harea (by decide)
      simp [State.refusalDetail, hdiag, harea]
    rw [exec, execWrite, writeAt_of_no_detail h hdetail, writeKey_plain hcmd, writePlain_envelope hcode]
    rfl
  all_goals refine exec_write_refused h ((isCmd_of_row hrow).trans (by simp [hacc])) last index ?_ (by simp) (by simp)
  · exact writeCode_readOnly h hrow hacc
  · exact writeCode_wrongMode h hrow (by simp [hacc]) (by simp [hacc, State.accessMode, hidle, hload])
  · exact writeCode_wrongMode h hrow (by simp [hacc]) (by simp [hacc, State.accessMode, hmode])
  · exact writeCode_wrongMode h hrow (by simp [hacc]) (by simp [hacc, State.accessMode, hmode])
  · exact writeCode_guardLocked h hrow hacc (by simp [hacc, State.accessMode, hmode]) hlock

end

section
/-! Subscriptions (R56, R57; O10). -/

namespace Sys2Proof.Machine

/-! ## The counts of sessions and subscriptions -/

/-- SESSIONS_OPEN and SUB_COUNT follow the lists; who is subscribed to what, and every other object, is as it was (R51, R57). -/
theorem refreshSessions_spec (s : State) :
    s.refreshSessions.get Key.sessionsOpen = toWord s.sessions.length ∧ s.refreshSessions.get Key.subCount = toWord s.refreshSessions.subs.length ∧
      s.refreshSessions.subscribed = s.subscribed ∧ s.objectsBut s.refreshSessions [Key.subCount, Key.sessionsOpen] := by
  have honly : s.onlyObjects s.refreshSessions [Key.subCount, Key.sessionsOpen] :=
    onlyObjects_put (onlyObjects_put (onlyObjects_refl s _) (by simp) _) (by simp) _
  obtain ⟨hobjects, hsubscribed, -⟩ := honly
  have hlength : s.refreshSessions.subs.length = s.subs.length := by
    simpa [State.subscribed] using congrArg List.length hsubscribed
  refine ⟨?_, ?_, hsubscribed, hobjects⟩
  · rw [State.refreshSessions, State.get_put_other _ _ (by decide), State.get_put_same]
  · rw [hlength, State.refreshSessions, State.get_put_same]

/-! ## Subscriptions -/

/-- A destination's subscriptions after its SUBSCRIBE: the interval of the one it holds is replaced, or one is added (R56). -/
def subscribeList (p : Path) (key interval : Nat) (v : Word) (subs : List Subscription) : List Subscription :=
  if subs.any (fun x => decide (x.dest = p) && x.key == key) then
    subs.map (fun x => if decide (x.dest = p) && x.key == key then { x with interval := interval } else x)
  else subs ++ [{ dest := p, key := key, interval := interval, changes := 0, last := v, sent := none }]

/-- A subscription as its destination, key and interval. -/
def Subscription.held (x : Subscription) : Path × Nat × Nat := (x.dest, x.key, x.interval)

section
variable (p : Path) (key interval : Nat) (v : Word) (subs : List Subscription)

/-- A new interval for one destination and key leaves the subscriptions of every other. -/
theorem filter_held_replace :
    ((subs.map (fun x => if decide (x.dest = p) && x.key == key then { x with interval := interval } else x)).map Subscription.held).filter
        (fun x => !(decide (x.1 = p) && x.2.1 == key)) =
      (subs.map Subscription.held).filter (fun x => !(decide (x.1 = p) && x.2.1 == key)) := by
  induction subs with
  | nil => rfl
  | cons y ys ih =>
    cases hy : decide (y.dest = p) && y.key == key
    case true =>
      simp only [List.map_cons, hy, if_true, List.filter_cons, Subscription.held, Bool.not_true, Bool.false_eq_true, if_false]
      exact ih
    case false =>
      simp only [List.map_cons, hy, Bool.false_eq_true, if_false, List.filter_cons, Subscription.held, Bool.not_false, if_true]
      exact congrArg _ ih

/-- One destination and key hold one interval after SUBSCRIBE, and the subscriptions of every other are as they were. -/
theorem subscribeList_held :
    (p, key, interval) ∈ (subscribeList p key interval v subs).map Subscription.held ∧
      (∀ i, (p, key, i) ∈ (subscribeList p key interval v subs).map Subscription.held → i = interval) ∧
      ((subscribeList p key interval v subs).map Subscription.held).filter (fun x => !(decide (x.1 = p) && x.2.1 == key)) =
        (subs.map Subscription.held).filter (fun x => !(decide (x.1 = p) && x.2.1 == key)) := by
  unfold subscribeList
  split
  case isTrue hany =>
    obtain ⟨x, hx, hmine⟩ := List.any_eq_true.1 hany
    refine ⟨?_, fun i hi => ?_, filter_held_replace p key interval subs⟩
    · refine List.mem_map.2 ⟨{ x with interval := interval }, List.mem_map.2 ⟨x, hx, if_pos hmine⟩, ?_⟩
      simp only [Bool.and_eq_true, decide_eq_true_eq, beq_iff_eq] at hmine
      simp [Subscription.held, hmine]
    · obtain ⟨y', hy', hheld⟩ := List.mem_map.1 hi
      obtain ⟨y, -, rfl⟩ := List.mem_map.1 hy'
      split at hheld
      · exact (congrArg (fun z => z.2.2) hheld).symm
      · next hother =>
        simp only [Subscription.held, Prod.mk.injEq] at hheld
        simp [hheld] at hother
  case isFalse hnone =>
    refine ⟨by simp [Subscription.held], fun i hi => ?_, by simp [Subscription.held]⟩
    obtain ⟨y, hy, hheld⟩ := List.mem_map.1 hi
    rcases List.mem_append.1 hy with hold | hnew
    · simp only [Subscription.held, Prod.mk.injEq] at hheld
      exact absurd (List.any_eq_true.2 ⟨y, hold, by simp [hheld]⟩) hnone
    · rw [List.mem_singleton.1 hnew] at hheld
      exact (congrArg (fun z => z.2.2) hheld).symm

end

/-- `s` with other subscriptions, which the counts follow (R57). -/
def State.withSubs (s : State) (subs : List Subscription) : State := ({ s with subs := subs } : State).refreshSessions

/-- The subscriptions are those given, but for the changes they count; SUB_COUNT and SESSIONS_OPEN follow, and nothing else differs. -/
theorem withSubs_spec (s : State) (subs : List Subscription) :
    (s.withSubs subs).subscribed = subs.map Subscription.held ∧ (s.withSubs subs).get Key.subCount = toWord (s.withSubs subs).subs.length ∧
      s.objectsBut (s.withSubs subs) [Key.subCount, Key.sessionsOpen] ∧ { s.withSubs subs with objs := s.objs, subs := s.subs } = s := by
  obtain ⟨-, hcount, hsubscribed, hobjects⟩ := refreshSessions_spec { s with subs := subs }
  exact ⟨hsubscribed, hcount, hobjects, rfl⟩

/-- A SUBSCRIBE that no check refuses holds its subscription and answers with the present value. -/
theorem subscribeAt_ok {s : State} {p : Path} (hpath : p ≠ .hot) (hreset : s.mode ≠ Mode.reset) {key : Nat} {w : Word} (hcode : s.subscribeCode p key w = .ok) :
    ∃ u, u = s.withSubs (subscribeList p key w.toNat (s.value key) s.subs) ∧ s.subscribeAt p key w = u.answer (response 0x03 .ok 0 key (u.value key)) := by
  refine ⟨_, rfl, ?_⟩
  simp only [State.subscribeAt, hpath, hreset, or_self, if_false, hcode, ne_eq, not_true_eq_false]
  rfl

/-- An UNSUBSCRIBE that no check refuses ends its subscription. -/
theorem unsubscribeAt_ok {s : State} {p : Path} (hpath : p ≠ .hot) (hreset : s.mode ≠ Mode.reset) (hboot : s.mode ≠ Mode.boot) (hsession : s.hasSession p = true) {key : Nat}
    (himpl : implemented key = true) :
    s.unsubscribeAt p key = (s.withSubs (s.subs.filter (fun x => !(decide (x.dest = p) && x.key == key)))).answer (response 0x04 .ok 0 key 0) := by
  simp [State.unsubscribeAt, hpath, hreset, refuse, hboot, hsession, himpl, State.withSubs, State.answerWith]

/-- An answer besides leaves what else is as it was. -/
theorem answer_rest {s u : State} (h : { u with objs := s.objs, subs := s.subs } = s) (m : Message) :
    { u.answer m with objs := s.objs, subs := s.subs, answers := s.answers } = s :=
  congrArg (fun x : State => { x with answers := s.answers }) h

theorem withSubs_answers (s : State) (subs : List Subscription) : (s.withSubs subs).answers = s.answers := rfl

/-- A refused message changes answers and free values alone. -/
theorem refuseMessage_spec (s : State) (op : BitVec 8) (index : Nat) (c : Code) (key : Nat) :
    ∃ v n, s.refuseMessage op index c key = { s with answers := s.answers ++ [response op c index key v], freeCount := n } := by
  have hvalue : ∃ v n, s.refusedValue op key = (v, { s with freeCount := n }) := by
    unfold State.refusedValue State.valueAfter
    split_ifs <;> exact ⟨_, _, rfl⟩
  obtain ⟨v, n, hvalue⟩ := hvalue
  exact ⟨v, n, by simp only [State.refuseMessage, hvalue]; rfl⟩

end Sys2Proof.Machine

open Sys2Proof Sys2Proof.Machine

/-- Settles O10, by the list of subscriptions that a SUBSCRIBE or an UNSUBSCRIBE leaves; the two counts follow it. -/
theorem subscriptionsAreHeld : Obligations.SubscriptionsAreHeld := by
  unfold Obligations.SubscriptionsAreHeld
  intro s p key w ⟨hpath, hreset, hboot, hsession⟩
  refine ⟨fun r hrow hblob hwo hlo hhi hroom => ?_, fun hcode => ?_, fun himpl => ?_⟩
  · have hcode : s.subscribeCode p key w = .ok := by
      simp [State.subscribeCode, refuse, hboot, hsession, implemented, hrow, hblob, hwo, Nat.not_lt.2 hlo, Nat.not_lt.2 hhi, Nat.not_le.2 hroom]
    obtain ⟨hmem, hone, hothers⟩ := subscribeList_held p key w.toNat (s.value key) s.subs
    obtain ⟨u, hu, hat⟩ := subscribeAt_ok hpath hreset hcode
    obtain ⟨hsubscribed, hcount, hobjects, hrest⟩ := withSubs_spec s (subscribeList p key w.toNat (s.value key) s.subs)
    have hanswers := withSubs_answers s (subscribeList p key w.toNat (s.value key) s.subs)
    rw [← hu] at hsubscribed hcount hobjects hrest hanswers
    rw [← hsubscribed] at hmem hone hothers
    exact ⟨_, congrArg Host.Outcome.next hat, hmem, hone, hothers, hcount, congrArg (· ++ [_]) hanswers, hobjects, answer_rest hrest _⟩
  · obtain ⟨v, n, hrefused⟩ := refuseMessage_spec s 0x03 0 (s.subscribeCode p key w) key
    have hat : s.subscribeAt p key w = s.refuseMessage 0x03 0 (s.subscribeCode p key w) key := by
      simp [State.subscribeAt, hpath, hreset, hcode]
    exact ⟨_, congrArg Host.Outcome.next (hat.trans hrefused), rfl, rfl⟩
  · obtain ⟨hsubscribed, hcount, hobjects, hrest⟩ := withSubs_spec s (s.subs.filter (fun x => !(decide (x.dest = p) && x.key == key)))
    refine ⟨_, congrArg Host.Outcome.next (unsubscribeAt_ok hpath hreset hboot hsession himpl), hsubscribed.trans ?_, hcount,
      congrArg (· ++ [_]) (withSubs_answers s _), hobjects, answer_rest hrest _⟩
    exact (List.filter_map (p := fun x : Path × Nat × Nat => !(decide (x.1 = p) && x.2.1 == key))).symm

end

section
/-! Sessions (R47, R48, R50; O11). -/

namespace Sys2Proof.Machine

/-! ## The number of a new session -/

/-- With fewer than eight sessions open one of the ten candidates is neither zero nor in use (R48). -/
theorem pickSession_spec {used : List Nat} (hused : used.length < 8) (v : Nat) : pickSession used v ≠ 0 ∧ pickSession used v ∉ used := by
  have hfree : ∃ n ∈ (List.range 10).map (fun i => (v + i) % 4294967296), n ∉ 0 :: used := by
    by_contra hall
    push Not at hall
    have hnodup : ((List.range 10).map (fun i => (v + i) % 4294967296)).Nodup := by
      refine List.Nodup.map_on (fun i hi j hj h => ?_) List.nodup_range
      rw [List.mem_range] at hi hj
      omega
    have hlength := (List.subperm_of_subset hnodup hall).length_le
    simp at hlength
    omega
  obtain ⟨n, hn, hout⟩ := hfree
  have hsome : (((List.range 10).map (fun i => (v + i) % 4294967296)).find? (fun n => n != 0 && !used.contains n)).isSome = true :=
    List.find?_isSome.2 ⟨n, hn, by simpa [not_or] using hout⟩
  obtain ⟨m, hm⟩ := Option.isSome_iff_exists.1 hsome
  have hpick : pickSession used v = m := by rw [pickSession, hm, Option.getD_some]
  have hfound := List.find?_some hm
  rw [hpick]
  simpa using hfound

/-! ## Opening, confirming and closing -/

/-- A session that no check refuses opens on its path, unconfirmed, with its slot and both nonces (R48). -/
theorem openSession_ok {s : State} {slot : Nat} (hboot : s.mode ≠ Mode.boot) (hslot : slot < 8) (hkey : s.slotEmpty slot = false) (hroom : s.sessions.length < 8)
    (overMailbox : Bool) (clientNonce : Word) :
    ∃ (u : State) (x : Session), (s.openSession overMailbox slot clientNonce).2 = u.refreshSessions.answerWith 0x10 .ok slot x.deviceNonce ∧
      u.sessions = s.sessions ++ [x] ∧ x.overMailbox = overMailbox ∧ x.slot = slot ∧ x.clientNonce = clientNonce ∧ x.confirmed = false ∧ x.lastCounter = 0 ∧
      x.id = pickSession (s.sessions.map Session.id) (s.free.2.free.1.toNat) := by
  have hcode : refuse [(s.mode == Mode.boot, .wrongMode), (decide (8 ≤ slot), .range), (s.slotEmpty slot, .authFail), (decide (8 ≤ s.sessions.length), .sessionFull)] = .ok := by
    simp [refuse, hboot, hkey, Nat.not_le.2 hslot, Nat.not_le.2 hroom]
  simp only [State.openSession, hcode, ne_eq, not_true_eq_false, if_false]
  exact ⟨{ s.free.2.free.2 with sessions := s.sessions ++ [_] }, _, rfl, rfl, rfl, rfl, rfl, rfl, rfl, rfl⟩

/-- A session with the number `n` that is confirmed is one the path may use. -/
theorem hasSession_putSession {s : State} {n : Nat} {x y : Session} (hx : s.sessionOf n = some x) (hid : y.id = x.id) (hconfirmed : y.confirmed = true) :
    (s.putSession y).hasSession (.session n) = true := by
  have hn : x.id = n := by simpa using List.find?_some hx
  have hmem : x ∈ s.sessions := List.mem_of_find?_eq_some hx
  refine List.any_eq_true.2 ⟨y, List.mem_map.2 ⟨x, hmem, if_pos hid.symm⟩, ?_⟩
  simp [hid, hn, hconfirmed]

/-- The numbers of the sessions that close where one number does. -/
theorem contains_closed {s : State} {n : Nat} (h : (s.sessionOf n).isSome = true) (m : Nat) :
    ((s.sessions.filter (fun x => x.id == n)).map Session.id).contains m = decide (m = n) := by
  obtain ⟨x, hx⟩ := Option.isSome_iff_exists.1 h
  have hn : x.id = n := by simpa using List.find?_some hx
  rw [List.contains_eq_mem, decide_eq_decide, List.mem_map]
  constructor
  · rintro ⟨y, hy, rfl⟩
    simpa using (List.mem_filter.1 hy).2
  · rintro rfl
    exact ⟨x, List.mem_filter.2 ⟨List.mem_of_find?_eq_some hx, by simp [hn]⟩, hn⟩

/-- What of a session that closes goes with it: the subscriptions and latches of its path, and no other's (R50). -/
theorem closeSessions_one {s : State} {n : Nat} (h : (s.sessionOf n).isSome = true) :
    s.closeSessions (fun x => x.id == n) =
      ({ s with
        sessions := s.sessions.filter (fun x => x.id != n), subs := s.subs.filter (fun x => decide (x.dest ≠ .session n)),
        latches := s.latches.filter (fun x => decide (x.path ≠ .session n)) } : State).refreshSessions := by
  unfold State.closeSessions
  refine congrArg State.refreshSessions ?_
  congr 1
  · refine List.filter_congr fun x _ => ?_
    cases x.dest
    case session m => simp only [contains_closed h, ne_eq, Path.session.injEq, decide_not]
    all_goals rfl
  · refine List.filter_congr fun x _ => ?_
    cases x.path
    case session m => simp only [contains_closed h, ne_eq, Path.session.injEq, decide_not]
    all_goals rfl

end Sys2Proof.Machine

open Sys2Proof Sys2Proof.Machine

/-- Settles O11: a free number exists for the session that opens, a confirmed one is found by its number, and one that closes takes along what names its path. -/
theorem sessionsOpenAndClose : Obligations.SessionsOpenAndClose := by
  unfold Obligations.SessionsOpenAndClose
  intro s hreset
  refine ⟨fun ov slot nonce hboot hslot hkey hroom => ?_, fun n x hx hunconfirmed => ?_, fun n c hn hc => ?_⟩
  · obtain ⟨u, x, hopen, hsessions, hov, hxslot, hnonce, hunconfirmed, hcounter, hid⟩ := openSession_ok hboot hslot hkey hroom ov nonce
    obtain ⟨hzero, hunused⟩ := pickSession_spec (used := s.sessions.map Session.id) (by simpa using hroom) s.free.2.free.1.toNat
    obtain ⟨hcount, -⟩ := refreshSessions_spec u
    have hexec : exec (.sessionOpen ov slot nonce) s = .next (u.refreshSessions.answerWith 0x10 .ok slot x.deviceNonce) := by
      simp [exec, execSessionOpen, hreset, hopen]
    refine ⟨_, x, hexec, hsessions, hov, hxslot, hnonce, hunconfirmed, hcounter, hid ▸ hzero, fun y hy e => hunused ?_, hcount.trans ?_⟩
    · exact hid ▸ e ▸ List.mem_map_of_mem hy
    · rw [hsessions, List.length_append, List.length_singleton]
  · have hexec : exec (.sessionConfirm n 1) s = .next ((s.putSession { x with confirmed := true, lastCounter := 1 }).answerWith 0x11 .ok 0 0) := by
      simp [exec, execSessionConfirm, State.confirm, hreset, hx, hunconfirmed]
    exact ⟨_, hexec, hasSession_putSession hx rfl rfl, fun _ _ => rfl, rfl, rfl⟩
  · obtain ⟨hopen, -, hsubscribed, hobjects⟩ := refreshSessions_spec { s with
      sessions := s.sessions.filter (fun x => x.id != n), subs := s.subs.filter (fun x => decide (x.dest ≠ .session n)),
      latches := s.latches.filter (fun x => decide (x.path ≠ .session n)) }
    have hexec : ∃ a, exec c s = .next { s.closeSessions (fun x => x.id == n) with answers := a } := by
      obtain ⟨x, hx⟩ := Option.isSome_iff_exists.1 hn
      rcases hc with rfl | rfl
      · exact ⟨_, by simp [exec, execSessionClose, State.closeOne, hreset, hx]; rfl⟩
      · exact ⟨_, by simp [exec, execSessionIdleTimeout, hx]; rfl⟩
    obtain ⟨a, hexec⟩ := hexec
    rw [closeSessions_one hn] at hexec
    exact ⟨_, hexec, rfl, hsubscribed.trans (List.filter_map (p := fun x : Path × Nat × Nat => decide (x.1 ≠ .session n))).symm, rfl, hopen, hobjects⟩

end

section
/-! Atomic groups (R52) and hot-window writes (R54, R331; O13). -/

namespace Sys2Proof.Machine

/-! ## Answers to a group -/

/-- A group is answered message by message, each with its code (R52); answers and free values alone differ. -/
theorem answerGroup_spec (s : State) (cs : List (Message × Code)) :
    ∃ l n, s.answerGroup cs = { s with answers := s.answers ++ l, freeCount := n } ∧ l.map Message.status = cs.map (fun x => BitVec.ofNat 6 x.2.toNat) := by
  induction cs generalizing s with
  | nil => exact ⟨[], s.freeCount, by rw [List.append_nil]; rfl, rfl⟩
  | cons x cs ih =>
    obtain ⟨v, n, hfirst⟩ := respond_spec s 0x02 x.1.index.toNat x.1.key.toNat x.2
    obtain ⟨l, n', hrest, hstatus⟩ := ih (s.respond 0x02 x.1.index.toNat x.1.key.toNat x.2)
    refine ⟨response 0x02 x.2 x.1.index.toNat x.1.key.toNat v :: l, n', ?_, ?_⟩
    · rw [State.answerGroup, List.foldl_cons]
      refine hrest.trans ?_
      rw [hfirst, List.append_assoc]
      rfl
    · rw [List.map_cons, List.map_cons, hstatus]
      rfl

/-! ## A group of plain writes -/

/-- The code of a write of a group: that of its check on the state with every write overlaid (R52). -/
def State.groupedCode (s : State) (p : Path) (ms : List Message) (m : Message) : Code := s.writeCode (s.groupView ms) p m.key.toNat m.value

/-- The messages of a group with their codes. -/
def State.groupedCodes (s : State) (p : Path) (ms : List Message) : List (Message × Code) := ms.map (fun m => (m, s.groupedCode p ms m))

section
variable {s : State} {p : Path} {ms : List Message} (h : s.serves p)
  (hms : ∀ m ∈ ms, m.opcode = 0x02 ∧ isCmd m.key.toNat = false ∧ inHotWindow m.key.toNat = false)
include h hms

/-- A group of plain writes outside the hot window is judged as a whole. -/
theorem groupAt_plain :
    s.groupAt p ms =
      if (s.groupedCodes p ms).any (fun x => x.2 != .ok) then
        ((((s.groupedCodes p ms).filter (fun x => x.2 == .envelope && !isCmd x.1.key.toNat)).foldl
          (fun u x => u.collect [envelopeRaise (keyObj x.1.key.toNat - 0x1000)]) s).answerGroup
            ((s.groupedCodes p ms).map (fun x => (x.1, if x.2 = .ok then Code.atomicAborted else x.2))))
      else (s.applyPlain ms).answerGroup (s.groupedCodes p ms) := by
  obtain ⟨hpath, hreset, hboot, hsession⟩ := h
  have hbad : groupBad ms = false := by
    simp only [groupBad, Bool.or_eq_false_iff, List.any_eq_false]
    exact ⟨fun m hm => by simp [(hms m hm).1], fun m hm => by simp [(hms m (List.mem_of_mem_dropLast hm)).2.1]⟩
  have hhot : ms.any (fun m => inHotWindow m.key.toNat) = false := List.any_eq_false.2 fun m hm => by simp [(hms m hm).2.2]
  have hcmds : ms.filter (fun m => isCmd m.key.toNat) = [] := List.filter_eq_nil_iff.2 fun m hm => by simp [(hms m hm).2.1]
  have hcodes : ms.map (fun m => (m, s.groupCode (s.groupView ms) (s.applyPlain ms) p m)) = s.groupedCodes p ms :=
    List.map_congr_left fun m hm => by simp [State.groupCode, State.groupedCode, (hms m hm).2.1, State.gate, hsession]
  simp only [State.groupAt, hpath, hreset, hboot, or_self, if_false, State.group, hbad, hhot, hcmds, hcodes, List.foldl_nil, Bool.false_eq_true]

/-- A group whose writes all pass is applied in message order (R52). -/
theorem groupAt_applies (hok : ∀ m ∈ ms, s.groupedCode p ms m = .ok) : (s.groupAt p ms).objs = (s.applyPlain ms).objs := by
  have hpass : (s.groupedCodes p ms).any (fun x => x.2 != .ok) = false := by
    simpa [State.groupedCodes, List.any_eq_false] using hok
  obtain ⟨l, n, hanswers, -⟩ := answerGroup_spec (s.applyPlain ms) (s.groupedCodes p ms)
  rw [groupAt_plain h hms, hpass, if_neg Bool.false_ne_true, hanswers]

/-- A group of which a write is refused, none for the envelope, changes no object: each message is answered with its refusal, or ATOMIC_ABORTED (R52). -/
theorem groupAt_refused (hrefused : ∃ m ∈ ms, s.groupedCode p ms m ≠ .ok) (henvelope : ∀ m ∈ ms, s.groupedCode p ms m ≠ .envelope) :
    ∃ l n, s.groupAt p ms = { s with answers := s.answers ++ l, freeCount := n } ∧
      l.map Message.status = ms.map (fun m => BitVec.ofNat 6 (if s.groupedCode p ms m = .ok then Code.atomicAborted else s.groupedCode p ms m).toNat) := by
  have hany : (s.groupedCodes p ms).any (fun x => x.2 != .ok) = true := by
    simpa [State.groupedCodes, List.any_eq_true] using hrefused
  have hraises : (s.groupedCodes p ms).filter (fun x => x.2 == .envelope && !isCmd x.1.key.toNat) = [] := by
    refine List.filter_eq_nil_iff.2 fun x hx => ?_
    obtain ⟨m, hm, rfl⟩ := List.mem_map.1 hx
    simp [henvelope m hm]
  obtain ⟨l, n, hanswers, hstatus⟩ :=
    answerGroup_spec s ((s.groupedCodes p ms).map (fun x : Message × Code => (x.1, if x.2 = .ok then Code.atomicAborted else x.2)))
  refine ⟨l, n, ?_, hstatus.trans ?_⟩
  · rw [groupAt_plain h hms, hany, if_pos rfl, hraises, List.foldl_nil, hanswers]
  · rw [State.groupedCodes, List.map_map, List.map_map]
    rfl

end

/-! ## The hot window -/

/-- A hot-window write of the whole of a plain object is a WRITE without an answer; a refused one is recorded (R54). -/
theorem exec_hotWindowWrite_plain {s : State} {slot width key : Nat} {value : Word} (hhost : s.hostOn = true) (hboot : s.mode ≠ Mode.boot) (hslot : slot < 256) (hjump : slot ≠ 10)
    (hkey : hotKey slot = some key) (hcmd : isCmd key = false) (haligned : hotAligned key 0 width = true) {c : Code} {t : State}
    (hwrite : s.writePlain .hot key (toWord (value.toNat % 2 ^ (8 * width))) = (c, t)) :
    exec (.hotWindowWrite slot 0 width value) s = .next (if c = .ok then t else t.hotRefused c.toNat key) := by
  have hreset := mode_of_hostOn hhost
  have hwindow : inHotWindow key = true := by
    simp only [inHotWindow, Bool.or_eq_true, List.any_eq_true]
    exact .inr ⟨slot, List.mem_range.2 hslot, by simp [hkey]⟩
  simp only [exec, execHotWindowWrite, within, hslot, hhost, if_true, State.hotWrite, hboot, hjump, if_false, hkey, haligned, State.access, hreset, hwindow,
    Bool.not_true, Bool.false_eq_true, writeKey_plain hcmd, hwrite]

/-- MORE is set where a recorder that holds a refusal takes another one (R54). -/
theorem recordRefusal_more {w : Word} (h : bit w 6 = true) (c : Nat) : bit (recordRefusal w c) 7 = true := by
  rw [recordRefusal, if_pos h, bit, setField_bit, if_neg (by decide), setBit, setField_bit]
  rfl

end Sys2Proof.Machine

open Sys2Proof Sys2Proof.Machine

/-- Settles O13: a group is applied or refused as a whole, and a hot-window write is a write whose refusal HOT_ERR records. -/
theorem groupsAndTheHotWindowWrite : Obligations.GroupsAndTheHotWindowWrite := by
  unfold Obligations.GroupsAndTheHotWindowWrite
  refine ⟨fun s p ms h hms => ⟨fun hok => ?_, fun hrefused henvelope => ?_⟩,
    fun s slot width key value hhost hboot hslot hjump hkey hcmd haligned => ⟨fun hok => ?_, fun hheld hok henvelope => ?_⟩⟩
  · exact ⟨_, rfl, groupAt_applies h hms hok⟩
  · obtain ⟨l, n, hgroup, hstatus⟩ := groupAt_refused h hms hrefused henvelope
    refine ⟨_, congrArg Host.Outcome.next hgroup, ⟨fun _ _ => rfl, rfl, rfl⟩, ?_⟩
    rw [List.map_append, List.map_append, hstatus, List.map_map]
    rfl
  · exact ⟨_, (exec_hotWindowWrite_plain hhost hboot hslot hjump hkey hcmd haligned (writePlain_ok hok)).trans (by rw [if_pos rfl]), rfl⟩
  · have hexec := exec_hotWindowWrite_plain hhost hboot hslot hjump hkey hcmd haligned (writePlain_refused hok henvelope)
    rw [if_neg hok] at hexec
    simp only [State.hotRefused, hheld, Bool.not_true, Bool.false_eq_true, if_false] at hexec
    refine ⟨_, hexec, ?_, onlyObjects_put (onlyObjects_refl s _) (by simp) _⟩
    rw [State.get_put_same, recordRefusal_more hheld]

end

section
/-! Notifications (R56, R342) and the coalescing of interrupts (R343, R380; O19). -/

namespace Sys2Proof.Machine

/-! ## The subscription that a notification reports -/

/-- A change of what subscriptions count leaves the one that is found in its place. -/
theorem find?_map_of_found {subs : List Subscription} {p : Path} {key : Nat} {x : Subscription} {f : Subscription → Subscription}
    (hfound : subs.find? (fun y => decide (y.dest = p) && y.key == key) = some x) (hf : ∀ y, (f y).dest = y.dest ∧ (f y).key = y.key) :
    (subs.map f).find? (fun y => decide (y.dest = p) && y.key == key) = some (f x) := by
  have hsame : (fun y => decide (y.dest = p) && y.key == key) ∘ f = fun y => decide (y.dest = p) && y.key == key := by
    funext y
    simp only [Function.comp_apply, hf y]
  rw [List.find?_map, hsame, hfound, Option.map_some]

theorem key_of_found {subs : List Subscription} {p : Path} {key : Nat} {x : Subscription} (hfound : subs.find? (fun y => decide (y.dest = p) && y.key == key) = some x) :
    x.key = key := by
  have hx := List.find?_some hfound
  simp only [Bool.and_eq_true, decide_eq_true_eq, beq_iff_eq] at hx
  exact hx.2

/-- The reported subscription starts its count again, with the value and the time reported (R56). -/
theorem noticeTaken_found {s : State} {p : Path} {key : Nat} {x : Subscription} (hfound : s.subs.find? (fun y => decide (y.dest = p) && y.key == key) = some x) :
    (s.noticeTaken x).subs.find? (fun y => decide (y.dest = p) && y.key == key) = some { x with changes := 0, last := s.value key, sent := some s.raw } := by
  have hmap := find?_map_of_found (f := fun y => if y = x then { y with changes := 0, last := s.value x.key, sent := some s.raw } else y) hfound
    (fun y => by split <;> exact ⟨rfl, rfl⟩)
  rw [if_pos rfl, key_of_found hfound] at hmap
  simpa only [State.noticeTaken, key_of_found hfound] using hmap

/-- The change of another object is not counted by it. -/
theorem put_found {s : State} {p : Path} {key k : Nat} {x : Subscription} (hfound : s.subs.find? (fun y => decide (y.dest = p) && y.key == key) = some x) (hk : x.key ≠ k)
    (v : Word) : (s.put k v).subs.find? (fun y => decide (y.dest = p) && y.key == key) = some x := by
  rw [State.put_subs]
  split
  · exact hfound
  · have hmap := find?_map_of_found (f := fun y => if y.key = k then { y with changes := y.changes + 1 } else y) hfound (fun y => by split <;> exact ⟨rfl, rfl⟩)
    rw [if_neg hk] at hmap
    exact hmap

/-! ## The event ring -/

/-- With room in a ring that stands, a notification is written at its place, and EVENT_PRODUCER counts it; no other object changes (R342). -/
theorem toEventRing_spec {s : State} {base entries producer : Nat} (hbase : s.get Key.eventRingBase ≠ 0) (hbaseAt : (s.get Key.eventRingBase).toNat = base)
    (hentries : (s.get Key.eventRingEntries).toNat = entries) (hproducer : (s.get Key.eventProducer).toNat = producer)
    (hroom : (producer + 2 ^ 32 - (s.get Key.eventConsumer).toNat) % 2 ^ 32 < entries) (session : Nat) (ms : List Message) :
    s.out ++ [.hostWrite (base + 64 * (producer % entries)) (eventEntry producer entries session ms)] <+: (s.toEventRing session ms).out ∧
      ((s.toEventRing session ms).get Key.eventProducer).toNat = (producer + 1) % 2 ^ 32 ∧
      (s.toEventRing session ms).subs = (s.put Key.eventProducer (toWord ((producer + 1) % 2 ^ 32))).subs ∧
      s.objectsBut (s.toEventRing session ms) [Key.eventProducer] := by
  subst hbaseAt hentries hproducer
  obtain ⟨o, m, hirq⟩ := irq_spec ((s.emit (.hostWrite ((s.get Key.eventRingBase).toNat + 64 * ((s.get Key.eventProducer).toNat % (s.get Key.eventRingEntries).toNat))
    (eventEntry (s.get Key.eventProducer).toNat (s.get Key.eventRingEntries).toNat session ms))).count Key.eventProducer 32) Irq.event
  have hwritten := (show s.toEventRing session ms = _ by simp only [State.toEventRing, hbase, Nat.not_le.2 hroom, or_self, if_false]).trans hirq
  rw [hwritten]
  refine ⟨⟨o, rfl⟩, ?_, rfl, fun k hk => State.get_put_other _ _ (fun e => hk (by simp [e]))⟩
  rw [← toWord_toNat_of_lt (lt_trans (Nat.mod_lt _ (by decide)) (by decide) : ((s.get Key.eventProducer).toNat + 1) % 2 ^ 32 < 2 ^ 64)]
  exact congrArg BitVec.toNat (State.get_put_same _ _ _)

/-- NOTIFY of a changed object whose interval is over, of a mailbox subscription while the link is up, goes to the event ring (R56). -/
theorem exec_notify_mailbox {s : State} {key : Nat} {x : Subscription} (hfound : s.subs.find? (fun y => decide (y.dest = .mailbox) && y.key == key) = some x)
    (hchanged : x.changes ≠ 0) (hover : ∀ r, x.sent = some r → r + 800 * x.interval ≤ s.raw) (htrain : Mode.train ≤ s.mode) (hlink : s.pcieUp = true) :
    exec (.notify .mailbox key) s = .next ((s.noticeTaken x).toEventRing 0 (s.noticeOf x)) := by
  obtain ⟨hreset, hboot⟩ := mode_of_train_le htrain
  have hchanges : s.changesOf x ≠ 0 := by simp [State.changesOf, hchanged]
  have hinterval : s.intervalOver x = true := by
    unfold State.intervalOver
    split
    · next r hsent => exact decide_eq_true (hover r hsent)
    · rfl
  simp [exec, execNotify, hfound, hchanges, hinterval, hreset, hboot, hlink]

/-! ## Coalescing -/

/-- A source whose vector is given and not masked signals it (R343). -/
theorem irq_out {s : State} {e : Nat} (hvector : (s.get (mkKey 0x12 0x0100 e)).toNat ≠ 0xFFFF)
    (hmask : s.msixMasked.contains (s.get (mkKey 0x12 0x0100 e)).toNat = false) : (s.irq e).out = s.out ++ [.msix (s.get (mkKey 0x12 0x0100 e)).toNat] := by
  rw [State.irq, State.signal, if_neg hvector, hmask, if_neg Bool.false_ne_true]
  rfl

/-- A source's interrupt changes no object. -/
theorem irq_objs (s : State) (e : Nat) : (s.irq e).objs = s.objs := by
  obtain ⟨o, m, hirq⟩ := irq_spec s e
  rw [hirq]

end Sys2Proof.Machine

open Sys2Proof Sys2Proof.Machine

/-- Settles O19: the entry is written before the producer counts, and the reported subscription keeps its place; a held interrupt is its source's. -/
theorem notificationsGoOut : Obligations.NotificationsGoOut := by
  unfold Obligations.NotificationsGoOut
  refine fun s => ⟨fun key x hfound hchanged hover htrain hlink hkey hbase hroom => ?_, fun hheld => ?_, fun hheld => ?_, fun hheld => ?_⟩
  · have hexec := exec_notify_mailbox hfound hchanged hover htrain hlink
    obtain ⟨hout, hproducer, hsubs, hobjects⟩ := toEventRing_spec (s := s.noticeTaken x) (producer := (s.get Key.eventProducer).toNat) hbase rfl rfl rfl hroom 0 (s.noticeOf x)
    have hfound' := put_found (noticeTaken_found hfound) (k := Key.eventProducer) (by simpa only [key_of_found hfound] using hkey)
      (toWord (((s.get Key.eventProducer).toNat + 1) % 2 ^ 32))
    exact ⟨_, hexec, hout, hproducer, (congrArg (List.find? _) hsubs).trans hfound', hobjects⟩
  · have hexec : exec (.interruptCoalescing true) s = .next ({ s with recordIrqHeld := false }.irq Irq.record) := by simp [exec, execInterruptCoalescing, hheld]
    obtain ⟨o, m, hirq⟩ := irq_spec { s with recordIrqHeld := false } Irq.record
    refine ⟨_, hexec, by rw [hirq], irq_objs _ _, ?_⟩
    rintro v rfl hv hmask
    exact irq_out (s := { s with recordIrqHeld := false }) hv hmask
  · have hexec : exec (.interruptCoalescing false) s = .next ({ s with faultIrqHeld := false }.irq Irq.fault) := by simp [exec, execInterruptCoalescing, hheld]
    obtain ⟨o, m, hirq⟩ := irq_spec { s with faultIrqHeld := false } Irq.fault
    refine ⟨_, hexec, by rw [hirq], irq_objs _ _, ?_⟩
    rintro v rfl hv hmask
    exact irq_out (s := { s with faultIrqHeld := false }) hv hmask
  · simp [exec, execInterruptCoalescing, hheld]

end

section
/-! The dictionary bank (R41, R42, R397, R398, R406; O47). -/

namespace Sys2Proof.Machine

/-! ## Stores filtered -/

section
variable {α : Type} {f : Nat × α → Bool} {k : Nat} (hk : ∀ v, f (k, v) = false)
include hk

theorem filter_merase (m : List (Nat × α)) : (merase m k).filter f = m.filter f := by
  induction m with
  | nil => rfl
  | cons e m ih =>
    obtain ⟨a, v⟩ := e
    simp only [merase]
    split
    · next hak => rw [ih, List.filter_cons, hak, hk, if_neg Bool.false_ne_true]
    · rw [List.filter_cons, List.filter_cons, ih]

theorem filter_minsert (m : List (Nat × α)) (v : α) : (minsert m k v).filter f = m.filter f := by
  induction m with
  | nil => simp [minsert, hk]
  | cons e m ih =>
    obtain ⟨a, w⟩ := e
    simp only [minsert]
    split
    · rw [List.filter_cons, hk, if_neg Bool.false_ne_true]
    · rw [List.filter_cons, List.filter_cons, ih]

/-- A write of a key that a filter drops does not show in it. -/
theorem filter_mset [DecidableEq α] (d : α) (m : List (Nat × α)) (v : α) : (mset d m k v).filter f = m.filter f := by
  unfold mset
  split
  · exact filter_merase hk m
  · rw [filter_minsert hk, filter_merase hk]

end

/-- A key that a store does not list reads as unlisted. -/
theorem mget_of_not_mem {α : Type} (d : α) {m : List (Nat × α)} {k : Nat} (h : k ∉ m.map Prod.fst) : mget d m k = d := by
  induction m with
  | nil => rfl
  | cons e m ih =>
    obtain ⟨a, v⟩ := e
    rw [List.map_cons, List.mem_cons, not_or] at h
    rw [mget, if_neg (Ne.symm h.1), ih h.2]

/-! ## Responses -/

theorem respond_cmdState (s : State) (op : BitVec 8) (i k : Nat) (c : Code) (j : Nat) : (s.respond op i k c).cmdState j = s.cmdState j := by
  simp only [State.cmdState, State.getF_eq, respond_get]

theorem respond_nvm (s : State) (op : BitVec 8) (i k : Nat) (c : Code) : (s.respond op i k c).nvm = s.nvm := by
  obtain ⟨v, n, h⟩ := respond_spec s op i k c
  rw [h]

/-! ## Persisting -/

/-- A write of an object that no bank holds leaves the image of the bank (R397). -/
theorem bankImage_put {k : Nat} (hk : isBankKey k = false) (s : State) (v : Word) : (s.put k v).bankImage = s.bankImage :=
  filter_mset (fun _ => hk) _ _ _

/-- The bank to be written follows from DICT_BANK and DICT_BANK_SEQ (R41). -/
theorem persistBank_put {k : Nat} (hbank : k ≠ Key.dictBank) (hseq : k ≠ Key.dictBankSeq) (s : State) (v : Word) : (s.put k v).persistBank = s.persistBank := by
  simp only [State.persistBank, State.bankInUse, State.get_put_other s v hbank, State.get_put_other s v hseq]
  rfl

/-- A bank reads what was put in its place. -/
theorem bank_putBank (n : Nvm) (i : Nat) (c : Copy) : (n.putBank i c).bank i = c := by
  simp only [Nvm.putBank, Nvm.bank]
  split <;> rfl

theorem putBank_persistImage (n : Nvm) (i : Nat) (c : Copy) : (n.putBank i c).persistImage = n.persistImage := by
  simp only [Nvm.putBank]
  split <;> rfl

theorem putBank_snapshotDue (n : Nvm) (i : Nat) (c : Copy) : (n.putBank i c).snapshotDue = n.snapshotDue := by
  simp only [Nvm.putBank]
  split <;> rfl

/-- The write of a bank that begins: RUNNING, with the image to be written, the bank INCOMPLETE (R397); no other object changes. -/
theorem beginPersist_spec (s : State) :
    s.beginPersist.cmdState Key.dictPersist = Cmd.running ∧ s.beginPersist.nvm.persistImage = some s.bankImage ∧ (s.beginPersist.nvm.bank s.persistBank).cls = .incomplete ∧
      s.objectsBut s.beginPersist [Key.dictPersist] := by
  refine ⟨cmdState_cmdRun _ _ _, putBank_persistImage _ _ _, congrArg Copy.cls (bank_putBank _ _ _), fun k hk => State.get_put_other _ _ (fun e => hk (by simp [e]))⟩

/-- A token is drawn from a bucket that is not empty (R406). -/
theorem drawToken_some {s : State} {cls : Nat} (h : s.get (Key.nvmTokens cls) ≠ 0) :
    s.drawToken cls = some (s.put (Key.nvmTokens cls) (toWord ((s.get (Key.nvmTokens cls)).toNat - 1))) := by
  have hn : (s.get (Key.nvmTokens cls)).toNat ≠ 0 := fun e => h (BitVec.eq_of_toNat_eq e)
  rw [State.drawToken, if_neg hn]

/-- DICT_PERSIST with nothing in its way draws a token and begins the write (R41, R406). -/
theorem cmdDictPersist_ok {s : State} (hmode : s.mode = Mode.idle ∨ s.mode = Mode.service) (hquiesce : s.quiesceAsked = false) (hbusy : s.lichenBusy = false)
    (hsize : s.bankImage.length ≤ 98296) (htoken : s.get (Key.nvmTokens 0) ≠ 0) :
    s.cmdDictPersist 0 = (.ok, (s.put (Key.nvmTokens 0) (toWord ((s.get (Key.nvmTokens 0)).toNat - 1))).beginPersist) := by
  have hcmd : s.cmdBusy Key.dictPersist = false := by
    simp only [State.lichenBusy, Bool.or_eq_false_iff] at hbusy
    exact hbusy.1.1
  have hcode : refuse [(!(s.mode == Mode.idle || s.mode == Mode.service) || s.quiesceAsked, .wrongMode), (s.cmdBusy Key.dictPersist, .busy), ((0 : Word) != 0, .range),
      (s.lichenBusy, .nvmBusy)] = .ok := by
    rcases hmode with h | h <;> simp [refuse, h, hquiesce, hcmd, hbusy]
  simp only [State.cmdDictPersist, hcode, ne_eq, not_true_eq_false, if_false, Nat.not_lt.2 hsize, drawToken_some htoken]

/-- DICT_PERSIST answered: a token less, the write begun, no other object changed. -/
theorem exec_dictPersist {s : State} {p : Path} (h : s.serves p) (hmode : s.mode = Mode.idle ∨ s.mode = Mode.service) (hquiesce : s.quiesceAsked = false)
    (hbusy : s.lichenBusy = false) (hsize : s.bankImage.length ≤ 98296) (htoken : s.get (Key.nvmTokens 0) ≠ 0) :
    exec (.dictPersist p 0) s =
      .next ((s.put (Key.nvmTokens 0) (toWord ((s.get (Key.nvmTokens 0)).toNat - 1))).beginPersist.respond 0x02 0 Key.dictPersist .ok) :=
  congrArg Host.Outcome.next (access_ok h 0 Key.dictPersist (cmdDictPersist_ok hmode hquiesce hbusy hsize htoken))

/-! ## The end of a persist -/

/-- The verified bank is the valid one under the next number (R398); DICT_PERSIST reads DONE, and no other object changes. -/
theorem bankValid_spec (s : State) (image : List (Nat × Word)) :
    (s.bankValid image).cmdState Key.dictPersist = Cmd.done ∧ (s.bankValid image).nvm.persistImage = none ∧ (s.bankValid image).nvm.snapshotDue = s.nvm.snapshotDue ∧
      (s.bankValid image).get Key.dictBank = toWord s.persistBank ∧ (s.bankValid image).get Key.dictBankSeq = toWord ((s.get Key.dictBankSeq).toNat + 1) ∧
      (s.bankValid image).nvm.bank s.persistBank = ⟨.valid, (s.get Key.dictBankSeq).toNat + 1, image⟩ ∧
      s.objectsBut (s.bankValid image) [Key.dictPersist, Key.dictBank, Key.dictBankSeq] := by
  refine ⟨cmdState_cmdDone _ _ _, putBank_persistImage _ _ _, putBank_snapshotDue _ _ _, ?_, ?_, bank_putBank _ _ _, fun k hk => ?_⟩
  · rw [State.bankValid, State.cmdDone, State.get_put_other _ _ (by decide), State.get_put_other _ _ (by decide), State.get_put_same]
  · rw [State.bankValid, State.cmdDone, State.get_put_other _ _ (by decide), State.get_put_same]
  · simp only [List.mem_cons, List.not_mem_nil, or_false, not_or] at hk
    obtain ⟨hpersist, hbank, hseq⟩ := hk
    rw [State.bankValid, State.cmdDone, State.get_put_other _ _ (Ne.symm hpersist), State.get_put_other _ _ (Ne.symm hseq), State.get_put_other _ _ (Ne.symm hbank)]
    rfl

/-- With no snapshot due and no QUIESCE asked, nothing follows the end of a Lichen write. -/
theorem lichenEnds_quiet {s : State} (hsnapshot : s.nvm.snapshotDue = false) (hquiesce : s.quiesceAsked = false) : s.lichenEnds = s := by
  simp [State.lichenEnds, hsnapshot, hquiesce]

/-! ## Reverting -/

/-- A row outside the timing-set entries is one of its area's rows (R32). -/
theorem mem_areaRows {k : Nat} {r : ObjRow} (hrow : rowOf k = some r) (harea : keyArea k ≠ 0x21) : r ∈ areaRows (keyArea k) := by
  simp only [rowOf, harea, false_and, if_false] at hrow
  exact List.mem_of_find?_eq_some hrow

/-- No object of a quiet area that a bank holds is cleared by ones (R36). -/
theorem row_of_bankKey {k : Nat} (hbank : isBankKey k = true) (hquiet : quietArea k = true) : ∃ r, rowOf k = some r ∧ r.acc ≠ .w1c := by
  have hrows : ∀ area ∈ [0x12, 0x25, 0x30, 0x31, 0x41, 0x42, 0x50, 0x60, 0x61], ∀ r ∈ areaRows area, r.src = .N → r.acc ≠ .w1c := by decide
  simp only [isBankKey, Bool.and_eq_true] at hbank
  obtain ⟨-, hsource⟩ := hbank
  cases hrow : rowOf k with
  | none => simp [hrow] at hsource
  | some r =>
    simp only [hrow, decide_eq_true_eq] at hsource
    have harea : keyArea k ≠ 0x21 := fun e => by simp [quietArea, e] at hquiet
    exact ⟨r, rfl, hrows _ (List.contains_iff_mem.1 hquiet) r (mem_areaRows hrow harea) hsource⟩

/-- One step of a revert: an object that does not hold its value takes it (R42). -/
def State.revertKey (entries : List (Nat × Word)) (s : State) (k : Nat) : State :=
  if s.get k = mget (shipped k) entries k then s else s.applyWrite k (mget (shipped k) entries k)

/-- A step in a quiet area gives the object its value, and of the others changes at most LOAD_STATUS. -/
theorem revertKey_get (entries : List (Nat × Word)) (s : State) {k j : Nat} (hbank : isBankKey k = true) (hquiet : quietArea k = true) (hj : j ≠ Key.loadStatus) :
    (s.revertKey entries k).get j = if j = k then mget (shipped k) entries k else s.get j := by
  obtain ⟨r, hrow, hacc⟩ := row_of_bankKey hbank hquiet
  obtain ⟨hget, hothers, -⟩ := applyWrite_quiet_spec (s := s) hrow hacc hquiet (mget (shipped k) entries k)
  unfold State.revertKey
  split
  · next hholds =>
    split
    · next hjk => rw [hjk, hholds]
    · rfl
  · split
    · next hjk => rw [hjk, hget]
    · next hjk => exact hothers j (by simp [hjk, hj])

/-- Every key of the revert takes its value, and every other object but LOAD_STATUS is as it was. -/
theorem foldl_revertKey_get (entries : List (Nat × Word)) {keys : List Nat} (hkeys : ∀ k ∈ keys, isBankKey k = true ∧ quietArea k = true) (s : State) {j : Nat}
    (hj : j ≠ Key.loadStatus) : (keys.foldl (State.revertKey entries) s).get j = if j ∈ keys then mget (shipped j) entries j else s.get j := by
  induction keys generalizing s with
  | nil => rfl
  | cons k keys ih =>
    obtain ⟨hbank, hquiet⟩ := hkeys k List.mem_cons_self
    rw [List.foldl_cons, ih (fun x hx => hkeys x (List.mem_cons_of_mem k hx)), revertKey_get entries s hbank hquiet hj]
    by_cases hmem : j ∈ keys
    · rw [if_pos hmem, if_pos (List.mem_cons_of_mem k hmem)]
    · by_cases hjk : j = k
      · rw [if_neg hmem, if_pos hjk, if_pos (hjk ▸ List.mem_cons_self), hjk]
      · rw [if_neg hmem, if_neg hjk, if_neg (by simp [hmem, hjk])]

/-- The entries that a bank loads are of objects that it holds (R399). -/
theorem isBankKey_of_mem_bankEntries {s : State} {e : Nat × Word} (h : e ∈ s.bankEntries) : isBankKey e.1 = true := by
  unfold State.bankEntries at h
  split at h
  · cases h
  · next copy _ =>
    have hok : s.entryOk (s.loadView copy.entries) e.1 e.2 = true := (List.mem_filter.1 h).2
    unfold State.entryOk at hok
    split at hok
    · cases hok
    · simp only [Bool.and_eq_true] at hok
      obtain ⟨⟨⟨⟨⟨hheld, -⟩, -⟩, -⟩, -⟩, -⟩ := hok
      exact hheld

/-- After a revert every object that a bank holds has its value in the valid bank, or its shipped one; of the others at most LOAD_STATUS has changed (R42). -/
theorem revert_get {s : State} (hquiet : ∀ e ∈ s.bankImage ++ s.bankEntries, quietArea e.1 = true) {j : Nat} (hj : j ≠ Key.loadStatus) :
    s.revert.get j = if isBankKey j = true then mget (shipped j) s.bankEntries j else s.get j := by
  have hbank : ∀ e ∈ s.bankImage ++ s.bankEntries, isBankKey e.1 = true := fun e he =>
    (List.mem_append.1 he).elim (fun h => (List.mem_filter.1 h).2) isBankKey_of_mem_bankEntries
  have hmem : ∀ k, k ∈ (s.bankImage.map Prod.fst ++ s.bankEntries.map Prod.fst).eraseDups ↔ ∃ e ∈ s.bankImage ++ s.bankEntries, e.1 = k := fun k => by
    rw [List.mem_eraseDups, ← List.map_append, List.mem_map]
  have hkeys : ∀ k ∈ (s.bankImage.map Prod.fst ++ s.bankEntries.map Prod.fst).eraseDups, isBankKey k = true ∧ quietArea k = true := fun k hk => by
    obtain ⟨e, he, rfl⟩ := (hmem k).1 hk
    exact ⟨hbank e he, hquiet e he⟩
  refine (foldl_revertKey_get s.bankEntries hkeys s hj).trans ?_
  split
  · next hin => rw [if_pos (hkeys j hin).1]
  · next hout =>
    split
    · next hheld =>
      have hunlisted : ∀ e ∈ s.bankImage ++ s.bankEntries, e.1 ≠ j := fun e he hej => hout ((hmem j).2 ⟨e, he, hej⟩)
      have hobjs : j ∉ s.objs.map Prod.fst := fun h => by
        obtain ⟨e, he, rfl⟩ := List.mem_map.1 h
        exact hunlisted e (List.mem_append_left _ (List.mem_filter.2 ⟨he, hheld⟩)) rfl
      have hentries : j ∉ s.bankEntries.map Prod.fst := fun h => by
        obtain ⟨e, he, rfl⟩ := List.mem_map.1 h
        exact hunlisted e (List.mem_append_right _ he) rfl
      rw [State.get, mget_of_not_mem _ hobjs, mget_of_not_mem _ hentries]
    · rfl

end Sys2Proof.Machine

open Sys2Proof Sys2Proof.Machine

/-- Settles O47: a persist and its end follow from what they write, a revert by induction on the keys it goes through. -/
theorem theDictionaryPersists : Obligations.TheDictionaryPersists := by
  unfold Obligations.TheDictionaryPersists
  refine fun s p => ⟨fun h hmode hquiesce hbusy hsize htoken => ?_, fun image himage hbusy hsnapshot hquiesce => ?_, fun h hmode hquiesce hpersist hrevert hquiet => ?_⟩
  · obtain ⟨hrunning, himage, hincomplete, hobjects⟩ := beginPersist_spec (s.put (Key.nvmTokens 0) (toWord ((s.get (Key.nvmTokens 0)).toNat - 1)))
    rw [bankImage_put (by decide)] at himage
    rw [persistBank_put (by decide) (by decide)] at hincomplete
    refine ⟨_, exec_dictPersist h hmode hquiesce hbusy hsize htoken, respond_answered _ _ _ _, (respond_cmdState ..).trans hrunning, ?_, ?_, ?_, fun k hk => ?_⟩
    · rw [respond_nvm, himage]
    · rw [respond_nvm, hincomplete]
    · have hpos : (s.get (Key.nvmTokens 0)).toNat ≠ 0 := fun e => htoken (BitVec.eq_of_toNat_eq e)
      rw [respond_get, hobjects _ (by decide), State.get_put_same, toWord_toNat_of_lt (lt_of_le_of_lt (Nat.sub_le _ _) (BitVec.isLt _))]
      omega
    · simp only [List.mem_cons, List.not_mem_nil, or_false, not_or] at hk
      rw [respond_get, hobjects k (by simp [hk.1]), State.get_put_other _ _ (Ne.symm hk.2)]
  · obtain ⟨hdone, hnone, hdue, hbank, hseq, hvalid, hobjects⟩ := bankValid_spec s image
    have hasked : (s.bankValid image).quiesceAsked = false := by
      rw [← hquiesce]
      simp only [State.quiesceAsked, State.cmdBusy, State.cmdState, State.getF_eq, State.modeTarget, hobjects Key.modeRequest (by decide)]
    have hexec : exec (.dictPersistDone true) s = .next (s.bankValid image) := by
      simp [exec, execDictPersistDone, himage, hbusy, lichenEnds_quiet (hdue.trans hsnapshot) hasked]
    exact ⟨_, hexec, hdone, hnone, hbank, hseq, hvalid, hobjects⟩
  · have hcode : refuse [(!(s.mode == Mode.idle || s.mode == Mode.service) || s.quiesceAsked, .wrongMode), (s.cmdBusy Key.dictPersist || s.cmdBusy Key.dictRevert, .busy),
        ((0 : Word) != 0, .range)] = .ok := by
      rcases hmode with hmode | hmode <;> simp [refuse, hmode, hquiesce, hpersist, hrevert]
    have hcmd : s.cmdDictRevert 0 = (.ok, s.revert.cmdDone Key.dictRevert 0) := by
      simp only [State.cmdDictRevert, hcode, ne_eq, not_true_eq_false, if_false]
    have hget : ∀ k, k ≠ Key.loadStatus → k ≠ Key.dictRevert →
        ((s.revert.cmdDone Key.dictRevert 0).respond 0x02 0 Key.dictRevert .ok).get k = if isBankKey k = true then mget (shipped k) s.bankEntries k else s.get k := fun k hload hk => by
      rw [respond_get, State.cmdDone, State.get_put_other _ _ (Ne.symm hk), revert_get hquiet hload]
    refine ⟨_, congrArg Host.Outcome.next (access_ok h 0 Key.dictRevert hcmd), respond_answered _ _ _ _, (respond_cmdState ..).trans (cmdState_cmdDone _ _ _),
      fun k hbank hload hk => ?_, fun k hbank hload hk => ?_⟩
    · rw [hget k hload hk, if_pos hbank]
    · rw [hget k hload hk, hbank, if_neg Bool.false_ne_true]

end

section
/-! What the outputs, the routines, the diagnostic runs and the stops leave alone: the words of the modes, the checks and the guard, and the live conditions of the collector
(R59, R61, R82, R374, R384). -/

namespace Sys2Proof.Machine

/-! ## Keys and folds -/

/-- The words of the areas 00 to 02 that are the only element of their object, but those that a stop, a record or a write of DDR5 changes, and
MODE_ORIGIN and WDOG_STATUS. -/
abbrev calmKey (k : Nat) : Prop := keyEl k = 0 ∧ k < 0x03000000 ∧ k ≠ Key.auditStatus ∧ k ≠ Key.burstStop ∧ k ≠ Key.loadStatus ∧ k ≠ Key.modeOrigin ∧
  k ≠ Key.wdogStatus

theorem not_calmKey_of_area {area obj el : Nat} (h : 3 ≤ area) : ¬ calmKey (mkKey area obj el) := by
  simp only [calmKey, mkKey]; omega

theorem not_calmKey_of_el {area obj el : Nat} (h : 0 < el) (h' : el < 0x100) : ¬ calmKey (mkKey area obj el) := by
  rw [calmKey, keyEl_mkKey _ _ h']; omega

/-- The mode words of the 32 slices are not of `calmKey`. -/
theorem not_calmKey_sliceMode {sl : Nat} (hsl : sl < 32) : ¬ calmKey (Key.sliceMode sl) := not_calmKey_of_el (by omega) (by omega)

/-- `t` is `s` but for outputs, stimulus, records and stops: the words of `calmKey` are as they were, suppressed lane changes among the rest where PRETRAIN_LIMIT sets no
limit (R386), and so are the live conditions. A slice that follows again (R349) writes its mode where that reads 1 alone, so a word beyond the slices' that reads 1 is not
spoken of. -/
structure Calm (s t : State) : Prop where
  get : ∀ k, calmKey k → k < 0x01002001 ∨ s.get k ≠ 1 → t.get k = s.get k
  hits : (s.get Key.pretrainLimit).toNat = 0xFFFF → t.guardHits = s.guardHits
  live : t.liveLocs = s.liveLocs

namespace Calm

theorem refl (s : State) : Calm s s := ⟨fun _ _ _ => rfl, fun _ => rfl, rfl⟩

theorem ite {r s t : State} {c : Prop} [Decidable c] (h : Calm r s) (k : Calm r t) : Calm r (if c then s else t) := by split <;> assumption

/-- A field that holds no limit keeps none. -/
theorem ne_one_of_limit {w : Word} (h : w.toNat = 0xFFFF) : w ≠ 1 := by rintro rfl; exact absurd h (by decide)

theorem trans {r s t : State} (h : Calm r s) (k : Calm s t) : Calm r t := by
  refine ⟨fun j hj hc => ?_, fun hlimit => ?_, k.live.trans h.live⟩
  · have hs := h.get j hj hc
    exact (k.get j hj (by rw [hs]; exact hc)).trans hs
  · have hs := h.get Key.pretrainLimit (by decide) (.inr (ne_one_of_limit hlimit))
    exact (k.hits (by rw [hs]; exact hlimit)).trans (h.hits hlimit)

variable {r s : State} (h : Calm r s)
include h

/-- Whatever else changes, the objects, the suppressed changes and the live conditions do not. -/
theorem of_eq {t : State} (hobjs : t.objs = s.objs := by rfl) (hhits : t.guardHits = s.guardHits := by rfl) (hlive : t.liveLocs = s.liveLocs := by rfl) : Calm r t :=
  h.trans ⟨fun _ _ _ => by simp only [State.get, hobjs], fun _ => hhits, hlive⟩

theorem put {k : Nat} (hk : ¬ calmKey k) (v : Word) : Calm r (s.put k v) :=
  h.trans ⟨fun _ hj _ => s.get_put_other v (fun e => hk (e ▸ hj)), fun _ => rfl, rfl⟩

theorem putF {k : Nat} (hk : ¬ calmKey k) (lo len v : Nat) : Calm r (s.putF k lo len v) := h.put hk _
theorem count {k : Nat} (hk : ¬ calmKey k) (bits : Nat) : Calm r (s.count k bits) := h.put hk _
theorem countBy {k : Nat} (hk : ¬ calmKey k) (bits n : Nat) : Calm r (s.countBy k bits n) := h.put hk _

theorem foldl {α : Type} {f : State → α → State} {l : List α} (hf : ∀ t, ∀ x ∈ l, Calm r t → Calm r (f t x)) : Calm r (l.foldl f s) :=
  List.foldlRecOn l f h (fun t ht x hx => hf t x hx ht)

theorem putSlice (n : Nat) (x : SliceSt) : Calm r (s.putSlice n x) := h.of_eq
theorem putThread (n : Nat) (x : Thread) : Calm r (s.putThread n x) := h.of_eq
theorem emit (o : Output) : Calm r (s.emit o) := h.of_eq

/-! ### Lanes and DACs -/

theorem setLane (g : Nat) (l : LaneLevel) : Calm r (s.setLane g l) := h.of_eq

theorem driveLane (g : Nat) (l : LaneLevel) : Calm r (s.driveLane g l) := by
  refine h.trans ⟨fun k _ _ => ?_, fun hlimit => ?_, ?_⟩
  · simp only [State.driveLane]
    split_ifs <;> rfl
  · simp only [State.driveLane]
    rw [if_pos (by simp [hlimit])]
    rfl
  · simp only [State.driveLane]
    split_ifs <;> rfl

theorem driveFrom (before : State) (l : List (Nat × LaneLevel)) : Calm r (s.driveFrom before l) :=
  h.foldl (fun _ _ _ ht => ite (ht.setLane _ _) (ht.driveLane _ _))

theorem allLanes (l : LaneLevel) : Calm r (s.allLanes l) := foldl h.of_eq (fun _ _ _ ht => ht.of_eq)

theorem restLanes : Calm r s.restLanes := (h.allLanes .mid).driveFrom _ _

theorem restSlices (sls : List Nat) : Calm r (s.restSlices sls) :=
  (h.foldl (fun _ _ _ ht => ht.foldl (fun _ _ _ hu => hu.setLane _ _))).driveFrom _ _

theorem driveSlices (sls : List Nat) (l : LaneLevel) : Calm r (s.driveSlices sls l) := h.foldl (fun _ _ _ ht => ht.foldl (fun _ _ _ hu => hu.driveLane _ _))

theorem stimulate (sls : List Nat) : Calm r (s.stimulate sls) := h.foldl (fun _ _ _ ht => ht.foldl (fun _ _ _ hu => hu.of_eq))

theorem setLbk (sls : List Nat) (l : LaneLevel) : Calm r (s.setLbk sls l) := h.foldl (fun _ _ _ ht => ht.putSlice _ _)

theorem setDac (d src code : Nat) : Calm r (s.setDac d src code) := (h.put (not_calmKey_of_area (by decide)) _).putF (not_calmKey_of_area (by decide)) 0 2 src

theorem parkDac (d : Nat) : Calm r (s.parkDac d) := ite h (h.setDac _ _ _)
theorem faultDac (d : Nat) : Calm r (s.faultDac d) := ite h (h.setDac _ _ _)
theorem parkDacs : Calm r s.parkDacs := h.foldl (fun _ _ _ ht => ht.parkDac _)
theorem faultDacs : Calm r s.faultDacs := h.foldl (fun _ _ _ ht => ht.faultDac _)

theorem stopTrigouts : Calm r s.stopTrigouts := foldl h.of_eq (fun _ _ _ ht => ht.of_eq)
theorem driveTrigouts : Calm r s.driveTrigouts := ite (foldl h.of_eq (fun _ _ _ ht => ht.of_eq)) h

theorem irq (e : Nat) : Calm r (s.irq e) := by
  simp only [State.irq, State.signal]
  exact ite h (ite (ite h h.of_eq) h.of_eq)

theorem faultIrq : Calm r s.faultIrq := ite h.of_eq (of_eq (h.irq _))

/-! ### Routines and diagnostic runs -/

theorem sliceFollow {sl : Nat} (hmode : s.get (Key.sliceMode sl) = 1) : Calm r (s.sliceFollow sl) := by
  have hplaced : Calm r (s.putSlice sl { s.slice sl with diagPlaced := false }) := h.putSlice _ _
  refine hplaced.trans ⟨fun k _ hc => State.get_put_other _ _ ?_, fun _ => rfl, rfl⟩
  rintro rfl
  refine hc.elim (fun hlt => absurd hlt ?_) (fun hne => hne hmode)
  simp only [Key.sliceMode, mkKey]; omega

theorem returnDacs (x : Routine) : Calm r (s.returnDacs x) := h.foldl (fun _ _ _ ht => ite ht (ite (ht.parkDac _) (ht.setDac _ _ _)))

theorem stopStimulus (x : Routine) : Calm r (s.stopStimulus x) := by
  refine (((h.setLbk _ _).returnDacs x).foldl (fun t sl _ ht => ?_)).restSlices _
  split
  · next hone => exact ht.sliceFollow (BitVec.eq_of_toNat_eq hone)
  · exact ht

theorem abandonRoutine : Calm r s.abandonRoutine := by
  simp only [State.abandonRoutine]
  split
  · exact h
  · next x _ =>
    refine ite h ?_
    have hstop : Calm r (if x.postCommit then s else s.stopStimulus x) := ite h (h.stopStimulus x)
    have hend : Calm r (s.endStimulus x) := of_eq (hstop.put (k := Key.badgerStatus) (by decide) badgerIdle)
    have hcount : Calm r ((s.endStimulus x).countAbandon x.slot) := (hend.count (by decide) 32).putF (not_calmKey_of_area (by decide)) _ _ _
    exact hcount.put (not_calmKey_of_area (by decide)) _

theorem abandonOn (sls : List Nat) : Calm r (s.abandonOn sls) := by
  simp only [State.abandonOn]
  split
  · exact h
  · exact ite h.abandonRoutine h

theorem endDiag (x : DiagRun) (bytes : List Byte) : Calm r (s.endDiag x bytes) := by
  delta State.endDiag
  extract_lets s₁ s₂ s₃ s₄
  have hrun : Calm r s₁ := h.of_eq
  have hlanes : Calm r s₂ := (hrun.setLbk _ _).restSlices _
  have hdac : Calm r s₃ := by
    simp only [s₃]
    split
    · exact hlanes.put (not_calmKey_of_area (by decide)) _
    · exact hlanes
  have hdacs : Calm r s₄ := hdac.foldl (fun _ _ _ ht => ite (ht.parkDac _) ht)
  exact hdacs.put (by decide) _

theorem abortDiag : Calm r s.abortDiag := by
  simp only [State.abortDiag]
  split
  · exact h
  · exact (endDiag h.of_eq _ _).put (by decide) _

theorem abortDiagOn (sls : List Nat) : Calm r (s.abortDiagOn sls) := by
  simp only [State.abortDiagOn]
  split
  · exact h
  · exact ite h.abortDiag h

/-! ### Stops (R75, R92) -/

theorem putCounts (sls : List Nat) (th : Nat) (f : CycleCounts → CycleCounts) : Calm r (s.putCounts sls th f) := h.foldl (fun _ _ _ ht => ht.putSlice _ _)

theorem returnCredits (th n : Nat) : Calm r (s.returnCredits th n) := h.foldl (fun _ _ _ ht => ht.putSlice _ _)

theorem countFlushed (th left : Nat) : Calm r (s.countFlushed th left) := ((h.putCounts _ _ _).putCounts _ _ _).countBy (not_calmKey_of_el (by decide) (by decide)) 64 _

theorem stale : Calm r s.stale := ite (h.putF (by decide) 0 3 4) h

theorem writeBytes (a : Nat) (bs : List Byte) : Calm r (s.writeBytes a bs) := by
  have hstale : Calm r (if s.checkedPages.any (fun p => (pagesOf a bs.length).contains p) then s.stale else s) := ite h.stale h
  simp only [State.writeBytes]
  exact ite hstale.of_eq hstale.of_eq

theorem writeFrame (f : CapFrame) (a : Nat) (bs : List Byte) : Calm r (s.writeFrame f a bs) := by
  delta State.writeFrame
  extract_lets x
  have hx : Calm r x.2 := by
    simp only [x, State.frameLost]
    split
    · exact h.of_eq
    · exact h
  clear_value x
  exact ite (((hx.count (by decide) 32).putF (by decide) 4 1 1).putThread _ _) (((hx.writeBytes a bs).countBy (by decide) 64 _).count (by decide) 32)

theorem closeFrame (f : CapFrame) : Calm r (s.closeFrame f) := by
  delta State.closeFrame
  extract_lets bs region off b₁ s₁ b₂ s₂ x₃ s₃
  have hcount : Calm r s₁ := h.of_eq
  have hfull : Calm r s₂ := hcount.of_eq
  have hmark : Calm r s₃ := hfull.putThread _ _
  exact ite (hcount.writeFrame _ _ _) (hmark.putF (by decide) 3 1 1)

theorem endCapture (th : Nat) : Calm r (s.endCapture th) := h.foldl (fun _ f _ ht => ht.closeFrame f)

theorem stopLane (th g : Nat) (l : LaneLevel) : Calm r (s.stopLane th g l) := by
  simp only [State.stopLane]
  exact ite (h.driveLane g l) ((h.driveLane g l).emit _)

theorem stopLanes (th reason : Nat) : Calm r (s.stopLanes th reason) :=
  h.foldl (fun _ _ _ ht => ite (ht.foldl (fun _ _ _ hu => hu.stopLane _ _ _)) (ite (ht.foldl (fun _ _ _ hu => hu.stopLane _ _ _)) ht))

theorem failJump (who : Nat) : Calm r (s.failJump who) := by
  have hjumps : Calm r (s.burst.threads.foldl (fun u x => if ((u.thread x).jump.map JumpReq.who) = some who then u.putThread x { u.thread x with jump := none } else u) s) :=
    h.foldl (fun _ _ _ ht => ite (ht.putThread _ _) ht)
  simp only [State.failJump]
  exact ite (hjumps.put (not_calmKey_of_area (by decide)) _) hjumps

theorem siteFails (site b : Nat) : Calm r (s.siteFails site b) :=
  ((h.putF (not_calmKey_of_area (by decide)) b 1 1).putF (not_calmKey_of_area (by decide)) 1 1 1).put (not_calmKey_of_area (by decide)) _

theorem endThread (th reason : Nat) : Calm r (s.endThread th reason) := by
  delta State.endThread
  refine ite h ?_
  extract_lets t s₁ s₂ s₃ s₄ s₅ x₆ s₇ s₈ s₉ s₁₀ s₁₁ b
  have hcounts : Calm r s₂ := (h.countFlushed th _).returnCredits th 256
  clear_value s₂
  have hwords : Calm r s₄ := (hcounts.put (not_calmKey_of_area (by decide)) _).put (not_calmKey_of_area (by decide)) _
  clear_value s₄
  have hcontext : Calm r s₇ := (hwords.endCapture th).putThread _ _
  clear_value s₇
  have hlanes : Calm r s₉ := (hcontext.foldl (fun _ _ _ hu => hu.putSlice _ _)).stopLanes th reason
  clear_value s₉
  have hjump : Calm r s₁₀ := by
    simp only [s₁₀]
    split
    · exact hlanes.failJump _
    · exact hlanes
  clear_value s₁₀
  have hsites : Calm r s₁₁ := ite hjump (hjump.foldl (fun _ _ _ hu => hu.siteFails _ _))
  exact hsites.of_eq

theorem endAll (l : List (Nat × Nat)) : Calm r (s.endAll l) := h.foldl (fun _ _ _ ht => ht.endThread _ _)

theorem settleStop : Calm r s.settleStop := by
  delta State.settleStop
  extract_lets left b s₁
  have hleft : Calm r s₁ := h.of_eq
  exact ite (hleft.put (by decide) _) hleft

theorem settleBurst : Calm r s.settleBurst := ite (put h.of_eq (by decide) _) h

theorem stopThreads (ths : List Nat) (reason : Nat) : Calm r (s.stopThreads ths reason) := by
  simp only [State.stopThreads]
  exact ite (settleStop h.of_eq) (h.endAll _).settleStop.settleBurst

/-! ### The threads' arming -/

theorem disarm : Calm r s.disarm := by
  delta State.disarm
  extract_lets derived s₁ s₂ s₃
  have hthreads : Calm r s₁ := h.foldl (fun _ _ _ ht => ite (ht.putThread _ _) ((ht.putThread _ _).putF (not_calmKey_of_area (by decide)) _ _ _))
  clear_value s₁
  have hroles : Calm r s₂ := hthreads.foldl (fun _ _ _ ht => ht.put (not_calmKey_of_area (by decide)) _)
  clear_value s₂
  have hshares : Calm r s₃ := hroles.foldl (fun _ _ _ ht => ht.putSlice _ _)
  exact hshares.foldl (fun _ _ _ ht => ite ht (ht.put (not_calmKey_of_area (by decide)) _))

theorem dormantThreads : Calm r s.dormantThreads := h.foldl (fun _ _ _ ht => ite (ht.putF (not_calmKey_of_area (by decide)) _ _ _) ht)

omit h in
theorem derive (g : Nat) : ∀ (is free : List Nat) {t : State}, Calm r t → Calm r (t.derive g is free).1
  | [], _, _, ht => ht
  | _ :: _, [], _, ht => ht
  | _ :: is, _ :: free, _, ht => derive g is free ((ht.put (not_calmKey_of_area (by decide)) _).putThread _ _)

theorem allocate : Calm r s.allocate := by
  delta State.allocate
  extract_lets ths split s₁ free
  have harmed : Calm r s₁ := h.foldl (fun _ _ _ ht => ht.putThread _ _)
  exact List.foldlRecOn (motive := fun (p : State × List Nat) => Calm r p.1) split _ harmed (fun p hp g _ => derive g _ _ hp)

end Calm

end Sys2Proof.Machine
end

section
/-! Entering a mode (R59, R62): the words that the entry writes, and what it leaves alone. -/

namespace Sys2Proof.Machine

/-- `t` is `s` having entered mode `m`. -/
structure Entered (s t : State) (m : Nat) : Prop where
  mode : t.get Key.deviceMode = toWord m
  changes : t.get Key.modeChanges = toWord (((s.get Key.modeChanges).toNat + 1) % 2 ^ 32)
  get : ∀ k, calmKey k → k ≠ Key.deviceMode → k ≠ Key.modeChanges → k ≠ Key.guardStatus → k < 0x01002001 ∨ s.get k ≠ 1 → t.get k = s.get k
  locked : s.unlocked = false → t.unlocked = false
  hits : (s.get Key.pretrainLimit).toNat = 0xFFFF → t.guardHits = s.guardHits
  live : t.liveLocs = s.liveLocs

/-- The strap's bit of GUARD_STATUS (R384) stays 0 where nothing but outputs, routines and stops change. -/
theorem Calm.locked {s t : State} (h : Calm s t) (hlocked : s.unlocked = false) : t.unlocked = false := by
  have hne : s.get Key.guardStatus ≠ 1 := fun e => by simp [State.unlocked, e, bit] at hlocked
  simp only [State.unlocked, h.get Key.guardStatus (by decide) (.inr hne)] at hlocked ⊢
  exact hlocked

/-- Bit 0 of GUARD_STATUS is the strap's, whatever else of it is written (R384). -/
theorem unlocked_putF (s : State) {lo : Nat} (hlo : 0 < lo) (v : Nat) : (s.putF Key.guardStatus lo 1 v).unlocked = s.unlocked := by
  simp only [State.unlocked, State.get_putF, if_true, bit, setField_bit]
  rw [if_neg (by omega)]

namespace Calm

variable {r s : State} (h : Calm r s)
include h

theorem modeOutputs (old m : Nat) : Calm r (s.modeOutputs old m) := by
  simp only [State.modeOutputs]
  refine ite h.restLanes.faultDacs (ite (ite h.restLanes h.restLanes.parkDacs) (ite h.restLanes (ite h (ite (ite h (h.restLanes.setLbk _ _).parkDacs) (ite ?_ h.restLanes.parkDacs)))))
  exact ((h.setLbk _ _).stimulate _).parkDacs.driveTrigouts

theorem placeDiagnose : Calm r s.placeDiagnose :=
  h.foldl (fun _ _ hsl ht => ite ht ((ht.putSlice _ _).put (not_calmKey_sliceMode (List.mem_range.1 hsl)) _))

/-- Leaving a mode is calm but for STAGED of GUARD_STATUS, which leaving SERVICE clears (R384). -/
theorem leaveMode (m : Nat) : ∃ t, Calm r t ∧ (s.leaveMode m = t ∨ s.leaveMode m = { t with guardStaged := [] }.putF Key.guardStatus 1 1 0) := by
  delta State.leaveMode
  extract_lets idle b s₁ s₂ placed s₃ s₄
  have hburst : Calm r s₁ := ite (of_eq h.dormantThreads) h
  clear_value s₁
  have harmed : Calm r s₂ := ite hburst.disarm hburst
  clear_value s₂
  have hdiagnose : Calm r s₃ := by
    refine ite ((harmed.abortDiagOn _).foldl (fun t sl hsl ht => ?_)) harmed
    exact (ht.putSlice _ _).put (not_calmKey_sliceMode (List.mem_range.1 (List.mem_filter.1 hsl).1)) _
  clear_value s₃
  have htrain : Calm r s₄ := ite (hdiagnose.setLbk _ _) hdiagnose
  refine ⟨s₄, htrain, ?_⟩
  split
  · exact .inr rfl
  · exact .inl rfl

end Calm

theorem enterMode_entered (s : State) (m : Nat) : Entered s (s.enterMode m) m := by
  delta State.enterMode
  extract_lets old s₁ s₂ s₃ s₄ s₅ s₆ s₇ s₈ s₉ s₁₀ ledger s₁₁
  have hroutine : Calm s s₁ := .ite (Calm.refl s).abandonRoutine (.refl s)
  clear_value s₁
  have hdiag : Calm s s₂ := .ite hroutine.abortDiag hroutine
  clear_value s₂
  obtain ⟨t, ht, hleft⟩ := hdiag.leaveMode m
  replace hleft : s₃ = t ∨ s₃ = { t with guardStaged := [] }.putF Key.guardStatus 1 1 0 := hleft
  clear_value s₃
  have hs₄ : ∀ k, s₄.get k = s₃.get k := fun _ => rfl
  have hentered : Calm s₅ s₆ := (Calm.refl s₅).of_eq
  clear_value s₆
  have hlines : Calm s₅ s₇ := .ite hentered.stopTrigouts hentered
  clear_value s₇
  have hdog : Calm s₅ s₈ := .ite (hlines.putF (by decide) 0 1 0) hlines
  clear_value s₈
  have houtputs : Calm s₅ s₉ := hdog.modeOutputs old m
  clear_value s₉
  have hplaced : Calm s₅ s₁₀ := .ite (houtputs.put (by decide) _).placeDiagnose houtputs
  clear_value s₁₀
  have hcounted : Calm s₅ s₁₁ := .ite hplaced.of_eq hplaced
  clear_value s₁₁
  have hrest : Calm s₅ (if m = Mode.safe ∨ old = Mode.safe then s₁₁.faultIrq else s₁₁) := .ite hcounted.faultIrq hcounted
  generalize (if m = Mode.safe ∨ old = Mode.safe then s₁₁.faultIrq else s₁₁) = u at hrest ⊢
  have hget : ∀ k, k ≠ Key.guardStatus → s₃.get k = t.get k := by
    intro k hk
    rcases hleft with hleft | hleft <;> rw [hleft]
    exact State.get_put_other _ _ (Ne.symm hk)
  have hstrap : s₃.unlocked = t.unlocked := by
    rcases hleft with hleft | hleft <;> rw [hleft]
    exact unlocked_putF _ (by decide) 0
  have hfields : s₃.guardHits = t.guardHits ∧ s₃.liveLocs = t.liveLocs := by
    rcases hleft with hleft | hleft <;> rw [hleft] <;> exact ⟨rfl, rfl⟩
  have hother : ∀ k, k ≠ Key.deviceMode → k ≠ Key.modeChanges → s₅.get k = s₃.get k := fun k hmode hchanges => by
    simp only [s₅, State.count]
    rw [State.get_put_other _ _ hchanges.symm, State.get_put_other _ _ hmode.symm, hs₄]
  have hmode : s₅.get Key.deviceMode = toWord m := (State.get_put_other _ _ (by decide)).trans (State.get_put_same _ _ _)
  have hchanges : s₅.get Key.modeChanges = toWord (((s.get Key.modeChanges).toNat + 1) % 2 ^ 32) := by
    simp only [s₅, State.count, State.get_put_same]
    rw [State.get_put_other _ _ (by decide), hs₄, hget _ (by decide), ht.get _ (by decide) (.inl (by decide))]
  have hlimit : s₅.get Key.pretrainLimit = t.get Key.pretrainLimit := (hother _ (by decide) (by decide)).trans (hget _ (by decide))
  have hstrap₅ : s₅.unlocked = s₃.unlocked := by simp only [State.unlocked, hother Key.guardStatus (by decide) (by decide)]
  refine ⟨?_, ?_, fun k hk hkmode hkchanges hkguard hc => ?_, fun hlocked => ?_, fun hnone => ?_, ?_⟩
  · rw [hrest.get _ (by decide) (.inl (by decide)), hmode]
  · rw [hrest.get _ (by decide) (.inl (by decide)), hchanges]
  · have hs : s₅.get k = s.get k := ((hother k hkmode hkchanges).trans (hget k hkguard)).trans (ht.get k hk hc)
    rw [hrest.get k hk (by rw [hs]; exact hc), hs]
  · exact hrest.locked (hstrap₅.trans (hstrap.trans (ht.locked hlocked)))
  · have hs : t.get Key.pretrainLimit = s.get Key.pretrainLimit := ht.get _ (by decide) (.inr (Calm.ne_one_of_limit hnone))
    rw [hrest.hits (by rw [hlimit, hs]; exact hnone)]
    exact (hfields.1).trans (ht.hits hnone)
  · exact hrest.live.trans (hfields.2.trans ht.live)

end Sys2Proof.Machine
end

section
/-! Mode requests (R61, R62; O28). -/

namespace Sys2Proof.Machine

/-! ## Fields of a status word (R39) -/

/-- A field inside one that was set reads that part of what was written. -/
theorem field_setField_inner (w : Word) {lo len lo' len' : Nat} (v : Nat) (hlo : lo ≤ lo') (hlen : lo' + len' ≤ lo + len) (hword : lo + len ≤ 64) :
    field (setField w lo len v) lo' len' = (v >>> (lo' - lo)) % 2 ^ len' := by
  apply Nat.eq_of_testBit_eq
  intro i
  rw [field_testBit, setField_bit, Nat.testBit_mod_two_pow, Nat.testBit_shiftRight]
  by_cases hi : i < len'
  · rw [if_pos (by omega), show lo' + i - lo = lo' - lo + i by omega]
    simp [hi, show lo' + i < 64 by omega]
  · simp [hi]

theorem statusWord_code (st : Nat) (c : Code) (detail : Nat) : field (statusWord st c detail) 8 6 = c.toNat := by
  rw [statusWord, field_setField_other _ _ _ _ _ _ (by decide), field_setField_same _ _ _ _ (by decide)]
  cases c <;> rfl

theorem statusWord_detail (st : Nat) (c : Code) (detail : Nat) : field (statusWord st c detail) 16 16 = detail % 2 ^ 16 :=
  field_setField_same _ _ _ _ (by decide)

theorem cmdState_cmdFail (s : State) (k : Nat) (c : Code) (detail : Nat) : (s.cmdFail k c detail).cmdState k = Cmd.failed := by
  rw [State.cmdState, State.cmdFail, State.getF_eq, State.get_put_same, statusWord_state]; rfl

/-- A mode reads as the low bits of DEVICE_MODE. -/
theorem mode_of_get {s t : State} (h : t.get Key.deviceMode = s.get Key.deviceMode) : t.mode = s.mode := congrArg BitVec.toNat h

/-- The state of a command is that of its word. -/
theorem cmdState_of_get {s t : State} {k : Nat} (h : t.get k = s.get k) : t.cmdState k = s.cmdState k := by simp only [State.cmdState, State.getF_eq, h]

theorem cmdBusy_of_get {s t : State} {k : Nat} (h : t.get k = s.get k) : t.cmdBusy k = s.cmdBusy k := by simp only [State.cmdBusy, cmdState_of_get h]

/-! ## What an accepted request starts (R72, R147, R418) -/

namespace Calm

variable {r s : State} (h : Calm r s)
include h

theorem lockRegions : Calm r s.lockRegions := by
  simp only [State.lockRegions]
  exact ite h (h.foldl (fun _ _ _ ht => ht.put (not_calmKey_of_area (by decide)) _))

theorem putChan (c : Nat) (d : DmaChan) : Calm r (s.putChan c d) := h.of_eq

theorem fetchDescs (c : Nat) : Calm r (s.fetchDescs c) := ite (h.putChan _ _) h

theorem closeOldest (c code cause moved : Nat) : Calm r (s.closeOldest c code cause moved) := by
  delta State.closeOldest
  extract_lets d halt
  split
  · exact h
  · extract_lets len s₁ s₂ s₃ s₄
    have hclosed : Calm r s₂ := (h.emit _).putChan _ _
    clear_value s₂
    have hirq : Calm r s₃ := ite (hclosed.irq _) hclosed
    exact fetchDescs (ite (hirq.irq _) hirq) c

omit h in
theorem closeLost (c : Nat) : ∀ (fuel : Nat) {s : State}, Calm r s → Calm r (s.closeLost c fuel)
  | 0, _, h => h
  | fuel + 1, _, h => by
    simp only [State.closeLost]
    split
    · exact ite (closeLost c fuel (h.closeOldest _ _ _ _)) h
    · exact h

theorem abortLocked (c : Nat) : Calm r (s.abortLocked c) := ite (closeLost _ _ (h.putChan _ _)) h

theorem dropLocked : Calm r s.dropLocked := h.of_eq

end Calm

/-- The state in which the checks for ARMED start. -/
def State.armLocked (s : State) : State := ((List.range 8).foldl (fun t c => t.abortLocked c) (s.allocate.abandonOn s.allocate.armedSlices).lockRegions).dropLocked

theorem Calm.armLocked (s : State) : Calm s s.armLocked :=
  ((((Calm.refl s).allocate.abandonOn _).lockRegions).foldl (fun _ _ _ ht => ht.abortLocked _)).dropLocked

theorem beginArm_eq (s : State) : s.beginArm = s.armLocked.checksRunning := rfl

theorem checksRunning_status (s : State) : s.checksRunning.getF Key.loadStatus 0 3 = 1 := by
  rw [State.getF_eq, State.checksRunning, State.get_put_same]; decide

theorem setDac_burst (s : State) (d src code : Nat) : (s.setDac d src code).burst = s.burst := rfl

theorem parkDacs_burst (s : State) : s.parkDacs.burst = s.burst :=
  List.foldlRecOn (motive := fun t : State => t.burst = s.burst) _ _ rfl (fun t ht d _ => by
    simp only [State.parkDac]
    split
    · exact ht
    · rw [setDac_burst, ht])

theorem allLanes_burst (s : State) (l : LaneLevel) : (s.allLanes l).burst = s.burst :=
  List.foldlRecOn (motive := fun t : State => t.burst = s.burst) _ _ rfl (fun _ ht _ _ => ht)

/-- An accepted QUIESCE out of a running burst stops its threads and waits for its audit (R418). -/
theorem beginQuiesce_burst {s : State} (hbusy : s.lichenBusy = false) (hmode : s.mode = Mode.burst) (hrunning : s.burst.running = true) :
    Calm s s.beginQuiesce ∧ s.beginQuiesce.entering = some Mode.quiesce := by
  have hparked : ((s.allLanes .mid).parkDacs).burst.running = true := by rw [parkDacs_burst, allLanes_burst, hrunning]
  have hstopped : Calm s ((s.allLanes .mid).parkDacs.stopAll Stop.modeStop) := (((Calm.refl s).allLanes .mid).parkDacs).stopThreads _ _
  simp only [State.beginQuiesce, hbusy, hmode, Bool.false_eq_true, if_false, if_true]
  rw [if_pos hparked]
  generalize (s.allLanes .mid).parkDacs.stopAll Stop.modeStop = t at hstopped ⊢
  exact ⟨hstopped.of_eq, rfl⟩

/-- Out of every other mode it starts nothing. -/
theorem beginQuiesce_other {s : State} (hmode : s.mode ≠ Mode.burst) : s.beginQuiesce = s := by
  simp only [State.beginQuiesce, if_neg hmode, ite_self]

/-! ## The request -/

/-- The eight requests are MODE_REQUEST with the mode that each names. -/
theorem exec_modeRequest {p : Path} {c : Instr} {m : Nat} (h : (c, m) ∈ modeRequests p) (s : State) : exec c s = .next (s.requestMode p m) ∧ m < 12 := by
  simp only [modeRequests, List.mem_cons, Prod.mk.injEq, List.not_mem_nil, or_false] at h
  rcases h with ⟨rfl, rfl⟩ | ⟨rfl, rfl⟩ | ⟨rfl, rfl⟩ | ⟨rfl, rfl⟩ | ⟨rfl, rfl⟩ | ⟨rfl, rfl⟩ | ⟨rfl, rfl⟩ | ⟨rfl, rfl⟩ <;> exact ⟨rfl, by decide⟩

section
variable {s : State} {p : Path} {m : Nat}

theorem toWord_toNat_of_mode (hm : m < 12) : (toWord m).toNat = m := toWord_toNat_of_lt (by omega)

/-- An accepted request for the present mode (R61). -/
theorem cmdModeRequest_present (hm : m < 12) (hcode : s.requestCode (toWord m) = .ok) (hmode : m = s.mode) :
    s.cmdModeRequest (toWord m) = (.ok, s.cmdDone Key.modeRequest (s.changeDetail m)) := by
  simp only [State.cmdModeRequest, hcode, toWord_toNat_of_mode hm, ne_eq, not_true_eq_false, if_false, if_pos hmode]

/-- The state in which a request for mode `m` runs (R61). -/
def State.requested (s : State) (m : Nat) : State := s.cmdRun Key.modeRequest (s.changeDetail m)

/-- An accepted request for another mode. -/
theorem cmdModeRequest_other (hm : m < 12) (hcode : s.requestCode (toWord m) = .ok) (hmode : m ≠ s.mode) :
    s.cmdModeRequest (toWord m) =
      (.ok, if (s.requested m).arming then (s.requested m).beginArm else if m = Mode.quiesce then (s.requested m).beginQuiesce else s.requested m) := by
  simp only [State.cmdModeRequest, hcode, toWord_toNat_of_mode hm, ne_eq, not_true_eq_false, if_false, if_neg hmode]
  rfl

theorem requested_get {k : Nat} (hk : k ≠ Key.modeRequest) : (s.requested m).get k = s.get k := State.get_put_other _ _ hk.symm

theorem requested_mode : (s.requested m).mode = s.mode := mode_of_get (requested_get (by decide))

theorem requested_detail (hs : s.mode < 16) (hm : m < 12) : (s.requested m).getF Key.modeRequest 16 8 = s.mode + 16 * m ∧ (s.requested m).modeTarget = m := by
  simp only [State.modeTarget, State.getF_eq, State.requested, State.cmdRun, State.get_put_same, statusWord, State.changeDetail]
  rw [field_setField_inner _ _ (by decide) (by decide) (by decide), field_setField_inner _ _ (by decide) (by decide) (by decide), Nat.shiftRight_eq_div_pow, Nat.shiftRight_eq_div_pow]
  omega

/-- It is a request for ARMED out of IDLE or LOAD that starts the checks. -/
theorem requested_arming (hs : s.mode < 16) (hm : m < 12) : (s.requested m).arming = (m == Mode.armed && (s.mode == Mode.idle || s.mode == Mode.load)) := by
  have hbusy : (s.requested m).cmdBusy Key.modeRequest = true := by
    simp only [State.cmdBusy, State.requested, cmdState_cmdRun]; rfl
  rw [State.arming, hbusy, (requested_detail hs hm).2, requested_mode]
  rfl

end

/-- A request from a path for a mode that is no trigger of R62 from the present one is refused. -/
theorem requestCode_unlisted {s : State} {m : Nat} (hm : m < 12) (hmachine : s.machineCheck = false) (hmode : m ≠ s.mode) (hlisted : s.listed m = false) :
    s.requestCode (toWord m) = .wrongMode := by
  have hlow : (toWord m).toNat % 16 = m := by rw [toWord_toNat_of_mode hm]; omega
  have hsecond : (!s.machineCheck && decide (m < 12) && m != s.mode && (!s.listed m || s.liveRefuses m)) = true := by simp [hmachine, hm, hmode, hlisted]
  simp only [State.requestCode, hlow, refuse, hsecond, if_true, ite_self]

end Sys2Proof.Machine

open Sys2Proof Sys2Proof.Machine

/-- Settles O28: a request is one word of MODE_REQUEST and, out of IDLE or LOAD for ARMED and out of a running burst for QUIESCE, a start that leaves that word alone. -/
theorem modeRequestsAreTaken : Obligations.ModeRequestsAreTaken := by
  unfold Obligations.ModeRequestsAreTaken
  refine ⟨fun s p c m hc hserves hs hcode => ?_, fun s p c m hc hserves hmachine hmode hlisted => ?_⟩
  · obtain ⟨hexec, hm⟩ := exec_modeRequest hc s
    have hrun : ∀ t, s.cmdModeRequest (toWord m) = (.ok, t) → exec c s = .next (t.respond 0x02 0 Key.modeRequest .ok) := fun t ht =>
      hexec.trans (congrArg Host.Outcome.next (access_ok (op := fun t => t.cmdModeRequest (toWord m)) hserves 0 Key.modeRequest ht))
    have hother := cmdModeRequest_other hm hcode
    have harming := requested_arming hs hm
    have hdetail := (requested_detail hs hm).1
    have honly : s.onlyObjects (s.requested m) [Key.modeRequest] := onlyObjects_put (onlyObjects_refl s _) (by decide) _
    have hrunning : (s.requested m).cmdState Key.modeRequest = Cmd.running := cmdState_cmdRun _ _ _
    have hrespond : ∀ t : State, (t.respond 0x02 0 Key.modeRequest .ok).mode = t.mode := fun t => mode_of_get (respond_get ..)
    have hplain : m ≠ s.mode → (m = Mode.armed → s.mode ≠ Mode.idle ∧ s.mode ≠ Mode.load) → (m = Mode.quiesce → s.mode ≠ Mode.burst) →
        s.cmdModeRequest (toWord m) = (.ok, s.requested m) := by
      intro hmode harmed hquiesce
      have hno : (s.requested m).arming = false := by
        rw [harming]
        by_cases hm' : m = Mode.armed
        · simp [harmed hm']
        · simp [hm']
      rw [hother hmode, hno, if_neg Bool.false_ne_true]
      by_cases hq : m = Mode.quiesce
      · rw [if_pos hq, beginQuiesce_other (by rw [requested_mode]; exact hquiesce hq)]
      · rw [if_neg hq]
    refine ⟨fun hmode => ?_, fun hmode harmed hquiesce => ?_, fun hquiesce hburst hmode => ?_, fun hquiesce hburst hburning hlichen => ?_, fun harmed hmode => ?_,
      fun harmed hmode => ?_⟩
    · refine ⟨_, hrun _ (cmdModeRequest_present hm hcode hmode), respond_answered _ _ _ _, (respond_cmdState ..).trans (cmdState_cmdDone _ _ _), (hrespond _).trans ?_, ?_⟩
      · exact mode_of_get (State.get_put_other _ _ (by decide))
      · exact onlyObjects_respond (onlyObjects_put (onlyObjects_refl s _) (by decide) _) _ _ _ _
    · refine ⟨_, hrun _ (hplain hmode (absurd · harmed) (absurd · hquiesce)), respond_answered _ _ _ _, (respond_cmdState ..).trans hrunning, ?_, (hrespond _).trans requested_mode,
        onlyObjects_respond honly _ _ _ _⟩
      rw [State.getF_eq, respond_get, ← State.getF_eq, hdetail]
    · refine ⟨_, hrun _ (hplain (hquiesce ▸ hmode.symm) (fun h => by rw [hquiesce] at h; exact absurd h (by decide)) (fun _ => hburst)),
        (respond_cmdState ..).trans hrunning, (hrespond _).trans requested_mode, onlyObjects_respond honly _ _ _ _⟩
    · have hquiet : (s.requested m).lichenBusy = false := by
        simpa only [State.lichenBusy, State.cmdBusy, State.cmdState, State.getF_eq, requested_get (show Key.dictPersist ≠ Key.modeRequest by decide),
          requested_get (show Key.guardCommit ≠ Key.modeRequest by decide), requested_get (show Key.fwActivate ≠ Key.modeRequest by decide)] using hlichen
      obtain ⟨hcalm, hentering⟩ := beginQuiesce_burst (s := s.requested m) hquiet (requested_mode.trans hburst) hburning
      have hno : (s.requested m).arming = false := by rw [harming, hquiesce]; rfl
      have hcmd : s.cmdModeRequest (toWord m) = (.ok, (s.requested m).beginQuiesce) := by
        rw [hother (by rw [hquiesce, hburst]; decide), hno, if_neg Bool.false_ne_true, if_pos hquiesce]
      refine ⟨_, hrun _ hcmd, ?_, ?_⟩
      · rw [respond_cmdState, cmdState_of_get (hcalm.get _ (by decide) (.inl (by decide))), hrunning]
      · obtain ⟨v, n, hv⟩ := respond_spec (s.requested m).beginQuiesce 0x02 0 Key.modeRequest .ok
        rw [hv]
        exact hentering
    · refine ⟨_, hrun _ (hplain (by rw [harmed, hmode]; decide) (fun _ => by rw [hmode]; decide) (fun h => by rw [harmed] at h; exact absurd h (by decide))),
        (respond_cmdState ..).trans hrunning, (hrespond _).trans requested_mode, onlyObjects_respond honly _ _ _ _⟩
    · have hyes : (s.requested m).arming = true := by rw [harming, harmed]; rcases hmode with h | h <;> rw [h] <;> rfl
      have hcmd : s.cmdModeRequest (toWord m) = (.ok, (s.requested m).armLocked.checksRunning) := by
        rw [hother (by rw [harmed]; rcases hmode with h | h <;> rw [h] <;> decide), hyes, if_pos rfl, beginArm_eq]
      have hget : ∀ k, calmKey k → k < 0x01002001 → (s.requested m).armLocked.checksRunning.get k = (s.requested m).get k := fun k hk hlow =>
        (State.get_put_other _ _ (by rintro rfl; exact absurd hk (by decide))).trans ((Calm.armLocked _).get k hk (.inl hlow))
      refine ⟨_, hrun _ hcmd, respond_answered _ _ _ _, ?_, ?_, (hrespond _).trans ?_⟩
      · rw [respond_cmdState, cmdState_of_get (hget _ (by decide) (by decide)), hrunning]
      · rw [State.getF_eq, respond_get, ← State.getF_eq, checksRunning_status]
      · exact (mode_of_get (hget _ (by decide) (by decide))).trans requested_mode
  · obtain ⟨hexec, hm⟩ := exec_modeRequest hc s
    have hcmd : s.cmdModeRequest (toWord m) = (.wrongMode, s) := by
      simp [State.cmdModeRequest, requestCode_unlisted hm hmachine hmode hlisted]
    obtain ⟨honly, hanswer⟩ := access_refused (op := fun t => t.cmdModeRequest (toWord m)) hserves 0 Key.modeRequest hcmd
    exact ⟨_, hexec, hanswer, honly⟩
end

section
/-! Drift tracking where the measured lag is itself the role of a thread of the burst (R29, R176; O59). -/

namespace Sys2Proof.Machine

/-- DRIFT_TRACKING with the lag noted and its correction pending, before a correction that need not wait is applied (R176). -/
def State.lagPending (s : State) (sl : Nat) (lag : Int) : State :=
  (s.noteLag sl lag).putSlice sl { (s.noteLag sl lag).slice sl with drift := some lag, lagHigh := ((s.noteLag sl lag).slice sl).lagHigh && decide (4000 < lag.natAbs) }

theorem exec_driftTracking {s : State} {sl : Nat} (lag : Int) (hsl : sl < 32) (hkeep : s.housekeeping = true) (hmode : s.sliceModeOf sl ≠ 1) :
    exec (.driftTracking sl lag) s = .next (if (s.lagPending sl lag).portRuns sl then s.lagPending sl lag else (s.lagPending sl lag).applyDrift sl) := by
  have hdue : (s.housekeeping && s.sliceModeOf sl != 1) = true := by simp [hkeep, hmode]
  have hexec : exec (.driftTracking sl lag) s = execDriftTracking sl lag s := rfl
  rw [hexec, execDriftTracking, within, if_pos hsl, hdue, if_pos rfl]
  rfl

/-- No correction is pending on a slice where it has been applied. -/
theorem applyDrift_drift (s : State) (sl : Nat) : ((s.applyDrift sl).slice sl).drift = none := by
  simp only [State.applyDrift]
  split
  · assumption
  · exact by simp only [State.slice_putSlice, State.put_slice, State.count, if_true]

/-- A running burst whose one thread, 61456, has DRIFT_LAG of slice 3 for its role: with the lag at 0 it is the thread of site 0, whose port drives slice 3. -/
def lagRoleState : State :=
  { [(Key.deviceMode, toWord Mode.burst), (Key.siteEnable 0, 1), (Key.portCtrl 0, 0x1000), (Key.portSlices 0, 8)].foldl (fun s e => s.put e.1 e.2) State.reset with
    burst := { Burst.none with running := true, threads := [61456], launched := true } }

theorem lagRoleState_facts : lagRoleState.housekeeping = true ∧ lagRoleState.sliceModeOf 3 = 0 ∧ lagRoleState.portRuns 3 = true := by decide +kernel

/-- The lag of 5 fs, once noted, is a role that no site has. -/
theorem lagRoleState_pending : (lagRoleState.lagPending 3 5).portRuns 3 = false := by decide +kernel

end Sys2Proof.Machine

open Sys2Proof Sys2Proof.Machine

/-- Refutes O59: the statement asks whether a port runs before the lag is noted, the model after it, and nothing in the statement bounds the threads of the burst. Where one
of them is beyond the 4,096 threads, so that its role lies at DRIFT_LAG of the slice, the lag that is noted takes its port away and the correction is applied at once. -/
theorem not_housekeepingActs : ¬ Obligations.HousekeepingActs := by
  unfold Obligations.HousekeepingActs
  intro h
  obtain ⟨hkeep, hmode, hruns⟩ := lagRoleState_facts
  have hfollows : lagRoleState.sliceModeOf 3 ≠ 1 := by rw [hmode]; decide
  obtain ⟨t, hexec, -, hdrift, -⟩ := ((h lagRoleState).1 3 5 (by decide) hkeep hfollows (by decide)).1 hruns
  rw [exec_driftTracking 5 (by decide) hkeep hfollows, lagRoleState_pending, if_neg Bool.false_ne_true] at hexec
  cases hexec
  exact absurd ((applyDrift_drift _ _).symm.trans hdrift) (by decide)
end

section
/-! A change that leaves SERVICE with GUARD_UNLOCK_N low (R61, R349, R373; O29): FS081, once raised, is live, and a routine whose slice lies at GUARD_STATUS clears the bit
that tells of it. -/

namespace Sys2Proof.Machine

/-- FS081 is live. -/
def State.unlockLive (s : State) : Prop := (81, Loc.none) ∈ s.liveLocs

theorem unlockLive_of_eq {s t : State} (h : s.unlockLive) (e : t.liveLocs = s.liveLocs) : t.unlockLive := by
  rw [State.unlockLive, e]; exact h

theorem Calm.unlockLive {s t : State} (h : Calm s t) (hlive : s.unlockLive) : t.unlockLive := unlockLive_of_eq hlive h.live

/-! ## The record of a raise (R374, R375, R402) -/

namespace Calm

variable {r s : State} (h : Calm r s)
include h

theorem recordRaise (x : Raise) (sev : Nat) : Calm r (s.recordRaise x sev) := by
  have hentry : ∀ q i, ¬ calmKey (Key.histEntry q i) := fun _ _ => not_calmKey_of_area (by decide)
  delta State.recordRaise
  extract_lets lo q slot s₁ s₂ s₃ s₄ first s₅ s₆
  have hlost : Calm r s₁ := ite (h.count (by decide) 32) h
  clear_value s₁
  have hhist : Calm r s₂ := (hlost.put (hentry _ _) lo).put (hentry _ _) _
  clear_value s₂
  have hread : Calm r s₃ := hhist.of_eq
  clear_value s₃
  have hcount : Calm r s₄ := hread.count (by decide) 32
  clear_value s₄
  have hfirst : Calm r s₅ := ite ((hcount.put (by decide) _).put (by decide) _) hcount
  clear_value s₅
  have hwatch : Calm r s₆ := hfirst.of_eq
  exact ite hwatch.faultIrq hwatch

theorem bbWrite (typ : Nat) (payload : List Word) : Calm r (s.bbWrite typ payload) := by
  delta State.bbWrite
  refine ite h ?_
  extract_lets x kept bb nvm ledger s₁
  have hbox : Calm r s₁ := h.of_eq
  exact (hbox.count (by decide) 32).put (by decide) _

theorem bbBudget (typ : Nat) (payload : List Word) : Calm r (s.bbBudget typ payload) := by
  simp only [State.bbBudget, State.drawToken]
  split
  · next t ht =>
    split at ht
    · cases ht
    · rw [← Option.some.inj ht]
      exact (h.put (by decide) _).bbWrite _ _
  · exact h.count (by decide) 32

theorem faultRecord (x : Raise) (sev : Nat) : Calm r (s.faultRecord x sev) := ite (h.bbWrite _ _) (ite (h.bbBudget _ _) h)

end Calm

theorem clearLive_liveLocs (s : State) (src : Nat) : (s.clearLive src).liveLocs = s.liveLocs.filter (fun x => x.1 != src) := by
  simp only [State.clearLive]
  split
  · rfl
  · split_ifs <;> rfl

/-- The end of another source's condition leaves that of FS081. -/
theorem unlockLive_clearLive {s : State} (h : s.unlockLive) {src : Nat} (hsrc : src ≠ 81) : (s.clearLive src).unlockLive := by
  rw [State.unlockLive, clearLive_liveLocs, List.mem_filter]
  exact ⟨h, bne_iff_ne.2 hsrc.symm⟩

/-- A raise adds its condition before what is not lasting is cleared again. -/
theorem unlockLive_noteRaise {s : State} {r : Raise} (sev : Nat) (hlasts : r.source = 81 → r.injected = false)
    (h : s.unlockLive ∨ (r.source, r.loc) = (81, Loc.none)) : (s.noteRaise r sev).unlockLive := by
  delta State.noteRaise
  extract_lets fresh s₁ s₂ s₃ s₄
  have hadded : s₃.unlockLive := by
    have hlocs : s₃.liveLocs = if s.liveLocs.contains (r.source, r.loc) then s.liveLocs else s.liveLocs ++ [(r.source, r.loc)] := rfl
    rw [State.unlockLive, hlocs]
    split
    · next hin => exact h.elim id (fun e => by rw [← e]; exact List.contains_iff_mem.1 hin)
    · exact List.mem_append.2 (h.imp id (fun e => by rw [e]; exact List.mem_singleton.2 rfl))
  clear_value s₃
  have hrecorded : s₄.unlockLive := by
    simp only [s₄]
    split
    · exact ((Calm.refl s₃).recordRaise _ _).unlockLive hadded
    · exact hadded
  clear_value s₄
  split
  · exact hrecorded
  · next hnot =>
    refine unlockLive_clearLive hrecorded (fun hsrc => hnot ?_)
    rw [hsrc, hlasts hsrc]
    decide

theorem unlockLive_noteFull {s : State} {r : Raise} (sev : Nat) (hlasts : r.source = 81 → r.injected = false)
    (h : s.unlockLive ∨ (r.source, r.loc) = (81, Loc.none)) : (s.noteFull r sev).unlockLive := by
  simp only [State.noteFull]
  split
  · exact ((Calm.refl _).faultRecord _ _).unlockLive (unlockLive_noteRaise sev hlasts h)
  · exact unlockLive_noteRaise sev hlasts h

/-! ## The actions of the severities (R368) -/

namespace Calm

variable {r s : State} (h : Calm r s)
include h

theorem faultOnRoutine (loc : Loc) : Calm r (s.faultOnRoutine loc) := by
  unfold State.faultOnRoutine
  split
  · extract_lets u
    have hu : Calm r u := h.abandonOn _
    clear_value u
    split
    · exact ite hu.abortDiag hu
    · exact hu
  · exact (h.abandonOn _).abortDiagOn _
  · extract_lets u
    have hu : Calm r u := by
      simp only [u]
      split
      · exact ite h.abandonRoutine h
      · exact h
    clear_value u
    split
    · exact ite hu.abortDiag hu
    · exact hu
  · exact h

theorem parkSlices (sls : List Nat) : Calm r (s.parkSlices sls) := by
  delta State.parkSlices
  extract_lets s₁ s₂ s₃ s₄
  have hlanes : Calm r s₂ := (h.stopThreads _ _).driveSlices _ _
  clear_value s₂
  have hparked : Calm r s₄ := (hlanes.foldl (fun _ _ _ ht => ht.faultDac _)).foldl (fun _ _ _ ht => ht.putSlice _ _)
  clear_value s₄
  exact (hparked.abandonOn _).abortDiagOn _

theorem latch (cause : Nat) : Calm r (s.latch cause) := by
  have hkey : ¬ calmKey Key.safeStatus := by decide
  have hset : Calm r (s.putF Key.safeStatus 0 1 1) := h.putF hkey _ _ _
  simp only [State.latch]
  generalize s.putF Key.safeStatus 0 1 1 = u at hset ⊢
  exact ite h (hset.putF hkey _ _ _)

theorem auditNotRun (cause : Nat) : Calm r (s.auditNotRun cause) := ((h.put (by decide) _).putF (by decide) _ _ _).putF (by decide) _ _ _

theorem cutAudit (cause : Nat) : Calm r (s.cutAudit cause) := by
  simp only [State.cutAudit]
  refine ite (h.auditNotRun _) (ite ?_ h)
  have hcut : Calm r ((s.stopNow Stop.faultStop).auditNotRun cause) := ((h.endAll _).settleStop).auditNotRun _
  generalize (s.stopNow Stop.faultStop).auditNotRun cause = u at hcut ⊢
  exact hcut.of_eq

end Calm

theorem unlockLive_modeAbort {s : State} (h : s.unlockLive) : s.modeAbort.unlockLive := by
  delta State.modeAbort
  split
  · extract_lets d s₁ s₂ s₃
    have hdisarmed : s₁.unlockLive := by
      simp only [s₁]
      split
      · exact (Calm.refl s).disarm.unlockLive h
      · exact h
    clear_value s₁
    have hstale : s₂.unlockLive := by simp only [s₂]; split <;> exact hdisarmed
    clear_value s₂
    have hfailed : s₃.unlockLive := ((Calm.refl _).irq Irq.mode).unlockLive (s := s₂.cmdFail Key.modeRequest .aborted d) hstale
    clear_value s₃
    exact unlockLive_noteRaise _ (fun e => absurd e (by decide)) (.inl hfailed)
  · exact h

theorem unlockLive_enterMode {s : State} (h : s.unlockLive) (m : Nat) : (s.enterMode m).unlockLive := unlockLive_of_eq h (enterMode_entered s m).live

theorem unlockLive_safeEntry {s : State} (h : s.unlockLive) (noAudit : Option Nat) : (s.safeEntry noAudit).unlockLive := by
  have hcut : ∀ {t : State} (c : Nat), t.unlockLive → (t.cutAudit c).unlockLive := fun c ht => ((Calm.refl _).cutAudit c).unlockLive ht
  delta State.safeEntry
  split
  · exact h
  split
  · cases noAudit with
    | none => exact h
    | some c => exact hcut c h
  · extract_lets s₁ s₂ s₃
    have haborted : s₂.unlockLive := unlockLive_modeAbort (((Calm.refl s).allLanes .mid).faultDacs.unlockLive h)
    clear_value s₂
    have hended : s₃.unlockLive := (Calm.refl s₂).abandonRoutine.abortDiag.unlockLive haborted
    clear_value s₃
    cases noAudit with
    | some c => exact unlockLive_enterMode (hcut c hended) _
    | none =>
      show State.unlockLive (if _ then _ else _)
      split
      · have hstopped := ((Calm.refl s₃).stopThreads s₃.burst.threads Stop.faultStop).unlockLive hended
        exact unlockLive_of_eq hstopped rfl
      · exact unlockLive_enterMode hended _

theorem unlockLive_machineCheckEntry {s : State} (h : s.unlockLive) : s.machineCheckEntry.unlockLive := by
  delta State.machineCheckEntry
  extract_lets s₁ ledger b s₂ s₃
  have hparked : s₁.unlockLive := (Calm.ite (.refl s) ((Calm.refl s).allLanes .mid).faultDacs).unlockLive h
  clear_value s₁
  have hstopped : s₁.stopTrigouts.unlockLive := (Calm.refl s₁).stopTrigouts.unlockLive hparked
  have hhalted : s₂.unlockLive := hstopped
  clear_value s₂
  exact unlockLive_safeEntry (((Calm.refl s₂).latch 3).unlockLive hhalted) _

/-- A raise that is no lane's, no signature's and no staging fault has its severity's action alone, and that clears no condition of FS081. -/
theorem unlockLive_effects {s : State} (h : s.unlockLive) {r : Raise} (hsrc : r.source ∉ [49, 50, 53, 54, 61]) (sev : Nat) (own : List Nat) : (s.effects r sev own).unlockLive := by
  simp only [List.mem_cons, List.not_mem_nil, or_false, not_or] at hsrc
  obtain ⟨h49, h50, h53, h54, h61⟩ := hsrc
  have hended : (if Sev.portStop ≤ sev then s.faultOnRoutine r.loc else s).unlockLive := (Calm.ite ((Calm.refl s).faultOnRoutine _) (.refl s)).unlockLive h
  have heffects : s.effects r sev own = (if Sev.portStop ≤ sev then s.faultOnRoutine r.loc else s).act r sev own := by
    delta State.effects
    extract_lets s₁ s₂ s₃ s₄
    have hlane : s₁ = s := if_neg (by simp [h49, h50])
    have hsig : s₂ = s₁ := if_neg (by simp [h53])
    have hflag : s₃ = s₂ := by
      simp only [s₃]
      split
      · next e _ => exact absurd e h61
      · rfl
    have hstaged : s₄ = s₃ := if_neg (by simp [h54])
    rw [hstaged, hflag, hsig, hlane]
  rw [heffects]
  generalize (if Sev.portStop ≤ sev then s.faultOnRoutine r.loc else s) = u at hended
  have hstop : ∀ ths, (u.stopThreads ths Stop.faultStop).unlockLive := fun ths => ((Calm.refl u).stopThreads ths _).unlockLive hended
  simp only [State.act]
  split
  · exact hended
  split
  · simp only [State.portStop, h49, h50, or_self, if_false]
    split <;> exact hstop _
  split
  · exact ((Calm.refl u).parkSlices _).unlockLive hended
  split
  · exact unlockLive_machineCheckEntry hended
  · refine unlockLive_safeEntry ?_ _
    split
    · exact ((Calm.refl u).latch 2).unlockLive hended
    · exact hended

/-! ## The raises that follow a change of mode -/

/-- FS081 is live once it is raised. -/
theorem unlockLive_fault (s : State) : (s.fault 81 .none 0).unlockLive :=
  unlockLive_effects (unlockLive_noteFull _ (fun _ => rfl) (.inr rfl)) (by decide) _ _

theorem mem_insertRaise {x y : Nat × Raise} : ∀ {l : List (Nat × Raise)}, y ∈ insertRaise x l → y = x ∨ y ∈ l
  | [], h => .inl (List.mem_singleton.1 h)
  | z :: l, h => by
    rw [insertRaise] at h
    split at h
    · exact List.mem_cons.1 h
    · rcases List.mem_cons.1 h with h | h
      · exact .inr (h ▸ List.mem_cons_self)
      · exact (mem_insertRaise h).imp id (List.mem_cons_of_mem _)

/-- The collector's order holds nothing but the raises. -/
theorem mem_orderRaises {s : State} {rs : List Raise} {x : Nat × Raise} (h : x ∈ orderRaises s rs) : x.2 ∈ rs := by
  have hall : ∀ x ∈ orderRaises s rs, x.2 ∈ rs :=
    List.foldlRecOn (motive := fun l : List (Nat × Raise) => ∀ x ∈ l, x.2 ∈ rs) rs _ (fun _ hx => absurd hx List.not_mem_nil) (fun l hl r hr x hx => by
      rcases mem_insertRaise hx with e | hx
      · rw [e]; exact hr
      · exact hl x hx)
  exact hall x h

/-- It stays so while the collector takes FS013. -/
theorem unlockLive_guardRaise {s : State} (h : s.unlockLive) : s.guardRaise.unlockLive := by
  delta State.guardRaise
  split
  · exact h
  · generalize hu : { s with guardHits := [] } = u
    have hlive : u.unlockLive := by rw [← hu]; exact h
    generalize hrs : s.guardHits.map (fun g => ({ source := 13, loc := .channel g, detail := 0, injected := false } : Raise)) = rs
    have hsrc : ∀ x ∈ orderRaises u rs, x.2.source = 13 := fun x hx => by
      have hmem := mem_orderRaises hx
      rw [← hrs, List.mem_map] at hmem
      obtain ⟨g, -, hg⟩ := hmem
      rw [← hg]
    have hnoted : ((orderRaises u rs).foldl (fun t x => t.noteFull x.2 x.1) u).unlockLive :=
      List.foldlRecOn (motive := State.unlockLive) _ _ hlive (fun t ht x hx => unlockLive_noteFull _ (fun e => by rw [hsrc x hx] at e; exact absurd e (by decide)) (.inl ht))
    exact List.foldlRecOn (motive := State.unlockLive) _ _ hnoted (fun t ht x hx => unlockLive_effects ht (by rw [hsrc x hx]; decide) _ _)

/-! ## The change -/

/-- SERVICE with the guard unlocked, a request for QUIESCE, and a routine on slice 0xFFE0FF, whose mode word is GUARD_STATUS. -/
def guardSliceState : State :=
  { [(Key.deviceMode, toWord Mode.service), (Key.modeRequest, statusWord Cmd.running .ok (Mode.service + 16 * Mode.quiesce)), (Key.guardStatus, 1),
      (Key.pretrainLimit, 0xFFFF)].foldl (fun s e => s.put e.1 e.2) State.reset with
    routine := some { slot := 0, code := 1, slices := [0xFFE0FF], dacs := [], tested := [], postCommit := false, failPath := false, held := [], point := 0 } }

theorem guardSliceState_request : guardSliceState.cmdBusy Key.modeRequest = true ∧ guardSliceState.entering = none ∧ guardSliceState.modeTarget = Mode.quiesce ∧
    guardSliceState.mode = Mode.service ∧ guardSliceState.unlocked = true := by decide +kernel

theorem guardSliceState_quiet : guardSliceState.lichenBusy = false ∧ (∀ u, u < 8 → guardSliceState.acqSt u ≠ 2) ∧ guardSliceState.guardHits = [] ∧
    (guardSliceState.get Key.pretrainLimit).toNat = 0xFFFF := by decide +kernel

/-- The routine is abandoned, its slice follows again, and GUARD_STATUS reads 0: nothing is raised. -/
theorem guardSliceState_change : (if guardSliceState.changeReady then guardSliceState.changeMode else guardSliceState).liveLocs = [] := by decide +kernel

end Sys2Proof.Machine

open Sys2Proof Sys2Proof.Machine

/-- Refutes O29: leaving SERVICE for QUIESCE abandons a routine, and nothing in the statement bounds the slices of a routine. Where one lies at GUARD_STATUS, the slice that
follows again (R349) writes 0 there, and the change ends with no condition live, FS081 among them. -/
theorem not_modeChangesComplete : ¬ Obligations.ModeChangesComplete := by
  unfold Obligations.ModeChangesComplete
  intro h
  obtain ⟨hbusy, hentering, htarget, hmode, hunlocked⟩ := guardSliceState_request
  obtain ⟨hlichen, hacq, hhits, hlimit⟩ := guardSliceState_quiet
  obtain ⟨-, hservice, -⟩ := h.1 guardSliceState hbusy hentering (by rw [htarget]; decide) (by rw [hmode]; decide) (by rw [htarget]; decide) (by rw [hmode]; decide)
    (fun _ => ⟨hlichen, hacq⟩) hhits hlimit
  obtain ⟨u, hexec, -, -⟩ := hservice hmode (by rw [htarget]; decide) hunlocked
  have hchange : exec .modeChangeDone guardSliceState = .next (if guardSliceState.changeReady then guardSliceState.changeMode else guardSliceState) := rfl
  rw [hchange] at hexec
  injection hexec with hstate
  have hlive := unlockLive_guardRaise (unlockLive_fault u)
  rw [State.unlockLive, ← hstate, guardSliceState_change] at hlive
  exact absurd hlive List.not_mem_nil
end

section
/-! Entering a mode that nothing has to stop for (R59, R244, R269): the outputs, the words of the mode, and nothing else. -/

namespace Sys2Proof.Machine

/-- `t` is `s` but for the objects of `ks`, the objects of the DACs (area 22), the levels of lanes, LBK and TRIGOUT, the messages that left the device, and what the entry
into a mode forgets. -/
structure Shown (ks : List Nat) (s t : State) : Prop where
  get : ∀ k, k ∉ ks → k < 0x22000000 ∨ 0x23000000 ≤ k → t.get k = s.get k
  rest : { t with
    objs := s.objs, subs := s.subs, slices := s.slices, laneBase := s.laneBase, lanes := s.lanes, lanePast := s.lanePast, guardHits := s.guardHits, out := s.out,
    msixPending := s.msixPending, trigoutActive := s.trigoutActive, trigoutHighZ := s.trigoutHighZ, calRan := s.calRan, entering := s.entering } = s

namespace Shown

theorem refl (ks : List Nat) (s : State) : Shown ks s s := ⟨fun _ _ _ => rfl, rfl⟩

theorem ite {ks : List Nat} {r s t : State} {c : Prop} [Decidable c] (h : Shown ks r s) (k : Shown ks r t) : Shown ks r (if c then s else t) := by split <;> assumption

theorem trans {ks : List Nat} {r s t : State} (h : Shown ks r s) (k : Shown ks s t) : Shown ks r t := by
  refine ⟨fun j hj ho => (k.get j hj ho).trans (h.get j hj ho), ?_⟩
  have hs := k.rest
  have hr := h.rest
  rw [← hs] at hr
  exact hr

variable {ks : List Nat} {r s : State} (h : Shown ks r s)
include h

theorem nvm : s.nvm = r.nvm := by have e := congrArg State.nvm h.rest; exact e
theorem ledger : s.ledger = r.ledger := by have e := congrArg State.ledger h.rest; exact e
theorem cells : s.cells = r.cells := by have e := congrArg State.cells h.rest; exact e

/-- Whatever a state forgets of those, its objects and the rest stand. -/
theorem of_eq {t : State} (hobjs : t.objs = s.objs := by rfl)
    (hrest : { t with
      objs := s.objs, subs := s.subs, slices := s.slices, laneBase := s.laneBase, lanes := s.lanes, lanePast := s.lanePast, guardHits := s.guardHits, out := s.out,
      msixPending := s.msixPending, trigoutActive := s.trigoutActive, trigoutHighZ := s.trigoutHighZ, calRan := s.calRan, entering := s.entering } = s := by rfl) :
    Shown ks r t := h.trans ⟨fun _ _ _ => by simp only [State.get, hobjs], hrest⟩

theorem put {k : Nat} (hk : k ∈ ks ∨ 0x22000000 ≤ k ∧ k < 0x23000000) (v : Word) : Shown ks r (s.put k v) := by
  refine h.trans ⟨fun j hj ho => s.get_put_other v ?_, rfl⟩
  rintro rfl
  rcases hk with hk | hk
  · exact hj hk
  · omega

theorem putF {k : Nat} (hk : k ∈ ks ∨ 0x22000000 ≤ k ∧ k < 0x23000000) (lo len v : Nat) : Shown ks r (s.putF k lo len v) := h.put hk _

theorem foldl {α : Type} {f : State → α → State} {l : List α} (hf : ∀ t, ∀ x ∈ l, Shown ks r t → Shown ks r (f t x)) : Shown ks r (l.foldl f s) :=
  List.foldlRecOn l f h (fun t ht x hx => hf t x hx ht)

theorem putSlice (n : Nat) (x : SliceSt) : Shown ks r (s.putSlice n x) := h.of_eq

theorem emit (o : Output) : Shown ks r (s.emit o) := h.of_eq

/-! ### Lanes and LBK -/

theorem setLane (g : Nat) (l : LaneLevel) : Shown ks r (s.setLane g l) := h.of_eq

theorem driveLane (g : Nat) (l : LaneLevel) : Shown ks r (s.driveLane g l) := by
  simp only [State.driveLane]
  exact ite (h.setLane _ _) (ite h.of_eq h.of_eq)

theorem driveFrom (before : State) (l : List (Nat × LaneLevel)) : Shown ks r (s.driveFrom before l) := h.foldl (fun _ _ _ ht => ite (ht.setLane _ _) (ht.driveLane _ _))

theorem allLanes (l : LaneLevel) : Shown ks r (s.allLanes l) :=
  foldl h.of_eq (fun _ _ _ ht => ht.of_eq)

theorem restLanes : Shown ks r s.restLanes := (h.allLanes .mid).driveFrom _ _

theorem restSlices (sls : List Nat) : Shown ks r (s.restSlices sls) := (h.foldl (fun _ _ _ ht => ht.foldl (fun _ _ _ hu => hu.setLane _ _))).driveFrom _ _

theorem setLbk (sls : List Nat) (l : LaneLevel) : Shown ks r (s.setLbk sls l) := h.foldl (fun _ _ _ ht => ht.putSlice _ _)

theorem stimulate (sls : List Nat) : Shown ks r (s.stimulate sls) := h.foldl (fun _ _ _ ht => ht.foldl (fun _ _ _ hu => hu.of_eq))

/-! ### TRIGOUTs and interrupts -/

theorem showTrigout (n : Nat) : Shown ks r (s.showTrigout n) := h.emit _

theorem stopTrigouts : Shown ks r s.stopTrigouts := foldl h.of_eq (fun _ _ _ ht => ht.showTrigout _)

theorem driveTrigouts : Shown ks r s.driveTrigouts := ite (foldl h.of_eq (fun _ _ _ ht => ht.showTrigout _)) h

theorem irq (e : Nat) : Shown ks r (s.irq e) := by
  simp only [State.irq, State.signal]
  exact ite h (ite (ite h h.of_eq) (h.emit _))

/-! ### DACs -/

theorem setDac {d : Nat} (hd : d < 64) (src code : Nat) : Shown ks r (s.setDac d src code) := by
  have hkeys : (0x22000000 ≤ Key.dacActive d ∧ Key.dacActive d < 0x23000000) ∧ 0x22000000 ≤ Key.dacStatus d ∧ Key.dacStatus d < 0x23000000 := by
    simp only [Key.dacActive, Key.dacStatus, mkKey]; omega
  exact (h.put (.inr hkeys.1) _).putF (.inr hkeys.2) 0 2 src

theorem parkDac {d : Nat} (hd : d < 64) : Shown ks r (s.parkDac d) := ite h (h.setDac hd _ _)

theorem parkDacs : Shown ks r s.parkDacs := h.foldl (fun _ _ hx ht => ht.parkDac (List.mem_range.1 hx))

theorem releaseDacs : Shown ks r s.releaseDacs := h.foldl (fun _ _ hx ht => ht.setDac (List.mem_range.1 hx) _ _)

/-! ### The entry -/

theorem modeOutputs (old : Nat) {m : Nat} (hm : m ≠ Mode.safe) : Shown ks r (s.modeOutputs old m) := by
  simp only [State.modeOutputs, if_neg hm]
  refine ite (ite h.restLanes h.restLanes.parkDacs) (ite h.restLanes (ite h (ite (ite h (h.restLanes.setLbk _ _).parkDacs) (ite ?_ h.restLanes.parkDacs))))
  exact ((h.setLbk _ _).stimulate _).parkDacs.driveTrigouts

end Shown

/-- A mode that is left without threads, slices or guard values to give back. -/
def leavesQuietly (m : Nat) : Prop := m ≠ Mode.burst ∧ m ≠ Mode.armed ∧ m ≠ Mode.diagnose ∧ m ≠ Mode.service ∧ m ≠ Mode.safe

/-- Leaving such a mode lowers LBK, where it is TRAIN, and nothing else. -/
theorem leaveMode_quietly {s : State} (h : leavesQuietly s.mode) (m : Nat) : s.leaveMode m = if s.mode = Mode.train then s.setLbk (List.range 32) .low else s := by
  obtain ⟨hburst, harmed, hdiagnose, hservice, -⟩ := h
  have hheld : s.heldArmed = false := by simp [State.heldArmed, hburst, harmed, hdiagnose]
  have hmode : (if s.mode = Mode.train then s.setLbk (List.range 32) .low else s).mode = s.mode := by
    split
    · exact congrArg BitVec.toNat (((Shown.refl [] s).setLbk _ _).get _ List.not_mem_nil (.inl (by decide)))
    · rfl
  simp only [State.leaveMode, if_neg hburst, hheld, Bool.false_and, Bool.false_eq_true, if_false, if_neg hdiagnose]
  generalize (if s.mode = Mode.train then s.setLbk (List.range 32) .low else s) = u at hmode ⊢
  rw [if_neg (by rw [hmode]; exact hservice)]

/-- An entry into a mode with no routine and no diagnostic run to end shows the outputs of the mode, and for QUIESCE stops the watchdog. -/
theorem enterMode_shown {s : State} {m : Nat} {ks : List Nat} (h : leavesQuietly s.mode) (hm : m ≠ Mode.safe ∧ m ≠ Mode.diagnose)
    (hroutine : gapless m = true → s.routine = none) (hdiag : m = Mode.quiesce → s.diag = none) (hkeys : Key.deviceMode ∈ ks ∧ Key.modeChanges ∈ ks)
    (hdog : m = Mode.quiesce → Key.wdogStatus ∈ ks) : Shown ks s (s.enterMode m) := by
  obtain ⟨hsafe, hdiagnose⟩ := hm
  delta State.enterMode
  extract_lets old s₁ s₂ s₃ s₄ s₅ s₆ s₇ s₈ s₉ s₁₀ ledger s₁₁
  have hgap : s₁ = s := by
    simp only [s₁]
    split
    · next hgap => rw [State.abandonRoutine, hroutine hgap]
    · rfl
  have hrun : s₂ = s := by
    simp only [s₂, hgap]
    split
    · next hq => rw [State.abortDiag, hdiag (hq.resolve_left hsafe)]
    · rfl
  have hleft : Shown ks s s₃ := by
    simp only [s₃, hrun, leaveMode_quietly h m]
    exact .ite ((Shown.refl ks s).setLbk _ _) (.refl ks s)
  clear_value s₃
  have hforgot : Shown ks s s₄ := hleft.of_eq
  clear_value s₄
  have hmode : Shown ks s s₅ := (hforgot.put (.inl hkeys.1) _).put (.inl hkeys.2) _
  clear_value s₅
  have hentered : Shown ks s s₆ := hmode.of_eq
  clear_value s₆
  have hlines : Shown ks s s₇ := .ite hentered.stopTrigouts hentered
  clear_value s₇
  have hwatch : Shown ks s s₈ := by
    simp only [s₈]
    split
    · next hq => exact hlines.putF (.inl (hdog hq)) _ _ _
    · exact hlines
  clear_value s₈
  have houtputs : Shown ks s s₉ := hwatch.modeOutputs old hsafe
  clear_value s₉
  have hplaced : s₁₀ = s₉ := if_neg hdiagnose
  have hcounted : s₁₁ = s₁₀ := if_neg hsafe
  rw [if_neg (by rintro (e | e); exacts [hsafe e, h.2.2.2.2 e]), hcounted, hplaced]
  exact houtputs

end Sys2Proof.Machine
end

section
/-! The load-time checks (R80, R82, R147; O30). -/

namespace Sys2Proof.Machine

/-! ## What a check run leaves alone -/

/-- The words of the areas 00 to 02 that are the only element of their object. -/
abbrev soleKey (k : Nat) : Prop := keyEl k = 0 ∧ k < 0x03000000

theorem not_soleKey_of_area {area obj el : Nat} (h : 3 ≤ area) : ¬ soleKey (mkKey area obj el) := by
  simp only [soleKey, mkKey]; omega

theorem not_soleKey_of_el {area obj el : Nat} (h : 0 < el) (h' : el < 0x100) : ¬ soleKey (mkKey area obj el) := by
  rw [soleKey, keyEl_mkKey _ _ h']; omega

/-- `t` is `s` but for threads, charges and locks: the words of `soleKey` are as they were, and no burst of DDR5 is poisoned or healed. -/
structure Sole (s t : State) : Prop where
  get : ∀ k, soleKey k → t.get k = s.get k
  poison : t.poison = s.poison

namespace Sole

theorem refl (s : State) : Sole s s := ⟨fun _ _ => rfl, rfl⟩

theorem trans {r s t : State} (h : Sole r s) (k : Sole s t) : Sole r t := ⟨fun j hj => (k.get j hj).trans (h.get j hj), k.poison.trans h.poison⟩

theorem ite {r s t : State} {c : Prop} [Decidable c] (h : Sole r s) (k : Sole r t) : Sole r (if c then s else t) := by split <;> assumption

variable {r s : State} (h : Sole r s)
include h

theorem of_eq {t : State} (hobjs : t.objs = s.objs := by rfl) (hpoison : t.poison = s.poison := by rfl) : Sole r t :=
  h.trans ⟨fun _ _ => by simp only [State.get, hobjs], hpoison⟩

theorem put {k : Nat} (hk : ¬ soleKey k) (v : Word) : Sole r (s.put k v) := h.trans ⟨fun _ hj => s.get_put_other v (fun e => hk (e ▸ hj)), rfl⟩

theorem putF {k : Nat} (hk : ¬ soleKey k) (lo len v : Nat) : Sole r (s.putF k lo len v) := h.put hk _

theorem foldl {α : Type} {f : State → α → State} {l : List α} (hf : ∀ t, ∀ x ∈ l, Sole r t → Sole r (f t x)) : Sole r (l.foldl f s) :=
  List.foldlRecOn l f h (fun t ht x hx => hf t x hx ht)

theorem putThread (n : Nat) (x : Thread) : Sole r (s.putThread n x) := h.of_eq
theorem putSlice (n : Nat) (x : SliceSt) : Sole r (s.putSlice n x) := h.of_eq

/-! ### Threads -/

theorem threadState (th lo len v : Nat) : Sole r (s.putF (Key.threadState th) lo len v) := h.putF (not_soleKey_of_el (by decide) (by decide)) _ _ _

theorem role (th : Nat) (v : Word) : Sole r (s.put (Key.role th) v) := h.put (not_soleKey_of_el (by decide) (by decide)) v

theorem unlockAll : Sole r s.unlockAll := h.foldl (fun _ _ _ ht => ite ht (ht.put (not_soleKey_of_el (by decide) (by decide)) _))

theorem disarm : Sole r s.disarm := by
  delta State.disarm
  extract_lets derived s₁ s₂ s₃
  have hthreads : Sole r s₁ := h.foldl (fun _ _ _ ht => ite (ht.putThread _ _) ((ht.putThread _ _).threadState _ _ _ _))
  clear_value s₁
  have hroles : Sole r s₂ := hthreads.foldl (fun _ _ _ ht => ht.role _ _)
  clear_value s₂
  have hshares : Sole r s₃ := hroles.foldl (fun _ _ _ ht => ht.putSlice _ _)
  exact hshares.unlockAll

omit h in
theorem derive (g : Nat) : ∀ (is free : List Nat) {t : State}, Sole r t → Sole r (t.derive g is free).1
  | [], _, _, ht => ht
  | _ :: _, [], _, ht => ht
  | _ :: is, _ :: free, _, ht => derive g is free ((ht.role _ _).putThread _ _)

theorem allocate : Sole r s.allocate := by
  delta State.allocate
  extract_lets ths split s₁ free
  have harmed : Sole r s₁ := h.foldl (fun _ _ _ ht => ht.putThread _ _)
  exact List.foldlRecOn (motive := fun (p : State × List Nat) => Sole r p.1) split _ harmed (fun p hp g _ => derive g _ _ hp)

theorem initDerived : Sole r s.initDerived := h.foldl (fun _ _ _ ht => ht.foldl (fun _ _ _ hu => hu.put (not_soleKey_of_el (by decide) (by decide)) _))

/-! ### The run -/

theorem dropCharges : Sole r (s.dropObjs chargeObject) := by
  refine h.foldl (fun t x hx ht => ht.put (fun hsole => ?_) _)
  have hcharge := (List.mem_filter.1 hx).2
  obtain ⟨hel, -⟩ := hsole
  simp [chargeObject, hel] at hcharge

theorem charges (ps : List Plan) : Sole r (s.charges ps) := by
  have hel : ∀ {area obj el : Nat}, 0 < el → el < 0x100 → ¬ soleKey (mkKey area obj el) := not_soleKey_of_el
  delta State.charges
  extract_lets s₀ s₁ s₂ s₃ s₄ s₅
  have hdrop : Sole r s₀ := h.dropCharges
  clear_value s₀
  have hplans : Sole r s₁ := hdrop.foldl (fun _ _ _ ht =>
    (((ht.put (hel (by decide) (by decide)) _).put (hel (by decide) (by decide)) _).put (hel (by decide) (by decide)) _).put (hel (by decide) (by decide)) _)
  clear_value s₁
  exact ((((hplans.put (by decide) _).put (by decide) _).put (by decide) _).put (by decide) _).put (by decide) _

theorem notePassed (ps : List Plan) : Sole r (s.notePassed ps) := by
  delta State.notePassed
  extract_lets priv s₁
  have hothers : Sole r s₁ := h.foldl (fun _ _ _ ht => ht.threadState _ _ _ _)
  clear_value s₁
  exact hothers.foldl (fun _ _ _ ht => (ht.putThread _ _).threadState _ _ _ _)

theorem notePages (ps : List Plan) : Sole r (s.notePages ps) := h.of_eq

end Sole

/-! ## The verdict (R82) -/

/-- The lowest field of a record reads what was packed there, whatever stands above it. -/
theorem field_packFields_head {len v : Nat} (r : List (Nat × Nat × Nat)) (hlen : len ≤ 64) (hr : 2 ^ len ∣ packFields r) :
    field (toWord (packFields ((0, len, v) :: r))) 0 len = v % 2 ^ len := by
  obtain ⟨q, hq⟩ := hr
  rw [field, toWord_toNat, Nat.shiftRight_zero, Nat.mod_mod_of_dvd _ (Nat.pow_dvd_pow 2 hlen), packFields, hq, Nat.pow_zero, Nat.mul_one, Nat.add_mul_mod_self_left, Nat.mod_mod]

theorem loadWord_state (o : Option Fail) : field (toWord (loadWord o)) 0 3 = if o = none then 2 else 3 := by
  cases o with
  | none => decide
  | some f =>
    rw [loadWord, field_packFields_head _ (by decide)]
    · rfl
    · simp only [packFields]
      omega

/-- One failure or more, and one of them is reported. -/
theorem firstFail_ne_none {l : List Fail} (h : l ≠ []) : firstFail l ≠ none := by
  cases l with
  | nil => exact absurd rfl h
  | cons f r =>
    rw [firstFail]
    split
    · exact Option.some_ne_none _
    · split <;> exact Option.some_ne_none _

theorem reported_eq_none_iff (l : List Fail) : reported l = none ↔ l = [] := by
  cases l with
  | nil => exact ⟨fun _ => rfl, fun _ => rfl⟩
  | cons f r =>
    have hmem : (f :: r).filter (fun x => x.check == f.check) ≠ [] := by simp
    refine ⟨fun h => absurd h (firstFail_ne_none hmem), fun h => absurd h (List.cons_ne_nil _ _)⟩

/-- The words of the verdict stand above LOAD_CHECK and the words of the modes. -/
theorem loadResult_get (s : State) (l : List Fail) {k : Nat} (hk : k < Key.loadStatus) : (s.loadResult l).get k = s.get k := by
  have hkeys : Key.loadStatus < Key.loadFailMask ∧ Key.loadStatus < Key.loadRow ∧ Key.loadStatus < Key.loadDetail := by decide
  simp only [State.loadResult]
  rw [State.get_put_other _ _ (by omega), State.get_put_other _ _ (by omega), State.get_put_other _ _ (by omega), State.get_put_other _ _ (by omega)]

theorem loadResult_status (s : State) (l : List Fail) : (s.loadResult l).getF Key.loadStatus 0 3 = if l = [] then 2 else 3 := by
  simp only [State.loadResult, State.getF_eq]
  rw [State.get_put_other _ _ (by decide), State.get_put_other _ _ (by decide), State.get_put_other _ _ (by decide), State.get_put_same, loadWord_state]
  simp only [reported_eq_none_iff]

theorem loadResult_poison (s : State) (l : List Fail) : (s.loadResult l).poison = s.poison := by
  simp only [State.loadResult, State.put_poison]

/-- With nothing poisoned no check reads an error. -/
theorem poisonReads_of_poison_nil {s : State} (h : s.poison = []) (ps : List Plan) : s.poisonReads ps = s := by
  have hnone : ps.flatMap (fun _ => ([] : List Nat)) = [] := List.flatMap_eq_nil_iff.2 (fun _ _ => rfl)
  simp only [State.poisonReads, h, List.find?_nil, List.filterMap_none, hnone, List.eraseDups_nil, List.foldl_nil]

/-- The verdict of a run (R82): what failed decides LOAD_STATUS, and words below it are as they were. -/
structure Verdict (s t : State) (fails : List Fail) : Prop where
  get : ∀ k, soleKey k → k < Key.loadStatus → t.get k = s.get k
  status : t.getF Key.loadStatus 0 3 = if fails = [] then 2 else 3

theorem Verdict.of_sole {s t u : State} {l : List Fail} (h : Verdict s t l) (hu : Sole t u) : Verdict s u l :=
  ⟨fun k hk hlow => (hu.get k hk).trans (h.get k hk hlow), by rw [State.getF_eq, hu.get _ (by decide), ← State.getF_eq, h.status]⟩

theorem runChecks_verdict {s : State} (h : s.poison = []) :
    Verdict s s.runChecks.1 (s.allFails s.plans s.shortGroup) ∧ s.runChecks.2 = (s.allFails s.plans s.shortGroup).isEmpty := by
  have hcharges : Sole s (s.charges s.plans) := (Sole.refl s).charges _
  delta State.runChecks
  extract_lets ps l t
  have hresult : t = (s.charges ps).loadResult l := poisonReads_of_poison_nil (by rw [loadResult_poison, hcharges.poison, h]) ps
  have hverdict : Verdict s t l := by
    rw [hresult]
    exact ⟨fun k hk hlow => (loadResult_get _ _ hlow).trans (hcharges.get k hk), loadResult_status _ _⟩
  clear_value t
  show Verdict s (if l.isEmpty = true then _ else _ : State × Bool).1 l ∧ (if l.isEmpty = true then _ else _ : State × Bool).2 = l.isEmpty
  split
  · next hl => exact ⟨hverdict.of_sole (((Sole.refl t).notePages ps).notePassed ps), hl.symm⟩
  · next hl => exact ⟨hverdict, (Bool.eq_false_iff.2 hl).symm⟩

/-! ## LOAD_CHECK -/

/-- A check run that LOAD_CHECK asks for, outside a request for ARMED (R80). -/
theorem exec_loadChecksDone_load {s : State} (hrunning : s.cmdState Key.loadCheck = Cmd.running) (harming : s.arming = false) :
    exec .loadChecksDone s = .next (if s.allocate.runChecks.2 then s.allocate.runChecks.1.disarm.cmdDone Key.loadCheck 0
      else s.allocate.runChecks.1.disarm.cmdFail Key.loadCheck .loadRefused 0) := by
  have hexec : exec .loadChecksDone s = execLoadChecksDone s := rfl
  rw [hexec, execLoadChecksDone, if_pos hrunning]
  simp only [State.loadChecked, harming, Bool.false_eq_true, if_false]

/-- A check run of a request for ARMED (R147). -/
theorem exec_loadChecksDone_arm {s : State} (hnot : s.cmdState Key.loadCheck ≠ Cmd.running) (harming : s.arming = true) : exec .loadChecksDone s = .next s.armChecked := by
  have hexec : exec .loadChecksDone s = execLoadChecksDone s := rfl
  rw [hexec, execLoadChecksDone, if_neg hnot, harming, if_pos rfl]

/-- A word of a finished command beside it leaves LOAD_STATUS and the mode of a verdict. -/
theorem Verdict.word {s t : State} {l : List Fail} (h : Verdict s t l) {k : Nat} (hk : k = Key.loadCheck ∨ k = Key.modeRequest) (v : Word) :
    (t.put k v).mode = s.mode ∧ (t.put k v).getF Key.loadStatus 0 3 = if l = [] then 2 else 3 := by
  have hne : k ≠ Key.deviceMode ∧ k ≠ Key.loadStatus := by rcases hk with rfl | rfl <;> decide
  refine ⟨congrArg BitVec.toNat ((State.get_put_other _ _ hne.1).trans (h.get _ (by decide) (by decide))), ?_⟩
  rw [State.getF_eq, State.get_put_other _ _ hne.2, ← State.getF_eq, h.status]

/-! ## ARMED (R59, R93, R98) -/

/-- The state in which the shares are fixed: parked slices freed, ARMED entered, the derived threads' slots initialised. -/
def State.armedEntry (s : State) : State :=
  (((List.range 32).foldl (fun t sl => if (t.slice sl).parked then t.putSlice sl { t.slice sl with parked := false } else t) s).enterMode Mode.armed).initDerived

/-- Out of IDLE or LOAD it reads ARMED, and every other word as it was. -/
theorem armedEntry_spec {s : State} (hmode : s.mode = Mode.idle ∨ s.mode = Mode.load) :
    s.armedEntry.mode = Mode.armed ∧ ∀ k, soleKey k → k ≠ Key.deviceMode → k ≠ Key.modeChanges → s.armedEntry.get k = s.get k := by
  have hfreed : Shown [] s
      ((List.range 32).foldl (fun t sl => if (t.slice sl).parked then t.putSlice sl { t.slice sl with parked := false } else t) s) :=
    (Shown.refl _ s).foldl (fun _ _ _ ht => .ite (ht.putSlice _ _) ht)
  rw [State.armedEntry]
  generalize (List.range 32).foldl (fun t sl => if (t.slice sl).parked then t.putSlice sl { t.slice sl with parked := false } else t) s = t at hfreed ⊢
  have hquiet : leavesQuietly t.mode := by
    rw [mode_of_get (hfreed.get _ List.not_mem_nil (.inl (by decide)))]
    rcases hmode with h | h <;> rw [h] <;> unfold leavesQuietly <;> decide
  have hentered : Shown [Key.deviceMode, Key.modeChanges] t (t.enterMode Mode.armed) :=
    enterMode_shown hquiet (by decide) (absurd · (by decide)) (absurd · (by decide)) (by decide) (absurd · (by decide))
  have hslots : Sole (t.enterMode Mode.armed) (t.enterMode Mode.armed).initDerived := (Sole.refl _).initDerived
  have hmode' := (enterMode_entered t Mode.armed).mode
  refine ⟨?_, fun k hk hmode hchanges => ?_⟩
  · rw [State.mode, hslots.get _ (by decide), hmode']
    rfl
  · have hlow : k < 0x22000000 ∨ 0x23000000 ≤ k := .inl (lt_trans hk.2 (by decide))
    have hks : k ∉ [Key.deviceMode, Key.modeChanges] := by simp [hmode, hchanges]
    rw [hslots.get k hk, hentered.get k hks hlow, hfreed.get k List.not_mem_nil hlow]

theorem enterArmed_eq (s : State) : s.enterArmed =
    (({ s.armedEntry.setShares.primeAll with mapChanged := false }.armStrobe.1.finishRequest).collect { s.armedEntry.setShares.primeAll with mapChanged := false }.armStrobe.2).guardRaise := rfl

end Sys2Proof.Machine

open Sys2Proof Sys2Proof.Machine

/-- Settles O30: a run of the checks leaves a verdict in LOAD_STATUS and every word below it as it was; releasing the threads, or entering ARMED, keeps both. -/
theorem loadChecksDecide : Obligations.LoadChecksDecide := by
  unfold Obligations.LoadChecksDecide
  refine fun s p => ⟨fun hserves hmode hbusy => ?_, fun hrunning harming hpoison => ?_, fun hnot harming hpoison => ?_⟩
  · have hcmd : (fun t : State => t.cmdLoadCheck 0) s = (.ok, s.checksRunning.cmdRun Key.loadCheck 0) := by
      simp [State.cmdLoadCheck, hmode, hbusy, refuse]
    have hstatus : (s.checksRunning.cmdRun Key.loadCheck 0).getF Key.loadStatus 0 3 = 1 := by
      rw [State.getF_eq, State.cmdRun, State.get_put_other _ _ (by decide), State.checksRunning, State.get_put_same]
      decide
    refine ⟨_, congrArg Host.Outcome.next (access_ok hserves 0 Key.loadCheck hcmd), respond_answered _ _ _ _, (respond_cmdState ..).trans (cmdState_cmdRun _ _ _), ?_,
      onlyObjects_respond (onlyObjects_put (onlyObjects_put (onlyObjects_refl s _) (by decide) _) (by decide) _) _ _ _ _⟩
    rw [State.getF_eq, respond_get, ← State.getF_eq, hstatus]
  · have hallocate : Sole s s.allocate := (Sole.refl s).allocate
    obtain ⟨hrun, hpassed⟩ := runChecks_verdict (s := s.allocate) (hallocate.poison.trans hpoison)
    have hverdict := hrun.of_sole ((Sole.refl _).disarm)
    have hmode : s.allocate.mode = s.mode := congrArg BitVec.toNat (hallocate.get _ (by decide))
    obtain ⟨hkept, hword⟩ := hverdict.word (.inl rfl) (statusWord Cmd.done .ok 0)
    obtain ⟨hkept', hword'⟩ := hverdict.word (.inl rfl) (statusWord Cmd.failed .loadRefused 0)
    refine ⟨_, exec_loadChecksDone_load hrunning harming, ?_, fun hnone => ?_, fun hsome => ?_⟩
    · split
      · exact hkept.trans hmode
      · exact hkept'.trans hmode
    · rw [if_pos (by rw [hpassed, hnone]; rfl)]
      exact ⟨cmdState_cmdDone _ _ _, hword.trans (if_pos hnone)⟩
    · rw [if_neg (by rw [hpassed, List.isEmpty_iff]; exact hsome)]
      refine ⟨cmdState_cmdFail _ _ _ _, ?_, hword'.trans (if_neg hsome)⟩
      rw [State.getF_eq, State.cmdFail, State.get_put_same, statusWord_code]
  · obtain ⟨hrun, hpassed⟩ := runChecks_verdict hpoison
    have hmode : s.mode = Mode.idle ∨ s.mode = Mode.load := by
      simpa [State.arming] using (Bool.and_eq_true_iff.1 harming).2
    have hbusy : s.cmdBusy Key.modeRequest = true := by
      simp only [State.arming, Bool.and_eq_true] at harming
      exact harming.1.1
    refine ⟨fun hnone => ?_, fun hsome => ?_⟩
    · have hchecked : s.armChecked = s.runChecks.1.enterArmed := by
        rw [State.armChecked, if_pos (by rw [hpassed, hnone]; rfl)]
      have hleft : s.runChecks.1.mode = s.mode := congrArg BitVec.toNat (hrun.get _ (by decide) (by decide))
      obtain ⟨harmed, hget⟩ := armedEntry_spec (s := s.runChecks.1) (by rw [hleft]; exact hmode)
      refine ⟨s.runChecks.1.armedEntry, _, (exec_loadChecksDone_arm hnot harming).trans (by rw [hchecked, enterArmed_eq]), rfl, harmed, ?_, ?_⟩
      · rw [cmdBusy_of_get ((hget _ (by decide) (by decide) (by decide)).trans (hrun.get _ (by decide) (by decide))), hbusy]
      · rw [State.getF_eq, hget _ (by decide) (by decide) (by decide), ← State.getF_eq, hrun.status, if_pos hnone]
    · have hchecked : s.armChecked = ((s.runChecks.1.disarm).cmdFail Key.modeRequest .loadRefused (s.runChecks.1.getF Key.modeRequest 16 16)).irq Irq.mode := by
        rw [State.armChecked, if_neg (by rw [hpassed, List.isEmpty_iff]; exact hsome)]
      obtain ⟨hkept, hword⟩ := (hrun.of_sole ((Sole.refl _).disarm)).word (.inr rfl) (statusWord Cmd.failed .loadRefused (s.runChecks.1.getF Key.modeRequest 16 16))
      refine ⟨_, (exec_loadChecksDone_arm hnot harming).trans (congrArg Host.Outcome.next hchecked), ?_, ?_, ?_, ?_⟩
      · exact (mode_of_get (irq_get _ _ _)).trans hkept
      · exact (cmdState_of_get (irq_get _ _ _)).trans (cmdState_cmdFail _ _ _ _)
      · rw [State.getF_eq, irq_get, State.cmdFail, State.get_put_same, statusWord_code]
      · rw [State.getF_eq, irq_get, ← State.getF_eq]
        exact hword.trans (if_neg hsome)
end

section
/-! Slice DIAGNOSE and diagnostic runs (R65-R67, R195-R199; O31). -/

namespace Sys2Proof.Machine

/-! ## Lanes hold no object -/

theorem driveLane_objs (s : State) (g : Nat) (l : LaneLevel) : (s.driveLane g l).objs = s.objs := by
  simp only [State.driveLane]
  split_ifs <;> rfl

theorem driveSlices_objs (s : State) (sls : List Nat) (l : LaneLevel) : (s.driveSlices sls l).objs = s.objs :=
  List.foldlRecOn (motive := fun t : State => t.objs = s.objs) _ _ rfl (fun _ ht _ _ =>
    List.foldlRecOn (motive := fun t : State => t.objs = s.objs) _ _ ht (fun _ hu _ _ => (driveLane_objs _ _ _).trans hu))

theorem restSlices_objs (s : State) (sls : List Nat) : (s.restSlices sls).objs = s.objs := by
  refine List.foldlRecOn (motive := fun t : State => t.objs = s.objs) _ _ ?_ (fun u hu x _ => ?_)
  · exact List.foldlRecOn (motive := fun t : State => t.objs = s.objs) _ _ rfl (fun _ ht _ _ => List.foldlRecOn (motive := fun t : State => t.objs = s.objs) _ _ ht (fun _ hu _ _ => hu))
  · show (if _ then _ else _ : State).objs = _
    split
    · exact hu
    · exact (driveLane_objs _ _ _).trans hu

theorem setLbk_objs (s : State) (sls : List Nat) (l : LaneLevel) : (s.setLbk sls l).objs = s.objs :=
  List.foldlRecOn (motive := fun t : State => t.objs = s.objs) _ _ rfl (fun _ ht _ _ => ht)

/-! ## SLICE_DIAG_REQUEST (R65-R67) -/

theorem sliceMode_inj {a b : Nat} : Key.sliceMode a = Key.sliceMode b ↔ a = b := by simp only [Key.sliceMode, mkKey]; omega

/-- The mode words lie in area 01. -/
theorem sliceMode_lt {sl : Nat} (hsl : sl < 32) : Key.sliceMode sl < 0x01002100 := by simp only [Key.sliceMode, mkKey]; omega

theorem sliceMode_gt (sl : Nat) : Key.deviceMode < Key.sliceMode sl := by simp only [Key.sliceMode, Key.deviceMode, mkKey]; omega

theorem sliceFollow_get (s : State) (sl k : Nat) : (s.sliceFollow sl).get k = if Key.sliceMode sl = k then (if s.sliceDead sl then 3 else 0) else s.get k := by
  have hdead : (s.putSlice sl { s.slice sl with diagPlaced := false }).sliceDead sl = s.sliceDead sl := by
    simp only [State.sliceDead, State.slice_putSlice, if_true]
    rfl
  simp only [State.sliceFollow, State.get_put, hdead]
  rfl

/-- A slice that follows again stays dead or alive, as do the others: its lanes and its PLL are as they were. -/
theorem sliceFollow_sliceDead (s : State) {sl : Nat} (hsl : sl < 32) (i : Nat) : (s.sliceFollow sl).sliceDead i = s.sliceDead i := by
  have hpll : ((s.sliceFollow sl).slice i).pllLocked = (s.slice i).pllLocked := by
    simp only [State.sliceFollow, State.put_slice, State.slice_putSlice]
    split
    · next e => rw [e]
    · rfl
  have hlanes : ∀ g, (s.sliceFollow sl).laneState g = s.laneState g := fun g => by
    have hkey : Key.sliceMode sl ≠ Key.laneStatus g := by
      have := sliceMode_lt hsl
      simp only [Key.laneStatus, mkKey]
      omega
    simp only [State.laneState, State.getF_eq, sliceFollow_get, if_neg hkey]
  simp only [State.sliceDead, hpll, hlanes]

/-- Slices that follow again read FOLLOW, or DISABLED where they are dead. -/
theorem followAll_get {l : List Nat} : ∀ (s : State), (∀ sl ∈ l, sl < 32) →
    (∀ sl ∈ l, (l.foldl (fun t sl => t.sliceFollow sl) s).sliceModeOf sl = if s.sliceDead sl then 3 else 0) ∧
    ∀ k, (∀ sl ∈ l, Key.sliceMode sl ≠ k) → (l.foldl (fun t sl => t.sliceFollow sl) s).get k = s.get k := by
  induction l with
  | nil => exact fun _ _ => ⟨fun _ h => absurd h List.not_mem_nil, fun _ _ => rfl⟩
  | cons x l ih =>
    intro s hl
    obtain ⟨hx, hl⟩ := List.forall_mem_cons.1 hl
    obtain ⟨hmodes, hothers⟩ := ih (s.sliceFollow x) hl
    rw [List.foldl_cons]
    refine ⟨fun sl hsl => ?_, fun k hk => ?_⟩
    · by_cases hin : sl ∈ l
      · rw [hmodes sl hin, sliceFollow_sliceDead s hx]
      · have hsl : sl = x := (List.mem_cons.1 hsl).resolve_right hin
        rw [State.sliceModeOf, hothers _ (fun y hy e => hin (by rw [← sliceMode_inj.1 e]; exact hy)), sliceFollow_get, hsl, if_pos rfl]
        split <;> rfl
    · obtain ⟨hkx, hkl⟩ := List.forall_mem_cons.1 hk
      rw [hothers k hkl, sliceFollow_get, if_neg hkx]

/-- Slices that are placed in DIAGNOSE. -/
theorem placeAll_get {l : List Nat} : ∀ (s : State) (k : Nat),
    (l.foldl (fun t sl => t.put (Key.sliceMode sl) 2) s).get k = if ∃ sl ∈ l, Key.sliceMode sl = k then 2 else s.get k := by
  induction l with
  | nil => exact fun s k => (if_neg (by simp)).symm
  | cons x l ih =>
    intro s k
    rw [List.foldl_cons, ih, State.get_put]
    by_cases hl : ∃ sl ∈ l, Key.sliceMode sl = k
    · rw [if_pos hl, if_pos (by obtain ⟨sl, hin, e⟩ := hl; exact ⟨sl, List.mem_cons_of_mem _ hin, e⟩)]
    · rw [if_neg hl]
      by_cases hx : Key.sliceMode x = k
      · rw [if_pos hx, if_pos ⟨x, List.mem_cons_self, hx⟩]
      · rw [if_neg hx, if_neg]
        rintro ⟨sl, hin, e⟩
        rcases List.mem_cons.1 hin with rfl | hin
        · exact hx e
        · exact hl ⟨sl, hin, e⟩

theorem followAll_guardHits (s : State) (l : List Nat) : (l.foldl (fun t sl => t.sliceFollow sl) s).guardHits = s.guardHits :=
  List.foldlRecOn (motive := fun t : State => t.guardHits = s.guardHits) l _ rfl (fun _ ht _ _ => ht)

theorem placeAll_guardHits (s : State) (l : List Nat) : (l.foldl (fun t sl => t.put (Key.sliceMode sl) 2) s).guardHits = s.guardHits :=
  List.foldlRecOn (motive := fun t : State => t.guardHits = s.guardHits) l _ rfl (fun _ ht _ _ => ht)

/-- Where nothing was suppressed there is nothing to raise (R386). -/
theorem guardRaise_of_guardHits_nil {s : State} (h : s.guardHits = []) : s.guardRaise = s := by simp [State.guardRaise, h]

/-- The slices that a request returns to FOLLOW. -/
def State.diagBack (s : State) (named : List Nat) : List Nat := (List.range 32).filter (fun sl => s.sliceModeOf sl == 2 && !named.contains sl)

/-- With no routine, no run and no limit on lane changes (R386) the request changes mode words and lanes. -/
theorem applySliceDiag_get {s : State} {named : List Nat} (hnamed : ∀ sl ∈ named, sl < 32) (hroutine : s.routine = none) (hdiag : s.diag = none) (hhits : s.guardHits = [])
    (hlimit : (s.get Key.pretrainLimit).toNat = 0xFFFF) (k : Nat) :
    (s.applySliceDiag named).get k =
      if ∃ sl ∈ named, Key.sliceMode sl = k then 2 else ((s.diagBack named).foldl (fun t sl => t.sliceFollow sl) s).get k := by
  have hback : ∀ sl ∈ s.diagBack named, sl < 32 := fun sl h => List.mem_range.1 (List.mem_filter.1 h).1
  delta State.applySliceDiag
  extract_lets back s₁ s₂ fresh
  have hs₁ : s₁ = (s.diagBack named).foldl (fun t sl => t.sliceFollow sl) s := by simp only [s₁, State.abortDiagOn, hdiag]; rfl
  have hhits₁ : s₁.guardHits = [] := by rw [hs₁, followAll_guardHits, hhits]
  have hroutine₁ : s₁.routine = none := by
    rw [hs₁]
    exact List.foldlRecOn (motive := fun t : State => t.routine = none) _ _ hroutine (fun _ ht _ _ => ht)
  have hs₂ : s₂ = s₁ := by simp only [s₂, State.abandonOn, hroutine₁]
  have hlow : ∀ sl, sl < 32 → Key.sliceMode sl ≠ Key.pretrainLimit := fun sl h e => absurd (sliceMode_lt h) (by rw [e]; decide)
  have hlimit₁ : (s₂.get Key.pretrainLimit).toNat = 0xFFFF := by
    rw [hs₂, hs₁, (followAll_get s hback).2 _ (fun sl h => hlow sl (hback sl h)), hlimit]
  have hfresh : ∀ sl ∈ fresh, sl ∈ named := fun sl h => (List.mem_filter.1 h).1
  have hplaced : ∀ k, (fresh.foldl (fun t sl => t.put (Key.sliceMode sl) 2) s₂).get k = if ∃ sl ∈ named, Key.sliceMode sl = k then 2 else s₂.get k := by
    intro k
    rw [placeAll_get]
    by_cases hin : ∃ sl ∈ fresh, Key.sliceMode sl = k
    · rw [if_pos hin, if_pos (by obtain ⟨sl, h, e⟩ := hin; exact ⟨sl, hfresh sl h, e⟩)]
    · rw [if_neg hin]
      split
      · next hnamed =>
        obtain ⟨sl, h, e⟩ := hnamed
        have hnot : ¬ (s₂.sliceModeOf sl != 2) = true := fun hne => hin ⟨sl, List.mem_filter.2 ⟨h, hne⟩, e⟩
        have htwo : (s₂.get k).toNat = 2 := by rw [← e]; simpa [State.sliceModeOf] using hnot
        exact BitVec.eq_of_toNat_eq htwo
      · rfl
  have hhits₂ : (fresh.foldl (fun t sl => t.put (Key.sliceMode sl) 2) s₂).guardHits = [] := by rw [placeAll_guardHits, hs₂, hhits₁]
  have hlimit₂ : ((fresh.foldl (fun t sl => t.put (Key.sliceMode sl) 2) s₂).get Key.pretrainLimit).toNat = 0xFFFF := by
    rw [hplaced, if_neg (by rintro ⟨sl, h, e⟩; exact hlow sl (hnamed sl h) e), hlimit₁]
  generalize fresh.foldl (fun t sl => t.put (Key.sliceMode sl) 2) s₂ = u at hplaced hhits₂ hlimit₂ ⊢
  have hrest : (u.restSlices (back ++ fresh)).guardHits = [] := (((Calm.refl u).restSlices _).hits hlimit₂).trans hhits₂
  rw [guardRaise_of_guardHits_nil hrest, State.get, restSlices_objs, ← State.get, hplaced, hs₂, hs₁]

theorem mem_bitsOf_lt {n v i : Nat} (h : i ∈ bitsOf n v) : i < n := List.mem_range.1 (List.mem_filter.1 h).1

/-! ## DIAG_START (R195-R197) -/

/-- No raise, no action (R376). -/
theorem collect_nil (s : State) : s.collect [] = s := rfl

/-- The channels of the run's port may be driven. -/
def State.drivesFreely (s : State) : Prop := ∀ x ∈ s.diagPortChannels, s.permits x.2.2 = true

theorem drivesFreely_of_objs {s t : State} (h : t.objs = s.objs) (hs : s.drivesFreely) : t.drivesFreely := by
  have hget : ∀ k, t.get k = s.get k := fun k => by simp only [State.get, h]
  have hchannels : t.diagPortChannels = s.diagPortChannels := by simp only [State.diagPortChannels, State.channels, State.diagPortOf, hget]
  intro x hx
  rw [hchannels] at hx
  have hx := hs x hx
  simpa only [State.permits, State.mapBit, hget] using hx

/-- The events of a cycle on channels that may be driven. -/
theorem loopEvents_spec {s : State} (tu : Nat) (ev : List (Nat × Nat × LaneLevel)) (h : ∀ e ∈ ev, s.permits e.1 = true) :
    let one := ev.foldl (fun acc e => let n := acc.1.loopEvent e.1 (tu + e.2.1) e.2.2; (n.1, acc.2 ++ n.2)) (s, ([] : List Raise))
    one.2 = [] ∧ one.1.objs = s.objs ∧ Shown [] s one.1 := by
  refine List.foldlRecOn (motive := fun acc : State × List Raise => acc.2 = [] ∧ acc.1.objs = s.objs ∧ Shown [] s acc.1) ev _ ⟨rfl, rfl, .refl _ _⟩ (fun acc hacc e he => ?_)
  obtain ⟨hraises, hobjs, hshown⟩ := hacc
  have hpermits : acc.1.permits e.1 = true := by
    have he := h e he
    simpa only [State.permits, State.mapBit, State.get, hobjs] using he
  simp only [State.loopEvent, hpermits, Bool.not_true, Bool.false_and, Bool.false_eq_true, if_false, List.append_nil]
  exact ⟨hraises, hobjs, hshown.emit _⟩

/-- A replay of the loop on channels that may be driven raises nothing. -/
theorem replayLoop_spec (rows : List Nat) : ∀ {s : State} (tu : Nat), s.drivesFreely → (s.replayLoop rows tu).2 = [] ∧ Shown [] s (s.replayLoop rows tu).1 := by
  induction rows with
  | nil => exact fun _ _ => ⟨rfl, .refl _ _⟩
  | cons row r ih =>
    intro s tu h
    have hfree : ∀ e ∈ s.diagPortChannels.flatMap (fun x =>
        (s.driveEvents x.2.2 (s.rowTs s.diagThread row) (s.symbol s.diagThread s.diagPortOf row x.2.1)).map (fun e => (x.2.2, e))), s.permits e.1 = true := by
      intro e he
      obtain ⟨x, hx, he⟩ := List.mem_flatMap.1 he
      obtain ⟨y, -, rfl⟩ := List.mem_map.1 he
      exact h x hx
    obtain ⟨hraises, hobjs, hshown⟩ := loopEvents_spec tu _ hfree
    obtain ⟨hrest, hshownRest⟩ := ih (tu + s.rowPeriod s.diagThread row) (drivesFreely_of_objs hobjs h)
    rw [State.replayLoop]
    exact ⟨List.append_eq_nil_iff.2 ⟨hraises, hrest⟩, hshown.trans hshownRest⟩

theorem driveSlices_shown (s : State) (sls : List Nat) (l : LaneLevel) : Shown [] s (s.driveSlices sls l) :=
  (Shown.refl [] s).foldl (fun _ _ _ ht => ht.foldl (fun _ _ _ hu => hu.driveLane _ _))

/-- The lanes of a run: nothing is raised where its channels may be driven. -/
theorem driveDiag_spec {s : State} (r : DiagRun) (h : r.kind ≠ 0 → s.drivesFreely) : (s.driveDiag r).2 = [] ∧ Shown [] s (s.driveDiag r).1 := by
  simp only [State.driveDiag]
  split
  · exact ⟨rfl, (Shown.refl [] s).stimulate _⟩
  · next hkind =>
    obtain ⟨hraises, hshown⟩ := replayLoop_spec s.diagRowList 0 (drivesFreely_of_objs (driveSlices_objs s r.slices .mid) (h hkind))
    refine ⟨hraises, ((driveSlices_shown s r.slices .mid).trans hshown).foldl (fun _ _ _ ht => ht.of_eq)⟩

/-- The configured run (R195), as a start outside IDLE finds it; the code that a SHMOO gives back is known at the start. -/
def State.diagConfigured (s : State) (shmooDac : Option (Nat × Word)) : DiagRun :=
  { kind := s.diagKind, slices := s.diagSliceList, channels := s.diagChannels, lbk := s.diagLbk, dacs := [], shmooDac := shmooDac, points := s.diagPoints,
    loopTu := s.diagLoop, startRaw := s.raw, cycles := s.loopCycles, code := 0 }

/-- What a start does to the words that say which channels the loop drives. -/
theorem drivesFreely_of_get {s t : State} (hchannels : ∀ g ∈ s.diagChannels, s.permits g = true) (hkind : s.diagKind ≠ 0)
    (hget : ∀ k, keyEl k ≠ 0 → keyEl k ≠ 2 ∨ k < 0x03000000 → t.get k = s.get k) (hport : t.get Key.diagPort = s.get Key.diagPort) : t.drivesFreely := by
  have hmap : ∀ e, e < 16 → ∀ o, t.get (Key.channelMap o e) = s.get (Key.channelMap o e) := fun e he o => by
    have hel : keyEl (Key.channelMap o e) = 4 + e := keyEl_mkKey _ _ (by omega)
    exact hget _ (by omega) (.inl (by omega))
  have hlist : t.channels t.diagPortOf = s.diagChannels := by
    rw [State.diagChannels, if_neg hkind, State.diagPortOf, State.diagPortOf, hport]
    simp only [State.channels]
    exact List.flatMap_congr (fun e he => by rw [hmap e (List.mem_range.1 he)])
  intro x hx
  obtain ⟨k, ch, hin, rfl⟩ : ∃ k ch, ch ∈ t.channels t.diagPortOf ∧ x = (t.diagPortOf, k, ch) := by
    rw [State.diagPortChannels, List.mem_mapIdx] at hx
    obtain ⟨i, hi, rfl⟩ := hx
    exact ⟨i, _, List.getElem_mem hi, rfl⟩
  have hlow : ch / 64 < 16 := by
    rw [State.channels, List.mem_flatMap] at hin
    obtain ⟨e, he, hin⟩ := hin
    obtain ⟨i, hi, rfl⟩ := List.mem_map.1 hin
    have := List.mem_range.1 he
    have := mem_bitsOf_lt hi
    omega
  have hpermit : t.get (Key.drivePermit (ch / 64)) = s.get (Key.drivePermit (ch / 64)) := by
    have hel : keyEl (Key.drivePermit (ch / 64)) = 1 + ch / 64 := keyEl_mkKey _ _ (by omega)
    exact hget _ (by omega) (.inr (by simp only [Key.drivePermit, mkKey]; omega))
  have hs := hchannels ch (hlist ▸ hin)
  simpa only [State.permits, State.mapBit, hpermit] using hs

/-- A start outside IDLE on channels that may be driven: the run is under way and no result stands. -/
theorem startDiag_spec {s : State} (hmode : s.mode ≠ Mode.idle) (hchannels : ∀ g ∈ s.diagChannels, s.permits g = true) :
    ∃ (t : State) (x : Option (Nat × Word)), s.startDiag = t.cmdRun Key.diagStart 0 ∧ t.diag = some (s.diagConfigured x) ∧ t.get Key.diagResult = 0 ∧ t.mode = s.mode := by
  delta State.startDiag
  rw [if_neg hmode]
  extract_lets dacs r code d s₁ s₂ l s₃ s₄ drive
  have hd : d < 64 := field_lt _ _ 6
  have hget₂ : ∀ k, k ≠ Key.diagResult → s₂.get k = s.get k := fun k hk => s.get_put_other 0 hk.symm
  have hresult₂ : s₂.get Key.diagResult = 0 := s.get_put_same Key.diagResult 0
  have hs₃ : s₃ = s₂ := rfl
  have hl : l.2 = [] := rfl
  have hr : r = s.diagConfigured none := rfl
  clear_value s₂ l s₃
  have hbegun : ∃ x : Option (Nat × Word), Shown [] { s₂ with diag := some (s.diagConfigured x) } s₄ ∧ ∀ k, keyEl k ≠ 2 ∨ k < 0x03000000 → s₄.get k = s₂.get k := by
    simp only [s₄, hs₃, hr]
    split
    · have hkey : keyEl (Key.dacActive d) = 2 ∧ 0x22000000 ≤ Key.dacActive d ∧ Key.dacActive d < 0x23000000 := by
        simp only [Key.dacActive, keyEl, mkKey]; omega
      refine ⟨some (d, s₂.get (Key.dacActive d)), Shown.put (.refl _ _) (.inr hkey.2) _, fun k hk => State.get_put_other _ _ ?_⟩
      rintro rfl
      omega
    · exact ⟨none, .refl _ _, fun _ _ => rfl⟩
  obtain ⟨x, hbegun, hget₄⟩ := hbegun
  clear_value s₄
  have hlbk : Shown [] s₄ (if r.lbk then s₄.setLbk r.slices .high else s₄) ∧ (if r.lbk then s₄.setLbk r.slices .high else s₄).objs = s₄.objs := by
    split
    · exact ⟨(Shown.refl [] s₄).setLbk _ _, setLbk_objs _ _ _⟩
    · exact ⟨.refl _ _, rfl⟩
  have hfree : r.kind ≠ 0 → s₄.drivesFreely := fun hkind => by
    refine drivesFreely_of_get hchannels hkind (fun k hel hk => ?_) ?_
    · rw [hget₄ k hk, hget₂ k (by rintro rfl; exact hel (by decide))]
    · rw [hget₄ _ (.inl (by decide)), hget₂ _ (by decide)]
  obtain ⟨hraises, hdriven⟩ := driveDiag_spec r (fun hkind => drivesFreely_of_objs hlbk.2 (hfree hkind))
  replace hraises : drive.2 = [] := hraises
  replace hdriven : Shown [] s₄ drive.1 := hlbk.1.trans hdriven
  clear_value drive
  have hall := hbegun.trans hdriven
  refine ⟨drive.1, x, by rw [hl, hraises]; rfl, ?_, ?_, ?_⟩
  · have e := congrArg State.diag hall.rest
    exact e
  · rw [hall.get _ List.not_mem_nil (.inr (by decide))]
    exact hresult₂
  · refine (mode_of_get (hall.get _ List.not_mem_nil (.inl (by decide)))).trans ?_
    exact mode_of_get (hget₂ _ (by decide))

/-! ## The end of a run (R195, R198, R199) -/

/-- What the end of a run leaves of it: its result. -/
theorem endDiag_result (s : State) (r : DiagRun) (bytes : List Byte) :
    (s.endDiag r bytes).diag = none ∧ (s.endDiag r bytes).diagBytes = bytes ∧ (s.endDiag r bytes).get Key.diagResult = toWord bytes.length := by
  delta State.endDiag
  extract_lets s₁ s₂ s₃ s₄
  have hended : s₁.diag = none ∧ s₁.diagBytes = bytes := ⟨rfl, rfl⟩
  clear_value s₁
  have hlanes : Shown [] s₁ s₂ := ((Shown.refl [] s₁).setLbk _ _).restSlices _
  have hrest : s₂.diag = none ∧ s₂.diagBytes = bytes := by
    have hrun := congrArg State.diag hlanes.rest
    have hbytes := congrArg State.diagBytes hlanes.rest
    exact ⟨hrun.trans hended.1, hbytes.trans hended.2⟩
  clear_value s₂
  have hcode : s₃.diag = none ∧ s₃.diagBytes = bytes := by
    simp only [s₃]
    split
    · exact hrest
    · exact hrest
  clear_value s₃
  have hdacs : s₄.diag = none ∧ s₄.diagBytes = bytes :=
    List.foldlRecOn (motive := fun t : State => t.diag = none ∧ t.diagBytes = bytes) _ _ hcode (fun t ht d _ => by
      split
      · simp only [State.parkDac]
        split
        · exact ht
        · exact ht
      · exact ht)
  exact ⟨hdacs.1, hdacs.2, State.get_put_same _ _ _⟩

theorem endDiag_mode (s : State) (r : DiagRun) (bytes : List Byte) : (s.endDiag r bytes).mode = s.mode :=
  mode_of_get (((Calm.refl s).endDiag r bytes).get _ (by decide) (.inl (by decide)))

/-- A stop ends a run FAILED with ABORTED, and its result is what is kept. -/
theorem abortDiag_spec {s : State} {r : DiagRun} (h : s.diag = some r) :
    ∃ t : State, s.abortDiag = t.cmdFail Key.diagStart .aborted 0 ∧ t.diag = none ∧ t.get Key.diagResult = toWord t.diagBytes.length ∧ t.mode = s.mode := by
  delta State.abortDiag
  split
  · next hnone => rw [h] at hnone; cases hnone
  · next r _ =>
    refine ⟨_, rfl, ?_⟩
    generalize s.diagHeader r false _ ++ openBytes s.freeCount _ = bytes
    obtain ⟨hrun, hbytes, hresult⟩ := endDiag_result { s with freeCount := s.freeCount + r.points * r.channels.length * (if r.kind = 3 then 8 else 4) } r bytes
    exact ⟨hrun, hresult.trans (congrArg (fun l : List Byte => toWord l.length) hbytes.symm), endDiag_mode _ _ _⟩

/-- An accepted command has no DETAIL to show. -/
theorem accessDetail_ok {s t : State} {p : Path} {op : State → Code × State} {detail : Code → Nat} (h : s.serves p) (i k : Nat) (e : op s = (.ok, t)) (hdetail : detail .ok = 0) :
    s.accessDetail p i k op detail = t.respond 0x02 i k .ok := by
  have hgate : s.gate p (op s) = (.ok, t) := by
    obtain ⟨-, -, -, hsession⟩ := h
    rw [State.gate, hsession, Bool.true_or, if_pos rfl, e]
  simp only [State.accessDetail, hgate, hdetail, true_or, if_true]
  exact access_ok h i k e

end Sys2Proof.Machine

open Sys2Proof Sys2Proof.Machine

/-- Settles O31: a request writes mode words alone, a start outside IDLE on channels that may be driven raises nothing, and the end of a run leaves its result. -/
theorem diagnosticsRun : Obligations.DiagnosticsRun := by
  unfold Obligations.DiagnosticsRun
  refine ⟨fun s p arg hserves hmode hbusy harg hdisabled hroutine hdiag hhits hlimit => ?_, fun s p => ⟨fun hserves hmode hrefusal hchannels => ?_,
    fun hserves hmode hdiag => ?_, fun r obs hdiag => ?_⟩⟩
  · have hcmd : (fun t : State => t.cmdSliceDiag arg) s = (.ok, (s.applySliceDiag (bitsOf 32 arg.toNat)).cmdDone Key.sliceDiagRequest 0) := by
      have hany : (bitsOf 32 arg.toNat).any (fun sl => s.sliceModeOf sl == 3) = false := by
        rw [List.any_eq_false]
        exact fun sl h => by simpa using hdisabled sl h
      have hrange : ¬ 4294967296 ≤ arg.toNat := Nat.not_le.2 harg
      simp [State.cmdSliceDiag, hmode, hbusy, refuse, hany, hrange, -List.any_eq_true, -List.any_eq_false]
    have hnamed : ∀ sl ∈ bitsOf 32 arg.toNat, sl < 32 := fun sl h => mem_bitsOf_lt h
    have hget := applySliceDiag_get hnamed hroutine hdiag hhits hlimit
    have hback : ∀ sl ∈ s.diagBack (bitsOf 32 arg.toNat), sl < 32 := fun sl h => List.mem_range.1 (List.mem_filter.1 h).1
    obtain ⟨hfollow, hothers⟩ := followAll_get s hback
    have hdone : ∀ k, k ≠ Key.sliceDiagRequest →
        (((s.applySliceDiag (bitsOf 32 arg.toNat)).cmdDone Key.sliceDiagRequest 0).respond 0x02 0 Key.sliceDiagRequest .ok).get k = (s.applySliceDiag (bitsOf 32 arg.toNat)).get k :=
      fun k hk => (respond_get ..).trans (State.get_put_other _ _ hk.symm)
    have hkey : ∀ sl, sl < 32 → Key.sliceMode sl ≠ Key.sliceDiagRequest := fun sl h e => absurd (sliceMode_lt h) (by rw [e]; decide)
    have hplain : ∀ k, (∀ sl, sl < 32 → Key.sliceMode sl ≠ k) → (s.applySliceDiag (bitsOf 32 arg.toNat)).get k = s.get k := fun k hk => by
      rw [hget, if_neg (by rintro ⟨sl, h, e⟩; exact hk sl (hnamed sl h) e), hothers k (fun sl h => hk sl (hback sl h))]
    have hunnamed : ∀ sl, sl ∉ bitsOf 32 arg.toNat → ¬ ∃ x ∈ bitsOf 32 arg.toNat, Key.sliceMode x = Key.sliceMode sl := by
      rintro sl hnot ⟨x, hx, e⟩
      exact hnot (sliceMode_inj.1 e ▸ hx)
    refine ⟨_, congrArg Host.Outcome.next (access_ok hserves 0 Key.sliceDiagRequest hcmd), respond_answered _ _ _ _, (respond_cmdState ..).trans (cmdState_cmdDone _ _ _),
      ?_, fun sl hsl => ?_, fun sl hsl hnot htwo => ?_, fun sl hsl hnot hother => ?_, fun k hk => ?_⟩
    · exact mode_of_get ((hdone _ (by decide)).trans (hplain _ (fun sl h => ne_of_gt (sliceMode_gt sl))))
    · rw [State.sliceModeOf, hdone _ (hkey sl (hnamed sl hsl)), hget, if_pos ⟨sl, hsl, rfl⟩]
      rfl
    · have hin : sl ∈ s.diagBack (bitsOf 32 arg.toNat) := by simp [State.diagBack, hsl, htwo, hnot]
      rw [State.sliceModeOf, hdone _ (hkey sl hsl), hget, if_neg (hunnamed sl hnot), ← State.sliceModeOf, hfollow sl hin]
    · rw [State.sliceModeOf, hdone _ (hkey sl hsl), hget, if_neg (hunnamed sl hnot), hothers _ (fun x hx e => ?_), ← State.sliceModeOf]
      have hx := (List.mem_filter.1 hx).2
      simp only [sliceMode_inj.1 e, Bool.and_eq_true, beq_iff_eq] at hx
      exact hother hx.1
    · obtain ⟨hrequest, hmodes⟩ := not_or.1 (mt List.mem_cons.2 hk)
      exact (hdone k hrequest).trans (hplain k (fun sl h e => hmodes (List.mem_map.2 ⟨sl, List.mem_range.2 h, e⟩)))
  · obtain ⟨t, x, hstart, hrun, hresult, hkept⟩ := startDiag_spec hmode hchannels
    have hcmd : (fun t : State => t.cmdDiag 1) s = (.ok, t.cmdRun Key.diagStart 0) := by
      simp only [State.cmdDiag, hrefusal, if_true, hstart]
    have hexec : exec (.diagStart p) s = .next ((t.cmdRun Key.diagStart 0).respond 0x02 0 Key.diagStart .ok) :=
      congrArg Host.Outcome.next (accessDetail_ok hserves 0 Key.diagStart hcmd rfl)
    refine ⟨_, s.diagConfigured x, hexec, respond_answered _ _ _ _, (respond_cmdState ..).trans (cmdState_cmdRun _ _ _), ?_, ?_, rfl, rfl, rfl, rfl, ?_⟩
    · rw [respond_get, State.cmdRun, State.get_put_other _ _ (by decide), hresult]
    · obtain ⟨v, n, e⟩ := respond_spec (t.cmdRun Key.diagStart 0) 0x02 0 Key.diagStart .ok
      rw [e]
      exact hrun
    · exact (mode_of_get ((respond_get ..).trans (State.get_put_other _ _ (by decide)))).trans hkept
  · obtain ⟨r, hr⟩ := Option.isSome_iff_exists.1 hdiag
    obtain ⟨t, habort, hrun, hresult, hkept⟩ := abortDiag_spec hr
    have hcmd : (fun t : State => t.cmdDiag 0) s = (.ok, t.cmdFail Key.diagStart .aborted 0) := by
      obtain ⟨-, -, hboot, -⟩ := hserves
      simp [State.cmdDiag, State.cmdMode, refuse, hboot, hmode, hr, habort]
    obtain ⟨v, n, e⟩ := respond_spec (t.cmdFail Key.diagStart .aborted 0) 0x02 0 Key.diagStart .ok
    refine ⟨_, congrArg Host.Outcome.next (access_ok hserves 0 Key.diagStart hcmd), respond_answered _ _ _ _, ?_, (respond_cmdState ..).trans (cmdState_cmdFail _ _ _ _), ?_, ?_, ?_⟩
    · rw [e]
      exact hrun
    · rw [State.getF_eq, respond_get, State.cmdFail, State.get_put_same, statusWord_code]
    · rw [respond_get, State.cmdFail, State.get_put_other _ _ (by decide), hresult, ← State.cmdFail, e]
      rfl
    · exact (mode_of_get ((respond_get ..).trans (State.get_put_other _ _ (by decide)))).trans hkept
  · have hexec : exec (.diagRunDone obs) s = .next ((s.endDiag r (s.diagHeader r true r.points ++ diagEntries r.kind (r.counts (s.get Key.diagPasses).toNat obs))).cmdDone Key.diagStart 0) := by
      have h : exec (.diagRunDone obs) s = execDiagRunDone obs s := rfl
      rw [h, execDiagRunDone, hdiag]
    obtain ⟨hrun, hbytes, hresult⟩ := endDiag_result s r (s.diagHeader r true r.points ++ diagEntries r.kind (r.counts (s.get Key.diagPasses).toNat obs))
    refine ⟨_, hexec, hrun, hbytes, ?_, cmdState_cmdDone _ _ _, ?_⟩
    · rw [State.cmdDone, State.get_put_other _ _ (by decide), hresult]
      exact congrArg (fun l => toWord (List.length l)) hbytes.symm
    · exact (mode_of_get (State.get_put_other _ _ (by decide))).trans (endDiag_mode _ _ _)
end

section
/-! Resets (R408, R409, log entry 153; the first part of O60). -/

namespace Sys2Proof.Machine

/-! ## What a reset cuts short (R396, R401) -/

/-- `t` is `s` with another non-volatile array, whose black box is the same, and more of the free choices drawn. -/
def State.arrayOnly (s t : State) : Prop := ∃ n f, t = { s with nvm := n, freeCount := f } ∧ n.blackBox = s.nvm.blackBox

theorem arrayOnly_refl (s : State) : s.arrayOnly s := ⟨s.nvm, s.freeCount, rfl, rfl⟩

theorem arrayOnly_trans {r s t : State} (h : r.arrayOnly s) (k : s.arrayOnly t) : r.arrayOnly t := by
  obtain ⟨n, f, rfl, hn⟩ := h
  obtain ⟨m, g, rfl, hm⟩ := k
  exact ⟨m, g, rfl, hm.trans hn⟩

theorem arrayOnly_freeChoice (s : State) {n : Nvm} (h : n.blackBox = s.nvm.blackBox) : s.arrayOnly (if s.freeChoice.1 then s.freeChoice.2.putNvm n else s.freeChoice.2) := by
  split
  · exact ⟨n, s.freeCount + 1, rfl, h⟩
  · exact ⟨s.nvm, s.freeCount + 1, rfl, rfl⟩

theorem putBank_blackBox (n : Nvm) (i : Nat) (c : Copy) : (n.putBank i c).blackBox = n.blackBox := by
  rw [Nvm.putBank]
  split <;> rfl

theorem putGuard_blackBox (n : Nvm) (i : Nat) (c : Copy) : (n.putGuard i c).blackBox = n.blackBox := by
  rw [Nvm.putGuard]
  split <;> rfl

theorem cutWrites_arrayOnly (s : State) : s.arrayOnly s.cutWrites := by
  delta State.cutWrites
  extract_lets i r u
  have hbank : s.arrayOnly u := by
    simp only [u]
    split
    · exact arrayOnly_freeChoice s (putBank_blackBox _ _ _)
    · exact arrayOnly_refl s
  clear_value u
  split
  · exact arrayOnly_trans hbank (arrayOnly_freeChoice u (putGuard_blackBox _ _ _))
  · exact hbank

/-! ## The reset state (R408, R409) -/

/-- TRIGOUTs that go high-impedance leave the device by messages alone (R244). -/
theorem floatTrigouts_spec (s : State) : ∃ l, s.floatTrigouts = { s with trigoutActive := [], trigoutHighZ := true, out := s.out ++ l } := by
  refine List.foldlRecOn (motive := fun t : State => ∃ l, t = { s with trigoutActive := [], trigoutHighZ := true, out := s.out ++ l }) _ _ ⟨[], ?_⟩ (fun t ht n _ => ?_)
  · rw [List.append_nil]
  · obtain ⟨l, hl⟩ := ht
    refine ⟨l ++ [.trigout n (t.trigoutLevel n)], ?_⟩
    rw [State.showTrigout, State.emit, ← List.append_assoc]
    generalize Output.trigout n (t.trigoutLevel n) = o
    rw [hl]

/-- What a device reset leaves of a state: the pins, the retention registers, what is not volatile, and every object but the strap's bit at its shipped value. -/
structure WasReset (s t : State) : Prop where
  mode : t.mode = Mode.reset
  shipped : ∀ k, k ≠ Key.guardStatus → k ≠ Key.deviceMode → t.get k = shipped k
  strap : bit (t.get Key.guardStatus) 0 = s.unlocked
  retained : t.retained = true ∧ t.retainMode = s.mode ∧ t.retainBurst = (s.get Key.burstNumber).toNat
  sources : t.resetSeen = [] ∧ t.resetRails = 0
  pending : t.pending = s.pending
  out : s.out <+: t.out
  volatile : t.sessions = [] ∧ t.cells = []
  array : t.nvm.blackBox = s.nvm.blackBox ∧ t.nvm.persistImage = none

/-- The islands in their reset state, around the pins, the retention registers and what is not volatile. -/
def State.islandsReset (s : State) : State :=
  { State.reset with
    pending := s.pending, out := s.out, freeCount := s.freeCount, frefPresent := s.frefPresent, triginHigh := s.triginHigh, fwSlotImage := s.fwSlotImage, retainMode := s.mode
    retainBurst := (s.get Key.burstNumber).toNat, retained := true, resetSeen := []
    nvm := { s.nvm with persistImage := none, guardImage := none, snapshotDue := false } }

theorem enterReset_eq (s : State) : s.enterReset = s.cutWrites.islandsReset.floatTrigouts.putF Key.guardStatus 0 1 (b2n s.cutWrites.unlocked) := rfl

theorem islandsReset_get (s : State) {k : Nat} (hk : k ≠ Key.deviceMode) : s.islandsReset.get k = shipped k := by
  have hobjs : s.islandsReset.objs = [(Key.deviceMode, 0)] := rfl
  rw [State.get, hobjs, mget, if_neg hk.symm, mget_nil]

theorem enterReset_wasReset (s : State) : WasReset s s.enterReset := by
  obtain ⟨n, f, hcut, hbox⟩ := cutWrites_arrayOnly s
  obtain ⟨l, hfloat⟩ := floatTrigouts_spec s.cutWrites.islandsReset
  rw [enterReset_eq, hfloat]
  refine ⟨?_, fun k hguard hmode => ?_, ?_, ⟨rfl, ?_, ?_⟩, ⟨rfl, rfl⟩, ?_, ?_, ⟨rfl, rfl⟩, ⟨?_, rfl⟩⟩
  · exact (mode_of_get (State.get_put_other _ _ (by decide))).trans rfl
  · rw [State.putF, State.get_put_other _ _ hguard.symm]
    exact islandsReset_get s.cutWrites hmode
  · rw [State.get_putF, if_pos rfl, bit, setField_bit, if_pos (by decide), hcut]
    show (b2n s.unlocked).testBit 0 = s.unlocked
    cases s.unlocked <;> rfl
  · rw [hcut]; rfl
  · rw [hcut]; rfl
  · rw [hcut]; rfl
  · rw [hcut]; exact List.prefix_append _ _
  · rw [hcut]; exact hbox

/-! ## The sources (R409, R411) -/

theorem resetBy_of_not_reset {s : State} (h : s.mode ≠ Mode.reset) (src : Nat) :
    ∃ r, WasReset s r ∧ s.resetBy src = { r with resetPending := false, resetSeen := [src] } := by
  have hwas := enterReset_wasReset s
  refine ⟨s.enterReset, hwas, ?_⟩
  simp only [State.resetBy, if_neg h]
  generalize s.enterReset = r at hwas ⊢
  rw [hwas.sources.1]
  rfl

/-- A source asserted in RESET is only noted. -/
theorem resetBy_of_reset {s : State} (h : s.mode = Mode.reset) (src : Nat) :
    s.resetBy src = { s with resetPending := false, resetSeen := if s.resetSeen.contains src then s.resetSeen else s.resetSeen ++ [src] } := by
  simp only [State.resetBy, if_pos h]

theorem resetBy_mode (s : State) (src : Nat) : (s.resetBy src).mode = Mode.reset := by
  by_cases h : s.mode = Mode.reset
  · rw [resetBy_of_reset h]
    exact h
  · obtain ⟨r, hr, e⟩ := resetBy_of_not_reset h src
    rw [e]
    exact hr.mode

theorem mem_resetBy_resetSeen (s : State) (src : Nat) : src ∈ (s.resetBy src).resetSeen := by
  by_cases h : s.mode = Mode.reset
  · rw [resetBy_of_reset h]
    show src ∈ if _ then _ else _
    split
    · next hin => exact List.contains_iff_mem.1 hin
    · exact List.mem_append_right _ (List.mem_singleton.2 rfl)
  · obtain ⟨r, -, e⟩ := resetBy_of_not_reset h src
    rw [e]
    exact List.mem_singleton.2 rfl

/-- RESET_N out of RESET (R408). -/
theorem resetNLow_spec {s : State} (h : s.mode ≠ Mode.reset) :
    ∃ t, exec .resetNLow s = .next t ∧ t.mode = Mode.reset ∧ t.resetSeen = [1] ∧ t.retained = true ∧ t.retainMode = s.mode ∧
      t.retainBurst = (s.get Key.burstNumber).toNat ∧ t.pending = s.pending ∧ s.out <+: t.out ∧ (∀ k, k ≠ Key.guardStatus → k ≠ Key.deviceMode → t.get k = shipped k) ∧
      bit (t.get Key.guardStatus) 0 = s.unlocked ∧ t.sessions = [] ∧ t.cells = [] ∧ t.nvm.blackBox = s.nvm.blackBox ∧ t.nvm.persistImage = none := by
  obtain ⟨r, hr, e⟩ := resetBy_of_not_reset h 1
  obtain ⟨hmode, hshipped, hstrap, ⟨hretained, hleft, hburst⟩, -, hpending, hout, ⟨hsessions, hcells⟩, hbox, himage⟩ := hr
  refine ⟨{ r with resetPending := false, resetSeen := [1] }, congrArg Host.Outcome.next e, ?_⟩
  exact ⟨hmode, rfl, hretained, hleft, hburst, hpending, hout, hshipped, hstrap, hsessions, hcells, hbox, himage⟩

/-- POWER_ON_RESET of rails: the retention registers go with VNV (bit 6), and are kept otherwise. -/
theorem powerOnReset_spec (s : State) {rails : BitVec 7} (h : rails ≠ 0) :
    ∃ t, exec (.powerOnReset rails) s = .next t ∧ t.mode = Mode.reset ∧ 0 ∈ t.resetSeen ∧ (rails.getLsbD 6 = true → t.retained = false) ∧
      (rails.getLsbD 6 = false → s.mode ≠ Mode.reset → t.retained = true ∧ t.resetRails = rails.toNat) := by
  have hexec : exec (.powerOnReset rails) s = execPowerOnReset rails s := rfl
  rw [hexec, execPowerOnReset, if_neg h]
  refine ⟨_, rfl, resetBy_mode _ 0, mem_resetBy_resetSeen _ 0, fun hvnv => ?_, fun hvnv hmode => ?_⟩
  · show (_ && !rails.getLsbD 6) = false
    rw [hvnv, Bool.not_true, Bool.and_false]
  · obtain ⟨r, hr, e⟩ := resetBy_of_not_reset hmode 0
    rw [hvnv, if_neg Bool.false_ne_true, e]
    refine ⟨?_, ?_⟩
    · show (r.retained && !false) = true
      rw [hr.retained.1]
      rfl
    · show r.resetRails ||| rails.toNat = rails.toNat
      rw [hr.sources.2, Nat.zero_or]

/-- DEVICE_RESET is accepted with its word, and acts later. -/
theorem deviceReset_spec {s : State} {p : Path} (hserves : s.serves p) (hpending : s.resetPending = false) :
    ∃ t, exec (.deviceReset p 0xA5A5) s = .next t ∧ t.answered Key.deviceReset .ok ∧ t.cmdState Key.deviceReset = Cmd.running ∧ t.resetPending = true ∧ t.mode = s.mode ∧
      s.objectsBut t [Key.deviceReset] := by
  have hcmd : (fun t : State => t.cmdDeviceReset 0xA5A5) s = (.ok, { s with resetPending := true }.cmdRun Key.deviceReset 0) := by
    obtain ⟨-, -, hboot, -⟩ := hserves
    simp [State.cmdDeviceReset, hboot, hpending, refuse]
  obtain ⟨v, n, e⟩ := respond_spec ({ s with resetPending := true }.cmdRun Key.deviceReset 0) 0x02 0 Key.deviceReset .ok
  have hget : ∀ k, k ≠ Key.deviceReset → (({ s with resetPending := true }.cmdRun Key.deviceReset 0).respond 0x02 0 Key.deviceReset .ok).get k = s.get k := fun k hk =>
    (respond_get ..).trans (State.get_put_other _ _ hk.symm)
  refine ⟨_, congrArg Host.Outcome.next (access_ok hserves 0 Key.deviceReset hcmd), respond_answered _ _ _ _, (respond_cmdState ..).trans (cmdState_cmdRun _ _ _), ?_,
    mode_of_get (hget _ (by decide)), fun k hk => hget k (fun e => hk (List.mem_singleton.2 e))⟩
  rw [e]
  rfl

/-- Without its word it is refused. -/
theorem deviceReset_refused {s : State} {p : Path} {arg : Word} (hserves : s.serves p) (hpending : s.resetPending = false) (harg : arg ≠ 0xA5A5) :
    ∃ t, exec (.deviceReset p arg) s = .next t ∧ t.answered Key.deviceReset .range ∧ s.onlyObjects t [] := by
  have hcmd : (fun t : State => t.cmdDeviceReset arg) s = (.range, s) := by
    obtain ⟨-, -, hboot, -⟩ := hserves
    have hword : ¬ arg = 42405#64 := harg
    simp [State.cmdDeviceReset, hboot, hpending, refuse, hword]
  obtain ⟨honly, hanswer⟩ := access_refused (op := fun t => t.cmdDeviceReset arg) hserves 0 Key.deviceReset hcmd
  exact ⟨_, rfl, hanswer, honly⟩

/-- DEVICE_RESET acts (R408). -/
theorem deviceResetTaken_spec {s : State} (hpending : s.resetPending = true) (hmode : s.mode ≠ Mode.reset) :
    ∃ t, exec .deviceResetTaken s = .next t ∧ t.mode = Mode.reset ∧ t.resetSeen = [2] ∧ t.resetPending = false := by
  obtain ⟨r, hr, e⟩ := resetBy_of_not_reset hmode 2
  have hexec : exec .deviceResetTaken s = execDeviceResetTaken s := rfl
  rw [hexec, execDeviceResetTaken, if_pos hpending, e]
  exact ⟨_, rfl, hr.mode, rfl, rfl⟩

end Sys2Proof.Machine
end

section
/-! The release of RESET (R411-R414, R396, R401, R405, R406; the second part of O60). -/

namespace Sys2Proof.Machine

/-- `t` is `s` with objects from key `n` on read from Lichen, and its ledger. -/
structure ArrayRead (n : Nat) (s t : State) : Prop where
  get : ∀ k, k < n → t.get k = s.get k
  rest : { t with objs := s.objs, subs := s.subs, ledger := s.ledger } = s

namespace ArrayRead

theorem refl (n : Nat) (s : State) : ArrayRead n s s := ⟨fun _ _ => rfl, rfl⟩

theorem trans {n : Nat} {r s t : State} (h : ArrayRead n r s) (k : ArrayRead n s t) : ArrayRead n r t := by
  refine ⟨fun j hj => (k.get j hj).trans (h.get j hj), ?_⟩
  have hs := k.rest
  have hr := h.rest
  rw [← hs] at hr
  exact hr

theorem mono {m n : Nat} {s t : State} (hn : m ≤ n) (h : ArrayRead n s t) : ArrayRead m s t := ⟨fun k hk => h.get k (lt_of_lt_of_le hk hn), h.rest⟩

variable {n : Nat} {r s : State} (h : ArrayRead n r s)
include h

theorem nvm : s.nvm = r.nvm := by have e := congrArg State.nvm h.rest; exact e

theorem put {k : Nat} (hk : n ≤ k) (v : Word) : ArrayRead n r (s.put k v) := h.trans ⟨fun _ hj => s.get_put_other v (by omega), rfl⟩

theorem putF {k : Nat} (hk : n ≤ k) (lo len v : Nat) : ArrayRead n r (s.putF k lo len v) := h.put hk _

theorem ledger (l : Ledger) : ArrayRead n r { s with ledger := l } := h.trans ⟨fun _ _ => rfl, rfl⟩

theorem foldl {α : Type} {f : State → α → State} {l : List α} (hf : ∀ t, ∀ x ∈ l, ArrayRead n r t → ArrayRead n r (f t x)) : ArrayRead n r (l.foldl f s) :=
  List.foldlRecOn l f h (fun t ht x hx => hf t x hx ht)

end ArrayRead

/-- A key of an area lies at its start or above. -/
theorem area_le_mkKey (area obj el : Nat) : area * 2 ^ 24 ≤ mkKey area obj el := by simp only [mkKey]; omega

theorem readGuard_read {s : State} (hentries : ∀ i c, inUse s.nvm.guard0 s.nvm.guard1 = some (i, c) → ∀ e ∈ c.entries, isGuardKey e.1 = true) :
    ArrayRead 0x02000000 s s.readGuard := by
  simp only [State.readGuard]
  split
  · next i c hc =>
    refine (((ArrayRead.refl _ s).putF (by decide) _ _ _).putF (by decide) _ _ _).foldl (fun _ e he ht => ht.put ?_ _)
    have hguard := hentries i c hc e he
    simp only [isGuardKey, Bool.and_eq_true, beq_iff_eq, keyArea] at hguard
    omega
  · refine ((ArrayRead.refl _ s).foldl (fun _ _ _ ht => ht.put (area_le_mkKey 2 _ _) _)).foldl (fun _ _ _ ht => ?_)
    exact (ht.put (area_le_mkKey 2 _ _) _).put (area_le_mkKey 2 _ _) _

theorem readLedger_read (s : State) : ArrayRead 0x52000000 s s.readLedger := by
  simp only [State.readLedger]
  split
  · exact .refl _ s
  · exact ((((ArrayRead.refl _ s).ledger _).put (by decide) _).put (by decide) _).foldl (fun _ _ _ ht => ht.put (area_le_mkKey 0x52 _ _) _)

/-- The array shows in areas 51 and 52; BB_VALID counts the records. -/
theorem readArray_read (s : State) : ArrayRead 0x51000000 s s.readArray ∧ s.readArray.get Key.bbValid = toWord s.nvm.blackBox.length := by
  delta State.readArray
  extract_lets n s₁ next s₂
  have hclasses : ArrayRead 0x51000000 s s₁ := (((ArrayRead.refl _ s).putF (by decide) _ _ _).putF (by decide) _ _ _).putF (by decide) _ _ _
  clear_value s₁ next
  have hbox : ArrayRead 0x51000000 s s₂ := (hclasses.put (by decide) _).put (by decide) _
  have hvalid : s₂.get Key.bbValid = toWord n.blackBox.length := State.get_put_same _ _ _
  clear_value s₂
  have htokens : ArrayRead 0x52000000 s₂ (([64, 16, 8, 256].mapIdx (fun i t => (i, t))).foldl (fun t x => t.put (Key.nvmTokens x.1) (toWord x.2)) s₂) :=
    (ArrayRead.refl _ s₂).foldl (fun _ _ _ ht => ht.put (area_le_mkKey 0x52 _ _) _)
  exact ⟨hbox.trans (htokens.mono (by decide)), (htokens.get _ (by decide)).trans hvalid⟩

/-- With no factory page bad in both copies (R394). -/
theorem readFactory_good {s : State} (h : ∀ p, p < 32 → p ∈ s.nvm.factoryBad → p + 32 ∉ s.nvm.factoryBad) : s.readFactory = s := by
  have hnone : (List.range 32).any (fun p => s.nvm.factoryBad.contains p && s.nvm.factoryBad.contains (p + 32)) = false := by
    rw [List.any_eq_false]
    intro p hp
    by_cases hin : p ∈ s.nvm.factoryBad
    · simp [hin, h p (List.mem_range.1 hp) hin]
    · simp [hin]
  rw [State.readFactory, hnone, if_neg Bool.false_ne_true]

/-- With no torn slot (R401). -/
theorem bbPass_whole {s : State} (h : s.nvm.tornSlots = []) : s.bbPass = s := by simp [State.bbPass, h]

/-! ## The images (R413, R414) -/

theorem bootWord_fields (st slot fell res0 res1 : Nat) :
    let w := toWord (packFields [(0, 3, st), (3, 1, slot), (4, 1, fell), (8, 3, res0), (11, 3, res1)])
    field w 0 3 = st % 8 ∧ field w 3 1 = slot % 2 ∧ field w 4 1 = fell % 2 := by
  simp only [field, toWord_toNat, packFields, Nat.shiftRight_eq_div_pow]
  omega

/-- What BOOT found of the images. -/
structure BootedWith (s t : State) (st slot fell : Nat) : Prop where
  word : t.getF Key.bootStatus 0 3 = st % 8 ∧ t.getF Key.bootStatus 3 1 = slot % 2 ∧ t.getF Key.bootStatus 4 1 = fell % 2
  get : ∀ k, k ≠ Key.bootStatus → k ≠ Key.firmwareVersion → t.get k = s.get k
  rest : { t with objs := s.objs, subs := s.subs, ledger := s.ledger } = s

theorem bootedWith_put (s : State) (st slot fell res0 res1 : Nat) :
    BootedWith s (s.put Key.bootStatus (toWord (packFields [(0, 3, st), (3, 1, slot), (4, 1, fell), (8, 3, res0), (11, 3, res1)]))) st slot fell := by
  refine ⟨?_, fun k hk _ => State.get_put_other _ _ hk.symm, rfl⟩
  simp only [State.getF_eq, State.get_put_same]
  exact bootWord_fields st slot fell res0 res1

/-- The version of the image that runs, and what a fallback counts. -/
theorem BootedWith.run {s t : State} {st slot fell : Nat} (h : BootedWith s t st slot fell) (v : Word) (l : Ledger) :
    BootedWith s { t.put Key.firmwareVersion v with ledger := l } st slot fell ∧ ({ t.put Key.firmwareVersion v with ledger := l } : State).get Key.firmwareVersion = v := by
  obtain ⟨hword, hget, hrest⟩ := h
  have hother : ∀ k, k ≠ Key.firmwareVersion → ({ t.put Key.firmwareVersion v with ledger := l } : State).get k = t.get k := fun k hk => t.get_put_other v hk.symm
  refine ⟨⟨?_, fun k hk hkv => (hother k hkv).trans (hget k hk hkv), ?_⟩, t.get_put_same _ _⟩
  · simpa only [State.getF_eq, hother Key.bootStatus (by decide)] using hword
  · exact hrest

/-- The selector's slot, accepted. -/
theorem tryImages_first {s : State} {slot0 slot1 : Nat} (v : BitVec 32) (h : (if s.nvm.bootSlot = 0 then slot0 else slot1) = 1) :
    BootedWith s (s.tryImages slot0 slot1 v) 4 s.nvm.bootSlot 0 ∧ (s.tryImages slot0 slot1 v).get Key.firmwareVersion = toWord v.toNat := by
  simp only [State.tryImages, h, bne_self_eq_false, Bool.false_eq_true, if_false, beq_self_eq_true, if_true, Bool.not_true, Bool.false_and]
  exact (bootedWith_put s 4 s.nvm.bootSlot 0 _ _).run _ _

/-- The other slot, where the selector's was rejected. -/
theorem tryImages_fallback {s : State} {slot0 slot1 : Nat} (v : BitVec 32) (hfirst : (if s.nvm.bootSlot = 0 then slot0 else slot1) ≠ 1)
    (hother : (if s.nvm.bootSlot = 0 then slot1 else slot0) = 1) (hslot : s.nvm.bootSlot < 2) :
    ∃ u : State, s.tryImages slot0 slot1 v = u.fault 22 .none 0 ∧ BootedWith s u 4 (1 - s.nvm.bootSlot) 1 ∧ u.get Key.firmwareVersion = toWord v.toNat := by
  have hused : (if 1 - s.nvm.bootSlot = 0 then slot0 else slot1) = 1 := by
    rcases Nat.lt_succ_iff_lt_or_eq.1 hslot with h | h
    · rw [Nat.lt_one_iff.1 h] at hother ⊢
      exact hother
    · rw [h] at hother ⊢
      exact hother
  have hfell : ((if s.nvm.bootSlot = 0 then slot0 else slot1) != 1) = true := bne_iff_ne.2 hfirst
  simp only [State.tryImages, hfell, if_true, hused, beq_self_eq_true, Bool.not_true, Bool.false_eq_true, if_false, Bool.and_self]
  exact ⟨_, rfl, (bootedWith_put s 4 (1 - s.nvm.bootSlot) 1 _ _).run _ _⟩

/-- Both rejected. -/
theorem tryImages_none (s : State) {slot0 slot1 : Nat} (v : BitVec 32) (h0 : slot0 ≠ 1) (h1 : slot1 ≠ 1) : BootedWith s (s.tryImages slot0 slot1 v) 7 0 0 := by
  have hres : ∀ i : Nat, ((if i = 0 then slot0 else slot1) == 1) = false := fun i => by split <;> simp [h0, h1]
  simp only [State.tryImages, hres, Bool.false_eq_true, if_false, Bool.and_false, Bool.not_false, if_true]
  exact bootedWith_put s 7 0 0 _ _

/-! ## The release (R411) -/

/-- The state in which the ROM reads Lichen. -/
def State.resetReleased (s : State) : State :=
  let f := { s with pcieUp := true, resetSeen := [], resetRails := 0, nvm := { s.nvm with closed := false } }.free
  ((((f.2.put Key.deviceMode 1).put Key.rawAtEpoch0 (toWord (f.1.toNat % 40009))).put Key.resetCause s.causeWord).put Key.priorMode (toWord s.priors.1)).put Key.priorBurst
    (toWord s.priors.2)

/-- What the ROM finds of a sound array. -/
def State.romRead (s : State) : State := s.resetReleased.readGuard.readLedger.readArray

theorem resetReleased_get (s : State) : s.resetReleased.get Key.deviceMode = 1 ∧ s.resetReleased.get Key.resetCause = s.causeWord := by
  refine ⟨?_, ?_⟩
  · simp only [State.resetReleased]
    rw [State.get_put_other _ _ (by decide), State.get_put_other _ _ (by decide), State.get_put_other _ _ (by decide), State.get_put_other _ _ (by decide), State.get_put_same]
  · simp only [State.resetReleased]
    rw [State.get_put_other _ _ (by decide), State.get_put_other _ _ (by decide), State.get_put_same]

/-- What the images are tried on: BOOT, the causes, the link up, and the array as it was but open. -/
structure RomRead (s t : State) : Prop where
  mode : t.mode = Mode.boot
  cause : t.get Key.resetCause = s.causeWord
  valid : t.get Key.bbValid = toWord s.nvm.blackBox.length
  link : t.resetSeen = [] ∧ t.pcieUp = true
  nvm : t.nvm = { s.nvm with closed := false }

theorem romRead_spec {s : State} (hentries : ∀ i c, inUse s.nvm.guard0 s.nvm.guard1 = some (i, c) → ∀ e ∈ c.entries, isGuardKey e.1 = true) : RomRead s s.romRead := by
  obtain ⟨hmode, hcause⟩ := resetReleased_get s
  have hfields : s.resetReleased.resetSeen = [] ∧ s.resetReleased.pcieUp = true ∧ s.resetReleased.nvm = { s.nvm with closed := false } := ⟨rfl, rfl, rfl⟩
  rw [State.romRead]
  have hguard : ArrayRead 0x02000000 s.resetReleased s.resetReleased.readGuard := readGuard_read hentries
  generalize s.resetReleased = u at hmode hcause hfields hguard ⊢
  have hledger : ArrayRead 0x02000000 u u.readGuard.readLedger := hguard.trans ((readLedger_read _).mono (by decide))
  obtain ⟨harray, hvalid⟩ := readArray_read u.readGuard.readLedger
  generalize u.readGuard.readLedger = w at hledger harray hvalid ⊢
  generalize w.readArray = t at harray hvalid ⊢
  have hread : ArrayRead 0x02000000 u t := hledger.trans (harray.mono (by decide))
  have hseen := congrArg State.resetSeen hread.rest
  have hpcie := congrArg State.pcieUp hread.rest
  obtain ⟨hnone, hup, harr⟩ := hfields
  refine ⟨?_, (hread.get _ (by decide)).trans hcause, ?_, ⟨hseen.trans hnone, hpcie.trans hup⟩, hread.nvm.trans harr⟩
  · rw [State.mode, hread.get _ (by decide), hmode]
    rfl
  · rw [hvalid, hledger.nvm, harr]

theorem startBoot_eq {s : State} (hread : RomRead s s.romRead) (hfactory : ∀ p, p < 32 → p ∈ s.nvm.factoryBad → p + 32 ∉ s.nvm.factoryBad) (htorn : s.nvm.tornSlots = [])
    (slot0 slot1 : Nat) (v : BitVec 32) : s.startBoot slot0 slot1 v = s.romRead.tryImages slot0 slot1 v := by
  have hchain : s.startBoot slot0 slot1 v = (s.romRead.readFactory.bbPass).tryImages slot0 slot1 v := rfl
  rw [hchain, readFactory_good (by rw [hread.nvm]; exact hfactory), bbPass_whole (by rw [hread.nvm]; exact htorn)]

theorem exec_resetRelease {s : State} (hmode : s.mode = Mode.reset) (slot0 slot1 : Nat) (v : BitVec 32) :
    exec (.resetRelease true true slot0 slot1 v) s = .next (s.startBoot slot0 slot1 v) := by
  have hexec : exec (.resetRelease true true slot0 slot1 v) s = execResetRelease true true slot0 slot1 v s := rfl
  rw [hexec, execResetRelease, if_pos ⟨hmode, rfl, rfl⟩]

/-- What a release leaves, whichever image runs. -/
theorem BootedWith.of_romRead {s u t : State} {st slot fell : Nat} (hread : RomRead s u) (h : BootedWith u t st slot fell) : RomRead s t := by
  obtain ⟨hmode, hcause, hvalid, ⟨hseen, hlink⟩, hnvm⟩ := hread
  have hseen' := congrArg State.resetSeen h.rest
  have hlink' := congrArg State.pcieUp h.rest
  have hnvm' := congrArg State.nvm h.rest
  exact ⟨(mode_of_get (h.get _ (by decide) (by decide))).trans hmode, (h.get _ (by decide) (by decide)).trans hcause, (h.get _ (by decide) (by decide)).trans hvalid,
    ⟨hseen'.trans hseen, hlink'.trans hlink⟩, hnvm'.trans hnvm⟩

end Sys2Proof.Machine
end

section
/-! The end of BOOT (R399, R402, R412; the second part of O60). -/

namespace Sys2Proof.Machine

theorem ledger_foldl {α : Type} {f : State → α → State} (hf : ∀ t x, (f t x).ledger = t.ledger) (l : List α) (s : State) : (l.foldl f s).ledger = s.ledger :=
  List.foldlRecOn (motive := fun t : State => t.ledger = s.ledger) l f rfl (fun t ht x _ => (hf t x).trans ht)

/-- With no valid bank nothing is loaded (R399). -/
theorem loadBank_of_none {s : State} (h : inUse s.nvm.bankA s.nvm.bankB = none) : s.loadBank = s := by simp only [State.loadBank, h]

/-- What follows from loaded objects lies in area 20 and above. -/
theorem refreshLoaded_read (s : State) : ArrayRead 0x20000000 s s.refreshLoaded := by
  delta State.refreshLoaded
  extract_lets ports s₁ s₂
  have hports : ArrayRead 0x20000000 s s₁ :=
    (ArrayRead.refl _ s).foldl (fun _ _ _ ht => (ht.put (by simp only [Key.portChannels, mkKey]; omega) _).put (by simp only [Key.portSlices, mkKey]; omega) _)
  clear_value s₁
  have hgroups : ArrayRead 0x20000000 s s₂ := hports.foldl (fun t th _ ht => by
    simp only [State.refreshGroup]
    split
    · exact ht
    · exact ht.put (by simp only [Key.groupSize, mkKey]; omega) _)
  clear_value s₂
  exact hgroups.foldl (fun _ _ _ ht => ht.put (by simp only [Key.acqState, mkKey]; omega) _)

theorem refreshLoaded_ledger (s : State) : s.refreshLoaded.ledger = s.ledger := by
  have hport : ∀ (t : State) (o : Nat), (t.refreshPort o).ledger = t.ledger := fun t o => by simp only [State.refreshPort, State.put_ledger]
  have hgroup : ∀ (t : State) (th : Nat), (t.refreshGroup th).ledger = t.ledger := fun t th => by
    simp only [State.refreshGroup]
    split
    · rfl
    · rw [State.put_ledger]
  have hacq : ∀ (t : State) (u st : Nat), (t.setAcq u st).ledger = t.ledger := fun t u st => by simp only [State.setAcq, State.put_ledger]
  delta State.refreshLoaded
  extract_lets ports s₁ s₂
  have hports : s₁.ledger = s.ledger := ledger_foldl hport _ _
  have hgroups : s₂.ledger = s₁.ledger := ledger_foldl hgroup _ _
  exact (ledger_foldl (fun t u => hacq t u (t.acqSt u)) _ _).trans (hgroups.trans hports)

/-- A record that Lichen takes is the newest (R401), and leaves every object below area 51. -/
theorem bbWrite_spec {s : State} (h : s.nvm.closed = false) (typ : Nat) (payload : List Word) :
    (∃ r, (s.bbWrite typ payload).nvm.blackBox.getLast? = some r ∧ r.typ = typ ∧ r.payload = payload) ∧
    (s.bbWrite typ payload).nvm.persistImage = s.nvm.persistImage ∧ (s.bbWrite typ payload).ledger.boots = s.ledger.boots ∧
    (∀ k, k < 0x51000000 → (s.bbWrite typ payload).get k = s.get k) ∧
    { s.bbWrite typ payload with objs := s.objs, subs := s.subs, nvm := s.nvm, ledger := s.ledger } = s := by
  delta State.bbWrite
  rw [h, if_neg Bool.false_ne_true]
  extract_lets r kept bb nvm ledger s₁
  have hkept : kept r.seq = true := by
    simp only [kept]
    rw [decide_eq_true_eq, Nat.add_sub_cancel_left]
    decide
  have hlast : bb.getLast? = some r := by
    have hone : [r].filter (fun x => kept x.seq) = [r] := by simp [hkept]
    simp only [bb]
    rw [List.filter_append, hone, List.getLast?_append, List.getLast?_singleton]
    rfl
  refine ⟨⟨r, hlast, rfl, rfl⟩, rfl, rfl, fun k hk => ?_, rfl⟩
  have hkeys : k ≠ Key.bbNextSeq ∧ k ≠ Key.bbValid := by
    refine ⟨?_, ?_⟩ <;> rintro rfl <;> exact absurd hk (by decide)
  rw [State.get_put_other _ _ hkeys.2.symm, State.count, State.get_put_other _ _ hkeys.1.symm]
  rfl

/-- A TRAIN begins with no map (R281), and touches LOAD_STATUS alone below area 30. -/
theorem stale_spec (s : State) : (∀ k, k ≠ Key.loadStatus → s.stale.get k = s.get k) ∧ s.stale.nvm = s.nvm ∧ s.stale.ledger = s.ledger ∧ s.stale.cells = s.cells := by
  simp only [State.stale]
  split
  · exact ⟨fun k hk => State.get_put_other _ _ hk.symm, rfl, rfl, rfl⟩
  · exact ⟨fun _ _ => rfl, rfl, rfl, rfl⟩

theorem trainStarts_spec (s : State) : s.trainStarts.capacity = 0 ∧ (∀ k, k < 0x30000000 → k ≠ Key.loadStatus → s.trainStarts.get k = s.get k) ∧
    s.trainStarts.nvm = s.nvm ∧ s.trainStarts.ledger = s.ledger := by
  delta State.trainStarts
  extract_lets s₁ s₂ s₃
  have hledger₁ : s₁.ledger = s.ledger := by
    refine ledger_foldl (fun _ _ => ?_) _ _
    rfl
  have hledger₂ : s₂.ledger = s₁.ledger := by
    refine ledger_foldl (fun _ _ => ledger_foldl (fun _ _ => ?_) _ _) _ _
    rfl
  have hsubchs : ArrayRead 0x30000000 s s₁ := (ArrayRead.refl _ s).foldl (fun _ _ _ ht => ht.put (area_le_mkKey 0x30 _ _) _)
  have hlanes : ArrayRead 0x30000000 s s₂ := hsubchs.foldl (fun _ _ _ ht => ht.foldl (fun _ _ _ hu => hu.put (area_le_mkKey 0x30 _ _) _))
  clear_value s₂ s₁
  have hmap : ArrayRead 0x30000000 s s₃ := ((hlanes.put (by decide) _).put (by decide) _).put (by decide) _
  have hcapacity : s₃.get Key.dramCapacity = 0 := (State.get_put_other _ _ (by decide)).trans (State.get_put_same _ _ _)
  have hledger₃ : s₃.ledger = s.ledger := hledger₂.trans hledger₁
  clear_value s₃
  obtain ⟨hget, hnvm, hled, -⟩ := stale_spec { s₃ with cells := [], poison := [], waitingWrites := [], checkedPages := [], subchs := [] }
  exact ⟨congrArg BitVec.toNat ((hget _ (by decide)).trans hcapacity), fun k hk hne => (hget k hne).trans (hmap.get k hk), hnvm.trans hmap.nvm, hled.trans hledger₃⟩

/-- BOOT_STATUS and BOOT_MS at the end of BOOT. -/
def State.bootWords (s : State) (ms : Nat) : State := (s.putF Key.bootStatus 0 3 6).put Key.bootMs (toWord (ms % 2 ^ 32))

theorem bootWords_spec (s : State) (ms : Nat) :
    (s.bootWords ms).getF Key.bootStatus 0 3 = 6 ∧ (s.bootWords ms).get Key.bootMs = toWord (ms % 2 ^ 32) ∧
    (∀ k, k ≠ Key.bootStatus → k ≠ Key.bootMs → (s.bootWords ms).get k = s.get k) ∧ { s.bootWords ms with objs := s.objs, subs := s.subs } = s := by
  refine ⟨?_, State.get_put_same _ _ _, fun k hst hms => (State.get_put_other _ _ hms.symm).trans (State.get_put_other _ _ hst.symm), rfl⟩
  rw [State.getF_eq, State.bootWords, State.get_put_other _ _ (by decide), State.get_putF, if_pos rfl, field_setField_same _ _ _ _ (by decide)]
  rfl

/-- The watchdog starts (R412). -/
def State.dogStarted (s : State) : State := { s.putF Key.wdogStatus 0 1 1 with wdogKick := s.raw }

theorem dogStarted_get (s : State) {k : Nat} (hk : k ≠ Key.wdogStatus) : s.dogStarted.get k = s.get k := s.get_put_other _ hk.symm

theorem dogStarted_bit (s : State) : s.dogStarted.getF Key.wdogStatus 0 1 = 1 := by
  have hword : s.dogStarted.get Key.wdogStatus = setField (s.get Key.wdogStatus) 0 1 1 := s.get_put_same _ _
  rw [State.getF_eq, hword, field_setField_same _ _ _ _ (by decide)]
  rfl

/-- What BOOT leaves before its record: words, outputs parked, the watchdog running. -/
def State.bootEnded (s : State) (ms : Nat) : State := (s.refreshLoaded.bootWords ms).parkDacs.dogStarted

structure BootEnded (s t : State) (ms : Nat) : Prop where
  status : t.getF Key.bootStatus 0 3 = 6
  ms : t.get Key.bootMs = toWord (ms % 2 ^ 32)
  dog : t.getF Key.wdogStatus 0 1 = 1
  get : ∀ k, k < 0x20000000 → k ≠ Key.bootStatus → k ≠ Key.bootMs → k ≠ Key.wdogStatus → t.get k = s.get k
  boots : t.ledger.boots = s.ledger.boots
  routines : t.routine = s.routine ∧ t.diag = s.diag

theorem bootEnded_spec (s : State) (ms : Nat) : BootEnded s (s.bootEnded ms) ms ∧ (s.bootEnded ms).nvm = s.nvm := by
  have hloaded : ArrayRead 0x20000000 s s.refreshLoaded := refreshLoaded_read s
  have hledger := refreshLoaded_ledger s
  rw [State.bootEnded]
  generalize s.refreshLoaded = a at hloaded hledger ⊢
  obtain ⟨hstatus, hms, hget, hrest⟩ := bootWords_spec a ms
  generalize a.bootWords ms = b at hstatus hms hget hrest ⊢
  have hparked : Shown [] b b.parkDacs := (Shown.refl [] b).parkDacs
  generalize b.parkDacs = c at hparked ⊢
  have hlow : ∀ k, k < 0x20000000 → k ≠ Key.wdogStatus → c.dogStarted.get k = b.get k := fun k hk hdog =>
    (dogStarted_get c hdog).trans (hparked.get k List.not_mem_nil (.inl (lt_trans hk (by decide))))
  have hnvm := congrArg State.nvm hrest
  have hled := congrArg State.ledger hrest
  have hroutine₁ := congrArg State.routine hloaded.rest
  have hdiag₁ := congrArg State.diag hloaded.rest
  have hroutine₂ := congrArg State.routine hrest
  have hdiag₂ := congrArg State.diag hrest
  have hroutine₃ := congrArg State.routine hparked.rest
  have hdiag₃ := congrArg State.diag hparked.rest
  have hcled : c.ledger = s.ledger := hparked.ledger.trans (hled.trans hledger)
  have hcnvm : c.nvm = s.nvm := hparked.nvm.trans (hnvm.trans hloaded.nvm)
  refine ⟨⟨?_, ?_, dogStarted_bit c, fun k hk hst hm hdog => ?_, congrArg Ledger.boots hcled, hroutine₃.trans (hroutine₂.trans hroutine₁), hdiag₃.trans (hdiag₂.trans hdiag₁)⟩, hcnvm⟩
  · rw [State.getF_eq, hlow _ (by decide) (by decide), ← State.getF_eq, hstatus]
  · rw [hlow _ (by decide) (by decide), hms]
  · rw [hlow k hk hdog, hget k hst hm, hloaded.get k hk]

/-- The state in which BOOT hands over to TRAIN. -/
def State.bootRecorded (s : State) (ms : Nat) : State := (s.bootEnded ms).bbWrite 1 (s.bootEnded ms).bootPayload

/-- The BOOT record is the newest (R402), and its programming leaves what BOOT showed. -/
theorem bootRecorded_spec {s : State} (hopen : s.nvm.closed = false) (ms : Nat) :
    BootEnded s (s.bootRecorded ms) ms ∧ ∃ r, (s.bootRecorded ms).nvm.blackBox.getLast? = some r ∧ r.typ = 1 := by
  obtain ⟨⟨hstatus, hms, hdog, hget, hboots, hroutine, hdiag⟩, hnvm⟩ := bootEnded_spec s ms
  obtain ⟨⟨r, hr, htyp, -⟩, -, hkept, hlow, hrest⟩ := bbWrite_spec (s := s.bootEnded ms) (by rw [hnvm, hopen]) 1 (s.bootEnded ms).bootPayload
  rw [State.bootRecorded]
  generalize (s.bootEnded ms).bbWrite 1 (s.bootEnded ms).bootPayload = v at hr hkept hlow hrest ⊢
  generalize s.bootEnded ms = w at hstatus hms hdog hget hboots hroutine hdiag hkept hlow hrest
  have hroutine' := congrArg State.routine hrest
  have hdiag' := congrArg State.diag hrest
  refine ⟨⟨?_, ?_, ?_, fun k hk hst hm hd => ?_, hkept.trans hboots, hroutine'.trans hroutine, hdiag'.trans hdiag⟩, r, hr, htyp⟩
  · rw [State.getF_eq, hlow _ (by decide), ← State.getF_eq, hstatus]
  · rw [hlow _ (by decide), hms]
  · rw [State.getF_eq, hlow _ (by decide), ← State.getF_eq, hdog]
  · rw [hlow k (lt_trans hk (by decide)), hget k hk hst hm hd]

/-- BOOTS counts the end of BOOT (R404). -/
def State.bootCounted (s : State) : State := { s with ledger := { s.ledger with boots := (s.ledger.boots + 1) % 2 ^ 32 } }

theorem bootCounted_spec (s : State) : (∀ k, s.bootCounted.get k = s.get k) ∧ s.bootCounted.nvm = s.nvm ∧ s.bootCounted.ledger.boots = (s.ledger.boots + 1) % 2 ^ 32 ∧
    s.bootCounted.routine = s.routine ∧ s.bootCounted.diag = s.diag := ⟨fun _ => rfl, rfl, rfl, rfl, rfl⟩

/-- The conditions that the end of BOOT may find: no guard record, or the guard unlocked (R373). -/
def State.bootRaises (s : State) : State :=
  let s := if bit (s.get Key.guardStatus) 2 then s else s.fault 14 .none 0
  if s.unlocked then s.fault 81 .none 0 else s

theorem endBoot_eq {s : State} (hbank : inUse s.nvm.bankA s.nvm.bankB = none) (ms : Nat) :
    s.endBoot ms = ((s.bootRecorded ms).bootCounted.enterMode Mode.train).trainStarts.bootRaises := by
  delta State.endBoot
  rw [loadBank_of_none hbank]
  extract_lets s₁ s₂ s₃ s₄ s₅ ledger s₆ s₇
  have hwords : s₂ = (s.refreshLoaded.bootWords ms).parkDacs := rfl
  have hdog : s₄ = s₂.dogStarted := rfl
  have hrecord : s₅ = s₄.bbWrite 1 s₄.bootPayload := rfl
  have hcounted : s₆ = s₅.bootCounted := rfl
  clear_value s₆ s₅ s₄ s₂
  rw [State.bootRecorded, State.bootEnded, ← hwords, ← hdog, ← hrecord, ← hcounted]
  rfl

/-- The end of BOOT, with a guard record in force and the guard locked (R412). -/
theorem bootDone_spec {s : State} (ms : Nat) (hmode : s.mode = Mode.boot) (hstatus : s.getF Key.bootStatus 0 3 = 4) (hbank : inUse s.nvm.bankA s.nvm.bankB = none)
    (hopen : s.nvm.closed = false) (hguard : bit (s.get Key.guardStatus) 2 = true) (hlocked : s.unlocked = false) (hroutine : s.routine = none) (hdiag : s.diag = none) :
    ∃ t r, exec (.bootDone ms) s = .next t ∧ t.mode = Mode.train ∧ t.getF Key.bootStatus 0 3 = 6 ∧ t.get Key.bootMs = toWord (ms % 2 ^ 32) ∧ t.getF Key.wdogStatus 0 1 = 1 ∧
      t.nvm.blackBox.getLast? = some r ∧ r.typ = 1 ∧ t.ledger.boots = (s.ledger.boots + 1) % 2 ^ 32 ∧ t.capacity = 0 := by
  obtain ⟨⟨hdone, hms, hdog, hget, hboots, hrun, hdiagRun⟩, r, hr, htyp⟩ := bootRecorded_spec hopen ms
  have hexec : exec (.bootDone ms) s = .next (s.endBoot ms) := by
    have h : exec (.bootDone ms) s = execBootDone ms s := rfl
    rw [h, execBootDone, if_pos ⟨hmode, hstatus⟩]
  rw [hexec, endBoot_eq hbank]
  generalize hv : (s.bootRecorded ms).bootCounted = v
  obtain ⟨hvget, hvnvm, hvboots, hvroutine, hvdiag⟩ := bootCounted_spec (s.bootRecorded ms)
  rw [hv] at hvget hvnvm hvboots hvroutine hvdiag
  rw [hboots] at hvboots
  rw [hrun, hroutine] at hvroutine
  rw [hdiagRun, hdiag] at hvdiag
  clear hv
  have hvmode : v.mode = Mode.boot := (mode_of_get ((hvget _).trans (hget _ (by decide) (by decide) (by decide) (by decide)))).trans hmode
  have hentered : Shown [Key.deviceMode, Key.modeChanges] v (v.enterMode Mode.train) :=
    enterMode_shown (by rw [hvmode]; unfold leavesQuietly; decide) (by decide) (fun _ => hvroutine) (fun _ => hvdiag) (by decide) (absurd · (by decide))
  have hmodeTrain : (v.enterMode Mode.train).mode = Mode.train := by
    rw [State.mode, (enterMode_entered v Mode.train).mode]
    rfl
  generalize v.enterMode Mode.train = w at hentered hmodeTrain ⊢
  obtain ⟨hcapacity, hlow, hnvm, hledger⟩ := trainStarts_spec w
  generalize w.trainStarts = t at hcapacity hlow hnvm hledger ⊢
  have hword : ∀ k, k < 0x20000000 → k ≠ Key.loadStatus → k ∉ [Key.deviceMode, Key.modeChanges] → t.get k = (s.bootRecorded ms).get k := fun k hk hload hmode =>
    (hlow k (lt_trans hk (by decide)) hload).trans ((hentered.get k hmode (.inl (lt_trans hk (by decide)))).trans (hvget k))
  have hguardWord : t.get Key.guardStatus = s.get Key.guardStatus :=
    (hword _ (by decide) (by decide) (by decide)).trans (hget _ (by decide) (by decide) (by decide) (by decide))
  have hstrap : t.unlocked = false := by simpa only [State.unlocked, hguardWord] using hlocked
  have hend : t.bootRaises = t := by simp only [State.bootRaises, hguardWord, hguard, if_true, hstrap, Bool.false_eq_true, if_false]
  refine ⟨t, r, congrArg Host.Outcome.next hend, ?_, ?_, ?_, ?_, ?_, htyp, ?_, hcapacity⟩
  · exact (mode_of_get (hlow _ (by decide) (by decide))).trans hmodeTrain
  · rw [State.getF_eq, hword _ (by decide) (by decide) (by decide), ← State.getF_eq, hdone]
  · rw [hword _ (by decide) (by decide) (by decide), hms]
  · rw [State.getF_eq, hword _ (by decide) (by decide) (by decide), ← State.getF_eq, hdog]
  · rw [hnvm, hentered.nvm, hvnvm, hr]
  · rw [hledger, hentered.ledger, hvboots]

end Sys2Proof.Machine
end

section
/-! The end of TRAIN (R62, R187-R189, R279, R292, R416; the second part of O60). -/

namespace Sys2Proof.Machine

/-- `t` is `s` but for objects of `P`, subscriptions' counts, slices and what the collector holds; nothing is written to DDR5 and no diagnostic run begins or ends. -/
structure Writes (P : Nat → Prop) (s t : State) : Prop where
  get : ∀ k, ¬ P k → t.get k = s.get k
  cells : t.cells = s.cells
  diag : t.diag = s.diag

namespace Writes

theorem refl (P : Nat → Prop) (s : State) : Writes P s s := ⟨fun _ _ => rfl, rfl, rfl⟩

theorem ite {P : Nat → Prop} {r s t : State} {c : Prop} [Decidable c] (h : Writes P r s) (k : Writes P r t) : Writes P r (if c then s else t) := by split <;> assumption

theorem trans {P : Nat → Prop} {r s t : State} (h : Writes P r s) (k : Writes P s t) : Writes P r t :=
  ⟨fun j hj => (k.get j hj).trans (h.get j hj), k.cells.trans h.cells, k.diag.trans h.diag⟩

theorem mono {P Q : Nat → Prop} {s t : State} (h : Writes P s t) (hPQ : ∀ k, P k → Q k) : Writes Q s t := ⟨fun k hk => h.get k (fun e => hk (hPQ k e)), h.cells, h.diag⟩

variable {P : Nat → Prop} {r s : State} (h : Writes P r s)
include h

theorem of_eq {t : State} (hobjs : t.objs = s.objs := by rfl) (hcells : t.cells = s.cells := by rfl) (hdiag : t.diag = s.diag := by rfl) : Writes P r t :=
  h.trans ⟨fun _ _ => by simp only [State.get, hobjs], hcells, hdiag⟩

theorem put {k : Nat} (hk : P k) (v : Word) : Writes P r (s.put k v) := h.trans ⟨fun _ hj => s.get_put_other v (fun e => hj (e ▸ hk)), rfl, rfl⟩

theorem putF {k : Nat} (hk : P k) (lo len v : Nat) : Writes P r (s.putF k lo len v) := h.put hk _

theorem foldl {α : Type} {f : State → α → State} {l : List α} (hf : ∀ t, ∀ x ∈ l, Writes P r t → Writes P r (f t x)) : Writes P r (l.foldl f s) :=
  List.foldlRecOn l f h (fun t ht x hx => hf t x hx ht)

end Writes

/-- What an object reads follows from the objects. -/
theorem get_of_objs {s t : State} (h : t.objs = s.objs) (k : Nat) : t.get k = s.get k := by simp only [State.get, h]

/-! ## Sub-channels (R292, R303) -/

/-- The words of a sub-channel. -/
def subchWord (k : Nat) : Prop := 0x30000000 ≤ k ∧ k < 0x31000000

theorem mkKey_subchWord {obj el : Nat} (hobj : obj < 0x10000) (hel : el < 0x100) : subchWord (mkKey 0x30 obj el) := by
  simp only [subchWord, mkKey]; omega

theorem mem_laneWord {r : SubchTrain} {y : Nat × (Nat × Nat × Nat × Nat)} (h : y ∈ (r.lanes.take 5).mapIdx (fun j x => (j, x))) : y.1 < 5 := by
  obtain ⟨j, hj, rfl⟩ := List.mem_mapIdx.1 h
  exact lt_of_lt_of_le hj (List.length_take_le 5 r.lanes)

theorem trainLanes_writes (s : State) {r : SubchTrain} (hr : r.subch < 12) :
    Writes (fun k => subchWord k ∧ keyEl k ≠ 1) s (s.trainLanes r) := by
  refine (Writes.refl _ s).foldl (fun t y hy ht => ht.put ⟨mkKey_subchWord (by omega) ?_, ?_⟩ _)
  · have := mem_laneWord hy
    omega
  · have := mem_laneWord hy
    have hel : keyEl (mkKey 0x30 (0x1000 + r.subch) (5 + y.1)) = 5 + y.1 := keyEl_mkKey _ _ (by omega)
    rw [hel]
    omega

theorem trainSubch_writes (s : State) {r : SubchTrain} (hr : r.subch < 12) : Writes subchWord s (s.trainSubch r) :=
  ((trainLanes_writes s hr).mono (fun _ h => h.1)).put (mkKey_subchWord (by omega) (by decide)) _

/-- A sub-channel that trained reads ACTIVE; the others read what they did. -/
theorem trainSubch_subchSt (s : State) {r : SubchTrain} (hr : r.subch < 12) (hok : trainCause r = 0) (i : Nat) :
    (s.trainSubch r).subchSt i = if r.subch = i then 2 else s.subchSt i := by
  have hkey : Key.subchStatus r.subch = Key.subchStatus i ↔ r.subch = i := by simp only [Key.subchStatus, mkKey]; omega
  have hel : keyEl (Key.subchStatus i) = 1 := keyEl_mkKey _ _ (by decide)
  have hlanes : (s.trainLanes r).get (Key.subchStatus i) = s.get (Key.subchStatus i) := (trainLanes_writes s hr).get _ (fun h => h.2 hel)
  rw [State.subchSt, State.getF_eq, State.trainSubch, State.get_put]
  by_cases h : r.subch = i
  · rw [if_pos (hkey.2 h), if_pos h, hok, field_packFields_head _ (by decide)]
    · rfl
    · simp only [packFields]
      omega
  · rw [if_neg (mt hkey.1 h), if_neg h, hlanes]
    rfl

theorem trainAll_spec {l : List SubchTrain} : ∀ (s : State), (∀ r ∈ l, r.subch < 12 ∧ trainCause r = 0) →
    Writes subchWord s (l.foldl (fun t r => t.trainSubch r) s) ∧ ∀ i, (i ∈ l.map SubchTrain.subch ∨ s.subchSt i = 2) → (l.foldl (fun t r => t.trainSubch r) s).subchSt i = 2 := by
  induction l with
  | nil => exact fun s _ => ⟨.refl _ s, fun i h => h.resolve_left List.not_mem_nil⟩
  | cons x l ih =>
    intro s hl
    obtain ⟨⟨hx, hok⟩, hl⟩ := List.forall_mem_cons.1 hl
    obtain ⟨hwrites, hsts⟩ := ih (s.trainSubch x) hl
    refine ⟨(trainSubch_writes s hx).trans hwrites, fun i h => hsts i ?_⟩
    rw [trainSubch_subchSt s hx hok]
    rcases h with h | h
    · rcases List.mem_cons.1 h with h | h
      · exact .inr (if_pos h.symm)
      · exact .inl h
    · rw [h, ite_self]
      exact .inr rfl

/-! ## The map (R279, R281) -/

/-- The bits of a word that has bit `i` for each `i` below `n` that `p` takes. -/
theorem sum_two_pow_testBit (p : Nat → Bool) (n : Nat) :
    (((List.range n).filter p).map (fun i => 2 ^ i)).sum < 2 ^ n ∧
    ∀ i, (((List.range n).filter p).map (fun i => 2 ^ i)).sum.testBit i = (decide (i < n) && p i) := by
  induction n with
  | zero => exact ⟨Nat.one_pos, fun i => by simp⟩
  | succ n ih =>
    obtain ⟨hlt, hbit⟩ := ih
    have hsum : (((List.range (n + 1)).filter p).map (fun i => 2 ^ i)).sum = (if p n then 2 ^ n else 0) + (((List.range n).filter p).map (fun i => 2 ^ i)).sum := by
      rw [List.range_succ, List.filter_append, List.map_append, List.sum_append, Nat.add_comm]
      by_cases h : p n <;> simp [h]
    rw [hsum]
    generalize (((List.range n).filter p).map (fun i => 2 ^ i)).sum = x at hlt hbit
    have hbound : (if p n then 2 ^ n else 0) + x < 2 ^ (n + 1) := by
      rw [Nat.pow_succ]
      split <;> omega
    refine ⟨hbound, fun i => ?_⟩
    rcases Nat.lt_trichotomy i n with h | h | h
    · split
      · rw [Nat.testBit_two_pow_add_gt h, hbit]
        simp [h, Nat.lt_succ_of_lt h]
      · rw [Nat.zero_add, hbit]
        simp [h, Nat.lt_succ_of_lt h]
    · subst h
      split
      · next hp => rw [Nat.testBit_two_pow_add_eq, Nat.testBit_lt_two_pow hlt]; simp [hp]
      · next hp => rw [Nat.zero_add, Nat.testBit_lt_two_pow hlt]; simp [hp]
    · rw [Nat.testBit_lt_two_pow (lt_of_lt_of_le hbound (Nat.pow_le_pow_right (by decide) h))]
      simp [Nat.not_lt.2 h]

/-- What the map writes. -/
def mapWord (k : Nat) : Prop := k = Key.loadStatus ∨ k = Key.dramEnabled ∨ k = Key.dramCapacity ∨ k = Key.dramMapGen ∨ k = Key.dramFill ∨ k = Key.streamPeak ∨ k = Key.streamBudget

theorem mapWord_bounds {k : Nat} (h : mapWord k) : k < 0x30001000 ∨ 0x31000000 ≤ k ∧ k < 0x32000000 := by
  rcases h with rfl | rfl | rfl | rfl | rfl | rfl | rfl <;> decide

/-- A map over the sub-channels that are in use, empty (R279). -/
theorem buildMap_spec (s : State) : (∀ k, ¬ mapWord k → s.buildMap.get k = s.get k) ∧ s.buildMap.get Key.dramFill = 0 ∧ s.buildMap.cells = [] ∧ s.buildMap.diag = s.diag ∧
    ∀ i, i < 12 → s.subchSt i = 2 → bit (s.buildMap.get Key.dramEnabled) i = true := by
  delta State.buildMap
  extract_lets on peak s₁ s₂ s₃ s₄
  have hmap : Writes mapWord s s₄ :=
    ((((((Writes.refl mapWord s).put (.inr (.inl rfl)) _).put (.inr (.inr (.inl rfl))) _).put (.inr (.inr (.inr (.inr (.inr (.inl rfl)))))) _).put
      (.inr (.inr (.inr (.inr (.inr (.inr rfl)))))) _).put (.inr (.inr (.inr (.inl rfl)))) _).put (.inr (.inr (.inr (.inr (.inl rfl))))) _
  have hfill : s₄.get Key.dramFill = 0 := State.get_put_same _ _ _
  have hword : s₄.get Key.dramEnabled = toWord (on.map (fun i => 2 ^ i)).sum := by
    simp only [s₄, s₃, s₂, s₁, State.countSat]
    rw [State.get_put_other _ _ (by decide), State.get_put_other _ _ (by decide), State.get_put_other _ _ (by decide), State.get_put_other _ _ (by decide),
      State.get_put_other _ _ (by decide), State.get_put_same]
  clear_value s₄
  generalize hu : ({ s₄ with cells := [], poison := [], waitingWrites := [], checkedPages := [], scrubNext := 0, scrubGain := 0 } : State) = u
  have hempty : u.cells = [] ∧ u.diag = s.diag ∧ ∀ k, u.get k = s₄.get k := by
    rw [← hu]
    exact ⟨rfl, hmap.diag, get_of_objs rfl⟩
  obtain ⟨hcells, hdiag, hget⟩ := hempty
  have hstale : Writes (fun k => k = Key.loadStatus) u u.stale := .ite (Writes.putF (P := fun k => k = Key.loadStatus) (.refl _ u) rfl _ _ _) (.refl _ u)
  have hqueues := hstale.foldl (l := s₄.subchs) (f := fun t x => t.putSubch x.1 { x.2 with queue := [] }) (fun _ _ _ ht => ht.of_eq)
  generalize s₄.subchs.foldl (fun t x => t.putSubch x.1 { x.2 with queue := [] }) u.stale = w at hqueues ⊢
  have hall : ∀ k, k ≠ Key.loadStatus → w.get k = s₄.get k := fun k hk => (hqueues.get k hk).trans (hget k)
  refine ⟨fun k hk => ?_, (hall _ (by decide)).trans hfill, hqueues.cells.trans hcells, hqueues.diag.trans hdiag, fun i hi hst => ?_⟩
  · rw [hall k (fun e => hk (.inl e)), hmap.get k hk]
  · have hbits := (sum_two_pow_testBit (fun i => decide (2 ≤ s.subchSt i ∧ s.subchSt i ≤ 4)) 12).2 i
    have hlt : (on.map (fun i => 2 ^ i)).sum < 2 ^ 64 := lt_trans (sum_two_pow_testBit _ 12).1 (Nat.pow_lt_pow_right (by decide) (by decide))
    rw [hall _ (by decide), hword]
    show (toWord (on.map (fun i => 2 ^ i)).sum).toNat.testBit i = true
    rw [toWord_toNat_of_lt hlt]
    refine hbits.trans ?_
    rw [hst]
    simp [hi]

/-! ## Lanes (R187-R189) -/

/-- The words of a channel of the pin lanes that a commit writes: all but LANE_ASYM and those above. -/
def laneWord (k : Nat) : Prop := 0x60000000 ≤ k ∧ keyEl k ≠ 5

theorem mkKey_laneWord {obj el : Nat} (hel : el < 0x100) (hne : el ≠ 5) : laneWord (mkKey 0x60 obj el) :=
  ⟨area_le_mkKey 0x60 _ _, by rw [keyEl_mkKey _ _ hel]; exact hne⟩

/-- The words of a channel beside its status. -/
theorem mkKey_laneValue {obj el : Nat} (hel : el < 0x100) (hne : el ≠ 5) (hstatus : el ≠ 1) : laneWord (mkKey 0x60 obj el) ∧ keyEl (mkKey 0x60 obj el) ≠ 1 :=
  ⟨mkKey_laneWord hel hne, by rw [keyEl_mkKey _ _ hel]; exact hstatus⟩

theorem laneStatus_inj {g g' : Nat} : Key.laneStatus g = Key.laneStatus g' ↔ g = g' := by simp only [Key.laneStatus, mkKey]; omega

/-- A channel that passes reads PASSED, and no other channel's state changes. -/
theorem deskewChannel_spec {s : State} {r : DeskewResult} (h : s.deskewCause r = 0) :
    Writes laneWord s (s.deskewChannel r) ∧ ∀ g, (s.deskewChannel r).laneState g = if r.channel = g then 1 else s.laneState g := by
  delta State.deskewChannel
  extract_lets g c s₁ s₂ t s₃
  have hcause : c = 0 := h
  have hcounted : Writes (fun k => laneWord k ∧ keyEl k ≠ 1) s s₁ := (Writes.refl _ s).put (mkKey_laneValue (by decide) (by decide) (by decide)) _
  clear_value s₁
  have heye : Writes (fun k => laneWord k ∧ keyEl k ≠ 1) s s₂ := .ite (hcounted.put (mkKey_laneValue (by decide) (by decide) (by decide)) _) hcounted
  clear_value s₂
  rw [if_pos hcause]
  have hdelays : Writes (fun k => laneWord k ∧ keyEl k ≠ 1) s s₃ :=
    ((heye.put (mkKey_laneValue (by decide) (by decide) (by decide)) _).put (mkKey_laneValue (by decide) (by decide) (by decide)) _).put
      (mkKey_laneValue (by decide) (by decide) (by decide)) _
  clear_value s₃
  have hstatus : laneWord (Key.laneStatus g) := mkKey_laneWord (by decide) (by decide)
  refine ⟨(((hdelays.mono (fun _ h => h.1)).putF hstatus _ _ _).putF hstatus _ _ _).putF hstatus _ _ _, fun i => ?_⟩
  have hel : keyEl (Key.laneStatus i) = 1 := keyEl_mkKey _ _ (by decide)
  have hkept : s₃.get (Key.laneStatus i) = s.get (Key.laneStatus i) := hdelays.get _ (fun h => h.2 hel)
  by_cases hi : g = i
  · rw [if_pos hi, State.laneState, State.getF_eq, State.get_putF, if_pos (laneStatus_inj.2 hi), field_setField_other _ _ _ _ _ _ (by decide), State.get_putF,
      if_pos rfl, field_setField_other _ _ _ _ _ _ (by decide), State.get_putF, if_pos rfl, field_setField_same _ _ _ _ (by decide)]
    rfl
  · have hne := mt laneStatus_inj.1 hi
    rw [if_neg hi, State.laneState, State.getF_eq, State.get_putF, if_neg hne, State.get_putF, if_neg hne, State.get_putF, if_neg hne, hkept]
    rfl

theorem deskewCause_of_writes {s t : State} (h : Writes laneWord s t) (r : DeskewResult) : t.deskewCause r = s.deskewCause r := by
  have hel : keyEl (Key.laneAsym r.channel) = 5 := keyEl_mkKey _ _ (by decide)
  simp only [State.deskewCause, h.get (Key.laneAsym r.channel) (fun hk => hk.2 hel)]

theorem deskewAll_spec {l : List DeskewResult} : ∀ (s : State), (∀ r ∈ l, s.deskewCause r = 0) →
    Writes laneWord s (l.foldl (fun t r => t.deskewChannel r) s) ∧
    ∀ g, (g ∈ l.map DeskewResult.channel ∨ s.laneState g = 1) → (l.foldl (fun t r => t.deskewChannel r) s).laneState g = 1 := by
  induction l with
  | nil => exact fun s _ => ⟨.refl _ s, fun g h => h.resolve_left List.not_mem_nil⟩
  | cons x l ih =>
    intro s hl
    obtain ⟨hx, hl⟩ := List.forall_mem_cons.1 hl
    obtain ⟨hwrites, hstate⟩ := deskewChannel_spec hx
    obtain ⟨hrest, hstates⟩ := ih (s.deskewChannel x) (fun r hr => (deskewCause_of_writes hwrites r).trans (hl r hr))
    refine ⟨hwrites.trans hrest, fun g h => hstates g ?_⟩
    rw [hstate]
    rcases h with h | h
    · rcases List.mem_cons.1 h with h | h
      · exact .inr (if_pos h.symm)
      · exact .inl h
    · rw [h, ite_self]
      exact .inr rfl

/-- A deskew of the slices gives every channel a result. -/
theorem mem_deskewOf_channel (rs : List DeskewResult) {g : Nat} (hg : g < 1024) : g ∈ (deskewOf (List.range 32) rs).map DeskewResult.channel := by
  have hname : 32 * (g / 32) + g % 32 = g := Nat.div_add_mod g 32
  simp only [deskewOf, List.mem_map, List.mem_flatMap, List.mem_range]
  refine ⟨_, ⟨g / 32, by omega, g % 32, by omega, rfl⟩, ?_⟩
  cases hfind : rs.find? (fun r => r.channel == 32 * (g / 32) + g % 32) with
  | none => exact hname
  | some r =>
    have hr := List.find?_some hfind
    exact (beq_iff_eq.1 hr).trans hname

/-- A deskew in which every channel passes (R188): nothing is raised. -/
theorem deskew_spec {s : State} {rs : List DeskewResult} (h : ∀ r ∈ deskewOf (List.range 32) rs, s.deskewCause r = 0) :
    Writes laneWord s (s.deskew (List.range 32) rs) ∧ ∀ g, g < 1024 → (s.deskew (List.range 32) rs).laneState g = 1 := by
  obtain ⟨hwrites, hstates⟩ := deskewAll_spec s h
  delta State.deskew
  extract_lets mine bad s₁
  have hbad : bad = [] := by
    simp only [bad, List.filter_eq_nil_iff]
    intro sl _
    rw [Bool.not_eq_true, List.any_eq_false]
    intro r hr
    simp [h r hr]
  rw [hbad]
  replace hwrites : Writes laneWord s s₁ := hwrites.put ⟨by decide, by decide⟩ _
  have hlanes : ∀ g, g < 1024 → s₁.laneState g = 1 := fun g hg => by
    have hne : Key.lanesDisabled ≠ Key.laneStatus g := by simp only [Key.laneStatus, Key.lanesDisabled, mkKey]; omega
    have hstate := hstates g (.inl (mem_deskewOf_channel rs hg))
    rw [State.laneState, State.getF_eq] at hstate ⊢
    rwa [show s₁.get (Key.laneStatus g) = _ from State.get_put_other _ _ hne]
  exact ⟨hwrites, hlanes⟩

/-! ## The collector and the slices -/

/-- The words of the collector. -/
def collectorWord (k : Nat) : Prop := 0x50000000 ≤ k ∧ k < 0x51000000

theorem clearLive_writes (s : State) {src : Nat} (hsrc : src < 128) : Writes collectorWord s (s.clearLive src) := by
  have hlive : collectorWord (Key.faultLive (src / 64)) := by simp only [collectorWord, Key.faultLive, mkKey]; omega
  have hentry : ∀ q, q < 32 → collectorWord (Key.histEntry q 0) := fun q hq => by simp only [collectorWord, Key.histEntry, mkKey]; omega
  have hfirst : collectorWord (Key.firstFault 0) := by simp only [collectorWord, Key.firstFault, mkKey]; omega
  delta State.clearLive
  extract_lets s₁ s₂ s₃
  have hbit : Writes collectorWord s s₂ := ((Writes.refl _ s).put hlive _).of_eq
  clear_value s₂
  have hwatch : Writes collectorWord s s₃ := hbit.of_eq
  clear_value s₃
  split
  · exact hbit
  · next w _ =>
    extract_lets s₄
    have hmark : Writes collectorWord s s₄ := .ite (hwatch.putF (hentry _ (Nat.mod_lt _ (by decide))) 11 1 1) hwatch
    clear_value s₄
    exact .ite hwatch (.ite (hmark.putF hfirst 11 1 1) hmark)

/-- The mode words of the slices. -/
def sliceModeWord (k : Nat) : Prop := 0x01002001 ≤ k ∧ k < 0x01002100

/-- With no diagnostic run to end, a slice that is refreshed changes its mode word alone (R67). -/
theorem refreshSlice_writes {s : State} (hdiag : s.diag = none) {sl : Nat} (hsl : sl < 32) : Writes sliceModeWord s (s.refreshSlice sl) := by
  have hkey : sliceModeWord (Key.sliceMode sl) := by simp only [sliceModeWord, Key.sliceMode, mkKey]; omega
  have hplaced : Writes sliceModeWord s ((s.putSlice sl { s.slice sl with diagPlaced := false }).put (Key.sliceMode sl) 3) := (Writes.of_eq (.refl _ s)).put hkey _
  have hstill : ((s.putSlice sl { s.slice sl with diagPlaced := false }).put (Key.sliceMode sl) 3).abortDiagOn [sl] =
      (s.putSlice sl { s.slice sl with diagPlaced := false }).put (Key.sliceMode sl) 3 := by
    have hnone : ((s.putSlice sl { s.slice sl with diagPlaced := false }).put (Key.sliceMode sl) 3).diag = none := hdiag
    rw [State.abortDiagOn, hnone]
  simp only [State.refreshSlice, hstill]
  exact .ite (.refl _ s) (.ite hplaced (.ite ((Writes.refl _ s).put hkey _) (.refl _ s)))

theorem refreshAll_writes {s : State} (hdiag : s.diag = none) : Writes sliceModeWord s ((List.range 32).foldl (fun t sl => t.refreshSlice sl) s) :=
  (Writes.refl _ s).foldl (fun _ _ hsl ht => ht.trans (refreshSlice_writes (ht.diag.trans hdiag) (List.mem_range.1 hsl)))

/-! ## The end of TRAIN -/

/-- What the training of DDR5 writes. -/
def dramWord (k : Nat) : Prop := subchWord k ∨ mapWord k ∨ collectorWord k

theorem trainOf_subch (ddr : List SubchTrain) (i : Nat) : (trainOf ddr i).subch = i := by
  rw [trainOf]
  cases hfind : ddr.find? (fun r => r.subch == i) with
  | none => rfl
  | some r =>
    have hr := List.find?_some hfind
    exact beq_iff_eq.1 hr

theorem mem_populated_lt {s : State} {i : Nat} (h : i ∈ s.populated) : i < 12 := List.mem_range.1 (List.mem_filter.1 h).1

/-- Every fitted sub-channel trains: the map is over all of them, empty, and nothing is raised (R279, R292). -/
theorem trainDram_spec {s : State} {ddr : List SubchTrain} (h : ∀ i ∈ s.populated, trainCause (trainOf ddr i) = 0) :
    (∀ k, ¬ dramWord k → (s.trainDram ddr).get k = s.get k) ∧ (s.trainDram ddr).cells = [] ∧ (s.trainDram ddr).diag = s.diag ∧ (s.trainDram ddr).get Key.dramFill = 0 ∧
    ∀ i ∈ s.populated, (s.trainDram ddr).subchSt i = 2 ∧ bit ((s.trainDram ddr).get Key.dramEnabled) i = true := by
  have hrs : ∀ r ∈ s.populated.map (fun i => trainOf ddr i), r.subch < 12 ∧ trainCause r = 0 := by
    intro r hr
    obtain ⟨i, hi, rfl⟩ := List.mem_map.1 hr
    exact ⟨by rw [trainOf_subch]; exact mem_populated_lt hi, h i hi⟩
  have hraises : trainRaises (s.populated.map (fun i => trainOf ddr i)) = [] := by
    have hnone : (s.populated.map (fun i => trainOf ddr i)).filter (fun r => trainCause r != 0) = [] := by
      rw [List.filter_eq_nil_iff]
      intro r hr
      simp [(hrs r hr).2]
    rw [trainRaises, hnone, List.map_nil]
  obtain ⟨hwrites, hsts⟩ := trainAll_spec s hrs
  delta State.trainDram
  extract_lets rs s₁ s₂
  rw [show trainRaises rs = [] from hraises, collect_nil]
  have hmap : s₁ = (rs.foldl (fun t r => t.trainSubch r) s).buildMap := rfl
  replace hwrites : Writes subchWord s (rs.foldl (fun t r => t.trainSubch r) s) := hwrites
  replace hsts : ∀ i, i ∈ s.populated → (rs.foldl (fun t r => t.trainSubch r) s).subchSt i = 2 := fun i hi =>
    hsts i (.inl (List.mem_map.2 ⟨trainOf ddr i, List.mem_map.2 ⟨i, hi, rfl⟩, trainOf_subch ddr i⟩))
  have hcleared : Writes collectorWord s₁ s₂ := (Writes.refl _ s₁).foldl (fun t src hsrc ht =>
    .ite (ht.trans (clearLive_writes t (by simp only [List.mem_cons, List.not_mem_nil, or_false] at hsrc; omega))) ht)
  clear_value s₂
  obtain ⟨hget, hfill, hcells, hdiag, henabled⟩ := buildMap_spec (rs.foldl (fun t r => t.trainSubch r) s)
  rw [← hmap] at hget hfill hcells hdiag henabled
  have hlow : ∀ k, k < 0x50000000 → s₂.get k = s₁.get k := fun k hk => hcleared.get k (fun e => absurd e.1 (Nat.not_le.2 hk))
  refine ⟨fun k hk => ?_, hcleared.cells.trans hcells, hcleared.diag.trans (hdiag.trans hwrites.diag), (hlow _ (by decide)).trans hfill, fun i hi => ⟨?_, ?_⟩⟩
  · rw [hcleared.get k (fun e => hk (.inr (.inr e))), hget k (fun e => hk (.inr (.inl e))), hwrites.get k (fun e => hk (.inl e))]
  · have hkey : 0x30001000 ≤ Key.subchStatus i ∧ Key.subchStatus i < 0x31000000 := by
      have := mem_populated_lt hi
      simp only [Key.subchStatus, mkKey]
      omega
    rw [State.subchSt, State.getF_eq, hlow _ (by omega), hget _ (fun h => by have := mapWord_bounds h; omega)]
    exact hsts i hi
  · rw [hlow _ (by decide)]
    exact henabled i (mem_populated_lt hi) (hsts i hi)

/-- The end of a TRAIN in which every fitted sub-channel and every channel passes (R416). -/
theorem trainDone_spec {s : State} (ms : Nat) {ddr : List SubchTrain} {deskew : List DeskewResult} (hmode : s.mode = Mode.train) (hchanging : s.modeChanging = false)
    (hdiag : s.diag = none) (hddr : ∀ i ∈ s.populated, trainCause (trainOf ddr i) = 0) (hdeskew : ∀ r ∈ deskewOf (List.range 32) deskew, s.deskewCause r = 0) :
    ∃ t, exec (.trainDone ms ddr deskew) s = .next t ∧ t.mode = Mode.idle ∧ t.get Key.trainMs = toWord (ms % 2 ^ 32) ∧ (∀ i ∈ s.populated, t.subchSt i = 2) ∧
      (∀ g, g < 1024 → t.laneState g = 1) ∧ (∀ i ∈ s.populated, i ∈ t.enabled) ∧ t.get Key.dramFill = 0 ∧ t.cells = [] := by
  have hexec : exec (.trainDone ms ddr deskew) s = .next (s.endTrain ms ddr deskew) := by
    have h : exec (.trainDone ms ddr deskew) s = execTrainDone ms ddr deskew s := rfl
    rw [h, execTrainDone, if_pos ⟨hmode, by rw [hchanging]; rfl⟩]
  rw [hexec]
  refine ⟨_, rfl, ?_⟩
  obtain ⟨hget₁, hcells₁, hdiag₁, hfill₁, hsubchs₁⟩ := trainDram_spec hddr
  rw [State.endTrain]
  generalize s.trainDram ddr = a at hget₁ hcells₁ hdiag₁ hfill₁ hsubchs₁ ⊢
  have hcause : ∀ r ∈ deskewOf (List.range 32) deskew, a.deskewCause r = 0 := fun r hr => by
    have hasym : a.get (Key.laneAsym r.channel) = s.get (Key.laneAsym r.channel) := hget₁ _ (fun h => by
      have hkey : 0x60000000 ≤ Key.laneAsym r.channel := area_le_mkKey 0x60 _ _
      rcases h with h | h | h
      · have := h.2
        omega
      · have := mapWord_bounds h
        omega
      · have := h.2
        omega)
    have hs := hdeskew r hr
    simp only [State.deskewCause, hasym] at hs ⊢
    exact hs
  obtain ⟨hwrites₂, hlanes₂⟩ := deskew_spec hcause
  generalize a.deskew (List.range 32) deskew = b at hwrites₂ hlanes₂ ⊢
  have hwrites₃ : Writes (fun k => laneWord k ∨ k = Key.trainMs) a (b.put Key.trainMs (toWord (ms % 2 ^ 32))) := (hwrites₂.mono (fun _ h => .inl h)).put (.inr rfl) _
  have hms₃ : (b.put Key.trainMs (toWord (ms % 2 ^ 32))).get Key.trainMs = toWord (ms % 2 ^ 32) := State.get_put_same _ _ _
  have hlanes₃ : ∀ g, g < 1024 → (b.put Key.trainMs (toWord (ms % 2 ^ 32))).laneState g = 1 := fun g hg => by
    have hne : Key.trainMs ≠ Key.laneStatus g := by simp only [Key.laneStatus, Key.trainMs, mkKey]; omega
    rw [State.laneState, State.getF_eq, State.get_put_other _ _ hne]
    exact hlanes₂ g hg
  generalize b.put Key.trainMs (toWord (ms % 2 ^ 32)) = c at hwrites₃ hms₃ hlanes₃ ⊢
  have hwrites₄ : Writes sliceModeWord c ((List.range 32).foldl (fun t sl => t.refreshSlice sl) c) := refreshAll_writes (hwrites₃.diag.trans (hdiag₁.trans hdiag))
  generalize (List.range 32).foldl (fun t sl => t.refreshSlice sl) c = d at hwrites₄ ⊢
  have hsub : ∀ k, 0x30000000 ≤ k → k < 0x50000000 → d.get k = a.get k := fun k hlow hhigh => by
    rw [hwrites₄.get k (by simp only [sliceModeWord]; omega), hwrites₃.get k (by simp only [laneWord, Key.trainMs]; omega)]
  have hdmode : d.mode = Mode.train := by
    have hkey : d.get Key.deviceMode = s.get Key.deviceMode := by
      rw [hwrites₄.get _ (by unfold sliceModeWord; decide), hwrites₃.get _ (by unfold laneWord; decide), hget₁ _ (by unfold dramWord subchWord mapWord collectorWord; decide)]
    exact (mode_of_get hkey).trans hmode
  rw [if_pos hdmode]
  have hentered : Shown [Key.deviceMode, Key.modeChanges] d (d.enterMode Mode.idle) :=
    enterMode_shown (by rw [hdmode]; unfold leavesQuietly; decide) (by decide) (absurd · (by decide)) (absurd · (by decide)) (by decide) (absurd · (by decide))
  have hidle : (d.enterMode Mode.idle).mode = Mode.idle := by
    rw [State.mode, (enterMode_entered d Mode.idle).mode]
    rfl
  generalize d.enterMode Mode.idle = t at hentered hidle ⊢
  have hword : ∀ k, k ≠ Key.deviceMode → k ≠ Key.modeChanges → 0x30000000 ≤ k → t.get k = d.get k := fun k hmode hchanges hk =>
    hentered.get k (by simp [hmode, hchanges]) (.inr (le_trans (by decide) hk))
  refine ⟨hidle, ?_, fun i hi => ?_, fun g hg => ?_, fun i hi => ?_, ?_, ?_⟩
  · rw [hentered.get _ (by decide) (.inl (by decide)), hwrites₄.get _ (by unfold sliceModeWord; decide), hms₃]
  · have hi' := mem_populated_lt hi
    have hkey : 0x30000000 ≤ Key.subchStatus i ∧ Key.subchStatus i < 0x50000000 ∧ Key.subchStatus i ≠ Key.deviceMode ∧ Key.subchStatus i ≠ Key.modeChanges := by
      simp only [Key.subchStatus, mkKey, Key.deviceMode, Key.modeChanges]
      omega
    rw [State.subchSt, State.getF_eq, hword _ hkey.2.2.1 hkey.2.2.2 hkey.1, hsub _ hkey.1 hkey.2.1]
    exact (hsubchs₁ i hi).1
  · have hkey : 0x60000000 ≤ Key.laneStatus g ∧ Key.laneStatus g ≠ Key.deviceMode ∧ Key.laneStatus g ≠ Key.modeChanges := by
      simp only [Key.laneStatus, mkKey, Key.deviceMode, Key.modeChanges]
      omega
    rw [State.laneState, State.getF_eq, hword _ hkey.2.1 hkey.2.2 (le_trans (by decide) hkey.1), hwrites₄.get _ (by simp only [sliceModeWord]; omega)]
    exact hlanes₃ g hg
  · refine List.mem_filter.2 ⟨List.mem_range.2 (mem_populated_lt hi), ?_⟩
    rw [hword _ (by decide) (by decide) (by decide), hsub _ (by decide) (by decide)]
    exact (hsubchs₁ i hi).2
  · rw [hword _ (by decide) (by decide) (by decide), hsub _ (by decide) (by decide), hfill₁]
  · rw [hentered.cells, hwrites₄.cells, hwrites₃.cells, hcells₁]

end Sys2Proof.Machine
end

section
/-! Power fails and the flush (R403, R417-R419; the third part of O60). -/

namespace Sys2Proof.Machine

/-! ## The release of the outputs (R244, R418) -/

theorem setLbk_lbk (l : LaneLevel) (sls : List Nat) : ∀ (s : State) (n : Nat), (n ∈ sls ∨ (s.slice n).lbk = l) → ((s.setLbk sls l).slice n).lbk = l := by
  induction sls with
  | nil => exact fun s n h => h.resolve_left List.not_mem_nil
  | cons sl sls ih =>
    refine fun s n h => ih (s.putSlice sl { s.slice sl with lbk := l }) n ?_
    rw [State.slice_putSlice]
    by_cases hn : sl = n
    · exact .inr (by rw [if_pos hn])
    · rw [if_neg hn]
      exact h.imp_left (fun hin => (List.mem_cons.1 hin).resolve_left (Ne.symm hn))

/-- A DAC carries nothing, and shows no source. -/
def State.dacReleased (s : State) (d : Nat) : Prop := s.get (Key.dacActive d) = 0 ∧ s.dacSource d = 0

theorem setDac_dacReleased (s : State) (d e : Nat) (h : d = e ∨ s.dacReleased e) : (s.setDac d 0 0).dacReleased e := by
  have hactive : Key.dacActive d = Key.dacActive e ↔ d = e := by simp only [Key.dacActive, mkKey]; omega
  have hstatus : Key.dacStatus d = Key.dacStatus e ↔ d = e := by simp only [Key.dacStatus, mkKey]; omega
  have hcross : ∀ i j, Key.dacStatus i ≠ Key.dacActive j := fun i j => by simp only [Key.dacStatus, Key.dacActive, mkKey]; omega
  simp only [State.dacReleased, State.setDac, State.dacSource, State.getF_eq, State.get_putF, State.get_put, hactive, hstatus, hcross, (hcross _ _).symm, if_false] at h ⊢
  by_cases hd : d = e
  · rw [if_pos hd, if_pos hd, field_setField_same _ _ _ _ (by decide)]
    exact ⟨rfl, rfl⟩
  · rw [if_neg hd, if_neg hd]
    exact h.resolve_left hd

theorem releaseDacs_dacReleased (s : State) {d : Nat} (hd : d < 64) : s.releaseDacs.dacReleased d := by
  have hall : ∀ (l : List Nat) (u : State), (d ∈ l ∨ u.dacReleased d) → (l.foldl (fun t e => t.setDac e 0 0) u).dacReleased d := by
    intro l
    induction l with
    | nil => exact fun u h => h.resolve_left List.not_mem_nil
    | cons e l ih =>
      refine fun u h => ih _ ?_
      rcases h with h | h
      · rcases List.mem_cons.1 h with h | h
        · exact .inr (setDac_dacReleased u e d (.inl h.symm))
        · exact .inl h
      · exact .inr (setDac_dacReleased u e d (.inr h))
  exact hall _ s (.inl (List.mem_range.2 hd))

/-- What the lanes and the TRIGOUTs show. -/
def State.balls (s : State) : LaneLevel × List (Nat × LaneLevel) × List Nat × Bool := (s.laneBase, s.lanes, s.trigoutActive, s.trigoutHighZ)

/-- Every ball is high-impedance, every DAC at 0, and FLUSHED is set. -/
structure Released (t : State) : Prop where
  balls : t.balls = (.highZ, [], [], true)
  lbk : ∀ sl, sl < 32 → (t.slice sl).lbk = .highZ
  dacs : ∀ d, d < 64 → t.dacReleased d
  flushed : bit (t.get Key.quiesceStatus) 0 = true

/-- The lanes and the TRIGOUTs high-impedance. -/
def State.lanesReleased (s : State) : State := { s.floatTrigouts with laneBase := .highZ, lanes := [] }

theorem lanesReleased_spec (s : State) : s.lanesReleased.objs = s.objs ∧ s.lanesReleased.nvm = s.nvm ∧ s.lanesReleased.balls = (.highZ, [], [], true) := by
  obtain ⟨l, h⟩ := floatTrigouts_spec s
  rw [State.lanesReleased, h]
  exact ⟨rfl, rfl, rfl⟩

theorem setLbk_balls (sls : List Nat) (l : LaneLevel) (s : State) : (s.setLbk sls l).balls = s.balls :=
  List.foldlRecOn (motive := fun t : State => t.balls = s.balls) sls _ rfl (fun _ ht _ _ => ht)

theorem putF_balls (s : State) (k lo len v : Nat) : (s.putF k lo len v).balls = s.balls ∧ (s.putF k lo len v).slices = s.slices ∧ (s.putF k lo len v).nvm = s.nvm :=
  ⟨rfl, rfl, rfl⟩

theorem setDac_balls (s : State) (d src code : Nat) : (s.setDac d src code).balls = s.balls ∧ (s.setDac d src code).slices = s.slices := ⟨rfl, rfl⟩

theorem releaseDacs_balls (s : State) : s.releaseDacs.balls = s.balls ∧ s.releaseDacs.slices = s.slices :=
  List.foldlRecOn (motive := fun t : State => t.balls = s.balls ∧ t.slices = s.slices) _ _ ⟨rfl, rfl⟩ (fun t ht d _ =>
    ⟨(setDac_balls t d 0 0).1.trans ht.1, (setDac_balls t d 0 0).2.trans ht.2⟩)

theorem releaseOutputs_eq (s : State) : s.releaseOutputs = (s.lanesReleased.setLbk (List.range 32) .highZ).releaseDacs.putF Key.quiesceStatus 0 1 1 := by
  delta State.releaseOutputs State.lanesReleased
  extract_lets
  with_reducible rfl

theorem releaseOutputs_spec (s : State) : Released s.releaseOutputs ∧ s.releaseOutputs.mode = s.mode ∧ s.releaseOutputs.nvm = s.nvm := by
  rw [releaseOutputs_eq]
  obtain ⟨hobjs, hnvm, hballs⟩ := lanesReleased_spec s
  generalize s.lanesReleased = a at hobjs hnvm hballs ⊢
  have hlbk : ∀ n, n < 32 → ((a.setLbk (List.range 32) .highZ).slice n).lbk = .highZ := fun n hn => setLbk_lbk _ _ a n (.inl (List.mem_range.2 hn))
  have hset : Shown [] a (a.setLbk (List.range 32) .highZ) := (Shown.refl [] a).setLbk _ _
  replace hballs := (setLbk_balls (List.range 32) .highZ a).trans hballs
  generalize a.setLbk (List.range 32) .highZ = b at hlbk hset hballs ⊢
  have hdacs : ∀ d, d < 64 → b.releaseDacs.dacReleased d := fun d hd => releaseDacs_dacReleased b hd
  obtain ⟨hkept, hslices⟩ := releaseDacs_balls b
  have hshown : Shown [] a b.releaseDacs := hset.releaseDacs
  generalize b.releaseDacs = c at hdacs hkept hslices hshown ⊢
  have hother : ∀ k, k ≠ Key.quiesceStatus → (c.putF Key.quiesceStatus 0 1 1).get k = c.get k := fun k hk => State.get_put_other _ _ hk.symm
  have hword : (c.putF Key.quiesceStatus 0 1 1).get Key.quiesceStatus = setField (c.get Key.quiesceStatus) 0 1 1 := State.get_put_same _ _ _
  obtain ⟨hkept', hslices', hnvm'⟩ := putF_balls c Key.quiesceStatus 0 1 1
  generalize c.putF Key.quiesceStatus 0 1 1 = t at hother hword hkept' hslices' hnvm' ⊢
  refine ⟨⟨hkept'.trans (hkept.trans hballs), fun sl hsl => ?_, fun d hd => ?_, ?_⟩, ?_, hnvm'.trans (hshown.nvm.trans hnvm)⟩
  · have hslice : t.slice sl = b.slice sl := by simp only [State.slice, hslices', hslices]
    rw [hslice, hlbk sl hsl]
  · have hkeys : Key.dacActive d ≠ Key.quiesceStatus ∧ Key.dacStatus d ≠ Key.quiesceStatus := by
      simp only [Key.dacActive, Key.dacStatus, Key.quiesceStatus, mkKey]; omega
    have hd' := hdacs d hd
    simp only [State.dacReleased, State.dacSource, State.getF_eq, hother _ hkeys.1, hother _ hkeys.2] at hd' ⊢
    exact hd'
  · rw [hword, bit, setField_bit, if_pos (by decide)]
    decide
  · refine mode_of_get ((hother _ (by decide)).trans ((hshown.get _ List.not_mem_nil (.inl (by decide))).trans ?_))
    exact get_of_objs hobjs _

/-! ## The record of the flush (R402, R405) -/

theorem flushRecord_spec {s : State} (h : s.nvm.closed = false) (typ : Nat) :
    (∃ r, (s.flushRecord typ).nvm.blackBox.getLast? = some r ∧ r.typ = typ ∧ r.payload = s.ledgerWords) ∧ (s.flushRecord typ).mode = s.mode := by
  obtain ⟨hrecord, -, -, hget, -⟩ := bbWrite_spec h typ s.ledgerWords
  have hflush : s.flushRecord typ = (s.bbWrite typ s.ledgerWords).putNvm
      { (s.bbWrite typ s.ledgerWords).nvm with
        flushRecords := (s.bbWrite typ s.ledgerWords).nvm.flushRecords ++ [(s.bbWrite typ s.ledgerWords).ledgerCopy (s.get Key.bbNextSeq).toNat] } := by
    rw [State.flushRecord, h, if_neg Bool.false_ne_true]
  rw [hflush]
  generalize s.bbWrite typ s.ledgerWords = t at hrecord hget ⊢
  exact ⟨hrecord, mode_of_get ((get_of_objs rfl _).trans (hget _ (by decide)))⟩

theorem powerFailRecord_spec {s : State} (hfailing : s.powerFailing = true) (hopen : s.nvm.closed = false) :
    ∃ t r, exec .powerFailRecord s = .next t ∧ t.nvm.blackBox.getLast? = some r ∧ r.typ = 3 ∧ r.payload = s.ledgerWords ∧ t.nvm.closed = true ∧ Released t ∧ t.mode = s.mode := by
  obtain ⟨⟨r, hr, htyp, hpayload⟩, hmode⟩ := flushRecord_spec hopen 3
  have hexec : exec .powerFailRecord s = .next (((s.flushRecord 3).putNvm { (s.flushRecord 3).nvm with closed := true }).releaseOutputs) := by
    have h : exec .powerFailRecord s = execPowerFailRecord s := rfl
    rw [h, execPowerFailRecord, hfailing, hopen, Bool.not_false, Bool.and_self, if_pos rfl]
  rw [hexec]
  generalize s.flushRecord 3 = u at hr hmode ⊢
  obtain ⟨hreleased, hkept, hnvm⟩ := releaseOutputs_spec (u.putNvm { u.nvm with closed := true })
  generalize (u.putNvm { u.nvm with closed := true }).releaseOutputs = t at hreleased hkept hnvm ⊢
  refine ⟨t, r, rfl, ?_, htyp, hpayload, ?_, hreleased, ?_⟩
  · rw [hnvm]; exact hr
  · rw [hnvm]; rfl
  · exact hkept.trans hmode

theorem quiesceFlushed_spec {s : State} (hmode : s.mode = Mode.quiesce) (hpower : s.powerFailing = false) (hflushed : bit (s.get Key.quiesceStatus) 0 = false)
    (hidle : s.lichenBusy = false) (hopen : s.nvm.closed = false) (hchans : ∀ c, c < 8 → (s.chan c).state = 0) :
    ∃ t r, exec .quiesceFlushed s = .next t ∧ t.nvm.blackBox.getLast? = some r ∧ r.typ = 4 ∧ Released t ∧ t.mode = s.mode := by
  obtain ⟨⟨r, hr, htyp, -⟩, hkept⟩ := flushRecord_spec hopen 4
  have hstopped : (List.range 8).foldl (fun t c => t.stopChannel c) s = s :=
    List.foldlRecOn (motive := fun t : State => t = s) _ _ rfl (fun t ht c hc => by rw [ht, State.stopChannel, if_pos (hchans c (List.mem_range.1 hc))])
  have hexec : exec .quiesceFlushed s = .next (s.flushRecord 4).releaseOutputs := by
    have h : exec .quiesceFlushed s = execQuiesceFlushed s := rfl
    simp only [h, execQuiesceFlushed, hmode, hpower, hflushed, hidle, hstopped, decide_true, Bool.not_false, Bool.and_self, if_true]
  rw [hexec]
  generalize s.flushRecord 4 = u at hr hkept ⊢
  obtain ⟨hreleased, hmode', hnvm⟩ := releaseOutputs_spec u
  generalize u.releaseOutputs = t at hreleased hmode' hnvm ⊢
  exact ⟨t, r, rfl, by rw [hnvm, hr], htyp, hreleased, hmode'.trans hkept⟩

/-! ## PWRFAIL_N falls (R417, R419) -/

/-- The words by which a power fail goes on: the mode, its request, QUIESCE_STATUS and the bit of FS007. -/
def flowKeys : List Nat := [Key.deviceMode, Key.modeRequest, Key.quiesceStatus, Key.faultCause 0]

theorem mkKey_not_mem_flowKeys {area obj el : Nat} (h : 2 ≤ area ∧ area < 0x50 ∧ obj < 0x10000 ∧ el < 0x100 ∨ 0x50 ≤ area ∧ 3 ≤ obj) : mkKey area obj el ∉ flowKeys := by
  simp only [flowKeys, Key.deviceMode, Key.modeRequest, Key.quiesceStatus, Key.faultCause, mkKey, List.mem_cons, List.not_mem_nil, or_false]
  omega

/-- `t` is `s` but for other objects, the collector's lists, the records of the acquisition units and the messages that left the device. -/
structure FlowKept (s t : State) : Prop where
  get : ∀ k ∈ flowKeys, t.get k = s.get k
  rest : { t with
    objs := s.objs, subs := s.subs, liveLocs := s.liveLocs, histRead := s.histRead, watch := s.watch, faultIrqHeld := s.faultIrqHeld, faultWindow := s.faultWindow,
    out := s.out, msixPending := s.msixPending, acqs := s.acqs } = s

namespace FlowKept

theorem refl (s : State) : FlowKept s s := ⟨fun _ _ => rfl, rfl⟩

theorem ite {r s t : State} {c : Prop} [Decidable c] (h : FlowKept r s) (k : FlowKept r t) : FlowKept r (if c then s else t) := by split <;> assumption

theorem trans {r s t : State} (h : FlowKept r s) (k : FlowKept s t) : FlowKept r t := by
  refine ⟨fun j hj => (k.get j hj).trans (h.get j hj), ?_⟩
  have hs := k.rest
  have hr := h.rest
  rw [← hs] at hr
  exact hr

variable {r s : State} (h : FlowKept r s)
include h

/-- Whatever such a state notes, its objects and the rest stand. -/
theorem of_eq {t : State} (hobjs : t.objs = s.objs := by rfl)
    (hrest : { t with
      objs := s.objs, subs := s.subs, liveLocs := s.liveLocs, histRead := s.histRead, watch := s.watch, faultIrqHeld := s.faultIrqHeld, faultWindow := s.faultWindow,
      out := s.out, msixPending := s.msixPending, acqs := s.acqs } = s := by rfl) : FlowKept r t :=
  h.trans ⟨fun k _ => get_of_objs hobjs k, hrest⟩

theorem put {k : Nat} (hk : k ∉ flowKeys) (v : Word) : FlowKept r (s.put k v) := h.trans ⟨fun _ hj => s.get_put_other v (fun e => hk (e ▸ hj)), rfl⟩

theorem putF {k : Nat} (hk : k ∉ flowKeys) (lo len v : Nat) : FlowKept r (s.putF k lo len v) := h.put hk _

theorem count {k : Nat} (hk : k ∉ flowKeys) (bits : Nat) : FlowKept r (s.count k bits) := h.put hk _

theorem foldl {α : Type} {f : State → α → State} {l : List α} (hf : ∀ t, ∀ x ∈ l, FlowKept r t → FlowKept r (f t x)) : FlowKept r (l.foldl f s) :=
  List.foldlRecOn l f h (fun t ht x hx => hf t x hx ht)

theorem histRead (l : List Nat) : FlowKept r { s with histRead := l } := h.trans ⟨fun k _ => get_of_objs rfl k, rfl⟩

theorem watch (l : List Watch) : FlowKept r { s with watch := l } := h.trans ⟨fun k _ => get_of_objs rfl k, rfl⟩

theorem irq (e : Nat) : FlowKept r (s.irq e) := by
  simp only [State.irq, State.signal]
  exact ite h (ite (ite h h.of_eq) h.of_eq)

theorem faultIrq : FlowKept r s.faultIrq := ite h.of_eq (of_eq (h.irq _))

/-- The history and the first-fault record (R375, R378). -/
theorem recordRaise (x : Raise) (sev : Nat) : FlowKept r (s.recordRaise x sev) := by
  have hfirst : ∀ e, Key.firstFault e ∉ flowKeys := fun e => mkKey_not_mem_flowKeys (.inr (by decide))
  have hhistory : ∀ n e, Key.histEntry n e ∉ flowKeys := fun n e => mkKey_not_mem_flowKeys (.inr (by omega))
  delta State.recordRaise
  extract_lets lo q slot s₁ s₂ s₃ s₄ first s₅ s₆
  have hlost : FlowKept r s₁ := ite (h.count (by decide) _) h
  clear_value s₁
  have hhist : FlowKept r s₂ := (hlost.put (hhistory _ _) lo).put (hhistory _ _) _
  clear_value s₂
  have hread : FlowKept r s₃ := hhist.histRead _
  clear_value s₃
  have hcount : FlowKept r s₄ := hread.count (by decide) _
  clear_value s₄
  have hnoted : FlowKept r s₅ := ite ((hcount.put (hfirst 0) _).put (hfirst 1) _) hcount
  clear_value s₅
  have hwatch : FlowKept r s₆ := hnoted.watch _
  clear_value s₆
  exact ite hwatch.faultIrq hwatch

theorem closeRecord {u : Nat} (hu : u < 8) (trunc : Bool) : FlowKept r (s.closeRecord u trunc) := by
  have hkey : Key.acqState u ∉ flowKeys := mkKey_not_mem_flowKeys (.inl (by omega))
  delta State.closeRecord
  extract_lets a pairs pre n x s₁
  have hrecord : FlowKept r s₁ := h.of_eq
  clear_value s₁
  exact (hrecord.put hkey _).irq _

end FlowKept

/-- FS007 as PWRFAIL_N raises it. -/
def powerRaise : Raise := { source := 7, loc := .none, detail := 0, injected := false }

/-- The word of FAULT_CAUSE with the bit of FS007. -/
theorem setMapBit_causeBit (s : State) (i : Nat) : (s.setMapBit Key.faultCause i).causeBit i = true := by
  have hi : i % 64 < 64 := Nat.mod_lt _ (by decide)
  rw [State.causeBit, State.mapBit, State.setMapBit, State.get_put_same, bit, setBit, setField_bit, if_pos (by omega)]
  simp [hi]

/-- FS007 sets its bit, which lasts (R374); of the words by which the power fail goes on, the raise writes that one alone. -/
theorem noteRaise_powerRaise (s : State) (sev : Nat) :
    (∃ u : State, u = s.countSat (Key.raises 7) 32 1 ∧ FlowKept (u.setMapBit Key.faultCause 7) (s.noteRaise powerRaise sev)) := by
  have hlasting : (lastingSource 7 && !false) = true := by decide
  refine ⟨_, rfl, ?_⟩
  delta State.noteRaise
  extract_lets fresh s₁ s₂ s₃ s₄
  have hset : FlowKept (s₁.setMapBit Key.faultCause 7) s₂ := (FlowKept.refl _).put (by decide) _
  clear_value s₂
  have hlocs : FlowKept (s₁.setMapBit Key.faultCause 7) s₃ := hset.of_eq
  clear_value s₃
  have hrecord : FlowKept (s₁.setMapBit Key.faultCause 7) s₄ := .ite (hlocs.recordRaise _ _) hlocs
  clear_value s₄
  have hend : (if lastingSource powerRaise.source && !powerRaise.injected then s₄ else s₄.clearLive powerRaise.source) = s₄ := if_pos hlasting
  rw [hend]
  exact hrecord

/-- At no more than DEGRADE a raise of FS007 is its record alone (R368). -/
theorem fault_powerRaise {s : State} (h : s.severityOf 7 ≤ Sev.degrade) : s.fault 7 .none 0 = s.noteRaise powerRaise (s.severityOf 7) := by
  have hfault : s.fault 7 .none 0 = (s.noteFull powerRaise (s.severityOf 7)).effects powerRaise (s.severityOf 7) [] := rfl
  have heffects : ∀ u : State, ∀ sev : Nat, u.effects powerRaise sev [] = (if Sev.portStop ≤ sev then u else u).act powerRaise sev [] := fun _ _ => rfl
  have hrecord : ∀ u : State, u.faultRecord powerRaise (s.severityOf 7) = u := fun u => by
    simp only [State.faultRecord]
    rw [if_neg (by unfold Sev.degrade Sev.machineCheck at *; omega), if_neg (by unfold Sev.degrade Sev.deviceSafe at *; omega)]
  rw [hfault, heffects, ite_self, State.act, if_pos h]
  simp only [State.noteFull, hrecord, ite_self]

/-- What the raise of FS007 leaves. -/
structure PowerNoted (s t : State) : Prop where
  get : t.get Key.deviceMode = s.get Key.deviceMode ∧ t.get Key.modeRequest = s.get Key.modeRequest ∧ t.get Key.quiesceStatus = s.get Key.quiesceStatus
  cause : t.causeBit 7 = true
  ledger : t.ledger = s.ledger
  runs : t.routine = s.routine ∧ t.diag = s.diag

theorem fault_powerNoted {s : State} (h : s.severityOf 7 ≤ Sev.degrade) : PowerNoted s (s.fault 7 .none 0) := by
  rw [fault_powerRaise h]
  obtain ⟨u, hu, hkept⟩ := noteRaise_powerRaise s (s.severityOf 7)
  generalize s.noteRaise powerRaise (s.severityOf 7) = t at hkept ⊢
  have hcounted : ∀ k, k ≠ Key.raises 7 → u.get k = s.get k := fun k hk => by rw [hu]; exact State.get_put_other _ _ hk.symm
  have hfields : u.ledger = s.ledger ∧ u.routine = s.routine ∧ u.diag = s.diag := by rw [hu]; exact ⟨rfl, rfl, rfl⟩
  clear hu
  have hset : ∀ k, k ≠ Key.faultCause 0 → (u.setMapBit Key.faultCause 7).get k = u.get k := fun k hk => State.get_put_other _ _ hk.symm
  have hbit := setMapBit_causeBit u 7
  have hfields' : (u.setMapBit Key.faultCause 7).ledger = u.ledger ∧ (u.setMapBit Key.faultCause 7).routine = u.routine ∧ (u.setMapBit Key.faultCause 7).diag = u.diag :=
    ⟨rfl, rfl, rfl⟩
  generalize u.setMapBit Key.faultCause 7 = v at hkept hset hbit hfields' ⊢
  have hword : ∀ k ∈ flowKeys, k ≠ Key.faultCause 0 → k ≠ Key.raises 7 → t.get k = s.get k := fun k hk hcause hraises =>
    (hkept.get k hk).trans ((hset k hcause).trans (hcounted k hraises))
  have hledger := congrArg State.ledger hkept.rest
  have hroutine := congrArg State.routine hkept.rest
  have hdiag := congrArg State.diag hkept.rest
  refine ⟨⟨hword _ (by decide) (by decide) (by decide), hword _ (by decide) (by decide) (by decide), hword _ (by decide) (by decide) (by decide)⟩, ?_,
    hledger.trans (hfields'.1.trans hfields.1), hroutine.trans (hfields'.2.1.trans hfields.2.1), hdiag.trans (hfields'.2.2.trans hfields.2.2)⟩
  have hmap : t.get (Key.faultCause (7 / 64)) = v.get (Key.faultCause (7 / 64)) := hkept.get _ (by decide)
  simp only [State.causeBit, State.mapBit, hmap] at hbit ⊢
  exact hbit

/-- The fall counted, and the flush under way. -/
def State.powerMarked (s : State) : State := { s with ledger := { s.ledger with powerFails := (s.ledger.powerFails + 1) % 2 ^ 32 } }.putF Key.quiesceStatus 1 1 1

theorem powerMarked_spec (s : State) : s.powerMarked.powerFailing = true ∧ (∀ k, k ≠ Key.quiesceStatus → s.powerMarked.get k = s.get k) ∧
    s.powerMarked.ledger.powerFails = (s.ledger.powerFails + 1) % 2 ^ 32 ∧ s.powerMarked.routine = s.routine ∧ s.powerMarked.diag = s.diag := by
  have hother : ∀ k, k ≠ Key.quiesceStatus → s.powerMarked.get k = s.get k := fun k hk => (State.get_put_other _ _ hk.symm).trans (get_of_objs rfl k)
  refine ⟨?_, hother, rfl, rfl, rfl⟩
  have hword : s.powerMarked.get Key.quiesceStatus = setField (s.get Key.quiesceStatus) 1 1 1 := (State.get_put_same _ _ _).trans (congrArg (setField · 1 1 1) (get_of_objs rfl _))
  rw [State.powerFailing, hword, bit, setField_bit, if_pos (by decide)]
  decide

/-- The writes of paired records given up (R58, R400). -/
def State.recordsFailed (s : State) : State :=
  [Key.dictPersist, Key.guardCommit, Key.fwActivate].foldl (fun t k => if t.cmdBusy k then t.cmdFail k .aborted 0 else t) s

theorem recordsFailed_kept (s : State) : FlowKept s s.recordsFailed := by
  refine (FlowKept.refl s).foldl (fun t k hk ht => .ite (ht.put ?_ _) ht)
  simp only [List.mem_cons, List.not_mem_nil, or_false] at hk
  rcases hk with rfl | rfl | rfl <;> decide

/-- The units and the slots that an entry into QUIESCE puts to rest (R259, R321). -/
def State.unitsRested (s : State) : State :=
  let s := (List.range 8).foldl (fun t u => if t.acqSt u = 2 then t.closeRecord u true else t) s
  (List.range 64).foldl (fun t n => if t.slotState n = 0 then t else t.putF (Key.slotStatus n) 0 3 0) s

theorem unitsRested_kept (s : State) : FlowKept s s.unitsRested := by
  have hunits : FlowKept s ((List.range 8).foldl (fun t u => if t.acqSt u = 2 then t.closeRecord u true else t) s) :=
    (FlowKept.refl s).foldl (fun _ _ hu ht => .ite (ht.closeRecord (List.mem_range.1 hu) true) ht)
  refine hunits.foldl (fun _ n hn ht => .ite ht (ht.putF (mkKey_not_mem_flowKeys (.inl ?_)) _ _ _))
  have := List.mem_range.1 hn
  omega

/-- No write of a paired record waits any more (R417). -/
def State.writesDropped (s : State) : State := s.putNvm { s.nvm with persistImage := none, guardImage := none, snapshotDue := false }

theorem writesDropped_spec (s : State) : (∀ k, s.writesDropped.get k = s.get k) ∧ s.writesDropped.nvm.persistImage = none ∧ s.writesDropped.ledger = s.ledger ∧
    s.writesDropped.routine = s.routine ∧ s.writesDropped.diag = s.diag := ⟨fun _ => rfl, rfl, rfl, rfl, rfl⟩

theorem abandonWrites_eq (s : State) : s.abandonWrites = s.recordsFailed.writesDropped := rfl

theorem quiesceForPower_of_idle {s : State} (h : s.mode = Mode.idle) : s.quiesceForPower = s.unitsRested.enterMode Mode.quiesce := by
  have hburst : (decide (s.mode = Mode.burst) && s.burst.running) = false := by rw [h]; rfl
  rw [State.quiesceForPower, if_neg (by rw [h]; decide), hburst, if_neg Bool.false_ne_true]
  rfl

/-- With no mode change in progress the writes are given up first. -/
theorem powerFalls_eq {s : State} (hfailing : s.powerFailing = false) (hrequest : s.cmdBusy Key.modeRequest = false) :
    s.powerFalls = s.powerMarked.recordsFailed.writesDropped.quiesceForPower := by
  have hfalls : s.powerFalls = if s.powerFailing then { s with ledger := { s.ledger with powerFails := (s.ledger.powerFails + 1) % 2 ^ 32 } } else
      s.powerMarked.modeAbort.abandonWrites.quiesceForPower := rfl
  have hother := (powerMarked_spec s).2.1 Key.modeRequest (by decide)
  have hbusy : s.powerMarked.cmdBusy Key.modeRequest = false := by
    generalize s.powerMarked = u at hother ⊢
    simp only [State.cmdBusy, State.cmdState, State.getF_eq, hother] at hrequest ⊢
    exact hrequest
  have habort : s.powerMarked.modeAbort = s.powerMarked := by rw [State.modeAbort, hbusy, if_neg Bool.false_ne_true]
  rw [hfalls, hfailing, if_neg Bool.false_ne_true, habort, abandonWrites_eq]

/-- A power fail of an idle device takes it to QUIESCE (R417, R419). -/
theorem pwrfail_spec {s : State} (hmode : s.mode = Mode.idle) (hsev : s.severityOf 7 ≤ Sev.degrade) (hfailing : s.powerFailing = false) (hchanging : s.modeChanging = false)
    (hroutine : s.routine = none) (hdiag : s.diag = none) :
    ∃ t, exec .pwrfail s = .next t ∧ t.mode = Mode.quiesce ∧ t.powerFailing = true ∧ t.ledger.powerFails = (s.ledger.powerFails + 1) % 2 ^ 32 ∧ t.causeBit 7 = true ∧
      t.nvm.persistImage = none := by
  have hexec : exec .pwrfail s = .next ((s.fault 7 .none 0).powerFalls) := by
    have h : exec .pwrfail s = execPwrfail s := rfl
    rw [h, execPwrfail, if_neg (by rw [hmode]; decide)]
  refine ⟨_, hexec, ?_⟩
  obtain ⟨⟨hwmode, hwrequest, hwquiesce⟩, hcause, hledger, hruns⟩ := fault_powerNoted hsev
  generalize s.fault 7 .none 0 = a at hwmode hwrequest hwquiesce hcause hledger hruns ⊢
  have hfailing' : a.powerFailing = false := by simpa only [State.powerFailing, hwquiesce] using hfailing
  have hrequest : a.cmdBusy Key.modeRequest = false := by
    simp only [State.modeChanging, Bool.or_eq_false_iff] at hchanging
    simpa only [State.cmdBusy, State.cmdState, State.getF_eq, hwrequest] using hchanging.1
  rw [powerFalls_eq hfailing' hrequest]
  obtain ⟨hbfailing, hbget, hbfails, hbroutine, hbdiag⟩ := powerMarked_spec a
  generalize a.powerMarked = b at hbfailing hbget hbfails hbroutine hbdiag ⊢
  have hfailed := recordsFailed_kept b
  generalize b.recordsFailed = c at hfailed ⊢
  obtain ⟨hdget, himage, hdledger, hdroutine, hddiag⟩ := writesDropped_spec c
  generalize c.writesDropped = d at hdget himage hdledger hdroutine hddiag ⊢
  have hdkeys : ∀ k ∈ flowKeys, d.get k = b.get k := fun k hk => (hdget k).trans (hfailed.get k hk)
  rw [quiesceForPower_of_idle ((mode_of_get ((hdkeys _ (by decide)).trans ((hbget _ (by decide)).trans hwmode))).trans hmode)]
  have hrested := unitsRested_kept d
  generalize d.unitsRested = e at hrested ⊢
  have hekeys : ∀ k ∈ flowKeys, e.get k = b.get k := fun k hk => (hrested.get k hk).trans (hdkeys k hk)
  have hemode : e.mode = Mode.idle := (mode_of_get ((hekeys _ (by decide)).trans ((hbget _ (by decide)).trans hwmode))).trans hmode
  have hcledger := congrArg State.ledger hfailed.rest
  have hcroutine := congrArg State.routine hfailed.rest
  have hcdiag := congrArg State.diag hfailed.rest
  have henvm := congrArg State.nvm hrested.rest
  have heledger := congrArg State.ledger hrested.rest
  have heroutine := congrArg State.routine hrested.rest
  have hediag := congrArg State.diag hrested.rest
  have hnoroutine : e.routine = none := heroutine.trans (hdroutine.trans (hcroutine.trans (hbroutine.trans (hruns.1.trans hroutine))))
  have hnodiag : e.diag = none := hediag.trans (hddiag.trans (hcdiag.trans (hbdiag.trans (hruns.2.trans hdiag))))
  have hentered : Shown [Key.deviceMode, Key.modeChanges, Key.wdogStatus] e (e.enterMode Mode.quiesce) :=
    enterMode_shown (by rw [hemode]; unfold leavesQuietly; decide) (by decide) (fun _ => hnoroutine) (fun _ => hnodiag) (by decide) (fun _ => by decide)
  have hquiesce : (e.enterMode Mode.quiesce).mode = Mode.quiesce := by
    rw [State.mode, (enterMode_entered e Mode.quiesce).mode]
    rfl
  generalize e.enterMode Mode.quiesce = t at hentered hquiesce ⊢
  have hstatus : t.get Key.quiesceStatus = b.get Key.quiesceStatus := (hentered.get _ (by decide) (.inl (by decide))).trans (hekeys _ (by decide))
  have hmap : t.get (Key.faultCause (7 / 64)) = a.get (Key.faultCause (7 / 64)) :=
    (hentered.get _ (by decide) (.inr (by decide))).trans ((hekeys _ (by decide)).trans (hbget _ (by decide)))
  refine ⟨hquiesce, ?_, ?_, ?_, ?_⟩
  · simpa only [State.powerFailing, hstatus] using hbfailing
  · have hfinal : t.ledger = b.ledger := hentered.ledger.trans (heledger.trans (hdledger.trans hcledger))
    rw [hfinal, hbfails, hledger]
  · simp only [State.causeBit, State.mapBit, hmap] at hcause ⊢
    exact hcause
  · have hfinal : t.nvm = d.nvm := hentered.nvm.trans henvm
    rw [hfinal, himage]

end Sys2Proof.Machine
end

section
/-! The clauses of O60 on a release of RESET, and the statement. -/

namespace Sys2Proof.Machine

theorem romRead_bootSlot {s t : State} (h : RomRead s t) : t.nvm.bootSlot = s.nvm.bootSlot := by
  rw [h.nvm]
  rfl

section
variable {s : State} (hmode : s.mode = Mode.reset) (hread : RomRead s s.romRead)
  (hfactory : ∀ p, p < 32 → p ∈ s.nvm.factoryBad → p + 32 ∉ s.nvm.factoryBad) (htorn : s.nvm.tornSlots = []) {slot0 slot1 : Nat} (v : BitVec 32)
include hmode hread hfactory htorn

/-- The selector's slot runs (R413). -/
theorem resetRelease_first (hslot : (if s.nvm.bootSlot = 0 then slot0 else slot1) = 1) :
    ∃ t, exec (.resetRelease true true slot0 slot1 v) s = .next t ∧ t.mode = Mode.boot ∧ t.getF Key.bootStatus 0 3 = 4 ∧ t.getF Key.bootStatus 4 1 = 0 ∧
      t.get Key.firmwareVersion = toWord v.toNat ∧ t.get Key.resetCause = s.causeWord ∧ t.resetSeen = [] ∧ t.pcieUp = true ∧
      t.get Key.bbValid = toWord s.nvm.blackBox.length := by
  obtain ⟨hbooted, hversion⟩ := tryImages_first (s := s.romRead) v (by rw [romRead_bootSlot hread]; exact hslot)
  have hleft := hbooted.of_romRead hread
  obtain ⟨hstatus, -, hfell⟩ := hbooted.word
  rw [exec_resetRelease hmode, startBoot_eq hread hfactory htorn]
  exact ⟨_, rfl, hleft.mode, hstatus, hfell, hversion, hleft.cause, hleft.link.1, hleft.link.2, hleft.valid⟩

/-- The other slot runs where the selector's is rejected (R414). -/
theorem resetRelease_fallback (hslot : (if s.nvm.bootSlot = 0 then slot0 else slot1) ≠ 1) (hother : (if s.nvm.bootSlot = 0 then slot1 else slot0) = 1)
    (hlt : s.nvm.bootSlot < 2) :
    ∃ u : State, exec (.resetRelease true true slot0 slot1 v) s = .next (u.fault 22 .none 0) ∧ u.mode = Mode.boot ∧ u.getF Key.bootStatus 0 3 = 4 ∧
      u.getF Key.bootStatus 3 1 = 1 - s.nvm.bootSlot ∧ u.getF Key.bootStatus 4 1 = 1 ∧ u.get Key.firmwareVersion = toWord v.toNat ∧ u.pcieUp = true := by
  rw [← romRead_bootSlot hread] at hslot hother hlt
  obtain ⟨u, htried, hbooted, hversion⟩ := tryImages_fallback v hslot hother hlt
  have hleft := hbooted.of_romRead hread
  obtain ⟨hstatus, hused, hfell⟩ := hbooted.word
  rw [romRead_bootSlot hread, Nat.mod_eq_of_lt (by omega)] at hused
  rw [exec_resetRelease hmode, startBoot_eq hread hfactory htorn, htried]
  exact ⟨u, rfl, hleft.mode, hstatus, hused, hfell, hversion, hleft.link.2⟩

/-- With both rejected the device stays in BOOT (R414). -/
theorem resetRelease_none (h0 : slot0 ≠ 1) (h1 : slot1 ≠ 1) :
    ∃ t, exec (.resetRelease true true slot0 slot1 v) s = .next t ∧ t.mode = Mode.boot ∧ t.getF Key.bootStatus 0 3 = 7 ∧ ∀ ms, exec (.bootDone ms) t = .next t := by
  have hbooted := tryImages_none s.romRead v h0 h1
  have hleft := hbooted.of_romRead hread
  have hstatus : (s.romRead.tryImages slot0 slot1 v).getF Key.bootStatus 0 3 = 7 := hbooted.word.1
  rw [exec_resetRelease hmode, startBoot_eq hread hfactory htorn]
  generalize s.romRead.tryImages slot0 slot1 v = t at hleft hstatus ⊢
  refine ⟨t, rfl, hleft.mode, hstatus, fun ms => ?_⟩
  have hexec : exec (.bootDone ms) t = execBootDone ms t := rfl
  rw [hexec, execBootDone, if_neg (fun h => absurd (hstatus.symm.trans h.2) (by decide))]

end

/-- A release with a source still asserted does nothing (R411). -/
theorem resetRelease_held (s : State) (high : Bool) (slot0 slot1 : Nat) (v : BitVec 32) : exec (.resetRelease false high slot0 slot1 v) s = .next s := by
  have hexec : exec (.resetRelease false high slot0 slot1 v) s = execResetRelease false high slot0 slot1 v s := rfl
  rw [hexec, execResetRelease, if_neg (fun h => Bool.false_ne_true h.2.1)]

/-- RESET_N noted in RESET (R409). -/
theorem resetNLow_of_reset {s : State} (hmode : s.mode = Mode.reset) (hseen : s.resetSeen.contains 1 = false) :
    exec .resetNLow s = .next { s with resetPending := false, resetSeen := s.resetSeen ++ [1] } := by
  have hexec : exec .resetNLow s = .next (s.resetBy 1) := rfl
  rw [hexec, resetBy_of_reset hmode, hseen, if_neg Bool.false_ne_true]

theorem powerOnReset_zero (s : State) : exec (.powerOnReset 0) s = .next s := by
  have hexec : exec (.powerOnReset 0) s = execPowerOnReset 0 s := rfl
  rw [hexec, execPowerOnReset, if_pos rfl]

theorem deviceResetTaken_idle {s : State} (h : s.resetPending = false) : exec .deviceResetTaken s = .next s := by
  have hexec : exec .deviceResetTaken s = execDeviceResetTaken s := rfl
  rw [hexec, execDeviceResetTaken, h, if_neg Bool.false_ne_true]

theorem pwrfail_of_reset {s : State} (h : s.mode = Mode.reset) : exec .pwrfail s = .next s := by
  have hexec : exec .pwrfail s = execPwrfail s := rfl
  rw [hexec, execPwrfail, if_pos h]

/-- The outputs of a released device, one by one. -/
theorem Released.outputs {t : State} (h : Released t) : t.laneBase = .highZ ∧ t.lanes = [] ∧ t.trigoutActive = [] ∧ t.trigoutHighZ = true := by
  have hballs := h.balls
  simp only [State.balls, Prod.mk.injEq] at hballs
  exact hballs

end Sys2Proof.Machine

open Sys2Proof Sys2Proof.Machine

/-- Settles O60: resets by what the reset state keeps, the release by what the ROM reads and which image it tries, the end of BOOT and of TRAIN by the words each stage
writes, and the power fail by what its raise, the entry into QUIESCE and the release of the outputs leave. -/
theorem resetsBootAndPowerFail : Obligations.ResetsBootAndPowerFail := by
  unfold Obligations.ResetsBootAndPowerFail
  refine ⟨fun s p => ⟨resetNLow_spec, resetNLow_of_reset, fun rails h => powerOnReset_spec s h, powerOnReset_zero s, deviceReset_spec, fun arg => deviceReset_refused,
    deviceResetTaken_spec, deviceResetTaken_idle, rfl⟩, fun s => ⟨?_, resetRelease_held s, bootDone_spec, ?_⟩, fun s => ⟨pwrfail_of_reset, pwrfail_spec, ?_, ?_⟩⟩
  · intro slot0 slot1 v hmode hentries _ hfactory htorn
    have hread := romRead_spec hentries
    exact ⟨resetRelease_first hmode hread hfactory htorn v, resetRelease_fallback hmode hread hfactory htorn v, resetRelease_none hmode hread hfactory htorn v⟩
  · exact fun ms ddr deskew hmode hchanging hdiag _ hddr hdeskew => trainDone_spec ms hmode hchanging hdiag hddr hdeskew
  · intro hfailing hopen
    obtain ⟨t, r, hexec, hr, htyp, hpayload, hclosed, hreleased, hmode⟩ := powerFailRecord_spec hfailing hopen
    obtain ⟨hbase, hlanes, hactive, hhigh⟩ := hreleased.outputs
    exact ⟨t, r, hexec, hr, htyp, hpayload, hclosed, hreleased.flushed, hbase, hlanes, hactive, hhigh, hreleased.lbk, hreleased.dacs, hmode⟩
  · intro hmode hpower hflushed hidle hopen hchans
    obtain ⟨t, r, hexec, hr, htyp, hreleased, hkept⟩ := quiesceFlushed_spec hmode hpower hflushed hidle hopen hchans
    obtain ⟨hbase, hlanes, -, hhigh⟩ := hreleased.outputs
    exact ⟨t, r, hexec, hr, htyp, hreleased.flushed, hbase, hlanes, hhigh, hreleased.lbk, hreleased.dacs, hkept⟩
end

section
/-! Dispatch and preemption (R90, R94, R95; O38). -/

namespace Sys2Proof.Machine

/-! ## A thread's context and its state word -/

theorem thread_putThread_same (s : State) (n : Nat) (x : Thread) : (s.putThread n x).thread n = x := by
  rw [State.thread_putThread, if_pos rfl]

theorem thread_putThread_other (s : State) {n i : Nat} (h : i ≠ n) (x : Thread) : (s.putThread n x).thread i = s.thread i := by
  rw [State.thread_putThread, if_neg h.symm]

theorem threadSt_setThreadSt (s : State) (th : Nat) {st : Nat} (h : st < 16) : (s.setThreadSt th st).threadSt th = st := by
  rw [State.threadSt, State.setThreadSt, State.putF, State.getF_eq, State.get_put_same, field_setField_same _ _ _ _ (by decide)]
  exact Nat.mod_eq_of_lt h

theorem get_setThreadSt (s : State) {th k : Nat} (h : k ≠ Key.threadState th) (st : Nat) : (s.setThreadSt th st).get k = s.get k :=
  State.get_put_other _ _ h.symm

/-- A thread's state and context move together; no other thread and no other object does. -/
theorem putThread_setThreadSt_spec (s : State) (th : Nat) (x : Thread) {st : Nat} (hst : st < 16) :
    ((s.putThread th x).setThreadSt th st).threadSt th = st ∧ ((s.putThread th x).setThreadSt th st).thread th = x ∧
      (∀ i, i ≠ th → ((s.putThread th x).setThreadSt th st).thread i = s.thread i) ∧ s.objectsBut ((s.putThread th x).setThreadSt th st) [Key.threadState th] :=
  ⟨threadSt_setThreadSt _ _ hst, thread_putThread_same _ _ _, fun _ hi => thread_putThread_other _ hi _, fun _ hk => get_setThreadSt _ (mt List.mem_singleton.2 hk) _⟩

/-! ## DISPATCH (R90, R94, R95) -/

/-- A thread leaves a free core only for a free one that caches its context where this one does not (R95). -/
theorem homeCore_spec {s : State} {core th : Nat} (hfree : s.onCore core = none) :
    s.homeCore core th = core ∨
      ((mget [] s.caches core).contains th = false ∧ (mget [] s.caches (s.homeCore core th)).contains th = true ∧ s.onCore (s.homeCore core th) = none) := by
  delta State.homeCore
  extract_lets caching
  split
  · exact .inl rfl
  · next hmiss =>
    cases hfind : (List.range 64).find? caching with
    | none => exact .inl rfl
    | some home =>
      have hhome : (mget [] s.caches home).contains th = true ∧ (s.onCore home).isNone = true := by
        simpa only [caching, Bool.and_eq_true] using List.find?_some hfind
      refine .inr ⟨?_, hhome.1, Option.isNone_iff_eq_none.1 hhome.2⟩
      simpa only [caching, hfree, Option.isNone_none, Bool.and_true, Bool.not_eq_true] using hmiss

/-- A core that a thread comes to runs it and caches it first of at most 16 contexts (R90). -/
theorem dispatchTo_spec (s : State) (core th : Nat) :
    (s.dispatchTo core th).threadSt th = Th.running ∧ ((s.dispatchTo core th).thread th).core = some core ∧ ((s.dispatchTo core th).thread th).runSince = s.raw ∧
      (mget [] (s.dispatchTo core th).caches core).head? = some th ∧ (mget [] (s.dispatchTo core th).caches core).length ≤ 16 ∧
      (∀ i, i ≠ th → (s.dispatchTo core th).thread i = s.thread i) ∧ s.objectsBut (s.dispatchTo core th) [Key.threadState th] := by
  obtain ⟨hstate, hthread, hothers, hobjects⟩ :=
    putThread_setThreadSt_spec s th { s.thread th with core := some core, runSince := s.raw, waits := true } (st := Th.running) (by decide)
  have hcache : mget [] (s.dispatchTo core th).caches core = (th :: (mget [] s.caches core).filter (fun x => x != th)).take 16 := by
    simp only [State.dispatchTo, mget_mset_same]; rfl
  refine ⟨hstate, congrArg Thread.core hthread, congrArg Thread.runSince hthread, ?_, ?_, hothers, hobjects⟩
  · rw [hcache]; rfl
  · rw [hcache]; exact List.length_take_le _ _

theorem examine_of_no_injection {s : State} (h : s.injection = none) (src : Nat) (loc : Loc) : s.examine src loc = (s, none) := by
  simp only [State.examine, h]

theorem exec_dispatch {s : State} {core th : Nat} (hcore : core < 64) (hhalt : s.machineCheck = false) (hmode : s.mode = Mode.burst) (hfree : s.onCore core = none)
    (hnext : s.nextReady core = some th) (hinjection : s.injection = none) : exec (.dispatch core) s = .next (s.dispatchTo (s.homeCore core th) th) := by
  have hnone : (s.dispatchTo (s.homeCore core th) th).injection = none := hinjection
  simp only [exec, execDispatch, within, if_pos hcore, hhalt, hmode, hfree, hnext, bne_self_eq_false, Option.isSome_none, Bool.or_self, Bool.false_eq_true, if_false,
    examine_of_no_injection hnone]

/-! ## PREEMPT (R95) -/

theorem exec_preempt {s : State} {core th : Nat} (hcore : core < 64) (hhalt : s.machineCheck = false) (hruns : s.onCore core = some th)
    (hsince : (s.thread th).runSince + 8 ≤ s.raw) (hstate : s.threadSt th = Th.running) (hmatch : (s.thread th).matchRun = none)
    (hbusy : ∀ c, c < 64 → (s.onCore c).isSome = true) (hless : ∃ x ∈ s.readyThreads, s.effSlack x < s.slack th) :
    exec (.preempt core) s = .next ((s.putThread th { s.thread th with core := none, readySince := s.raw, waits := false }).setThreadSt th Th.ready) := by
  have hnone : (List.range 64).any (fun c => (s.onCore c).isNone) = false := by
    refine List.any_eq_false.2 (fun c hc => ?_)
    simp [Option.isSome_iff_ne_none.1 (hbusy c (List.mem_range.1 hc))]
  have hany : s.readyThreads.any (fun x => decide (s.effSlack x < s.slack th)) = true := by
    simpa only [List.any_eq_true, decide_eq_true_eq] using hless
  simp [exec, execPreempt, within, hcore, hruns, hnone, hany, hsince, hstate, hmatch, hhalt]

end Sys2Proof.Machine

open Sys2Proof Sys2Proof.Machine

/-- Settles O38: a dispatched thread goes where `homeCore` sends it, and a preempted one gives up its core and its state alone. -/
theorem coresRunThreads : Obligations.CoresRunThreads := by
  unfold Obligations.CoresRunThreads
  refine fun s core th hcore hhalt => ⟨fun hmode hfree hnext hinjection => ?_, fun hruns hsince hstate hmatch hbusy hless => ?_⟩
  · exact ⟨_, s.homeCore core th, exec_dispatch hcore hhalt hmode hfree hnext hinjection, homeCore_spec hfree, dispatchTo_spec s (s.homeCore core th) th⟩
  · obtain ⟨hready, hthread, hothers, hobjects⟩ :=
      putThread_setThreadSt_spec s th { s.thread th with core := none, readySince := s.raw, waits := false } (st := Th.ready) (by decide)
    exact ⟨_, exec_preempt hcore hhalt hruns hsince hstate hmatch hbusy hless, hready, congrArg Thread.core hthread, congrArg Thread.readySince hthread, hothers, hobjects⟩

end

section
/-! Spans, span credits and fetches (R91, R97-R99; O39). -/

namespace Sys2Proof.Machine

/-! ## A slice's state -/

theorem slice_putSlice_same (s : State) (n : Nat) (x : SliceSt) : (s.putSlice n x).slice n = x := by
  rw [State.slice_putSlice, if_pos rfl]

theorem slice_putSlice_other (s : State) {n i : Nat} (h : i ≠ n) (x : SliceSt) : (s.putSlice n x).slice i = s.slice i := by
  rw [State.slice_putSlice, if_neg h.symm]

/-! ## SPAN_ARRIVAL (R97) -/

/-- A span inside the window waits in its own slot, at least until the slice has released what it can. -/
def State.hold (s : State) (sl th seq : Nat) : State :=
  if (s.slice sl).held.contains (th, seq) then s else s.putSlice sl { s.slice sl with held := (s.slice sl).held ++ [(th, seq)] }

/-- How far a span number lies ahead of the one that a slice expects (R97). -/
abbrev State.ahead (s : State) (sl th seq : Nat) : Nat := (seq + 2 ^ 32 - mget 0 (s.slice sl).expect th) % 2 ^ 32

theorem arrive_of_lt {s : State} {sl th seq : Nat} (h : s.ahead sl th seq < s.spanShare sl th) : s.arrive sl th seq = (s.hold sl th seq).release sl th 257 :=
  if_neg (Nat.not_le.2 h)

theorem arrive_of_le {s : State} {sl th seq : Nat} (h : s.spanShare sl th ≤ s.ahead sl th seq) : s.arrive sl th seq = s.fault 36 (.thread th) 0 := if_pos h

/-- A held span is among those the slice holds beside the ones it held; nothing else changes. -/
theorem hold_spec (s : State) (sl th seq : Nat) :
    ((s.hold sl th seq).slice sl).expect = (s.slice sl).expect ∧
      (∀ y, ((s.hold sl th seq).slice sl).held.contains y = ((s.slice sl).held.contains y || y == (th, seq))) ∧
      (∀ i, i ≠ sl → (s.hold sl th seq).slice i = s.slice i) ∧ { s.hold sl th seq with slices := s.slices } = s := by
  unfold State.hold
  split
  · next hin =>
    refine ⟨rfl, fun y => ?_, fun _ _ => rfl, rfl⟩
    by_cases hy : y = (th, seq)
    · rw [hy, hin, Bool.true_or]
    · rw [beq_eq_false_iff_ne.2 hy, Bool.or_false]
  · rw [slice_putSlice_same]
    refine ⟨rfl, fun y => ?_, fun _ hi => slice_putSlice_other _ hi _, rfl⟩
    rw [Bool.eq_iff_iff]
    simp

/-- Nothing is released while the expected span is not there. -/
theorem release_of_not_held {s : State} {sl th : Nat} (h : (s.slice sl).held.contains (th, mget 0 (s.slice sl).expect th) = false) (fuel : Nat) :
    s.release sl th fuel = s := by
  cases fuel with
  | zero => rfl
  | succ n => simp only [State.release, h, Bool.false_eq_true, if_false]

/-- The slice after it has released the span it expects. -/
def SliceSt.released (x : SliceSt) (th : Nat) : SliceSt :=
  { x with
    expect := mset 0 x.expect th ((mget 0 x.expect th + 1) % 2 ^ 32)
    held := x.held.filter (fun y => y != (th, mget 0 x.expect th)) }

/-- The expected span is released alone where the next number is not held. -/
theorem release_of_held {s : State} {sl th : Nat} (h : (s.slice sl).held.contains (th, mget 0 (s.slice sl).expect th) = true)
    (hnext : (s.slice sl).held.contains (th, (mget 0 (s.slice sl).expect th + 1) % 2 ^ 32) = false) (fuel : Nat) :
    s.release sl th (fuel + 1) = s.putSlice sl ((s.slice sl).released th) := by
  have hstop : (((s.putSlice sl ((s.slice sl).released th)).slice sl).held.contains
      (th, mget 0 ((s.putSlice sl ((s.slice sl).released th)).slice sl).expect th)) = false := by
    rw [slice_putSlice_same]
    simp only [SliceSt.released, mget_mset_same, List.contains_eq_mem, decide_eq_false_iff_not] at hnext ⊢
    exact fun hmem => hnext (List.mem_filter.1 hmem).1
  rw [State.release, if_pos h]
  exact release_of_not_held hstop fuel

/-- The span a slice expects is released (R97). -/
theorem arrive_expected {s : State} {sl th seq : Nat} (hexpect : seq = mget 0 (s.slice sl).expect th) (hshare : 0 < s.spanShare sl th)
    (hnext : (s.slice sl).held.contains (th, (seq + 1) % 2 ^ 32) = false) :
    mget 0 ((s.arrive sl th seq).slice sl).expect th = (seq + 1) % 2 ^ 32 ∧ ((s.arrive sl th seq).slice sl).held.contains (th, seq) = false ∧
      (∀ i, i ≠ sl → (s.arrive sl th seq).slice i = s.slice i) ∧ { s.arrive sl th seq with slices := s.slices } = s := by
  have hahead : s.ahead sl th seq = 0 := by
    simp only [State.ahead, ← hexpect]; omega
  rw [arrive_of_lt (by omega)]
  obtain ⟨hholdExpect, hheld, hothers, hrest⟩ := hold_spec s sl th seq
  generalize s.hold sl th seq = u at hholdExpect hheld hothers hrest ⊢
  have hnumber : mget 0 (u.slice sl).expect th = seq := by rw [hholdExpect, ← hexpect]
  have hdiffer : (seq + 1) % 2 ^ 32 ≠ seq := by omega
  rw [release_of_held (by rw [hnumber, hheld, beq_self_eq_true, Bool.or_true]) (by rw [hnumber, hheld, hnext]; simpa using hdiffer), slice_putSlice_same]
  refine ⟨?_, ?_, fun i hi => (slice_putSlice_other _ hi _).trans (hothers i hi), hrest⟩
  · simp only [SliceSt.released, mget_mset_same, hnumber]
  · simp [SliceSt.released, hnumber]

/-- An early span is held, and nothing is released (R97). -/
theorem arrive_early {s : State} {sl th seq : Nat} (hearly : 0 < s.ahead sl th seq)
    (hshare : s.ahead sl th seq < s.spanShare sl th) (hmissing : (s.slice sl).held.contains (th, mget 0 (s.slice sl).expect th) = false) :
    ((s.arrive sl th seq).slice sl).expect = (s.slice sl).expect ∧ ((s.arrive sl th seq).slice sl).held.contains (th, seq) = true ∧
      (∀ i, i ≠ sl → (s.arrive sl th seq).slice i = s.slice i) ∧ { s.arrive sl th seq with slices := s.slices } = s := by
  obtain ⟨hholdExpect, hheld, hothers, hrest⟩ := hold_spec s sl th seq
  have hdiffer : mget 0 (s.slice sl).expect th ≠ seq := fun e => by
    simp only [State.ahead, e] at hearly; omega
  rw [arrive_of_lt hshare, release_of_not_held (by rw [hholdExpect, hheld, hmissing]; simp [hdiffer])]
  exact ⟨hholdExpect, by rw [hheld, beq_self_eq_true, Bool.or_true], hothers, hrest⟩

theorem exec_spanArrival {s : State} {sl th : Nat} (hsl : sl < 32) (hlive : s.live th = true) (hruns : (s.threadSlices th).contains sl = true) (seq : Nat) :
    exec (.spanArrival sl th seq) s = .next (s.arrive sl th seq) := by
  simp only [exec, execSpanArrival, within, if_pos hsl, hlive, hruns, Bool.and_self, if_true]

/-! ## A thread that may run again (R91, R99) -/

/-- A thread becomes READY now. -/
def State.makeReady (s : State) (th : Nat) : State := (s.putThread th { s.thread th with readySince := s.raw, waits := false }).setThreadSt th Th.ready

theorem makeReady_thread (s : State) (th : Nat) : (s.makeReady th).thread th = { s.thread th with readySince := s.raw, waits := false } := thread_putThread_same _ _ _

theorem makeReady_spec (s : State) (th : Nat) :
    (s.makeReady th).threadSt th = Th.ready ∧ ((s.makeReady th).thread th).readySince = s.raw ∧ ∀ i, i ≠ th → (s.makeReady th).thread i = s.thread i := by
  obtain ⟨hready, hthread, hothers, -⟩ := putThread_setThreadSt_spec s th { s.thread th with readySince := s.raw, waits := false } (st := Th.ready) (by decide)
  exact ⟨hready, congrArg Thread.readySince hthread, hothers⟩

/-- A thread that nothing keeps from running is READY. -/
theorem enterReady_of_free {s : State} {th : Nat} (hdepends : (s.thread th).depends = false) (hcredit : s.hasCredit th = true) (htoken : s.heldByToken th = false) :
    s.enterReady th = s.makeReady th := by
  rw [State.enterReady, hdepends, hcredit, htoken]
  rfl

/-! ## SPAN_CREDIT_RETURN (R97) -/

/-- A slice after a credit that it owed a thread has come back. -/
def State.creditReturned (s : State) (sl th : Nat) : SliceSt :=
  { s.slice sl with
    owed := mset 0 (s.slice sl).owed th (mget 0 (s.slice sl).owed th - 1)
    spanFree := mset 0 (s.slice sl).spanFree th (min (s.spanShare sl th) (s.spanFree sl th + 1)) }

theorem exec_spanCreditReturn {s : State} {sl th : Nat} (hsl : sl < 32) (howed : mget 0 (s.slice sl).owed th ≠ 0) :
    exec (.spanCreditReturn sl th) s = .next ((s.putSlice sl (s.creditReturned sl th)).creditBack th) := by
  simp only [exec, execSpanCreditReturn, within, if_pos hsl, if_neg howed]
  rfl

/-- The slice owes one credit less and has one more free, never above the share. -/
theorem creditReturned_spec {s : State} {sl th : Nat} (howed : mget 0 (s.slice sl).owed th ≠ 0) :
    mget 0 (s.creditReturned sl th).owed th + 1 = mget 0 (s.slice sl).owed th ∧
      mget 0 (s.creditReturned sl th).spanFree th = min (s.spanShare sl th) (s.spanFree sl th + 1) := by
  simp only [State.creditReturned, mget_mset_same, and_true]
  omega

/-- The credit completes what the thread's slices have free. -/
theorem hasCredit_creditReturned {s : State} {sl th : Nat} (hshare : 0 < s.spanShare sl th) (hothers : ∀ x ∈ s.threadSlices th, x ≠ sl → 0 < s.spanFree x th) :
    (s.putSlice sl (s.creditReturned sl th)).hasCredit th = true := by
  have hall : ∀ x ∈ s.threadSlices th, 0 < (s.putSlice sl (s.creditReturned sl th)).spanFree x th := by
    intro x hx
    rw [State.spanFree]
    by_cases h : x = sl
    · rw [h, slice_putSlice_same]
      simp only [State.creditReturned, mget_mset_same]
      omega
    · rw [slice_putSlice_other _ h]
      exact hothers x hx h
  simp only [State.hasCredit, Bool.or_eq_true, List.all_eq_true, decide_eq_true_eq]
  exact .inr hall

theorem creditBack_of_not_held {s : State} {th : Nat} (hstate : s.threadSt th ≠ Th.held) (hmatch : (s.thread th).matchRun = none) : s.creditBack th = s := by
  simp [State.creditBack, hstate, hmatch]

theorem creditBack_of_held {s : State} {th : Nat} (hstate : s.threadSt th = Th.held) (hmatch : (s.thread th).matchRun = none) (hdepends : (s.thread th).depends = false)
    (hcredit : s.hasCredit th = true) (htoken : s.heldByToken th = false) : s.creditBack th = s.makeReady th := by
  have hnone : ((s.makeReady th).thread th).matchRun = none := (congrArg Thread.matchRun (makeReady_thread s th)).trans hmatch
  have hfree : (s.threadSt th = Th.held && s.hasCredit th && !s.heldByToken th : Bool) = true := by simp [hstate, hcredit, htoken]
  simp only [State.creditBack, if_pos hfree, enterReady_of_free hdepends hcredit htoken, hnone, Option.isSome_none, Bool.false_eq_true, if_false]

/-! ## FETCH_COMPLETE (R91) -/

theorem mget_eq_or_mem {α : Type} (d : α) (m : List (Nat × α)) (k : Nat) : mget d m k = d ∨ (k, mget d m k) ∈ m := by
  induction m with
  | nil => exact .inl rfl
  | cons e m ih =>
    obtain ⟨a, v⟩ := e
    rw [mget]
    split
    · next hak => exact .inr (hak ▸ List.mem_cons_self)
    · exact ih.imp_right (List.mem_cons_of_mem _)

/-- A write adds its own entry at most. -/
theorem mem_of_mem_mset {α : Type} [DecidableEq α] {d : α} {m : List (Nat × α)} {k : Nat} {v : α} {e : Nat × α} (h : e ∈ mset d m k v) : e = (k, v) ∨ e ∈ m := by
  unfold mset at h
  split at h
  · exact .inr ((merase_sublist m k).subset h)
  · exact ((mem_minsert _ _ _ _).1 h).imp_right (fun h => (merase_sublist m k).subset h)

/-- A thread whose held-back tokens stay the same holds back no token more. -/
theorem heldByToken_putThread {s : State} {n th : Nat} {x : Thread} (hx : x.heldTokens = (s.thread n).heldTokens) (h : s.heldByToken th = false) :
    (s.putThread n x).heldByToken th = false := by
  simp only [State.heldByToken, List.any_eq_false] at h ⊢
  intro e he
  rcases mem_of_mem_mset he with rfl | he
  · rw [hx]
    rcases mget_eq_or_mem Thread.idle s.threads n with hidle | hmem
    · rw [State.thread, hidle]; simp [Thread.idle]
    · exact h _ hmem
  · exact h e he

/-- The context of a thread for which a fetch has completed. -/
def Thread.fetched (t : Thread) : Thread := { t with depFetch := t.depFetch - 1 }

theorem exec_fetchComplete {s : State} {th : Nat} (hth : th < 3072) (hfetch : (s.thread th).depFetch ≠ 0) :
    exec (.fetchComplete th) s = .next (if s.threadSt th = Th.waiting && !(s.thread th).fetched.depends then (s.putThread th (s.thread th).fetched).enterReady th
      else s.putThread th (s.thread th).fetched) := by
  simp only [exec, execFetchComplete, within, if_pos hth, if_neg hfetch, thread_putThread_same]
  rfl

/-- A thread that still depends on something waits on. -/
theorem exec_fetchComplete_of_depends {s : State} {th : Nat} (hth : th < 3072) (hfetch : (s.thread th).depFetch ≠ 0) (hdepends : (s.thread th).fetched.depends = true) :
    exec (.fetchComplete th) s = .next (s.putThread th (s.thread th).fetched) := by
  rw [exec_fetchComplete hth hfetch, hdepends, Bool.not_true, Bool.and_false, if_neg Bool.false_ne_true]

/-- A thread that waited for its fetches alone is READY. -/
theorem exec_fetchComplete_of_free {s : State} {th : Nat} (hth : th < 3072) (hfetch : (s.thread th).depFetch ≠ 0) (hstate : s.threadSt th = Th.waiting)
    (hdepends : (s.thread th).fetched.depends = false) (hcredit : s.hasCredit th = true) (htoken : s.heldByToken th = false) :
    exec (.fetchComplete th) s = .next ((s.putThread th (s.thread th).fetched).makeReady th) := by
  have hself : (s.putThread th (s.thread th).fetched).thread th = (s.thread th).fetched := thread_putThread_same _ _ _
  have hsame : (s.putThread th (s.thread th).fetched).hasCredit th = s.hasCredit th := by
    rw [State.hasCredit, hself]; rfl
  rw [exec_fetchComplete hth hfetch, if_pos (by simp [hstate, hdepends]),
    enterReady_of_free (by rw [hself, hdepends]) (hsame.trans hcredit) (heldByToken_putThread rfl htoken)]

end Sys2Proof.Machine

open Sys2Proof Sys2Proof.Machine

/-- Settles O39: a slice releases its expected span and holds an early one; a credit or a fetch that comes back frees a thread that waited for nothing else. -/
theorem spansAndCreditsMove : Obligations.SpansAndCreditsMove := by
  unfold Obligations.SpansAndCreditsMove
  refine ⟨fun s sl th seq hsl hlive hruns _ _ => ⟨fun hnumber hshare hnext => ?_, fun hearly hshare hmissing => ?_, fun hbeyond => ?_⟩,
    fun s sl th hsl hth => ⟨fun howed hmatch => ⟨fun hstate => ?_, fun hstate hshare hothers hdepends htoken => ?_⟩, fun hmore => ?_,
      fun hone hstate hsync htrig htime hcredit htoken => ?_⟩⟩
  · exact ⟨_, exec_spanArrival hsl hlive hruns seq, arrive_expected hnumber hshare hnext⟩
  · exact ⟨_, exec_spanArrival hsl hlive hruns seq, arrive_early hearly hshare hmissing⟩
  · rw [exec_spanArrival hsl hlive hruns seq, arrive_of_le hbeyond]
  · obtain ⟨hless, hfree⟩ := creditReturned_spec howed
    refine ⟨_, (exec_spanCreditReturn hsl howed).trans (congrArg Host.Outcome.next (creditBack_of_not_held hstate hmatch)), ?_, ?_,
      fun i hi => slice_putSlice_other _ hi _, rfl⟩
    · rw [slice_putSlice_same, hless]
    · rw [State.spanFree, slice_putSlice_same, hfree]
  · obtain ⟨hless, hfree⟩ := creditReturned_spec howed
    have hback := creditBack_of_held (s := s.putSlice sl (s.creditReturned sl th)) hstate hmatch hdepends (hasCredit_creditReturned hshare hothers) htoken
    have hslice : ((s.putSlice sl (s.creditReturned sl th)).makeReady th).slice sl = s.creditReturned sl th := slice_putSlice_same s sl _
    refine ⟨_, (exec_spanCreditReturn hsl howed).trans (congrArg Host.Outcome.next hback), ?_, ?_, makeReady_spec (s.putSlice sl (s.creditReturned sl th)) th⟩
    · rw [hslice, hless]
    · rw [State.spanFree, hslice, hfree]
  · have hdepends : (s.thread th).fetched.depends = true := by
      have hleft : (s.thread th).depFetch - 1 ≠ 0 := by omega
      simp [Thread.depends, Thread.fetched, hleft]
    refine ⟨_, exec_fetchComplete_of_depends hth (by omega) hdepends, ?_, rfl, fun i hi => thread_putThread_other _ hi _⟩
    rw [thread_putThread_same]
    simp only [Thread.fetched]; omega
  · have hdepends : (s.thread th).fetched.depends = false := by
      simp [Thread.depends, Thread.fetched, hone, hsync, htrig, htime]
    obtain ⟨hready, hsince, hothers⟩ := makeReady_spec (s.putThread th (s.thread th).fetched) th
    refine ⟨_, exec_fetchComplete_of_free hth (by omega) hstate hdepends hcredit htoken, ?_, hready, hsince, fun i hi => ?_⟩
    · rw [makeReady_thread, thread_putThread_same]
      simp only [Thread.fetched, hone]
    · exact (hothers i hi).trans (thread_putThread_other _ hi _)

end

section
/-! A thread's row is issued: what a core's word changes, and what it leaves alone (R25, R97, R99, R104). -/

namespace Sys2Proof.Machine

/-! ## Keys -/

theorem mkKey_ne_of_el {el k : Nat} (area obj : Nat) (h : el % 0x100 ≠ keyEl k) : mkKey area obj el ≠ k := fun e => h (by rw [← e, keyEl, mkKey]; omega)

/-- The count of a thread's issued cycles is none of the other words that its core writes. -/
theorem cyclesIssued_ne (th : Nat) :
    Key.cyclesIssued th ≠ Key.threadState th ∧ Key.cyclesIssued th ≠ Key.heldEvents ∧ Key.cyclesIssued th ≠ Key.dispatchMaxNs := by
  refine ⟨?_, mkKey_ne_of_el _ _ (by decide), mkKey_ne_of_el _ _ (by decide)⟩
  simp only [Key.cyclesIssued, Key.threadState, mkKey]
  omega

theorem threadState_ne_heldEvents (th : Nat) : Key.threadState th ≠ Key.heldEvents := mkKey_ne_of_el _ _ (by decide)

theorem threadState_ne_dispatchMaxNs (th : Nat) : Key.threadState th ≠ Key.dispatchMaxNs := mkKey_ne_of_el _ _ (by decide)

/-! ## Nothing but the thread -/

theorem onlyThread_refl (s : State) (th : Nat) : s.onlyThread s th := ⟨fun _ _ => rfl, fun _ _ => rfl, rfl, rfl⟩

theorem onlyThread_trans {r s t : State} {th : Nat} (h : r.onlyThread s th) (k : s.onlyThread t th) : r.onlyThread t th := by
  obtain ⟨hthreads, hobjects, hsubs, hrest⟩ := h
  obtain ⟨kthreads, kobjects, ksubs, krest⟩ := k
  exact ⟨fun i hi => (kthreads i hi).trans (hthreads i hi), fun j hj => (kobjects j hj).trans (hobjects j hj), ksubs.trans hsubs,
    (congrArg (fun u : State => { u with objs := r.objs, subs := r.subs, threads := r.threads, slices := r.slices, freeCount := r.freeCount }) krest).trans hrest⟩

theorem onlyThread_putThread (s : State) (th : Nat) (x : Thread) : s.onlyThread (s.putThread th x) th :=
  ⟨fun _ hi => thread_putThread_other _ hi _, fun _ _ => rfl, rfl, rfl⟩

theorem onlyThread_put (s : State) {th k : Nat} (hk : k ∈ [Key.cyclesIssued th, Key.threadState th, Key.heldEvents, Key.dispatchMaxNs]) (v : Word) :
    s.onlyThread (s.put k v) th := by
  refine ⟨fun _ _ => rfl, fun j hj => State.get_put_other _ _ (fun e => hj (e ▸ hk)), ?_, rfl⟩
  simp only [State.subscribed, State.put_subs]
  split
  · rfl
  · exact noteChange_subscribed _ _

theorem onlyThread_setThreadSt (s : State) (th st : Nat) : s.onlyThread (s.setThreadSt th st) th := onlyThread_put s (by simp) _

theorem onlyThread_slices (s : State) (th : Nat) (l : List (Nat × SliceSt)) : s.onlyThread { s with slices := l } th := ⟨fun _ _ => rfl, fun _ _ => rfl, rfl, rfl⟩

theorem onlyThread_free (s : State) (th : Nat) : s.onlyThread s.free.2 th := ⟨fun _ _ => rfl, fun _ _ => rfl, rfl, rfl⟩

/-! ## Credits and counts on the slices (R25, R97) -/

/-- Writes of slices change slices alone. -/
theorem foldl_putSlice (x : State → Nat → SliceSt) (l : List Nat) (s : State) : ∃ m, l.foldl (fun t sl => t.putSlice sl (x t sl)) s = { s with slices := m } := by
  induction l generalizing s with
  | nil => exact ⟨s.slices, rfl⟩
  | cons a l ih =>
    obtain ⟨m, h⟩ := ih (s.putSlice a (x s a))
    exact ⟨m, h⟩

theorem takeCredits_eq (s : State) (th : Nat) : ∃ m, s.takeCredits th = { s with slices := m } := foldl_putSlice _ _ _

theorem putCounts_eq (s : State) (sls : List Nat) (th : Nat) (f : CycleCounts → CycleCounts) : ∃ m, s.putCounts sls th f = { s with slices := m } := foldl_putSlice _ _ _

theorem spanFree_putCounts (s : State) (sls : List Nat) (th : Nat) (f : CycleCounts → CycleCounts) (sl th' : Nat) :
    (s.putCounts sls th f).spanFree sl th' = s.spanFree sl th' := by
  refine List.foldlRecOn sls _ (motive := fun u : State => u.spanFree sl th' = s.spanFree sl th') rfl (fun u hu x _ => ?_)
  rw [State.spanFree, State.slice_putSlice]
  split
  · next hx => rw [← hu, State.spanFree, hx]
  · exact hu

/-- A slice after a span of a thread has taken a credit on it. -/
def State.creditTaken (s : State) (sl th : Nat) : SliceSt :=
  { s.slice sl with spanFree := mset 0 (s.slice sl).spanFree th (s.spanFree sl th - 1) }

theorem spanFree_creditTaken (s : State) (sl th x : Nat) :
    (s.putSlice sl (s.creditTaken sl th)).spanFree x th = if sl = x then s.spanFree x th - 1 else s.spanFree x th := by
  rw [State.spanFree, State.slice_putSlice]
  split
  · next h => rw [State.creditTaken, mget_mset_same, h]
  · rfl

theorem spanFree_takeCredits (s : State) (th x : Nat) : (s.takeCredits th).spanFree x th = if x ∈ s.threadSlices th then s.spanFree x th - 1 else s.spanFree x th := by
  have hfold : ∀ (l : List Nat) (t : State), l.Nodup →
      (l.foldl (fun t sl => t.putSlice sl (t.creditTaken sl th)) t).spanFree x th = if x ∈ l then t.spanFree x th - 1 else t.spanFree x th := by
    intro l
    induction l with
    | nil => intro t _; simp
    | cons a l ih =>
      intro t hl
      obtain ⟨ha, hl⟩ := List.nodup_cons.1 hl
      rw [List.foldl_cons, ih _ hl, spanFree_creditTaken]
      by_cases hx : a = x
      · subst hx; simp [ha]
      · simp [hx, Ne.symm hx]
  exact hfold _ s (List.nodup_range.filter _)

/-! ## One span (R97, R104) -/

/-- The span that a thread issues next for a row, before its word marks it. -/
def Thread.nextSpan (t : Thread) (row n : Nat) : Span :=
  { seq := t.spanSeq, row := row, first := t.cycles, left := n, judgeMasked := t.judgeMasked, capture := t.capture, sigHeld := t.sigHeld, sigReset := false,
    inMatch := false, maskedOrds := t.siteMask, waiting := false, halts := false, stops := none, staged := t.stagedNext, took := none, event := .none, snap := none }

/-- A context after a span of `n` cycles of a period was issued. -/
def Thread.withSpan (t : Thread) (n period : Nat) (sp : Span) : Thread :=
  { t with spanSeq := (t.spanSeq + 1) % 2 ^ 32, cycles := t.cycles + n, issueTu := t.issueTu + n * period, spans := t.spans ++ [sp], stagedNext := false }

section
variable (s : State) (th row n : Nat) (f : Span → Span)

/-- A span changes the thread, its slices and its count of issued cycles. -/
theorem issue_eq : ∃ m, s.issue th row n f =
    ({ s.putThread th ((s.thread th).withSpan n (s.rowPeriod th row) (f ((s.thread th).nextSpan row n))) with slices := m } : State).countBy (Key.cyclesIssued th) 64 n := by
  delta State.issue
  extract_lets t sp u
  obtain ⟨m, hm⟩ : ∃ m, (if t.stagedNext then u else u.takeCredits th) = { u with slices := m } := by
    split
    · exact ⟨u.slices, rfl⟩
    · exact takeCredits_eq u th
  rw [hm, State.countIssued]
  obtain ⟨m', hm'⟩ := putCounts_eq { u with slices := m } (({ u with slices := m } : State).threadSlices th) th (fun c => { c with issued := c.issued + n })
  exact ⟨m', by rw [hm']; rfl⟩

theorem issue_thread : (s.issue th row n f).thread th = (s.thread th).withSpan n (s.rowPeriod th row) (f ((s.thread th).nextSpan row n)) := by
  obtain ⟨m, hm⟩ := issue_eq s th row n f
  rw [hm]
  exact thread_putThread_same _ _ _

theorem issue_onlyThread : s.onlyThread (s.issue th row n f) th := by
  obtain ⟨m, hm⟩ := issue_eq s th row n f
  rw [hm]
  exact onlyThread_trans (onlyThread_trans (onlyThread_putThread _ _ _) (onlyThread_slices _ _ _)) (onlyThread_put _ (by simp) _)

theorem issue_get_cyclesIssued : ((s.issue th row n f).get (Key.cyclesIssued th)).toNat = ((s.get (Key.cyclesIssued th)).toNat + n) % 2 ^ 64 := by
  obtain ⟨m, hm⟩ := issue_eq s th row n f
  rw [hm, State.countBy, State.get_put_same, toWord_toNat, Nat.mod_mod]
  rfl

theorem issue_threadSt : (s.issue th row n f).threadSt th = s.threadSt th := by
  obtain ⟨m, hm⟩ := issue_eq s th row n f
  rw [hm, State.threadSt, State.getF_eq, State.countBy, State.get_put_other _ _ (cyclesIssued_ne th).1]
  rfl

/-- A span takes a credit on every slice of its ports, unless it is staged outside the share (R97, R120). -/
theorem issue_spanFree (hcredit : s.hasCredit th = true) {sl : Nat} (hsl : sl ∈ s.threadSlices th) :
    (s.issue th row n f).spanFree sl th + (if (s.thread th).stagedNext then 0 else 1) = s.spanFree sl th := by
  have hkept : ∀ u : State, (u.countIssued th n).spanFree sl th = u.spanFree sl th := fun u => spanFree_putCounts u _ _ _ _ _
  simp only [State.issue, hkept]
  by_cases hstaged : (s.thread th).stagedNext = true
  · simp only [hstaged, if_true]
    rfl
  · have hfree : 0 < s.spanFree sl th := by
      simp only [State.hasCredit, hstaged, Bool.false_or, List.all_eq_true, decide_eq_true_eq] at hcredit
      exact hcredit sl hsl
    have htaken : ∀ x, ((s.putThread th x).takeCredits th).spanFree sl th = s.spanFree sl th - 1 := fun x => (spanFree_takeCredits _ th sl).trans (if_pos hsl)
    simp only [if_neg hstaged, htaken]
    exact Nat.sub_add_cancel hfree

theorem advance_thread : (s.advance th n f).thread th =
    { (s.thread th).withSpan n (s.rowPeriod th (s.thread th).pc) (f ((s.thread th).nextSpan (s.thread th).pc n)) with pc := (s.thread th).pc + 1 } := by
  simp only [State.advance, thread_putThread_same, issue_thread]

theorem advance_onlyThread : s.onlyThread (s.advance th n f) th := onlyThread_trans (issue_onlyThread s th _ n f) (onlyThread_putThread _ _ _)

end

/-! ## Before the row (R96, R115) -/

theorem filterMap_mset {α β : Type} [DecidableEq α] {f : Nat × α → Option β} {k : Nat} (hk : ∀ v, f (k, v) = none) (d : α) (m : List (Nat × α)) (v : α) :
    (mset d m k v).filterMap f = m.filterMap f := by
  have hsome : ∀ l : List (Nat × α), (l.filter (fun e => (f e).isSome)).filterMap f = l.filterMap f := by
    intro l
    rw [List.filterMap_filter]
    congr 1
    funext e
    cases f e <;> rfl
  rw [← hsome, filter_mset (fun w => by rw [hk w]; rfl), hsome]

/-- Which ports a thread has is in area 0x20 alone (R88). -/
theorem boundPorts_put (s : State) {k : Nat} (hk : keyArea k ≠ 0x20) (v : Word) : (s.put k v).boundPorts = s.boundPorts := by
  funext th
  exact filterMap_mset (fun w => if_neg (fun h => hk h.1)) _ _ _

theorem lt_of_mem_boundPorts {s : State} {th o : Nat} (h : o ∈ s.boundPorts th) : o < 0x8000 := by
  obtain ⟨kv, -, hkv⟩ := List.mem_filterMap.1 h
  split at hkv
  · have hobj : keyObj kv.1 < 0x10000 := Nat.mod_lt _ (by decide)
    have ho : keyObj kv.1 - 0x8000 = o := Option.some.inj hkv
    omega
  · cases hkv

/-- `u` is `s` just before thread `th` issues its row: its wait for the core is reported, and of its context at most the marks of the wait, of WLATE and of the last word
are set. -/
structure AtRow (s u : State) (th : Nat) : Prop where
  thread : ∃ seen late, u.thread th = { s.thread th with waits := false, seen := seen, wlate := late }
  get : ∀ k, k ≠ Key.dispatchMaxNs → u.get k = s.get k
  ports : u.boundPorts = s.boundPorts
  slices : u.slices = s.slices
  only : s.onlyThread u th

namespace AtRow

/-- A context before its row, with other marks. -/
theorem putThread {s u : State} {th : Nat} (h : AtRow s u th) {x : Thread} (hx : ∃ seen late, x = { u.thread th with seen := seen, wlate := late }) :
    AtRow s (u.putThread th x) th := by
  obtain ⟨seen, late, rfl⟩ := hx
  obtain ⟨_, _, hthread⟩ := h.thread
  exact ⟨⟨seen, late, by rw [thread_putThread_same, hthread]⟩, h.get, h.ports, h.slices, onlyThread_trans h.only (onlyThread_putThread _ _ _)⟩

variable {s u : State} {th : Nat} (h : AtRow s u th)
include h

/-- What of the context does not look at the marks is as it was. -/
theorem field {α : Type} (g : Thread → α) (hg : ∀ (x : Thread) seen late, g { x with waits := false, seen := seen, wlate := late } = g x := by intros; rfl) :
    g (u.thread th) = g (s.thread th) := by
  obtain ⟨seen, late, hthread⟩ := h.thread
  rw [hthread, hg]

/-- No element 1 to 0xFF is DISPATCH_MAX_NS. -/
theorem get_el {el : Nat} (area obj : Nat) (hel : el % 0x100 ≠ 0) : u.get (mkKey area obj el) = s.get (mkKey area obj el) := h.get _ (mkKey_ne_of_el _ _ hel)

theorem groupOf (i : Nat) : u.groupOf i = s.groupOf i := by
  simp only [State.groupOf, State.getF_eq, Key.role, h.get_el 0x20 _ (show 4 % 0x100 ≠ 0 by decide)]
  rfl

theorem members (g : Nat) : u.members g = s.members g := by
  rw [State.members, State.members, h.ports]
  refine List.filter_congr (fun o ho => ?_)
  have ho : o < 0x8000 := lt_of_mem_boundPorts ho
  rw [State.siteOn, State.siteOn, State.mapBit, State.mapBit, Key.siteEnable, h.get_el]
  simp only [siteOf]
  omega

theorem isSplit (g : Nat) : u.isSplit g = s.isSplit g := by
  simp only [State.isSplit, h.members, Key.threadCtrl, h.get_el 0x20 _ (show 1 % 0x100 ≠ 0 by decide)]

theorem served (i : Nat) : u.served i = s.served i := by
  simp only [State.served, State.isDerived, State.getF_eq, h.groupOf, h.members, h.isSplit, Key.role, h.get_el 0x20 _ (show 4 % 0x100 ≠ 0 by decide)]
  rfl

theorem ownPort (i : Nat) : u.ownPort i = s.ownPort i := by rw [State.ownPort, State.ownPort, h.served]

theorem threadSlices (i : Nat) : u.threadSlices i = s.threadSlices i := by
  simp only [State.threadSlices, State.portSliceList, h.served, Key.portSlices, h.get_el 0x20 _ (show 3 % 0x100 ≠ 0 by decide)]

theorem openOrds : u.openOrds th = s.openOrds th := by
  rw [State.openOrds, State.openOrds, h.served, h.field Thread.siteMask]

theorem spanFree (sl i : Nat) : u.spanFree sl i = s.spanFree sl i := by
  rw [State.spanFree, State.slice, h.slices]; rfl

theorem hasCredit : u.hasCredit th = s.hasCredit th := by
  simp only [State.hasCredit, h.field Thread.stagedNext, h.threadSlices, h.spanFree]

theorem numAt (a n : Nat) : u.numAt a n = s.numAt a n := by
  obtain ⟨-, -, -, hrest⟩ := h.only
  have hcells : u.cells = s.cells := (congrArg State.cells hrest :)
  simp only [State.numAt, State.bytesAt, State.byteAt, hcells]

theorem blockAddr (b : Nat) : u.blockAddr th b = s.blockAddr th b := by
  simp only [State.blockAddr, h.groupOf, Key.patRegion, Key.patOffset, Key.patStride, Key.regionBase, h.get_el 0x31 _ (show 1 % 0x100 ≠ 0 by decide),
    h.get_el 0x31 _ (show 2 % 0x100 ≠ 0 by decide), h.get_el 0x31 _ (show 4 % 0x100 ≠ 0 by decide)]

theorem entryAddr (a i : Nat) : u.entryAddr a i = s.entryAddr a i := by
  simp only [State.entryAddr, State.ctrlMap, h.numAt]
  rfl

theorem rowTs (row : Nat) : u.rowTs th row = s.rowTs th row := by
  simp only [State.rowTs, State.defaultTs, h.blockAddr, h.entryAddr, h.numAt]

theorem rowPeriod (row : Nat) : u.rowPeriod th row = s.rowPeriod th row := by
  have hset : s.rowTs th row < 64 := by
    rw [State.rowTs]
    split <;> exact Nat.mod_lt _ (by decide)
  rw [State.rowPeriod, State.rowPeriod, h.rowTs, State.periodOf, State.periodOf, h.groupOf, Key.period, h.get_el]
  omega

end AtRow

theorem atRow_noteWait (s : State) (th : Nat) : AtRow s (s.noteWait th) th := by
  simp only [State.noteWait]
  split
  · exact ⟨⟨_, _, thread_putThread_same s th _⟩, fun k hk => State.get_put_other _ _ hk.symm, boundPorts_put _ (by decide) _, rfl,
      onlyThread_trans (onlyThread_putThread _ _ _) (onlyThread_put _ (by simp) _)⟩
  · next hwaits =>
    refine ⟨⟨(s.thread th).seen, (s.thread th).wlate, ?_⟩, fun _ _ => rfl, rfl, rfl, onlyThread_refl s th⟩
    rw [← Bool.eq_false_iff.2 hwaits]

/-- A word finds its row as the thread left it (R96, R115). -/
theorem atRow_noteWord (s : State) (th : Nat) (u : Uop) : AtRow s ((s.noteWait th).noteWord th u) th := (atRow_noteWait s th).putThread ⟨_, _, rfl⟩

/-! ## The row is issued (R25, R97, R104) -/

/-- A word marks its span with an event and leaves the row, the cycles and the number of the span alone. -/
def MarksEvent (f : Span → Span) (ev : RowEvent) : Prop :=
  ∀ sp : Span, sp.event = .none → (f sp).row = sp.row ∧ (f sp).first = sp.first ∧ (f sp).left = sp.left ∧ (f sp).event = ev ∧ (f sp).seq = sp.seq

theorem marksEvent_id : MarksEvent id .none := fun _ h => ⟨rfl, rfl, rfl, h, rfl⟩

theorem AtRow.issuedRow_advance {s u : State} {th : Nat} (h : AtRow s u th) (hcredit : s.hasCredit th = true) (n : Nat) {f : Span → Span} {ev : RowEvent}
    (hf : MarksEvent f ev) : s.issuedRow (u.advance th n f) th n ev := by
  have hthread := advance_thread u th n f
  obtain ⟨hrow, hfirst, hleft, hevent, hseq⟩ := hf ((u.thread th).nextSpan (u.thread th).pc n) rfl
  refine ⟨⟨f ((u.thread th).nextSpan (u.thread th).pc n), ?_, ?_, ?_, hleft, hevent, ?_⟩, ?_, ?_, ?_, fun sl hsl => ?_, onlyThread_trans h.only (advance_onlyThread u th n f)⟩
  · exact (congrArg Thread.spans hthread).trans (by rw [← h.field Thread.spans]; rfl)
  · exact hrow.trans (h.field Thread.pc)
  · exact hfirst.trans (h.field Thread.cycles)
  · exact hseq.trans (h.field Thread.spanSeq)
  · exact (congrArg Thread.cycles hthread).trans (by rw [← h.field Thread.cycles]; rfl)
  · exact (congrArg Thread.issueTu hthread).trans (by rw [← h.field Thread.issueTu, ← h.rowPeriod, ← h.field Thread.pc]; rfl)
  · refine (issue_get_cyclesIssued u th _ n f).trans ?_
    rw [h.get _ (cyclesIssued_ne th).2.2]
  · rw [← h.spanFree, ← h.field Thread.stagedNext]
    exact issue_spanFree u th _ n f (h.hasCredit.trans hcredit) (by rwa [h.threadSlices])

/-! ## After the row (R91, R95, R99) -/

/-- `t` is `w` but for thread `th`'s core, the block and the fetches it needs, its state, HELD_EVENTS and the free values drawn. -/
structure RowKept (w t : State) (th : Nat) : Prop where
  thread : ∃ block fetch core, t.thread th = { w.thread th with block := block, depFetch := fetch, core := core }
  issued : t.get (Key.cyclesIssued th) = w.get (Key.cyclesIssued th)
  slices : t.slices = w.slices
  only : w.onlyThread t th

namespace RowKept

theorem refl (s : State) (th : Nat) : RowKept s s th := ⟨⟨_, _, _, rfl⟩, rfl, rfl, onlyThread_refl s th⟩

theorem trans {r s t : State} {th : Nat} (h : RowKept r s th) (k : RowKept s t th) : RowKept r t th := by
  obtain ⟨_, _, _, hthread⟩ := h.thread
  obtain ⟨block, fetch, core, kthread⟩ := k.thread
  exact ⟨⟨block, fetch, core, by rw [kthread, hthread]⟩, k.issued.trans h.issued, k.slices.trans h.slices, onlyThread_trans h.only k.only⟩

/-- What of the context looks at neither core nor fetches is as it was. -/
theorem field {w t : State} {th : Nat} (h : RowKept w t th) {α : Type} (g : Thread → α)
    (hg : ∀ (x : Thread) block fetch core, g { x with block := block, depFetch := fetch, core := core } = g x := by intros; rfl) : g (t.thread th) = g (w.thread th) := by
  obtain ⟨block, fetch, core, hthread⟩ := h.thread
  rw [hthread, hg]

theorem coreFreed (s : State) (th : Nat) : RowKept s (s.putThread th { s.thread th with core := none }) th :=
  ⟨⟨_, _, _, thread_putThread_same _ _ _⟩, rfl, rfl, onlyThread_putThread _ _ _⟩

theorem setThreadSt (s : State) (th st : Nat) : RowKept s (s.setThreadSt th st) th :=
  ⟨⟨_, _, _, rfl⟩, get_setThreadSt _ (cyclesIssued_ne th).1 _, rfl, onlyThread_setThreadSt _ _ _⟩

theorem countHeld (s : State) (th : Nat) : RowKept s (s.count Key.heldEvents 64) th :=
  ⟨⟨_, _, _, rfl⟩, State.get_put_other _ _ (cyclesIssued_ne th).2.1.symm, rfl, onlyThread_put _ (by simp) _⟩

theorem holdThread (s : State) (th : Nat) : RowKept s (s.holdThread th) th :=
  ((coreFreed s th).trans (setThreadSt _ th _)).trans (countHeld _ th)

theorem needRows (s : State) (th : Nat) : RowKept s (s.needRows th) th := by
  simp only [State.needRows]
  split
  · exact refl s th
  · exact ⟨⟨_, _, _, thread_putThread_same _ _ _⟩, rfl, rfl, onlyThread_trans (onlyThread_free s th) (onlyThread_putThread _ _ _)⟩

theorem settleThread (s : State) (th : Nat) : RowKept s (s.settleThread th) th := by
  simp only [State.settleThread]
  split
  · exact coreFreed s th
  split
  · exact refl s th
  split
  · exact (coreFreed s th).trans (setThreadSt _ th _)
  split
  · exact refl s th
  · exact holdThread s th

end RowKept

/-- An issued row stays issued whatever its core does then. -/
theorem issuedRow_of_eq {s w t : State} {th n : Nat} {ev : RowEvent} (h : s.issuedRow w th n ev) (honly : w.onlyThread t th) (hspans : (t.thread th).spans = (w.thread th).spans)
    (hcycles : (t.thread th).cycles = (w.thread th).cycles) (htime : (t.thread th).issueTu = (w.thread th).issueTu)
    (hissued : t.get (Key.cyclesIssued th) = w.get (Key.cyclesIssued th)) (hslices : t.slices = w.slices) : s.issuedRow t th n ev := by
  obtain ⟨hspan, hcount, hport, htotal, hcredits, hframe⟩ := h
  refine ⟨by rwa [hspans], by rwa [hcycles], by rwa [htime], by rwa [hissued], fun sl hsl => ?_, onlyThread_trans hframe honly⟩
  rw [State.spanFree, State.slice, hslices]
  exact hcredits sl hsl

theorem RowKept.issuedRow {s w t : State} {th n : Nat} {ev : RowEvent} (k : RowKept w t th) (h : s.issuedRow w th n ev) : s.issuedRow t th n ev :=
  issuedRow_of_eq h k.only (k.field Thread.spans) (k.field Thread.cycles) (k.field Thread.issueTu) k.issued k.slices

/-- So it does whatever the word does to the rest of the context. -/
theorem issuedRow_putThread {s w : State} {th n : Nat} {ev : RowEvent} (h : s.issuedRow w th n ev) {x : Thread} (hspans : x.spans = (w.thread th).spans)
    (hcycles : x.cycles = (w.thread th).cycles) (htime : x.issueTu = (w.thread th).issueTu) : s.issuedRow (w.putThread th x) th n ev :=
  issuedRow_of_eq h (onlyThread_putThread _ _ _) (by rw [thread_putThread_same, hspans]) (by rw [thread_putThread_same, hcycles]) (by rw [thread_putThread_same, htime]) rfl rfl

/-- The state after a word of a thread has settled. -/
def State.settled (w : State) (th : Nat) : State := (w.needRows th).settleThread th

theorem settled_kept (w : State) (th : Nat) : RowKept w (w.settled th) th := (RowKept.needRows w th).trans (RowKept.settleThread _ th)

/-- A thread whose last row is issued leaves its core (R95). -/
theorem settled_lastRow {w : State} {th : Nat} (hlast : (w.thread th).lastRow = true) : ((w.settled th).thread th).core = none := by
  have hkept : ((w.needRows th).thread th).lastRow = true := ((RowKept.needRows w th).field Thread.lastRow).trans hlast
  simp only [State.settled, State.settleThread, hkept, if_true, thread_putThread_same]

/-! ## Running a word (R74, R99, R104) -/

theorem exec_word {c : Instr} {th : Nat} {u : Uop} (hword : wordOf c = some (th, u)) (s : State) : exec c s = within th 3072 (s.runWord th u) := by
  unfold wordOf at hword
  split at hword <;> cases hword <;> rfl

theorem State.ready.executes {s : State} {th : Nat} (h : s.ready th) : s.executes th = true := h.2.1

theorem State.ready.hasCredit {s : State} {th : Nat} (h : s.ready th) : s.hasCredit th = true := h.2.2

/-- A word of a ready thread whose horizon is past is executed at its row. -/
theorem exec_word_of_ready {s : State} {th : Nat} {u : Uop} {c : Instr} (hword : wordOf c = some (th, u)) (hready : s.ready th) (hopen : s.horizonOpen th u = false) :
    ∃ v, AtRow s v th ∧ exec c s = .next ((v.word th u).settled th) := by
  obtain ⟨hth, hexecutes, hcredit⟩ := hready
  refine ⟨_, atRow_noteWord s th u, ?_⟩
  rw [exec_word hword, within, if_pos hth, State.runWord, hexecutes, hcredit, hopen]
  rfl

theorem executes_iff {s : State} {th : Nat} : s.executes th = true ↔
    s.mode = Mode.burst ∧ s.threadSt th = Th.running ∧ (s.thread th).lastRow = false ∧ (s.thread th).matchRun = none ∧ s.machineCheck = false := by
  simp [State.executes, and_assoc]

/-- Without a credit a thread is HELD and its word is not executed (R99, R102). -/
theorem holdThread_spec (s : State) (th : Nat) :
    (s.holdThread th).threadSt th = Th.held ∧ ((s.holdThread th).thread th).core = none ∧ ((s.holdThread th).thread th).pc = (s.thread th).pc ∧
      ((s.holdThread th).thread th).spans = (s.thread th).spans ∧ ((s.holdThread th).get Key.heldEvents).toNat = ((s.get Key.heldEvents).toNat + 1) % 2 ^ 64 ∧
      s.onlyThread (s.holdThread th) th := by
  obtain ⟨hstate, hthread, -, hobjects⟩ := putThread_setThreadSt_spec s th { s.thread th with core := none } (st := Th.held) (by decide)
  have hkept := RowKept.holdThread s th
  refine ⟨?_, congrArg Thread.core hthread, hkept.field Thread.pc, hkept.field Thread.spans, ?_, hkept.only⟩
  · rw [← hstate]
    simp only [State.threadSt, State.getF_eq, State.holdThread, State.count, State.get_put_other _ _ (threadState_ne_heldEvents th).symm]
  · rw [State.holdThread, State.count, State.get_put_same, hobjects _ (by simpa using (threadState_ne_heldEvents th).symm), toWord_toNat, Nat.mod_mod]

end Sys2Proof.Machine
end

section
/-! ADV, TRIG and HALT, and a word without a credit or with an open horizon (R99, R107, R112, R114, R118; O34). -/

namespace Sys2Proof.Machine

/-- A word that only advances issues its row, and the sequential row is next (R104). -/
theorem exec_advancing {s : State} {th n : Nat} {u : Uop} {c : Instr} {f : Span → Span} {ev : RowEvent} (hready : s.ready th) (hword : wordOf c = some (th, u))
    (hopen : s.horizonOpen th u = false) (hadvance : ∀ v, AtRow s v th → v.word th u = v.advance th n f) (hf : MarksEvent f ev) :
    ∃ t, exec c s = .next t ∧ s.issuedRow t th n ev ∧ (t.thread th).pc = (s.thread th).pc + 1 := by
  obtain ⟨v, hv, hexec⟩ := exec_word_of_ready hword hready hopen
  rw [hadvance v hv] at hexec
  have hkept := settled_kept (v.advance th n f) th
  refine ⟨_, hexec, hkept.issuedRow (hv.issuedRow_advance hready.hasCredit n hf), ?_⟩
  rw [hkept.field Thread.pc, advance_thread, ← hv.field Thread.pc]

/-- HALT's row is the thread's last, and its core is free (R112). -/
theorem exec_halt {s : State} {th : Nat} (hready : s.ready th) (rep : Nat) :
    ∃ t, exec (.halt th rep) s = .next t ∧ s.issuedRow t th (rep + 1) .none ∧ (t.thread th).lastRow = true ∧ (t.thread th).core = none ∧
      (t.thread th).spans.getLast?.map Span.halts = some true ∧ t.executes th = false := by
  obtain ⟨v, hv, hexec⟩ := exec_word_of_ready (c := .halt th rep) (u := .halt rep) rfl hready rfl
  have hrow : s.issuedRow (v.advance th (rep + 1) (fun x => { x with halts := true })) th (rep + 1) .none :=
    hv.issuedRow_advance hready.hasCredit (rep + 1) (fun _ h => ⟨rfl, rfl, rfl, h, rfl⟩)
  have hself : (v.word th (.halt rep)).thread th = { (v.advance th (rep + 1) (fun x => { x with halts := true })).thread th with lastRow := true } :=
    thread_putThread_same _ _ _
  have hkept := settled_kept (v.word th (.halt rep)) th
  have hlast : ((v.word th (.halt rep)).thread th).lastRow = true := congrArg Thread.lastRow hself
  have hlast' := (hkept.field Thread.lastRow).trans hlast
  refine ⟨_, hexec, hkept.issuedRow (issuedRow_putThread hrow rfl rfl rfl), hlast', settled_lastRow hlast, ?_, ?_⟩
  · rw [hkept.field Thread.spans, hself, advance_thread]
    simp [Thread.withSpan]
  · rw [Bool.eq_false_iff, Ne, executes_iff, hlast']
    simp

end Sys2Proof.Machine

open Sys2Proof Sys2Proof.Machine

/-- Settles O34: a word of a ready thread is its row's span and what its core does after it; without a credit it is a HELD thread, with an open horizon nothing. -/
theorem plainWordsIssueTheirRow : Obligations.PlainWordsIssueTheirRow := by
  unfold Obligations.PlainWordsIssueTheirRow
  refine ⟨fun s th rep c ev hready hc => ?_, fun s th rep hready => exec_halt hready rep, fun s th u c hword hth hexecutes => ⟨fun hnone => ?_, fun hcredit hopen => ?_⟩⟩
  · obtain ⟨rfl, rfl⟩ | ⟨_, rfl, rfl⟩ | ⟨_, rfl, rfl⟩ | ⟨_, rfl, rfl⟩ | ⟨_, rfl, rfl⟩ | ⟨_, rfl, rfl⟩ | ⟨_, rfl, rfl⟩ := hc
    · exact exec_advancing hready rfl rfl (fun _ _ => rfl) marksEvent_id
    all_goals exact exec_advancing hready rfl rfl (fun _ _ => rfl) (fun _ _ => ⟨rfl, rfl, rfl, rfl, rfl⟩)
  · refine ⟨s.holdThread th, ?_, holdThread_spec s th⟩
    rw [exec_word hword, within, if_pos hth, State.runWord, hexecutes, hnone]
    rfl
  · rw [exec_word hword, within, if_pos hth, State.runWord, hexecutes, hcredit, hopen]
    rfl

end

section
/-! The waiting words (R91, R124-R127; O37). -/

namespace Sys2Proof.Machine

/-! ## A thread that waits (R91, R95) -/

/-- A thread whose word left a dependence open is WAITING and leaves its core. -/
theorem settled_waiting {w : State} {th : Nat} (hlast : (w.thread th).lastRow = false) (hmatch : (w.thread th).matchRun = none)
    (hopen : 0 < (w.thread th).depSync ∨ (w.thread th).depTrig = true ∨ (w.thread th).depTime = true) :
    (w.settled th).threadSt th = Th.waiting ∧ ((w.settled th).thread th).core = none := by
  have hkept := RowKept.needRows w th
  have hdepends : ((w.needRows th).thread th).depends = true := by
    rw [← hkept.field Thread.depSync, ← hkept.field Thread.depTrig, ← hkept.field Thread.depTime] at hopen
    rcases hopen with h | h | h <;> simp [Thread.depends, h]
  have hsettled : w.settled th = ((w.needRows th).putThread th { (w.needRows th).thread th with core := none }).setThreadSt th Th.waiting := by
    simp only [State.settled, State.settleThread, hkept.field Thread.lastRow, hlast, hkept.field Thread.matchRun, hmatch, hdepends, Option.isSome_none,
      Bool.false_eq_true, if_false, if_true]
  obtain ⟨hstate, hthread, -, -⟩ := putThread_setThreadSt_spec (w.needRows th) th { (w.needRows th).thread th with core := none } (st := Th.waiting) (by decide)
  rw [hsettled]
  exact ⟨hstate, congrArg Thread.core hthread⟩

/-- `w` is `s` after a word of thread `th` has issued its row's first cycle with an event and begun its open repeat (R124). -/
structure BeganWait (s w : State) (th : Nat) (k : WaitKind) (wake : Option Nat) (ev : RowEvent) : Prop where
  row : s.issuedRow w th 1 ev
  wait : (w.thread th).waitRun = some { kind := k, first := (s.thread th).cycles, firstTu := (s.thread th).issueTu, wake := wake }
  lastRow : (w.thread th).lastRow = (s.thread th).lastRow
  matchRun : (w.thread th).matchRun = (s.thread th).matchRun

theorem AtRow.beginWait {s v : State} {th : Nat} (h : AtRow s v th) (hcredit : s.hasCredit th = true) (k : WaitKind) (wake : Option Nat) (ev : RowEvent) :
    BeganWait s (v.beginWait th k wake ev) th k wake ev := by
  have hrow : s.issuedRow (v.advance th 1 (fun x => { x with waiting := true, event := ev })) th 1 ev := h.issuedRow_advance hcredit 1 (fun _ _ => ⟨rfl, rfl, rfl, rfl, rfl⟩)
  refine ⟨issuedRow_putThread hrow rfl rfl rfl, ?_, ?_, ?_⟩
  · rw [State.beginWait, thread_putThread_same, h.field Thread.cycles, h.field Thread.issueTu]
  · rw [State.beginWait, thread_putThread_same, advance_thread, ← h.field Thread.lastRow]; rfl
  · rw [State.beginWait, thread_putThread_same, advance_thread, ← h.field Thread.matchRun]; rfl

/-- What a wait's first cycle leaves of the dependences and of WLATE. -/
theorem beginWait_thread (v : State) (th : Nat) (k : WaitKind) (wake : Option Nat) (ev : RowEvent) :
    ((v.beginWait th k wake ev).thread th).depSync = (v.thread th).depSync ∧ ((v.beginWait th k wake ev).thread th).wlate = (v.thread th).wlate := by
  rw [State.beginWait, thread_putThread_same, advance_thread]
  exact ⟨rfl, rfl⟩

namespace BeganWait

variable {s w : State} {th : Nat} {k : WaitKind} {wake : Option Nat} {ev : RowEvent} (h : BeganWait s w th k wake ev)
include h

/-- The word then opens its dependence. -/
theorem openDep {x : Thread} (hx : ∃ sync trig time, x = { w.thread th with depSync := sync, depTrig := trig, depTime := time }) :
    BeganWait s (w.putThread th x) th k wake ev := by
  obtain ⟨sync, trig, time, rfl⟩ := hx
  exact ⟨issuedRow_putThread h.row rfl rfl rfl, by rw [thread_putThread_same, ← h.wait], by rw [thread_putThread_same, ← h.lastRow], by rw [thread_putThread_same, ← h.matchRun]⟩

/-- The thread waits with its open repeat begun. -/
theorem settled (hready : s.ready th) (hopen : 0 < (w.thread th).depSync ∨ (w.thread th).depTrig = true ∨ (w.thread th).depTime = true) :
    s.issuedRow (w.settled th) th 1 ev ∧ (w.settled th).threadSt th = Th.waiting ∧ ((w.settled th).thread th).core = none ∧
      ((w.settled th).thread th).waitRun = some { kind := k, first := (s.thread th).cycles, firstTu := (s.thread th).issueTu, wake := wake } := by
  obtain ⟨-, -, hlast, hmatch, -⟩ := executes_iff.1 hready.executes
  obtain ⟨hstate, hcore⟩ := settled_waiting (h.lastRow.trans hlast) (h.matchRun.trans hmatch) hopen
  have hkept := settled_kept w th
  exact ⟨hkept.issuedRow h.row, hstate, hcore, (hkept.field Thread.waitRun).trans h.wait⟩

end BeganWait

/-! ## The word of a SYNC (R125) -/

/-- The event of a SYNC row: the token that it sends to its partner. -/
def State.syncEvent (s : State) (th partner : Nat) (send : Bool) : RowEvent := if send then .token (siteOf (s.ownPort th)) partner (portOf (s.ownPort th)) else .none

theorem AtRow.syncEvent {s v : State} {th : Nat} (h : AtRow s v th) (partner : Nat) (send : Bool) : v.syncEvent th partner send = s.syncEvent th partner send := by
  rw [State.syncEvent, State.syncEvent, h.ownPort]

/-- The mark of a SYNC row that consumes a banked token. -/
def tokenMark (ev : RowEvent) (tok : Nat) (x : Span) : Span := { x with event := ev, took := some tok }

/-- A SYNC counts in DEP_SYNC, with the tokens it leaves banked (R125). -/
def State.syncCounted (s : State) (th : Nat) (rest : List Nat) : State := s.putThread th { s.thread th with banked := rest, depSync := (s.thread th).depSync + 1 }

theorem syncCounted_thread (s : State) (th : Nat) (rest : List Nat) :
    (s.syncCounted th rest).thread th = { s.thread th with banked := rest, depSync := (s.thread th).depSync + 1 } := thread_putThread_same _ _ _

theorem bankHeld_of_none {s : State} {th : Nat} (h : (s.thread th).heldTokens = []) : s.bankHeld th = s := by
  simp only [State.bankHeld, h]

/-- A SYNC that finds a token, with none held back behind it, issues its row up to the resume cycle of the token (R124, R125). -/
theorem wordSync_banked {v : State} {th tok : Nat} {rest : List Nat} (hbanked : (v.thread th).banked = tok :: rest) (hheld : (v.thread th).heldTokens = [])
    (partner : Nat) (send : Bool) : v.wordSync th partner send true =
      (v.advance th (waitCycles (tok + lead) (v.thread th).issueTu (v.rowPeriod th (v.thread th).pc)) (tokenMark (v.syncEvent th partner send) tok)).syncCounted th rest := by
  rw [← bankHeld_of_none (s := (v.advance th _ _).syncCounted th rest) (th := th) (by rw [syncCounted_thread, advance_thread, ← hheld]; rfl)]
  simp only [State.wordSync, hbanked, Bool.not_true, Bool.false_eq_true, if_false]
  rfl

/-- A SYNC without a token begins its wait. -/
theorem wordSync_wait {v : State} {th : Nat} (hbanked : (v.thread th).banked = []) (partner : Nat) (send : Bool) :
    v.wordSync th partner send true = (v.beginWait th .sync none (v.syncEvent th partner send)).putThread th
      { (v.beginWait th .sync none (v.syncEvent th partner send)).thread th with
        depSync := ((v.beginWait th .sync none (v.syncEvent th partner send)).thread th).depSync + 1 } := by
  simp only [State.wordSync, hbanked, Bool.not_true, Bool.false_eq_true, if_false]
  rfl

/-! ## WLATE (R127) -/

/-- WLATE of a thread is set or cleared before its row (R127). -/
def State.markLate (s : State) (th : Nat) (late : Bool) : State := s.putThread th { s.thread th with wlate := late }

theorem AtRow.markLate {s v : State} {th : Nat} (h : AtRow s v th) (late : Bool) : AtRow s (v.markLate th late) th := h.putThread ⟨_, _, rfl⟩

theorem markLate_wlate (s : State) (th : Nat) (late : Bool) : ((s.markLate th late).thread th).wlate = late := congrArg Thread.wlate (thread_putThread_same _ _ _)

/-! ## SYNC executed (R125) -/

section
variable {s : State} {th : Nat} (hready : s.ready th)
include hready

theorem exec_sync_send (partner : Nat) (send : Bool) :
    ∃ t, exec (.sync th partner send false) s = .next t ∧ s.issuedRow t th 1 (s.syncEvent th partner send) ∧ (t.thread th).pc = (s.thread th).pc + 1 := by
  refine exec_advancing (f := fun x => { x with event := s.syncEvent th partner send }) hready rfl rfl (fun v hv => ?_) (fun _ _ => ⟨rfl, rfl, rfl, rfl, rfl⟩)
  simp only [State.word, State.wordSync, State.syncEvent, hv.ownPort, Bool.not_false, if_true]

/-- A SYNC that finds a banked token consumes it and goes on (R125). -/
theorem exec_sync_banked {partner tok : Nat} {send : Bool} {rest : List Nat} (hbanked : (s.thread th).banked = tok :: rest) (hheld : (s.thread th).heldTokens = []) :
    ∃ t, exec (.sync th partner send true) s = .next t ∧
      s.issuedRow t th (waitCycles (tok + lead) (s.thread th).issueTu (s.rowPeriod th (s.thread th).pc)) (s.syncEvent th partner send) ∧ (t.thread th).banked = rest ∧
      (t.thread th).depSync = (s.thread th).depSync + 1 ∧ (t.thread th).waitRun = (s.thread th).waitRun ∧ (t.thread th).pc = (s.thread th).pc + 1 := by
  obtain ⟨v, hv, hexec⟩ := exec_word_of_ready (c := .sync th partner send true) (u := .sync partner send true) rfl hready rfl
  have hword := wordSync_banked ((hv.field Thread.banked).trans hbanked) ((hv.field Thread.heldTokens).trans hheld) partner send
  rw [hv.syncEvent, hv.field Thread.issueTu, hv.field Thread.pc, hv.rowPeriod] at hword
  generalize waitCycles (tok + lead) (s.thread th).issueTu (s.rowPeriod th (s.thread th).pc) = n at hword ⊢
  have hrow : s.issuedRow (v.advance th n (tokenMark (s.syncEvent th partner send) tok)) th n (s.syncEvent th partner send) :=
    hv.issuedRow_advance hready.hasCredit n (fun _ _ => ⟨rfl, rfl, rfl, rfl, rfl⟩)
  have hkept := settled_kept ((v.advance th n (tokenMark (s.syncEvent th partner send) tok)).syncCounted th rest) th
  rw [show v.word th (.sync partner send true) = v.wordSync th partner send true from rfl, hword] at hexec
  refine ⟨_, hexec, hkept.issuedRow (issuedRow_putThread hrow rfl rfl rfl), ?_, ?_, ?_, ?_⟩
  · rw [hkept.field Thread.banked, syncCounted_thread]
  · rw [hkept.field Thread.depSync, syncCounted_thread, advance_thread, ← hv.field Thread.depSync]; rfl
  · rw [hkept.field Thread.waitRun, syncCounted_thread, advance_thread, ← hv.field Thread.waitRun]; rfl
  · rw [hkept.field Thread.pc, syncCounted_thread, advance_thread, ← hv.field Thread.pc]

/-- A SYNC without a token waits for it (R125). -/
theorem exec_sync_wait {partner : Nat} {send : Bool} (hbanked : (s.thread th).banked = []) (hsync : (s.thread th).depSync = 0) :
    ∃ t, exec (.sync th partner send true) s = .next t ∧ s.issuedRow t th 1 (s.syncEvent th partner send) ∧ t.threadSt th = Th.waiting ∧ (t.thread th).depSync = 1 ∧
      (t.thread th).core = none ∧ (t.thread th).waitRun = some { kind := .sync, first := (s.thread th).cycles, firstTu := (s.thread th).issueTu, wake := none } := by
  obtain ⟨v, hv, hexec⟩ := exec_word_of_ready (c := .sync th partner send true) (u := .sync partner send true) rfl hready rfl
  have hword : v.word th (.sync partner send true) = _ := wordSync_wait ((hv.field Thread.banked).trans hbanked) partner send
  have hbegan : BeganWait s (v.word th (.sync partner send true)) th .sync none (s.syncEvent th partner send) := by
    rw [hword, hv.syncEvent]
    exact (hv.beginWait hready.hasCredit _ _ _).openDep ⟨_, _, _, rfl⟩
  have hone : ((v.word th (.sync partner send true)).thread th).depSync = 1 := by
    rw [hword, thread_putThread_same, (beginWait_thread v th _ _ _).1, hv.field Thread.depSync, hsync]; rfl
  obtain ⟨hrow, hstate, hcore, hwait⟩ := hbegan.settled hready (.inl (by rw [hone]; decide))
  exact ⟨_, hexec, hrow, hstate, ((settled_kept _ th).field Thread.depSync).trans hone, hcore, hwait⟩

/-! ## WAITTRIG and WAITTIME executed (R126, R127) -/

theorem exec_waittrig (source timeout : Nat) :
    ∃ t, exec (.waittrig th source timeout) s = .next t ∧ s.issuedRow t th 1 .none ∧ t.threadSt th = Th.waiting ∧ (t.thread th).depTrig = true ∧ (t.thread th).core = none ∧
      (t.thread th).waitRun = some { kind := .trig source timeout, first := (s.thread th).cycles, firstTu := (s.thread th).issueTu, wake := none } := by
  obtain ⟨v, hv, hexec⟩ := exec_word_of_ready (c := .waittrig th source timeout) (u := .waittrig source timeout) rfl hready rfl
  have hbegan : BeganWait s (v.word th (.waittrig source timeout)) th (.trig source timeout) none .none :=
    (hv.beginWait hready.hasCredit (.trig source timeout) none .none).openDep ⟨_, _, _, rfl⟩
  have htrig : ((v.word th (.waittrig source timeout)).thread th).depTrig = true := congrArg Thread.depTrig (thread_putThread_same _ _ _)
  obtain ⟨hrow, hstate, hcore, hwait⟩ := hbegan.settled hready (.inr (.inl htrig))
  exact ⟨_, hexec, hrow, hstate, ((settled_kept _ th).field Thread.depTrig).trans htrig, hcore, hwait⟩

/-- A WAITTIME whose time has not passed waits for it (R127). -/
theorem exec_waittime_wait {time : Nat} (htime : (s.thread th).issueTu ≤ time * 40000) :
    ∃ t, exec (.waittime th time) s = .next t ∧ s.issuedRow t th 1 .none ∧ t.threadSt th = Th.waiting ∧ (t.thread th).depTime = true ∧ (t.thread th).wlate = false ∧
      (t.thread th).core = none ∧
      (t.thread th).waitRun = some { kind := .time (time * 40000), first := (s.thread th).cycles, firstTu := (s.thread th).issueTu, wake := some (time * 40000) } := by
  obtain ⟨v, hv, hexec⟩ := exec_word_of_ready (c := .waittime th time) (u := .waittime time) rfl hready rfl
  have hword : v.word th (.waittime time) = ((v.markLate th false).beginWait th (.time (time * 40000)) (some (time * 40000)) .none).putThread th
      { ((v.markLate th false).beginWait th (.time (time * 40000)) (some (time * 40000)) .none).thread th with depTime := true } := by
    simp only [State.word, State.wordWaittime, hv.field Thread.issueTu, if_neg (Nat.not_lt.2 htime), State.markLate]
  have hbegan : BeganWait s (v.word th (.waittime time)) th (.time (time * 40000)) (some (time * 40000)) .none :=
    hword ▸ ((hv.markLate false).beginWait hready.hasCredit _ _ _).openDep ⟨_, _, _, rfl⟩
  have hdep : ((v.word th (.waittime time)).thread th).depTime = true := by rw [hword, thread_putThread_same]
  have hlate : ((v.word th (.waittime time)).thread th).wlate = false := by
    rw [hword, thread_putThread_same]
    exact (beginWait_thread _ th _ _ _).2.trans (markLate_wlate v th false)
  obtain ⟨hissued, hstate, hcore, hwait⟩ := hbegan.settled hready (.inr (.inr hdep))
  have hkept := settled_kept (v.word th (.waittime time)) th
  exact ⟨_, hexec, hissued, hstate, (hkept.field Thread.depTime).trans hdep, (hkept.field Thread.wlate).trans hlate, hcore, hwait⟩

/-- A WAITTIME whose time has passed is late and goes on (R127). -/
theorem exec_waittime_late {time : Nat} (htime : time * 40000 < (s.thread th).issueTu) :
    ∃ t, exec (.waittime th time) s = .next t ∧ s.issuedRow t th 1 .none ∧ (t.thread th).wlate = true ∧ (t.thread th).waitRun = (s.thread th).waitRun ∧
      (t.thread th).pc = (s.thread th).pc + 1 := by
  obtain ⟨v, hv, hexec⟩ := exec_word_of_ready (c := .waittime th time) (u := .waittime time) rfl hready rfl
  have hword : v.word th (.waittime time) = (v.markLate th true).advance th 1 id := by
    simp only [State.word, State.wordWaittime, hv.field Thread.issueTu, if_pos htime, State.markLate]
  have hrow := hv.markLate true
  have hkept := settled_kept ((v.markLate th true).advance th 1 id) th
  rw [hword] at hexec
  refine ⟨_, hexec, hkept.issuedRow (hrow.issuedRow_advance hready.hasCredit 1 marksEvent_id), ?_, ?_, ?_⟩
  · rw [hkept.field Thread.wlate, advance_thread]
    exact markLate_wlate v th true
  · rw [hkept.field Thread.waitRun, advance_thread, ← hrow.field Thread.waitRun]; rfl
  · rw [hkept.field Thread.pc, advance_thread, ← hrow.field Thread.pc]

end

end Sys2Proof.Machine
end

section
/-! MATCH (R128), and the words that wait (O37). -/

namespace Sys2Proof.Machine

/-! ## The body's rows (R128, R130) -/

/-- `w` is `s` after a core has issued body rows of thread `th`'s MATCH: spans are appended, and the MATCH in progress moves on to its next row. -/
structure BodyFed (s w : State) (th : Nat) : Prop where
  only : s.onlyThread w th
  threadSt : w.threadSt th = s.threadSt th
  lastRow : (w.thread th).lastRow = (s.thread th).lastRow
  spans : ∃ new, (w.thread th).spans = (s.thread th).spans ++ new
  run : ∀ m, (s.thread th).matchRun = some m → ∃ row pass, (w.thread th).matchRun = some { m with nextRow := row, issuing := pass }

namespace BodyFed

theorem refl (s : State) (th : Nat) : BodyFed s s th := ⟨onlyThread_refl s th, rfl, rfl, ⟨[], (List.append_nil _).symm⟩, fun m h => ⟨m.nextRow, m.issuing, h⟩⟩

theorem trans {r s t : State} {th : Nat} (h : BodyFed r s th) (k : BodyFed s t th) : BodyFed r t th := by
  refine ⟨onlyThread_trans h.only k.only, k.threadSt.trans h.threadSt, k.lastRow.trans h.lastRow, ?_, fun m hm => ?_⟩
  · obtain ⟨new, hnew⟩ := h.spans
    obtain ⟨more, hmore⟩ := k.spans
    exact ⟨new ++ more, by rw [hmore, hnew, List.append_assoc]⟩
  · obtain ⟨_, _, hrun⟩ := h.run m hm
    obtain ⟨row, pass, hrun'⟩ := k.run _ hrun
    exact ⟨row, pass, hrun'⟩

/-- The context may change beside what the core feeds. -/
theorem putThread (s : State) (th : Nat) {x : Thread} (hlast : x.lastRow = (s.thread th).lastRow) (hspans : x.spans = (s.thread th).spans)
    (hrun : ∀ m, (s.thread th).matchRun = some m → ∃ row pass, x.matchRun = some { m with nextRow := row, issuing := pass }) : BodyFed s (s.putThread th x) th := by
  refine ⟨onlyThread_putThread _ _ _, rfl, ?_, ⟨[], ?_⟩, ?_⟩ <;> rw [thread_putThread_same]
  · exact hlast
  · rw [hspans, List.append_nil]
  · exact hrun

/-- A change of the context that leaves the MATCH alone. -/
theorem putThread_sameRun (s : State) (th : Nat) {x : Thread} (hlast : x.lastRow = (s.thread th).lastRow) (hspans : x.spans = (s.thread th).spans)
    (hrun : x.matchRun = (s.thread th).matchRun) : BodyFed s (s.putThread th x) th :=
  putThread s th hlast hspans (fun m hm => ⟨m.nextRow, m.issuing, hrun.trans hm⟩)

theorem issue (s : State) (th row n : Nat) (f : Span → Span) : BodyFed s (s.issue th row n f) th := by
  refine ⟨issue_onlyThread s th row n f, issue_threadSt s th row n f, ?_, ⟨_, congrArg Thread.spans (issue_thread s th row n f)⟩, fun m hm => ⟨m.nextRow, m.issuing, ?_⟩⟩
  · rw [issue_thread]; rfl
  · rw [issue_thread, ← hm]; rfl

end BodyFed

/-- A row of a MATCH body is one span of that row at the thread's present cycle, marked as in the MATCH. -/
theorem bodyRow_spec (s : State) (th row : Nat) (u : Uop) (inMatch : Bool) :
    BodyFed s (s.bodyRow th row u inMatch) th ∧
      ∃ sp, ((s.bodyRow th row u inMatch).thread th).spans = (s.thread th).spans ++ [sp] ∧ sp.row = row ∧ sp.first = (s.thread th).cycles ∧ sp.inMatch = inMatch := by
  have hissue : ∀ (v : State) (n : Nat) (f : Span → Span), (∀ sp, (f sp).row = sp.row ∧ (f sp).first = sp.first ∧ (f sp).inMatch = inMatch) →
      ∃ sp, ((v.issue th row n f).thread th).spans = (v.thread th).spans ++ [sp] ∧ sp.row = row ∧ sp.first = (v.thread th).cycles ∧ sp.inMatch = inMatch := by
    intro v n f hf
    obtain ⟨hrow, hfirst, hin⟩ := hf ((v.thread th).nextSpan row n)
    exact ⟨_, congrArg Thread.spans (issue_thread v th row n f), hrow, hfirst, hin⟩
  unfold State.bodyRow
  split
  · exact ⟨BodyFed.issue _ _ _ _ _, hissue s _ _ (fun _ => ⟨rfl, rfl, rfl⟩)⟩
  · next fullcap judge sig rep =>
    have hflags : BodyFed s (s.capcFlags th fullcap judge sig) th := BodyFed.putThread_sameRun s th rfl rfl rfl
    obtain ⟨sp, hspans, hrow, hfirst, hin⟩ := hissue (s.capcFlags th fullcap judge sig) (rep + 1) (fun x => { x with sigReset := sig == 1, inMatch := inMatch })
      (fun _ => ⟨rfl, rfl, rfl⟩)
    refine ⟨hflags.trans (BodyFed.issue _ _ _ _ _), sp, hspans.trans ?_, hrow, hfirst.trans ?_, hin⟩ <;> rw [State.capcFlags, thread_putThread_same]
  · exact ⟨BodyFed.issue _ _ _ _ _, hissue s _ _ (fun _ => ⟨rfl, rfl, rfl⟩)⟩

/-- A MATCH whose next body row was issued. -/
def MatchRun.rowIssued (m : MatchRun) : MatchRun := if m.nextRow < m.body then { m with nextRow := m.nextRow + 1 } else { m with nextRow := 0, issuing := m.issuing + 1 }

theorem rowIssued_eq (m : MatchRun) : ∃ row pass, m.rowIssued = { m with nextRow := row, issuing := pass } := by
  unfold MatchRun.rowIssued
  split <;> exact ⟨_, _, rfl⟩

/-- A core issues the next body row of a MATCH. -/
def State.feedRow (s : State) (th : Nat) (m : MatchRun) : State :=
  let u := (s.uopAt th (m.row + m.nextRow)).getD (.adv 0)
  let v := (s.noteWord th u).bodyRow th (m.row + m.nextRow) u true
  v.putThread th { v.thread th with matchRun := some m.rowIssued }

theorem feedMatch_succ {s : State} {th : Nat} {m : MatchRun} (hm : (s.thread th).matchRun = some m) (fuel : Nat) :
    s.feedMatch th (fuel + 1) = if m.mayIssue && s.hasCredit th then (s.feedRow th m).feedMatch th fuel else s := by
  rw [State.feedMatch, hm]
  rfl

theorem feedRow_spec {s : State} {th : Nat} {m : MatchRun} (hm : (s.thread th).matchRun = some m) :
    BodyFed s (s.feedRow th m) th ∧
      ∃ sp, ((s.feedRow th m).thread th).spans = (s.thread th).spans ++ [sp] ∧ sp.row = m.row + m.nextRow ∧ sp.first = (s.thread th).cycles ∧ sp.inMatch = true := by
  delta State.feedRow
  extract_lets u v
  have hnote : BodyFed s (s.noteWord th u) th := BodyFed.putThread_sameRun s th rfl rfl rfl
  obtain ⟨seen, hseen⟩ : ∃ seen, (s.noteWord th u).thread th = { s.thread th with seen := seen } := ⟨_, thread_putThread_same _ _ _⟩
  obtain ⟨hrow, sp, hspans, hspan⟩ := bodyRow_spec (s.noteWord th u) th (m.row + m.nextRow) u true
  have hfed : BodyFed s v th := hnote.trans hrow
  obtain ⟨row, pass, hnext⟩ := rowIssued_eq m
  have hmoved : BodyFed v (v.putThread th { v.thread th with matchRun := some m.rowIssued }) th := by
    refine BodyFed.putThread v th rfl rfl (fun m' hm' => ?_)
    obtain ⟨row', pass', hrun⟩ := hfed.run m hm
    obtain rfl : m' = { m with nextRow := row', issuing := pass' } := Option.some.inj (hm'.symm.trans hrun)
    exact ⟨row, pass, congrArg some hnext⟩
  refine ⟨hfed.trans hmoved, sp, ?_, ?_⟩
  · rw [thread_putThread_same]
    exact hspans.trans (by rw [hseen])
  · rwa [hseen] at hspan

theorem feedMatch_fed (s : State) (th fuel : Nat) : BodyFed s (s.feedMatch th fuel) th := by
  induction fuel generalizing s with
  | zero => exact BodyFed.refl s th
  | succ fuel ih =>
    cases hm : (s.thread th).matchRun with
    | none =>
      rw [State.feedMatch, hm]
      exact BodyFed.refl s th
    | some m =>
      rw [feedMatch_succ hm]
      split
      · exact (feedRow_spec hm).1.trans (ih _)
      · exact BodyFed.refl s th

/-! ## The MATCH word (R128) -/

/-- The MATCH in progress that a MATCH word begins: the unmasked members it serves, pass 0; with none it runs passes 0 to D. -/
def State.matchBegun (s : State) (th body timeout : Nat) (inv : Bool) : MatchRun :=
  let m : MatchRun :=
    { row := (s.thread th).pc, body := body, timeout := timeout, inv := inv, first := (s.thread th).cycles, firstTu := (s.thread th).issueTu,
      len := (s.bodyLength th (s.thread th).pc body).1, dur := (s.bodyLength th (s.thread th).pc body).2, served := s.openOrds th, met := [], placed := [], failed := [],
      pass := 0, nextRow := 0, issuing := 0, exit := none, timedOut := false }
  if (s.openOrds th).isEmpty then { m with exit := some m.leadPasses } else m

/-- A MATCH is in progress, with no row of its body issued. -/
def State.beginMatch (s : State) (th body timeout : Nat) (inv : Bool) : State := s.putThread th { s.thread th with matchRun := some (s.matchBegun th body timeout inv) }

theorem beginMatch_thread (s : State) (th body timeout : Nat) (inv : Bool) :
    (s.beginMatch th body timeout inv).thread th = { s.thread th with matchRun := some (s.matchBegun th body timeout inv) } := thread_putThread_same _ _ _

theorem word_matchW (s : State) (th body timeout : Nat) (inv : Bool) : s.word th (.matchW body timeout inv) = (s.beginMatch th body timeout inv).feedMatch th 256 := rfl

theorem matchBegun_spec (s : State) (th body timeout : Nat) (inv : Bool) :
    ∃ len dur exit, s.matchBegun th body timeout inv =
      { row := (s.thread th).pc, body := body, timeout := timeout, inv := inv, first := (s.thread th).cycles, firstTu := (s.thread th).issueTu, len := len, dur := dur,
        served := s.openOrds th, met := [], placed := [], failed := [], pass := 0, nextRow := 0, issuing := 0, exit := exit, timedOut := false } := by
  simp only [State.matchBegun]
  split <;> exact ⟨_, _, _, rfl⟩

/-- Pass 0 may always be issued (R130). -/
theorem mayIssue_of_first {m : MatchRun} (h : m.issuing = 0) : m.mayIssue = true := by
  simp [MatchRun.mayIssue, h]

theorem needRows_threadSt (s : State) (th : Nat) : (s.needRows th).threadSt th = s.threadSt th := by
  simp only [State.needRows]
  split <;> rfl

/-- A thread with a MATCH in progress keeps its state. -/
theorem settled_matching {w : State} {th : Nat} (hlast : (w.thread th).lastRow = false) (hmatch : (w.thread th).matchRun.isSome = true) :
    (w.settled th).threadSt th = w.threadSt th := by
  have hkept := RowKept.needRows w th
  rw [← needRows_threadSt w th]
  simp only [State.settled, State.settleThread, hkept.field Thread.lastRow, hlast, hkept.field Thread.matchRun, hmatch, Bool.false_eq_true, if_false, if_true]

/-- A MATCH begins: its first body row is issued at once (R128). -/
theorem word_matchW_spec {v : State} {th : Nat} (hcredit : v.hasCredit th = true) (body timeout : Nat) (inv : Bool) :
    v.onlyThread (v.word th (.matchW body timeout inv)) th ∧ (v.word th (.matchW body timeout inv)).threadSt th = v.threadSt th ∧
      ((v.word th (.matchW body timeout inv)).thread th).lastRow = (v.thread th).lastRow ∧
      (∃ row pass, ((v.word th (.matchW body timeout inv)).thread th).matchRun = some { v.matchBegun th body timeout inv with nextRow := row, issuing := pass }) ∧
      ∃ sp rest, ((v.word th (.matchW body timeout inv)).thread th).spans = (v.thread th).spans ++ sp :: rest ∧ sp.row = (v.thread th).pc ∧
        sp.first = (v.thread th).cycles ∧ sp.inMatch = true := by
  obtain ⟨len, dur, exit, hbegun⟩ := matchBegun_spec v th body timeout inv
  have hself := beginMatch_thread v th body timeout inv
  have hrun : ((v.beginMatch th body timeout inv).thread th).matchRun = some (v.matchBegun th body timeout inv) := congrArg Thread.matchRun hself
  have hfree : (v.beginMatch th body timeout inv).hasCredit th = true := by
    rw [State.hasCredit, hself]; exact hcredit
  have hmay : (v.matchBegun th body timeout inv).mayIssue = true := mayIssue_of_first (by rw [hbegun])
  have hword : v.word th (.matchW body timeout inv) = ((v.beginMatch th body timeout inv).feedRow th (v.matchBegun th body timeout inv)).feedMatch th 255 := by
    rw [word_matchW, feedMatch_succ hrun, hmay, hfree]
    rfl
  obtain ⟨hfirst, sp, hspans, hspRow, hspFirst, hspMatch⟩ := feedRow_spec hrun
  have hrest := feedMatch_fed ((v.beginMatch th body timeout inv).feedRow th (v.matchBegun th body timeout inv)) th 255
  obtain ⟨honly, hstate, hlast, -, hmatch⟩ : BodyFed (v.beginMatch th body timeout inv) (v.word th (.matchW body timeout inv)) th := hword ▸ hfirst.trans hrest
  obtain ⟨rest, hnew⟩ := hrest.spans
  refine ⟨onlyThread_trans (onlyThread_putThread v th _) honly, hstate, hlast.trans (by rw [hself]), hmatch _ hrun, sp, rest, ?_, ?_, ?_, hspMatch⟩
  · rw [hword, hnew, hspans, hself, List.append_assoc, List.singleton_append]
  · rw [hspRow, hbegun]
    exact Nat.add_zero _
  · rw [hspFirst, hself]

end Sys2Proof.Machine

open Sys2Proof Sys2Proof.Machine

/-- Settles O37: a word that must wait leaves an open dependence for its core to settle on, and a MATCH word is its begun run fed with body rows. -/
theorem waitingWordsWait : Obligations.WaitingWordsWait := by
  unfold Obligations.WaitingWordsWait
  refine ⟨fun s th hready => ⟨exec_sync_send hready, fun _ _ _ _ hbanked hheld => exec_sync_banked hready hbanked hheld,
    fun _ _ hbanked hsync => exec_sync_wait hready hbanked hsync, exec_waittrig hready, fun _ htime => exec_waittime_wait hready htime,
    fun _ htime => exec_waittime_late hready htime⟩, fun s th body timeout inv hready => ?_⟩
  obtain ⟨v, hv, hexec⟩ := exec_word_of_ready (c := .matchStart th body timeout inv) (u := .matchW body timeout inv) rfl hready rfl
  obtain ⟨-, hstate, hlast, -, -⟩ := executes_iff.1 hready.executes
  obtain ⟨honly, hwordState, hwordLast, ⟨row, pass, hrun⟩, sp, rest, hspans, hspRow, hspFirst, hspMatch⟩ :=
    word_matchW_spec (hv.hasCredit.trans hready.hasCredit) body timeout inv
  obtain ⟨len, dur, exit, hbegun⟩ := matchBegun_spec v th body timeout inv
  have hkept := settled_kept (v.word th (.matchW body timeout inv)) th
  have hvState : v.threadSt th = s.threadSt th := by
    rw [State.threadSt, State.getF_eq, hv.get _ (threadState_ne_dispatchMaxNs th)]; rfl
  rw [hbegun] at hrun
  refine ⟨_, _, hexec, (hkept.field Thread.matchRun).trans hrun, ?_, hv.field Thread.pc, rfl, rfl, rfl, hv.openOrds, hv.field Thread.cycles, hv.field Thread.issueTu, rfl, rfl,
    ⟨sp, rest, ?_, ?_, ?_, hspMatch⟩, (onlyThread_trans hv.only (onlyThread_trans honly hkept.only)).1⟩
  · rw [settled_matching ((hwordLast.trans (hv.field Thread.lastRow)).trans hlast) (by rw [hrun]; rfl), hwordState, hvState, hstate]
  · rw [hkept.field Thread.spans, hspans, hv.field Thread.spans]
  · rw [hspRow, hv.field Thread.pc]
  · rw [hspFirst, hv.field Thread.cycles]

end

section
/-! The encoding of the microword (R106-R109; O7). -/

namespace Sys2Proof.Machine

/-! ## A record's fields -/

/-- Fields, lowest first, that lie one above the other between bits `lo` and 64. -/
def fieldsRise (lo : Nat) : List (Nat × Nat × Nat) → Bool
  | [] => decide (lo ≤ 64)
  | (a, len, _) :: r => decide (lo ≤ a) && fieldsRise (a + len) r

/-- Fields from bit `lo` up leave the bits below it clear. -/
theorem dvd_packFields {lo : Nat} {fs : List (Nat × Nat × Nat)} (h : fieldsRise lo fs = true) : 2 ^ lo ∣ packFields fs := by
  induction fs generalizing lo with
  | nil => exact Nat.dvd_zero _
  | cons f r ih =>
    obtain ⟨a, len, v⟩ := f
    obtain ⟨ha, hr⟩ : lo ≤ a ∧ fieldsRise (a + len) r = true := by simpa [fieldsRise] using h
    exact Nat.dvd_add (Dvd.dvd.mul_left (Nat.pow_dvd_pow 2 ha) _) ((Nat.pow_dvd_pow 2 (by omega)).trans (ih hr))

/-- Such a list ends within the word. -/
theorem le_of_fieldsRise {lo : Nat} {fs : List (Nat × Nat × Nat)} (h : fieldsRise lo fs = true) : lo ≤ 64 := by
  induction fs generalizing lo with
  | nil => simpa [fieldsRise] using h
  | cons f r ih =>
    obtain ⟨hlow, hr⟩ : lo ≤ f.1 ∧ fieldsRise (f.1 + f.2.1) r = true := by simpa [fieldsRise] using h
    have hend := ih hr
    omega

/-- So does each of its fields. -/
theorem le_of_mem_fieldsRise {lo a len v : Nat} {fs : List (Nat × Nat × Nat)} (h : fieldsRise lo fs = true) (hmem : (a, len, v) ∈ fs) : lo ≤ a ∧ a + len ≤ 64 := by
  induction fs generalizing lo with
  | nil => cases hmem
  | cons f r ih =>
    obtain ⟨hlow, hr⟩ : lo ≤ f.1 ∧ fieldsRise (f.1 + f.2.1) r = true := by simpa [fieldsRise] using h
    rcases List.mem_cons.1 hmem with rfl | hmem
    · exact ⟨hlow, le_of_fieldsRise hr⟩
    · obtain ⟨habove, hend⟩ := ih hr hmem
      exact ⟨by omega, hend⟩

/-- A record reads at each field what was packed there. -/
theorem packFields_div_mod {lo a len v : Nat} {fs : List (Nat × Nat × Nat)} (h : fieldsRise lo fs = true) (hmem : (a, len, v) ∈ fs) :
    packFields fs / 2 ^ a % 2 ^ len = v % 2 ^ len := by
  induction fs generalizing lo with
  | nil => cases hmem
  | cons f r ih =>
    obtain ⟨b, n, w⟩ := f
    obtain ⟨-, hr⟩ : lo ≤ b ∧ fieldsRise (b + n) r = true := by simpa [fieldsRise] using h
    obtain ⟨q, hq⟩ := dvd_packFields hr
    rcases List.mem_cons.1 hmem with heq | hmem
    · cases heq
      rw [packFields, hq, Nat.pow_add, Nat.mul_assoc, Nat.mul_comm _ (2 ^ a), ← Nat.mul_add, Nat.mul_div_cancel_left _ (Nat.two_pow_pos _), Nat.add_mul_mod_self_left,
        Nat.mod_mod]
    · obtain ⟨k, rfl⟩ := Nat.exists_eq_add_of_le (le_of_mem_fieldsRise hr hmem).1
      have hlow : w % 2 ^ n * 2 ^ b < 2 ^ (b + n) := by
        rw [Nat.pow_add, Nat.mul_comm]
        exact Nat.mul_lt_mul_of_pos_left (Nat.mod_lt _ (Nat.two_pow_pos _)) (Nat.two_pow_pos _)
      rw [← ih hr hmem, packFields, hq, Nat.pow_add 2 (b + n) k, ← Nat.div_div_eq_div_mul, ← Nat.div_div_eq_div_mul, Nat.add_mul_div_left _ _ (Nat.two_pow_pos _),
        Nat.div_eq_of_lt hlow, Nat.zero_add, Nat.mul_div_cancel_left _ (Nat.two_pow_pos _)]

/-- So does the word of the record. -/
theorem field_toWord_packFields {a len v : Nat} {fs : List (Nat × Nat × Nat)} (h : fieldsRise 0 fs = true) (hmem : (a, len, v) ∈ fs) (hv : v < 2 ^ len) :
    field (toWord (packFields fs)) a len = v := by
  obtain ⟨k, hk⟩ := Nat.exists_eq_add_of_le (le_of_mem_fieldsRise h hmem).2
  have hword : packFields fs % 2 ^ 64 / 2 ^ a % 2 ^ len = packFields fs / 2 ^ a % 2 ^ len := by
    rw [hk, Nat.add_assoc, Nat.pow_add, Nat.mod_mul_right_div_self, Nat.mod_mod_of_dvd _ (Nat.pow_dvd_pow 2 (Nat.le_add_right len k))]
  rw [field, toWord_toNat, Nat.shiftRight_eq_div_pow, hword, packFields_div_mod h hmem, Nat.mod_eq_of_lt hv]

/-! ## A microword's fields (R106, R108) -/

theorem bit_eq_field (w : Word) (i : Nat) : bit w i = decide (field w i 1 = 1) := by
  have hbit := field_testBit w i 1 0
  have hlt := field_lt w i 1
  rw [show bit w i = (field w i 1).testBit 0 by rw [hbit]; rfl]
  obtain h | h : field w i 1 = 0 ∨ field w i 1 = 1 := by omega
  · rw [h]; rfl
  · rw [h]; rfl

/-- No two fields of a microword overlap. -/
theorem fieldsRise_fields (u : Uop) : fieldsRise 0 u.fields = true := by cases u <;> rfl

theorem condOk_lt {c : Nat} (h : condOk c = true) : c < 256 := by
  simp only [condOk, Bool.or_eq_true, Bool.and_eq_true, decide_eq_true_eq] at h
  omega

theorem targetBits_lt (t : Int) : targetBits t < 4294967296 := by
  simp only [targetBits]
  omega

theorem b2n_eq_one (b : Bool) : decide (b2n b = 1) = b := by cases b <;> rfl

/-- The bits of a TARGET in its range are read back as the row offset (R110). -/
theorem signedField_of_targetBits {w : Word} {t : Int} (ht : targetOk t = true) (hw : field w 32 32 = targetBits t) : signedField w 32 32 = t := by
  obtain ⟨hlow, hhigh⟩ : -2147483648 ≤ t ∧ t < 2147483648 := by simpa [targetOk] using ht
  simp only [signedField, hw, targetBits]
  split <;> omega

section
variable {u : Uop} (hwf : u.wf = true)
include hwf

/-- What lies in its range fits its field (R108). -/
theorem fields_fit : ∀ f ∈ u.fields, f.2.2 < 2 ^ f.2.1 := by
  cases u
  all_goals simp only [Uop.wf, Bool.and_eq_true, decide_eq_true_eq] at hwf
  case trig kind unit mask rep =>
    obtain ⟨⟨⟨⟨hkind, hunit⟩, hmask⟩, -⟩, hrep⟩ := hwf
    have hunit : unit < 16 := Nat.lt_of_lt_of_le hunit (by split <;> [decide; split <;> decide])
    simp [Uop.fields]
    omega
  case jmp cond inv target | call cond inv target => simp [Uop.fields, b2n_le, targetBits_lt, condOk_lt hwf.1]
  case ret cond inv => simp [Uop.fields, b2n_le, condOk_lt hwf]
  all_goals simp [Uop.fields, b2n_le, targetBits_lt]
  all_goals omega

/-- An encoded microword reads its own fields. -/
theorem field_encodeWord : ∀ f ∈ u.fields, field (encodeWord u) f.1 f.2.1 = f.2.2 :=
  fun f hf => field_toWord_packFields (fieldsRise_fields u) hf (fields_fit hwf f hf)

/-- The opcode and the fields of an encoded microword spell it (R107, R108). -/
theorem parseWord_encodeWord : parseWord (encodeWord u) = some u := by
  have hread := field_encodeWord hwf
  cases u
  all_goals simp [Uop.fields] at hread
  case jmp cond inv target | call cond inv target =>
    have htarget := signedField_of_targetBits ((Bool.and_eq_true _ _).mp hwf).2 hread.2.2.2
    simp [parseWord, bit_eq_field, b2n_eq_one, hread, htarget]
  case lend ctr target =>
    have htarget := signedField_of_targetBits ((Bool.and_eq_true _ _).mp ((Bool.and_eq_true _ _).mp hwf).1).2 hread.2.2
    simp [parseWord, hread, htarget]
  case pref target => simp [parseWord, hread, signedField_of_targetBits hwf hread.2]
  all_goals simp [parseWord, bit_eq_field, b2n_eq_one, hread]

/-- A microword in its ranges is decoded from its encoding (R107-R109). -/
theorem decodeWord_encodeWord : decodeWord (encodeWord u) = some u := by
  simp [decodeWord, parseWord_encodeWord hwf, hwf]

end

/-- What decodes is in its ranges, and is the word it came from (R109). -/
theorem wf_of_decodeWord {w : Word} {u : Uop} (h : decodeWord w = some u) : u.wf = true ∧ encodeWord u = w := by
  simp only [decodeWord] at h
  split at h
  · next v _ =>
    split at h
    · next hchecks =>
      obtain ⟨hwf, hencode⟩ : v.wf = true ∧ encodeWord v = w := by simpa using hchecks
      exact Option.some.inj h ▸ ⟨hwf, hencode⟩
    · cases h
  · cases h

end Sys2Proof.Machine

open Sys2Proof Sys2Proof.Machine

/-- Settles O7: the fields of a microword lie apart and hold what its ranges allow, so its word reads each of them back; decoding checks both directions itself. -/
theorem microwordsRoundTrip : Obligations.MicrowordsRoundTrip := by
  unfold Obligations.MicrowordsRoundTrip
  exact ⟨fun _ hwf => decodeWord_encodeWord hwf, fun _ _ h => wf_of_decodeWord h⟩

end

section
/-! Words that change the context before their row, and the row that stops a thread (R104, R108, R112). -/

namespace Sys2Proof.Machine

/-! ## A row after a change of the context -/

/-- Two contexts agree in what the issue of a row looks at. -/
structure Thread.SameRow (x y : Thread) : Prop where
  pc : x.pc = y.pc
  cycles : x.cycles = y.cycles
  spans : x.spans = y.spans
  spanSeq : x.spanSeq = y.spanSeq
  issueTu : x.issueTu = y.issueTu
  stagedNext : x.stagedNext = y.stagedNext

/-- A state stands before its own row as soon as no wait is left to report. -/
theorem AtRow.self {s : State} {th : Nat} (h : (s.thread th).waits = false) : AtRow s s th :=
  ⟨⟨(s.thread th).seen, (s.thread th).wlate, by rw [← h]⟩, fun _ _ => rfl, rfl, rfl, onlyThread_refl s th⟩

theorem AtRow.waits {s u : State} {th : Nat} (h : AtRow s u th) : (u.thread th).waits = false := by
  obtain ⟨_, _, hthread⟩ := h.thread
  rw [hthread]

/-- A row issued from a context that was changed first is a row of the thread as it stood (R104). -/
theorem AtRow.issuedRow_of_sameRow {s u t : State} {th n : Nat} {ev : RowEvent} {x : Thread} (h : AtRow s u th) (hx : x.SameRow (u.thread th))
    (hrow : (u.putThread th x).issuedRow t th n ev) : s.issuedRow t th n ev := by
  have hself : (u.putThread th x).thread th = x := thread_putThread_same _ _ _
  obtain ⟨⟨sp, hspans, hpc, hfirst, hleft, hevent, hseq⟩, hcycles, htime, hissued, hcredits, honly⟩ := hrow
  rw [hself] at hspans hpc hfirst hseq hcycles htime hcredits
  refine ⟨⟨sp, ?_, ?_, ?_, hleft, hevent, ?_⟩, ?_, ?_, ?_, fun sl hsl => ?_, onlyThread_trans h.only (onlyThread_trans (onlyThread_putThread u th x) honly)⟩
  · rw [hspans, hx.spans, h.field Thread.spans]
  · rw [hpc, hx.pc, h.field Thread.pc]
  · rw [hfirst, hx.cycles, h.field Thread.cycles]
  · rw [hseq, hx.spanSeq, h.field Thread.spanSeq]
  · rw [hcycles, hx.cycles, h.field Thread.cycles]
  · rw [htime, hx.issueTu, hx.pc, h.field Thread.issueTu, h.field Thread.pc]
    exact congrArg (fun p => (s.thread th).issueTu + n * p) (h.rowPeriod _)
  · exact hissued.trans (congrArg (fun w : Word => (w.toNat + n) % 2 ^ 64) (h.get _ (cyclesIssued_ne th).2.2))
  · have hfree := hcredits sl (show sl ∈ u.threadSlices th by rwa [h.threadSlices])
    rw [hx.stagedNext, h.field Thread.stagedNext] at hfree
    exact hfree.trans (h.spanFree sl th)

/-- A word that changes the context and then advances issues its row. -/
theorem AtRow.issuedRow_putThread_advance {s u : State} {th : Nat} (h : AtRow s u th) (hcredit : s.hasCredit th = true) {x : Thread} (hx : x.SameRow (u.thread th))
    (hwaits : x.waits = (u.thread th).waits) (n : Nat) {f : Span → Span} {ev : RowEvent} (hf : MarksEvent f ev) :
    s.issuedRow ((u.putThread th x).advance th n f) th n ev := by
  have hself : (u.putThread th x).thread th = x := thread_putThread_same _ _ _
  have hready : AtRow (u.putThread th x) (u.putThread th x) th := AtRow.self (by rw [hself, hwaits, h.waits])
  refine h.issuedRow_of_sameRow hx (hready.issuedRow_advance ?_ n hf)
  rw [← h.hasCredit] at hcredit
  rw [State.hasCredit, hself, hx.stagedNext]
  exact hcredit

/-- A row that does not move PC is issued as one that does. -/
theorem AtRow.issuedRow_issue {s u : State} {th : Nat} (h : AtRow s u th) (hcredit : s.hasCredit th = true) (n : Nat) {f : Span → Span} {ev : RowEvent}
    (hf : MarksEvent f ev) : s.issuedRow (u.issue th (u.thread th).pc n f) th n ev := by
  have hself : (u.advance th n f).thread th = { (u.issue th (u.thread th).pc n f).thread th with pc := (u.thread th).pc + 1 } := thread_putThread_same _ _ _
  refine issuedRow_of_eq (h.issuedRow_advance hcredit n hf) ⟨fun i hi => ?_, fun _ _ => rfl, rfl, rfl⟩ ?_ ?_ ?_ rfl rfl
  · exact (thread_putThread_other _ hi _).symm
  all_goals rw [hself]

end Sys2Proof.Machine
end

section
/-! CAPC, SEGM, FLAG and LOOP (R108, R111, R117, R204; O35). -/

namespace Sys2Proof.Machine

/-- A word of a ready thread changes its context and advances (R104): the row is issued, and what is not of the row stays as the word left it. -/
theorem exec_changing {s : State} {th n : Nat} {u : Uop} {c : Instr} {f : Thread → Span → Span} {ev : RowEvent} {change : Thread → Thread} (hready : s.ready th)
    (hword : wordOf c = some (th, u)) (hopen : s.horizonOpen th u = false)
    (hchange : ∀ v : State, v.word th u = (v.putThread th (change (v.thread th))).advance th n (f (v.thread th))) (hsame : ∀ x, (change x).SameRow x) (hwaits : ∀ x, (change x).waits = x.waits)
    (hf : ∀ x, MarksEvent (f x) ev) :
    ∃ v t, AtRow s v th ∧ exec c s = .next t ∧ s.issuedRow t th n ev ∧ (t.thread th).pc = (s.thread th).pc + 1 ∧
      RowKept ((v.putThread th (change (v.thread th))).advance th n (f (v.thread th))) t th := by
  obtain ⟨v, hv, hexec⟩ := exec_word_of_ready hword hready hopen
  rw [hchange v] at hexec
  have hkept := settled_kept ((v.putThread th (change (v.thread th))).advance th n (f (v.thread th))) th
  have hrow := hv.issuedRow_putThread_advance hready.hasCredit (hsame (v.thread th)) (hwaits (v.thread th)) n (hf (v.thread th))
  refine ⟨v, _, hv, hexec, hkept.issuedRow hrow, ?_, hkept⟩
  rw [hkept.field Thread.pc, advance_thread, thread_putThread_same, ← hv.field Thread.pc, (hsame (v.thread th)).pc]

/-- What of the context a row does not touch is, after such a word, as the word left it. -/
theorem field_of_changing {v t : State} {th n : Nat} {f : Span → Span} {x : Thread} (hkept : RowKept ((v.putThread th x).advance th n f) t th) {α : Type} (g : Thread → α)
    (hrow : ∀ (y : Thread) k p sp pc, g { y.withSpan k p sp with pc := pc } = g y := by intros; rfl)
    (hkeep : ∀ (y : Thread) block fetch core, g { y with block := block, depFetch := fetch, core := core } = g y := by intros; rfl) : g (t.thread th) = g x := by
  rw [hkept.field g hkeep, advance_thread, hrow, thread_putThread_same]

/-- The context with the capture, judge and signature switches of a CAPC (R204). -/
def Thread.switched (t : Thread) (fullcap judge sig : Nat) : Thread :=
  { t with
    capture := if fullcap = 1 then some true else if fullcap = 2 then some false else t.capture
    judgeMasked := if judge = 1 then true else if judge = 2 then false else t.judgeMasked
    sigHeld := if sig = 2 then true else if sig = 3 then false else t.sigHeld }

/-- The context in a new segment (R117). -/
def Thread.inSegment (t : Thread) (label : Nat) : Thread := { t with segLabel := label, segCount := t.segCount + 1, segStart := t.cycles }

/-- The context with user flags cleared, then set (R108). -/
def Thread.withFlags (t : Thread) (setuf clruf : BitVec 8) : Thread := { t with uf := (t.uf &&& ~~~ clruf) ||| setuf }

section
variable {s : State} {th : Nat} (hready : s.ready th)
include hready

/-- CAPC switches what the following strobes get, and its row carries the reset of the signatures (R204). -/
theorem exec_capc {fullcap judge sig rep : Nat} {c : Instr} (hword : wordOf c = some (th, .capc fullcap judge sig rep)) :
    ∃ t, exec c s = .next t ∧ s.issuedRow t th (rep + 1) .none ∧ (t.thread th).pc = (s.thread th).pc + 1 ∧
      (t.thread th).capture = ((s.thread th).switched fullcap judge sig).capture ∧ (t.thread th).judgeMasked = ((s.thread th).switched fullcap judge sig).judgeMasked ∧
      (t.thread th).sigHeld = ((s.thread th).switched fullcap judge sig).sigHeld ∧ (t.thread th).spans.getLast?.map Span.sigReset = some (sig == 1) := by
  obtain ⟨v, t, hv, hexec, hrow, hpc, hkept⟩ := exec_changing (change := fun x => x.switched fullcap judge sig) (f := fun _ x => { x with sigReset := sig == 1 })
    hready hword rfl (fun _ => rfl) (fun _ => ⟨rfl, rfl, rfl, rfl, rfl, rfl⟩) (fun _ => rfl) (fun _ _ h => ⟨rfl, rfl, rfl, h, rfl⟩)
  refine ⟨t, hexec, hrow, hpc, ?_, ?_, ?_, ?_⟩
  · rw [field_of_changing hkept Thread.capture]
    exact hv.field (fun x => (x.switched fullcap judge sig).capture)
  · rw [field_of_changing hkept Thread.judgeMasked]
    exact hv.field (fun x => (x.switched fullcap judge sig).judgeMasked)
  · rw [field_of_changing hkept Thread.sigHeld]
    exact hv.field (fun x => (x.switched fullcap judge sig).sigHeld)
  · rw [hkept.field Thread.spans, advance_thread]
    simp [Thread.withSpan]

/-- SEGM begins a segment at its row's first cycle (R117). -/
theorem exec_segm (label : Nat) (trigen : Bool) (trigout rep : Nat) :
    ∃ t, exec (.segm th label trigen trigout rep) s = .next t ∧ s.issuedRow t th (rep + 1) (if trigen then .trigout trigout else .none) ∧
      (t.thread th).pc = (s.thread th).pc + 1 ∧ (t.thread th).segLabel = label ∧ (t.thread th).segCount = (s.thread th).segCount + 1 ∧
      (t.thread th).segStart = (s.thread th).cycles := by
  obtain ⟨v, t, hv, hexec, hrow, hpc, hkept⟩ := exec_changing (c := .segm th label trigen trigout rep) (change := fun x => x.inSegment label)
    (f := fun t x => { x with snap := some t.snapshot, event := if trigen then .trigout trigout else .none }) hready rfl rfl (fun _ => rfl)
    (fun _ => ⟨rfl, rfl, rfl, rfl, rfl, rfl⟩) (fun _ => rfl) (fun _ _ _ => ⟨rfl, rfl, rfl, rfl, rfl⟩)
  refine ⟨t, hexec, hrow, hpc, field_of_changing hkept Thread.segLabel, ?_, ?_⟩
  · rw [field_of_changing hkept Thread.segCount]
    exact hv.field (fun x => (x.inSegment label).segCount)
  · rw [field_of_changing hkept Thread.segStart]
    exact hv.field (fun x => (x.inSegment label).segStart)

/-- FLAG clears user flags, then sets some (R108). -/
theorem exec_flag (setuf clruf : BitVec 8) (rcn : Nat) (rcpub rcval : Bool) (rep : Nat) :
    ∃ t, exec (.flag th setuf clruf rcn rcpub rcval rep) s = .next t ∧ s.issuedRow t th (rep + 1) (if rcpub then .ringCond rcn rcval else .none) ∧
      (t.thread th).pc = (s.thread th).pc + 1 ∧ (t.thread th).uf = ((s.thread th).uf &&& ~~~ clruf) ||| setuf := by
  obtain ⟨v, t, hv, hexec, hrow, hpc, hkept⟩ := exec_changing (c := .flag th setuf clruf rcn rcpub rcval rep) (change := fun x => x.withFlags setuf clruf)
    (f := fun _ x => { x with event := if rcpub then .ringCond rcn rcval else .none }) hready rfl rfl
    (fun v => by simp only [State.word, State.wordFlag, BitVec.ofNat_toNat, BitVec.setWidth_eq]; rfl) (fun _ => ⟨rfl, rfl, rfl, rfl, rfl, rfl⟩) (fun _ => rfl)
    (fun _ _ _ => ⟨rfl, rfl, rfl, rfl, rfl⟩)
  refine ⟨t, hexec, hrow, hpc, ?_⟩
  rw [field_of_changing hkept Thread.uf]
  exact hv.field (fun x => (x.withFlags setuf clruf).uf)

/-- LOOP loads and activates its counter and leaves the others (R111). -/
theorem exec_loop {ctr : Nat} (count rep : Nat) (hctr : ctr < (s.thread th).loops.length) :
    ∃ t, exec (.loop th ctr count rep) s = .next t ∧ s.issuedRow t th (rep + 1) .none ∧ (t.thread th).pc = (s.thread th).pc + 1 ∧ (t.thread th).loop ctr = ⟨count, true⟩ ∧
      ∀ i, i ≠ ctr → (t.thread th).loop i = (s.thread th).loop i := by
  obtain ⟨v, t, hv, hexec, hrow, hpc, hkept⟩ := exec_changing (c := .loop th ctr count rep) (change := fun x => x.setLoop ctr ⟨count, true⟩) (f := fun _ => id) hready rfl rfl
    (fun _ => rfl) (fun _ => ⟨rfl, rfl, rfl, rfl, rfl, rfl⟩) (fun _ => rfl) (fun _ => marksEvent_id)
  have hloops : ∀ i, (t.thread th).loop i = ((s.thread th).setLoop ctr ⟨count, true⟩).loop i := fun i => by
    rw [field_of_changing hkept (fun x => x.loop i)]
    exact hv.field (fun x => (x.setLoop ctr ⟨count, true⟩).loop i)
  refine ⟨t, hexec, hrow, hpc, ?_, fun i hi => ?_⟩
  · rw [hloops]
    simp [Thread.loop, Thread.setLoop, hctr]
  · rw [hloops]
    simp [Thread.loop, Thread.setLoop, List.getElem?_set_ne hi.symm]

end

end Sys2Proof.Machine

open Sys2Proof Sys2Proof.Machine

/-- Settles O35: each word changes the context first and then issues its row, which leaves the change. -/
theorem contextWordsWrite : Obligations.ContextWordsWrite := by
  unfold Obligations.ContextWordsWrite
  refine ⟨fun s th fullcap judge sig rep c hready hc => ?_, fun s th rep hready => ⟨fun label trigen trigout => exec_segm hready label trigen trigout rep,
    fun setuf clruf rcn rcpub rcval => exec_flag hready setuf clruf rcn rcpub rcval rep, fun ctr count hctr => exec_loop hready count rep hctr⟩⟩
  obtain rfl | rfl | rfl := hc <;> exact exec_capc hready rfl

end

section
/-! JMP, CALL, RET, LEND and PREF (R110-R113, R132, R151; O36). -/

namespace Sys2Proof.Machine

/-! ## Conditions at the row (R113, R114, R132) -/

/-- A branch looks at nothing that the reports before a row change, as long as WLATE stands. -/
theorem AtRow.branch {s u : State} {th : Nat} (h : AtRow s u th) (hlate : (u.thread th).wlate = (s.thread th).wlate) (c : Nat) (inv : Bool) :
    u.branch th c inv = s.branch th c inv := by
  obtain ⟨-, -, -, hrest⟩ := h.only
  have hburst : u.burst = s.burst := (congrArg State.burst hrest :)
  have hring : u.ring = s.ring := (congrArg State.ring hrest :)
  have hpast : u.flagsPast = s.flagsPast := (congrArg State.flagsPast hrest :)
  have hsees : ∀ seg, (u.thread th).sees seg = (s.thread th).sees seg := fun seg => h.field (fun x => x.sees seg)
  have hpassed : ∀ tu, (fun x : Nat × Word => decide (tu < u.portTime x.1)) = fun x => decide (tu < s.portTime x.1) := fun tu => by
    funext x
    rw [State.portTime, State.portTime, hburst]
  have hflags : ∀ tu, u.flagsAt tu = s.flagsAt tu := fun tu => by rw [State.flagsAt, State.flagsAt, hpassed, hpast, h.get Key.hostFlags (by decide)]
  have hcond : u.portCond th c = s.portCond th c := by
    simp only [State.portCond, State.tickOf, h.openOrds, hsees, hflags, hburst, hring, hlate, h.field Thread.mto, h.field Thread.wto, h.field Thread.uf, h.field Thread.issueTu]
  simp only [State.branch, h.openOrds, hsees, hcond, h.isSplit, h.groupOf]

theorem noteWait_wlate (s : State) (th : Nat) : ((s.noteWait th).thread th).wlate = (s.thread th).wlate := by
  simp only [State.noteWait]
  split
  · have hself := thread_putThread_same s th { s.thread th with waits := false }
    exact (congrArg Thread.wlate hself :)
  · rfl

theorem noteWord_wlate (s : State) (th : Nat) (u : Uop) : ((s.noteWord th u).thread th).wlate = (s.thread th).wlate := by
  have hself := thread_putThread_same s th { s.thread th with seen := ⟨(s.thread th).issueTu, match u with | .segm .. => (s.thread th).cycles | _ => (s.thread th).segStart, s.openOrds th⟩ }
  exact (congrArg Thread.wlate hself :)

/-- A branching word of a ready thread is executed at its row, its condition as it stood. -/
theorem exec_branching {s : State} {th : Nat} {u : Uop} {c : Instr} (hready : s.ready th) (hword : wordOf c = some (th, u)) (hopen : s.horizonOpen th u = false) :
    ∃ v, AtRow s v th ∧ (∀ cond inv, v.branch th cond inv = s.branch th cond inv) ∧ exec c s = .next ((v.word th u).settled th) := by
  have hrow := atRow_noteWord s th u
  refine ⟨_, hrow, hrow.branch ((noteWord_wlate (s.noteWait th) th u).trans (noteWait_wlate s th)), ?_⟩
  obtain ⟨hth, hexecutes, hcredit⟩ := hready
  rw [exec_word hword, within, if_pos hth, State.runWord, hexecutes, hcredit, hopen]
  rfl

/-! ## The row of a branching word -/

/-- A context with more members masked (R132). -/
def Thread.masked (t : Thread) (ords : List Nat) : Thread := { t with siteMask := t.siteMask ++ ords.filter (fun o => !t.siteMask.contains o) }

/-- The row of a branching word: its members masked, and PC on the sequential row. -/
def State.branchRow (v : State) (th : Nat) (ords : List Nat) : State := (v.putThread th ((v.thread th).masked ords)).advance th 1 id

theorem branchRow_eq (v : State) (th : Nat) (ords : List Nat) : (v.maskOrds th ords).advance th 1 id = v.branchRow th ords := rfl

/-- What a row does not look at is, after it, as in the masked context. -/
theorem field_branchRow (v : State) (th : Nat) (ords : List Nat) {α : Type} (g : Thread → α)
    (hrow : ∀ (y : Thread) k p sp pc, g { y.withSpan k p sp with pc := pc } = g y := by intros; rfl) : g ((v.branchRow th ords).thread th) = g ((v.thread th).masked ords) := by
  rw [State.branchRow, advance_thread, hrow, thread_putThread_same]

theorem pc_branchRow (v : State) (th : Nat) (ords : List Nat) : ((v.branchRow th ords).thread th).pc = (v.thread th).pc + 1 := by
  rw [State.branchRow, advance_thread, thread_putThread_same]
  rfl

theorem AtRow.issuedRow_branchRow {s v : State} {th : Nat} (h : AtRow s v th) (hcredit : s.hasCredit th = true) (ords : List Nat) :
    s.issuedRow (v.branchRow th ords) th 1 .none :=
  h.issuedRow_putThread_advance hcredit (x := (v.thread th).masked ords) ⟨rfl, rfl, rfl, rfl, rfl, rfl⟩ rfl 1 marksEvent_id

/-- The members masked by a word join those that were. -/
theorem mem_append_filter_not_contains {l m : List Nat} {o : Nat} : o ∈ l ++ m.filter (fun o => !l.contains o) ↔ o ∈ l ∨ o ∈ m := by
  simp only [List.mem_append, List.mem_filter, Bool.not_eq_true', List.contains_eq_mem, decide_eq_false_iff_not]
  tauto

/-- A context whose next row is a taken branch's target (R110, R151). -/
def Thread.goneTo (t : Thread) (row : Nat) : Thread :=
  { t with pc := row, depFetch := if t.resident row then t.depFetch else min 16 (t.depFetch + 1), block := if t.pinned row then t.block else row / 256 }

theorem goTo_thread (w : State) (th row : Nat) : (w.goTo th row).thread th = (w.thread th).goneTo row := thread_putThread_same _ _ _

theorem issuedRow_goTo {s w : State} {th n : Nat} {ev : RowEvent} (h : s.issuedRow w th n ev) (row : Nat) : s.issuedRow (w.goTo th row) th n ev :=
  issuedRow_putThread h rfl rfl rfl

/-! ## What the core needs after a taken branch (R91, R99) -/

theorem settleThread_depFetch (w : State) (th : Nat) : ((w.settleThread th).thread th).depFetch = (w.thread th).depFetch := by
  have hfreed : ∀ u : State, ((u.putThread th { u.thread th with core := none }).thread th).depFetch = (u.thread th).depFetch := fun u => by rw [thread_putThread_same]
  simp only [State.settleThread]
  split
  · exact hfreed w
  split
  · rfl
  split
  · exact hfreed w
  split
  · rfl
  · exact hfreed w

/-- A core that stands in the block of its next row needs no further fetch. -/
theorem settled_depFetch {w : State} {th : Nat} (hblock : (w.thread th).pc / 256 = (w.thread th).block) :
    ((w.settled th).thread th).depFetch = (w.thread th).depFetch := by
  have hneed : w.needRows th = w := by simp [State.needRows, hblock]
  rw [State.settled, hneed, settleThread_depFetch]

/-- The target of a taken branch that is not resident is fetched, in its own block (R91, R110). -/
theorem settled_goTo_depFetch {w : State} {th row : Nat} (h : (w.thread th).resident row = false) :
    (((w.goTo th row).settled th).thread th).depFetch = min 16 ((w.thread th).depFetch + 1) := by
  have hpinned : (w.thread th).pinned row = false := (Bool.or_eq_false_iff.1 h).1
  rw [settled_depFetch (by rw [goTo_thread]; simp [Thread.goneTo, hpinned]), goTo_thread]
  simp [Thread.goneTo, h]

/-! ## Branches not taken (R110, R132) -/

section
variable {s : State} {th : Nat} (hready : s.ready th)
include hready

/-- A branch that is not taken masks its members and goes on. -/
theorem exec_untaken {cond : Nat} {inv : Bool} {u : Uop} {c : Instr} (hword : wordOf c = some (th, u)) (hopen : s.horizonOpen th u = false)
    (huntaken : ∀ v : State, (v.branch th cond inv).1 = false → v.word th u = v.branchRow th (v.branch th cond inv).2) (hbranch : (s.branch th cond inv).1 = false) :
    ∃ t, exec c s = .next t ∧ s.issuedRow t th 1 .none ∧ (t.thread th).pc = (s.thread th).pc + 1 ∧
      (∀ o, o ∈ (t.thread th).siteMask ↔ o ∈ (s.thread th).siteMask ∨ o ∈ (s.branch th cond inv).2) ∧ (t.thread th).stack = (s.thread th).stack := by
  obtain ⟨v, hv, hsame, hexec⟩ := exec_branching hready hword hopen
  rw [huntaken v (by rw [hsame]; exact hbranch), hsame] at hexec
  have hkept := settled_kept (v.branchRow th (s.branch th cond inv).2) th
  refine ⟨_, hexec, hkept.issuedRow (hv.issuedRow_branchRow hready.hasCredit _), ?_, fun o => ?_, ?_⟩
  · rw [hkept.field Thread.pc, pc_branchRow, hv.field Thread.pc]
  · rw [hkept.field Thread.siteMask, field_branchRow v th _ Thread.siteMask, ← hv.field Thread.siteMask]
    exact mem_append_filter_not_contains
  · rw [hkept.field Thread.stack, field_branchRow v th _ Thread.stack, ← hv.field Thread.stack]
    rfl

/-! ## JMP (R110) -/

/-- A taken JMP goes to its target, with the stack kept. -/
theorem exec_jmp_taken {cond : Nat} {inv : Bool} {target : Int} (hopen : s.horizonOpen th (.jmp cond inv target) = false) (hbranch : (s.branch th cond inv).1 = true) :
    ∃ t, exec (.jmp th cond inv target) s = .next t ∧ s.issuedRow t th 1 .none ∧ (t.thread th).pc = targetRow (s.thread th).pc target ∧
      (∀ o, o ∈ (t.thread th).siteMask ↔ o ∈ (s.thread th).siteMask ∨ o ∈ (s.branch th cond inv).2) ∧ (t.thread th).stack = (s.thread th).stack ∧
      ((s.thread th).resident (targetRow (s.thread th).pc target) = false → (t.thread th).depFetch = min 16 ((s.thread th).depFetch + 1)) := by
  obtain ⟨v, hv, hsame, hexec⟩ := exec_branching (c := .jmp th cond inv target) (u := .jmp cond inv target) hready rfl hopen
  have hword : v.word th (.jmp cond inv target) = (v.branchRow th (s.branch th cond inv).2).goTo th (targetRow (s.thread th).pc target) := by
    simp only [State.word, State.wordJmp, hsame, hbranch, if_true, branchRow_eq, hv.field Thread.pc]
  rw [hword] at hexec
  generalize hrow : targetRow (s.thread th).pc target = row at hexec ⊢
  have hkept := settled_kept ((v.branchRow th (s.branch th cond inv).2).goTo th row) th
  have hissued := issuedRow_goTo (hv.issuedRow_branchRow hready.hasCredit (s.branch th cond inv).2) row
  refine ⟨_, hexec, hkept.issuedRow hissued, ?_, fun o => ?_, ?_, fun hresident => ?_⟩
  · rw [hkept.field Thread.pc, goTo_thread]
    rfl
  · rw [hkept.field Thread.siteMask, goTo_thread]
    exact (iff_of_eq (congrArg (o ∈ ·) (field_branchRow v th _ Thread.siteMask))).trans
      (by rw [← hv.field Thread.siteMask]; exact mem_append_filter_not_contains)
  · rw [hkept.field Thread.stack, goTo_thread]
    exact (field_branchRow v th _ Thread.stack).trans (hv.field Thread.stack)
  · rw [settled_goTo_depFetch, field_branchRow v th _ Thread.depFetch]
    · exact congrArg (fun n => min 16 (n + 1)) (hv.field Thread.depFetch)
    · rw [field_branchRow v th _ (fun x => x.resident row)]
      exact (hv.field (fun x => x.resident row)).trans hresident

/-! ## A row that stops the thread (R112) -/

/-- A word that stops the thread issues its row as the last one, marked with the reason. -/
theorem exec_stopping {u : Uop} {c : Instr} {reason : Nat} {v : State} (hv : AtRow s v th) (hexec : exec c s = .next ((v.word th u).settled th))
    (hstop : v.word th u = v.wordStop th reason) :
    ∃ t, exec c s = .next t ∧ s.issuedRow t th 1 .none ∧ (t.thread th).spans.getLast?.map Span.stops = some (some reason) ∧ (t.thread th).stack = (s.thread th).stack ∧
      t.executes th = false := by
  have hissued : s.issuedRow (v.issue th (v.thread th).pc 1 (fun x => { x with stops := some reason })) th 1 .none :=
    hv.issuedRow_issue hready.hasCredit 1 (fun _ h => ⟨rfl, rfl, rfl, h, rfl⟩)
  have hself : (v.wordStop th reason).thread th =
      { (v.thread th).withSpan 1 (v.rowPeriod th (v.thread th).pc) { (v.thread th).nextSpan (v.thread th).pc 1 with stops := some reason } with lastRow := true } := by
    simp only [State.wordStop, thread_putThread_same, issue_thread]
  rw [hstop] at hexec
  have hkept := settled_kept (v.wordStop th reason) th
  refine ⟨_, hexec, hkept.issuedRow (issuedRow_putThread hissued rfl rfl rfl), ?_, ?_, ?_⟩
  · rw [hkept.field Thread.spans, hself]
    simp [Thread.withSpan]
  · rw [hkept.field Thread.stack, hself, ← hv.field Thread.stack]
    rfl
  · rw [Bool.eq_false_iff, Ne, executes_iff, hkept.field Thread.lastRow, hself]
    simp

end

end Sys2Proof.Machine
end

section
/-! CALL, RET, LEND and PREF executed, and all branches (R111, R112, R151; O36). -/

namespace Sys2Proof.Machine

theorem issuedRow_putStack {s w : State} {th n : Nat} {ev : RowEvent} (h : s.issuedRow w th n ev) (l : List Nat) :
    s.issuedRow (w.putThread th { w.thread th with stack := l }) th n ev :=
  issuedRow_putThread h rfl rfl rfl

theorem issuedRow_putLoop {s w : State} {th n : Nat} {ev : RowEvent} (h : s.issuedRow w th n ev) (ctr : Nat) (c : LoopCtr) :
    s.issuedRow (w.putThread th ((w.thread th).setLoop ctr c)) th n ev :=
  issuedRow_putThread h rfl rfl rfl

theorem issuedRow_putAltRow {s w : State} {th n : Nat} {ev : RowEvent} (h : s.issuedRow w th n ev) (row : Nat) :
    s.issuedRow (w.putThread th { w.thread th with altRow := some row }) th n ev :=
  issuedRow_putThread h rfl rfl rfl

section
variable {s : State} {th : Nat} (hready : s.ready th)
include hready

/-! ## CALL and RET (R112) -/

/-- A taken CALL pushes the sequential row and goes to its target. -/
theorem exec_call_taken {cond : Nat} {inv : Bool} {target : Int} (hopen : s.horizonOpen th (.call cond inv target) = false) (hbranch : (s.branch th cond inv).1 = true)
    (hroom : (s.thread th).stack.length < 8) :
    ∃ t, exec (.call th cond inv target) s = .next t ∧ s.issuedRow t th 1 .none ∧ (t.thread th).pc = targetRow (s.thread th).pc target ∧
      (t.thread th).stack = (s.thread th).stack ++ [(s.thread th).pc + 1] := by
  obtain ⟨v, hv, hsame, hexec⟩ := exec_branching (c := .call th cond inv target) (u := .call cond inv target) hready rfl hopen
  have hfits : decide (8 ≤ (v.thread th).stack.length) = false := by
    rw [hv.field Thread.stack]
    exact decide_eq_false (Nat.not_le.2 hroom)
  have hissued := hv.issuedRow_branchRow hready.hasCredit (s.branch th cond inv).2
  have hstack := (field_branchRow v th (s.branch th cond inv).2 Thread.stack).trans (hv.field Thread.stack)
  simp only [State.word, State.wordCall, hsame, hbranch, hfits, Bool.and_false, Bool.false_eq_true, if_false, if_true, branchRow_eq, hv.field Thread.pc] at hexec
  generalize hw : v.branchRow th (s.branch th cond inv).2 = w at hexec hissued hstack
  have hgone : s.issuedRow ((w.putThread th { w.thread th with stack := (w.thread th).stack ++ [(s.thread th).pc + 1] }).goTo th (targetRow (s.thread th).pc target)) th 1 .none :=
    issuedRow_goTo (issuedRow_putStack hissued _) _
  split at hexec
  · have hkept := settled_kept ((w.putThread th { w.thread th with stack := (w.thread th).stack ++ [(s.thread th).pc + 1] }).goTo th (targetRow (s.thread th).pc target)) th
    refine ⟨_, hexec, hkept.issuedRow hgone, ?_, ?_⟩
    · rw [hkept.field Thread.pc, goTo_thread]
      rfl
    · rw [hkept.field Thread.stack, goTo_thread, thread_putThread_same, ← hstack]
      rfl
  · refine ⟨_, hexec, (settled_kept _ th).issuedRow (issuedRow_putAltRow hgone _), ?_, ?_⟩
    · rw [(settled_kept _ th).field Thread.pc, thread_putThread_same, goTo_thread]
      rfl
    · rw [(settled_kept _ th).field Thread.stack, thread_putThread_same, goTo_thread, thread_putThread_same, ← hstack]
      rfl

/-- A taken CALL with eight rows stacked stops the thread. -/
theorem exec_call_full {cond : Nat} {inv : Bool} {target : Int} (hopen : s.horizonOpen th (.call cond inv target) = false) (hbranch : (s.branch th cond inv).1 = true)
    (hfull : 8 ≤ (s.thread th).stack.length) :
    ∃ t, exec (.call th cond inv target) s = .next t ∧ s.issuedRow t th 1 .none ∧ (t.thread th).spans.getLast?.map Span.stops = some (some Stop.stackOvf) ∧
      (t.thread th).stack = (s.thread th).stack ∧ t.executes th = false := by
  obtain ⟨v, hv, hsame, hexec⟩ := exec_branching (c := .call th cond inv target) (u := .call cond inv target) hready rfl hopen
  have hfull : decide (8 ≤ (v.thread th).stack.length) = true := by
    rw [hv.field Thread.stack]
    exact decide_eq_true hfull
  exact exec_stopping hready hv hexec (by simp only [State.word, State.wordCall, hsame, hbranch, hfull, Bool.and_self, if_true])

/-- A taken RET pops the row it goes to. -/
theorem exec_ret_taken {cond : Nat} {inv : Bool} (hopen : s.horizonOpen th (.ret cond inv) = false) (hbranch : (s.branch th cond inv).1 = true) {rest : List Nat} {row : Nat}
    (hstacked : (s.thread th).stack = rest ++ [row]) :
    ∃ t, exec (.ret th cond inv) s = .next t ∧ s.issuedRow t th 1 .none ∧ (t.thread th).pc = row ∧ (t.thread th).stack = rest := by
  obtain ⟨v, hv, hsame, hexec⟩ := exec_branching (c := .ret th cond inv) (u := .ret cond inv) hready rfl hopen
  have hstack : (v.thread th).stack = rest ++ [row] := (hv.field Thread.stack).trans hstacked
  have hword : v.word th (.ret cond inv) =
      ((v.branchRow th (s.branch th cond inv).2).putThread th { (v.branchRow th (s.branch th cond inv).2).thread th with stack := rest }).goTo th row := by
    simp [State.word, State.wordRet, hsame, hbranch, branchRow_eq, hstack]
  rw [hword] at hexec
  refine ⟨_, hexec, (settled_kept _ th).issuedRow (issuedRow_goTo (issuedRow_putStack (hv.issuedRow_branchRow hready.hasCredit _) rest) row), ?_, ?_⟩
  · rw [(settled_kept _ th).field Thread.pc, goTo_thread]
    rfl
  · rw [(settled_kept _ th).field Thread.stack, goTo_thread, thread_putThread_same]
    rfl

/-- A taken RET with no row stacked stops the thread. -/
theorem exec_ret_empty {cond : Nat} {inv : Bool} (hopen : s.horizonOpen th (.ret cond inv) = false) (hbranch : (s.branch th cond inv).1 = true)
    (hempty : (s.thread th).stack = []) :
    ∃ t, exec (.ret th cond inv) s = .next t ∧ s.issuedRow t th 1 .none ∧ (t.thread th).spans.getLast?.map Span.stops = some (some Stop.stackUnf) ∧
      (t.thread th).stack = (s.thread th).stack ∧ t.executes th = false := by
  obtain ⟨v, hv, hsame, hexec⟩ := exec_branching (c := .ret th cond inv) (u := .ret cond inv) hready rfl hopen
  have hempty : (v.thread th).stack.isEmpty = true := by rw [hv.field Thread.stack, hempty]; rfl
  exact exec_stopping hready hv hexec (by simp only [State.word, State.wordRet, hsame, hbranch, hempty, Bool.and_self, if_true])

/-! ## LEND (R111) and PREF (R151) -/

/-- A word that advances and then changes the context leaves its row issued. -/
theorem exec_following {u : Uop} {c : Instr} (hword : wordOf c = some (th, u)) (hopen : s.horizonOpen th u = false) {after : State → State}
    (hafter : ∀ v, AtRow s v th → v.word th u = after (v.advance th 1 id)) (hissued : ∀ w, s.issuedRow w th 1 .none → s.issuedRow (after w) th 1 .none) :
    ∃ v, AtRow s v th ∧ exec c s = .next ((after (v.advance th 1 id)).settled th) ∧ s.issuedRow ((after (v.advance th 1 id)).settled th) th 1 .none := by
  obtain ⟨v, hv, hexec⟩ := exec_word_of_ready hword hready hopen
  rw [hafter v hv] at hexec
  exact ⟨v, hv, hexec, (settled_kept _ th).issuedRow (hissued _ (hv.issuedRow_advance hready.hasCredit 1 marksEvent_id))⟩

end

/-- What a sequential row does not look at is, after it, as before. -/
theorem AtRow.field_advance {s v : State} {th : Nat} (h : AtRow s v th) {α : Type} (g : Thread → α)
    (hrow : ∀ (y : Thread) k p sp pc, g { y.withSpan k p sp with pc := pc } = g y := by intros; rfl)
    (hg : ∀ (x : Thread) seen late, g { x with waits := false, seen := seen, wlate := late } = g x := by intros; rfl) :
    g ((v.advance th 1 id).thread th) = g (s.thread th) := by
  rw [advance_thread, hrow, h.field g hg]

theorem AtRow.pc_advance {s v : State} {th : Nat} (h : AtRow s v th) : ((v.advance th 1 id).thread th).pc = (s.thread th).pc + 1 := by
  rw [advance_thread, ← h.field Thread.pc]

theorem loop_setLoop {x : Thread} {i : Nat} (h : i < x.loops.length) (c : LoopCtr) : (x.setLoop i c).loop i = c := by
  simp [Thread.loop, Thread.setLoop, h]

section
variable {s : State} {th : Nat} (hready : s.ready th) {ctr : Nat} (target : Int)
include hready

/-- An active counter above 0 counts down, and LEND goes back. -/
theorem exec_lend_back {n : Nat} (hctr : ctr < (s.thread th).loops.length) (hloop : (s.thread th).loop ctr = ⟨n + 1, true⟩) :
    ∃ t, exec (.lend th ctr target) s = .next t ∧ s.issuedRow t th 1 .none ∧ (t.thread th).loop ctr = ⟨n, true⟩ ∧
      (t.thread th).pc = targetRow (s.thread th).pc target := by
  obtain ⟨v, hv, hexec, hrow⟩ := exec_following (c := .lend th ctr target) (u := .lend ctr target)
    (after := fun w => (w.putThread th ((w.thread th).setLoop ctr ⟨n, true⟩)).goTo th (targetRow (s.thread th).pc target)) hready rfl rfl
    (fun v hv => by simp [State.word, State.wordLend, hv.field (fun x => x.loop ctr), hloop, hv.field Thread.pc])
    (fun w h => issuedRow_goTo (issuedRow_putLoop h ctr _) _)
  refine ⟨_, hexec, hrow, ?_, ?_⟩
  · rw [(settled_kept _ th).field (fun x => x.loop ctr), goTo_thread, thread_putThread_same]
    exact loop_setLoop (by rwa [hv.field_advance (fun x => x.loops.length)]) _
  · rw [(settled_kept _ th).field Thread.pc, goTo_thread]
    rfl

/-- An active counter at 0 becomes inactive, and the sequential row follows. -/
theorem exec_lend_end (hctr : ctr < (s.thread th).loops.length) (hloop : (s.thread th).loop ctr = ⟨0, true⟩) :
    ∃ t, exec (.lend th ctr target) s = .next t ∧ s.issuedRow t th 1 .none ∧ (t.thread th).loop ctr = ⟨0, false⟩ ∧ (t.thread th).pc = (s.thread th).pc + 1 := by
  obtain ⟨v, hv, hexec, hrow⟩ := exec_following (c := .lend th ctr target) (u := .lend ctr target)
    (after := fun w => w.putThread th ((w.thread th).setLoop ctr ⟨0, false⟩)) hready rfl rfl
    (fun v hv => by simp [State.word, State.wordLend, hv.field (fun x => x.loop ctr), hloop]) (fun w h => issuedRow_putLoop h ctr _)
  refine ⟨_, hexec, hrow, ?_, ?_⟩
  · rw [(settled_kept _ th).field (fun x => x.loop ctr), thread_putThread_same]
    exact loop_setLoop (by rwa [hv.field_advance (fun x => x.loops.length)]) _
  · rw [(settled_kept _ th).field Thread.pc, thread_putThread_same]
    exact hv.pc_advance

/-- An inactive counter is left, and the sequential row follows. -/
theorem exec_lend_inactive (hloop : ((s.thread th).loop ctr).active = false) :
    ∃ t, exec (.lend th ctr target) s = .next t ∧ s.issuedRow t th 1 .none ∧ (t.thread th).loops = (s.thread th).loops ∧ (t.thread th).pc = (s.thread th).pc + 1 := by
  obtain ⟨v, hv, hexec, hrow⟩ := exec_following (c := .lend th ctr target) (u := .lend ctr target) (after := id) hready rfl rfl
    (fun v hv => by simp [State.word, State.wordLend, hv.field (fun x => x.loop ctr), hloop]) (fun _ h => h)
  refine ⟨_, hexec, hrow, ?_, ?_⟩
  · rw [(settled_kept _ th).field Thread.loops]
    exact hv.field_advance Thread.loops
  · rw [(settled_kept _ th).field Thread.pc]
    exact hv.pc_advance

/-- PREF names the row of the alternate stream. -/
theorem exec_pref :
    ∃ t, exec (.pref th target) s = .next t ∧ s.issuedRow t th 1 .none ∧ (t.thread th).pc = (s.thread th).pc + 1 ∧
      (t.thread th).altRow = some (targetRow (s.thread th).pc target) := by
  obtain ⟨v, hv, hexec, hrow⟩ := exec_following (c := .pref th target) (u := .pref target)
    (after := fun w => w.putThread th { w.thread th with altRow := some (targetRow (s.thread th).pc target) }) hready rfl rfl
    (fun v hv => by simp only [State.word, State.wordPref, hv.field Thread.pc]) (fun w h => issuedRow_putAltRow h _)
  refine ⟨_, hexec, hrow, ?_, ?_⟩
  · rw [(settled_kept _ th).field Thread.pc, thread_putThread_same]
    exact hv.pc_advance
  · rw [(settled_kept _ th).field Thread.altRow, thread_putThread_same]

end

end Sys2Proof.Machine

open Sys2Proof Sys2Proof.Machine

/-- Settles O36: a branching word masks members and issues its row, whose context then goes to the target, on, or nowhere. -/
theorem branchesAreFollowed : Obligations.BranchesAreFollowed := by
  unfold Obligations.BranchesAreFollowed
  refine ⟨fun s th cond inv target hready hopen => ?_, fun s th cond inv hready => ⟨fun target hopen hbranch => ⟨exec_call_taken hready hopen hbranch,
      exec_call_full hready hopen hbranch⟩, fun hopen hbranch => ⟨fun rest row => exec_ret_taken hready hopen hbranch, fun hempty => ?_⟩,
      fun target hbranch hopen => ⟨?_, ?_⟩⟩,
    fun s th target hready => ⟨fun ctr n hctr => ⟨exec_lend_back hready target hctr, exec_lend_end hready target hctr, exec_lend_inactive hready target⟩, exec_pref hready target⟩⟩
  · cases hbranch : (s.branch th cond inv).1 with
    | false =>
      obtain ⟨t, hexec, hrow, hpc, hmask, hstack⟩ := exec_untaken (c := .jmp th cond inv target) hready rfl hopen
        (fun v hv => by simp only [State.word, State.wordJmp, hv, branchRow_eq, Bool.false_eq_true, if_false]) hbranch
      exact ⟨t, hexec, hrow, hpc, hmask, hstack, fun h => absurd h Bool.false_ne_true⟩
    | true =>
      obtain ⟨t, hexec, hrow, hpc, hmask, hstack, hfetch⟩ := exec_jmp_taken hready hopen hbranch
      exact ⟨t, hexec, hrow, hpc, hmask, hstack, fun _ => hfetch⟩
  · obtain ⟨t, hexec, hrow, hstops, -, hends⟩ := exec_ret_empty hready hopen hbranch hempty
    exact ⟨t, hexec, hrow, hstops, hends⟩
  · obtain ⟨t, hexec, hrow, hpc, -, hstack⟩ := exec_untaken (c := .call th cond inv target) hready rfl hopen
      (fun v hv => by simp only [State.word, State.wordCall, hv, branchRow_eq, Bool.false_and, Bool.false_eq_true, if_false]) hbranch
    exact ⟨t, hexec, hrow, hpc, hstack⟩
  · obtain ⟨t, hexec, hrow, hpc, -, hstack⟩ := exec_untaken (c := .ret th cond inv) hready rfl hopen
      (fun v hv => by simp only [State.word, State.wordRet, hv, branchRow_eq, Bool.false_and, Bool.false_eq_true, if_false]) hbranch
    exact ⟨t, hexec, hrow, hpc, hstack⟩

end

section
/-! A thread that goes on: the end of a wait, and what a thread does once nothing keeps it (R91, R97, R99, R124). -/

namespace Sys2Proof.Machine

/-! ## A thread goes on (R91, R99) -/

/-- `t` is `w` but for thread `th`'s core, the moment it became READY, its state and HELD_EVENTS. -/
structure GoesOn (w t : State) (th : Nat) : Prop where
  thread : ∃ core since waits, t.thread th = { w.thread th with core := core, readySince := since, waits := waits }
  others : ∀ i, i ≠ th → t.thread i = w.thread i
  get : ∀ k, k ≠ Key.threadState th → k ≠ Key.heldEvents → t.get k = w.get k

namespace GoesOn

theorem refl (s : State) (th : Nat) : GoesOn s s th := ⟨⟨_, _, _, rfl⟩, fun _ _ => rfl, fun _ _ _ => rfl⟩

theorem trans {r s t : State} {th : Nat} (h : GoesOn r s th) (k : GoesOn s t th) : GoesOn r t th := by
  obtain ⟨_, _, _, hthread⟩ := h.thread
  obtain ⟨core, since, waits, kthread⟩ := k.thread
  exact ⟨⟨core, since, waits, by rw [kthread, hthread]⟩, fun i hi => (k.others i hi).trans (h.others i hi), fun j hj hheld => (k.get j hj hheld).trans (h.get j hj hheld)⟩

/-- What of the context looks at none of these is as it was. -/
theorem field {w t : State} {th : Nat} (h : GoesOn w t th) {α : Type} (g : Thread → α)
    (hg : ∀ (x : Thread) core since waits, g { x with core := core, readySince := since, waits := waits } = g x := by intros; rfl) : g (t.thread th) = g (w.thread th) := by
  obtain ⟨core, since, waits, hthread⟩ := h.thread
  rw [hthread, hg]

theorem putThread (s : State) (th : Nat) (core : Option Nat) (since : Nat) (waits : Bool) :
    GoesOn s (s.putThread th { s.thread th with core := core, readySince := since, waits := waits }) th :=
  ⟨⟨core, since, waits, thread_putThread_same _ _ _⟩, fun _ hi => thread_putThread_other _ hi _, fun _ _ _ => rfl⟩

theorem setThreadSt (s : State) (th st : Nat) : GoesOn s (s.setThreadSt th st) th :=
  ⟨⟨_, _, _, rfl⟩, fun _ _ => rfl, fun _ hk _ => get_setThreadSt s hk st⟩

theorem countHeld (s : State) (th : Nat) : GoesOn s (s.count Key.heldEvents 64) th :=
  ⟨⟨_, _, _, rfl⟩, fun _ _ => rfl, fun _ _ hk => State.get_put_other _ _ hk.symm⟩

theorem coreFreed (s : State) (th : Nat) : GoesOn s (s.putThread th { s.thread th with core := none }) th := putThread s th none _ _

theorem holdThread (s : State) (th : Nat) : GoesOn s (s.holdThread th) th := ((coreFreed s th).trans (setThreadSt _ th _)).trans (countHeld _ th)

theorem enterReady (s : State) (th : Nat) : GoesOn s (s.enterReady th) th := by
  simp only [State.enterReady]
  split
  · exact setThreadSt s th _
  split
  · exact (putThread s th _ s.raw false).trans (setThreadSt _ th _)
  · exact holdThread s th

theorem settleThread (s : State) (th : Nat) : GoesOn s (s.settleThread th) th := by
  simp only [State.settleThread]
  split
  · exact coreFreed s th
  split
  · exact refl s th
  split
  · exact (coreFreed s th).trans (setThreadSt _ th _)
  split
  · exact refl s th
  · exact holdThread s th

end GoesOn

/-! ## The end of a wait (R124) -/

/-- The cycles that a wait row runs in all: as many as it ends after, but no fewer than were issued. -/
def Thread.waitCount (t : Thread) (w : WaitRun) (n : Nat) : Nat := max n (t.cycles - w.first)

/-- A context whose open repeat has ended. -/
def Thread.waitEnded (t : Thread) (w : WaitRun) (n : Nat) : Thread :=
  { t with
    spans := (t.spans.map (fun x => if x.waiting then { x with left := x.left + (t.waitCount w n - (t.cycles - w.first)), waiting := false } else x)).filter
      (fun x => decide (x.left ≠ 0))
    cycles := w.first + t.waitCount w n
    issueTu := w.firstTu + t.waitCount w n * ((t.issueTu - w.firstTu) / max 1 (t.cycles - w.first))
    waitRun := none }

/-- The state after the open repeat of a thread, with the slices as given: the cycles not yet issued are. -/
def State.repeatEnded (s : State) (th : Nat) (w : WaitRun) (n : Nat) (m : List (Nat × SliceSt)) : State :=
  ({ s.putThread th ((s.thread th).waitEnded w n) with slices := m } : State).countBy (Key.cyclesIssued th) 64 ((s.thread th).waitCount w n - ((s.thread th).cycles - w.first))

/-- A thread goes on where it waited. -/
def State.goOn (s : State) (th : Nat) : State := if s.threadSt th = Th.waiting then s.enterReady th else s

theorem GoesOn.goOn (s : State) (th : Nat) : GoesOn s (s.goOn th) th := by
  simp only [State.goOn]
  split
  · exact GoesOn.enterReady s th
  · exact GoesOn.refl s th

/-- Owed credits are none that are free. -/
theorem spanFree_oweCredit (s : State) (th sl i : Nat) : (s.oweCredit th).spanFree sl i = s.spanFree sl i := by
  refine List.foldlRecOn (s.threadSlices th) _ (motive := fun u : State => u.spanFree sl i = s.spanFree sl i) rfl (fun u hu x _ => ?_)
  rw [State.spanFree, State.slice_putSlice]
  split
  · next hx => rw [← hu, State.spanFree, hx]
  · exact hu

section
variable {s : State} {th : Nat} {w : WaitRun}

theorem repeatEnded_thread (s : State) (th : Nat) (w : WaitRun) (n : Nat) (m : List (Nat × SliceSt)) : (s.repeatEnded th w n m).thread th = (s.thread th).waitEnded w n :=
  thread_putThread_same s th _

/-- The cycles of the repeat are issued, whatever that leaves in the slices' counts. -/
theorem countIssued_repeat (s : State) (th : Nat) (w : WaitRun) (n : Nat) :
    ∃ m, (s.putThread th ((s.thread th).waitEnded w n)).countIssued th ((s.thread th).waitCount w n - ((s.thread th).cycles - w.first)) = s.repeatEnded th w n m ∧
      ∀ sl i, (s.repeatEnded th w n m).spanFree sl i = s.spanFree sl i := by
  let u := s.putThread th ((s.thread th).waitEnded w n)
  let f := fun c : CycleCounts => { c with issued := c.issued + ((s.thread th).waitCount w n - ((s.thread th).cycles - w.first)) }
  obtain ⟨m, hm⟩ := putCounts_eq u (u.threadSlices th) th f
  refine ⟨m, ?_, fun sl i => ?_⟩
  · rw [State.countIssued, hm]
    rfl
  · have hkept := spanFree_putCounts u (u.threadSlices th) th f sl i
    rwa [hm] at hkept

/-- The credit of the repeat is owed, which leaves the free ones. -/
theorem oweCredit_repeat (s : State) (th : Nat) (w : WaitRun) (n : Nat) (m : List (Nat × SliceSt)) :
    ∃ m', (s.repeatEnded th w n m).oweCredit th = s.repeatEnded th w n m' ∧ ∀ sl i, (s.repeatEnded th w n m').spanFree sl i = (s.repeatEnded th w n m).spanFree sl i := by
  obtain ⟨m', hm'⟩ := foldl_putSlice (fun u sl => { u.slice sl with owed := mset 0 (u.slice sl).owed th (mget 0 (u.slice sl).owed th + 1) })
    ((s.repeatEnded th w n m).threadSlices th) (s.repeatEnded th w n m)
  have howed : (s.repeatEnded th w n m).oweCredit th = s.repeatEnded th w n m' := hm'
  exact ⟨m', howed, fun sl i => by rw [← howed, spanFree_oweCredit]⟩

/-- The end of a wait of a thread with no host jump to take: its cycles are issued, its credit is owed, and it goes on. -/
theorem endWait_eq (hwait : (s.thread th).waitRun = some w) (hjump : (s.thread th).jump = none) (n : Nat) :
    ∃ m, (∀ sl i, (s.repeatEnded th w n m).spanFree sl i = s.spanFree sl i) ∧ s.endWait th n = (s.repeatEnded th w n m).goOn th := by
  obtain ⟨m, hissued, hfree⟩ := countIssued_repeat s th w n
  obtain ⟨m', howed, hfree'⟩ := oweCredit_repeat s th w n m
  have hnone : ((s.repeatEnded th w n m).thread th).jump = none := (congrArg Thread.jump (repeatEnded_thread s th w n m)).trans hjump
  obtain ⟨owes, hend⟩ : ∃ owes : Bool, s.endWait th n = (if owes then ((s.repeatEnded th w n m).jumpAtEnd th).oweCredit th else (s.repeatEnded th w n m).jumpAtEnd th).goOn th :=
    ⟨_, by rw [← hissued]; simp only [State.endWait, hwait]; rfl⟩
  have hjumped : (s.repeatEnded th w n m).jumpAtEnd th = s.repeatEnded th w n m := by rw [State.jumpAtEnd, hnone]
  rw [hjumped, howed] at hend
  cases owes with
  | false => exact ⟨m, hfree, hend⟩
  | true => exact ⟨m', fun sl i => (hfree' sl i).trans (hfree sl i), hend⟩

/-- What the end of a wait leaves of the thread (R124). -/
theorem endWait_spec (hwait : (s.thread th).waitRun = some w) (hjump : (s.thread th).jump = none) (n : Nat) :
    (∃ core since waits, (s.endWait th n).thread th = { (s.thread th).waitEnded w n with core := core, readySince := since, waits := waits }) ∧
      ∀ i, i ≠ th → (s.endWait th n).thread i = s.thread i := by
  obtain ⟨m, -, hend⟩ := endWait_eq hwait hjump n
  have hgoes := GoesOn.goOn (s.repeatEnded th w n m) th
  obtain ⟨core, since, waits, hthread⟩ := hgoes.thread
  rw [hend]
  exact ⟨⟨core, since, waits, by rw [hthread, repeatEnded_thread]⟩, fun i hi => (hgoes.others i hi).trans (thread_putThread_other _ hi _)⟩

/-- Which slices a thread's ports are on is in area 0x20 (R83, R88, R89): an object below it does not matter. -/
theorem threadSlices_put {k : Nat} (hk : k < 0x20000000) (v : Word) (i : Nat) : (s.put k v).threadSlices i = s.threadSlices i := by
  have hget : ∀ obj el, (s.put k v).get (mkKey 0x20 obj el) = s.get (mkKey 0x20 obj el) := fun obj el =>
    State.get_put_other _ _ (by simp only [mkKey]; omega)
  have hports : (s.put k v).boundPorts = s.boundPorts := boundPorts_put s (by simp only [keyArea]; omega) v
  have hmembers : ∀ g, (s.put k v).members g = s.members g := fun g => by
    simp only [State.members, hports, State.siteOn, State.mapBit, Key.siteEnable, hget]
  have hgroup : (s.put k v).groupOf i = s.groupOf i := by
    simp only [State.groupOf, State.getF_eq, Key.role, hget]
    rfl
  have hserved : (s.put k v).served i = s.served i := by
    simp only [State.served, State.isSplit, State.isDerived, State.getF_eq, hgroup, hmembers, Key.threadCtrl, Key.role, hget]
    rfl
  simp only [State.threadSlices, State.portSliceList, hserved, Key.portSlices, hget]

/-- A thread that waited, and that nothing else keeps from running, is READY (R91). -/
theorem endWait_ready (hth : th < 3072) (hwait : (s.thread th).waitRun = some w) (hjump : (s.thread th).jump = none) (hstate : s.threadSt th = Th.waiting)
    (hdepends : (s.thread th).depends = false) (hcredit : s.hasCredit th = true) (htoken : s.heldByToken th = false) (n : Nat) :
    (s.endWait th n).threadSt th = Th.ready := by
  obtain ⟨m, hfree, hend⟩ := endWait_eq hwait hjump n
  have hself := repeatEnded_thread s th w n m
  have hwaiting : (s.repeatEnded th w n m).threadSt th = Th.waiting := by
    rw [State.threadSt, State.getF_eq, State.repeatEnded, State.countBy, State.get_put_other _ _ (cyclesIssued_ne th).1]
    exact hstate
  have hnothing : ((s.repeatEnded th w n m).thread th).depends = false := by rw [hself]; exact hdepends
  have hready : (s.repeatEnded th w n m).hasCredit th = true := by
    have hslices : (s.repeatEnded th w n m).threadSlices th = s.threadSlices th :=
      threadSlices_put (s := { s.putThread th ((s.thread th).waitEnded w n) with slices := m }) (by simp only [Key.cyclesIssued, mkKey]; omega) _ th
    rw [State.hasCredit, hself, hslices]
    simp only [hfree]
    exact hcredit
  have hback : (s.repeatEnded th w n m).heldByToken th = false :=
    heldByToken_putThread (s := s) (x := (s.thread th).waitEnded w n) rfl htoken
  rw [hend, State.goOn, if_pos hwaiting, enterReady_of_free hnothing hready hback]
  exact (makeReady_spec _ th).1

end

end Sys2Proof.Machine
end

section
/-! The ends of waits and of a MATCH (R125-R127, R130; O40). -/

namespace Sys2Proof.Machine

theorem wakeThread_eq {s : State} {th : Nat} {w : WaitRun} (hwait : (s.thread th).waitRun = some w) (wake : Nat) :
    s.wakeThread th wake = s.endWait th ((s.thread th).wakeCycles w wake) := by
  simp only [State.wakeThread, hwait]

section
variable {s : State} {th : Nat} (hth : th < 3072)
include hth

/-! ## WAITTRIG and WAITTIME (R126, R127) -/

/-- A WAITTRIG that times out ends after TIMEOUT cycles, and tells so (R126). -/
theorem exec_waittrigTimeout {src timeout first ftu : Nat} {wake : Option Nat} (hlive : s.live th = true) (hjump : (s.thread th).jump = none)
    (hwait : (s.thread th).waitRun = some ⟨.trig src timeout, first, ftu, wake⟩) (htimeout : timeout ≠ 0) (hdue : first + timeout ≤ (s.thread th).started) :
    ∃ t, exec (.waittrigTimeout th) s = .next t ∧ (t.thread th).depTrig = false ∧ (t.thread th).wto = true ∧ (t.thread th).waitRun = none ∧
      (t.thread th).cycles = first + max timeout ((s.thread th).cycles - first) ∧ (∀ i, i ≠ th → t.thread i = s.thread i) ∧
      (s.threadSt th = Th.waiting → (s.thread th).depFetch = 0 → (s.thread th).depSync ≤ 0 → (s.thread th).depTime = false → s.hasCredit th = true →
        s.heldByToken th = false → t.threadSt th = Th.ready) := by
  let x : Thread := { s.thread th with depTrig := false, wto := true }
  have hself : (s.putThread th x).thread th = x := thread_putThread_same _ _ _
  have hrun : ((s.putThread th x).thread th).waitRun = some ⟨.trig src timeout, first, ftu, wake⟩ := (congrArg Thread.waitRun hself).trans hwait
  have hnone : ((s.putThread th x).thread th).jump = none := (congrArg Thread.jump hself).trans hjump
  have hexec : exec (.waittrigTimeout th) s = .next ((s.putThread th x).endWait th timeout) := by
    simp only [exec, execWaittrigTimeout, within, if_pos hth]
    split
    · next w hw =>
      obtain rfl : w = _ := Option.some.inj (hw.symm.trans hwait)
      exact congrArg Host.Outcome.next (if_pos ⟨htimeout, hdue, hlive⟩)
    · next hw => cases hw.symm.trans hwait
  obtain ⟨⟨core, since, waits, hthread⟩, hothers⟩ := endWait_spec hrun hnone timeout
  rw [hself] at hthread
  refine ⟨_, hexec, by rw [hthread]; rfl, by rw [hthread]; rfl, by rw [hthread]; rfl, by rw [hthread]; rfl, fun i hi => (hothers i hi).trans (thread_putThread_other _ hi _),
    fun hstate hfetch hsync htime hcredit htoken => ?_⟩
  refine endWait_ready hth hrun hnone hstate ?_ ?_ (heldByToken_putThread rfl htoken) timeout
  · rw [hself]
    simp [x, Thread.depends, hfetch, hsync, htime]
  · rw [State.hasCredit, hself]
    exact hcredit

/-- A WAITTIME ends 128 ns before its time (R127). -/
theorem exec_waittimeWake {wake first ftu : Nat} {w : Option Nat} (hlive : s.live th = true) (hjump : (s.thread th).jump = none)
    (hwait : (s.thread th).waitRun = some ⟨.time wake, first, ftu, w⟩) (hdue : wake ≤ (s.thread th).startTu + 512000) :
    ∃ t, exec (.waittimeWake th) s = .next t ∧ (t.thread th).depTime = false ∧ (t.thread th).waitRun = none ∧ ∀ i, i ≠ th → t.thread i = s.thread i := by
  let x : Thread := { s.thread th with depTime := false }
  have hself : (s.putThread th x).thread th = x := thread_putThread_same _ _ _
  have hrun : ((s.putThread th x).thread th).waitRun = some ⟨.time wake, first, ftu, w⟩ := (congrArg Thread.waitRun hself).trans hwait
  have hnone : ((s.putThread th x).thread th).jump = none := (congrArg Thread.jump hself).trans hjump
  have hexec : exec (.waittimeWake th) s = .next ((s.putThread th x).endWait th (x.wakeCycles ⟨.time wake, first, ftu, w⟩ wake)) := by
    have hdue : wake ≤ (s.thread th).startTu + lead := hdue
    simp only [exec, execWaittimeWake, within, if_pos hth]
    split
    · next v hv =>
      obtain rfl : v = _ := Option.some.inj (hv.symm.trans hwait)
      refine congrArg Host.Outcome.next ((if_pos ⟨hdue, hlive⟩).trans ?_)
      exact (wakeThread_eq hrun wake).trans (by rw [hself])
    · next hv => cases hv.symm.trans hwait
  obtain ⟨⟨core, since, waits, hthread⟩, hothers⟩ := endWait_spec hrun hnone (x.wakeCycles ⟨.time wake, first, ftu, w⟩ wake)
  rw [hself] at hthread
  exact ⟨_, hexec, by rw [hthread]; rfl, by rw [hthread]; rfl, fun i hi => (hothers i hi).trans (thread_putThread_other _ hi _)⟩

/-! ## SYNC_TOKEN (R91, R125) -/

theorem exec_syncToken {sender time : Nat} (hlive : s.live th = true) (htoken : s.tokens.contains (th, sender, time) = true) :
    exec (.syncToken th sender time) s = .next ({ s with tokens := s.tokens.erase (th, sender, time) }.takeToken th sender time) := by
  have hlive : ({ s with tokens := s.tokens.erase (th, sender, time) } : State).live th = true := hlive
  simp only [exec, execSyncToken, within, if_pos hth, if_pos htoken, if_pos hlive]

end

/-- A context that has banked a token of an event time. -/
def Thread.banking (t : Thread) (time : Nat) : Thread := { t with banked := t.banked ++ [time], depSync := t.depSync - 1 }

/-- A context that holds back a token of a sender. -/
def Thread.holdingBack (t : Thread) (sender time : Nat) : Thread := { t with heldTokens := t.heldTokens ++ [(sender, time)] }

/-- A context whose SYNC has its token. -/
def Thread.synced (t : Thread) : Thread := { t with depSync := t.depSync - 1 }

/-- A token that no SYNC awaits is banked (R125). -/
theorem takeToken_banked {s : State} {th : Nat} (hwait : (s.thread th).waitRun = none) (hroom : s.placesTaken th < 15) (sender time : Nat) :
    s.takeToken th sender time = s.putThread th ((s.thread th).banking time) := by
  simp only [State.takeToken]
  split
  · next h => cases h.symm.trans hwait
  · exact if_neg (Nat.not_le.2 hroom)

/-- With 15 places taken it is held back, and its sender is HELD (R91, R237). -/
theorem takeToken_held {s : State} {th : Nat} (hwait : (s.thread th).waitRun = none) (hfull : 15 ≤ s.placesTaken th) {sender : Nat} (hends : s.ended sender = false) (time : Nat) :
    s.takeToken th sender time = (s.putThread th ((s.thread th).holdingBack sender time)).holdThread sender := by
  have hends : (s.putThread th ((s.thread th).holdingBack sender time)).ended sender = false := hends
  simp only [State.takeToken]
  split
  · next h => cases h.symm.trans hwait
  · exact (if_pos hfull).trans (if_neg (Bool.eq_false_iff.1 hends))

/-- One that a SYNC awaits ends its wait (R125). -/
theorem takeToken_awaited {s : State} {th first ftu : Nat} {wake : Option Nat} (hwait : (s.thread th).waitRun = some ⟨.sync, first, ftu, wake⟩) (sender time : Nat) :
    ∃ n, s.takeToken th sender time = (s.putThread th (s.thread th).synced).endWait th n := by
  have hrun : ((s.putThread th (s.thread th).synced).thread th).waitRun = some ⟨.sync, first, ftu, wake⟩ := (congrArg Thread.waitRun (thread_putThread_same _ _ _)).trans hwait
  refine ⟨_, Eq.trans ?_ (wakeThread_eq hrun (time + lead))⟩
  simp only [State.takeToken]
  split
  · rfl
  · next hnot => exact absurd hwait (hnot _ _ _)

/-- A context keeps its bank when its thread, or another, is HELD. -/
theorem holdThread_bank (s : State) (n th : Nat) :
    ((s.holdThread n).thread th).banked = (s.thread th).banked ∧ ((s.holdThread n).thread th).heldTokens = (s.thread th).heldTokens := by
  have hgoes := GoesOn.holdThread s n
  by_cases hth : th = n
  · subst hth
    exact ⟨hgoes.field Thread.banked, hgoes.field Thread.heldTokens⟩
  · rw [hgoes.others th hth]
    exact ⟨rfl, rfl⟩

section
variable {s : State} {th : Nat} (hth : th < 3072) (hlive : s.live th = true) {sender time : Nat} (htoken : s.tokens.contains (th, sender, time) = true)
include hth hlive htoken

theorem exec_syncToken_banked (hwait : (s.thread th).waitRun = none) (hroom : s.placesTaken th < 15) :
    ∃ t, exec (.syncToken th sender time) s = .next t ∧ (t.thread th).banked = (s.thread th).banked ++ [time] ∧ (t.thread th).depSync = (s.thread th).depSync - 1 ∧
      t.tokens = s.tokens.erase (th, sender, time) ∧ (∀ i, i ≠ th → t.thread i = s.thread i) ∧ t.objs = s.objs := by
  let v : State := { s with tokens := s.tokens.erase (th, sender, time) }
  have hself := thread_putThread_same v th ((s.thread th).banking time)
  exact ⟨_, (exec_syncToken hth hlive htoken).trans (congrArg Host.Outcome.next (takeToken_banked (s := v) hwait hroom sender time)), congrArg Thread.banked hself,
    congrArg Thread.depSync hself, rfl, fun i hi => thread_putThread_other v hi _, rfl⟩

theorem exec_syncToken_held (hwait : (s.thread th).waitRun = none) (hfull : 15 ≤ s.placesTaken th) (hends : s.ended sender = false) :
    ∃ t, exec (.syncToken th sender time) s = .next t ∧ (t.thread th).banked = (s.thread th).banked ∧
      (t.thread th).heldTokens = (s.thread th).heldTokens ++ [(sender, time)] ∧ t.threadSt sender = Th.held ∧ t.tokens = s.tokens.erase (th, sender, time) := by
  let v : State := { s with tokens := s.tokens.erase (th, sender, time) }
  have hself := thread_putThread_same v th ((s.thread th).holdingBack sender time)
  obtain ⟨hbanked, hheld⟩ := holdThread_bank (v.putThread th ((s.thread th).holdingBack sender time)) sender th
  exact ⟨_, (exec_syncToken hth hlive htoken).trans (congrArg Host.Outcome.next (takeToken_held (s := v) hwait hfull hends time)), hbanked.trans (congrArg Thread.banked hself :),
    hheld.trans (congrArg Thread.heldTokens hself), (holdThread_spec _ sender).1, rfl⟩

theorem exec_syncToken_awaited (hjump : (s.thread th).jump = none) {first ftu : Nat} {wake : Option Nat}
    (hwait : (s.thread th).waitRun = some ⟨.sync, first, ftu, wake⟩) :
    ∃ t, exec (.syncToken th sender time) s = .next t ∧ (t.thread th).depSync = (s.thread th).depSync - 1 ∧ (t.thread th).waitRun = none ∧
      (t.thread th).banked = (s.thread th).banked := by
  let v : State := { s with tokens := s.tokens.erase (th, sender, time) }
  have hself := thread_putThread_same v th (s.thread th).synced
  obtain ⟨n, htaken⟩ := takeToken_awaited (s := v) hwait sender time
  obtain ⟨⟨core, since, waits, hthread⟩, -⟩ := endWait_spec (s := v.putThread th (s.thread th).synced) ((congrArg Thread.waitRun hself).trans hwait)
    ((congrArg Thread.jump hself).trans hjump) n
  rw [hself] at hthread
  exact ⟨_, (exec_syncToken hth hlive htoken).trans (congrArg Host.Outcome.next htaken), (congrArg Thread.depSync hthread :), (congrArg Thread.waitRun hthread :),
    (congrArg Thread.banked hthread :)⟩

end

/-! ## MATCH_EXIT (R130, R133) -/

/-- Sites that fail change neither a thread nor the mode. -/
theorem siteFails_foldl {α : Type} (c : α → Bool) (site : α → Nat) (b : Nat) (l : List α) (s : State) :
    (l.foldl (fun u x => if c x then u.siteFails (site x) b else u) s).threads = s.threads ∧
      (l.foldl (fun u x => if c x then u.siteFails (site x) b else u) s).mode = s.mode := by
  have hsite : ∀ (u : State) (n : Nat), (u.siteFails n b).mode = u.mode := fun u n => by
    have hstatus : Key.siteStatus n ≠ Key.deviceMode := by simp only [Key.siteStatus, Key.deviceMode, mkKey]; omega
    have hmap : Key.siteFailMap (n / 64) ≠ Key.deviceMode := by simp only [Key.siteFailMap, Key.deviceMode, mkKey]; omega
    simp only [State.mode, State.siteFails, State.setMapBit, State.putF, State.get_put_other _ _ hstatus, State.get_put_other _ _ hmap]
  refine List.foldlRecOn l _ (motive := fun u : State => u.threads = s.threads ∧ u.mode = s.mode) ⟨rfl, rfl⟩ (fun u hu x _ => ?_)
  obtain ⟨hthreads, hmode⟩ := hu
  split
  · exact ⟨hthreads, (hsite u _).trans hmode⟩
  · exact ⟨hthreads, hmode⟩

/-- A context that has left a MATCH after pass `e` (R130, R133). -/
def Thread.matchLeftAt (t : Thread) (m : MatchRun) (e : Nat) : Thread :=
  { t with
    matchRun := none, matchLeft := 0, mto := m.timedOut, matchTimeout := t.matchTimeout || m.timedOut, failedOrds := t.failedOrds ++ m.unmet, pc := m.row + m.body + 1
    cycles := m.first + (e + 1) * m.len, issueTu := m.firstTu + (e + 1) * m.dur }

/-- A thread with no host jump to take leaves its MATCH: its context has left it but for the members masked, and it goes on. -/
theorem leaveMatch_spec {s : State} {th : Nat} (hjump : (s.thread th).jump = none) (m : MatchRun) (e : Nat) :
    ∃ w ords, w.thread th = ((s.thread th).matchLeftAt m e).masked ords ∧ (∀ i, i ≠ th → w.thread i = s.thread i) ∧ w.mode = s.mode ∧ GoesOn w (s.leaveMatch th m e) th := by
  let x := (s.thread th).matchLeftAt m e
  let ords := if s.isSplit (s.groupOf th) || decide ((s.members (s.groupOf th)).length < 2) then [] else m.unmet
  let u := ((s.putThread th x).served th).foldl (fun u y => if m.unmet.contains y.1 then u.siteFails (siteOf y.2) 3 else u) (s.putThread th x)
  obtain ⟨hthreads, hmode⟩ : u.threads = (s.putThread th x).threads ∧ u.mode = s.mode :=
    siteFails_foldl (fun y : Nat × Nat => m.unmet.contains y.1) (fun y => siteOf y.2) 3 ((s.putThread th x).served th) (s.putThread th x)
  have hthread : ∀ i, u.thread i = (s.putThread th x).thread i := fun i => by rw [State.thread, hthreads]; rfl
  have hself : u.thread th = x := (hthread th).trans (thread_putThread_same s th x)
  have hmasked : (u.maskOrds th ords).thread th = x.masked ords := (thread_putThread_same u th _).trans (congrArg (fun y : Thread => y.masked ords) hself)
  have hleft : s.leaveMatch th m e = if ((u.maskOrds th ords).thread th).core.isSome then (u.maskOrds th ords).setThreadSt th Th.running else (u.maskOrds th ords).enterReady th := by
    have hstays : (u.maskOrds th ords).jumpAtEnd th = u.maskOrds th ords := by
      rw [State.jumpAtEnd, show ((u.maskOrds th ords).thread th).jump = none from (congrArg Thread.jump hmasked).trans hjump]
    have hshape : s.leaveMatch th m e = if (((u.maskOrds th ords).jumpAtEnd th).thread th).core.isSome then ((u.maskOrds th ords).jumpAtEnd th).setThreadSt th Th.running
        else ((u.maskOrds th ords).jumpAtEnd th).enterReady th := rfl
    rw [hshape, hstays]
  refine ⟨u.maskOrds th ords, ords, hmasked, fun i hi => ?_, hmode, ?_⟩
  · exact (thread_putThread_other u hi _).trans ((hthread i).trans (thread_putThread_other s hi x))
  · rw [hleft]
    split
    · exact GoesOn.setThreadSt _ th _
    · exact GoesOn.enterReady _ th

/-- A MATCH whose exit pass has executed ends (R130). -/
theorem exec_matchExit {s : State} {th e : Nat} {m : MatchRun} (hth : th < 3072) (hlive : s.live th = true) (hrun : (s.thread th).matchRun = some m) (hexit : m.exit = some e)
    (hdue : m.first + (e + 1) * m.len ≤ (s.thread th).started) (hjump : (s.thread th).jump = none) :
    ∃ t, exec (.matchExit th) s = .next t ∧ (t.thread th).matchRun = none ∧ (t.thread th).pc = m.row + m.body + 1 ∧ (t.thread th).mto = m.timedOut ∧
      (t.thread th).cycles = m.first + (e + 1) * m.len ∧ (t.thread th).issueTu = m.firstTu + (e + 1) * m.dur ∧ (∀ i, i ≠ th → t.thread i = s.thread i) ∧ t.mode = s.mode := by
  obtain ⟨w, ords, hthread, hothers, hmode, hleaves⟩ := leaveMatch_spec hjump m e
  have hgoes := hleaves.trans (GoesOn.settleThread (s.leaveMatch th m e) th)
  have hexec : exec (.matchExit th) s = .next ((s.leaveMatch th m e).settleThread th) := by
    simp [exec, execMatchExit, within, hth, hrun, hexit, hlive, hdue]
  refine ⟨_, hexec, ?_, ?_, ?_, ?_, ?_, fun i hi => (hgoes.others i hi).trans (hothers i hi), ?_⟩
  · rw [hgoes.field Thread.matchRun, hthread]; rfl
  · rw [hgoes.field Thread.pc, hthread]; rfl
  · rw [hgoes.field Thread.mto, hthread]; rfl
  · rw [hgoes.field Thread.cycles, hthread]; rfl
  · rw [hgoes.field Thread.issueTu, hthread]; rfl
  · rw [← hmode, State.mode, State.mode, hgoes.get _ (by simp only [Key.threadState, Key.deviceMode, mkKey]; omega) (by decide)]

end Sys2Proof.Machine

open Sys2Proof Sys2Proof.Machine

/-- Settles O40: the end of a wait is its repeat's end and what the thread does then; a MATCH is left by its context, and the thread goes on likewise. -/
theorem waitsEnd : Obligations.WaitsEnd := by
  unfold Obligations.WaitsEnd
  exact ⟨fun s th hth hlive hjump => ⟨fun _ _ _ _ _ => exec_waittrigTimeout hth hlive hjump, fun _ _ _ _ => exec_waittimeWake hth hlive hjump,
      fun _ _ htoken => exec_syncToken_banked hth hlive htoken, fun _ _ htoken hwait hfull _ => exec_syncToken_held hth hlive htoken hwait hfull,
      fun _ _ _ _ _ htoken => exec_syncToken_awaited hth hlive htoken hjump⟩,
    fun _ _ _ _ hth hlive => exec_matchExit hth hlive⟩

end

section
/-! Host jumps accepted and taken (R121, R122; O41). -/

namespace Sys2Proof.Machine

/-! ## HOST_JUMP (R121) -/

/-- What a change of the contexts of some threads leaves: those threads changed from what they were, and nothing else. -/
theorem foldl_putThread (f : Thread → Thread) (hf : ∀ x, f (f x) = f x) (l : List Nat) (s : State) :
    (∀ i, i ∈ l → (l.foldl (fun u i => u.putThread i (f (u.thread i))) s).thread i = f (s.thread i)) ∧
      (∀ i, i ∉ l → (l.foldl (fun u i => u.putThread i (f (u.thread i))) s).thread i = s.thread i) ∧
      ∃ m, l.foldl (fun u i => u.putThread i (f (u.thread i))) s = { s with threads := m } := by
  induction l generalizing s with
  | nil => exact ⟨nofun, fun _ _ => rfl, s.threads, rfl⟩
  | cons a l ih =>
    obtain ⟨hin, hout, m, hm⟩ := ih (s.putThread a (f (s.thread a)))
    refine ⟨fun i hi => ?_, fun i hi => ?_, m, hm⟩
    · rw [List.foldl_cons]
      by_cases hl : i ∈ l
      · rw [hin i hl, State.thread_putThread]
        split
        · next ha => rw [hf, ha]
        · rfl
      · obtain rfl : i = a := (List.mem_cons.1 hi).resolve_right hl
        rw [hout i hl, thread_putThread_same]
    · obtain ⟨ha, hl⟩ := not_or.1 (mt List.mem_cons.2 hi)
      rw [List.foldl_cons, hout i hl, thread_putThread_other _ ha]

/-- A context that awaits a host jump. -/
def Thread.awaiting (j : JumpReq) (t : Thread) : Thread := { t with jump := some j }

/-- The threads of a group that a host jump reaches. -/
def State.jumpers (s : State) (th : Nat) : List Nat := (s.groupThreads th).filter (fun t => s.live t)

section
variable {s : State} {th : Nat} {arg : Word} (hth : th < 3072) (hmode : s.mode = Mode.burst) (hbusy : s.cmdBusy (Key.hostJump th) = false) (harg : arg.toNat ≤ 3)
  (hentry : s.get (Key.hjEntry th arg.toNat) ≠ 0xFFFFFFFFFFFFFFFF) (hthreads : s.burst.threads.contains th = true) (hsome : s.jumpers th ≠ [])
include hth hmode hbusy harg hentry hthreads hsome

/-- An accepted host jump is PENDING, and every running thread of the group awaits it. -/
theorem cmdHostJump_ok : s.cmdHostJump th arg =
    (.ok, (s.jumpers th).foldl (fun u i => u.putThread i ((u.thread i).awaiting ⟨arg.toNat, th, s.sliceNow + 32000, false⟩)) (s.cmdPend (Key.hostJump th) 0)) := by
  have hcode : refuse [(decide (3072 ≤ th), .noObject), (s.mode != Mode.burst, .wrongMode), (s.cmdBusy (Key.hostJump th), .busy),
      (decide (3 < arg.toNat) || s.get (Key.hjEntry th arg.toNat) == 0xFFFFFFFFFFFFFFFF || !s.burst.threads.contains th, .range)] = .ok := by
    simpa [refuse, Nat.not_le.2 hth, hmode, hbusy, Nat.not_lt.2 harg, List.contains_iff_mem.1 hthreads] using hentry
  have hlive : (s.jumpers th).isEmpty = false := by simpa using hsome
  delta State.cmdHostJump
  extract_lets key entry c ths
  rw [if_neg (not_not_intro (show c = .ok from hcode)), if_neg (by rw [show ths.isEmpty = false from hlive]; exact Bool.false_ne_true)]
  rfl

theorem exec_hostJump {p : Sys2Proof.Path} (hserves : s.serves p) :
    ∃ t, exec (.hostJump p th arg) s = .next t ∧ t.answered (Key.hostJump th) .ok ∧ t.cmdState (Key.hostJump th) = Cmd.pending ∧
      (∀ x, x ∈ s.groupThreads th → s.live x = true → (t.thread x).jump = some ⟨arg.toNat, th, s.sliceNow + 32000, false⟩) ∧
      (∀ x, x ∉ s.groupThreads th → t.thread x = s.thread x) ∧ s.objectsBut t [Key.hostJump th] := by
  have hok := cmdHostJump_ok hth hmode hbusy harg hentry hthreads hsome
  obtain ⟨hin, hout, m, hm⟩ := foldl_putThread (Thread.awaiting ⟨arg.toNat, th, s.sliceNow + 32000, false⟩) (fun _ => rfl) (s.jumpers th) (s.cmdPend (Key.hostJump th) 0)
  generalize hu : (s.jumpers th).foldl (fun u i => u.putThread i ((u.thread i).awaiting ⟨arg.toNat, th, s.sliceNow + 32000, false⟩)) (s.cmdPend (Key.hostJump th) 0) = u
    at hok hin hout hm
  have hexec : exec (.hostJump p th arg) s = .next (u.respond 0x02 0 (Key.hostJump th) .ok) := by
    simp only [exec, execHostJump, hserves.1, false_and, if_false]
    rw [access_ok hserves 0 (Key.hostJump th) hok]
  obtain ⟨v, n, hrespond⟩ := respond_spec u 0x02 0 (Key.hostJump th) .ok
  have hthread : ∀ i, (u.respond 0x02 0 (Key.hostJump th) .ok).thread i = u.thread i := fun i => by rw [hrespond]; rfl
  have hget : ∀ k, (u.respond 0x02 0 (Key.hostJump th) .ok).get k = (s.cmdPend (Key.hostJump th) 0).get k := fun k => by rw [respond_get, hm]; rfl
  refine ⟨_, hexec, respond_answered _ _ _ _, ?_, fun x hgroup hlive => ?_, fun x hgroup => ?_, fun k hk => ?_⟩
  · rw [cmdState_of_get (hget _), State.cmdState, State.getF_eq, State.cmdPend, State.get_put_same, statusWord_state]
    rfl
  · rw [hthread, hin x (List.mem_filter.2 ⟨hgroup, hlive⟩)]
    rfl
  · rw [hthread, hout x (fun h => hgroup (List.mem_filter.1 h).1)]
    rfl
  · rw [hget]
    exact State.get_put_other _ _ (Ne.symm (mt List.mem_singleton.2 hk))

end

/-! ## A jump is taken (R122) -/

/-- What a write at a key leaves of the other entries. -/
theorem mem_of_mem_mset_of_ne {α : Type} [DecidableEq α] {d : α} {m : List (Nat × α)} {k : Nat} {v : α} {e : Nat × α} (h : e ∈ mset d m k v) :
    e = (k, v) ∨ (e ∈ m ∧ e.1 ≠ k) := by
  have hkept : ∀ f ∈ merase m k, f ∈ m ∧ f.1 ≠ k := fun f hf => ⟨(merase_sublist m k).subset hf, merase_ne m k f hf⟩
  unfold mset at h
  split at h
  · exact .inr (hkept e h)
  · exact ((mem_minsert _ _ _ _).1 h).imp_right (hkept e)

/-- A context at the entry row of a host jump. -/
def Thread.jumped (t : Thread) (row : Nat) : Thread := { t with pc := row, lastRow := false, jump := none, stagedNext := t.staged.contains row }

/-- The state as a thread takes its jump, before the command's word is looked at. -/
def State.jumpedTo (s : State) (th row : Nat) : State := (s.put (Key.hjTakenCycle th) (toWord (s.thread th).cycles)).putThread th ((s.thread th).jumped row)

/-- HOST_JUMP reads DONE once no thread has still to take it. -/
theorem takeJump_eq (s : State) (th entry who : Nat) :
    s.takeJump th entry who = if (s.jumpedTo th (s.get (Key.hjEntry who entry)).toNat).threads.any (fun x => (x.2.jump.map JumpReq.who) == some who) then
        s.jumpedTo th (s.get (Key.hjEntry who entry)).toNat
      else (s.jumpedTo th (s.get (Key.hjEntry who entry)).toNat).cmdDone (Key.hostJump who) entry := rfl

/-- The words of a jump and those of the thread's state are different ones. -/
theorem jumpKeys_ne {th who : Nat} (hth : th < 3072) (hwho : who < 3072) :
    Key.hjTakenCycle th ≠ Key.hostJump who ∧ Key.hjTakenCycle th ≠ Key.threadState th ∧ Key.hjTakenCycle th ≠ Key.heldEvents ∧
      Key.hostJump who ≠ Key.threadState th ∧ Key.hostJump who ≠ Key.heldEvents ∧ Key.cyclesIssued th ≠ Key.hjTakenCycle th ∧ Key.cyclesIssued th ≠ Key.hostJump who := by
  simp only [Key.hjTakenCycle, Key.hostJump, Key.threadState, Key.heldEvents, Key.cyclesIssued, mkKey]
  omega

/-- The entry rows lie above the counts of cycles (R122). -/
theorem hjEntry_ne_cyclesIssued {th : Nat} (hth : th < 3072) (who entry : Nat) : Key.hjEntry who entry ≠ Key.cyclesIssued th := by
  simp only [Key.hjEntry, Key.cyclesIssued, mkKey]
  omega

/-- What taking a jump leaves: the thread at the entry row, HJ_TAKEN_CYCLE, and nothing else but the command's word. -/
theorem takeJump_spec (s : State) (th entry : Nat) {who : Nat} (hth : th < 3072) (hwho : who < 3072) :
    (s.takeJump th entry who).thread th = (s.thread th).jumped (s.get (Key.hjEntry who entry)).toNat ∧ (∀ i, i ≠ th → (s.takeJump th entry who).thread i = s.thread i) ∧
      (s.takeJump th entry who).get (Key.hjTakenCycle th) = toWord (s.thread th).cycles ∧
      (s.takeJump th entry who).get (Key.cyclesIssued th) = s.get (Key.cyclesIssued th) := by
  obtain ⟨htaken, -, -, -, -, hissued, hissued'⟩ := jumpKeys_ne hth hwho
  generalize hrow : (s.get (Key.hjEntry who entry)).toNat = row
  have hself : (s.jumpedTo th row).thread th = (s.thread th).jumped row := thread_putThread_same _ _ _
  have hothers : ∀ i, i ≠ th → (s.jumpedTo th row).thread i = s.thread i := fun i hi => thread_putThread_other _ hi _
  have hcycle : (s.jumpedTo th row).get (Key.hjTakenCycle th) = toWord (s.thread th).cycles := State.get_put_same _ _ _
  have hcount : (s.jumpedTo th row).get (Key.cyclesIssued th) = s.get (Key.cyclesIssued th) := State.get_put_other _ _ hissued.symm
  rw [takeJump_eq, hrow]
  split
  · exact ⟨hself, hothers, hcycle, hcount⟩
  · have hthread : ∀ i, ((s.jumpedTo th row).cmdDone (Key.hostJump who) entry).thread i = (s.jumpedTo th row).thread i := fun i => by
      simp only [State.thread, State.cmdDone, State.put_threads]
    exact ⟨(hthread th).trans hself, fun i hi => (hthread i).trans (hothers i hi), (State.get_put_other _ _ htaken.symm).trans hcycle,
      (State.get_put_other _ _ hissued'.symm).trans hcount⟩

/-- The last thread that takes a jump completes its command. -/
theorem takeJump_done {s : State} {th entry who : Nat} (hlast : ∀ x ∈ s.threads, x.1 ≠ th → x.2.jump = none) :
    (s.takeJump th entry who).cmdState (Key.hostJump who) = Cmd.done := by
  have hnone : (s.jumpedTo th (s.get (Key.hjEntry who entry)).toNat).threads.any (fun x => (x.2.jump.map JumpReq.who) == some who) = false := by
    refine List.any_eq_false.2 (fun e he => ?_)
    have hjump : e.2.jump = none := by
      rcases mem_of_mem_mset_of_ne he with rfl | ⟨hmem, hne⟩
      · rfl
      · exact hlast e hmem hne
    rw [hjump]
    exact Bool.false_ne_true
  rw [takeJump_eq, hnone]
  exact cmdState_cmdDone _ _ _

theorem GoesOn.jumpOn (s : State) (th : Nat) : GoesOn s (s.jumpOn th) th := by
  simp only [State.jumpOn]
  split
  · exact GoesOn.refl s th
  · exact GoesOn.enterReady s th

/-- What a thread that has taken its jump and gone on shows. -/
theorem jumpTaken_spec (s : State) (th entry : Nat) {who : Nat} (hth : th < 3072) (hwho : who < 3072) :
    (∃ core since waits, ((s.takeJump th entry who).jumpOn th).thread th =
        { (s.thread th).jumped (s.get (Key.hjEntry who entry)).toNat with core := core, readySince := since, waits := waits }) ∧
      (∀ i, i ≠ th → ((s.takeJump th entry who).jumpOn th).thread i = s.thread i) ∧
      ((s.takeJump th entry who).jumpOn th).get (Key.hjTakenCycle th) = toWord (s.thread th).cycles ∧
      ((s.takeJump th entry who).jumpOn th).get (Key.cyclesIssued th) = s.get (Key.cyclesIssued th) ∧
      ((s.takeJump th entry who).jumpOn th).cmdState (Key.hostJump who) = (s.takeJump th entry who).cmdState (Key.hostJump who) := by
  obtain ⟨-, htaken, htaken', hcmd, hcmd', -, -⟩ := jumpKeys_ne hth hwho
  obtain ⟨hissued, hissued', -⟩ := cyclesIssued_ne th
  obtain ⟨hself, hothers, hcycle, hcount⟩ := takeJump_spec s th entry hth hwho
  have hgoes := GoesOn.jumpOn (s.takeJump th entry who) th
  obtain ⟨core, since, waits, hthread⟩ := hgoes.thread
  exact ⟨⟨core, since, waits, by rw [hthread, hself]⟩, fun i hi => (hgoes.others i hi).trans (hothers i hi), (hgoes.get _ htaken htaken').trans hcycle,
    (hgoes.get _ hissued hissued').trans hcount, cmdState_of_get (hgoes.get _ hcmd hcmd')⟩

/-! ## The boundary (R121) -/

/-- A jump is taken at the row next to issue: HOST_JUMP_TAKEN runs it. -/
theorem exec_hostJumpTaken_atPc {s : State} {th : Nat} {j : JumpReq} {sp : Span} (hth : th < 3072) (hjump : (s.thread th).jump = some j) (hend : j.atEnd = false)
    (hlive : s.live th = true) (hhalt : s.machineCheck = false) (hspans : (s.thread th).spans = [sp]) (hfirst : (s.thread th).started ≤ sp.first)
    (hreach : j.reach < s.lastStart th) (hsegm : s.segmNext th (s.thread th).pc = true) (hmatch : (s.thread th).matchRun = none) (hwait : (s.thread th).waitRun = none)
    (hlast : (s.thread th).lastRow = false) :
    exec (.hostJumpTaken th) s = .next ((s.takeJump th j.entry j.who).jumpOn th) := by
  have hatPc : s.jumpAtPc th j.reach = true := by
    simp [State.jumpAtPc, hmatch, hlast, hsegm, hspans, Thread.unbegun, hfirst, hreach]
  have hafter : s.jumpAfterMatch th j.reach = false := by simp [State.jumpAfterMatch, hmatch]
  have hnone : s.jumpSpan th j.reach [sp] (s.thread th).startTu = none := by simp [State.jumpSpan]
  simp [exec, execHostJumpTaken, within, hth, hjump, hlive, hhalt, hend, hspans, hnone, hafter, hatPc, hwait]

/-- The second span begins a segment before which nothing has begun: the jump discards it. -/
theorem exec_hostJumpTaken_atSpan {s : State} {th : Nat} {j : JumpReq} {a b : Span} {n : Snap} (hth : th < 3072) (hjump : (s.thread th).jump = some j)
    (hend : j.atEnd = false) (hlive : s.live th = true) (hhalt : s.machineCheck = false) (hspans : (s.thread th).spans = [a, b]) (hsnap : b.snap = some n)
    (hfirst : (s.thread th).started ≤ a.first) (hreach : j.reach < (s.thread th).startTu) :
    exec (.hostJumpTaken th) s = .next (((s.discardFrom th b n).takeJump th j.entry j.who).jumpOn th) := by
  have hspan : s.jumpSpan th j.reach [a, b] (s.thread th).startTu = some b := by simp [State.jumpSpan, hsnap, Thread.unbegun, hfirst, hreach]
  simp [exec, execHostJumpTaken, within, hth, hjump, hlive, hhalt, hend, hspans, hspan, hsnap]

/-- The spans from a boundary on leave the thread as it was before them, and their cycles the count (R121). -/
theorem discardFrom_eq (s : State) (th : Nat) (sp : Span) (n : Snap) :
    ∃ m, s.discardFrom th sp n = { (s.put (Key.cyclesIssued th) (toWord ((s.get (Key.cyclesIssued th)).toNat - ((s.thread th).cycles - sp.first)))).putThread th
      ((s.thread th).rewind sp n) with slices := m } := by
  delta State.discardFrom
  extract_lets t count s₁ s₂
  obtain ⟨m, hm⟩ := putCounts_eq s (s.threadSlices th) th (fun c => { c with issued := c.issued - (t.cycles - sp.first) })
  obtain ⟨m', hm'⟩ : ∃ m', s₂ = { s₁ with slices := m' } := foldl_putSlice _ _ _
  have hcounted : s₁ = { (s.put (Key.cyclesIssued th) (toWord ((s.get (Key.cyclesIssued th)).toNat - (t.cycles - sp.first)))).putThread th (t.rewind sp n) with slices := m } := by
    simp only [s₁, State.countBack, hm]
    rfl
  obtain ⟨m'', hm''⟩ := foldl_putSlice (fun u sl => { u.slice sl with
      expect := if (mget 0 (u.slice sl).expect th + 2 ^ 32 - sp.seq) % 2 ^ 32 < 2 ^ 31 then mset 0 (u.slice sl).expect th sp.seq else (u.slice sl).expect
      held := (u.slice sl).held.filter (fun y => !(y.1 == th && decide ((y.2 + 2 ^ 32 - sp.seq) % 2 ^ 32 < 2 ^ 31))) }) (s₂.threadSlices th) s₂
  exact ⟨m'', hm''.trans (by rw [hm', hcounted])⟩

/-- A jump taken at the row next to issue (R121, R122). -/
theorem hostJumpTaken_atPc {s : State} {th : Nat} {j : JumpReq} {sp : Span} (hth : th < 3072) (hjump : (s.thread th).jump = some j) (hend : j.atEnd = false) (hwho : j.who < 3072)
    (hlive : s.live th = true) (hhalt : s.machineCheck = false) (hspans : (s.thread th).spans = [sp]) (hfirst : (s.thread th).started ≤ sp.first)
    (hreach : j.reach < s.lastStart th) (hsegm : s.segmNext th (s.thread th).pc = true) (hmatch : (s.thread th).matchRun = none) (hwait : (s.thread th).waitRun = none)
    (hlast : (s.thread th).lastRow = false) :
    ∃ t, exec (.hostJumpTaken th) s = .next t ∧ (t.thread th).pc = (s.get (Key.hjEntry j.who j.entry)).toNat ∧ (t.thread th).jump = none ∧
      t.get (Key.hjTakenCycle th) = toWord (s.thread th).cycles ∧ (∀ i, i ≠ th → t.thread i = s.thread i) ∧
      ((∀ x ∈ s.threads, x.1 ≠ th → x.2.jump = none) → s.canonical = true → t.cmdState (Key.hostJump j.who) = Cmd.done) := by
  obtain ⟨⟨core, since, waits, hthread⟩, hothers, hcycle, -, hcmd⟩ := jumpTaken_spec s th j.entry hth hwho
  exact ⟨_, exec_hostJumpTaken_atPc hth hjump hend hlive hhalt hspans hfirst hreach hsegm hmatch hwait hlast, (congrArg Thread.pc hthread :), (congrArg Thread.jump hthread :),
    hcycle, hothers, fun hnone _ => hcmd.trans (takeJump_done hnone)⟩

/-- A jump taken at a row that has been issued: its span and what follows are discarded (R121, R122). -/
theorem hostJumpTaken_atSpan {s : State} {th : Nat} {j : JumpReq} {a b : Span} {n : Snap} (hth : th < 3072) (hjump : (s.thread th).jump = some j)
    (hend : j.atEnd = false) (hwho : j.who < 3072) (hlive : s.live th = true) (hhalt : s.machineCheck = false) (hspans : (s.thread th).spans = [a, b]) (hsnap : b.snap = some n)
    (horder : a.first < b.first) (hfirst : (s.thread th).started ≤ a.first) (hreach : j.reach < (s.thread th).startTu) :
    ∃ t, exec (.hostJumpTaken th) s = .next t ∧ (t.thread th).pc = (s.get (Key.hjEntry j.who j.entry)).toNat ∧ (t.thread th).jump = none ∧ (t.thread th).spans = [a] ∧
      (t.thread th).cycles = b.first ∧ t.get (Key.hjTakenCycle th) = toWord b.first ∧
      t.get (Key.cyclesIssued th) = toWord ((s.get (Key.cyclesIssued th)).toNat - ((s.thread th).cycles - b.first)) ∧ (∀ i, i ≠ th → t.thread i = s.thread i) := by
  obtain ⟨m, hm⟩ := discardFrom_eq s th b n
  have hself : (s.discardFrom th b n).thread th = (s.thread th).rewind b n := by rw [hm]; exact thread_putThread_same _ _ _
  have hothers : ∀ i, i ≠ th → (s.discardFrom th b n).thread i = s.thread i := fun i hi => by rw [hm]; exact thread_putThread_other _ hi _
  have hentry : (s.discardFrom th b n).get (Key.hjEntry j.who j.entry) = s.get (Key.hjEntry j.who j.entry) := by
    rw [hm]; exact State.get_put_other _ _ (hjEntry_ne_cyclesIssued hth _ _).symm
  have hissued : (s.discardFrom th b n).get (Key.cyclesIssued th) = toWord ((s.get (Key.cyclesIssued th)).toNat - ((s.thread th).cycles - b.first)) := by
    rw [hm]; exact State.get_put_same _ _ _
  obtain ⟨⟨core, since, waits, hthread⟩, hothers', hcycle, hcount, -⟩ := jumpTaken_spec (s.discardFrom th b n) th j.entry hth hwho
  rw [hself, hentry] at hthread
  refine ⟨_, exec_hostJumpTaken_atSpan hth hjump hend hlive hhalt hspans hsnap hfirst hreach, (congrArg Thread.pc hthread :), (congrArg Thread.jump hthread :),
    (congrArg Thread.spans hthread).trans ?_, (congrArg Thread.cycles hthread :), hcycle.trans (by rw [hself]; rfl), hcount.trans hissued,
    fun i hi => (hothers' i hi).trans (hothers i hi)⟩
  simp [Thread.jumped, Thread.rewind, hspans, horder]

end Sys2Proof.Machine
end

section
/-! What a raise leaves of a thread that has stopped waiting: records, stops, entry into SAFE and the machine check (R368-R371) begin no wait. -/

namespace Sys2Proof.Machine

/-- A thread has nothing of a trigger wait left: no dependence on a line, no timeout, no wait row that runs. -/
def Thread.wakeful (x : Thread) : Prop := x.depTrig = false ∧ x.wto = false ∧ x.waitRun = none

/-- Thread `th` of the state has nothing of a trigger wait left. -/
def Awake (th : Nat) (s : State) : Prop := (s.thread th).wakeful

namespace Awake

theorem ite {th : Nat} {s t : State} {c : Prop} [Decidable c] (h : Awake th s) (k : Awake th t) : Awake th (if c then s else t) := by split <;> assumption

variable {th : Nat} {s : State} (h : Awake th s)
include h

/-- Whatever else changes, the contexts do not. -/
theorem of_threads {t : State} (hthreads : t.threads = s.threads) : Awake th t := by
  simp only [Awake, State.thread, hthreads]
  exact h

/-- A context takes another that waits for nothing where it did not. -/
theorem putThread {i : Nat} {x : Thread} (hx : (s.thread i).wakeful → x.wakeful) : Awake th (s.putThread i x) := by
  rw [Awake, State.thread_putThread]
  split
  · next hi => exact hx (hi ▸ h)
  · exact h

/-- The capture engine does not look at waits. -/
theorem of_sameRun {t : State} (hsame : SameRun s t) : Awake th t := by
  have hschedule := hsame.thread th
  exact ⟨(congrArg Thread.depTrig hschedule :).trans h.1, (congrArg Thread.wto hschedule :).trans h.2.1, (congrArg Thread.waitRun hschedule :).trans h.2.2⟩

theorem foldl {α : Type} {f : State → α → State} {l : List α} (hf : ∀ t x, Awake th t → Awake th (f t x)) : Awake th (l.foldl f s) :=
  List.foldlRecOn l f h (fun t ht x _ => hf t x ht)

theorem put (k : Nat) (v : Word) : Awake th (s.put k v) := h

theorem putF (k lo len v : Nat) : Awake th (s.putF k lo len v) := h

theorem count (k bits : Nat) : Awake th (s.count k bits) := h

/-! ### Lanes and DACs -/

theorem driveLane (g : Nat) (l : LaneLevel) : Awake th (s.driveLane g l) := h.of_sameRun ((SameRun.refl s).driveLane g l)

theorem driveFrom (before : State) (l : List (Nat × LaneLevel)) : Awake th (s.driveFrom before l) :=
  h.foldl (fun _ _ ht => ite (ht.of_threads (by rfl)) (ht.driveLane _ _))

theorem driveSlices (sls : List Nat) (l : LaneLevel) : Awake th (s.driveSlices sls l) :=
  h.foldl (fun _ _ ht => ht.foldl (fun _ _ hu => hu.driveLane _ _))

theorem allLanes (l : LaneLevel) : Awake th (s.allLanes l) := foldl (h.of_threads (by rfl)) (fun _ _ ht => ht.of_threads (by rfl))

theorem restLanes : Awake th s.restLanes := (h.allLanes .mid).driveFrom _ _

theorem restSlices (sls : List Nat) : Awake th (s.restSlices sls) :=
  (h.foldl (fun _ _ ht => ht.foldl (fun _ _ hu => hu.of_threads (by rfl)))).driveFrom _ _

theorem setLbk (sls : List Nat) (l : LaneLevel) : Awake th (s.setLbk sls l) := h.foldl (fun _ _ ht => ht.of_threads (by rfl))

theorem parkDac (d : Nat) : Awake th (s.parkDac d) := ite h (h.of_threads (by rfl))

theorem faultDac (d : Nat) : Awake th (s.faultDac d) := ite h (h.of_threads (by rfl))

theorem faultDacs : Awake th s.faultDacs := h.foldl (fun _ _ ht => ht.faultDac _)

/-! ### Routines and diagnostic runs -/

theorem stopStimulus (x : Routine) : Awake th (s.stopStimulus x) := by
  have hdacs : Awake th ((s.setLbk x.slices .low).returnDacs x) := (h.setLbk _ _).foldl (fun _ _ ht => ite ht (ite (ht.parkDac _) (ht.of_threads (by rfl))))
  exact (hdacs.foldl (fun _ _ ht => ite (ht.of_threads (by rfl)) ht)).restSlices _

theorem abandonRoutine : Awake th s.abandonRoutine := by
  simp only [State.abandonRoutine]
  split
  · exact h
  · next x _ =>
    have hstop : Awake th (if x.postCommit then s else s.stopStimulus x) := ite h (h.stopStimulus x)
    have hend : Awake th (s.endStimulus x) := (hstop.put Key.badgerStatus badgerIdle).of_threads (by rfl)
    have hcount : Awake th ((s.endStimulus x).countAbandon x.slot) := (hend.count _ _).putF _ _ _ _
    exact ite h (hcount.put _ _)

theorem abandonOn (sls : List Nat) : Awake th (s.abandonOn sls) := by
  simp only [State.abandonOn]
  split
  · exact h
  · exact ite h.abandonRoutine h

theorem endDiag (x : DiagRun) (bytes : List Byte) : Awake th (s.endDiag x bytes) := by
  delta State.endDiag
  extract_lets s₁ s₂ s₃ s₄
  have hrun : Awake th s₁ := h.of_threads (by rfl)
  have hlanes : Awake th s₂ := (hrun.setLbk _ _).restSlices _
  have hdac : Awake th s₃ := by
    simp only [s₃]
    split
    · exact hlanes.of_threads (by rfl)
    · exact hlanes
  have hdacs : Awake th s₄ := hdac.foldl (fun _ _ ht => ite (ht.parkDac _) ht)
  exact hdacs.of_threads (by rfl)

theorem abortDiag : Awake th s.abortDiag := by
  simp only [State.abortDiag]
  split
  · exact h
  · exact (endDiag (h.of_threads (by rfl)) _ _).put _ _

theorem abortDiagOn (sls : List Nat) : Awake th (s.abortDiagOn sls) := by
  simp only [State.abortDiagOn]
  split
  · exact h
  · exact ite h.abortDiag h

/-! ### Records -/

theorem irq (e : Nat) : Awake th (s.irq e) := ite h (ite (ite h (h.of_threads (by rfl))) (h.of_threads (by rfl)))

theorem faultIrq : Awake th s.faultIrq := ite (h.of_threads (by rfl)) ((h.irq _).of_threads (by rfl))

theorem stopTrigouts : Awake th s.stopTrigouts := foldl (h.of_threads (by rfl)) (fun _ _ ht => ht.of_threads (by rfl))

theorem latch (cause : Nat) : Awake th (s.latch cause) := ite h (h.of_threads (by rfl))

theorem bbWrite (typ : Nat) (payload : List Word) : Awake th (s.bbWrite typ payload) := ite h (h.of_threads (by rfl))

theorem bbBudget (typ : Nat) (payload : List Word) : Awake th (s.bbBudget typ payload) := by
  simp only [State.bbBudget, State.drawToken]
  split
  · next t ht =>
    split at ht
    · cases ht
    · rw [← Option.some.inj ht]
      exact (h.of_threads (by rfl)).bbWrite _ _
  · exact h.of_threads (by rfl)

theorem faultRecord (x : Raise) (sev : Nat) : Awake th (s.faultRecord x sev) := ite (h.bbWrite _ _) (ite (h.bbBudget _ _) h)

theorem recordRaise (x : Raise) (sev : Nat) : Awake th (s.recordRaise x sev) := by
  delta State.recordRaise
  extract_lets lo q slot s₁ s₂ s₃ s₄ first s₅ s₆
  have hlost : Awake th s₁ := ite (h.count _ _) h
  have hhist : Awake th s₂ := (hlost.put _ lo).put _ _
  have hread : Awake th s₃ := hhist.of_threads (by rfl)
  have hcount : Awake th s₄ := hread.count _ _
  have hnoted : Awake th s₅ := ite ((hcount.put _ lo).put _ _) hcount
  have hwatch : Awake th s₆ := hnoted.of_threads (by rfl)
  exact ite hwatch.faultIrq hwatch

theorem clearLive (src : Nat) : Awake th (s.clearLive src) := by
  delta State.clearLive
  extract_lets s₁ s₂ s₃
  have hbit : Awake th s₂ := h.of_threads (by rfl)
  have hwatch : Awake th s₃ := hbit.of_threads (by rfl)
  split
  · exact hbit
  · extract_lets s₄
    have hmark : Awake th s₄ := ite (hwatch.of_threads (by rfl)) hwatch
    exact ite hwatch (ite (hmark.of_threads (by rfl)) hmark)

theorem noteRaise (x : Raise) (sev : Nat) : Awake th (s.noteRaise x sev) := by
  delta State.noteRaise
  extract_lets fresh s₁ s₂ s₃ s₄
  have hlocs : Awake th s₃ := h.of_threads (by rfl)
  have hrecord : Awake th s₄ := ite (hlocs.recordRaise _ _) hlocs
  exact ite hrecord (hrecord.clearLive _)

theorem noteFull (x : Raise) (sev : Nat) : Awake th (s.noteFull x sev) := ite ((h.noteRaise x sev).faultRecord x sev) (h.noteRaise x sev)

/-! ### Stops -/

theorem failJump (who : Nat) : Awake th (s.failJump who) := by
  delta State.failJump
  extract_lets s₁
  have hjumps : Awake th s₁ := h.foldl (fun _ _ ht => ite (ht.putThread id) ht)
  exact ite (hjumps.of_threads (by rfl)) hjumps

theorem endThread (i reason : Nat) : Awake th (s.endThread i reason) := by
  delta State.endThread
  split
  · exact h
  extract_lets t s₁ s₂ s₃ s₄ s₅ x₆ s₇ s₈ s₉ s₁₀ s₁₁ b
  have hcounts : Awake th s₁ := (h.of_sameRun (((SameRun.refl s).putCounts _ _ _).putCounts _ _ _)).of_threads (by rfl)
  have hcredits : Awake th s₂ := hcounts.of_sameRun ((SameRun.refl s₁).returnCredits i 256)
  have hword : Awake th s₄ := hcredits.of_threads (by rfl)
  have hcapture : Awake th s₅ := hword.of_sameRun ((SameRun.refl s₄).endCapture i)
  have hended : Awake th s₇ := hcapture.putThread (fun hx => ⟨rfl, hx.2.1, rfl⟩)
  have hlanes : Awake th s₉ := hended.of_sameRun (((SameRun.refl s₇).foldl (fun _ _ _ hu => hu.putSlice _ _)).stopLanes i reason)
  have hjump : Awake th s₁₀ := by
    simp only [s₁₀]
    split
    · exact hlanes.failJump _
    · exact hlanes
  have hsites : Awake th s₁₁ := ite hjump (hjump.foldl (fun _ _ hu => hu.of_threads (by rfl)))
  exact hsites.of_threads (by rfl)

theorem endAll (l : List (Nat × Nat)) : Awake th (s.endAll l) := h.foldl (fun _ x ht => ht.endThread x.1 x.2)

theorem settleStop : Awake th s.settleStop := ite (h.of_threads (by rfl)) (h.of_threads (by rfl))

theorem settleBurst : Awake th s.settleBurst := ite (h.of_threads (by rfl)) h

theorem stopThreads (ths : List Nat) (reason : Nat) : Awake th (s.stopThreads ths reason) := ite (h.of_threads (by rfl)).settleStop (h.endAll _).settleStop.settleBurst

theorem stopNow (reason : Nat) : Awake th (s.stopNow reason) := (h.endAll _).settleStop

theorem stopAll (reason : Nat) : Awake th (s.stopAll reason) := h.stopThreads _ _

/-! ### Leaving a mode and entering SAFE -/

theorem unlockAll : Awake th s.unlockAll := h.foldl (fun _ _ ht => ite ht (ht.put _ _))

theorem disarm : Awake th s.disarm := by
  delta State.disarm
  extract_lets derived s₁ s₂ s₃
  have harmed : Awake th s₁ := h.foldl (fun t i ht => by
    have hfree : Awake th (t.putThread i { t.thread i with armed := false, spans := [] }) := ht.putThread id
    exact ite hfree (hfree.putF _ _ _ _))
  clear_value s₁
  have hroles : Awake th s₂ := harmed.foldl (fun _ _ ht => ht.of_threads (by rfl))
  clear_value s₂
  have hslices : Awake th s₃ := hroles.foldl (fun _ _ ht => ht.of_threads (by rfl))
  clear_value s₃
  exact hslices.unlockAll

theorem leaveMode (m : Nat) : Awake th (s.leaveMode m) := by
  delta State.leaveMode
  extract_lets t b s₁ s₂ placed s₃ s₄
  have hdormant : Awake th t := h.foldl (fun _ _ ht => ite (ht.of_threads (by rfl)) ht)
  clear_value t
  have hburst : Awake th s₁ := ite (hdormant.of_threads (by rfl)) h
  clear_value s₁
  have harmed : Awake th s₂ := ite hburst.disarm hburst
  have hdiagnose : Awake th s₃ := ite ((harmed.abortDiagOn _).foldl (fun _ _ ht => ht.of_threads (by rfl))) harmed
  clear_value s₃
  have htrain : Awake th s₄ := ite (hdiagnose.setLbk _ _) hdiagnose
  clear_value s₄
  exact ite (htrain.of_threads (by rfl)) htrain

theorem enterSafe : Awake th (s.enterMode Mode.safe) := by
  delta State.enterMode
  extract_lets old s₁ s₂ s₃ s₄ s₅ s₆ s₇ s₈ s₉ s₁₀ ledger s₁₁
  have hroutine : Awake th s₁ := ite h.abandonRoutine h
  have hdiag : Awake th s₂ := ite hroutine.abortDiag hroutine
  have hleft : Awake th s₃ := hdiag.leaveMode Mode.safe
  clear_value s₃
  have hentered : Awake th s₆ := hleft.of_threads (by rfl)
  have hlines : Awake th s₇ := ite hentered.stopTrigouts hentered
  have hwatchdog : Awake th s₈ := ite (hlines.putF _ _ _ _) hlines
  have houtputs : Awake th s₉ := hwatchdog.restLanes.faultDacs
  have hplaced : Awake th s₁₀ := by
    rw [show s₁₀ = s₉ from if_neg (by decide)]
    exact houtputs
  clear_value s₁₀
  have hcounted : Awake th s₁₁ := ite (hplaced.of_threads (by rfl)) hplaced
  exact ite hcounted.faultIrq hcounted

theorem modeAbort : Awake th s.modeAbort := by
  delta State.modeAbort
  split
  · extract_lets d s₁ s₂ s₃
    have harmed : Awake th s₁ := ite h.disarm h
    have hcheck : Awake th s₂ := ite (harmed.putF _ _ _ _) harmed
    exact ((hcheck.put _ _).irq _).noteRaise _ _
  · exact h

theorem auditNotRun (cause : Nat) : Awake th (s.auditNotRun cause) := ((h.put _ _).putF _ _ _ _).putF _ _ _ _

theorem cutAudit (cause : Nat) : Awake th (s.cutAudit cause) := by
  delta State.cutAudit
  extract_lets s₁
  have hstopped : Awake th s₁ := (h.stopNow Stop.faultStop).auditNotRun cause
  clear_value s₁
  exact ite (h.auditNotRun cause) (ite (hstopped.of_threads (by rfl)) h)

theorem safeEntry (noAudit : Option Nat) : Awake th (s.safeEntry noAudit) := by
  delta State.safeEntry
  split
  · exact h
  split
  · split
    · exact h.cutAudit _
    · exact h
  extract_lets s₁ s₂ s₃ u
  have houtputs : Awake th s₁ := (h.allLanes .mid).faultDacs
  have hended : Awake th s₃ := houtputs.modeAbort.abandonRoutine.abortDiag
  split
  · exact (hended.cutAudit _).enterSafe
  · have hstopped : Awake th u := hended.stopAll Stop.faultStop
    clear_value u
    exact ite (hstopped.of_threads (by rfl)) hended.enterSafe

/-! ### The action of a raise (R368) -/

theorem machineCheckEntry : Awake th s.machineCheckEntry := by
  delta State.machineCheckEntry
  extract_lets s₁ s₂ ledger s₃ s₄
  have houtputs : Awake th s₁ := ite h (h.allLanes .mid).faultDacs
  have hlines : Awake th s₂ := houtputs.stopTrigouts
  have hhalted : Awake th s₃ := hlines.of_threads (by rfl)
  exact (hhalted.latch 3).safeEntry (some 1)

theorem parkSlices (sls : List Nat) : Awake th (s.parkSlices sls) := by
  have hstopped : Awake th ((s.stopThreads (s.burst.threads.filter (fun i => (s.threadSlices i).any (fun x => sls.contains x))) Stop.faultStop).driveSlices sls .mid) :=
    (h.stopThreads _ _).driveSlices _ _
  exact (((hstopped.foldl (fun _ _ ht => ht.faultDac _)).foldl (fun _ _ ht => ht.of_threads (by rfl))).abandonOn sls).abortDiagOn sls

/-- The action of a severity on a raise that names no channel. -/
theorem act {x : Raise} {u : Nat} (hloc : x.loc = .unit u) (sev : Nat) (own : List Nat) : Awake th (s.act x sev own) := by
  have hport : Awake th (s.portStop x own) := by
    rw [State.portStop, hloc]
    exact h.stopThreads _ _
  have hlatched : Awake th (if sev = Sev.deviceLatch then s.latch 2 else s) := ite (h.latch 2) h
  exact ite h (ite hport (ite (h.parkSlices _) (ite h.machineCheckEntry (hlatched.safeEntry _))))

/-- What FS085, the lack of a record slot, does beyond its record: no more than its severity says. -/
theorem effects_slots (u sev : Nat) : Awake th (s.effects ⟨85, .unit u, 0, false⟩ sev []) := by
  delta State.effects
  extract_lets s₁ s₂ s₃ s₄
  have hlane : s₁ = s := if_neg (by simp)
  have hsig : s₂ = s₁ := if_neg (by simp)
  have hstaged : s₄ = s₃ := if_neg (by simp)
  have hsame : Awake th s₄ := by
    rw [hstaged, show s₃ = s₂ from rfl, hsig, hlane]
    exact h
  clear_value s₄
  exact (ite hsame hsame).act rfl _ _

/-- FS085 of an acquisition unit (R258, R373). -/
theorem fault_slots (u : Nat) : Awake th (s.fault 85 (.unit u) 0) := (h.noteFull _ _).effects_slots u _

/-! ### The arms of a line (R243, R248, R253, R257) -/

theorem armTiuBy (u b tick : Nat) : Awake th (s.armTiuBy u b tick) := ite (ite (h.of_threads (by rfl)) (h.of_threads (by rfl))) (h.of_threads (by rfl))

theorem startAdcBy (n b : Nat) : Awake th (s.startAdcBy n b) := ite (h.of_threads (by rfl)) (h.of_threads (by rfl))

theorem armUnit (u tick : Nat) : Awake th (s.armUnit u tick) := by
  delta State.armUnit
  extract_lets a s₁
  have harmed : Awake th s₁ := h.of_threads (by rfl)
  exact ite (harmed.of_threads (by rfl)) (fault_slots (harmed.of_threads (by rfl)) u)

theorem armAcqBy (u b tick : Nat) : Awake th (s.armAcqBy u b tick) := ite (h.of_threads (by rfl)) (h.foldl (fun _ _ ht => ht.armUnit _ _))

theorem lineArms (line tick : Nat) : Awake th (s.lineArms line tick) := by
  delta State.lineArms
  extract_lets s₁ s₂
  have htius : Awake th s₁ := h.foldl (fun _ _ ht => ite (ht.armTiuBy _ _ _) ht)
  have hadcs : Awake th s₂ := htius.foldl (fun _ _ ht => ite (ht.startAdcBy _ _) ht)
  exact hadcs.foldl (fun _ _ ht => ite (ht.armAcqBy _ _ _) ht)

end Awake

end Sys2Proof.Machine
end

section
/-! A write of HOST_TRIG is trigger line 17 (R126, R243; O41). -/

namespace Sys2Proof.Machine

/-- A fold that changes nothing at any of its steps. -/
theorem foldl_unchanged {α β : Type} {f : β → α → β} {b : β} {l : List α} (h : ∀ x ∈ l, f b x = b) : l.foldl f b = b :=
  List.foldlRecOn (motive := fun c => c = b) l f rfl (fun c hc x hx => by rw [hc, h x hx])

/-- An accepted write of HOST_TRIG is line 17 at its tick (R243). -/
theorem exec_hostTrig {s : State} {p : Sys2Proof.Path} {v : Word} (hserves : s.serves p) (hcode : s.writeCode (s.overlay Key.hostTrig v) p Key.hostTrig v = .ok)
    (hunits : s.unitsRun = true) : exec (.hostTrig p v) s = .next ((s.lineArrive 17 s.nowTick 9).respond 0x02 0 Key.hostTrig .ok) := by
  obtain ⟨r, hrow, hacc⟩ : ∃ r, rowOf Key.hostTrig = some r ∧ r.acc ≠ .w1c := ⟨_, rfl, by decide⟩
  have happly : s.applyWrite Key.hostTrig v = s.lineArrive 17 s.nowTick 9 := by
    simp only [State.applyWrite, hrow, if_neg hacc, show isGuardKey Key.hostTrig = false by decide, State.line, hunits, if_true, Bool.false_eq_true, if_false]
  have haccess : s.accessPlain p 0 Key.hostTrig v = (s.lineArrive 17 s.nowTick 9).respond 0x02 0 Key.hostTrig .ok := by
    rw [← happly]
    exact access_ok hserves 0 Key.hostTrig (writePlain_ok hcode)
  simp only [exec, execHostTrig, haccess]

/-- A line that fires no acquisition unit reaches the threads, and then arms what names it. -/
theorem lineArrive_of_noFire {s : State} {line : Nat} (hfires : s.lineFires line = []) (tick fuel : Nat) :
    s.lineArrive line tick (fuel + 1) = (s.trigArrive line tick).lineArms line (edgeAfter (tick + 16)) := by
  simp [State.lineArrive, hfires]

/-- What is not enabled, or names another line, is not set off by a line. -/
theorem not_names {enabled : Bool} {named line : Nat} (h : enabled = false ∨ named ≠ line) : ¬ (enabled && named == line) = true := by
  rcases h with hoff | hother
  · simp [hoff]
  · simp [hother]

/-- A line that nothing takes fires nothing. -/
theorem lineFires_of_lineFree {s : State} {line : Nat} (hfree : s.lineFree line) : s.lineFires line = [] := by
  obtain ⟨-, hacq, -⟩ := hfree
  exact List.filter_eq_nil_iff.2 (fun u hu => not_names (hacq u (List.mem_range.1 hu)).1)

/-- A line that nothing takes arms nothing. -/
theorem lineArms_of_lineFree {s : State} {line : Nat} (hfree : s.lineFree line) (tick : Nat) : s.lineArms line tick = s := by
  obtain ⟨-, hacq, hunits⟩ := hfree
  delta State.lineArms
  extract_lets s₁ s₂
  have htius : s₁ = s := foldl_unchanged (fun u hu => if_neg (by simpa using (hunits u (List.mem_range.1 hu)).1))
  have hadcs : s₂ = s := by
    simp only [s₂, htius]
    exact foldl_unchanged (fun u hu => if_neg (by simpa using (hunits u (List.mem_range.1 hu)).2))
  rw [hadcs]
  exact foldl_unchanged (fun u hu => if_neg (not_names (hacq u (List.mem_range.1 hu)).2))

/-- A line that nothing takes changes nothing. -/
theorem lineArrive_of_lineFree {s : State} {line : Nat} (hfree : s.lineFree line) (tick fuel : Nat) : s.lineArrive line tick (fuel + 1) = s := by
  have hthreads : s.trigArrive line tick = s := by rw [State.trigArrive, hfree.1]; rfl
  rw [lineArrive_of_noFire (lineFires_of_lineFree hfree), hthreads, lineArms_of_lineFree hfree]

/-- A thread whose wait for a line has no timeout is awake once the line has arrived. -/
theorem trigThread_awake {s : State} {th line first ftu : Nat} {wake : Option Nat} {tu : Int} (hwait : (s.thread th).waitRun = some ⟨.trig line 0, first, ftu, wake⟩)
    (htime : (ftu : Int) ≤ tu) (hjump : (s.thread th).jump = none) : Awake th (s.trigThread th line tu) := by
  let x : Thread := { s.thread th with depTrig := false, wto := false }
  have hx : (s.putThread th x).thread th = x := thread_putThread_same _ _ _
  obtain ⟨n, hn⟩ : ∃ n, s.trigThread th line tu = (s.putThread th x).endWait th n := by
    refine ⟨(s.thread th).wakeCycles ⟨.trig line 0, first, ftu, wake⟩ (tu.toNat + lead), ?_⟩
    simp [State.trigThread, hwait, htime, x]
  obtain ⟨⟨core, since, waits, hended⟩, -⟩ := endWait_spec ((congrArg Thread.waitRun hx).trans hwait) ((congrArg Thread.jump hx).trans hjump) n
  rw [Awake, hn, hended, hx]
  exact ⟨rfl, rfl, rfl⟩

/-- With nothing to take line 17 a write of HOST_TRIG leaves but its answer. -/
theorem hostTrig_free {s : State} {p : Sys2Proof.Path} {v : Word} (hserves : s.serves p) (hcode : s.writeCode (s.overlay Key.hostTrig v) p Key.hostTrig v = .ok)
    (hunits : s.unitsRun = true) (hfree : s.lineFree 17) : ∃ t, exec (.hostTrig p v) s = .next t ∧ t.answered Key.hostTrig .ok ∧ s.onlyObjects t [] := by
  refine ⟨_, exec_hostTrig hserves hcode hunits, respond_answered _ _ _ _, ?_⟩
  rw [lineArrive_of_lineFree hfree]
  exact onlyObjects_respond (onlyObjects_refl s []) _ _ _ _

/-- A thread that waits for line 17 alone is awake after a write of HOST_TRIG, whatever else the line arms. -/
theorem hostTrig_wakes {s : State} {p : Sys2Proof.Path} {v : Word} {th first ftu : Nat} {wake : Option Nat} (hserves : s.serves p)
    (hcode : s.writeCode (s.overlay Key.hostTrig v) p Key.hostTrig v = .ok) (hunits : s.unitsRun = true) (hthreads : s.burst.threads = [th]) (hfires : s.lineFires 17 = [])
    (hwait : (s.thread th).waitRun = some ⟨.trig 17 0, first, ftu, wake⟩) (htime : (ftu : Int) ≤ s.portTime s.nowTick) (hjump : (s.thread th).jump = none) :
    ∃ t, exec (.hostTrig p v) s = .next t ∧ t.answered Key.hostTrig .ok ∧ (t.thread th).depTrig = false ∧ (t.thread th).wto = false ∧ (t.thread th).waitRun = none := by
  have hwoken : Awake th (s.trigArrive 17 s.nowTick) := by
    rw [State.trigArrive, hthreads]
    exact trigThread_awake hwait htime hjump
  have harrived : Awake th (s.lineArrive 17 s.nowTick 9) := by
    rw [lineArrive_of_noFire hfires]
    exact hwoken.lineArms 17 _
  obtain ⟨value, drawn, hrespond⟩ := respond_spec (s.lineArrive 17 s.nowTick 9) 0x02 0 Key.hostTrig .ok
  refine ⟨_, exec_hostTrig hserves hcode hunits, respond_answered _ _ _ _, ?_⟩
  rw [hrespond]
  exact harrived

end Sys2Proof.Machine

open Sys2Proof Sys2Proof.Machine

/-- Settles O41: an accepted jump folds over the running threads of the group alone, a jump taken moves the thread to its entry row, with the span behind the boundary
discarded where the row has been issued, and line 17 ends the wait of the one thread that waits for it, which nothing that the line arms begins again. -/
theorem hostJumpsAreTaken : Obligations.HostJumpsAreTaken := by
  unfold Obligations.HostJumpsAreTaken
  intro s p th hth
  refine ⟨?_, ?_, ?_, ?_⟩
  · intro arg hserves hmode hbusy harg hentry hthreads hsome
    exact exec_hostJump hth hmode hbusy harg hentry hthreads hsome hserves
  · intro j sp hjump hend hwho hlive hhalt hspans hfirst hreach hsegm hmatch hwait hlast
    exact hostJumpTaken_atPc hth hjump hend hwho hlive hhalt hspans hfirst hreach hsegm hmatch hwait hlast
  · intro j a b n hjump hend hwho hlive hhalt hspans hsnap horder hfirst hreach
    exact hostJumpTaken_atSpan hth hjump hend hwho hlive hhalt hspans hsnap horder hfirst hreach
  · intro v hserves hcode hunits
    refine ⟨hostTrig_free hserves hcode hunits, ?_⟩
    rintro timeout first ftu wake hthreads hfires hwait htime rfl hjump
    exact hostTrig_wakes hserves hcode hunits hthreads hfires hwait htime hjump

end

section
/-! The split of the measured round trip and what a deskew leaves on a channel (R185, R187, R188; O44). -/

namespace Sys2Proof.Machine

/-! ## The split (R185) -/

/-- D_T is the greatest whole number that lies at most half a grid step above half of RT and ASYM: the nearest one, a tie upward. -/
theorem splitT_eq_floor (rt : Nat) (asym : Int) : splitT rt asym = ⌊((rt : Rat) + asym * 8 / 25) / 2 + 1 / 2⌋ := by
  have hhalf : ((rt : Rat) + asym * 8 / 25) / 2 + 1 / 2 = ((25 * (rt : Int) + 8 * asym + 25 : Int) : Rat) / (50 : Nat) := by
    push_cast
    ring
  rw [hhalf, Rat.floor_intCast_div_natCast]
  rfl

/-! ## The cause -/

theorem delayOk_iff {d : Int} : delayOk d = true ↔ 0 ≤ d ∧ d ≤ 15360 := by simp [delayOk]

/-- Past the measurements and the eye the split alone decides the cause. -/
theorem deskewCause_of_measured {s : State} {r : DeskewResult} (hearly : earlyCause r = 0) (heye : 150 ≤ r.eye) {dt : Int}
    (hdt : dt = splitT (rtOf r) (s.get (Key.laneAsym r.channel)).toInt) : s.deskewCause r = if delayOk dt && delayOk ((rtOf r : Int) - dt) then 0 else 3 := by
  subst hdt
  simp only [State.deskewCause, hearly, ne_eq, not_true_eq_false, if_false, if_neg (Nat.not_lt.2 heye)]

/-! ## What the commit writes (R187, R188) -/

/-- A channel that passes takes the two delays of its split. -/
theorem deskewChannel_delays {s : State} {r : DeskewResult} (h : s.deskewCause r = 0) {dt : Int} (hdt : dt = splitT (rtOf r) (s.get (Key.laneAsym r.channel)).toInt) :
    (s.deskewChannel r).get (Key.laneDt r.channel) = toWord (gridFs dt.toNat) ∧
      (s.deskewChannel r).get (Key.laneDs r.channel) = toWord (gridFs ((rtOf r : Int) - dt).toNat) := by
  delta State.deskewChannel
  extract_lets g c s₁ s₂ t s₃
  have hcounted : Writes laneWord s s₁ := (Writes.refl _ s).put (mkKey_laneWord (by decide) (by decide)) _
  have hwrites : Writes laneWord s s₂ := .ite (hcounted.put (mkKey_laneWord (by decide) (by decide)) _) hcounted
  have hasym : s₂.get (Key.laneAsym g) = s.get (Key.laneAsym g) := hwrites.get _ (fun hk => hk.2 (keyEl_mkKey _ _ (by decide)))
  have ht : t = dt := by rw [hdt, ← hasym]
  have hdsDt : Key.laneDs g ≠ Key.laneDt g := by simp only [Key.laneDs, Key.laneDt, mkKey]; omega
  have hdtRead : s₃.get (Key.laneDt g) = toWord (gridFs dt.toNat) := by rw [← ht, State.get_put_other _ _ hdsDt, State.get_put_same]
  have hdsRead : s₃.get (Key.laneDs g) = toWord (gridFs ((rtOf r : Int) - dt).toNat) := by rw [← ht, State.get_put_same]
  clear_value s₃
  rw [if_pos (show c = 0 from h)]
  have hstatus := (((Writes.refl (· = Key.laneStatus g) s₃).putF rfl 0 2 1).putF rfl 4 4 0).putF rfl 8 1 0
  exact ⟨(hstatus.get _ (by simp only [Key.laneStatus, Key.laneDt, mkKey]; omega)).trans hdtRead,
    (hstatus.get _ (by simp only [Key.laneStatus, Key.laneDs, mkKey]; omega)).trans hdsRead⟩

/-- The T-lane of a disabled channel is high-impedance, whatever it is to carry (R193). -/
theorem driveLane_of_disabled {s : State} {g : Nat} (h : s.laneState g = 2) (l : LaneLevel) : (s.driveLane g l).lane g = .highZ := by
  have hset : s.driveLane g l = s.setLane g l := by simp [State.driveLane, h]
  rw [hset, State.setLane, State.lane, mget_mset_same, State.allowed, if_pos h]

/-- A channel that fails reads DISABLED with its cause, and its T-lane is high-impedance (R188, R189). -/
theorem deskewChannel_disabled {s : State} {r : DeskewResult} (h : s.deskewCause r ≠ 0) :
    (s.deskewChannel r).laneState r.channel = 2 ∧ (s.deskewChannel r).getF (Key.laneStatus r.channel) 4 4 = s.deskewCause r % 16 ∧
      (s.deskewChannel r).lane r.channel = .highZ := by
  delta State.deskewChannel
  extract_lets g c s₁ s₂
  clear_value s₂
  rw [if_neg (show c ≠ 0 from h)]
  have hword : ((s₂.putF (Key.laneStatus g) 0 2 2).putF (Key.laneStatus g) 4 4 c).get (Key.laneStatus g) =
      setField (setField (s₂.get (Key.laneStatus g)) 0 2 2) 4 4 c := by
    rw [State.get_putF, if_pos rfl, State.get_putF, if_pos rfl]
  generalize (s₂.putF (Key.laneStatus g) 0 2 2).putF (Key.laneStatus g) 4 4 c = u at hword ⊢
  have hstate : u.laneState g = 2 := by
    rw [State.laneState, State.getF_eq, hword, field_setField_other _ _ _ _ _ _ (by decide), field_setField_same _ _ _ _ (by decide)]
    rfl
  have hcause : u.getF (Key.laneStatus g) 4 4 = c % 16 := by
    rw [State.getF_eq, hword, field_setField_same _ _ _ _ (by decide)]
    rfl
  have hread : (u.driveLane g .highZ).get (Key.laneStatus g) = u.get (Key.laneStatus g) := get_of_objs (driveLane_objs _ _ _) _
  exact ⟨(congrArg (field · 0 2) hread).trans hstate, (congrArg (field · 4 4) hread).trans hcause, driveLane_of_disabled hstate _⟩

end Sys2Proof.Machine

open Sys2Proof Sys2Proof.Machine

/-- Settles O44: D_T is the floor of half the sum and a half, and the range of the two delays alone decides whether the channel passes with them or is disabled. -/
theorem theRoundTripIsSplit : Obligations.TheRoundTripIsSplit := by
  unfold Obligations.TheRoundTripIsSplit
  refine ⟨fun rt asym => ?_, ?_⟩
  · rw [splitT_eq_floor]
    exact ⟨Int.floor_le _, Int.lt_floor_add_one _⟩
  · rintro s r dt ds - hearly heye hdt rfl
    have hcause := deskewCause_of_measured hearly heye hdt
    refine ⟨fun hdt₀ hdt₁ hds₀ hds₁ => ?_, fun hout => ?_⟩
    · have hpass : s.deskewCause r = 0 := by rw [hcause, delayOk_iff.2 ⟨hdt₀, hdt₁⟩, delayOk_iff.2 ⟨hds₀, hds₁⟩]; rfl
      obtain ⟨-, hstates⟩ := deskewChannel_spec hpass
      exact ⟨(hstates _).trans (if_pos rfl), deskewChannel_delays hpass hdt⟩
    · have hrange : s.deskewCause r = 3 := by
        rw [hcause, if_neg]
        simp only [Bool.and_eq_true, delayOk_iff]
        omega
      simpa only [hrange] using deskewChannel_disabled (s := s) (r := r) (by rw [hrange]; decide)

end

section
/-! The judgement of a strobe (R167, R201, R202; O43). -/

namespace Sys2Proof.Machine

/-- An EDGE strobe, and a WIN strobe whose S-lane keeps its state until CB, see the state at CA alone (R201, R202). -/
theorem seenStates_eq_atCA {win : Bool} {o : ChanObs} (h : win = false ∨ o.later = []) (e : Expect) : seenStates win e o = [o.atCA] := by
  rcases h with h | h
  · simp [seenStates, h]
  · simp [seenStates, h, seenLater]

/-- Only the compare symbols L, H, M and V place strobes (R136). -/
theorem expectOf_eq_none {sym : Nat} (h : sym ∉ [4, 5, 6, 7]) : expectOf sym = none := by
  simp only [List.mem_cons, List.not_mem_nil, or_false, not_or] at h
  obtain ⟨hlow, hhigh, hmid, hvalid⟩ := h
  simp [expectOf]

/-- The table of R201: each compare symbol with the states that pass it. -/
def judgementTable : List (Nat × (Tern → Bool)) :=
  [(4, fun l => decide (l = .low)), (5, fun l => decide (l = .high)), (6, fun l => decide (l = .mid)), (7, fun l => decide (l ≠ .mid))]

/-- The expectation of a symbol of the table is passed by the states the table gives. -/
theorem expectOf_of_judgementTable {sym : Nat} {pass : Tern → Bool} (h : (sym, pass) ∈ judgementTable) :
    ∃ e, expectOf sym = some e ∧ ∀ l, e.passes l = pass l := by
  simp only [judgementTable, List.mem_cons, List.not_mem_nil, or_false, Prod.mk.injEq] at h
  rcases h with ⟨rfl, rfl⟩ | ⟨rfl, rfl⟩ | ⟨rfl, rfl⟩ | ⟨rfl, rfl⟩
  · exact ⟨.low, rfl, fun l => by cases l <;> rfl⟩
  · exact ⟨.high, rfl, fun l => by cases l <;> rfl⟩
  · exact ⟨.mid, rfl, fun l => by cases l <;> rfl⟩
  · exact ⟨.valid, rfl, fun l => by cases l <;> rfl⟩

section
variable {s : State} {th o k g : Nat} {sp : Span}

/-- A compare symbol under EDGE or WIN, with CA on a channel that is not disabled, places a strobe, which fails where a state seen does not pass (R167, R201). -/
theorem strobeOf_placed {e : Expect} (hsym : expectOf (s.symbol th o sp.row k) = some e) (hfmt : s.cmpFmt g (s.rowTs th sp.row) = 1 ∨ s.cmpFmt g (s.rowTs th sp.row) = 2)
    (hedge : (s.edge g (s.rowTs th sp.row) 4).isSome = true) (hlane : s.laneState g ≠ 2) (obs : List ChanObs) (ord : Nat) :
    ∃ x, s.strobeOf th sp obs ord o k g = some x ∧ x.fail = !(seenStates (s.cmpFmt g (s.rowTs th sp.row) == 2) e (obsOf obs g)).all (fun l => e.passes l) := by
  have hplaced : ¬ (s.cmpFmt g (s.rowTs th sp.row) = 0 ∨ s.cmpFmt g (s.rowTs th sp.row) = 3 ∨ (s.edge g (s.rowTs th sp.row) 4).isNone ∨ s.laneState g = 2) := by
    rw [Option.isNone_iff_eq_none, ← Option.not_isSome_iff_eq_none]
    rintro (h | h | h | h)
    · omega
    · omega
    · exact h hedge
    · exact hlane h
  simp only [State.strobeOf, hsym, if_neg hplaced]
  exact ⟨_, rfl, rfl⟩

/-- A symbol without an expectation places no strobe (R167). -/
theorem strobeOf_eq_none (hsym : expectOf (s.symbol th o sp.row k) = none) (obs : List ChanObs) (ord : Nat) : s.strobeOf th sp obs ord o k g = none := by
  simp only [State.strobeOf, hsym]

end

end Sys2Proof.Machine

open Sys2Proof Sys2Proof.Machine

/-- Settles O43: the strobe sees the state at CA alone, and each symbol's expectation passes the states of its row of the table. -/
theorem strobesAreJudgedByTheTable : Obligations.StrobesAreJudgedByTheTable := by
  unfold Obligations.StrobesAreJudgedByTheTable
  intro s th ord o k g sp obs hfmt hedge hlane
  refine ⟨?_, fun hsym => strobeOf_eq_none (expectOf_eq_none hsym) obs ord⟩
  rintro _ pass rfl htable
  obtain ⟨e, hexpect, hpasses⟩ := expectOf_of_judgementTable htable
  obtain ⟨x, hstrobe, hfail⟩ := strobeOf_placed hexpect (hfmt.imp_right And.left) hedge hlane obs ord
  have hseen : (s.cmpFmt g (s.rowTs th sp.row) == 2) = false ∨ (obsOf obs g).later = [] := hfmt.imp (fun h => by rw [h]; rfl) And.right
  refine ⟨x, hstrobe, ?_⟩
  rw [hfail, seenStates_eq_atCA hseen, List.all_cons, List.all_nil, Bool.and_true, hpasses]

end

section
/-! The completion ring: a result record written, discarded or waiting (R219, R220), and the writes of the ring's base and of the consumer indices (R219, R342; O18). -/

namespace Sys2Proof.Machine

/-! ## Counters -/

/-- A counter that fits a word reads one higher, wrapped at its width. -/
theorem toNat_get_count_same (s : State) (k : Nat) {bits : Nat} (hbits : bits ≤ 64) : ((s.count k bits).get k).toNat = ((s.get k).toNat + 1) % 2 ^ bits := by
  rw [State.count, State.get_put_same]
  exact toWord_toNat_of_lt ((Nat.mod_lt _ (Nat.two_pow_pos bits)).trans_le (Nat.pow_le_pow_right (by decide) hbits))

/-- A count changes no other object. -/
theorem objectsBut_count (s : State) (k bits : Nat) : s.objectsBut (s.count k bits) [k] := fun _ hj => State.get_put_other _ _ (fun e => hj (by simp [e]))

/-! ## RESULT_RECORD (R219, R220) -/

/-- `s` with the result records due as given. -/
def State.withRecords (s : State) (records : List RecordWait) : State := { s with burst := { s.burst with records := records } }

/-- While a record is due it is discarded without a ring; with one and the link it is written, or waits for a credit (R219, R220). -/
theorem exec_resultRecord {s : State} {r : RecordWait} {rest : List RecordWait} (hrecords : s.burst.records = r :: rest) (hrunning : s.machineCheck = false) :
    exec .resultRecord s = .next (if s.get Key.ringBase = 0 then (s.withRecords rest).count Key.recordsDiscarded 32 else if !s.pcieUp then s
      else if s.ringFree = 0 ∨ 4096 < s.ringFree then s.fault 88 .none 0 else (s.withRecords rest).writeRecord r) := by
  simp only [exec, execResultRecord, hrecords, hrunning, Bool.false_eq_true, if_false, State.withRecords]

/-- With a ring and the link a record is written, or waits for a credit (R220). -/
theorem exec_resultRecord_linked {s : State} {r : RecordWait} {rest : List RecordWait} (hrecords : s.burst.records = r :: rest) (hrunning : s.machineCheck = false)
    (hbase : s.get Key.ringBase ≠ 0) (hlink : s.pcieUp = true) :
    exec .resultRecord s = .next (if s.ringFree = 0 ∨ 4096 < s.ringFree then s.fault 88 .none 0 else (s.withRecords rest).writeRecord r) := by
  rw [exec_resultRecord hrecords hrunning, if_neg hbase, hlink, Bool.not_true, if_neg Bool.false_ne_true]

/-- A record is written at its place, PRODUCER counts it and the RECORD interrupt is owed (R218, R219, R343). -/
theorem writeRecord_spec {s : State} {producer : Nat} (hproducer : (s.get Key.ringProducer).toNat = producer) (r : RecordWait) :
    (s.writeRecord r).burst = s.burst ∧ (s.writeRecord r).out = s.out ++ [.hostWrite ((s.get Key.ringBase).toNat + 64 * (producer % 4096)) (recordAt r producer)] ∧
      ((s.writeRecord r).get Key.ringProducer).toNat = (producer + 1) % 2 ^ 32 ∧ (s.writeRecord r).recordIrqHeld = true ∧ s.objectsBut (s.writeRecord r) [Key.ringProducer] := by
  subst hproducer
  exact ⟨rfl, rfl, toNat_get_count_same s Key.ringProducer (by decide), rfl, objectsBut_count s Key.ringProducer 32⟩

/-! ## Writes of the ring's objects (R219, R342) -/

/-- A write of RING_BASE that changes it makes LOAD_STATUS stale, and the ring is empty (R82, R219). -/
theorem applyWrite_ringBase (s : State) (v : Word) :
    s.applyWrite Key.ringBase v = ((if s.get Key.ringBase ≠ v then (s.put Key.ringBase v).stale else s.put Key.ringBase v).put Key.ringProducer 0).put Key.ringConsumer 0 := by
  obtain ⟨r, hrow, hacc⟩ : ∃ r, rowOf Key.ringBase = some r ∧ r.acc = .rwi := ⟨_, rfl, rfl⟩
  simp [State.applyWrite, hrow, hacc, show isGuardKey Key.ringBase = false by decide, show keyArea Key.ringBase = 0x24 by decide]

/-- A write of RING_CONSUMER sets it (R219). -/
theorem applyWrite_ringConsumer (s : State) (v : Word) : s.applyWrite Key.ringConsumer v = s.put Key.ringConsumer v := by
  obtain ⟨r, hrow, hacc⟩ : ∃ r, rowOf Key.ringConsumer = some r ∧ r.acc = .rw := ⟨_, rfl, rfl⟩
  simp [State.applyWrite, hrow, hacc, show isGuardKey Key.ringConsumer = false by decide, show keyArea Key.ringConsumer = 0x24 by decide]

/-- A write of EVENT_CONSUMER sets it (R342). -/
theorem applyWrite_eventConsumer (s : State) (v : Word) : s.applyWrite Key.eventConsumer v = s.put Key.eventConsumer v := by
  obtain ⟨r, hrow, hacc⟩ : ∃ r, rowOf Key.eventConsumer = some r ∧ r.acc = .rw := ⟨_, rfl, rfl⟩
  rw [applyWrite_quiet hrow (by simp [hacc]) (by decide), if_neg (by simp [hacc])]

/-- After a write of RING_BASE it reads as written and both indices are 0; beside them at most LOAD_STATUS changes. -/
theorem applyWrite_ringBase_spec (s : State) (v : Word) :
    (s.applyWrite Key.ringBase v).get Key.ringBase = v ∧ (s.applyWrite Key.ringBase v).get Key.ringProducer = 0 ∧ (s.applyWrite Key.ringBase v).get Key.ringConsumer = 0 ∧
      s.onlyObjects (s.applyWrite Key.ringBase v) [Key.ringBase, Key.ringProducer, Key.ringConsumer, Key.loadStatus] := by
  have hput : s.onlyObjects (s.put Key.ringBase v) [Key.ringBase, Key.ringProducer, Key.ringConsumer, Key.loadStatus] := onlyObjects_put (onlyObjects_refl s _) (by simp) v
  obtain ⟨t, ht, hbase, honly⟩ : ∃ t, (if s.get Key.ringBase ≠ v then (s.put Key.ringBase v).stale else s.put Key.ringBase v) = t ∧ t.get Key.ringBase = v ∧
      s.onlyObjects t [Key.ringBase, Key.ringProducer, Key.ringConsumer, Key.loadStatus] := by
    split
    · exact ⟨_, rfl, by rw [stale_get _ (by decide), State.get_put_same], onlyObjects_stale hput (by simp)⟩
    · exact ⟨_, rfl, State.get_put_same _ _ _, hput⟩
  rw [applyWrite_ringBase, ht]
  refine ⟨?_, ?_, State.get_put_same _ _ _, onlyObjects_put (onlyObjects_put honly (by simp) 0) (by simp) 0⟩
  · rw [State.get_put_other _ _ (by decide), State.get_put_other _ _ (by decide), hbase]
  · rw [State.get_put_other _ _ (by decide), State.get_put_same]

/-- On a serving path an accepted write of a plain object is answered OK, and changes what the object's write does. -/
theorem accessPlain_accepted {s : State} {p : Sys2Proof.Path} {key : Nat} {v : Word} {ks : List Nat} (hserves : s.serves p)
    (hcode : s.writeCode (s.overlay key v) p key v = .ok) (honly : s.onlyObjects (s.applyWrite key v) ks) (index : Nat) :
    (s.accessPlain p index key v).answered key .ok ∧ (∀ k, (s.accessPlain p index key v).get k = (s.applyWrite key v).get k) ∧ s.onlyObjects (s.accessPlain p index key v) ks := by
  have haccess : s.accessPlain p index key v = (s.applyWrite key v).respond 0x02 index key .ok := access_ok hserves index key (writePlain_ok hcode)
  rw [haccess]
  exact ⟨respond_answered _ _ _ _, respond_get _ _ _ _ _, onlyObjects_respond honly _ _ _ _⟩

/-- Where the object's write only sets it, it reads as written and no other object changes. -/
theorem accessPlain_sets {s : State} {p : Sys2Proof.Path} {key : Nat} {v : Word} (hserves : s.serves p) (hcode : s.writeCode (s.overlay key v) p key v = .ok)
    (happly : s.applyWrite key v = s.put key v) (index : Nat) :
    (s.accessPlain p index key v).answered key .ok ∧ (s.accessPlain p index key v).get key = v ∧ s.onlyObjects (s.accessPlain p index key v) [key] := by
  have hput : s.onlyObjects (s.applyWrite key v) [key] := happly ▸ onlyObjects_put (onlyObjects_refl s _) (by simp) v
  obtain ⟨hanswered, hget, honly⟩ := accessPlain_accepted hserves hcode hput index
  exact ⟨hanswered, by rw [hget, happly, State.get_put_same], honly⟩

end Sys2Proof.Machine

open Sys2Proof Sys2Proof.Machine

/-- Settles O18: the oldest record leaves the queue as it is written or discarded, and stays where it raises FS088; a write of the base or of a consumer index is an
accepted write of a plain object. -/
theorem theResultStreamIsWritten : Obligations.TheResultStreamIsWritten := by
  unfold Obligations.TheResultStreamIsWritten
  refine ⟨fun s r rest hrecords hrunning => ⟨fun hbase hlink hfree hroom => ?_, fun hbase => ?_, fun hbase hlink hfree => ?_⟩,
    fun s p v hserves => ⟨fun hcode => ?_, fun hcode => ?_, fun hcode => ?_⟩⟩
  · have hexec := exec_resultRecord_linked hrecords hrunning hbase hlink
    rw [if_neg (by omega)] at hexec
    obtain ⟨hburst, hwritten⟩ := writeRecord_spec (s := s.withRecords rest) rfl r
    exact ⟨_, hexec, by rw [hburst]; rfl, hwritten⟩
  · have hexec := exec_resultRecord hrecords hrunning
    rw [if_pos hbase] at hexec
    exact ⟨_, hexec, rfl, toNat_get_count_same (s.withRecords rest) Key.recordsDiscarded (by decide), rfl,
      objectsBut_count (s.withRecords rest) Key.recordsDiscarded 32⟩
  · rw [exec_resultRecord_linked hrecords hrunning hbase hlink, if_pos (.inl hfree)]
  · obtain ⟨hbase, hproducer, hconsumer, honly⟩ := applyWrite_ringBase_spec s v
    obtain ⟨hanswered, hget, honly'⟩ := accessPlain_accepted hserves hcode honly 0
    exact ⟨_, rfl, hanswered, (hget _).trans hbase, (hget _).trans hproducer, (hget _).trans hconsumer, honly'⟩
  · exact ⟨_, rfl, accessPlain_sets hserves hcode (applyWrite_ringConsumer s v) 0⟩
  · exact ⟨_, rfl, accessPlain_sets hserves hcode (applyWrite_eventConsumer s v) 0⟩

end

section
/-! The words of Fern and of the ring: what a change of their STATE, a ring that goes down and a new epoch 0 leave in each object (R223-R225, R231, R240). -/

namespace Sys2Proof.Machine

/-- A field that takes the value it holds leaves the word. -/
theorem setField_field (w : Word) (lo len : Nat) : setField w lo len (field w lo len) = w := by
  refine BitVec.eq_of_getLsbD_eq (fun i hi => ?_)
  rw [setField_bit]
  split
  · next h => rw [field_testBit, Nat.add_sub_cancel' h.1]; simp [hi, show i - lo < len by omega]
  · rfl

/-- A field of two bits is its bits. -/
theorem field_two (w : Word) (lo : Nat) : field w lo 2 = field w lo 1 + 2 * field w (lo + 1) 1 := by
  simp only [field, Nat.shiftRight_add, Nat.shiftRight_one]
  omega

/-! ## Which objects differ -/

theorem objectsBut_refl (s : State) (ks : List Nat) : s.objectsBut s ks := fun _ _ => rfl

section
variable {s t u : State} {ks : List Nat} (h : s.objectsBut t ks)
include h

theorem State.objectsBut.of_get (hget : ∀ k, u.get k = t.get k) : s.objectsBut u ks := fun k hk => (hget k).trans (h k hk)

theorem State.objectsBut.of_objs (hobjs : u.objs = t.objs := by rfl) : s.objectsBut u ks := h.of_get (get_of_objs hobjs)

theorem State.objectsBut.mono {ks' : List Nat} (hks : ks ⊆ ks') : s.objectsBut t ks' := fun k hk => h k (fun hmem => hk (hks hmem))

theorem State.objectsBut.put {k : Nat} (hk : k ∈ ks) (v : Word) : s.objectsBut (t.put k v) ks :=
  fun j hj => (State.get_put_other t v (ne_of_mem_of_not_mem hk hj)).trans (h j hj)

theorem State.objectsBut.putF {k : Nat} (hk : k ∈ ks) (lo len v : Nat) : s.objectsBut (t.putF k lo len v) ks := h.put hk _

end

/-! ## STATE of RING_STATUS and of FERN_STATUS (R224, R231) -/

/-- A STATE field takes a value, and a change signals a vector: every object reads as after the write alone. -/
theorem get_changeSt (s : State) (k st e j : Nat) : (if s.getF k 0 3 = st then s else (s.putF k 0 3 st).irq e).get j = (s.putF k 0 3 st).get j := by
  split
  · next h =>
    subst h
    rw [State.get_putF]
    split
    · next hk => rw [State.getF_eq, setField_field, hk]
    · rfl
  · exact irq_get _ _ _

@[simp] theorem get_setRingSt (s : State) (st k : Nat) : (s.setRingSt st).get k = (s.putF Key.ringStatus 0 3 st).get k := get_changeSt s _ st _ k

@[simp] theorem get_setFernSt (s : State) (st k : Nat) : (s.setFernSt st).get k = (s.putF Key.fernStatus 0 3 st).get k := get_changeSt s _ st _ k

theorem State.objectsBut.setRingSt {s t : State} {ks : List Nat} (h : s.objectsBut t ks) (hk : Key.ringStatus ∈ ks) (st : Nat) : s.objectsBut (t.setRingSt st) ks :=
  (h.putF hk 0 3 st).of_get (get_setRingSt t st)

theorem State.objectsBut.setFernSt {s t : State} {ks : List Nat} (h : s.objectsBut t ks) (hk : Key.fernStatus ∈ ks) (st : Nat) : s.objectsBut (t.setFernSt st) ks :=
  (h.putF hk 0 3 st).of_get (get_setFernSt t st)

theorem ringSt_putF (s : State) {st : Nat} (hst : st < 8) : (s.putF Key.ringStatus 0 3 st).ringSt = st := by
  rw [State.ringSt, State.getF_eq, State.putF, State.get_put_same, field_setField_same _ _ _ _ (by decide)]
  exact Nat.mod_eq_of_lt hst

theorem ringSt_of_get {s t : State} (h : t.get Key.ringStatus = s.get Key.ringStatus) : t.ringSt = s.ringSt := congrArg (fun w => field w 0 3) h

theorem fernSt_of_get {s t : State} (h : t.get Key.fernStatus = s.get Key.fernStatus) : t.fernSt = s.fernSt := congrArg (fun w => field w 0 3) h

theorem ringSt_setRingSt (s : State) {st : Nat} (hst : st < 8) : (s.setRingSt st).ringSt = st := (ringSt_of_get (get_setRingSt s st _)).trans (ringSt_putF s hst)

theorem fernSt_setFernSt (s : State) {st : Nat} (hst : st < 8) : (s.setFernSt st).fernSt = st := by
  rw [State.fernSt, State.getF_eq, get_setFernSt, State.putF, State.get_put_same, field_setField_same _ _ _ _ (by decide)]
  exact Nat.mod_eq_of_lt hst

/-- A change of STATE signals a vector and writes one object; nothing else moves. -/
theorem changeSt_spec (s : State) (k st e : Nat) : ∃ objs subs o m, (if s.getF k 0 3 = st then s else (s.putF k 0 3 st).irq e) =
    { s with objs := objs, subs := subs, out := s.out ++ o, msixPending := m } := by
  split
  · exact ⟨s.objs, s.subs, [], s.msixPending, by rw [List.append_nil]⟩
  · obtain ⟨o, m, hirq⟩ := irq_spec (s.putF k 0 3 st) e
    exact ⟨_, _, o, m, hirq⟩

theorem setRingSt_spec (s : State) (st : Nat) : ∃ objs subs o m, s.setRingSt st = { s with objs := objs, subs := subs, out := s.out ++ o, msixPending := m } :=
  changeSt_spec s _ st _

theorem setFernSt_spec (s : State) (st : Nat) : ∃ objs subs o m, s.setFernSt st = { s with objs := objs, subs := subs, out := s.out ++ o, msixPending := m } :=
  changeSt_spec s _ st _

theorem irq_ring (s : State) (e : Nat) : (s.irq e).ring = s.ring := by
  obtain ⟨_, _, h⟩ := irq_spec s e
  rw [h]

@[simp] theorem setRingSt_ring (s : State) (st : Nat) : (s.setRingSt st).ring = s.ring := by
  obtain ⟨_, _, _, _, h⟩ := setRingSt_spec s st
  rw [h]

/-! ## The ring goes down (R231, R241) -/

/-- The ring without the flits that this device had pending or on their way (R241). -/
def State.droppedRing (s : State) (broken : Bool) : Ring :=
  { s.ring with pendingFlits := [], inFlight := [], acqPending := false, quietLost := s.ring.quietLost || (s.ringUp && (broken || !s.ring.inFlight.isEmpty)) }

theorem ringDown_eq (s : State) (broken : Bool) : s.ringDown broken = (State.setRingSt { s with ring := s.droppedRing broken } 0).put Key.ringLat 0 := rfl

theorem get_ringDown (s : State) (broken : Bool) (k : Nat) : (s.ringDown broken).get k = ((s.putF Key.ringStatus 0 3 0).put Key.ringLat 0).get k := by
  rw [ringDown_eq, State.get_put, State.get_put, get_setRingSt]
  rfl

/-- Beside RING_STATUS and RING_LAT no object moves. -/
theorem get_ringDown_other (s : State) (broken : Bool) {k : Nat} (hst : k ≠ Key.ringStatus) (hlat : k ≠ Key.ringLat) : (s.ringDown broken).get k = s.get k := by
  rw [get_ringDown, State.get_put_other _ _ hlat.symm, State.putF, State.get_put_other _ _ hst.symm]

theorem get_ringDown_ringStatus (s : State) (broken : Bool) : (s.ringDown broken).get Key.ringStatus = setField (s.get Key.ringStatus) 0 3 0 := by
  rw [get_ringDown, State.get_put_other _ _ (by decide), State.putF, State.get_put_same]

theorem get_ringDown_ringLat (s : State) (broken : Bool) : (s.ringDown broken).get Key.ringLat = 0 := by
  rw [get_ringDown, State.get_put_same]

theorem ringSt_ringDown (s : State) (broken : Bool) : (s.ringDown broken).ringSt = 0 := by
  rw [State.ringSt, State.getF_eq, get_ringDown_ringStatus, field_setField_same _ _ _ _ (by decide)]
  rfl

@[simp] theorem ringDown_ring (s : State) (broken : Bool) : (s.ringDown broken).ring = s.droppedRing broken := by
  rw [ringDown_eq, State.put_ring, setRingSt_ring]

theorem State.objectsBut.ringDown {s t : State} {ks : List Nat} (h : s.objectsBut t ks) (hst : Key.ringStatus ∈ ks) (hlat : Key.ringLat ∈ ks) (broken : Bool) :
    s.objectsBut (t.ringDown broken) ks :=
  ((h.putF hst 0 3 0).put hlat 0).of_get (get_ringDown t broken)

/-- What a ring that goes down leaves beside its own objects and flits: outputs and pending vectors are added to, nothing else moves. -/
theorem ringDown_spec (s : State) (broken : Bool) : ∃ objs subs o m, s.ringDown broken =
    { s with objs := objs, subs := subs, ring := s.droppedRing broken, out := s.out ++ o, msixPending := m } := by
  obtain ⟨objs, subs, o, m, h⟩ := setRingSt_spec { s with ring := s.droppedRing broken } 0
  exact ⟨_, _, o, m, by rw [ringDown_eq, h]; rfl⟩

/-! ## A new epoch 0 (R223, R225) -/

/-- The slots' words lie in their own objects. -/
theorem slotStatus_bounds {n : Nat} (hn : n < 64) : 0x10100000 < Key.slotStatus n ∧ Key.slotStatus n < 0x11000000 := by
  simp only [Key.slotStatus, mkKey]; omega

/-- No slot is armed by a change of objects that are not the slots'. -/
theorem slotsIdle_of_objectsBut {s t : State} {ks : List Nat} (hidle : s.slotsIdle) (h : s.objectsBut t ks) (hks : ∀ k ∈ ks, k ≤ 0x10100000 ∨ 0x11000000 ≤ k) : t.slotsIdle := by
  intro n hn
  have hbounds := slotStatus_bounds hn
  have hkept : t.get (Key.slotStatus n) = s.get (Key.slotStatus n) := h _ (fun hmem => by have := hks _ hmem; omega)
  rw [State.slotState, State.getF_eq, hkept]
  exact hidle n hn

/-- With no slot armed none follows a change of the model (R311). -/
theorem slotsFollow_idle {s : State} (hidle : s.slotsIdle) (r : Nat) : s.slotsFollow r = s := by
  refine List.foldlRecOn (motive := fun t => t = s) _ _ rfl (fun t ht n hn => ?_)
  subst ht
  rw [if_pos (hidle n (List.mem_range.1 hn))]

/-- With no slot armed a new epoch 0 is two words, and the loads' edges of the old one are forgotten. -/
theorem newEpoch_idle {s : State} (hidle : s.slotsIdle) (raw0 : Nat) :
    s.newEpoch raw0 = { (s.put Key.epochCount 0).put Key.rawAtEpoch0 (toWord raw0) with loadEdges := [] } := by
  have hputs : s.objectsBut ((s.put Key.epochCount 0).put Key.rawAtEpoch0 (toWord raw0)) [Key.epochCount, Key.rawAtEpoch0] :=
    ((objectsBut_refl s _).put (by decide) _).put (by decide) _
  exact slotsFollow_idle (slotsIdle_of_objectsBut hidle hputs.of_objs (by decide)) _

theorem get_newEpoch {s : State} (hidle : s.slotsIdle) (raw0 k : Nat) :
    (s.newEpoch raw0).get k = ((s.put Key.epochCount 0).put Key.rawAtEpoch0 (toWord raw0)).get k := by
  rw [newEpoch_idle hidle]
  exact get_of_objs rfl k

theorem State.objectsBut.newEpoch {s t : State} {ks : List Nat} (h : s.objectsBut t ks) (hidle : t.slotsIdle) (hcount : Key.epochCount ∈ ks) (hraw : Key.rawAtEpoch0 ∈ ks)
    (raw0 : Nat) : s.objectsBut (t.newEpoch raw0) ks := by
  exact ((h.put hcount _).put hraw _).of_get (get_newEpoch hidle raw0)

/-! ## Command words (R39) -/

/-- A word of a failed command shows FAILED, the code and DETAIL. -/
theorem failed_of_get {s : State} {k detail : Nat} {c : Code} (hdetail : detail < 2 ^ 16) (h : s.get k = statusWord Cmd.failed c detail) :
    s.cmdState k = Cmd.failed ∧ s.getF k 8 6 = c.toNat ∧ s.getF k 16 16 = detail := by
  rw [State.cmdState, State.getF_eq, State.getF_eq, State.getF_eq, h, statusWord_state, statusWord_code, statusWord_detail, Nat.mod_eq_of_lt hdetail]
  exact ⟨rfl, rfl, rfl⟩

theorem cmdFail_spec (s : State) (k : Nat) (c : Code) {detail : Nat} (hdetail : detail < 2 ^ 16) :
    (s.cmdFail k c detail).cmdState k = Cmd.failed ∧ (s.cmdFail k c detail).getF k 8 6 = c.toNat ∧ (s.cmdFail k c detail).getF k 16 16 = detail :=
  failed_of_get hdetail (State.get_put_same _ _ _)

/-- On a serving path a command that is accepted answers OK and leaves what its operation does, but for the answer and at most a free value. -/
theorem access_accepted {s t : State} {p : Sys2Proof.Path} {key : Nat} (op : State → Code × State) (hserves : s.serves p) (hrun : op s = (.ok, t)) :
    ∃ u, s.access p 0 key op = u ∧ u.answered key .ok ∧ (∀ k, u.get k = t.get k) ∧ ∃ n a, u = { t with answers := a, freeCount := n } := by
  obtain ⟨v, n, hrespond⟩ := respond_spec t 0x02 0 key .ok
  exact ⟨_, access_ok hserves 0 key hrun, respond_answered _ _ _ _, respond_get _ _ _ _ _, _, _, hrespond⟩

end Sys2Proof.Machine
end

section
/-! Alignment to Fern: FERN_ALIGN and its ends, the pulses and their returns, the loss of FREF (R222-R225, R240; O55). -/

namespace Sys2Proof.Machine

/-! ## FERN_ALIGN (R223, R225) -/

/-- An alignment takes the ring down, and what it held for its DUE goes. -/
def State.fernRealigns (s : State) : State := { s.ringDown false with ring := { (s.ringDown false).ring with due := [] } }

theorem objectsBut_fernRealigns (s : State) : s.objectsBut s.fernRealigns [Key.ringStatus, Key.ringLat] :=
  ((objectsBut_refl s _).ringDown (by decide) (by decide) false).of_objs

/-- FERN_ALIGN has sent its pulses and measured D_IN. -/
def State.fernMeasured (s : State) (d : Nat) : State :=
  (((s.fernRealigns.cmdRun Key.fernAlign 0).emit (.fsyncOut 4096)).putF Key.fernStatus 4 1 1).put Key.fernDin (toWord d)

/-- A D_IN within the target: the rest is the offset, and the pulse is awaited. -/
def State.fernAwaits (s : State) (d roundTrip : Nat) : State :=
  { ((s.fernMeasured d).put Key.fernOffset (toWord (250 * (s.get Key.fernTarget).toNat - d))).setFernSt 1 with fernAligned := some roundTrip, fernAwait := true }

/-- LOCAL: epoch 0 begins at the next aligned FREF edge. -/
def State.fernLocal (s : State) : State := (((s.fernRealigns.put Key.fernOffset 0).newEpoch s.nextEdge).setFernSt 3).cmdDone Key.fernAlign 0

theorem fernCode_ok {s : State} {arg : Word} (hmode : s.mode = Mode.idle) (hbusy : s.cmdBusy Key.fernAlign = false) (hslots : ∀ n, n < 64 → s.slotState n ≠ 2)
    (harg : arg.toNat ≤ 1) : s.fernCode arg = .ok := by
  have hnone : (List.range 64).any (fun n => s.slotState n == 2) = false := by
    rw [List.any_eq_false]
    exact fun n hn => by simpa using hslots n (List.mem_range.1 hn)
  simp [State.fernCode, refuse, hmode, hbusy, hnone, harg]

theorem cmdFernAlign_measured {s : State} (hcode : s.fernCode 0 = .ok) (d roundTrip : Nat) : s.cmdFernAlign 0 (some d) roundTrip =
    (.ok, if 250 * (s.get Key.fernTarget).toNat < d then (s.fernMeasured d).cmdFail Key.fernAlign .range 3 else s.fernAwaits d roundTrip) := by
  have htarget : (s.fernMeasured d).get Key.fernTarget = s.get Key.fernTarget := by
    simp [State.fernMeasured, State.get_put, State.get_putF, State.cmdRun, objectsBut_fernRealigns s Key.fernTarget (by decide)]
  have hrun : s.cmdFernAlign 0 (some d) roundTrip = (if 250 * ((s.fernMeasured d).get Key.fernTarget).toNat < d then (.ok, (s.fernMeasured d).cmdFail Key.fernAlign .range 3)
      else (.ok, { ((s.fernMeasured d).put Key.fernOffset (toWord (250 * ((s.fernMeasured d).get Key.fernTarget).toNat - d))).setFernSt 1 with
        fernAligned := some roundTrip, fernAwait := true })) := by
    simp only [State.cmdFernAlign, hcode]
    rfl
  rw [hrun, htarget]
  split <;> rfl

theorem nextEdge_of_objectsBut {s t : State} {ks : List Nat} (h : s.objectsBut t ks) (hraw : Key.rawCount ∉ ks) (hepoch : Key.rawAtEpoch0 ∉ ks) : t.nextEdge = s.nextEdge := by
  simp only [State.nextEdge, State.raw, h _ hraw, h _ hepoch]

theorem cmdFernAlign_local {s : State} (hcode : s.fernCode 1 = .ok) : s.cmdFernAlign 1 none 0 = (.ok, s.fernLocal) := by
  simp only [State.cmdFernAlign, hcode, ne_eq, not_true_eq_false, if_false, if_true]
  exact congrArg (fun n => (Code.ok, (((s.fernRealigns.put Key.fernOffset 0).newEpoch n).setFernSt 3).cmdDone Key.fernAlign 0))
    (nextEdge_of_objectsBut (objectsBut_fernRealigns s) (by decide) (by decide))

/-- The words of an alignment that awaits its pulse. -/
theorem fernAwaits_spec (s : State) (d roundTrip : Nat) :
    (s.fernAwaits d roundTrip).cmdState Key.fernAlign = Cmd.running ∧ (s.fernAwaits d roundTrip).fernSt = 1 ∧ (s.fernAwaits d roundTrip).get Key.fernDin = toWord d ∧
      (s.fernAwaits d roundTrip).get Key.fernOffset = toWord (250 * (s.get Key.fernTarget).toNat - d) ∧ .fsyncOut 4096 ∈ (s.fernAwaits d roundTrip).out ∧
      (s.fernAwaits d roundTrip).ringSt = 0 ∧
      s.objectsBut (s.fernAwaits d roundTrip) [Key.fernAlign, Key.fernStatus, Key.fernDin, Key.fernOffset, Key.ringStatus, Key.ringLat] := by
  have hget : ∀ k, (s.fernAwaits d roundTrip).get k =
      (((s.fernMeasured d).put Key.fernOffset (toWord (250 * (s.get Key.fernTarget).toNat - d))).putF Key.fernStatus 0 3 1).get k := fun k => get_setFernSt _ 1 k
  have hring : (s.fernAwaits d roundTrip).get Key.ringStatus = (s.ringDown false).get Key.ringStatus := by
    rw [hget]
    simp [State.fernMeasured, State.get_put, State.get_putF, State.cmdRun]
    rfl
  have hout : .fsyncOut 4096 ∈ (s.fernMeasured d).out := by simp [State.fernMeasured, State.putF]
  have hkeeps : Keeps (s.fernMeasured d) (s.fernAwaits d roundTrip) := Keeps.upd (State.setFernSt_keeps (State.put_keeps (Keeps.refl _)))
  refine ⟨?_, ?_, ?_, ?_, hkeeps.ext.2.1.subset hout, (ringSt_of_get hring).trans (ringSt_ringDown s false), ?_⟩
  · rw [State.cmdState, State.getF_eq, hget]
    simp [State.fernMeasured, State.get_put, State.get_putF, State.cmdRun, statusWord_state]
    decide
  · exact fernSt_setFernSt _ (by decide)
  · rw [hget]
    simp [State.fernMeasured, State.get_put, State.get_putF]
  · rw [hget]
    simp [State.get_putF]
  · have hmeasured : s.objectsBut (s.fernMeasured d) [Key.fernAlign, Key.fernStatus, Key.fernDin, Key.fernOffset, Key.ringStatus, Key.ringLat] := by
      have hrun : s.objectsBut (s.fernRealigns.cmdRun Key.fernAlign 0) [Key.fernAlign, Key.fernStatus, Key.fernDin, Key.fernOffset, Key.ringStatus, Key.ringLat] :=
        ((objectsBut_fernRealigns s).mono (by simp)).put (by simp) _
      have hemit : s.objectsBut ((s.fernRealigns.cmdRun Key.fernAlign 0).emit (.fsyncOut 4096)) _ := hrun.of_objs
      exact (hemit.putF (by decide) 4 1 1).put (by decide) _
    have hoffset := hmeasured.put (k := Key.fernOffset) (by decide) (toWord (250 * (s.get Key.fernTarget).toNat - d))
    exact (hoffset.setFernSt (by decide) 1).of_objs

theorem fernLocal_spec {s : State} (hidle : s.slotsIdle) :
    s.fernLocal.cmdState Key.fernAlign = Cmd.done ∧ s.fernLocal.fernSt = 3 ∧ s.fernLocal.get Key.fernOffset = 0 ∧ s.fernLocal.get Key.epochCount = 0 ∧
      s.fernLocal.get Key.rawAtEpoch0 = toWord s.nextEdge ∧
      s.objectsBut s.fernLocal [Key.fernAlign, Key.fernStatus, Key.fernOffset, Key.epochCount, Key.rawAtEpoch0, Key.ringStatus, Key.ringLat] := by
  have hoffset : s.objectsBut (s.fernRealigns.put Key.fernOffset 0) [Key.fernAlign, Key.fernStatus, Key.fernOffset, Key.epochCount, Key.rawAtEpoch0, Key.ringStatus, Key.ringLat] :=
    ((objectsBut_fernRealigns s).mono (by simp)).put (by decide) _
  have hidle' : (s.fernRealigns.put Key.fernOffset 0).slotsIdle := slotsIdle_of_objectsBut hidle hoffset (by decide)
  have hepoch := (hoffset.newEpoch hidle' (by decide) (by decide) s.nextEdge).setFernSt (by decide) 3
  refine ⟨cmdState_cmdDone _ _ _, ?_, ?_, ?_, ?_, hepoch.put (by decide) _⟩
  · rw [State.fernLocal, State.cmdDone, fernSt_of_get (State.get_put_other _ _ (by decide)), fernSt_setFernSt _ (by decide)]
  all_goals
    simp only [State.fernLocal, State.cmdDone, State.get_put, get_setFernSt, State.get_putF, get_newEpoch hidle']
    simp

/-! ## Pulses, returns and FREF (R223, R224, R240) -/

/-- FSYNC_PULSE begins epoch 0 at its own raw count. -/
def State.fernPulsed (s : State) : State := (State.newEpoch { s with fernAwait := false } s.raw).setFernSt 2

theorem fernPulsed_spec {s : State} (hidle : s.slotsIdle) :
    s.fernPulsed.fernSt = 2 ∧ s.fernPulsed.get Key.epochCount = 0 ∧ s.fernPulsed.get Key.rawAtEpoch0 = s.get Key.rawCount ∧
      s.objectsBut s.fernPulsed [Key.fernStatus, Key.epochCount, Key.rawAtEpoch0] := by
  have hidle' : State.slotsIdle { s with fernAwait := false } := hidle
  have hraw : toWord s.raw = s.get Key.rawCount := by simp [toWord, State.raw]
  have hstart : s.objectsBut { s with fernAwait := false } [Key.fernStatus, Key.epochCount, Key.rawAtEpoch0] := objectsBut_refl s _
  refine ⟨fernSt_setFernSt _ (by decide), ?_, ?_, (hstart.newEpoch hidle' (by decide) (by decide) s.raw).setFernSt (by decide) 2⟩
  · simp [State.fernPulsed, State.get_put, State.get_putF, get_newEpoch hidle']
  · simp [State.fernPulsed, State.get_putF, get_newEpoch hidle', hraw]

theorem exec_fsyncPulse {s : State} (hmode : s.mode ≠ Mode.reset) (hfref : s.frefPresent = true) : exec .fsyncPulse s =
    .next (if s.fernSt = 1 then (if s.fernPulsed.cmdBusy Key.fernAlign then s.fernPulsed.cmdDone Key.fernAlign 0 else s.fernPulsed)
      else if s.fernSt = 2 then
        (if (s.get Key.fsyncPeriod).toNat ≠ 0 ∧ (s.get Key.epochCount).toNat % (s.get Key.fsyncPeriod).toNat ≠ 0 then (s.count Key.fsyncMismatches 32).ringFault 57 .none else s)
      else s) := by
  have hexec : exec .fsyncPulse s = execFsyncPulse s := rfl
  rw [hexec, execFsyncPulse, if_neg (by simp [hmode, hfref])]
  rfl

/-- A pulse that is awaited begins epoch 0, and the command that awaits it is DONE. -/
theorem exec_fsyncPulse_awaited {s : State} (hmode : s.mode ≠ Mode.reset) (hfref : s.frefPresent = true) (hst : s.fernSt = 1) (hidle : s.slotsIdle) :
    ∃ t, exec .fsyncPulse s = .next t ∧ t.fernSt = 2 ∧ t.get Key.epochCount = 0 ∧ t.get Key.rawAtEpoch0 = s.get Key.rawCount ∧
      (s.cmdBusy Key.fernAlign = true → t.cmdState Key.fernAlign = Cmd.done) ∧ s.objectsBut t [Key.fernAlign, Key.fernStatus, Key.epochCount, Key.rawAtEpoch0] := by
  obtain ⟨hpulsed, hepoch, hraw, hbut⟩ := fernPulsed_spec hidle
  have hbusy : s.fernPulsed.cmdBusy Key.fernAlign = s.cmdBusy Key.fernAlign := cmdBusy_of_get (hbut _ (by decide))
  have hbut' : s.objectsBut s.fernPulsed [Key.fernAlign, Key.fernStatus, Key.epochCount, Key.rawAtEpoch0] := fun k hk => hbut k (fun h => hk (List.mem_cons_of_mem _ h))
  rw [exec_fsyncPulse hmode hfref, if_pos hst, hbusy]
  refine ⟨_, rfl, ?_⟩
  split
  · exact ⟨(fernSt_of_get (State.get_put_other _ _ (by decide))).trans hpulsed, (State.get_put_other _ _ (by decide)).trans hepoch,
      (State.get_put_other _ _ (by decide)).trans hraw, fun _ => cmdState_cmdDone _ _ _, hbut'.put (by decide) _⟩
  · next hfree => exact ⟨hpulsed, hepoch, hraw, fun h => absurd h hfree, hbut'⟩

theorem exec_fernAlignTimeout {s : State} (hbusy : s.cmdBusy Key.fernAlign = true) (noReturn : Bool) : exec (.fernAlignTimeout noReturn) s =
    .next (if noReturn then (if s.fernAwait then s else (s.putF Key.fernStatus 4 1 0).cmdFail Key.fernAlign .hwFail 2)
      else if s.fernAwait then (State.setFernSt { s with fernAwait := false } 0).cmdFail Key.fernAlign .hwFail 1 else s) := by
  have hexec : exec (.fernAlignTimeout noReturn) s = execFernAlignTimeout noReturn s := rfl
  rw [hexec, execFernAlignTimeout, hbusy]
  rfl

theorem exec_fernReturn {s : State} {aligned : Nat} (haligned : s.fernAligned = some aligned) (hst : s.fernSt = 2) (roundTrip : Option Nat) :
    exec (.fernReturn roundTrip) s = .next (s.fernReturn roundTrip aligned) := by
  have hexec : exec (.fernReturn roundTrip) s = execFernReturn roundTrip s := rfl
  simp only [hexec, execFernReturn, haligned, hst, if_true]

theorem exec_frefLoss {s : State} (hmode : s.mode ≠ Mode.reset) :
    exec .frefLoss s = .next (((State.setFernSt { s with frefPresent := false } 4).ringDown false).fault 56 .none 0) := by
  have hexec : exec .frefLoss s = execFrefLoss s := rfl
  rw [hexec, execFrefLoss, if_neg hmode]

/-- A return within 8 ps of the alignment's round trip: the drift is shown, and FERN_STATUS has a return and no drift. -/
theorem fernReturn_steady {s : State} {aligned roundTrip : Nat} (hdrift : ((roundTrip : Int) - aligned).natAbs ≤ 8000) (hlive : s.liveBit 58 = false) :
    s.fernReturn (some roundTrip) aligned =
      (((s.emit (.fsyncOut 1)).put Key.fernRtDrift (intWord ((roundTrip : Int) - aligned))).putF Key.fernStatus 4 1 1).putF Key.fernStatus 5 1 0 := by
  have hdrifts : decide (8000 < ((roundTrip : Int) - aligned).natAbs) = false := decide_eq_false (Nat.not_lt.2 hdrift)
  have hlive' : ((((s.emit (.fsyncOut 1)).put Key.fernRtDrift (intWord ((roundTrip : Int) - aligned))).putF Key.fernStatus 4 1 1).putF Key.fernStatus 5 1 0).liveBit 58 = false := by
    rw [← hlive]
    simp [State.liveBit, State.mapBit, State.get_put, State.get_putF, Key.faultLive, mkKey]
  simp only [State.fernReturn, hdrifts, Bool.false_and, Bool.not_false, Bool.true_and, b2n, Bool.false_eq_true, if_false, hlive']

end Sys2Proof.Machine

open Sys2Proof Sys2Proof.Machine

/-- Settles O55: an alignment, its ends, a pulse and a return each write a few words and nothing else, and with no slot armed a new epoch 0 is two words. -/
theorem fernAligns : Obligations.FernAligns := by
  unfold Obligations.FernAligns
  intro s p
  refine ⟨fun hserves hmode hbusy hslots => ⟨fun d rt hd => ?_, fun d rt hd => ?_, fun hidle => ?_⟩, fun hbusy hawait => ?_, fun hbusy hawait => ?_,
    fun hmode hfref => ⟨fun hst hidle => exec_fsyncPulse_awaited hmode hfref hst hidle, fun hst hcheck => ?_, fun hst hperiod hcheck => ?_⟩,
    fun a haligned hst => ⟨fun rt hdrift hlive => ?_, ?_⟩, fun hmode => ?_⟩
  · have hrun := cmdFernAlign_measured (fernCode_ok hmode hbusy hslots (by decide)) d rt
    rw [if_neg (Nat.not_lt.2 hd)] at hrun
    obtain ⟨u, haccess, hanswered, hget, n, ans, hu⟩ := access_accepted (fun u => u.cmdFernAlign 0 (some d) rt) hserves hrun
    obtain ⟨hrunning, hst, hdin, hoffset, hout, hring, hbut⟩ := fernAwaits_spec s d rt
    exact ⟨u, congrArg Host.Outcome.next haccess, hanswered, (cmdState_of_get (hget _)).trans hrunning, (fernSt_of_get (hget _)).trans hst, (hget _).trans hdin,
      (hget _).trans hoffset, by rw [hu]; rfl, by rw [hu]; rfl, by rw [hu]; exact hout, (ringSt_of_get (hget _)).trans hring, hbut.of_get hget⟩
  · have hrun := cmdFernAlign_measured (fernCode_ok hmode hbusy hslots (by decide)) d rt
    rw [if_pos hd] at hrun
    obtain ⟨u, haccess, -, hget, -⟩ := access_accepted (fun u => u.cmdFernAlign 0 (some d) rt) hserves hrun
    exact ⟨u, congrArg Host.Outcome.next haccess, failed_of_get (by decide) ((hget _).trans (State.get_put_same _ _ _))⟩
  · have hrun := cmdFernAlign_local (fernCode_ok (arg := 1) hmode hbusy hslots (by decide))
    obtain ⟨u, haccess, hanswered, hget, -⟩ := access_accepted (fun u => u.cmdFernAlign 1 none 0) hserves hrun
    obtain ⟨hdone, hst, hoffset, hepoch, hraw, hbut⟩ := fernLocal_spec hidle
    exact ⟨u, congrArg Host.Outcome.next haccess, hanswered, (cmdState_of_get (hget _)).trans hdone, (fernSt_of_get (hget _)).trans hst, (hget _).trans hoffset,
      (hget _).trans hepoch, (hget _).trans hraw, hbut.of_get hget⟩
  · obtain ⟨hfailed, hcode, hdetail⟩ := cmdFail_spec (s.putF Key.fernStatus 4 1 0) Key.fernAlign .hwFail (detail := 2) (by decide)
    refine ⟨_, by rw [exec_fernAlignTimeout hbusy, hawait]; rfl, hfailed, hcode, hdetail, ?_, ?_⟩
    · rw [State.getF_eq, State.cmdFail, State.get_put_other _ _ (by decide), State.putF, State.get_put_same, field_setField_same _ _ _ _ (by decide)]
      rfl
    · exact onlyObjects_put (onlyObjects_putF (onlyObjects_refl s _) (by decide) 4 1 0) (by decide) _
  · obtain ⟨hfailed, hcode, hdetail⟩ := cmdFail_spec (State.setFernSt { s with fernAwait := false } 0) Key.fernAlign .hwFail (detail := 1) (by decide)
    obtain ⟨_, _, _, _, hspec⟩ := setFernSt_spec { s with fernAwait := false } 0
    have hstart : s.objectsBut { s with fernAwait := false } [Key.fernAlign, Key.fernStatus] := objectsBut_refl s _
    refine ⟨_, by rw [exec_fernAlignTimeout hbusy, hawait]; rfl, hfailed, hcode, hdetail, ?_, ?_, (hstart.setFernSt (by decide) 0).put (by decide) _⟩
    · rw [State.cmdFail, fernSt_of_get (State.get_put_other _ _ (by decide)), fernSt_setFernSt _ (by decide)]
    · rw [State.cmdFail, State.put_fernAwait, hspec]
  · rw [exec_fsyncPulse hmode hfref, if_neg (by omega), if_pos hst, if_neg (by simp [hcheck])]
  · have hnonzero : (s.get Key.fsyncPeriod).toNat ≠ 0 := fun h => hperiod (BitVec.eq_of_toNat_eq h)
    rw [exec_fsyncPulse hmode hfref, if_neg (by omega), if_pos hst, if_pos ⟨hnonzero, hcheck⟩]
    exact ⟨_, rfl, toNat_get_count_same s Key.fsyncMismatches (by decide), onlyObjects_put (onlyObjects_refl s _) (by decide) _⟩
  · rw [exec_fernReturn haligned hst, fernReturn_steady hdrift hlive]
    have hemit : s.objectsBut (s.emit (.fsyncOut 1)) [Key.fernRtDrift, Key.fernStatus] := (objectsBut_refl s _).of_objs
    refine ⟨_, rfl, ?_, ?_, rfl, ((hemit.put (by decide) _).putF (by decide) 4 1 1).putF (by decide) 5 1 0⟩
    · simp [State.get_putF]
    · rw [State.getF_eq, State.putF, State.putF, State.get_put_same, State.get_put_same, field_two, field_setField_same _ _ _ _ (by decide),
        field_setField_other _ _ _ _ _ _ (by decide), field_setField_same _ _ _ _ (by decide)]
      rfl
  · have hemit : s.objectsBut (s.emit (.fsyncOut 1)) [Key.fernStatus] := (objectsBut_refl s _).of_objs
    refine ⟨_, exec_fernReturn haligned hst none, ?_, rfl, hemit.putF (by decide) 4 1 0⟩
    rw [State.fernReturn, State.getF_eq, State.putF, State.get_put_same, field_setField_same _ _ _ _ (by decide)]
    rfl
  · obtain ⟨_, _, _, _, hlost⟩ := setFernSt_spec { s with frefPresent := false } 4
    obtain ⟨_, _, _, _, hdown⟩ := ringDown_spec (State.setFernSt { s with frefPresent := false } 4) false
    have hstart : s.objectsBut { s with frefPresent := false } [Key.fernStatus, Key.ringStatus, Key.ringLat] := objectsBut_refl s _
    refine ⟨_, exec_frefLoss hmode, ?_, ?_, ringSt_ringDown _ _, get_ringDown_ringLat _ _, (hstart.setFernSt (by decide) 4).ringDown (by decide) (by decide) false⟩
    · rw [hdown, hlost]
    · rw [fernSt_of_get (get_ringDown_other _ _ (by decide) (by decide)), fernSt_setFernSt _ (by decide)]

end

section
/-! Flits and links: what a flit carries in its fields, the port that a slot leaves on, and what sending, forwarding and a return home leave (R226-R231, R241). -/

namespace Sys2Proof.Machine

/-! ## Fields of a flit's payload and of a word -/

theorem field_toWord {n : Nat} (hn : n < 2 ^ 64) (lo len : Nat) : field (toWord n) lo len = n / 2 ^ lo % 2 ^ len := by
  rw [field, toWord_toNat_of_lt hn, Nat.shiftRight_eq_div_pow]

theorem field_payload (p : BitVec 32) (lo len : Nat) : field (toWord p.toNat) lo len = p.toNat / 2 ^ lo % 2 ^ len :=
  field_toWord (lt_trans p.isLt (by decide)) lo len

/-- A field below bit 32 reads the same in a payload. -/
theorem payload_field (w : Word) {lo len : Nat} (h : lo + len ≤ 32) : (BitVec.ofNat 32 w.toNat).toNat / 2 ^ lo % 2 ^ len = field w lo len := by
  apply Nat.eq_of_testBit_eq
  intro i
  rw [field_testBit, ← Nat.shiftRight_eq_div_pow, Nat.testBit_mod_two_pow, Nat.testBit_shiftRight, BitVec.toNat_ofNat, Nat.testBit_mod_two_pow]
  by_cases hi : i < len
  · simp [hi, show lo + i < 32 by omega, BitVec.testBit_toNat]
  · simp [hi]

theorem bit_setField_other (w : Word) {lo len i : Nat} (v : Nat) (h : i < lo ∨ lo + len ≤ i) : bit (setField w lo len v) i = bit w i := by
  rw [bit, setField_bit, if_neg (by omega)]
  rfl

theorem bit_setField_same (w : Word) {i : Nat} (hi : i < 64) (v : Nat) : bit (setField w i 1 v) i = decide (v % 2 = 1) := by
  rw [bit_eq_field, field_setField_same _ _ _ _ (by omega), Nat.pow_one]

/-! ## DUE and the flit on the lanes (R227) -/

theorem resolveDue_mod (s : State) (d : Nat) : s.resolveDue d % 2 ^ 48 = d % 2 ^ 48 := by
  simp only [State.resolveDue]
  split <;> omega

/-- On the lanes a flit carries the bits of DUE that it came with. -/
theorem wire_resolved (s : State) (f : Flit) : wire { f with due := s.resolveDue f.due } = wire f := by
  simp only [wire, resolveDue_mod]

/-- DUE says nothing of whose flit it is. -/
theorem ownFlit_due (s : State) (f : Flit) (due : Nat) : s.ownFlit { f with due := due } = s.ownFlit f := rfl

theorem wire_payload (f : Flit) : (wire f).payload = f.payload := rfl

theorem newFlit_payload (s : State) (typ due payload : Nat) : (s.newFlit typ due payload).payload = BitVec.ofNat 32 payload := rfl

theorem forward_spec (s : State) (back : Bool) (f : Flit) : ∃ blocks, s.forward back f = s.emit (.flit (s.outPort back) (wire f) blocks) := ⟨_, rfl⟩

/-- What is forwarded of a flit whose DUE was resolved is the flit as it came. -/
theorem forward_resolved (s r : State) (back : Bool) (f : Flit) :
    ∃ blocks, s.forward back { f with due := r.resolveDue f.due } = s.emit (.flit (s.outPort back) (wire f) blocks) := by
  obtain ⟨blocks, h⟩ := forward_spec s back { f with due := r.resolveDue f.due }
  rw [wire_resolved] at h
  exact ⟨blocks, h⟩

/-! ## Links (R226, R241) -/

/-- `t` has the links and the WRAP of `s`. -/
def State.sameLinks (s t : State) : Prop := t.linkA = s.linkA ∧ t.linkB = s.linkB ∧ t.wrap = s.wrap

theorem sameLinks_of_get {s t : State} (hst : t.get Key.ringStatus = s.get Key.ringStatus) (hctrl : t.get Key.ringCtrl = s.get Key.ringCtrl) : s.sameLinks t := by
  simp only [State.sameLinks, State.linkA, State.linkB, State.wrap, hst, hctrl, and_self]

theorem State.sameLinks.trans {r s t : State} (h : r.sameLinks s) (k : s.sameLinks t) : r.sameLinks t :=
  ⟨k.1.trans h.1, k.2.1.trans h.2.1, k.2.2.trans h.2.2⟩

/-- A field of RING_STATUS beside the links is written. -/
theorem sameLinks_putF (s : State) {lo len : Nat} (h : lo + len ≤ 3 ∨ 5 ≤ lo) (v : Nat) : s.sameLinks (s.putF Key.ringStatus lo len v) := by
  refine ⟨?_, ?_, ?_⟩
  · rw [State.linkA, State.putF, State.get_put_same, bit_setField_other _ _ (by omega)]
    rfl
  · rw [State.linkB, State.putF, State.get_put_same, bit_setField_other _ _ (by omega)]
    rfl
  · rw [State.wrap, State.putF, State.get_put_other _ _ (by decide)]
    rfl

theorem sameLinks_setRingSt (s : State) (st : Nat) : s.sameLinks (s.setRingSt st) :=
  (sameLinks_putF s (lo := 0) (len := 3) (by decide) st).trans (sameLinks_of_get (get_setRingSt s st _) (get_setRingSt s st _))

theorem sameLinks_ringDown (s : State) (broken : Bool) : s.sameLinks (s.ringDown broken) := by
  refine (sameLinks_putF s (lo := 0) (len := 3) (by decide) 0).trans (sameLinks_of_get ?_ ?_)
  · rw [get_ringDown, State.get_put_other _ _ (by decide)]
  · rw [get_ringDown, State.get_put_other _ _ (by decide)]

theorem State.sameLinks.outPort {s t : State} (h : s.sameLinks t) (back : Bool) : t.outPort back = s.outPort back := by
  obtain ⟨hA, hB, hwrap⟩ := h
  simp only [State.outPort, hA, hB, hwrap]

theorem State.sameLinks.foldedRing {s t : State} (h : s.sameLinks t) (hfolded : t.ring.folded = s.ring.folded) : t.foldedRing = s.foldedRing := by
  obtain ⟨hA, hB, hwrap⟩ := h
  simp only [State.foldedRing, hA, hB, hwrap, hfolded]

/-! ## Credits and flits of the device (R229, R230) -/

theorem setCredit_spec (r : Ring) (cls n : Nat) :
    (r.setCredit cls n).credit cls = n ∧ ∃ ctrl cond token trig, r.setCredit cls n = { r with creditCtrl := ctrl, creditCond := cond, creditToken := token, creditTrig := trig } := by
  match cls with
  | 0 => exact ⟨rfl, _, _, _, _, rfl⟩
  | 1 => exact ⟨rfl, _, _, _, _, rfl⟩
  | 2 => exact ⟨rfl, _, _, _, _, rfl⟩
  | _ + 3 => exact ⟨rfl, _, _, _, _, rfl⟩

/-- A credit is one of four words of the ring. -/
theorem credit_of_eq {q r : Ring} (h : (q.creditCtrl, q.creditCond, q.creditToken, q.creditTrig) = (r.creditCtrl, r.creditCond, r.creditToken, r.creditTrig)) (cls : Nat) :
    q.credit cls = r.credit cls := by
  simp only [Prod.mk.injEq] at h
  obtain ⟨hctrl, hcond, htoken, htrig⟩ := h
  match cls with
  | 0 => exact hctrl
  | 1 => exact hcond
  | 2 => exact htoken
  | _ + 3 => exact htrig

/-- `s` with another ring. -/
def State.withRing (s : State) (r : Ring) : State := { s with ring := r }

@[simp] theorem State.withRing_get (s : State) (r : Ring) (k : Nat) : (s.withRing r).get k = s.get k := rfl
@[simp] theorem State.withRing_ring (s : State) (r : Ring) : (s.withRing r).ring = r := rfl

theorem State.withRing_withRing (s : State) (q r : Ring) : (s.withRing q).withRing r = s.withRing r := rfl

theorem sameLinks_withRing (s : State) (r : Ring) : s.sameLinks (s.withRing r) := sameLinks_of_get rfl rfl

/-- A ring that differs in its credits and in its flits on their way alone. -/
def Ring.creditsMoved (r q : Ring) : Prop :=
  q = { r with creditCtrl := q.creditCtrl, creditCond := q.creditCond, creditToken := q.creditToken, creditTrig := q.creditTrig, inFlight := q.inFlight }

/-- A flit that comes home touches the credits and the flits on their way alone. -/
theorem flitHome_spec (s : State) (f : Flit) : ∃ q, s.flitHome f = s.withRing q ∧ s.ring.creditsMoved q := by
  simp only [State.flitHome]
  split
  · obtain ⟨-, _, _, _, _, h⟩ := setCredit_spec s.ring f.cls (min (ringCredits f.cls) (s.ring.credit f.cls + 1))
    rw [h]
    exact ⟨_, rfl, rfl⟩
  · exact ⟨s.ring, rfl, rfl⟩

/-- The 256 MEASURE flits of a device join its pending ones, and no other flit does (R231). -/
theorem sendMeasures_spec (s : State) (portB : Bool) :
    ∃ r, s.sendMeasures portB = s.withRing r ∧ r.pendingFlits.map Flit.typ = s.ring.pendingFlits.map Flit.typ ++ List.replicate 256 2 := by
  have hmany : ∀ l : List Nat, ∃ r, l.foldl (fun t _ => t.queueFlit 2 0 (b2n portB)) s = s.withRing r ∧
      r.pendingFlits.map Flit.typ = s.ring.pendingFlits.map Flit.typ ++ List.replicate l.length 2 := by
    intro l
    induction l using List.reverseRecOn with
    | nil => exact ⟨s.ring, rfl, by simp⟩
    | append_singleton l x ih =>
      obtain ⟨r, hfold, htypes⟩ := ih
      rw [List.foldl_append, hfold]
      exact ⟨_, rfl, by simp [htypes, List.replicate_succ', State.newFlit]⟩
  have hall := hmany (List.range 256)
  rw [List.length_range] at hall
  exact hall

/-! ## What an arriving flit meets first (R228, R231) -/

theorem arrives_good {s : State} {back : Bool} {f : Flit} (henabled : s.ringEnabled = true) (hmode : s.mode ≠ Mode.reset) (hok : flitOk f = true)
    (hback : (back && s.linkB) = false) (act : State → Flit → State) : s.arrives back f act = .next (act s { f with due := s.resolveDue f.due }) := by
  simp [State.arrives, henabled, hmode, hok, hback]

theorem arrives_bad {s : State} {back : Bool} {f : Flit} (henabled : s.ringEnabled = true) (hmode : s.mode ≠ Mode.reset) (hok : flitOk f = false)
    (act : State → Flit → State) : s.arrives back f act = .next (s.badCrc back f) := by
  simp [State.arrives, henabled, hmode, hok]

theorem passes_first {s : State} {back : Bool} {f : Flit} (hseen : s.seenFlit f = false) (act : State → State) : s.passes back f act = act (s.noteFlit f) := by
  simp [State.passes, hseen]

end Sys2Proof.Machine
end

section
/-! Formation of the ring: RING_FORM and its ends, the two laps of FORM at a member and at the master, MEASURE and the slots (R226, R229-R231, R241; O56). -/

namespace Sys2Proof.Machine

/-! ## RING_FORM and its end (R231) -/

/-- A device with its ring at rest trains at a position: TRAINING, and POSITION. -/
def State.trainsAt (s : State) (seq pos : Nat) : State :=
  (State.setRingSt { s with ring := { Ring.rest with nextSeq := seq } } 1).putF Key.ringStatus 5 5 pos

theorem trainsAt_spec (s : State) (seq : Nat) {pos : Nat} (hpos : pos < 32) :
    (s.trainsAt seq pos).ringSt = 1 ∧ (s.trainsAt seq pos).ringPos = pos ∧ (s.trainsAt seq pos).ring = { Ring.rest with nextSeq := seq } ∧
      s.sameLinks (s.trainsAt seq pos) ∧ s.objectsBut (s.trainsAt seq pos) [Key.ringStatus] := by
  have hrest : s.objectsBut { s with ring := { Ring.rest with nextSeq := seq } } [Key.ringStatus] := objectsBut_refl s _
  have hlinks : s.sameLinks { s with ring := { Ring.rest with nextSeq := seq } } := sameLinks_of_get rfl rfl
  rw [State.trainsAt]
  refine ⟨?_, ?_, ?_, (hlinks.trans (sameLinks_setRingSt _ 1)).trans (sameLinks_putF _ (lo := 5) (len := 5) (by decide) pos),
    (hrest.setRingSt (by decide) 1).putF (by decide) 5 5 pos⟩
  · rw [State.ringSt, State.getF_eq, State.putF, State.get_put_same, field_setField_other _ _ _ _ _ _ (by decide)]
    exact ringSt_setRingSt _ (by decide)
  · rw [State.ringPos, State.getF_eq, State.putF, State.get_put_same, field_setField_same _ _ _ _ (by decide)]
    exact Nat.mod_eq_of_lt hpos
  · rw [State.putF, State.put_ring, setRingSt_ring]

/-- The master's formation begins: RUNNING, position 0, and FORM to be sent. -/
def State.formBegins (s : State) : State :=
  let r := ((s.ringDown false).cmdRun Key.ringForm 0).trainsAt s.ring.nextSeq 0
  r.queueFlit 1 r.nowTick 0

theorem cmdRingForm_ok {s : State} (hmode : s.mode = Mode.idle) (hbusy : s.cmdBusy Key.ringForm = false) (hmaster : s.ringMaster = true) :
    s.cmdRingForm 0 = (.ok, s.formBegins) := by
  have hcode : refuse [(s.mode != Mode.idle, .wrongMode), (s.cmdBusy Key.ringForm, .busy), ((0 : Word) != 0 || !s.ringMaster, .range)] = .ok := by
    simp [refuse, hmode, hbusy, hmaster]
  have hseq : ((s.ringDown false).cmdRun Key.ringForm 0).ring.nextSeq = s.ring.nextSeq := by
    rw [State.cmdRun, State.put_ring, ringDown_ring]
    rfl
  simp only [State.cmdRingForm, hcode, hseq]
  rfl

theorem formBegins_spec (s : State) : ∃ f, s.formBegins.ring.pendingFlits = [f] ∧ f.typ = 1 ∧ f.src = 0 ∧ f.seq = s.ring.nextSeq ∧ f.payload = 0 ∧
    s.formBegins.ring.inFlight = [] ∧ s.formBegins.ring.creditCtrl = 4 ∧ s.formBegins.cmdState Key.ringForm = Cmd.running ∧ s.formBegins.ringSt = 1 ∧
    s.formBegins.ringPos = 0 ∧ s.objectsBut s.formBegins [Key.ringForm, Key.ringStatus, Key.ringLat] := by
  obtain ⟨hst, hpos, hring, -, hbut⟩ := trainsAt_spec ((s.ringDown false).cmdRun Key.ringForm 0) s.ring.nextSeq (pos := 0) (by decide)
  have hrun : s.objectsBut ((s.ringDown false).cmdRun Key.ringForm 0) [Key.ringForm, Key.ringStatus, Key.ringLat] :=
    ((objectsBut_refl s _).ringDown (by decide) (by decide) false).put (by decide) _
  have hrunning : (((s.ringDown false).cmdRun Key.ringForm 0).trainsAt s.ring.nextSeq 0).cmdState Key.ringForm = Cmd.running :=
    (cmdState_of_get (hbut _ (by decide))).trans (cmdState_cmdRun _ _ _)
  rw [State.formBegins]
  generalize ((s.ringDown false).cmdRun Key.ringForm 0).trainsAt s.ring.nextSeq 0 = r at *
  refine ⟨r.newFlit 1 r.nowTick 0, ?_, rfl, hpos, ?_, rfl, ?_, ?_, hrunning, hst, hpos, fun k hk => (hbut k ?_).trans (hrun k hk)⟩
  · simp [State.queueFlit, hring, Ring.rest]
  · simp [State.newFlit, hring]
  · simp [State.queueFlit, hring, Ring.rest]
  · simp [State.queueFlit, hring, Ring.rest]
  · exact fun h => hk (List.mem_cons_of_mem _ (List.mem_singleton.1 h ▸ List.mem_cons_self ..))

/-- A formation that fails: the ring is DOWN, and the command shows the position and the reason. -/
theorem formFails_spec (s : State) {reason : Nat} (hreason : reason < 8) (position : Nat) :
    (s.formFails reason position).cmdState Key.ringForm = Cmd.failed ∧
      (s.formFails reason position).getF Key.ringForm 8 6 = Code.toNat (if reason = 2 then .wrongMode else if reason = 3 ∨ reason = 4 then .range else .hwFail) ∧
      (s.formFails reason position).getF Key.ringForm 16 16 = position % 32 + 32 * reason ∧ (s.formFails reason position).ringSt = 0 ∧
      s.objectsBut (s.formFails reason position) [Key.ringForm, Key.ringStatus, Key.ringLat] := by
  have hdetail : position % 32 + 32 * reason < 2 ^ 16 := by omega
  rw [State.formFails, Nat.mod_eq_of_lt hreason]
  obtain ⟨hfailed, hcode, hread⟩ := cmdFail_spec ((s.ringDown false).setRingSt 0) Key.ringForm (if reason = 2 then .wrongMode else if reason = 3 ∨ reason = 4 then .range else .hwFail) hdetail
  refine ⟨hfailed, hcode, hread, ?_, ?_⟩
  · rw [State.cmdFail, ringSt_of_get (State.get_put_other _ _ (by decide)), ringSt_setRingSt _ (by decide)]
  · exact (((objectsBut_refl s _).ringDown (by decide) (by decide) false).setRingSt (by decide) 0).put (by decide) _

theorem exec_ringFormTimeout {s : State} {reason position : Nat} (hbusy : s.cmdBusy Key.ringForm = true) (hlow : 1 ≤ reason) (hhigh : reason ≤ 5) :
    exec (.ringFormTimeout reason position) s = .next (s.formFails reason position) := by
  have hexec : exec (.ringFormTimeout reason position) s = execRingFormTimeout reason position s := rfl
  rw [hexec, execRingFormTimeout, if_pos ⟨hbusy, hlow, hhigh⟩]

/-! ## FORM at a member (R231) -/

/-- A member takes a position on a ring that it takes down. -/
def State.takesPlace (s : State) (pos : Nat) : State := (s.ringDown false).trainsAt s.ring.nextSeq pos

theorem takesPlace_spec (s : State) {pos : Nat} (hpos : pos < 32) :
    (s.takesPlace pos).ringSt = 1 ∧ (s.takesPlace pos).ringPos = pos ∧ (s.takesPlace pos).ring = { Ring.rest with nextSeq := s.ring.nextSeq } ∧
      s.sameLinks (s.takesPlace pos) ∧ s.objectsBut (s.takesPlace pos) [Key.ringStatus, Key.ringLat] := by
  obtain ⟨hst, hplace, hring, hlinks, hbut⟩ := trainsAt_spec (s.ringDown false) s.ring.nextSeq hpos
  have hdown : s.objectsBut (s.ringDown false) [Key.ringStatus, Key.ringLat] := (objectsBut_refl s _).ringDown (by decide) (by decide) false
  exact ⟨hst, hplace, hring, (sameLinks_ringDown s false).trans hlinks, fun k hk => (hbut.mono (by simp) k hk).trans (hdown k hk)⟩

/-- The FORM flit as the member at `pos` forwards it on the first lap: its position, and a mark with it where it is not ready. -/
def formStamp (f : Flit) (pos : Nat) (ready : Bool) : Flit :=
  if ready then { f with payload := BitVec.ofNat 32 (setField (toWord f.payload.toNat) 0 5 pos).toNat }
  else { f with mark := true, payload := BitVec.ofNat 32 (setField (setField (toWord f.payload.toNat) 0 5 pos) 24 5 pos).toNat }

/-- A member that is aligned in IDLE or LOAD can form a ring. -/
def State.formReady (s : State) : Bool := decide (s.fernSt = 2 ∧ (s.mode = Mode.idle ∨ s.mode = Mode.load))

theorem formPass_first {s : State} {f : Flit} (back : Bool) (hlap : bit (toWord f.payload.toNat) 5 = false) (hroom : field (toWord f.payload.toNat) 0 5 ≠ 31) :
    s.formPass back f = ((s.takesPlace (field (toWord f.payload.toNat) 0 5 + 1)).sendMeasures ((s.takesPlace (field (toWord f.payload.toNat) 0 5 + 1)).outPort false)).forward back
      (formStamp f (field (toWord f.payload.toNat) 0 5 + 1) s.formReady) := by
  simp only [State.formPass, hlap, Bool.false_eq_true, if_false, if_neg hroom, formStamp, State.formReady, decide_eq_true_eq]
  split <;> rfl

theorem formStamp_spec (f : Flit) {pos : Nat} (hpos : pos < 32) (ready : Bool) :
    (formStamp f pos ready).src = f.src ∧ (formStamp f pos ready).seq = f.seq ∧ (formStamp f pos ready).payload.toNat % 32 = pos ∧
      (ready = true → (formStamp f pos ready).mark = f.mark) ∧
      (ready = false → (formStamp f pos ready).mark = true ∧ (formStamp f pos ready).payload.toNat / 2 ^ 24 % 32 = pos) := by
  have hlow : ∀ w : Word, (BitVec.ofNat 32 w.toNat).toNat % 32 = field w 0 5 := fun w => by
    have h := payload_field w (lo := 0) (len := 5) (by decide)
    rwa [Nat.pow_zero, Nat.div_one] at h
  cases ready with
  | true =>
    refine ⟨rfl, rfl, ?_, fun _ => rfl, fun h => absurd h (by decide)⟩
    rw [formStamp, if_pos rfl, hlow, field_setField_same _ _ _ _ (by decide)]
    exact Nat.mod_eq_of_lt hpos
  | false =>
    refine ⟨rfl, rfl, ?_, fun h => absurd h (by decide), fun _ => ⟨rfl, ?_⟩⟩
    · rw [formStamp, if_neg (by decide), hlow, field_setField_other _ _ _ _ _ _ (by decide), field_setField_same _ _ _ _ (by decide)]
      exact Nat.mod_eq_of_lt hpos
    · rw [formStamp, if_neg (by decide)]
      refine (payload_field _ (lo := 24) (len := 5) (by decide)).trans ?_
      rw [field_setField_same _ _ _ _ (by decide)]
      exact Nat.mod_eq_of_lt hpos

/-- The first lap at a member (R231): it takes the next position, sends its MEASURE flits and forwards FORM with its position. -/
theorem formPass_first_spec {s : State} {f : Flit} (back : Bool) (hlap : f.payload.toNat / 32 % 2 = 0) (hroom : f.payload.toNat % 32 < 31) :
    ∃ t blocks, s.formPass back f = t ∧ t.ringSt = 1 ∧ t.ringPos = f.payload.toNat % 32 + 1 ∧ t.ring.pendingFlits.map Flit.typ = List.replicate 256 2 ∧
      t.out.getLast? = some (.flit (s.outPort back) (wire (formStamp f (f.payload.toNat % 32 + 1) s.formReady)) blocks) ∧ s.objectsBut t [Key.ringStatus, Key.ringLat] := by
  have hplace : field (toWord f.payload.toNat) 0 5 = f.payload.toNat % 32 := by rw [field_payload]; omega
  have hbit : bit (toWord f.payload.toNat) 5 = false := by
    rw [bit_eq_field, field_payload]
    exact decide_eq_false (by omega)
  have hpass := formPass_first (s := s) (f := f) back hbit (by omega)
  rw [hplace] at hpass
  obtain ⟨hst, hpos, hring, hlinks, hbut⟩ := takesPlace_spec s (pos := f.payload.toNat % 32 + 1) (by omega)
  generalize s.takesPlace (f.payload.toNat % 32 + 1) = u at *
  obtain ⟨r, hsent, htypes⟩ := sendMeasures_spec u (u.outPort false)
  obtain ⟨blocks, hforward⟩ := forward_spec (u.withRing r) back (formStamp f (f.payload.toNat % 32 + 1) s.formReady)
  rw [(hlinks.trans (sameLinks_withRing _ r)).outPort] at hforward
  rw [hsent, hforward] at hpass
  rw [hring] at htypes
  exact ⟨_, blocks, hpass, hst, hpos, htypes.trans (List.nil_append _), List.getLast?_concat, hbut⟩

/-- The payload of FORM on the second lap. -/
theorem secondLap_bit {f : Flit} (hlap : f.payload.toNat / 32 % 2 = 1) : bit (toWord f.payload.toNat) 5 = true := by
  rw [bit_eq_field, field_payload]
  exact decide_eq_true hlap

theorem firstLap_bit {f : Flit} (hlap : f.payload.toNat / 32 % 2 = 0) : bit (toWord f.payload.toNat) 5 = false := by
  rw [bit_eq_field, field_payload]
  exact decide_eq_false (by omega)

theorem payload_size (f : Flit) : field (toWord f.payload.toNat) 0 5 = f.payload.toNat % 32 := by
  rw [field_payload]
  omega

/-- A ring that forms is FORMED, or WRAPPED where it is folded, with RING_LAT in force. -/
theorem formed_spec (s : State) : s.formed.ringSt = (if s.foldedRing then 3 else 2) ∧ s.formed.ringSize = s.ringSize ∧ s.formed.get Key.ringLat = toWord s.ring.lat ∧
    s.sameLinks s.formed ∧ s.objectsBut s.formed [Key.ringStatus, Key.ringLat] := by
  have hst : (if s.foldedRing then 3 else 2) < 8 := by split <;> decide
  rw [State.formed]
  generalize (if s.foldedRing then 3 else 2) = st at hst ⊢
  have hkept : ((s.setRingSt st).put Key.ringLat (toWord s.ring.lat)).get Key.ringStatus = (s.setRingSt st).get Key.ringStatus := State.get_put_other _ _ (by decide)
  refine ⟨(ringSt_of_get hkept).trans (ringSt_setRingSt s hst), ?_, State.get_put_same _ _ _, (sameLinks_setRingSt s st).trans (sameLinks_of_get hkept (State.get_put_other _ _ (by decide))),
    ((objectsBut_refl s _).setRingSt (by decide) st).put (by decide) _⟩
  rw [State.ringSize, State.getF_eq, hkept, get_setRingSt, State.putF, State.get_put_same, field_setField_other _ _ _ _ _ _ (by decide)]
  rfl

/-- A member that has taken the size and the latency from FORM (R231). -/
def State.takesSize (s : State) (f : Flit) : State :=
  (s.putF Key.ringStatus 10 6 (field (toWord f.payload.toNat) 0 5 + 1)).withRing { s.ring with lat := 10 * field (toWord f.payload.toNat) 8 13 }

theorem formPass_second {s : State} {f : Flit} (back : Bool) (hlap : f.payload.toNat / 32 % 2 = 1) (hA : s.linkA = true) (hB : s.linkB = true) :
    s.formPass back f = (s.takesSize f).formed.forward back f := by
  obtain ⟨hA', hB', -⟩ := (sameLinks_putF s (lo := 10) (len := 6) (by decide) (field (toWord f.payload.toNat) 0 5 + 1)).trans
    (sameLinks_withRing _ { s.ring with lat := 10 * field (toWord f.payload.toNat) 8 13 })
  have hup : ((s.takesSize f).linkA && (s.takesSize f).linkB || (s.takesSize f).wrap) = true := by
    rw [State.takesSize, hA', hB', hA, hB]
    rfl
  rw [State.formPass, if_pos (secondLap_bit hlap)]
  exact congrArg (fun t => State.forward t back f) (if_pos hup)

/-- The second lap at a member (R231): the size, the latency, and the ring is up. -/
theorem formPass_second_spec {s : State} {f : Flit} (back : Bool) (hlap : f.payload.toNat / 32 % 2 = 1) (hA : s.linkA = true) (hB : s.linkB = true) :
    ∃ t, s.formPass back f = t.forward back f ∧ t.ringSt = (if s.foldedRing then 3 else 2) ∧ t.ringSize = f.payload.toNat % 32 + 1 ∧
      t.get Key.ringLat = toWord (10 * (f.payload.toNat / 256 % 8192)) ∧ s.sameLinks t ∧ s.objectsBut t [Key.ringStatus, Key.ringLat] := by
  obtain ⟨hst, hsize, hlat, hlinks, hbut⟩ := formed_spec (s.takesSize f)
  have hlinks' : s.sameLinks (s.takesSize f) := (sameLinks_putF s (lo := 10) (len := 6) (by decide) _).trans (sameLinks_withRing _ _)
  have htaken : s.objectsBut (s.takesSize f) [Key.ringStatus, Key.ringLat] := ((objectsBut_refl s _).putF (k := Key.ringStatus) (by decide) 10 6 _).of_objs
  have hfolded : (s.takesSize f).foldedRing = s.foldedRing := hlinks'.foldedRing rfl
  refine ⟨_, formPass_second back hlap hA hB, by rw [hst, hfolded], ?_, ?_, hlinks'.trans hlinks, fun k hk => (hbut k hk).trans (htaken k hk)⟩
  · rw [hsize, State.ringSize, State.getF_eq, State.takesSize, State.withRing_get, State.putF, State.get_put_same, field_setField_same _ _ _ _ (by decide), payload_size]
    omega
  · rw [hlat, State.takesSize, State.withRing_ring, field_payload]
    rfl

/-! ## FORM back at the master (R231) -/

section
variable {s : State} {f : Flit} (hA : s.linkA = true) (hB : s.linkB = true)
include hA hB

theorem formBack_second (hlap : f.payload.toNat / 32 % 2 = 1) : s.formBack f = s.formed.cmdDone Key.ringForm 0 := by
  simp [State.formBack, hA, hB, secondLap_bit hlap]

theorem formBack_first (hlap : f.payload.toNat / 32 % 2 = 0) (hmark : f.mark = false) (hfern : s.fernSt = 2) :
    s.formBack f = (s.putF Key.ringStatus 10 6 (f.payload.toNat % 32 + 1)).sendMeasures (s.outPort false) := by
  simp [State.formBack, hA, hB, firstLap_bit hlap, hmark, hfern, payload_size]

theorem formBack_marked (hlap : f.payload.toNat / 32 % 2 = 0) (hmark : f.mark = true) (hplace : f.payload.toNat / 2 ^ 24 % 32 ≠ 0) :
    s.formBack f = s.formFails 2 (f.payload.toNat / 2 ^ 24 % 32) := by
  have hfield : field (toWord f.payload.toNat) 24 5 = f.payload.toNat / 2 ^ 24 % 32 := field_payload _ _ _
  simp only [State.formBack, hA, hB, firstLap_bit hlap, hmark, hfield, hplace]
  simp

/-- The second lap is back: the ring is up, and RING_FORM is DONE. -/
theorem formBack_second_spec (hlap : f.payload.toNat / 32 % 2 = 1) :
    (s.formBack f).ringSt = (if s.foldedRing then 3 else 2) ∧ (s.formBack f).cmdState Key.ringForm = Cmd.done ∧ (s.formBack f).get Key.ringLat = toWord s.ring.lat ∧
      s.objectsBut (s.formBack f) [Key.ringForm, Key.ringStatus, Key.ringLat] := by
  obtain ⟨hst, -, hlat, -, hbut⟩ := formed_spec s
  rw [formBack_second hA hB hlap]
  refine ⟨?_, cmdState_cmdDone _ _ _, ?_, (hbut.mono (by simp)).put (by decide) _⟩
  · rw [State.cmdDone, ringSt_of_get (State.get_put_other _ _ (by decide)), hst]
  · rw [State.cmdDone, State.get_put_other _ _ (by decide), hlat]

/-- The first lap is back unmarked: the size is known, and the master measures its own hop. -/
theorem formBack_first_spec (hlap : f.payload.toNat / 32 % 2 = 0) (hmark : f.mark = false) (hfern : s.fernSt = 2) :
    (s.formBack f).ringSize = f.payload.toNat % 32 + 1 ∧
      (s.formBack f).ring.pendingFlits.map Flit.typ = s.ring.pendingFlits.map Flit.typ ++ List.replicate 256 2 ∧ s.objectsBut (s.formBack f) [Key.ringStatus] := by
  obtain ⟨r, hsent, htypes⟩ := sendMeasures_spec (s.putF Key.ringStatus 10 6 (f.payload.toNat % 32 + 1)) (s.outPort false)
  have hbut : s.objectsBut (s.putF Key.ringStatus 10 6 (f.payload.toNat % 32 + 1)) [Key.ringStatus] := (objectsBut_refl s _).putF (by decide) 10 6 _
  rw [formBack_first hA hB hlap hmark hfern, hsent]
  refine ⟨?_, htypes, hbut.of_get (State.withRing_get _ r)⟩
  rw [State.ringSize, State.getF_eq, State.withRing_get, State.putF, State.get_put_same, field_setField_same _ _ _ _ (by decide)]
  omega

end

/-! ## FLIT_FORM -/

theorem exec_flitForm {s : State} {back : Bool} {f : Flit} (henabled : s.ringEnabled = true) (hmode : s.mode ≠ Mode.reset) (hok : flitOk f = true)
    (hback : (back && s.linkB) = false) (g : Flit) (hg : g = { f with due := s.resolveDue f.due }) : exec (.flitForm back f) s =
      .next (if s.ringMaster then (if s.cmdBusy Key.ringForm ∧ s.ownFlit g then (s.flitHome g).formBack g else s) else s.passes back g (fun t => t.formPass back g)) := by
  have hexec : exec (.flitForm back f) s = execFlitForm back f s := rfl
  rw [hexec, execFlitForm, arrives_good henabled hmode hok hback, ← hg]

/-! ## MEASURE and the slots (R227, R229-R231, R241) -/

/-- The ring with one more hop of position `i` in its sum. -/
def Ring.hopAdded (r : Ring) (i steps : Nat) : Ring := { r with hops := mset (0, 0) r.hops i ((mget (0, 0) r.hops i).1 + 1, (mget (0, 0) r.hops i).2 + steps) }

/-- A MEASURE short of the 256th adds its hop to the sum of its position. -/
theorem exec_flitMeasure {s : State} {back : Bool} {f : Flit} {tick grid i : Nat} (henabled : s.ringEnabled = true) (hmode : s.mode ≠ Mode.reset) (hok : flitOk f = true)
    (hst : s.ringSt = 1) (hsrc : f.src < 32) (hi : i = f.src + (if back then 32 else 0)) (hcount : (mget (0, 0) s.ring.hops i).1 + 1 ≠ 256) :
    exec (.flitMeasure back f tick grid) s = .next (s.withRing (s.ring.hopAdded i (hopSteps { f with due := s.resolveDue f.due } tick grid))) := by
  have hexec : exec (.flitMeasure back f tick grid) s = execFlitMeasure back f tick grid s := rfl
  rw [hexec, execFlitMeasure, if_neg (by simp [henabled, hmode]), if_neg (by simp [hok]), if_pos ⟨hst, hsrc⟩, State.measured, ← hi]
  exact congrArg Host.Outcome.next (if_pos hcount)

theorem measureHome_none {s : State} (h : ∀ f ∈ s.ring.inFlight, f.typ ≠ 2) : s.measureHome = s := by
  have hfind : s.ring.inFlight.find? (fun f => f.typ == 2) = none := List.find?_eq_none.2 (fun f hf => by simpa using h f hf)
  rw [State.measureHome, hfind]

/-- What goes out in a slot takes a credit of its class where there is one, and is on its way. -/
theorem sendFlit_spec (s : State) (f : Flit) (tick grid : Nat) : ∃ r blocks, s.sendFlit f tick grid =
      (s.withRing r).emit (.flit (s.sendPort f) (wire (departs f tick grid)) blocks) ∧
    r.credit f.cls = s.ring.credit f.cls - 1 ∧ f ∈ r.inFlight ∧ f ∉ r.pendingFlits := by
  refine ⟨_, _, rfl, ?_, by simp, by simp⟩
  exact (credit_of_eq (r := s.ring.setCredit f.cls (s.ring.credit f.cls - 1)) rfl f.cls).trans (setCredit_spec _ _ _).1

theorem mem_of_firstFlit {l : List Flit} {f : Flit} (h : firstFlit l = some f) : f ∈ l := by
  induction l generalizing f with
  | nil => cases h
  | cons g l ih =>
    rw [firstFlit] at h
    split at h
    · exact List.mem_cons.2 (.inl (Option.some.inj h).symm)
    · next x hx =>
      split at h
      · exact List.mem_cons_of_mem _ (ih (hx.trans h))
      · exact List.mem_cons.2 (.inl (Option.some.inj h).symm)

theorem exec_ringSlot {s : State} {f : Flit} (tick grid : Nat) (henabled : s.ringEnabled = true) (hflying : ∀ f ∈ s.ring.inFlight, f.typ ≠ 2) (hbreak : s.ring.breaking = none)
    (hst : s.ringSt ≠ 0) (hfirst : firstFlit (s.ring.pendingFlits.filter (fun f => decide (0 < s.ring.credit f.cls))) = some f) (htyp : f.typ ≠ 7) :
    exec (.ringSlot tick grid) s = .next (s.sendFlit f tick grid) := by
  have hexec : exec (.ringSlot tick grid) s = execRingSlot tick grid s := rfl
  simp [hexec, execRingSlot, measureHome_none hflying, henabled, hbreak, hst, hfirst, htyp]

theorem exec_ringSlot_break {s : State} {up : Nat} (tick grid : Nat) (henabled : s.ringEnabled = true) (hflying : ∀ f ∈ s.ring.inFlight, f.typ ≠ 2)
    (hbreak : s.ring.breaking = some up) : exec (.ringSlot tick grid) s =
      .next ((s.withRing { s.ring with nextSeq := (s.ring.nextSeq + 1) % 256 }).sendFlit (s.newFlit 8 s.nowTick up) tick grid) := by
  have hexec : exec (.ringSlot tick grid) s = execRingSlot tick grid s := rfl
  simp [hexec, execRingSlot, measureHome_none hflying, henabled, hbreak]
  rfl

/-- At a break a BREAK of this device fills its slot. -/
theorem exec_ringSlot_break_spec {s : State} {up : Nat} (tick grid : Nat) (henabled : s.ringEnabled = true) (hflying : ∀ f ∈ s.ring.inFlight, f.typ ≠ 2)
    (hbreak : s.ring.breaking = some up) : ∃ r blocks, exec (.ringSlot tick grid) s =
      .next ((s.withRing r).emit (.flit (s.outPort false) (wire (s.newFlit 8 s.nowTick up)) blocks)) := by
  have hport : (s.withRing { s.ring with nextSeq := (s.ring.nextSeq + 1) % 256 }).sendPort (s.newFlit 8 s.nowTick up) = s.outPort false := Bool.or_false _
  have hdeparts : departs (s.newFlit 8 s.nowTick up) tick grid = s.newFlit 8 s.nowTick up := if_neg (show (8 : Nat) ≠ 2 by decide)
  obtain ⟨r, blocks, hsend, -⟩ := sendFlit_spec (s.withRing { s.ring with nextSeq := (s.ring.nextSeq + 1) % 256 }) (s.newFlit 8 s.nowTick up) tick grid
  rw [hport, hdeparts, State.withRing_withRing] at hsend
  rw [exec_ringSlot_break tick grid henabled hflying hbreak, hsend]
  exact ⟨r, blocks, rfl⟩

/-- A link that locks shows its bit; FS059 has no live bit to clear. -/
theorem exec_ringLinkLock {s : State} (portB : Bool) (hmode : Mode.train ≤ s.mode) (hlive : s.liveBit 59 = false) :
    exec (.ringLinkLock portB) s = .next (s.putF Key.ringStatus (if portB then 4 else 3) 1 1) := by
  have hexec : exec (.ringLinkLock portB) s = execRingLinkLock portB s := rfl
  have hlive' : (s.putF Key.ringStatus (if portB then 4 else 3) 1 1).liveBit 59 = false := by
    rw [← hlive]
    simp [State.liveBit, State.mapBit, State.get_putF, Key.faultLive, mkKey]
  rw [hexec, execRingLinkLock, if_neg (Nat.not_lt.2 hmode)]
  exact congrArg Host.Outcome.next (if_neg (by simp [hlive']))

end Sys2Proof.Machine

open Sys2Proof Sys2Proof.Machine

/-- Settles O56: the two laps write the words of a formation alone, at a member after the flit is noted and at the master after it is home, and a slot or a MEASURE moves the
ring alone. -/
theorem theRingForms : Obligations.TheRingForms := by
  unfold Obligations.TheRingForms
  intro s p
  refine ⟨fun hserves hmode hbusy hmaster => ?_, fun reason position hbusy hlow hhigh => ?_, fun back f henabled hmode hok hback => ⟨fun hmember hseen => ?_, fun hmaster hbusy hown hA hB => ?_⟩,
    fun back f tick grid i henabled hmode hok hst hsrc hi hcount => ?_, fun tick grid henabled hflying => ⟨fun f hbreak hst hfirst htyp => ?_, fun up hbreak => ?_⟩,
    fun portB hmode hlive => ?_⟩
  · obtain ⟨u, haccess, hanswered, hget, _, _, hu⟩ := access_accepted (fun u => u.cmdRingForm 0) hserves (cmdRingForm_ok hmode hbusy hmaster)
    obtain ⟨f, hpending, htyp, hsrc, hseq, hpayload, hflying, hcredit, hrunning, hst, hpos, hbut⟩ := formBegins_spec s
    have hring : u.ring = s.formBegins.ring := by rw [hu]
    exact ⟨u, f, congrArg Host.Outcome.next haccess, hanswered, (cmdState_of_get (hget _)).trans hrunning, (ringSt_of_get (hget _)).trans hst,
      (congrArg (fun w => field w 5 5) (hget Key.ringStatus)).trans hpos, by rw [hring, hpending], htyp, hsrc, hseq, hpayload, by rw [hring, hflying],
      by rw [hring, hcredit], hbut.of_get hget⟩
  · obtain ⟨hfailed, -, hdetail, hst, hbut⟩ := formFails_spec s (reason := reason) (by omega) position
    exact ⟨_, exec_ringFormTimeout hbusy hlow hhigh, hfailed, hst, hdetail, hbut⟩
  · have hexec := exec_flitForm henabled hmode hok hback _ rfl
    rw [hmember, if_neg (by decide), passes_first hseen] at hexec
    generalize hg : ({ f with due := s.resolveDue f.due } : Flit) = g at hexec hseen
    have hgf : g.src = f.src ∧ g.seq = f.seq ∧ g.mark = f.mark ∧ g.payload = f.payload := by rw [← hg]; exact ⟨rfl, rfl, rfl, rfl⟩
    obtain ⟨hsrc, hseq, hmark, hpayload⟩ := hgf
    rw [← hpayload]
    refine ⟨fun hlap hroom => ?_, fun hlap hA hB => ?_⟩
    · obtain ⟨t, blocks, hpass, hst, hpos, htypes, hout, hbut⟩ := formPass_first_spec (s := s.noteFlit g) back hlap hroom
      obtain ⟨hsrc', hseq', hsize', hready, hnot⟩ := formStamp_spec g (pos := g.payload.toNat % 32 + 1) (by omega) (s.noteFlit g).formReady
      exact ⟨t, _, blocks, hexec.trans (congrArg Host.Outcome.next hpass), hst, hpos, htypes, hout, hsrc'.trans hsrc, hseq'.trans hseq, hsize',
        fun h => (hready (decide_eq_true h)).trans hmark, fun h => hnot (decide_eq_false h), hbut⟩
    · obtain ⟨t, hpass, hst, hsize, hlat, hlinks, hbut⟩ := formPass_second_spec (s := s.noteFlit g) back hlap hA hB
      obtain ⟨blocks, hforward⟩ := forward_resolved t s back f
      rw [hg, hlinks.outPort] at hforward
      rw [hpass, hforward] at hexec
      exact ⟨_, blocks, hexec, hst, hsize, hlat, List.getLast?_concat, hbut⟩
  · have hexec := exec_flitForm henabled hmode hok hback _ rfl
    rw [hmaster, if_pos rfl, if_pos ⟨hbusy, (ownFlit_due s f _).trans hown⟩] at hexec
    generalize hg : ({ f with due := s.resolveDue f.due } : Flit) = g at hexec
    have hgf : g.mark = f.mark ∧ g.payload = f.payload := by rw [← hg]; exact ⟨rfl, rfl⟩
    obtain ⟨hmark, hpayload⟩ := hgf
    obtain ⟨q, hhome, hq⟩ := flitHome_spec s g
    have hlinks : s.sameLinks (s.withRing q) := sameLinks_withRing s q
    rw [hhome] at hexec
    rw [← hpayload, ← hmark]
    refine ⟨fun hlap => ?_, fun hlap hmark hfern => ?_, fun hlap hmark hplace => ?_⟩
    · obtain ⟨hst, hdone, hlat, hbut⟩ := formBack_second_spec (s := s.withRing q) hA hB hlap
      have hfolded : (s.withRing q).foldedRing = s.foldedRing := hlinks.foldedRing (by rw [State.withRing_ring, hq])
      have hring : (s.withRing q).ring.lat = s.ring.lat := by rw [State.withRing_ring, hq]
      exact ⟨_, hexec, hfolded ▸ hst, hdone, hring ▸ hlat, hbut⟩
    · obtain ⟨hsize, htypes, hbut⟩ := formBack_first_spec (s := s.withRing q) hA hB hlap hmark hfern
      have hring : (s.withRing q).ring.pendingFlits = s.ring.pendingFlits := by rw [State.withRing_ring, hq]
      exact ⟨_, hexec, hsize, hring ▸ htypes, cmdState_of_get (hbut _ (by decide)), hbut⟩
    · obtain ⟨hfailed, hcode, hdetail, hst, -⟩ := formFails_spec (s.withRing q) (reason := 2) (by decide) (g.payload.toNat / 2 ^ 24 % 32)
      rw [formBack_marked (s := s.withRing q) hA hB hlap hmark hplace] at hexec
      exact ⟨_, hexec, hst, hfailed, hcode, hdetail.trans (by omega)⟩
  · refine ⟨_, exec_flitMeasure henabled hmode hok hst hsrc hi hcount, ?_, rfl⟩
    rw [State.withRing_ring, Ring.hopAdded, mget_mset_same, hopSteps]
  · obtain ⟨r, blocks, hsend, hcredit, hflies, hgone⟩ := sendFlit_spec s f tick grid
    have havail : 0 < s.ring.credit f.cls := of_decide_eq_true (List.mem_filter.1 (mem_of_firstFlit hfirst)).2
    exact ⟨_, blocks, (exec_ringSlot tick grid henabled hflying hbreak hst hfirst htyp).trans (congrArg Host.Outcome.next hsend), rfl,
      by rw [State.emit_ring, State.withRing_ring, hcredit]; omega, hflies, hgone, rfl⟩
  · obtain ⟨r, blocks, hexec⟩ := exec_ringSlot_break_spec tick grid henabled hflying hbreak
    exact ⟨_, wire (s.newFlit 8 s.nowTick up), blocks, hexec, rfl, rfl, rfl, rfl, by rw [wire_payload, newFlit_payload], rfl⟩
  · refine ⟨_, exec_ringLinkLock portB hmode hlive, ?_, onlyObjects_putF (onlyObjects_refl s _) (by decide) _ 1 1⟩
    rw [State.getF_eq, State.putF, State.get_put_same, field_setField_same _ _ _ _ (by split <;> decide)]
    rfl

end

section
/-! A flit on its way through a device of a ring in use: a bad CRC, a member's part and a return home (R228, R230, R232-R238; first part of O57). -/

namespace Sys2Proof.Machine

/-! ## What DUE leaves open -/

/-- On the lanes a flit is the same for every DUE with its 48 bits. -/
theorem wire_due (f : Flit) {due : Nat} (hdue : due % 2 ^ 48 = f.due % 2 ^ 48) : wire { f with due := due } = wire f := by
  simp only [wire, hdue]

theorem forward_due (s : State) (back : Bool) {f : Flit} {due : Nat} (hdue : due % 2 ^ 48 = f.due % 2 ^ 48) :
    ∃ blocks, s.forward back { f with due := due } = s.emit (.flit (s.outPort back) (wire f) blocks) := by
  obtain ⟨blocks, h⟩ := forward_spec s back { f with due := due }
  rw [wire_due f hdue] at h
  exact ⟨blocks, h⟩

theorem forward_withRing (s : State) (r : Ring) (back : Bool) {f : Flit} {due : Nat} (hdue : due % 2 ^ 48 = f.due % 2 ^ 48) :
    ∃ blocks, (s.withRing r).forward back { f with due := due } = (s.withRing r).emit (.flit (s.outPort back) (wire f) blocks) := by
  obtain ⟨blocks, h⟩ := forward_due (s.withRing r) back hdue
  rw [(sameLinks_withRing s r).outPort] at h
  exact ⟨blocks, h⟩

theorem flitHome_due (s : State) (f : Flit) (due : Nat) : s.flitHome { f with due := due } = s.flitHome f := rfl

theorem tokenThread_due (s : State) (f : Flit) (due : Nat) : s.tokenThread { f with due := due } = s.tokenThread f := rfl

/-! ## What the ring leaves open -/

theorem noteFlit_eq (s : State) (f : Flit) : s.noteFlit f =
    s.withRing { s.ring with seen := (256 * f.src + f.seq, f.due) :: s.ring.seen.filter (fun x => x.1 != 256 * f.src + f.seq) } := rfl

theorem flitLate_noteFlit (s : State) (f g : Flit) : (s.noteFlit f).flitLate g = s.flitLate g := rfl

theorem tokenThread_noteFlit (s : State) (f g : Flit) : (s.noteFlit f).tokenThread g = s.tokenThread g := rfl

theorem placesTaken_noteFlit (s : State) (f : Flit) (th : Nat) : (s.noteFlit f).placesTaken th = s.placesTaken th := rfl

theorem onlyRing_forwarded (s : State) (r : Ring) (o : Output) (ks : List Nat) : s.onlyRing ((s.withRing r).emit o) ks := ⟨fun _ _ => rfl, rfl⟩

/-! ## A bad CRC (R228) -/

/-- Every flit with a bad CRC meets the same. -/
theorem exec_badCrc {s : State} {back : Bool} {f : Flit} {tick grid : Nat} {c : Instr} (henabled : s.ringEnabled = true) (hmode : s.mode ≠ Mode.reset) (hbad : flitOk f = false)
    (hc : c ∈ [Instr.flitForm back f, .flitMeasure back f tick grid, .flitStartReq back f, .flitLaunch back f, .flitCond back f, .flitToken back f, .flitTrig back f, .flitBreak back f,
      .flitErrored back f]) : exec c s = .next (s.badCrc back f) := by
  have hmeasure : execFlitMeasure back f tick grid s = .next (s.badCrc back f) := by
    rw [execFlitMeasure, if_neg (by simp [henabled, hmode]), if_pos (by simp [hbad])]
  simp only [List.mem_cons, List.not_mem_nil, or_false] at hc
  rcases hc with rfl | rfl | rfl | rfl | rfl | rfl | rfl | rfl | rfl
  case inr.inl => exact hmeasure
  all_goals simp only [exec, execFlitForm, execFlitStartReq, execFlitLaunch, execFlitCond, execFlitToken, execFlitTrig, execFlitBreak, execFlitErrored,
    arrives_bad henabled hmode hbad]

theorem badCrc_spec (s : State) (back : Bool) (f : Flit) : ∃ blocks, s.badCrc back f =
    (s.count Key.ringCrcErrors 32).emit (.flit (s.outPort back) (wire { f with typ := 9 }) blocks) := by
  have hlinks : s.sameLinks (s.count Key.ringCrcErrors 32) := sameLinks_of_get (State.get_put_other _ _ (by decide)) (State.get_put_other _ _ (by decide))
  obtain ⟨blocks, h⟩ := forward_spec (s.count Key.ringCrcErrors 32) back { f with typ := 9 }
  rw [hlinks.outPort] at h
  exact ⟨blocks, h⟩

/-! ## A flit of another device (R228, R233-R238) -/

section
variable {s : State} {back : Bool} {f g : Flit} (hback : (back && s.linkB) = false) (hg : g = { f with due := s.resolveDue f.due })
include hback hg

/-- A member acts on a flit that reaches it. -/
theorem arrives_reached (h : s.reached f) (home : State → Flit → State) (act : Flit → State → State) :
    s.arrives back f (fun t x => if t.ownFlit x then home t x else t.passes back x (act x)) = .next (act g (s.noteFlit g)) := by
  obtain ⟨henabled, hmode, hok, hown, hseen⟩ := h
  rw [← hg] at hseen
  have hown' : s.ownFlit g = false := by rw [hg, ownFlit_due, hown]
  rw [arrives_good henabled hmode hok hback, ← hg, hown', if_neg Bool.false_ne_true, passes_first hseen]

/-- A flit of this device is home. -/
theorem arrives_own (henabled : s.ringEnabled = true) (hmode : s.mode ≠ Mode.reset) (hok : flitOk f = true) (hown : s.ownFlit f = true)
    (home : State → Flit → State) (act : State → Flit → State) :
    s.arrives back f (fun t x => if t.ownFlit x then home t x else act t x) = .next (home s g) := by
  have hown' : s.ownFlit g = true := by rw [hg, ownFlit_due, hown]
  rw [arrives_good henabled hmode hok hback, ← hg, hown', if_pos rfl]

end

/-- What a member adds to a START_REQ: that it is not ready, and MARK against one from a higher position while its own is in flight (R232, R233). -/
theorem startPass_spec (s : State) (back : Bool) {f : Flit} {due : Nat} (hdue : due % 2 ^ 48 = f.due % 2 ^ 48) :
    ∃ r blocks, (s.noteFlit { f with due := due }).startPass back { f with due := due } = (s.withRing r).emit (.flit (s.outPort back) (wire { f with
        payload := if s.mode = Mode.armed ∧ s.auditSt ≠ 1 ∧ s.auditSt ≠ 2 then f.payload else f.payload ||| (1#32 <<< s.ringPos)
        mark := f.mark || (s.ring.startFlight && decide (s.ringPos < f.src)) }) blocks) ∧ f.src ∈ r.starters := by
  have hready : (if (s.mode == Mode.armed && s.auditSt != 1 && s.auditSt != 2) = true then f.payload else f.payload ||| (1#32 <<< s.ringPos)) =
      if s.mode = Mode.armed ∧ s.auditSt ≠ 1 ∧ s.auditSt ≠ 2 then f.payload else f.payload ||| (1#32 <<< s.ringPos) := by
    simp only [Bool.and_eq_true, beq_iff_eq, bne_iff_ne, and_assoc]
  rw [← hready]
  obtain ⟨blocks, h⟩ := forward_withRing s { (s.noteFlit { f with due := due }).ring with starters := f.src :: s.ring.starters.filter (fun p => p != f.src) } back
    (f := { f with
      payload := if (s.mode == Mode.armed && s.auditSt != 1 && s.auditSt != 2) = true then f.payload else f.payload ||| (1#32 <<< s.ringPos)
      mark := f.mark || (s.ring.startFlight && decide (s.ringPos < f.src)) }) hdue
  exact ⟨_, blocks, h, List.mem_cons_self ..⟩

/-- A member with JOINT notes the launch time (R233). -/
theorem launchPass_spec (s : State) (back : Bool) {f : Flit} {due : Nat} (hdue : due % 2 ^ 48 = f.due % 2 ^ 48) :
    ∃ r blocks, (s.noteFlit { f with due := due }).launchPass back { f with due := due } = (s.withRing r).emit (.flit (s.outPort back) (wire f) blocks) ∧
      r.launchDue = if s.ringJoint then some due else s.ring.launchDue := by
  have hpass : (s.noteFlit { f with due := due }).launchPass back { f with due := due } =
      (s.withRing { (s.noteFlit { f with due := due }).ring with
        starters := s.ring.starters.filter (fun p => p != f.src), launchDue := if s.ringJoint then some due else s.ring.launchDue }).forward back { f with due := due } := by
    simp only [State.launchPass, noteFlit_eq, State.withRing_ring]
    cases hj : s.ringJoint with
    | true => exact congrArg (fun t => State.forward t back { f with due := due }) (if_pos hj)
    | false => exact congrArg (fun t => State.forward t back { f with due := due }) (if_neg (fun h => Bool.false_ne_true (hj.symm.trans h)))
  obtain ⟨blocks, h⟩ := forward_withRing s { (s.noteFlit { f with due := due }).ring with
    starters := s.ring.starters.filter (fun p => p != f.src), launchDue := if s.ringJoint then some due else s.ring.launchDue } back hdue
  exact ⟨_, blocks, hpass.trans h, rfl⟩

/-- A COND or TRIG in time is held for its DUE (R234). -/
theorem holdPass_spec (s : State) (back : Bool) {f : Flit} {due : Nat} (hdue : due % 2 ^ 48 = f.due % 2 ^ 48) (hlate : s.flitLate { f with due := due } = false) :
    ∃ r blocks, (s.noteFlit { f with due := due }).holdPass back { f with due := due } = (s.withRing r).emit (.flit (s.outPort back) (wire f) blocks) ∧
      r.due = s.ring.due ++ [{ f with due := due }] := by
  rw [State.holdPass, flitLate_noteFlit, hlate, if_neg Bool.false_ne_true]
  obtain ⟨blocks, h⟩ := forward_withRing s { (s.noteFlit { f with due := due }).ring with due := s.ring.due ++ [{ f with due := due }] } back hdue
  exact ⟨_, blocks, h, rfl⟩

theorem holdPass_late {s : State} {f : Flit} (back : Bool) (hlate : s.flitLate f = true) : (s.noteFlit f).holdPass back f = ((s.noteFlit f).ringFault 60 .none).forward back f := by
  rw [State.holdPass, flitLate_noteFlit, hlate, if_pos rfl]

theorem tokenPass_none {s : State} {f : Flit} (back : Bool) (h : s.tokenThread f = none) :
    s.tokenPass back f = (if s.flitLate f then s.ringFault 60 .none else s).forward back f := by
  simp only [State.tokenPass, h]

theorem tokenPass_some {s : State} {f : Flit} {th : Nat} (back : Bool) (h : s.tokenThread f = some th) : s.tokenPass back f =
    if s.flitLate f || decide (15 ≤ s.placesTaken th) then (s.ringFault 60 (.thread th)).forward back f
    else (s.holdFlit { f with mark := true }).forward back { f with mark := true } := by
  simp only [State.tokenPass, h]

/-- A TOKEN in time for a thread of another device goes on (R236). -/
theorem tokenPass_other (s : State) (back : Bool) {f : Flit} {due : Nat} (hdue : due % 2 ^ 48 = f.due % 2 ^ 48) (hlate : s.flitLate { f with due := due } = false)
    (hthread : s.tokenThread f = none) :
    ∃ r blocks, (s.noteFlit { f with due := due }).tokenPass back { f with due := due } = (s.withRing r).emit (.flit (s.outPort back) (wire f) blocks) ∧ r.due = s.ring.due := by
  rw [tokenPass_none back ((tokenThread_noteFlit _ _ _).trans ((tokenThread_due s f due).trans hthread)), flitLate_noteFlit, hlate, if_neg Bool.false_ne_true]
  obtain ⟨blocks, h⟩ := forward_withRing s (s.noteFlit { f with due := due }).ring back hdue
  exact ⟨_, blocks, h, rfl⟩

/-- A TOKEN in time for a thread with a free place is claimed (R236, R237). -/
theorem tokenPass_claimed (s : State) (back : Bool) {f : Flit} {due th : Nat} (hdue : due % 2 ^ 48 = f.due % 2 ^ 48) (hthread : s.tokenThread f = some th)
    (hlate : s.flitLate { f with due := due } = false) (hplace : s.placesTaken th < 15) :
    ∃ r blocks, (s.noteFlit { f with due := due }).tokenPass back { f with due := due } = (s.withRing r).emit (.flit (s.outPort back) (wire { f with mark := true }) blocks) ∧
      r.due = s.ring.due ++ [{ f with due := due, mark := true }] := by
  rw [tokenPass_some back ((tokenThread_noteFlit _ _ _).trans ((tokenThread_due s f due).trans hthread)), flitLate_noteFlit, placesTaken_noteFlit, if_neg (by simp [hlate, hplace])]
  obtain ⟨blocks, h⟩ := forward_withRing s { (s.noteFlit { f with due := due }).ring with due := s.ring.due ++ [{ f with due := due, mark := true }] } back
    (f := { f with mark := true }) hdue
  exact ⟨_, blocks, h, rfl⟩

/-- A late TOKEN, or one for a thread without a free place, is lost on its destination (R234, R237). -/
theorem tokenPass_lost {s : State} {f : Flit} {th : Nat} (back : Bool) (hthread : s.tokenThread f = some th) (hlost : s.flitLate f = true ∨ 15 ≤ s.placesTaken th) :
    (s.noteFlit f).tokenPass back f = ((s.noteFlit f).ringFault 60 (.thread th)).forward back f := by
  rw [tokenPass_some back ((tokenThread_noteFlit _ _ _).trans hthread), flitLate_noteFlit, placesTaken_noteFlit, if_pos (by simpa using hlost)]

/-! ## A flit of this device (R228, R230) -/

/-- The credit of a flit that comes home returns, and the flit is no longer on its way. -/
theorem flitHome_own {s : State} {f : Flit} (hown : s.ownFlit f = true) :
    ∃ r, s.flitHome f = s.withRing r ∧ r.credit f.cls = min (ringCredits f.cls) (s.ring.credit f.cls + 1) ∧ (s.withRing r).ownFlit f = false := by
  have hmine : s.ring.inFlight.any (fun g => g.typ == f.typ && g.seq == f.seq) = true := (Bool.and_eq_true_iff.1 hown).2
  have hhome : s.flitHome f = s.withRing { s.ring.setCredit f.cls (min (ringCredits f.cls) (s.ring.credit f.cls + 1)) with
      inFlight := (s.ring.setCredit f.cls (min (ringCredits f.cls) (s.ring.credit f.cls + 1))).inFlight.filter (fun g => !(g.typ == f.typ && g.seq == f.seq)) } := by
    rw [State.flitHome, if_pos hmine]
    rfl
  refine ⟨_, hhome, ?_, ?_⟩
  · exact (credit_of_eq (r := s.ring.setCredit f.cls (min (ringCredits f.cls) (s.ring.credit f.cls + 1))) rfl f.cls).trans (setCredit_spec _ _ _).1
  · rw [State.ownFlit, State.withRing_ring, Bool.and_eq_false_iff]
    refine .inr (List.any_eq_false.2 (fun g hg => ?_))
    have hother := (List.mem_filter.1 hg).2
    simpa [← imp_iff_not_or] using hother

end Sys2Proof.Machine
end

section
/-! Joint starts, flits that wait for their DUE, and the break of a ring (R228, R232-R237, R240, R241; second part of O57). -/

namespace Sys2Proof.Machine

/-! ## A START_REQ back at its originator (R232, R233) -/

/-- No position marks or is not ready: LAUNCH goes out for the FREF edge after START_LEAD and two laps. -/
theorem startBack_launches {s : State} {f x : Flit} (hflight : s.ring.startFlight = true) (hmark : f.mark = false) (hpayload : f.payload = 0)
    (hfind : s.ring.inFlight.find? (fun g => g.typ == 3 && g.seq == f.seq) = some x) :
    ∃ t, s.startBack f = t ∧ t.ring.launchDue = some (frefEdge (x.due + s.leadTicks + 2 * s.ringLatTicks)) ∧ t.ring.startFlight = false ∧
      (∃ l ∈ t.ring.pendingFlits, l.typ = 4 ∧ l.due = frefEdge (x.due + s.leadTicks + 2 * s.ringLatTicks)) ∧ t.objs = s.objs := by
  obtain ⟨q, hhome, hq⟩ := flitHome_spec s f
  have hflight' : (s.withRing q).ring.startFlight = true := by rw [State.withRing_ring, hq, ← hflight]
  have hlead : (s.withRing q).leadTicks = s.leadTicks := rfl
  have hlat : (s.withRing q).ringLatTicks = s.ringLatTicks := rfl
  have hback : s.startBack f = (let u := (s.withRing q).queueFlit 4 (frefEdge (x.due + s.leadTicks + 2 * s.ringLatTicks)) 0
      u.withRing { u.ring with startFlight := false, launchDue := some (frefEdge (x.due + s.leadTicks + 2 * s.ringLatTicks)) }) := by
    simp only [State.startBack, hfind, hhome, hflight', hmark, hpayload, hlead, hlat, Option.map_some, Option.getD_some]
    rfl
  rw [hback]
  exact ⟨_, rfl, rfl, rfl, ⟨_, List.mem_append_right _ (List.mem_singleton_self _), rfl, rfl⟩, rfl⟩

theorem marker_lt {s : State} {pos : Nat} (h : s.marker = some pos) : pos < 32 := by
  have hpos : pos < s.ringPos := List.mem_range.1 (List.mem_of_find?_eq_some h)
  have hring : s.ringPos < 2 ^ 5 := field_lt _ 5 5
  omega

/-- A payload that is not zero names a position that is not ready. -/
theorem bitsOf_head {p : BitVec 32} (h : p ≠ 0) : ∃ i, (bitsOf 32 p.toNat).head? = some i ∧ i < 32 := by
  have hne : bitsOf 32 p.toNat ≠ [] := by
    intro hnil
    refine h (BitVec.eq_of_getLsbD_eq (fun i hi => ?_))
    have hbit := List.filter_eq_nil_iff.1 hnil i (List.mem_range.2 hi)
    simpa [BitVec.testBit_toNat] using hbit
  obtain ⟨i, l, hl⟩ := List.exists_cons_of_ne_nil hne
  have hmem : i ∈ bitsOf 32 p.toNat := by rw [hl]; exact List.mem_cons_self ..
  exact ⟨i, by rw [hl]; rfl, List.mem_range.1 (List.mem_filter.1 hmem).1⟩

section
variable {s : State} {f : Flit} (hflight : s.ring.startFlight = true) (hbusy : s.cmdBusy Key.burstStart = true)
include hflight hbusy

/-- A mark refuses a joint start with BUSY (R233). -/
theorem startBack_marked {pos : Nat} (hmark : f.mark = true) (hmarker : s.marker = some pos) :
    s.startBack f = ((s.flitHome f).endJoint .busy).cmdFail Key.burstStart .busy pos := by
  obtain ⟨q, hhome, hq⟩ := flitHome_spec s f
  have hflight' : (s.withRing q).ring.startFlight = true := by rw [State.withRing_ring, hq, ← hflight]
  have hmarker' : (s.withRing q).marker = some pos := by
    have hstarters : q.starters = s.ring.starters := by rw [hq]
    rw [← hmarker, State.marker, State.marker, State.withRing_ring, hstarters]
    rfl
  have hbusy' : (s.withRing q).cmdBusy Key.burstStart = true := hbusy
  simp only [State.startBack, hhome, hflight', hmark, hmarker', hbusy', Bool.not_true, Bool.false_eq_true, if_false, if_true]

/-- A position that is not ready refuses it with WRONG_MODE (R232). -/
theorem startBack_unready (hmark : f.mark = false) (hpayload : f.payload ≠ 0) :
    s.startBack f = ((s.flitHome f).endJoint .wrongMode).cmdFail Key.burstStart .wrongMode ((bitsOf 32 f.payload.toNat).headD 0) := by
  obtain ⟨q, hhome, hq⟩ := flitHome_spec s f
  have hflight' : (s.withRing q).ring.startFlight = true := by rw [State.withRing_ring, hq, ← hflight]
  have hbusy' : (s.withRing q).cmdBusy Key.burstStart = true := hbusy
  simp only [State.startBack, hhome, hflight', hmark, hbusy', hpayload, Bool.not_true, Bool.false_eq_true, if_false, if_true, ne_eq, not_false_eq_true]

end

/-! ## ERRORED (R228) -/

theorem exec_flitErrored {s : State} {back : Bool} {f g : Flit} (henabled : s.ringEnabled = true) (hmode : s.mode ≠ Mode.reset) (hok : flitOk f = true)
    (hback : (back && s.linkB) = false) (hg : g = { f with due := s.resolveDue f.due }) : exec (.flitErrored back f) s =
      .next (match s.ring.inFlight.find? (fun x => f.src == s.ringPos && x.seq == f.seq) with
        | none => s.forward back g
        | some x => if x.resent then (s.flitHome x).ringFault 60 .none
          else (s.flitHome x).withRing { (s.flitHome x).ring with pendingFlits := { x with resent := true } :: (s.flitHome x).ring.pendingFlits }) := by
  have hexec : exec (.flitErrored back f) s = execFlitErrored back f s := rfl
  rw [hexec, execFlitErrored, arrives_good henabled hmode hok hback, hg]
  rfl

/-! ## The end of a joint start and of a formation at a break (R231, R232, R241) -/

/-- A slot's outcome other than OK writes the slot's own words alone, which no word of the ring or of a command is. -/
theorem slotDecided_get (s : State) (n : Nat) {c : Code} (hc : c ≠ .ok) {k : Nat} (hk : k % 0x100 = 0) : (s.slotDecided n c).get k = s.get k := by
  have hstatus : Key.slotStatus n ≠ k := by simp only [Key.slotStatus, mkKey]; omega
  have hlateness : Key.slotLateness n ≠ k := by simp only [Key.slotLateness, mkKey]; omega
  have hconvert : ∀ t : State, (t.convertSlot n).get k = t.get k := fun t => by
    simp only [State.convertSlot, State.nearestOpen]
    split <;> rfl
  simp only [State.slotDecided, hc, false_and, if_false]
  split
  · rw [hconvert, State.get_put_other _ _ hlateness, State.get_put_other _ _ hstatus]
  · rw [irq_get, State.get_put_other _ _ hstatus]

theorem slotDecided_ring (s : State) (n : Nat) {c : Code} (hc : c ≠ .ok) : (s.slotDecided n c).ring = s.ring := by
  have hconvert : ∀ t : State, (t.convertSlot n).ring = t.ring := fun t => by
    simp only [State.convertSlot, State.nearestOpen]
    split <;> rfl
  simp only [State.slotDecided, hc, false_and, if_false]
  split
  · rw [hconvert, State.put_ring, State.put_ring]
  · rw [irq_ring, State.put_ring]

/-- The end of a joint start other than by a launch changes BURST_START and a slot's words alone, and of the ring what the start was. -/
theorem endJoint_get (s : State) {c : Code} (hc : c ≠ .ok) {k : Nat} (hk : k % 0x100 = 0) (hstart : k ≠ Key.burstStart) : (s.endJoint c).get k = s.get k := by
  have hcommand : ∀ t : State, (if t.cmdBusy Key.burstStart then (if c = .ok then t.cmdDone Key.burstStart 0 else t.cmdFail Key.burstStart c 0) else t).get k = t.get k := by
    intro t
    rw [if_neg hc]
    split
    · exact State.get_put_other _ _ hstart.symm
    · rfl
  simp only [State.endJoint]
  split
  · rw [slotDecided_get _ _ hc hk, hcommand]
    rfl
  · exact hcommand _

theorem endJoint_ring (s : State) {c : Code} (hc : c ≠ .ok) : (s.endJoint c).ring = { s.ring with startFlight := false, startSlot := none } := by
  have hcommand : ∀ t : State, (if t.cmdBusy Key.burstStart then (if c = .ok then t.cmdDone Key.burstStart 0 else t.cmdFail Key.burstStart c 0) else t).ring = t.ring := by
    intro t
    rw [if_neg hc]
    split <;> rfl
  simp only [State.endJoint]
  split
  · rw [slotDecided_ring _ _ hc, hcommand]
  · exact hcommand _

/-- The ring is DOWN at a break, and a joint start in flight has ended; FS059 is raised on this. -/
def State.ringBroken (s : State) : State := if (s.ringDown true).ring.startFlight then (s.ringDown true).endJoint .aborted else s.ringDown true

theorem ringBreaks_eq (s : State) : s.ringBreaks = s.ringBroken.ringFault 59 .none := rfl

theorem ringBroken_spec (s : State) : s.ringBroken.ringSt = 0 ∧ s.ringBroken.get Key.ringLat = 0 ∧ s.ringBroken.ring.breaking = s.ring.breaking ∧ Keeps s s.ringBroken ∧
    ∀ k, k % 0x100 = 0 → k ≠ Key.burstStart → k ≠ Key.ringLat → s.ringBroken.get k = (s.putF Key.ringStatus 0 3 0).get k := by
  have hdown : ∀ k, k ≠ Key.ringLat → (s.ringDown true).get k = (s.putF Key.ringStatus 0 3 0).get k := fun k hk => by
    rw [get_ringDown, State.get_put_other _ _ hk.symm]
  have hbreaking : (s.ringDown true).ring.breaking = s.ring.breaking := by rw [ringDown_ring]; rfl
  have hkeeps : Keeps s (s.ringDown true) := State.ringDown_keeps (Keeps.refl s)
  rw [State.ringBroken]
  split
  · have hget : ∀ k, k % 0x100 = 0 → k ≠ Key.burstStart → ((s.ringDown true).endJoint .aborted).get k = (s.ringDown true).get k :=
      fun k hk hstart => endJoint_get _ (by decide) hk hstart
    exact ⟨(ringSt_of_get (hget _ (by decide) (by decide))).trans (ringSt_ringDown s true), (hget _ (by decide) (by decide)).trans (get_ringDown_ringLat s true),
      by rw [endJoint_ring _ (by decide), ← hbreaking], State.endJoint_keeps hkeeps, fun k hk hstart hlat => (hget k hk hstart).trans (hdown k hlat)⟩
  · exact ⟨ringSt_ringDown s true, get_ringDown_ringLat s true, hbreaking, hkeeps, fun k _ _ hlat => hdown k hlat⟩

/-- A ring that breaks keeps its links. -/
theorem sameLinks_ringBroken (s : State) : s.sameLinks s.ringBroken := by
  obtain ⟨-, -, -, -, hget⟩ := ringBroken_spec s
  exact (sameLinks_putF s (lo := 0) (len := 3) (by decide) 0).trans (sameLinks_of_get (hget _ (by decide) (by decide) (by decide)) (hget _ (by decide) (by decide) (by decide)))

/-- A formation that a break meets ends FAILED with reason 1 at the position upstream; the links and what the breaking device knows of the break stay. -/
theorem formBroken_spec (s : State) (position : Nat) : (s.formBroken position).ring.breaking = s.ring.breaking ∧ s.sameLinks (s.formBroken position) ∧
    (s.cmdBusy Key.ringForm = true → (s.formBroken position).get Key.ringForm = statusWord Cmd.failed .hwFail (position % 32 + 32)) := by
  have hfails : s.formFails 1 position = ((s.ringDown false).setRingSt 0).cmdFail Key.ringForm .hwFail (position % 32 + 32) := rfl
  rw [State.formBroken]
  split
  · refine ⟨?_, ?_, fun _ => by rw [hfails, State.cmdFail, State.get_put_same]⟩
    · rw [hfails, State.cmdFail, State.put_ring, setRingSt_ring, ringDown_ring]
      rfl
    · rw [hfails, State.cmdFail]
      exact ((sameLinks_ringDown s false).trans (sameLinks_setRingSt _ 0)).trans (sameLinks_of_get (State.get_put_other _ _ (by decide)) (State.get_put_other _ _ (by decide)))
  · next hidle => exact ⟨rfl, sameLinks_of_get rfl rfl, fun hbusy => absurd hbusy hidle⟩

/-- A device at a break, or one that hears of it: the formation ended and the ring DOWN. -/
theorem formBroken_ringBroken_spec (s : State) (position : Nat) : ∃ u : State, ((s.formBroken position).ringBreaks = u.ringFault 59 .none) ∧ u.ringSt = 0 ∧ u.get Key.ringLat = 0 ∧
    u.ring.breaking = s.ring.breaking ∧ s.sameLinks u ∧ s.out ⊆ u.out ∧
    (s.cmdBusy Key.ringForm = true → u.cmdState Key.ringForm = Cmd.failed ∧ u.getF Key.ringForm 16 16 = position % 32 + 32) := by
  obtain ⟨hbreaking, hlinks, hform⟩ := formBroken_spec s position
  have hkeeps : Keeps s (s.formBroken position) := State.formBroken_keeps (Keeps.refl s)
  generalize s.formBroken position = t at *
  obtain ⟨hst, hlat, hbreaking', hkeeps', hget⟩ := ringBroken_spec t
  refine ⟨t.ringBroken, ringBreaks_eq t, hst, hlat, hbreaking'.trans hbreaking, hlinks.trans (sameLinks_ringBroken t), (hkeeps.trans hkeeps').ext.2.1.subset, fun hbusy => ?_⟩
  have hword : t.ringBroken.get Key.ringForm = statusWord Cmd.failed .hwFail (position % 32 + 32) := by
    rw [hget _ (by decide) (by decide) (by decide), State.putF, State.get_put_other _ _ (by decide), hform hbusy]
  obtain ⟨hfailed, -, hdetail⟩ := failed_of_get (by omega) hword
  exact ⟨hfailed, hdetail⟩

/-- BREAK reaches a member (R240, R241). -/
theorem exec_flitBreak {s : State} {back : Bool} {f g : Flit} (henabled : s.ringEnabled = true) (hmode : s.mode ≠ Mode.reset) (hok : flitOk f = true)
    (hback : (back && s.linkB) = false) (hg : g = { f with due := s.resolveDue f.due }) (hown : s.ownFlit f = false) :
    exec (.flitBreak back f) s = .next ((s.forward back g).formBroken (f.payload.toNat % 32)).ringBreaks := by
  have hown' : s.ownFlit g = false := by rw [hg, ownFlit_due, hown]
  have hpayload : g.payload = f.payload := by rw [hg]
  have hexec : exec (.flitBreak back f) s = execFlitBreak back f s := rfl
  rw [hexec, execFlitBreak, arrives_good henabled hmode hok hback, ← hg, hown', if_neg Bool.false_ne_true, hpayload]

/-! ## RING_LINK_DOWN (R240, R241) -/

/-- The bit of RING_STATUS of a link. -/
def linkBit (portB : Bool) : Nat := if portB then 4 else 3

/-- The link of port A or B is locked. -/
def State.linkUp (s : State) (portB : Bool) : Bool := bit (s.get Key.ringStatus) (linkBit portB)

theorem State.sameLinks.linkUp {s t : State} (h : s.sameLinks t) (portB : Bool) : t.linkUp portB = s.linkUp portB := by
  obtain ⟨hA, hB, -⟩ := h
  cases portB with
  | false => exact hA
  | true => exact hB

theorem linkUp_lost (s : State) (portB : Bool) : (s.putF Key.ringStatus (linkBit portB) 1 0).linkUp portB = false := by
  rw [State.linkUp, State.putF, State.get_put_same, bit_setField_same _ (by cases portB <;> decide)]
  rfl

theorem getF_of_linkUp {s : State} {portB : Bool} (h : s.linkUp portB = false) : s.getF Key.ringStatus (linkBit portB) 1 = 0 := by
  rw [State.linkUp, bit_eq_field, decide_eq_false_iff_not] at h
  have hlt := field_lt (s.get Key.ringStatus) (linkBit portB) 1
  rw [State.getF_eq]
  omega

/-- A field of RING_STATUS beside the links survives a lost link. -/
theorem getF_lostLink (s : State) (portB : Bool) {lo len : Nat} (h : lo + len ≤ 3 ∨ 5 ≤ lo) :
    (s.putF Key.ringStatus (linkBit portB) 1 0).getF Key.ringStatus lo len = s.getF Key.ringStatus lo len := by
  have hbit : linkBit portB = 3 ∨ linkBit portB = 4 := by cases portB <;> decide
  rw [State.getF_eq, State.putF, State.get_put_same, field_setField_other _ _ _ _ _ _ (by omega)]
  rfl

/-- The position upstream of a lost link. -/
def State.upstream (s : State) (portB : Bool) : Nat := if portB then (s.ringPos + s.ringSize - 1) % max 1 s.ringSize else s.ringPos

/-- `s` at the loss of a link: in a ring that was not DOWN it fills its slots with BREAK from then on. -/
def State.atBreak (s : State) (portB : Bool) : State :=
  let t := s.putF Key.ringStatus (linkBit portB) 1 0
  if s.ringSt = 0 then t else t.withRing { t.ring with breaking := some (s.upstream portB) }

theorem atBreak_spec (s : State) (portB : Bool) : (s.atBreak portB).linkUp portB = false ∧ (s.ringSt ≠ 0 → (s.atBreak portB).ring.breaking = some (s.upstream portB)) := by
  have hlost := linkUp_lost s portB
  rw [State.atBreak]
  split
  · next hdown => exact ⟨hlost, fun h => absurd hdown h⟩
  · exact ⟨hlost, fun _ => rfl⟩

theorem exec_ringLinkDown {s : State} {portB : Bool} (hmode : s.mode ≠ Mode.reset) (hup : s.linkUp portB = true) : exec (.ringLinkDown portB) s = .next
    (if s.ringEnabled then ((s.atBreak portB).formBroken (s.upstream portB)).ringBreaks else s.putF Key.ringStatus (linkBit portB) 1 0) := by
  have henabled : (s.putF Key.ringStatus (linkBit portB) 1 0).ringEnabled = s.ringEnabled := by
    rw [State.ringEnabled, State.putF, State.get_put_other _ _ (by decide)]
    rfl
  have hpos : (s.putF Key.ringStatus (linkBit portB) 1 0).ringPos = s.ringPos := getF_lostLink s portB (by decide)
  have hsize : (s.putF Key.ringStatus (linkBit portB) 1 0).ringSize = s.ringSize := getF_lostLink s portB (by decide)
  have hst : (s.putF Key.ringStatus (linkBit portB) 1 0).ringSt = s.ringSt := getF_lostLink s portB (by decide)
  have hexec : exec (.ringLinkDown portB) s = execRingLinkDown portB s := rfl
  have hbit : (if portB = true then 4 else 3) = linkBit portB := rfl
  have hup' : bit (s.get Key.ringStatus) (linkBit portB) = true := hup
  rw [hexec, execRingLinkDown]
  simp only [hbit, hup', hmode, henabled, hpos, hsize, hst, Bool.not_true, Bool.false_eq_true, or_self, if_false, State.atBreak, State.upstream]
  cases s.ringEnabled <;> rfl

/-! ## RING_DUE (R234-R237) -/

theorem exec_ringDue {s : State} {f : Flit} (h : earliestDue s.ring.due = some f) :
    exec .ringDue s = .next ((s.withRing { s.ring with due := s.ring.due.erase f }).flitActs f) := by
  have hexec : exec .ringDue s = execRingDue s := rfl
  rw [hexec, execRingDue, h]
  rfl

/-- A COND at its DUE is its device's contribution. -/
theorem flitActs_cond {s : State} {f : Flit} (htyp : f.typ = 5) : s.flitActs f = s.contribute f.src (BitVec.ofNat 16 f.payload.toNat) := by
  simp only [State.flitActs, htyp]

theorem contribute_spec (s : State) (src : Nat) (v : BitVec 16) : ∃ t, s.contribute src v = t ∧ t.ring.due = s.ring.due ∧ t.get Key.ringCond = toWord t.ring.conditions.toNat ∧
    t.ring.contributions = (src, v) :: s.ring.contributions.filter (fun x => x.1 != src) ∧ s.objectsBut t [Key.ringCond] := by
  obtain ⟨r, hcontribute, hdue, hlist⟩ : ∃ r : Ring, s.contribute src v = (s.withRing r).put Key.ringCond (toWord r.conditions.toNat) ∧ r.due = s.ring.due ∧
      r.contributions = (src, v) :: s.ring.contributions.filter (fun x => x.1 != src) := ⟨_, rfl, rfl, rfl⟩
  refine ⟨_, hcontribute, hdue, ?_, hlist, ((objectsBut_refl s _).of_objs).put (by decide) _⟩
  rw [State.get_put_same]
  rfl

/-- A claimed TOKEN at its DUE reaches its thread. -/
theorem flitActs_token {s : State} {f : Flit} {th : Nat} (htyp : f.typ = 6) (hmark : f.mark = true) (hthread : s.tokenThread f = some th) :
    s.flitActs f = s.takeToken th 0xFFF (s.portTime f.due - lead).toNat := by
  simp only [State.flitActs, htyp, hmark, hthread, Bool.not_true, Bool.false_eq_true, if_false]

/-- A token that no SYNC waits for is banked where a place is free. -/
theorem takeToken_banks {s : State} {th : Nat} (sender time : Nat) (hwait : (s.thread th).waitRun = none) (hplace : s.placesTaken th < 15) :
    s.takeToken th sender time = s.putThread th { s.thread th with banked := (s.thread th).banked ++ [time], depSync := (s.thread th).depSync - 1 } := by
  simp only [State.takeToken, hwait, if_neg (Nat.not_le.2 hplace)]

end Sys2Proof.Machine
end

section
/-! The flits of a ring in use: each clause of O57 from what its operation leaves. -/

namespace Sys2Proof.Machine

/-- A bad CRC is counted, and the slot goes on as ERRORED (R228). -/
theorem flit_badCrc {s : State} {back : Bool} {f : Flit} {tick grid : Nat} {c : Instr} (henabled : s.ringEnabled = true) (hmode : s.mode ≠ Mode.reset) (hbad : flitOk f = false)
    (hc : c ∈ [Instr.flitForm back f, .flitMeasure back f tick grid, .flitStartReq back f, .flitLaunch back f, .flitCond back f, .flitToken back f, .flitTrig back f, .flitBreak back f,
      .flitErrored back f]) : ∃ t blocks, exec c s = .next t ∧ t.out = s.out ++ [.flit (s.outPort back) (wire { f with typ := 9 }) blocks] ∧
        (t.get Key.ringCrcErrors).toNat = ((s.get Key.ringCrcErrors).toNat + 1) % 2 ^ 32 ∧ s.onlyRing t [Key.ringCrcErrors] ∧ t.ring = s.ring := by
  obtain ⟨blocks, hcrc⟩ := badCrc_spec s back f
  rw [exec_badCrc henabled hmode hbad hc, hcrc]
  refine ⟨_, blocks, rfl, rfl, toNat_get_count_same s _ (by decide), ⟨?_, rfl⟩, rfl⟩
  exact ((objectsBut_refl s _).put (k := Key.ringCrcErrors) (by decide) _).of_objs

section
variable {s : State} {back : Bool} {f g : Flit} (hback : (back && s.linkB) = false) (hg : g = { f with due := s.resolveDue f.due })
include hback hg

/-! ## A member's part -/

section
variable (h : s.reached f)
include h

theorem flitStartReq_member : ∃ t blocks, exec (.flitStartReq back f) s = .next t ∧ s.onlyRing t [] ∧ t.out = s.out ++ [.flit (s.outPort back) (wire { f with
        payload := if s.mode = Mode.armed ∧ s.auditSt ≠ 1 ∧ s.auditSt ≠ 2 then f.payload else f.payload ||| (1#32 <<< s.ringPos)
        mark := f.mark || (s.ring.startFlight && decide (s.ringPos < f.src)) }) blocks] ∧ f.src ∈ t.ring.starters := by
  obtain ⟨r, blocks, hpass, hstarters⟩ := startPass_spec s back (resolveDue_mod s f.due)
  have hexec : exec (.flitStartReq back f) s = execFlitStartReq back f s := rfl
  rw [hexec, execFlitStartReq, arrives_reached hback hg h State.startBack (fun x t => t.startPass back x), hg, hpass]
  exact ⟨_, blocks, rfl, onlyRing_forwarded s r _ _, rfl, hstarters⟩

theorem flitLaunch_member : ∃ t blocks, exec (.flitLaunch back f) s = .next t ∧ s.onlyRing t [] ∧ t.out = s.out ++ [.flit (s.outPort back) (wire f) blocks] ∧
        t.ring.launchDue = if s.ringJoint then some g.due else s.ring.launchDue := by
  obtain ⟨r, blocks, hpass, hlaunch⟩ := launchPass_spec s back (resolveDue_mod s f.due)
  have hexec : exec (.flitLaunch back f) s = execFlitLaunch back f s := rfl
  rw [hexec, execFlitLaunch, arrives_reached hback hg h State.flitHome (fun x t => t.launchPass back x), hg, hpass]
  exact ⟨_, blocks, rfl, onlyRing_forwarded s r _ _, rfl, hlaunch⟩

theorem exec_held {c : Instr} (hc : c ∈ [Instr.flitCond back f, .flitTrig back f]) : exec c s = .next ((s.noteFlit g).holdPass back g) := by
  have hcond : exec (.flitCond back f) s = execFlitCond back f s := rfl
  have htrig : exec (.flitTrig back f) s = execFlitTrig back f s := rfl
  have hheld := arrives_reached hback hg h State.flitHome (fun x t => t.holdPass back x)
  simp only [List.mem_cons, List.not_mem_nil, or_false] at hc
  rcases hc with rfl | rfl
  · rw [hcond, execFlitCond, hheld]
  · rw [htrig, execFlitTrig, hheld]

theorem flit_held {c : Instr} (hc : c ∈ [Instr.flitCond back f, .flitTrig back f]) (hlate : s.flitLate g = false) :
    ∃ t blocks, exec c s = .next t ∧ s.onlyRing t [] ∧ t.out = s.out ++ [.flit (s.outPort back) (wire f) blocks] ∧ t.ring.due = s.ring.due ++ [g] := by
  rw [exec_held hback hg h hc]
  subst hg
  obtain ⟨r, blocks, hpass, hdue⟩ := holdPass_spec s back (resolveDue_mod s f.due) hlate
  rw [hpass]
  exact ⟨_, blocks, rfl, onlyRing_forwarded s r _ _, rfl, hdue⟩

theorem exec_flitToken_member : exec (.flitToken back f) s = .next ((s.noteFlit g).tokenPass back g) := by
  have hexec : exec (.flitToken back f) s = execFlitToken back f s := rfl
  rw [hexec, execFlitToken, arrives_reached hback hg h _ (fun x t => t.tokenPass back x)]

theorem flitToken_other (hthread : s.tokenThread f = none) (hlate : s.flitLate g = false) : ∃ t blocks, exec (.flitToken back f) s = .next t ∧ s.onlyRing t [] ∧
    t.out = s.out ++ [.flit (s.outPort back) (wire f) blocks] ∧ t.ring.due = s.ring.due := by
  rw [exec_flitToken_member hback hg h]
  subst hg
  obtain ⟨r, blocks, hpass, hdue⟩ := tokenPass_other s back (resolveDue_mod s f.due) hlate hthread
  rw [hpass]
  exact ⟨_, blocks, rfl, onlyRing_forwarded s r _ _, rfl, hdue⟩

theorem flitToken_claimed {th : Nat} (hthread : s.tokenThread f = some th) (hlate : s.flitLate g = false) (hplace : s.placesTaken th < 15) :
    ∃ t blocks, exec (.flitToken back f) s = .next t ∧ s.onlyRing t [] ∧ t.out = s.out ++ [.flit (s.outPort back) (wire { f with mark := true }) blocks] ∧
      t.ring.due = s.ring.due ++ [{ g with mark := true }] := by
  rw [exec_flitToken_member hback hg h]
  subst hg
  obtain ⟨r, blocks, hpass, hdue⟩ := tokenPass_claimed s back (resolveDue_mod s f.due) hthread hlate hplace
  rw [hpass]
  exact ⟨_, blocks, rfl, onlyRing_forwarded s r _ _, rfl, hdue⟩

theorem flitToken_lost {th : Nat} (hthread : s.tokenThread f = some th) (hlost : s.flitLate g = true ∨ 15 ≤ s.placesTaken th) :
    exec (.flitToken back f) s = .next (((s.noteFlit g).ringFault 60 (.thread th)).forward back g) := by
  have hthread' : s.tokenThread g = some th := by rw [hg, tokenThread_due, hthread]
  rw [exec_flitToken_member hback hg h, tokenPass_lost back hthread' hlost]

end

/-! ## Home (R230, R232, R233) -/

section
variable (henabled : s.ringEnabled = true) (hmode : s.mode ≠ Mode.reset) (hok : flitOk f = true) (hown : s.ownFlit f = true)
include henabled hmode hok hown

theorem exec_home {c : Instr} (hc : c ∈ [Instr.flitLaunch back f, .flitCond back f, .flitTrig back f, .flitBreak back f] ∨ (c = .flitToken back f ∧ f.mark = true)) :
    exec c s = .next (s.flitHome f) := by
  have hlaunch : exec (.flitLaunch back f) s = execFlitLaunch back f s := rfl
  have hcond : exec (.flitCond back f) s = execFlitCond back f s := rfl
  have htrig : exec (.flitTrig back f) s = execFlitTrig back f s := rfl
  have hbreak : exec (.flitBreak back f) s = execFlitBreak back f s := rfl
  have htoken : exec (.flitToken back f) s = execFlitToken back f s := rfl
  have hhome := arrives_own hback hg henabled hmode hok hown
  have hdue : s.flitHome g = s.flitHome f := by rw [hg, flitHome_due]
  have hmark : g.mark = f.mark := by rw [hg]
  simp only [List.mem_cons, List.not_mem_nil, or_false] at hc
  rcases hc with (rfl | rfl | rfl | rfl) | ⟨rfl, hclaimed⟩
  · rw [hlaunch, execFlitLaunch, hhome State.flitHome, hdue]
  · rw [hcond, execFlitCond, hhome State.flitHome, hdue]
  · rw [htrig, execFlitTrig, hhome State.flitHome, hdue]
  · rw [hbreak, execFlitBreak, hhome State.flitHome, hdue]
  · rw [htoken, execFlitToken, hhome (fun t x => if x.mark then t.flitHome x else (t.flitHome x).count Key.tokensUnclaimed 32), hmark, if_pos hclaimed, hdue]

theorem flitToken_unclaimed (hmark : f.mark = false) : ∃ t, exec (.flitToken back f) s = .next t ∧
    (t.get Key.tokensUnclaimed).toNat = ((s.get Key.tokensUnclaimed).toNat + 1) % 2 ^ 32 ∧ s.onlyRing t [Key.tokensUnclaimed] := by
  have hexec : exec (.flitToken back f) s = execFlitToken back f s := rfl
  have hmark' : g.mark = false := by rw [hg, hmark]
  have hdue : s.flitHome g = s.flitHome f := by rw [hg, flitHome_due]
  obtain ⟨r, hhome, -⟩ := flitHome_spec s f
  rw [hexec, execFlitToken, arrives_own hback hg henabled hmode hok hown (fun t x => if x.mark then t.flitHome x else (t.flitHome x).count Key.tokensUnclaimed 32), hmark',
    if_neg Bool.false_ne_true, hdue, hhome]
  refine ⟨_, rfl, toNat_get_count_same (s.withRing r) _ (by decide), ?_, rfl⟩
  exact ((objectsBut_refl s _).of_objs (u := s.withRing r)).put (by decide) _

theorem exec_flitStartReq_home : exec (.flitStartReq back f) s = .next (s.startBack g) := by
  have hexec : exec (.flitStartReq back f) s = execFlitStartReq back f s := rfl
  rw [hexec, execFlitStartReq, arrives_own hback hg henabled hmode hok hown State.startBack]

section
variable (hflight : s.ring.startFlight = true)
include hflight

theorem flitStartReq_launches {x : Flit} (hmark : f.mark = false) (hpayload : f.payload = 0) (hfind : s.ring.inFlight.find? (fun x => x.typ == 3 && x.seq == f.seq) = some x) :
    ∃ t, exec (.flitStartReq back f) s = .next t ∧ t.ring.launchDue = some (frefEdge (x.due + s.leadTicks + 2 * s.ringLatTicks)) ∧ t.ring.startFlight = false ∧
      (∃ l ∈ t.ring.pendingFlits, l.typ = 4 ∧ l.due = frefEdge (x.due + s.leadTicks + 2 * s.ringLatTicks)) ∧ t.objs = s.objs := by
  have hmark' : g.mark = false := by rw [hg, hmark]
  have hpayload' : g.payload = 0 := by rw [hg, hpayload]
  have hseq : g.seq = f.seq := by rw [hg]
  obtain ⟨t, hback', hspec⟩ := startBack_launches (f := g) hflight hmark' hpayload' (by rw [hseq]; exact hfind)
  exact ⟨t, by rw [exec_flitStartReq_home hback hg henabled hmode hok hown, hback'], hspec⟩

variable (hbusy : s.cmdBusy Key.burstStart = true)
include hbusy

theorem flitStartReq_marked {pos : Nat} (hmark : f.mark = true) (hmarker : s.marker = some pos) : ∃ t, exec (.flitStartReq back f) s = .next t ∧
    t.cmdState Key.burstStart = Cmd.failed ∧ t.getF Key.burstStart 8 6 = Code.busy.toNat ∧ t.getF Key.burstStart 16 16 = pos := by
  have hmark' : g.mark = true := by rw [hg, hmark]
  have hpos := marker_lt hmarker
  rw [exec_flitStartReq_home hback hg henabled hmode hok hown, startBack_marked hflight hbusy hmark' hmarker]
  exact ⟨_, rfl, cmdFail_spec _ _ _ (by omega)⟩

theorem flitStartReq_unready (hmark : f.mark = false) (hpayload : f.payload ≠ 0) : ∃ t, exec (.flitStartReq back f) s = .next t ∧
    t.cmdState Key.burstStart = Cmd.failed ∧ t.getF Key.burstStart 8 6 = Code.wrongMode.toNat ∧ (bitsOf 32 f.payload.toNat).head? = some (t.getF Key.burstStart 16 16) := by
  have hmark' : g.mark = false := by rw [hg, hmark]
  have hpayload' : g.payload = f.payload := by rw [hg]
  obtain ⟨i, hhead, hi⟩ := bitsOf_head hpayload
  have hhead' : (bitsOf 32 f.payload.toNat).headD 0 = i := by rw [List.headD_eq_head?_getD, hhead, Option.getD_some]
  rw [exec_flitStartReq_home hback hg henabled hmode hok hown, startBack_unready hflight hbusy hmark' (by rw [hpayload']; exact hpayload), hpayload', hhead', hhead]
  obtain ⟨hfailed, hcode, hdetail⟩ := cmdFail_spec ((s.flitHome g).endJoint .wrongMode) Key.burstStart .wrongMode (detail := i) (by omega)
  exact ⟨_, rfl, hfailed, hcode, congrArg some hdetail.symm⟩

end

end

/-! ## ERRORED and BREAK (R228, R240, R241) -/

section
variable (henabled : s.ringEnabled = true) (hmode : s.mode ≠ Mode.reset) (hok : flitOk f = true)
include henabled hmode hok

/-- A flit of this device that a bad CRC met goes out once more. -/
theorem flitErrored_resent {x : Flit} (hfind : s.ring.inFlight.find? (fun x => f.src == s.ringPos && x.seq == f.seq) = some x) (hfirst : x.resent = false) :
    ∃ t, exec (.flitErrored back f) s = .next t ∧ t.ring.pendingFlits = { x with resent := true } :: s.ring.pendingFlits ∧ { t with ring := s.ring } = s := by
  obtain ⟨q, hhome, hq⟩ := flitHome_spec s x
  have hpending : q.pendingFlits = s.ring.pendingFlits := by rw [hq]
  rw [exec_flitErrored henabled hmode hok hback hg, hfind]
  simp only [hfirst, Bool.false_eq_true, if_false, hhome, State.withRing_ring, State.withRing_withRing, hpending]
  exact ⟨_, rfl, rfl, rfl⟩

theorem flitErrored_passes (hother : f.src ≠ s.ringPos) :
    ∃ t blocks, exec (.flitErrored back f) s = .next t ∧ t.out = s.out ++ [.flit (s.outPort back) (wire f) blocks] ∧ { t with out := s.out } = s := by
  have hfind : s.ring.inFlight.find? (fun x => f.src == s.ringPos && x.seq == f.seq) = none := List.find?_eq_none.2 (fun x _ => by simp [hother])
  obtain ⟨blocks, hforward⟩ := forward_resolved s s back f
  rw [exec_flitErrored henabled hmode hok hback hg, hfind, hg]
  simp only [hforward]
  exact ⟨_, blocks, rfl, rfl, rfl⟩

theorem flitBreak_member (hown : s.ownFlit f = false) : ∃ (u : State) (blocks : List Nat), exec (.flitBreak back f) s = .next (u.ringFault 59 .none) ∧ u.ringSt = 0 ∧
    u.get Key.ringLat = 0 ∧ Output.flit (s.outPort back) (wire f) blocks ∈ u.out ∧
    (s.cmdBusy Key.ringForm = true → u.cmdState Key.ringForm = Cmd.failed ∧ u.getF Key.ringForm 16 16 = f.payload.toNat % 32 + 32) := by
  obtain ⟨blocks, hforward⟩ := forward_resolved s s back f
  rw [exec_flitBreak henabled hmode hok hback hg hown, hg, hforward]
  obtain ⟨u, hbreaks, hst, hlat, -, -, hout, hform⟩ := formBroken_ringBroken_spec (s.emit (.flit (s.outPort back) (wire f) blocks)) (f.payload.toNat % 32)
  rw [Nat.mod_mod] at hform
  exact ⟨u, blocks, by rw [hbreaks], hst, hlat, hout (List.mem_append_right _ (List.mem_singleton_self _)), hform⟩

end

end

/-! ## RING_DUE (R234-R237) -/

section
variable {s : State} {f : Flit} (hfirst : earliestDue s.ring.due = some f)
include hfirst

theorem ringDue_cond (htyp : f.typ = 5) : ∃ t, exec .ringDue s = .next t ∧ t.ring.due = s.ring.due.erase f ∧ t.get Key.ringCond = toWord t.ring.conditions.toNat ∧
    t.ring.contributions = (f.src, BitVec.ofNat 16 f.payload.toNat) :: s.ring.contributions.filter (fun x => x.1 != f.src) ∧ s.objectsBut t [Key.ringCond] := by
  rw [exec_ringDue hfirst, flitActs_cond htyp]
  obtain ⟨t, hcontribute, hspec⟩ := contribute_spec (s.withRing { s.ring with due := s.ring.due.erase f }) f.src (BitVec.ofNat 16 f.payload.toNat)
  exact ⟨t, by rw [hcontribute], hspec⟩

theorem ringDue_token {th : Nat} (htyp : f.typ = 6) (hmark : f.mark = true) (hthread : s.tokenThread f = some th) (hwait : (s.thread th).waitRun = none)
    (hplace : (s.withRing { s.ring with due := s.ring.due.erase f }).placesTaken th < 15) :
    ∃ t, exec .ringDue s = .next t ∧ t.ring.due = s.ring.due.erase f ∧ (t.thread th).banked = (s.thread th).banked ++ [(s.portTime f.due - 512000).toNat] ∧
      (t.thread th).depSync = (s.thread th).depSync - 1 ∧ t.objs = s.objs := by
  have hthread' : (s.withRing { s.ring with due := s.ring.due.erase f }).tokenThread f = some th := hthread
  have hwait' : ((s.withRing { s.ring with due := s.ring.due.erase f }).thread th).waitRun = none := hwait
  rw [exec_ringDue hfirst, flitActs_token htyp hmark hthread', takeToken_banks _ _ hwait' hplace]
  refine ⟨_, rfl, rfl, ?_, ?_, rfl⟩
  · rw [State.thread_putThread, if_pos rfl]
    rfl
  · rw [State.thread_putThread, if_pos rfl]
    rfl

end

/-! ## RING_LINK_DOWN (R240, R241) -/

section
variable {s : State} {portB : Bool} (hmode : s.mode ≠ Mode.reset) (hup : s.linkUp portB = true)
include hmode hup

theorem ringLinkDown_disabled (henabled : s.ringEnabled = false) : ∃ t, exec (.ringLinkDown portB) s = .next t ∧ t.getF Key.ringStatus (linkBit portB) 1 = 0 ∧
    s.onlyObjects t [Key.ringStatus] := by
  rw [exec_ringLinkDown hmode hup, henabled, if_neg Bool.false_ne_true]
  exact ⟨_, rfl, getF_of_linkUp (linkUp_lost s portB), onlyObjects_putF (onlyObjects_refl s _) (by decide) _ 1 0⟩

theorem ringLinkDown_enabled (henabled : s.ringEnabled = true) : ∃ u : State, exec (.ringLinkDown portB) s = .next (u.ringFault 59 .none) ∧
    u.getF Key.ringStatus (linkBit portB) 1 = 0 ∧ u.ringSt = 0 ∧ u.get Key.ringLat = 0 ∧ (s.ringSt ≠ 0 → u.ring.breaking = some (s.upstream portB)) := by
  obtain ⟨hlost, hfills⟩ := atBreak_spec s portB
  obtain ⟨u, hbreaks, hst, hlat, hbreaking, hlinks, -⟩ := formBroken_ringBroken_spec (s.atBreak portB) (s.upstream portB)
  rw [exec_ringLinkDown hmode hup, henabled, if_pos rfl, hbreaks]
  exact ⟨u, rfl, getF_of_linkUp ((hlinks.linkUp portB).trans hlost), hst, hlat, fun hused => hbreaking.trans (hfills hused)⟩

end

end Sys2Proof.Machine

open Sys2Proof Sys2Proof.Machine

/-- Settles O57: a flit with a bad CRC meets the same whatever it is; a good one is another device's, on which a member acts and which it forwards, or this device's and home;
what waited for its DUE and what a break leaves follow from the operations of the ring. -/
theorem flitsAct : Obligations.FlitsAct := by
  intro s back f g hback hg
  refine ⟨fun henabled hmode hbad tick grid c hc => flit_badCrc henabled hmode hbad hc, fun h => ⟨?_, ?_, ?_, ?_, ?_, ?_⟩, fun henabled hmode hok hown => ⟨?_, ?_, ?_⟩,
    fun henabled hmode hok => ⟨?_, ?_, ?_⟩, fun hfirst => ⟨?_, ?_⟩, fun portB hmode hup => ⟨?_, ?_⟩⟩
  · exact flitStartReq_member hback hg h
  · exact flitLaunch_member hback hg h
  · exact fun c hc hlate => flit_held hback hg h hc hlate
  · exact fun c hc hlate => by rw [exec_held hback hg h hc, holdPass_late back hlate]
  · exact flitToken_other hback hg h
  · exact fun th hthread => ⟨flitToken_claimed hback hg h hthread, flitToken_lost hback hg h hthread⟩
  · intro c hc
    obtain ⟨r, hhome, hcredit, hgone⟩ := flitHome_own hown
    exact ⟨_, by rw [exec_home hback hg henabled hmode hok hown hc, hhome], hcredit, hgone, rfl⟩
  · exact flitToken_unclaimed hback hg henabled hmode hok hown
  · intro _ hflight
    exact ⟨fun x => flitStartReq_launches hback hg henabled hmode hok hown hflight, fun pos hmark hmarker hbusy =>
      flitStartReq_marked hback hg henabled hmode hok hown hflight hbusy hmark hmarker, fun hmark hpayload hbusy =>
      flitStartReq_unready hback hg henabled hmode hok hown hflight hbusy hmark hpayload⟩
  · exact fun x => flitErrored_resent hback hg henabled hmode hok
  · exact flitErrored_passes hback hg henabled hmode hok
  · exact flitBreak_member hback hg henabled hmode hok
  · exact ringDue_cond hfirst
  · exact fun th => ringDue_token hfirst
  · exact ringLinkDown_disabled hmode hup
  · exact ringLinkDown_enabled hmode hup
end
